-- ==== Sys2Proof/Word.lean ====
section
/-! DEFINITION. The words of the controller: register words, bytes, time-base values (R10, R11, R13, R15). -/

namespace Sys2Proof

/-- A register word or a doubleword of a descriptor (R15). -/
abbrev Word := BitVec 32

/-- A byte of a memory (R10). -/
abbrev Byte := BitVec 8

end Sys2Proof
end

