-- ==== Sys2Proof/Syntax.lean ====
section
/-! DEFINITION. The commands the controller takes: one constructor per row of spec/opcode_table.json, with the operands that
the step's rule gives it, and the types of those operands. -/

namespace Sys2Proof

/-- The masters of the controller (R45). `tunnel st` is the ring management tunnel from station `st`. -/
inductive Master where
  | host | mp | service
  | tunnel (st : Fin 64)
  deriving DecidableEq, Repr

/-- Where an access enters: by device address, or through a BAR of the PCIe function (R43). -/
inductive View where
  | device | bar0 | bar2 | bar4
  deriving DecidableEq, Repr

/-- An address as a master gives it: a view and an offset in it (R40, R43). -/
structure BusAddr where
  view : View
  off  : Nat
  deriving DecidableEq, Repr

/-- The two entry rings, whose consumer position the host writes (R70). -/
inductive EntryRing where
  | cq | er
  deriving DecidableEq, Repr

/-- What a read of host memory brought: its doublewords, or an error completion or completion timeout (R71). -/
inductive Fetched where
  | data (dw : List Word)
  | error
  deriving DecidableEq, Repr

/-- What the MP's read of host memory brought (R71): the bytes that arrived, and whether the read failed after them. -/
structure HostRead where
  bytes  : List Byte
  failed : Bool
  deriving DecidableEq, Repr

/-- What the flash answers while it programs (R538): it has programmed and reads back, its read-back has failed, or it still works. -/
inductive FlashAnswer where
  | done | failed | busy
  deriving DecidableEq, Repr

/-- An echo (R270): a rising edge of the ECHO ball at a TB, or an ECHO block with its tag and OFFSET. -/
inductive Echo where
  | edge (t : BitVec 64)
  | block (tag : Byte) (offset : Int)
  deriving DecidableEq, Repr

/-- How a read of Barrow returns (R376): with data, with an error completion, or poisoned. -/
inductive ReadResult where
  | data (bytes : List Byte)
  | error
  | poisoned
  deriving DecidableEq, Repr

/-- The trained link rates of R52, in the order of HOST_STAT.SPEED (R65). -/
inductive LinkSpeed where
  | gt2_5 | gt5 | gt8 | gt16 | gt32
  deriving DecidableEq, Repr

/-- The trained link widths of R52. -/
inductive LinkWidth where
  | x1 | x2 | x4 | x8
  deriving DecidableEq, Repr

/-! ## Frames of the Tchitric ring (R389 to R396) -/

/-- The IEEE 1588 messages that the station consumes (R400). -/
inductive PtpKind where
  | sync | followUp | pdelayReq | pdelayResp | pdelayRespFollowUp
  | other (k : Nat)
  deriving DecidableEq, Repr

/-- One IEEE 1588 message: its kind, domain, sequence number, correctionField in units of 2^-16 ns, and timestamp in ns. -/
structure PtpMsg where
  kind   : PtpKind
  domain : Nat
  seqId  : Nat
  corr   : Int
  stamp  : Nat
  deriving DecidableEq, Repr

/-- The payload of a ring frame, by its type (R395, R396). Times are ring times. -/
inductive RingMsg where
  | hello (scope vmax vmin vcap rver : Nat) (master locked dup : Bool) (epoch stationId : Nat)
  | versionAgree (phase v epoch leader : Nat) (mask act : Nat)
  | track (ctx kind status : Nat) (reject : Bool) (seq pos time : Nat)
  | pgo (relay pol count time : Nat)
  | venc (samples : List (Nat × Nat × Nat))
  | reject (ctx vote status seq pos time : Nat)
  | mgmt (op tag count status addr : Nat) (data : List Word)
  | service (session kind sseq ackseq : Nat) (data : List Byte)
  | ptp (m : PtpMsg)
  | other (type : Nat) (data : List Byte)
  deriving DecidableEq, Repr

/-- A ring frame after its Ethernet header: the ring header of R390 and the payload. -/
structure RingFrame where
  ver    : Nat
  west   : Bool
  uncorr : Bool
  unsync : Bool
  rest   : Nat
  hops   : Nat
  src    : Nat
  dst    : Nat
  seq    : Nat
  joinId : Nat
  msg    : RingMsg
  deriving DecidableEq, Repr

/-- What is wrong with a received Ethernet frame: nothing, its FCS, its length, its destination address, its EtherType, or that it is a
pause frame (R386, R389). -/
inductive FrameFault where
  | none | fcs | length | address | etherType | pause
  deriving DecidableEq, Repr

/-- How a chopper on-phase ends (R430, R431): by T_ONLIM, by the comparator, or by the comparator already at the end of T_MASK. -/
inductive PhaseEnd where
  | limit | trip | atMask
  deriving DecidableEq, Repr

/-- Whose scheduled reject pulses: a context's (R129) or a relay entry's (R411). -/
inductive PulseOwner where
  | context (n : Fin 255)
  | relay (i : Fin 16)
  deriving DecidableEq, Repr

/-- A Buriober request as it arrives (R531, R533): by the service port, with SESSION, SEQ and payload; or as the next frame of the byte
stream of a tunnel session. -/
inductive LoaderReq where
  | usb (session seq : BitVec 32) (body : List (BitVec 8))
  | tunnel (st : Fin 64) (num : BitVec 8)
  deriving DecidableEq, Repr

/-- A frame that is not well formed (R533): its bytes at the service port, or what the stream of a tunnel session begins with. -/
inductive LoaderJunk where
  | usb (bytes : List (BitVec 8))
  | tunnel (st : Fin 64) (num : BitVec 8)
  deriving DecidableEq, Repr

/-- How the data bits of a word read after its pulses: at the strict and at the lenient margin (R520). -/
structure Pulsed where
  strict  : BitVec 64
  lenient : BitVec 64
  deriving DecidableEq, Repr

/-- What the identity bus brings at the start of an operation (R345, R350): no acknowledge, an error of the bus, or the device's UID and
VERSION. -/
inductive BusAnswer where
  | noAck
  | busError
  | device (uid : List (BitVec 8)) (version : BitVec 8)
  deriving DecidableEq, Repr

/-- What a poll of STATUS brings (R345): no acknowledge, an error of the bus, or STATUS with the bytes read after it. -/
inductive PollAnswer where
  | noAck
  | busError
  | status (v : BitVec 8) (data : List (BitVec 8))
  deriving DecidableEq, Repr

/-- The capabilities of the PCIe function (R54). -/
inductive Capability where
  | power | express | msix | aer | serial
  deriving DecidableEq, Repr

/-- A PCIe configuration request (R53 to R55, R60, R73): a read of a word of the configuration space or of a capability, or a write of one of the fields the
spec names. `bar` names the BARs 0, 2 and 4. -/
inductive ConfigReq where
  | read (off : Nat)
  | capability (c : Capability) (word : Nat)
  | d3hot (on : Bool)
  | maxPayload (log : Fin 3)
  | maxReadRequest (log : Fin 6)
  | extendedTag (on : Bool)
  | msix (enable mask : Bool)
  | bar (k : Fin 3) (base : Nat)
  | other (off : Nat) (v : Word)
  deriving DecidableEq, Repr


/-- The commands of the controller: one constructor per row of the table of operations and events. -/
inductive Instr where
  /-- REGISTER_WRITE, R17: A master writes a register that has no row of its own, with the effect of its access code. -/
  | registerWrite (m : Master) (a : BusAddr) (len : Nat) (words : List Word)
  /-- DOORBELL, R77: A 32-bit write to the doorbell page sets a new producer position for a host-produced ring after the range check of R74. -/
  | doorbell (m : Master) (r : Fin 49) (v : Word)
  /-- HOST_RCONS_WRITE, R74: The host writes the consumer position of the CQ or the ER, which releases entries to the controller. -/
  | hostRconsWrite (m : Master) (q : EntryRing) (v : Word)
  /-- RING_ENABLE, R72: Setting HOST_RCTL.ENABLE starts a DISABLED ring at INDEX 0, PHASE 1, or is held until DRAINING ends. -/
  | ringEnable (m : Master) (k : Fin 51) (v : Word)
  /-- RING_DISABLE, R72: Clearing HOST_RCTL.ENABLE stops fetching and takes the ring to DRAINING. -/
  | ringDisable (m : Master) (k : Fin 51) (v : Word)
  /-- RING_RESUME, R71: A write of RESUME to a STOPPED ring re-reads the descriptor at HOST_RCONS and returns the ring to ACTIVE when that descriptor is valid. -/
  | ringResume (m : Master) (k : Fin 51) (d : Fetched)
  /-- RING_DRAINED, R72: A DRAINING ring goes to DISABLED once every descriptor fetched from it has completed. -/
  | ringDrained (k : Fin 51)
  /-- CFG_DONE, R66: A write of 1 to HOST_CTL.CFG_DONE clears CFG_RETRY. -/
  | cfgDone (m : Master) (v : Word)
  /-- CFG_RETRY_TIMEOUT, R60: When 900 ms pass with CFG_RETRY still set, the hardware clears it and sets MP_LATE. -/
  | cfgRetryTimeout
  /-- PERST_N, R62: PERST_N resets the HOST domain and halts Barrow with cause HOST_RESET, while queued jobs keep printing. -/
  | perstN (low : Bool)
  /-- FUNCTION_LEVEL_RESET, R62: A Function Level Reset acts as a HOST-domain reset, as PERST_N does. -/
  | functionLevelReset
  /-- PCIE_LINK_CHANGE, R59: The link retrains to a lower rate or width, and a LINK_CHANGE event is written. -/
  | pcieLinkChange (speed : LinkSpeed) (width : LinkWidth)
  /-- PCIE_LINK_DOWN, R59: The PCIe link goes down: descriptor fetching stops, printing continues and entries are held. -/
  | pcieLinkDown
  /-- DESCRIPTOR_FETCH, R75: A descriptor fetch completes and the descriptor is checked for phase, or the fetch fails with FETCH_ERROR. -/
  | descriptorFetch (k : Fin 49) (d : Fetched)
  /-- PHASE_RETRY, R75: After 1 µs a descriptor with the wrong phase is read again, and after 4 tries the ring goes to STOPPED. -/
  | phaseRetry (k : Fin 49) (d : Fetched)
  /-- CQ_ENTRY_WRITE, R76: A waiting completion is written when the CQ has room, or is dropped and counted when the internal queue is full. -/
  | cqEntryWrite
  /-- ER_OVERFLOW, R76: When the ER next has room after losses, one ER_OVERFLOW event carrying HOST_ER_LOST is written. -/
  | erOverflow
  /-- COALESCE_TIMEOUT, R73: COAL_T µs after the first unsignalled entry, the ring's vector is raised. -/
  | coalesceTimeout (k : Fin 51)
  /-- TOKEN_ACQUIRE, R47: ACQUIRE takes a free OWN token for the writing master. -/
  | tokenAcquire (m : Master) (n : Fin 32) (tag : BitVec 16)
  /-- TOKEN_RELEASE, R47: RELEASE frees an OWN token held by the writing master. -/
  | tokenRelease (m : Master) (n : Fin 32)
  /-- TOKEN_FORCE, R49: FORCE takes an OWN token whoever held it, and sets TAKEN and writes TOKEN_TAKEN when another master held it. -/
  | tokenForce (m : Master) (n : Fin 32) (tag : BitVec 16)
  /-- TOKEN_TAG_WRITE, R47: ACTION NONE writes TAG when the writing master holds the token. -/
  | tokenTagWrite (m : Master) (n : Fin 32) (tag : BitVec 16)
  /-- NOP, R78: A NOP descriptor completes OK and serves as a fence on the CR. -/
  | nop (k : Fin 49)
  /-- JOB_FETCH, R86: A fetched job descriptor is checked and either refused or presented to its context queue. -/
  | jobFetch (r : Fin 16)
  /-- JOB_ENTER_QUEUE, R89: A job held at its ring enters its context queue once the queue has room and its WAIT condition is met. -/
  | jobEnterQueue (r : Fin 16)
  /-- CTX_BIND, R103: The command binds a context's sources, ranges and patch area, hands over the shadow set and sets ARMED. -/
  | ctxBind
  /-- CTX_UNBIND, R105: The command cancels the queued jobs, releases the ranges and patch area and sets UNBOUND. -/
  | ctxUnbind
  /-- HALT, R112: CTX_CONTROL HALT takes a context to HALTED or DRAINING, or sets HALT_PEND in FAULTED. -/
  | halt
  /-- RESUME, R112: CTX_CONTROL RESUME returns a HALTED context to ARMED, or clears HALT_PEND. -/
  | resume
  /-- FLUSH, R112: CTX_CONTROL FLUSH completes every queued job CANCELLED in a HALTED or FAULTED context. -/
  | flush
  /-- RECOVER, R112: CTX_CONTROL RECOVER leaves the causes SUPPLY and FREEZE_RELEASE of a FAULTED context. -/
  | recover
  /-- COMMIT, R120: CTX_COMMIT.COMMIT validates the shadow set and sets COMMIT_PEND. -/
  | commit (m : Master) (n : Fin 255)
  /-- CANCEL, R120: CTX_COMMIT.CANCEL clears COMMIT_PEND. -/
  | cancel (m : Master) (n : Fin 255)
  /-- IMMEDIATE, R124: CTX_COMMIT.IMMEDIATE hands the shadow set over at once in HALTED, and is refused in any other state. -/
  | immediate (m : Master) (n : Fin 255)
  /-- PGO_ACCEPT, R146: A print-go transition that held its level for the filter time is accepted and timestamped. -/
  | pgoAccept (n : Fin 32) (level : Bool) (t : BitVec 64)
  /-- PRINT_GO_EDGE, R113: An accepted print-go edge reaches a context and is locked out, ignored or accepted. -/
  | printGoEdge (n : Fin 255)
  /-- PRINT_GO_TIMEOUT, R117: Forward travel reaches TIMEOUT and the head job completes NO_PRODUCT, referenced to the timeout position. -/
  | printGoTimeout (n : Fin 255)
  /-- REJECT_PULSE, R128: The forward position reaches a scheduled reject position and REJ_OUT is asserted for REJ_WIDTH. -/
  | rejectPulse (o : PulseOwner)
  /-- REJECT_PULSE_END, R131: REJ_WIDTH after assertion the reject pulse ends. -/
  | rejectPulseEnd (k : Nat)
  /-- ENCODER_EDGE, R142: An encoder transition that held for the filter time is accepted, timestamped and counted. -/
  | encoderEdge (n : Fin 16) (a b : Bool) (t : BitVec 64)
  /-- Z_EDGE, R144: A rising Z edge compares the edges counted with ZCPR and reports ENC_ZCHECK on a mismatch. -/
  | zEdge (e : Fin 16 × BitVec 64)
  /-- TRACKER_VISIT, R150: The source stage visits a tracker and updates it with the latest unused measurement. -/
  | trackerVisit (n : Fin 24)
  /-- TRACKER_STILL, R152: No edge or sample arrives for the STILL time, and the tracker zeroes its velocity and returns to STILL. -/
  | trackerStill (n : Fin 24)
  /-- CONTEXT_VISIT, R159: In its slot, the context stage computes edge positions, releases, solves and commits lines of one context. -/
  | contextVisit (slot : Fin 256)
  /-- TB_SYNC, R138: Every 1,024 REFCLK25 cycles AON sends each TB mirror its synchronisation, which the mirror adopts. -/
  | tbSync (k : Fin 17) (cross : Nat)
  /-- MIRROR_CALIBRATED, R139: A TB mirror completes its calibration of 256 round trips after its island clock starts. -/
  | mirrorCalibrated (c : Fin 17 × List Nat)
  /-- MORAINE_WRITE, R34: A master write to Moraine is executed, with a read-modify-write of partly covered words. -/
  | moraineWrite (m : Master) (a : BusAddr) (data : List (Option Byte))
  /-- SCRUB_READ, R181: Every SCRUB_INT µs one word of each present bank is read and corrected or reported. -/
  | scrubRead
  /-- ECC_WRITE_BACK, R182: A scheduled correction is written back in the first bank cycle that no other access wants. -/
  | eccWriteBack (c : Fin 64 × List (Fin 0x800000 × BitVec 72))
  /-- DS_INIT_COMPLETE, R179: The zero initialisation of a DS domain ends and its banks accept accesses. -/
  | dsInitComplete (ds1 : Bool)
  /-- PLATE_DESCRIPTOR_WRITE, R185: A write to word +0xC puts a plate descriptor in force and checks it. -/
  | plateDescriptorWrite (m : Master) (d : Fin 4096) (v : Word)
  /-- BLOCK_ALLOCATE, R189: A job's patch block is allocated in the patch area once space exists, and its patch fetch starts. -/
  | blockAllocate (n : Fin 255)
  /-- PATCH_RESIDENT, R191: Every write of a patch fetch has its response, and the patch becomes resident. -/
  | patchResident (n : Fin 255) (k : Fin 2) (j : Nat)
  /-- COMPOSE, R197: A compose engine takes the next request and composes its line from up to four layers. -/
  | compose
  /-- LINE_FIFO_ENTRY, R201: An engine waiting for a free entry of a port's line FIFO takes it and writes its entry. -/
  | lineFifoEntry (p : Fin 16)
  /-- SCAN_CONFIG_COMMIT, R212: A write of SHR_CTXn_ALIGN_R puts the three scanning words in force together. -/
  | scanConfigCommit (m : Master) (n : Fin 255) (v : Word)
  /-- STITCH_ZONE_WRITE, R223: A write of a zone's word at +0x4 puts the zone in force and checks reason 0x4. -/
  | stitchZoneWrite (m : Master) (z : Fin 64) (v : Word)
  /-- MASK_CHECK, R220: SHR_CHECK.GO starts a check of a mask set. -/
  | maskCheck (m : Master) (v : Word)
  /-- MASK_CHECK_DONE, R220: A mask-set check completes and reports its RESULT. -/
  | maskCheckDone
  /-- SUBSTITUTION_ENTRY_WRITE, R227: A write of an entry's word at +0xC puts a substitution entry in force and checks it. -/
  | substitutionEntryWrite (m : Master) (e : Fin 8192) (v : Word)
  /-- GRF_NSET, R225: A GRF_NSET write sets the status of one nozzle. -/
  | grfNset (m : Master) (v : Word)
  /-- PORT_ENABLE, R242: Setting PORT_CFG.EN checks the configuration and starts the path to READY, with training in mode C. -/
  | portEnable (m : Master) (p : Fin 16) (v : Word)
  /-- PORT_DISABLE, R279: Clearing PORT_CFG.EN drops every line, puts the balls in the safe state and aborts the products on the port. -/
  | portDisable (m : Master) (p : Fin 16) (v : Word)
  /-- FIRE_EVENT, R247: A committed fire event arrives at a head port. -/
  | fireEvent (p : Fin 16)
  /-- LINE_SHIFT, R245: The port begins to shift the entry at the head of its FIFO once it is complete and the previous line is latched. -/
  | lineShift (p : Fin 16)
  /-- LINE_LATCH, R245: The port latches a shifted line at the later of shift end plus T_SL and pulse end plus T_LH. -/
  | lineLatch (p : Fin 16)
  /-- LINE_JUDGE, R247: At the later of fire event arrival and T − S_p the line is judged, and a late line is freed unstrobed. -/
  | lineJudge (p : Fin 16)
  /-- STROBE, R290: At the fire time the strobes rise, or the STROBE block is sent, and the pulse starts. -/
  | strobe (p : Fin 16)
  /-- PULSE_END, R290: STB1 falls at the end of the pulse. -/
  | pulseEnd (p : Fin 16)
  /-- QUIET_POINT, R306: The port reaches a quiet point and Rose puts its pending settings in force. -/
  | quietPoint (p : Fin 16)
  /-- HEAD_LOAD_RETRY, R294: 1 ms after a failed head load Rose retries the whole load. -/
  | headLoadRetry (p : Fin 16)
  /-- ENTRY_RAMP_DONE, R311: The waveform ramp to REST_CODE ends and the port enters READY. -/
  | entryRampDone (p : Fin 16)
  /-- RETRAIN, R261: A write of NV_CFG.RETRAIN restarts Névé training at HELLO. -/
  | retrain (m : Master) (p : Fin 16) (v : Word)
  /-- TRAIN, R261: A received TRAIN block advances the Névé training stage. -/
  | train (p : Fin 16) (b : List Byte) (rtt : Nat)
  /-- TRAINING_TIMEOUT, R263: A training stage reaches its 10 ms timeout. -/
  | trainingTimeout (p : Fin 16)
  /-- TRAINING_RETRY, R262: Training restarts at HELLO after 1 ms, or after 1 s from LINK_FAIL. -/
  | trainingRetry (p : Fin 16)
  /-- NEVE_DOWN, R265: The Névé link loses block lock or sees a high error rate and goes down. -/
  | neveDown (w : Fin 16 × List (BitVec 2))
  /-- LINE_ERR, R266: A LINE_ERR block from the head aborts the product owning the line. -/
  | lineErr (p : Fin 16) (tag reason : Byte)
  /-- TELEM, R267: A TELEM block is stored in its NV_TELi register. -/
  | telem (p : Fin 16) (item : Fin 8) (v : BitVec 16)
  /-- UNKNOWN_BLOCK, R256: A control block of unknown type is ignored and counted. -/
  | unknownBlock (p : Fin 16)
  /-- HREG_GO, R268: NV_HREG_CMD.GO starts one head register access. -/
  | hregGo (m : Master) (p : Fin 16) (v : Word)
  /-- HREG_REPLY, R268: An HREG reply from the head completes the outstanding access. -/
  | hregReply (p : Fin 16) (code : Byte) (data : Word)
  /-- HREG_TIMEOUT, R268: No HREG reply arrives within 100 µs and RESULT reads timeout. -/
  | hregTimeout (p : Fin 16)
  /-- ECHO, R270: An ECHO edge or block arrives and the watchdog judges it pass or spurious. -/
  | echo (p : Fin 16) (e : Echo)
  /-- WATCHDOG_MISS, R271: An expected echo window ends with no passing echo and the miss is counted. -/
  | watchdogMiss (p : Fin 16)
  /-- ECHO_STUCK, R271: ECHO stays high for 20 µs and STROBE_WD reports kind STUCK. -/
  | echoStuck (p : Fin 16)
  /-- GATE_TRANSITION, R272: A gate input holds its new level for the filter time and changes its active state on a port. -/
  | gateTransition (p : Fin 16) (g : Fin 48) (level : Bool)
  /-- GATE_RELEASE, R276: A write of 1 to PORT_GSTAT releases a latched gate whose input is inactive. -/
  | gateRelease (m : Master) (p : Fin 16) (hi : Bool) (v : Word)
  /-- PORT_GATE_WRITE, R289: A write to PORT_GATEg changes the gate's action or filter at once, and may make it active. -/
  | portGateWrite (m : Master) (p : Fin 16) (g : Fin 48) (v : Word) (held : Option Nat)
  /-- WAVE_LOAD, R313: The command loads one waveform slot with samples, windows, masks and calibration record. -/
  | waveLoad (src : HostRead)
  /-- THERMAL_LOAD, R314: The command loads and puts in force a new thermal table bank. -/
  | thermalLoad (src : HostRead)
  /-- DROOP_LOAD, R315: The command loads and puts in force a new droop table bank. -/
  | droopLoad (src : HostRead)
  /-- TICKLE, R323: At T_tk the tickle and its mark are strobed on one nozzle. -/
  | tickle (p : Fin 16)
  /-- CAPTURE_START, R323: L7 + CAP_DLY after the tickle's strobe, the capture of 256 samples begins. -/
  | captureStart (p : Fin 16)
  /-- CAPTURE_COMPLETE, R319: A capture of 256 samples ends and waits for the correlator. -/
  | captureComplete (p : Fin 16) (samples : List (BitVec 14))
  /-- CLASSIFY, R331: The correlator classifies a waiting capture against the port's references. -/
  | classify (p : Fin 16)
  /-- IDLE_SLOT, R326: Every IDLE_PER µs with the port idle, Crevasse starts an idle sense slot. -/
  | idleSlot (p : Fin 16)
  /-- CREVASSE_REF, R335: The command walks the head AVG times and writes the reference of each listed class. -/
  | crevasseRef (list : HostRead)
  /-- REF_WALK_TICKLE, R335: Every 10 µs the reference walk drives one tickle and sums its capture. -/
  | refWalkTickle (samples : List (BitVec 14))
  /-- INK_READING, R342: Once a second the MP reads the drop counters and adds their volume to CONS_Pp_INK. -/
  | inkReading
  /-- CONS_AUTH, R348: The command authenticates the identity device of a port. -/
  | consAuth (auto : Option (Fin 16)) (dev : BusAnswer)
  /-- CONS_RECORD, R352: The command writes a usage record to the identity device, waiting for the 10 s spacing. -/
  | consRecord (dev : BusAnswer)
  /-- RECORD_DUE, R352: Every REC_INT seconds with changed ink, the MP writes a usage record. -/
  | recordDue (p : Fin 16) (dev : BusAnswer)
  /-- IDENTITY_STATUS_POLL, R345: Every 1 ms the MP polls the device STATUS, ending with TIMEOUT after 50 ms. -/
  | identityStatusPoll (p : Fin 16) (r : PollAnswer)
  /-- COPY, R362: A COPY descriptor moves elements from source to destination through the nested loops. -/
  | copy (c : Fin 32)
  /-- FILL, R364: A FILL descriptor writes the 8-byte pattern over the destination loops. -/
  | fill (c : Fin 32)
  /-- LINK, R369: A LINK descriptor enters or continues a chain of descriptors. -/
  | link (c : Fin 32)
  /-- BURST_ISSUE, R359: A burst is granted and issued once it has a tag, buffer space or write slot. -/
  | burstIssue (write : Bool)
  /-- READ_COMPLETION, R376: A read completion returns to Barrow, with data or with an error that halts it. -/
  | readCompletion (k : Nat) (r : ReadResult)
  /-- WRITE_RESPONSE, R371: An internal write receives its response from the bank. -/
  | writeResponse (k : Nat)
  /-- FLUSH_READ_COMPLETE, R371: The zero-length flushing read returns, and the descriptor with a host destination completes. -/
  | flushReadComplete (k : Nat) (r : ReadResult)
  /-- READ_TIMEOUT, R376: A read has no completion within TMO and Barrow halts with TIMEOUT. -/
  | readTimeout (k : Nat)
  /-- HALTED_ENTERED, R377: No read is outstanding and Barrow enters HALTED, completing started descriptors DMA_ERROR. -/
  | haltedEntered
  /-- DMA_RESTART, R379: A write of DMA_RESTART returns Barrow to RUNNING, at once or on entering HALTED. -/
  | dmaRestart (m : Master) (v : Word)
  /-- CHANNEL_STOP, R375: A write of BAR_CHc_CTL.STOP stops or resumes a DMA channel. -/
  | channelStop (m : Master) (c : Fin 32) (v : Word)
  /-- JOIN, R417: A write of RING_CFG.JOIN joins or leaves the ring and starts or stops BYP_KEEP. -/
  | join (m : Master) (v : Word)
  /-- PHY_TRIAL_EXPIRY, R387: After 250 ms without link the port tries its next PHY. -/
  | phyTrialExpiry (p : Fin 2)
  /-- RING_LINK_DOWN, R387: A ring port loses lock or sees no neighbour HELLO for 3 ms and restarts its trials. -/
  | ringLinkDown (p : Fin 2)
  /-- RING_FRAME, R392: A ring frame is received, checked, forwarded and passed to delivery. -/
  | ringFrame (p : Fin 2) (fault : FrameFault) (f : RingFrame)
  /-- HELLO, R398: A neighbour or ring HELLO is delivered, bringing a link up, updating the roster or setting DUP. -/
  | hello
  /-- HELLO_TIMER, R398: Every 1 ms a neighbour HELLO, and every 10 ms a ring HELLO, is sent. -/
  | helloTimer (ring : Bool)
  /-- ROSTER_EXPIRY, R398: A station sends no ring HELLO for 35 ms and leaves the roster. -/
  | rosterExpiry (st : Fin 64)
  /-- VERSION_PROPOSE, R399: The leader sends a PROPOSE after a stable roster of 50 ms and every 10 s. -/
  | versionPropose
  /-- VERSION_AGREE, R399: A VERSION_AGREE copy is processed as PROPOSE, RETURN or COMMIT. -/
  | versionAgree
  /-- VERSION_COLLECT_TIMEOUT, R399: 100 ms after a PROPOSE the leader commits or retries with what has returned. -/
  | versionCollectTimeout
  /-- VERSION_ACT, R399: At ACT the committed ring version comes into force. -/
  | versionAct
  /-- SYNC_TIMER, R400: The time master sends a two-step Sync every 62.5 ms. -/
  | syncTimer
  /-- PEER_DELAY_TIMER, R401: Each up port measures its link delay at link up and every 1 s. -/
  | peerDelayTimer (p : Fin 2)
  /-- PTP, R403: A delivered PTP message updates the servo, RING_OFS and LOCKED, or the peer delay. -/
  | ptp
  /-- PGO, R406: A delivered PGO message is converted and delivered as a VPGO edge. -/
  | pgo
  /-- VENC_PUBLISH, R408: Every PER µs the published encoder samples are sent in a VENC message. -/
  | vencPublish (due : BitVec 8)
  /-- VENC, R409: A delivered VENC sample becomes a measurement of a virtual tracker. -/
  | venc
  /-- VENC_LOST, R409: No sample arrives for TMO × 100 µs and the virtual encoder is lost. -/
  | vencLost (k : Fin 8)
  /-- TRACK, R410: A delivered TRACK message is written to the track log. -/
  | track
  /-- REJECT, R411: A delivered REJECT message schedules relay pulses and is stored as a vote. -/
  | reject
  /-- VOTE_DEADLINE, R413: DEADLINE µs after the edge the vote completes with missing votes counted. -/
  | voteDeadline (n : Fin 255)
  /-- MGMT, R414: A delivered MGMT request or reply is executed or completes a mailbox. -/
  | mgmt
  /-- MAILBOX_GO, R415: A write of RING_MBXm_CMD.GO sends a tunnel access to a station. -/
  | mailboxGo (m : Master) (b : Fin 4) (v : Word)
  /-- MAILBOX_TIMEOUT, R415: No reply arrives within MBX_TMO and the mailbox ends with TIMEOUT. -/
  | mailboxTimeout (b : Fin 4)
  /-- SERVICE, R416: A delivered SERVICE segment opens, carries, acknowledges or closes a tunnel session. -/
  | service
  /-- SEGMENT_RETRANSMIT, R416: A segment without ACK after 20 ms is sent again, and after 8 repeats the session closes. -/
  | segmentRetransmit (station : Fin 64) (session : Byte)
  /-- HEARTBEAT_LOSS, R417: AON sees no RING heartbeat for 50 µs and BYP_KEEP stops. -/
  | heartbeatLoss
  /-- AXIS_CONFIG, R450: The command checks and writes an axis configuration image. -/
  | axisConfig (src : HostRead)
  /-- MOVE_POSITION, R435: A MOVE in POSITION mode moves one axis or a group to its targets. -/
  | movePosition
  /-- MOVE_GEAR, R447: A MOVE in GEAR mode couples an axis to a master encoder. -/
  | moveGear
  /-- MOVE_SOFTSTOP, R437: A MOVE in SOFTSTOP mode brakes the named axes to a halt. -/
  | moveSoftstop
  /-- HOME, R444: The command homes an axis against a stall and backs off. -/
  | home
  /-- PROFILE_UPDATE, R434: Every 1 µs Tiller advances each moving axis through its profile. -/
  | profileUpdate
  /-- ON_PHASE_END, R430: The chopper on-phase ends by comparator trip or T_ONLIM. -/
  | onPhaseEnd (a : Fin 8) (coilB : Bool) (how : PhaseEnd)
  /-- OFF_PHASE_END, R430: After T_COAST the off-phase ends and a new on-phase starts. -/
  | offPhaseEnd (a : Fin 8) (coilB : Bool)
  /-- REST_DELAY, R432: REST_DLY after standstill the axis enters RESTING at CUR_REST. -/
  | restDelay (a : Fin 8)
  /-- AXIS_STOP, R437: AXa_CTL.STOP freezes an axis as a stop request. -/
  | axisStop (m : Master) (a : Fin 8) (v : Word)
  /-- AXIS_SOFTSTOP, R437: AXa_CTL.SOFTSTOP brakes an axis to a halt. -/
  | axisSoftstop (m : Master) (a : Fin 8) (v : Word)
  /-- STOP_ALL, R437: TIL_CTL.STOP_ALL makes a stop request to every axis. -/
  | stopAll (m : Master) (v : Word)
  /-- SET_POS, R445: AXa_CTL.SET_POS sets XACT from XSET at standstill and sets POS_VALID. -/
  | setPos (m : Master) (a : Fin 8) (v : Word)
  /-- BEMF_SAMPLE, R440: After T_SENSE the back-EMF is sampled and LOAD computed. -/
  | bemfSample (a : Fin 8) (coilB : Bool) (e : BitVec 12)
  /-- CHANNEL_SAMPLE, R462: The housekeeping round samples one channel and updates its dwell, state and actions. -/
  | channelSample (c : Fin 96) (code : BitVec 12) (conv : Int) (valid : Bool)
  /-- DIE_SHUTDOWN_FINAL, R472: Once any NOR page program completes, MGMT and HK are switched off together. -/
  | dieShutdownFinal
  /-- RAKE_REPORT, R486: A source report reaches AON and is counted, latched, signalled and may enter a scope. -/
  | rakeReport
  /-- LEVEL_REPORT_END, R480: A level report ends at AON, ending a hold of its scope. -/
  | levelReportEnd (src : Fin 1024) (low : Word) (rail : Bool)
  /-- TINE_LOST, R481: No heartbeat arrives from a tine for 16 µs and TINE_LOST reports. -/
  | tineLost (k : Fin 27)
  /-- ERR_N_PULSE_END, R488: The ERR_N pulse ends and the pin is released or held. -/
  | errNPulseEnd
  /-- ERR_N_RELEASE, R488: A write of RAKE_ERRN.RELEASE releases a held ERR_N. -/
  | errNRelease (m : Master) (v : Word)
  /-- CLR_FIRST, R486: A write of RAKE_CTL.CLR_FIRST clears the first-error latch. -/
  | clrFirst (m : Master) (v : Word)
  /-- SCOPE_CLEAR, R492: ACTION CLEAR returns a scope to OK and empties its history. -/
  | scopeClear (m : Master) (sc : Fin 1024)
  /-- SCOPE_FORCE, R492: ACTION FORCE puts an OK scope into FAULT. -/
  | scopeForce (m : Master) (sc : Fin 1024)
  /-- THAW_TICK, R493: Each ms Thaw returns quiet scopes to OK or latches those that recover too often. -/
  | thawTick
  /-- INJECTION_ARM, R496: A write of RAKE_INJ_CTL arms an injection at a source's checker. -/
  | injectionArm (m : Master) (v : Word)
  /-- PROGRAM_WORD, R520: PF_PROG_CTL.GO programs one OTP word, with pulses, verify and redirection. -/
  | programWord (m : Master) (v : Word) (vqps core : Bool)
  /-- PROGRAM_WORD_DONE, R520: An OTP word completes with its RESULT after verify or redirection. -/
  | programWordDone (strict lenient : BitVec 64)
  /-- MARGIN_SCAN, R525: PF_CTL.SCAN starts a scan of the array at both margins. -/
  | marginScan (m : Master) (v : Word)
  /-- SCAN_COMPLETE, R525: A margin scan ends and reports in PF_SCAN_STAT. -/
  | scanComplete
  /-- LOCK_SET, R516: A W1S write of PF_LOCK_SET locks regions until the next load. -/
  | lockSet (m : Master) (v : Word)
  /-- OTP_PROGRAM, R522: The command programs OTP words and optionally the region CRC word. -/
  | otpProgram (src : HostRead) (vqps core : Bool)
  /-- OTP_LOCK, R524: The command sets region locks, permanently or until the next load. -/
  | otpLock (vqps core : Bool)
  /-- SESSION_OPEN, R536: A SESSION_OPEN frame opens a loader session and takes the session lock. -/
  | sessionOpen (q : LoaderReq)
  /-- HEADER, R542: A HEADER frame is checked and, when accepted, invalidates the inactive slot and starts LOADING. -/
  | header (q : LoaderReq) (ok : Bool)
  /-- CHUNK, R542: A CHUNK frame programs 4,096 bytes of payload into the inactive slot. -/
  | chunk (q : LoaderReq) (ok : Bool)
  /-- VERIFY, R543: A VERIFY frame checks every section tag and programs the header. -/
  | verify (q : LoaderReq) (ok : Bool)
  /-- ACTIVATE, R546: An ACTIVATE frame writes a trial boot record and restarts the MP. -/
  | activate (q : LoaderReq) (ok : Bool)
  /-- CONFIRM, R548: A CONFIRM frame writes a confirmed record and advances the anti-rollback counter. -/
  | confirm (q : LoaderReq) (ok vqps core : Bool) (outs : List Pulsed)
  /-- ABORT, R536: An ABORT frame ends the session and frees the lock. -/
  | abort (q : LoaderReq)
  /-- STATUS, R537: A STATUS frame returns the loader state without taking the lock. -/
  | status (q : LoaderReq)
  /-- BAD_FRAME, R533: A frame with wrong SYNC, CRC, LEN or OP is answered BAD_FRAME. -/
  | badFrame (q : LoaderJunk)
  /-- SESSION_TIMEOUT, R536: A session with no request for 60 s ends as ABORT. -/
  | sessionTimeout
  /-- USB_BUS_RESET, R532: A USB bus reset or detach ends the service-port session and frees its tokens. -/
  | usbBusReset
  /-- MP_BOOT, R547: The boot ROM counts a trial boot or falls back, then boots a slot or enters rescue. -/
  | mpBoot
  /-- TRIAL_TIMEOUT, R547: After TRIAL_TMO minutes without CONFIRM the MP restarts as a trial boot. -/
  | trialTimeout
  /-- ARB_RETRY, R548: Every 60 s a pending anti-rollback advance is tried again. -/
  | arbRetry (vqps core : Bool) (outs : List Pulsed)
  /-- SETTINGS_WRITE, R553: The command writes a settings entry to the journal. -/
  | settingsWrite (src : HostRead) (flash : FlashAnswer)
  /-- SETTINGS_READ, R553: The command returns the standing value of a settings key. -/
  | settingsRead (ok : Bool)
  /-- DOMAIN_POWER, R563: The command checks the use of a domain and switches it on or off. -/
  | domainPower
  /-- UNIT_RETIRE, R564: The command retires a port, context or bank and records it. -/
  | unitRetire (flash : FlashAnswer)
  /-- RETIREMENT_RETRY, R564: Every 60 s an unrecorded retirement entry is written again. -/
  | retirementRetry (ok : Bool)
  /-- DOMAIN_CTL_WRITE, R561: A write of PCR_DOM_CTL switches present domains on or off without checks. -/
  | domainCtlWrite (m : Master) (v : Word)
  /-- DOMAIN_RESET, R561: A write of PCR_DOM_RST resets a domain that is ON. -/
  | domainReset (m : Master) (v : Word)
  /-- DOMAIN_POWERED, R562: A domain being switched on is powered and locked, and reaches ON. -/
  | domainPowered (d : Fin 14)
  /-- DOMAIN_OFF, R562: A domain being switched off reaches OFF. -/
  | domainOff (d : Fin 14)
  /-- SEQUENCER_RELOAD, R562: The MP reloads a sequencer and releases its unit from reset. -/
  | sequencerReload (d : Fin 14)
  /-- SUPPLY_WARN_BEGIN, R566: A supply stays below its warning level for 0.5 µs and a warning begins. -/
  | supplyWarnBegin (k : Fin 13)
  /-- SUPPLY_WARN_END, R566: A supply stays above its warning level plus 10 mV for 10 µs and the warning ends. -/
  | supplyWarnEnd (k : Fin 13)
  /-- LONG_WARNING, R568: A warning lasts 2 ms, the ports are held in WAIT and the contexts enter FAULTED. -/
  | longWarning (k : Fin 13)
  /-- SUPPLY_RESET, R569: A supply stays below its reset level for 2 µs and a SUPPLY reset is made. -/
  | supplyReset (k : Fin 13)
  /-- POWER_ON_RESET, R576: VDD_AON rises or falls to its reset level and everything is reset. -/
  | powerOnReset
  /-- RESET_N, R576: RESET_N low for 1 µs resets every domain and reloads Permafrost. -/
  | resetN
  /-- CHIP_RESET, R576: A write of PCR_RST with CHIP and KEY 0x7E57 resets the controller. -/
  | chipReset (m : Master) (v : Word)
  /-- REFCLK25_LOSS, R573: REFCLK25 makes no edge for 1 µs and a CLOCK reset is held. -/
  | refclk25Loss
  /-- RING_REFCLK_LOSS, R573: RING_REFCLK is lost and both ring links go down. -/
  | ringRefclkLoss
  /-- PLL_LOCK_LOSS, R574: An island PLL loses lock and PCR gates the island's clock. -/
  | pllLockLoss (k : Fin 27)
  /-- PLL_RELOCK, R574: The PLL relocks and PCR releases the island's clock. -/
  | pllRelock (k : Fin 27)
  /-- TB_INC_WRITE, R575: A write of PCR_TB_INC changes the TB increment at the next REFCLK25 edge. -/
  | tbIncWrite (m : Master) (v : Word)
  /-- AVS_STEP, R572: Every 10 µs the AVS code moves one step toward REQ. -/
  | avsStep
  /-- CONTROLLER_START, R578: After a reset the controller loads Permafrost, powers its domains, boots the MP and clears CFG_RETRY. -/
  | controllerStart
  /-- MP_WATCHDOG, R581: PCR_WDOG expires and the MP restarts with MP_WDOG reported. -/
  | mpWatchdog
  /-- WATCHDOG_FEED, R581: A write of PCR_WDOG.FEED restarts the watchdog timeout. -/
  | watchdogFeed (m : Master) (v : Word)
  /-- FREEZE_PIN, R585: FREEZE_N held low for 40 ns starts a freeze. -/
  | freezePin
  /-- FREEZE_REGISTER, R585: A write of HF_CTL with FREEZE and KEY 0xC01D starts a freeze. -/
  | freezeRegister (m : Master) (v : Word)
  /-- ISLAND_STOPPED, R586: An island finishes its handshake and stops its clock, and FROZEN sets with the last one. -/
  | islandStopped (k : Fin 27)
  /-- FREEZE_RELEASE_PIN, R594: FREEZE_N returns high and the controller is released. -/
  | freezeReleasePin
  /-- RELEASE_TIMEOUT, R594: REL_TMO ms after FROZEN the controller is released. -/
  | releaseTimeout
  /-- HF_SEL, R590: The JTAG instruction selects the chain of an island. -/
  | hfSel (n : BitVec 8)
  /-- HF_READ, R591: The JTAG instruction shifts the selected chain out. -/
  | hfRead
  /-- HF_MEM, R593: The JTAG instruction reads a word of a stopped island's storage array. -/
  | hfMem (a : BitVec 32)
  /-- HF_CTL_FREEZE, R590: The JTAG HF_CTL instruction with FREEZE set starts a freeze. -/
  | hfCtlFreeze
  /-- HF_CTL_RELEASE, R594: The JTAG HF_CTL instruction with RELEASE set releases the controller. -/
  | hfCtlRelease
  /-- TAP_RESET, R626: TRST_N low or five TCK cycles with TMS high reset the TAP. -/
  | tapReset
  /-- IDCODE, R628: The JTAG instruction returns the identity code. -/
  | idcode
  /-- SAMPLE_PRELOAD, R626: The JTAG instruction samples or preloads the boundary-scan register. -/
  | samplePreload (pins cells : List Bool)
  /-- EXTEST, R627: The JTAG instruction drives the pins from the boundary-scan register, only in reset or freeze. -/
  | extest (pins cells : List Bool)
  /-- HIGHZ, R627: The JTAG instruction places the outputs in high impedance, only in reset or freeze. -/
  | highz
  /-- CLAMP, R627: The JTAG instruction clamps the outputs, only in reset or freeze. -/
  | clamp
  /-- BYPASS, R626: The JTAG instruction selects the bypass register. -/
  | bypass
  /-- REGISTER_READ, R19: A master reads a register whose read has behaviour of its own: a snapshot of a wide value, a cleared FRESH bit, or a corrected Moraine word with its write-back scheduled. -/
  | registerRead (m : Master) (a : BusAddr) (len : Nat)
  /-- CONFIGURATION_REQUEST, R60: A PCIe configuration request is answered with CRS while CFG_RETRY is set, or otherwise sets configuration state such as D3hot, MSI-X Enable or Extended Tag Field Enable. -/
  | configurationRequest (req : ConfigReq)
  /-- PCIE_LINK_UP, R59: The PCIe link completes training and comes up, so descriptor fetching resumes and held completion and event entries are written. -/
  | pcieLinkUp (speed : LinkSpeed) (width : LinkWidth)
  /-- SYNCS_MISSING, R403: 4 consecutive Syncs are missing and LOCKED clears. -/
  | syncsMissing
  /-- RING_OPENED, R424: The station's own ring HELLO has not returned on both ports for 35 ms, so CLOSED clears and a RING_TOPOLOGY event of kind OPENED is written. -/
  | ringOpened
  /-- VOTE_EXPIRY, R413: A vote kept in the store for 10 s is discarded. -/
  | voteExpiry
  /-- PROGRAMMING_SUPPLY_LEFT_RANGE, R521: VQPS or VDD_CORE leaves its programming range, cutting the OTP pulse in progress so that the word ends WINDOW. -/
  | programmingSupplyLeftRange (vqps : Bool)
  /-- CLOCK_STRETCH_TIMEOUT, R344: An identity-bus device stretches the clock for more than 25 ms and the transfer ends with BUS_ERROR. -/
  | clockStretchTimeout (p : Fin 16)
  deriving DecidableEq, Repr

end Sys2Proof
end

