-- ==== Sys2Proof/Decode.lean ====
section
/-! DEFINITION. The commands that words spell. spec/opcode_table.json gives no row any bits: its commands are accesses, events and
pins, not words, so no word spells a command. -/

namespace Sys2Proof

/-- The command that a word of the table spells: none, since every row's list of fields is empty. -/
def decodeTableWord (_nbits _w : Nat) : Option Instr := none

end Sys2Proof
end

