-- ==== Sys2Proof/Config.lean ====
section
/-! DEFINITION. What the spec leaves open, as uninterpreted constants: nothing in Lean can evaluate them.
Each is named in the assumption log. -/

namespace Sys2Proof

/-- The source of the free values: the value the spec leaves open at the given draw. A step that needs one applies it to
the state's counter of draws and advances the counter (DESIGN CHOICE, log entry 1). -/
opaque Config.freeWord : Nat → BitVec 64

end Sys2Proof
end

