-- ==== Sys2Proof/Machine/State.lean ====
section
/-! DEFINITION. The state of the controller, as plain data, and its value right after power-on reset. -/

namespace Sys2Proof.Machine

/-- Why the machine stops with a fault. No meaning of this model raises one: the spec gives every command an effect in
every state, and an access to an address that lies in no block has the effect R22 gives it. Safe: it is never raised. -/
inductive Fault where
  /-- Raised by nobody; kept so that the type has a member a statement can name. Safe. -/
  | none
  deriving DecidableEq, Repr

/-- Why a command has no meaning. -/
inductive Refusal where
  /-- Raised by an arm of exec whose command has no meaning in the model yet. Safe: nothing is claimed about it. -/
  | notModelled (mnemonic : String)
  deriving DecidableEq, Repr

/-- A sparse map: the listed keys rise strictly, and no listed value equals what an unlisted key reads as. What an unlisted
key reads as is an argument of the operations over it (Machine/Store.lean). -/
abbrev Store (α : Type) := List (Nat × α)

/-- A field of a register: the register's device address and the field's bits [hi:lo] (R11, R15). -/
structure Fld where
  addr : Nat
  hi   : Nat
  lo   : Nat
  deriving DecidableEq, Repr

/-- The power domains of R24, in the order of R560. -/
inductive Domain where
  | aon | mgmt | host | ds0 | ds1 | place | hpg (g : Fin 4) | ring | motion | hk | service
  deriving DecidableEq, Repr

/-- The blocks of the device address map that hold registers (R40). -/
inductive BlockName where
  | host | db | ctx | dib | esp | shr | grf | port | wram | crv | cons | bar | buf | ring | til | hk | rake | pf | svc | pcr | hf
  deriving DecidableEq, Repr

/-- The domain class of a block: one domain, or that of the port's group of four (R24). -/
inductive BlockDom where
  | aon | mgmt | host | ds0 | place | hpg | ring | motion | hk | service
  deriving DecidableEq, Repr

/-- One row of the register tables: offset in the block, two repetition counts with their strides, the access masks, the reset
word, and the word's place in a value wider than 32 bits (R17 to R20). -/
structure RegRow where
  off   : Nat
  n1    : Nat
  st1   : Nat
  n2    : Nat
  st2   : Nat
  rw    : Nat
  w1c   : Nat
  w1s   : Nat
  rs    : Nat
  reset : Nat
  wide  : Nat
  wlen  : Nat
  deriving DecidableEq, Repr

/-- A block of the device address map: its base, its number of copies, their stride and its size (R40). -/
structure RegBlock where
  name   : BlockName
  base   : Nat
  copies : Nat
  stride : Nat
  size   : Nat
  dom    : BlockDom
  rows   : List RegRow
  deriving DecidableEq, Repr

/-- What the controller sends outward: posted writes, answers and frames, in the order it generates them. -/
inductive Out where
  /-- the answer to a register or memory read -/
  | read (m : Master) (addr : Nat) (v : Word)
  /-- a completion entry written at a host address (R79) -/
  | cq (addr : Nat) (dw : List Word)
  /-- an event entry written at a host address (R81) -/
  | er (addr : Nat) (dw : List Word)
  /-- an MSI-X message (R73) -/
  | msix (vec : Nat) (addr : Nat) (data : Word)
  /-- a write of Barrow to host memory (R360, R371) -/
  | dma (addr : Nat) (data : List Byte)
  /-- a read of Barrow's: whether it is of host memory, its address and length (R360, R371) -/
  | dmaRead (addr len : Nat)
  /-- the bit streams of a line on the physical lanes of a port in mode A or B, first bit first (R250) -/
  | shift (p : Nat) (lanes : List (List Bool))
  /-- a latch of a line in mode A or B (R245) -/
  | latch (p : Nat)
  /-- a table frame: the bit streams on the physical lanes, first bit first, and in ps from its start the rise of STB1, the rise and fall
  of LAT and the fall of STB1 (R291) -/
  | table (p : Nat) (lanes : List (List Bool)) (edges : List Nat)
  /-- the strobes of a line in mode A or B: its fire time, the tap of the delay line (R167), and the window starts after the first, the last
  being the pulse end, in 2 ns units (R290) -/
  | strobe (p : Nat) (fire tap : Nat) (edges : List Nat)
  /-- the strobes of a port fall at a TB (R273, R281) -/
  | strobeLow (p : Nat) (at_ : Nat)
  /-- codes on the waveform output of a port from an instant in tenths of a TB unit: one in each sample period of 20 ns, the last holding
  until the next output (R297) -/
  | wave (p : Nat) (at_ : Int) (codes : List Int)
  /-- the frame of a line on the Névé link: tag, payload bytes and CRC (R257) -/
  | frame (p : Nat) (tag : Nat) (bytes : List Nat) (crc : Nat)
  /-- a tickle on the strobes in mode A or B (R320, R323): its mark, 0 ADVANCE, 1 HOLD, 2 RESET, its T_tk and its length in samples -/
  | tickle (p : Nat) (mark ttk len : Nat)
  /-- a control block sent on the Névé link of a head port: its type and bytes 1 to 7 (R256) -/
  | block (p : Nat) (type : Nat) (bytes : List Nat)
  /-- the Névé transmitter of a port goes to electrical idle (R279) -/
  | idle (p : Nat)
  /-- a frame sent on a ring port (R391) -/
  | ring (port : Nat) (f : RingFrame)
  /-- a Buriober frame sent on the service port (R531, R533) -/
  | usb (bytes : List Nat)
  /-- a write on the identity bus of a port: the device's address, whether in Fast-mode, the register pointer and the bytes from it (R344,
  R345) -/
  | bus (p : Nat) (device : Nat) (fast : Bool) (ptr : Nat) (bytes : List Nat)
  /-- the gates of a coil's bridge from a TB on, 1H, 1L, 2H, 2L from bit 3 down, until the coil's next output, which takes the place of what an
  earlier one has still ahead (R425, R426) -/
  | gates (a : Nat) (coilB : Bool) (at_ : Nat) (on : BitVec 4)
  /-- the answer to a configuration request: a retry status, or the word read, 0 for a write (R60) -/
  | cfg (crs : Bool) (v : Word)
  /-- the bits that a JTAG data register shifts out, first bit first (R591, R626) -/
  | tdo (bits : List Bool)
  deriving DecidableEq, Repr

/-- A completion that waits for its place in the CQ: an entry without its PHASE (R76, R79), and how many of the first reports on their
way to AON arose before it, whose events precede it (R92). -/
structure Completion where
  ring   : Nat
  status : Nat
  index  : Nat
  tag    : Word
  dw2    : Word
  dw3    : Word
  after  : Nat
  deriving DecidableEq, Repr

/-- A descriptor fetched from a ring: its index there and its sixteen doublewords (R78). -/
structure Desc where
  index : Nat
  dw    : List Word
  deriving DecidableEq, Repr

/-- What a ring holds beside its registers (R72, R75, R89): the descriptors fetched from it and not yet completed, those of
them not yet taken up, whether the job at the front of these has passed the checks of R86, the re-reads made under R75, an ENABLE held
through DRAINING, the entries written since its last interrupt and the TB of the first of them (R73), the number of its last fetch among
those of every ring (R89), and the indexes of fetched DMA descriptors whose device extents failed at their fetch (R365). -/
structure Ring where
  outstanding : Nat
  fetched     : List Desc
  checked     : Bool
  retries     : Nat
  enableHeld  : Bool
  unsignalled : Nat
  since       : Nat
  no          : Nat
  bad         : List Nat
  deriving DecidableEq, Repr

def Ring.reset : Ring := ⟨0, [], false, 0, false, 0, 0, 0, []⟩

/-- A report on its way from a tine to AON (R479, R486): the source, the syndrome low word, the master that made the access, the TB
at the tine, whether the report begins a level (R480), whether its wire is broken (R480), and whether it is an injection's or coincides
with one (R497, R498). -/
structure Report where
  src   : Nat
  synd  : Word
  mast  : Nat
  tb    : BitVec 64
  level : Bool
  rail  : Bool
  inj   : Bool
  coinc : Bool
  deriving DecidableEq, Repr

/-! ## Contexts and products (spec/03_print_contexts.md, spec/04_dibber_placement.md) -/

/-- The fetch of a patch on Barrow's patch path (R191): its number, 0 before its first read, the bytes whose reads and whose writes have
been issued, those that have arrived, by their offset, and whether the patch is resident. -/
structure Fetch where
  id  : Nat
  rd  : Nat
  wr  : Nat
  buf : List (Nat × List Byte)
  res : Bool
  deriving DecidableEq, Repr

def Fetch.reset : Fetch := ⟨0, 0, 0, [], false⟩

/-- A patch block (R189): its first unit in the patch area, its units, the fetches of its two patches (R191), and whether its patches are
never fetched again (R193, R637). -/
structure Block where
  base   : Nat
  units  : Nat
  p0     : Fetch
  p1     : Fetch
  dead   : Bool
  deriving DecidableEq, Repr

/-- A job (R85): where its completion goes, its sixteen doublewords, and its patch block once allocated. A job orphaned by a reset
of the HOST domain prints without a completion entry (R62). -/
structure Job where
  ring   : Nat
  index  : Nat
  orphan : Bool
  dw     : List Word
  block  : Option Block
  deriving DecidableEq, Repr

/-- A row group of a product (R155): the lowest range number in it, its ranges, the lines released and committed so far in the
current pass, the stored fire time of its earliest uncommitted line (`none` while never solved), and whether that line is held for
an earlier line of a port (R160). -/
structure Group where
  num    : Nat
  ranges : List Nat
  rel    : Nat
  com    : Nat
  time   : Option Nat
  held   : Bool
  deriving DecidableEq, Repr

/-- A job taken from a queue, until its completion is written (R108, R114, R118): its number in its context, its job, the captured
set (active-set words in the order of R106: eight, then sixteen row offsets), the captured scanning words (R212) and stitch zones
(R223), the captured plates (R186), the patches whose residency has been checked (R192), the edge's timestamp, the reference
position of its reject, U_pg once computed (R155), the row groups, the pass and whether it is armed (R215), the product lines
already counted as stretched (R163), their count, its status once one is decided, whether its lines have ended, whether its reject
is decided (R132), the decision and its output, the ports on which a line has raised CAL_EXTRAPOLATED (R304), and the TB at which its status
was decided by an abort (R283). -/
structure Product where
  id        : Nat
  job       : Job
  set       : List Word
  scan      : List Word
  zones     : List (Nat × Word × Word)
  plates    : Option (List (Option (List Word)))
  patchSeen : List Nat
  tpg       : Nat
  refPos    : Int
  upg       : Option Int
  groups    : List Group
  pass      : Nat
  armed     : Bool
  stretched : List Nat
  ovr       : Nat
  status    : Option Nat
  ended     : Bool
  decided   : Bool
  reject    : Bool
  rejOut    : Nat
  xtrap     : List Nat
  cutAt     : Option Nat
  deriving DecidableEq, Repr

/-- A scheduled reject pulse (R128, R411): the position source and direction, the position in forward travel, the output, and the
width in µs. -/
structure Pulse where
  src   : Nat
  dir   : Bool
  pos   : Int
  out   : Nat
  width : Nat
  deriving DecidableEq, Repr

/-- What a context holds beside its registers: the queue, the products whose completion is not yet written, the print-go edges on
their way to it, the forward position of the last edge past the lockout (R113), the reference of the timeout (R117), the scheduled
reject pulses, the causes of FAULTED in force (R110), the number of the next product, and the allocation pointer of its patch area
(R189). -/
structure Ctx where
  queue    : List Job
  prods    : List Product
  edges    : List Nat
  lastEdge : Option Int
  toRef    : Option Int
  pulses   : List Pulse
  causes   : List Nat
  nextProd : Nat
  alloc    : Nat
  deriving DecidableEq, Repr

def Ctx.reset : Ctx := ⟨[], [], [], none, none, [], [], 0, 0⟩

/-- The modes of a tracker (R150). -/
inductive TrackMode where
  | still | start | track
  deriving DecidableEq, Repr

/-- What a tracker holds beside its registers: its mode, the latest measurement not yet used (position and TB), and the position
and TB of the last edge or sample (R149, R151). -/
structure Tracker where
  mode  : TrackMode
  meas  : Option (Int × Nat)
  pe    : Int
  te    : Nat
  used  : Option Nat
  deriving DecidableEq, Repr

def Tracker.reset : Tracker := ⟨.still, none, 0, 0, none⟩

/-- What an encoder input holds: its filtered levels, and the edge count at the previous rising Z edge (R141, R144). -/
structure Encoder where
  a     : Bool
  b     : Bool
  zLast : Option Nat
  deriving DecidableEq, Repr

def Encoder.reset : Encoder := ⟨false, false, none⟩

/-- A TB mirror (R138, R139): its offset from the master and the offset still to be removed, in units of 2^-24; the increment it has
adopted, as TB_INC; the local cycles since a whole sixteen of them, and the time since the last local cycle, in ps; the crossing latency
in TB units; and whether it is calibrated. -/
structure Mirror where
  off  : Int
  left : Int
  inc  : Nat
  cyc  : Nat
  ph   : Nat
  lat  : Nat
  cal  : Bool
  deriving DecidableEq, Repr

def Mirror.reset : Mirror := ⟨0, 0, 0, 0, 0, 0, false⟩

/-! ## Composition (spec/05_moraine_and_espalier.md) -/

/-- A line of a product on the ports (R194, R247): context, product, pass, line and row group. -/
structure LineKey where
  ctx   : Nat
  prod  : Nat
  pass  : Nat
  line  : Nat
  group : Nat
  deriving DecidableEq, Repr

/-- An entry of a line FIFO (R201): a VOID entry (R183), or the levels by nozzle position, 0 where none is listed. -/
structure Entry where
  void   : Bool
  levels : Store Nat
  deriving DecidableEq, Repr

/-- An entry that an engine holds for a port whose FIFO has no room (R201). -/
structure WaitEntry where
  port  : Nat
  key   : LineKey
  entry : Entry
  deriving DecidableEq, Repr

/-- What the decoder of a bank finds in a word (R177). -/
inductive Ecc where
  | clean | corrected | bad
  deriving DecidableEq, Repr

/-- A word of Moraine whose stored code is wrong (R177): the bits of its 72 that are wrong, what the decoder finds in it, and the data that
a read of it gives. The memory holds its data bits as stored. -/
structure BadWord where
  flips : BitVec 72
  look  : Ecc
  data  : BitVec 64
  deriving DecidableEq, Repr

/-- Moraine and Espalier beside their registers: the words whose stored code is wrong; the scheduled write-backs, by word address
(R182); the step of the scrub in its banks and the TB of its last reads (R181); the compose queue (R197) and the TB at which
Espalier last took a request of it (R471); and the entries that engines hold (R201). -/
structure EspSt where
  bad       : Store (Option BadWord)
  writeBack : List Nat
  scrubAt   : Nat
  scrubbed  : Nat
  queue     : List LineKey
  taken     : Option Nat
  waiting   : List WaitEntry
  deriving DecidableEq, Repr

def EspSt.reset : EspSt := ⟨[], [], 0, 0, [], none, []⟩

/-! ## Head ports (spec/07_head_ports.md, spec/08_rose_pulse_shaping.md) -/

/-- How far a line is at its port (R245). -/
inductive Shift where
  | waiting
  | shifting (start : Nat)
  | latched (start at_ : Nat)
  deriving DecidableEq, Repr

/-- A line order at a port, in release order (R160), with its entry once the FIFO holds it, its fire time once committed, how far it
is, whether it has been judged (R247), its tag in mode C (R257), and the fill and scale taken at its latch (R302). -/
structure PLine where
  key    : LineKey
  entry  : Option Entry
  fire   : Option Nat
  arrived : Bool
  shift  : Shift
  judged : Bool
  tag    : Nat
  fill   : Nat
  scale  : Nat
  deriving DecidableEq, Repr

/-- A pulse in progress (R245, R290): the fire time and length of its line, whether it is a line of context 0, and whether it is
a tickle. -/
structure PulseNow where
  fire  : Nat
  len   : Nat
  ctx   : Nat
  deriving DecidableEq, Repr

/-- The settings of Rose that only a quiet point puts in force (R306), as register words: ROSE_CFG, ROSE_ADV, ROSE_THERM,
ROSE_TBIN, the active slot's LEN, END01, END23, END45, END6 and MASK, and the 48 words of the thermal table. -/
structure RoseForce where
  words : List Word
  deriving DecidableEq, Repr

/-- A strobe whose echo the watchdog expects (R270): the commanded instant in tenths of a TB unit, and the tag. -/
structure Expect where
  at_ : Nat
  tag : Nat
  deriving DecidableEq, Repr

/-- A gate as one port sees it: the filtered input level, and whether the gate is active on the port (R272, R276). -/
structure Gate where
  level  : Bool
  active : Bool
  deriving DecidableEq, Repr

def Gate.reset : Gate := ⟨false, false⟩

/-- Whose head register access it is (R268, R294, R321). -/
inductive HregOwner where
  | master | rose | crevasse
  deriving DecidableEq, Repr

/-- A head register access of a Névé port (R268). -/
structure HregOp where
  owner : HregOwner
  write : Bool
  addr  : Nat
  data  : Nat
  deriving DecidableEq, Repr

/-- A retry of training that is owed (R262, R263, R265): none, after 1 ms in the same series, or after 1 s as a new series. -/
inductive Retry where
  | none | again | series
  deriving DecidableEq, Repr

/-- The Névé link of a port beside its registers (R261 to R265): whether its sequencer is loaded (R562), the rates failed in this
series, the consecutive SELECT timeouts, how many training blocks in a row were identical and the last of them, the round trips and
turns of MEASURE by block number, whether training has failed, the retry owed, the head register accesses with the outstanding one
first, whether a failed head load waits for its retry, the head registers last committed and those written since (R294). -/
structure Neve where
  seqOk    : Bool
  excl     : Nat
  selFails : Nat
  same     : Nat
  last     : List Nat
  trips    : Store (Option (Nat × Nat))
  failed   : Bool
  retry    : Retry
  hreg     : List HregOp
  reload   : Bool
  sent     : List (Nat × Nat)
  wrote    : List (Nat × Nat)
  deriving DecidableEq, Repr

def Neve.reset : Neve := ⟨false, 0, 0, 0, [], [], false, .none, [], false, [], []⟩

/-- What streams on a waveform output (R297, R301, R305): the slot, none for the code of a thermal pulse; its scale; the instants of its
beginning and end in tenths of a TB unit; the samples sent; whether it is a line's; and whether one of that line's has been held. -/
structure Play where
  slot  : Option Nat
  scale : Nat
  start : Int
  fin   : Int
  sent  : Nat
  line  : Bool
  sat   : Bool
  deriving DecidableEq, Repr

/-- A linear ramp of a waveform output (R310, R311): the code it began from, the TB of its beginning and its samples. -/
structure Ramp where
  first : Int
  start : Nat
  len   : Nat
  deriving DecidableEq, Repr

/-- The waveform output of a port: the last code sent, the ramp that leads to it, what streams, and the TB at which the entry ramp of R311
began. -/
structure Wave where
  code  : Int
  ramp  : Option Ramp
  play  : Option Play
  entry : Option Nat
  deriving DecidableEq, Repr

def Wave.reset : Wave := ⟨0, none, none, none⟩

/-- A capture of Crevasse: the nozzle, the TB of its capture, and its 256 samples (R319). -/
structure Capture where
  nozzle  : Nat
  tb      : Nat
  samples : List Int
  deriving DecidableEq, Repr

/-- A sense slot under way, with its T_tk (R324): planned, its tickle in progress, or its capture, with the TB at its start. -/
inductive Slot where
  | none
  | planned (ttk : Nat)
  | tickle (ttk : Nat)
  | capture (ttk tb : Nat)
  deriving DecidableEq, Repr

/-- Crevasse's state for a port beside its registers (R322, R325, R327, R332): the captures that wait, the slot, the suspect with
its class, count and tries, whether the next mark holds, whether the next tickle is the first since READY, whether the head refused
the sense registers, the lines strobed since the last completed capture, those of the last 64 captures, S_LEN of the slot (R324), the TB of
the last idle slot (R326), and whether SENSE_NEXT has been written with RESULT 0 (R321). -/
structure Sense where
  captures : List Capture
  slot     : Slot
  susp     : Option Nat
  pc       : Nat
  cnt      : Nat
  tries    : Nat
  hold     : Bool
  first    : Bool
  noHead   : Bool
  strobed  : Nat
  recent   : List Nat
  len      : Nat
  idleAt   : Nat
  next     : Bool
  deriving DecidableEq, Repr

def Sense.reset : Sense := ⟨[], .none, none, 0, 0, 0, false, true, false, 0, [], 0, 0, false⟩

/-- A head port beside its registers: its line orders, the line tag counter (R257), whether the entry ramp has ended (R311), the
pulse in progress and the end of the last one, the fire times of the last two lines strobed and the tag of the last, the settings
in force (R306), the masks last sent to the head since READY (R306), the thermal bin (R300), whether the head load has failed
(R294), the products of the tags sent (R266), the gates, the echoes expected (R270), the link, Crevasse, the waveform output and
the TB at which the last table frame ends (R291). -/
structure Port where
  lines    : List PLine
  tag      : Nat
  ramped   : Bool
  pulse    : Option PulseNow
  pulseEnd : Nat
  lastFire : Option Nat
  prevFire : Option Nat
  lastTag  : Nat
  force    : Option RoseForce
  masks    : Option (List Nat)
  bin      : Nat
  loadErr  : Bool
  owners   : Store (Option (Nat × Nat))
  gates    : Store Gate
  expects  : List Expect
  neve     : Neve
  sense    : Sense
  wave     : Wave
  tableEnd : Nat
  deriving DecidableEq, Repr

def Port.reset : Port :=
  ⟨[], 0, false, none, 0, none, none, 0, none, none, 0, false, [], [], [], Neve.reset, Sense.reset, Wave.reset, 0⟩

/-! ## Housekeeping (spec/14_thermal_supervision.md) -/

/-- A housekeeping channel beside its registers (R462 to R466): the value in use if there is one, the values of the last four
samples, the dwell counts and act bits of the three levels, those of the rate of rise, the runs of faulted and good samples and of
samples beyond and within the cross-check limit, whether the channel is broken, substituted or too hot, and its own last reading. -/
structure HkChan where
  value : Option Int
  own   : Option Int
  past  : List Int
  up    : List Nat
  dn    : List Nat
  act   : List Bool
  rup   : Nat
  rdn   : Nat
  ract  : Bool
  bad   : Nat
  good  : Nat
  far   : Nat
  near  : Nat
  broken : Bool
  subst : Bool
  deriving DecidableEq, Repr

def HkChan.reset : HkChan :=
  ⟨none, none, [], [0, 0, 0], [0, 0, 0], [false, false, false], 0, 0, false, 0, 0, 0, 0, false, false⟩

/-- The PCIe function's configuration fields that the spec names (R54, R55, R60, R73). -/
structure CfgSpace where
  d3hot    : Bool
  mps      : Nat
  mrrs     : Nat
  extTag   : Bool
  msixEn   : Bool
  msixMask : Bool
  bar0     : Nat
  bar2     : Nat
  bar4     : Nat
  deriving DecidableEq, Repr

def CfgSpace.reset : CfgSpace := ⟨false, 128, 512, false, false, false, 0, 0, 0⟩

/-- The HOST island beside its registers: the rings, the internal queue of completions (R76), whether an ER_OVERFLOW event is
owed, the configuration space, the PERST_N level, the trained rate and width of the link (R65), 0 while it is down, those of its
previous training (R59), and the number of descriptors fetched so far (R89). -/
structure HostSt where
  rings    : Store Ring
  cqQueue  : List Completion
  erOwed   : Bool
  cfg      : CfgSpace
  perstLow : Bool
  speed    : Nat
  width    : Nat
  was      : Nat × Nat
  fetchNo  : Nat
  deriving DecidableEq, Repr

def HostSt.reset : HostSt := ⟨[], [], false, CfgSpace.reset, false, 0, 0, (0, 0), 0⟩

/-! ## Barrow (spec/11_barrow_dma.md) -/

/-- A descriptor that a channel has taken up, until it completes (R358, R371): its number, the descriptor with the INDEX it completes
with, whether it stands in a chain and ends it, its stream bytes in all, those whose reads and whose writes have been issued, the
destination bytes written, the stream bytes that wait, by their offset, the host address last written, whether a flush of it is
outstanding and the stream bytes that a returned flush covers, a status that stops it, the halt cause that fails it, and the status and
RESULT of one that has nothing more to do. -/
structure DmaRun where
  id      : Nat
  desc    : Desc
  chained : Bool
  last    : Bool
  total   : Nat
  rd      : Nat
  wr      : Nat
  put     : Nat
  buf     : List (Nat × List Byte)
  hostTo  : Option Nat
  asked   : Bool
  safe    : Nat
  stop    : Option Nat
  fail    : Option Nat
  done    : Option (Nat × Nat)
  deriving DecidableEq, Repr

/-- A chain that a channel is in (R369): its ring LINK, the host address of the next descriptor, the number of its fetch while that is
outstanding, the chain descriptor fetched, whether a device extent of it failed the check of R365, and whether the descriptor that ends
the chain has been taken up. -/
structure Chain where
  link    : Desc
  next    : Nat
  asked   : Option Nat
  fetched : List Desc
  bad     : Bool
  ended   : Bool
  deriving DecidableEq, Repr

/-- A DMA channel beside its registers: the descriptors taken up, the chain, and the ring indexes at which later doorbells
begin (R370). -/
structure Chan where
  runs  : List DmaRun
  chain : Option Chain
  marks : List Nat
  deriving DecidableEq, Repr

def Chan.reset : Chan := ⟨[], none, []⟩

/-- What an outstanding read is for (R191, R359, R369, R371). -/
inductive ReadKind where
  | data | chain | flush | patch
  deriving DecidableEq, Repr

/-- An outstanding read of a channel, or of the patch path as channel 32: the number of its descriptor or fetch, what it is for, its
address, the stream offset, its length, and the TB at which it was issued. -/
structure BarRead where
  chan : Nat
  id   : Nat
  kind : ReadKind
  dev  : Bool
  addr : Nat
  off  : Nat
  len  : Nat
  at_  : Nat
  deriving DecidableEq, Repr

/-- A write of a channel, or of the patch path as channel 32, that is outstanding: an internal write with its bytes, or a host write until
its flush returns (R359), with its stream offset. -/
structure BarWrite where
  chan : Nat
  id   : Nat
  dev  : Bool
  addr : Nat
  off  : Nat
  data : List Byte
  deriving DecidableEq, Repr

/-- Barrow beside its registers: the channels, the outstanding reads and writes in the order of their issue, the grants by engine and
level as channel and bursts taken (R361), the next descriptor number, whether data has passed through the shared buffer, the words of it that a
master has written since (R42), and the TB of the last burst of the read engine, of the write engine and of the patch path, by 0 to 2
(R471). -/
structure BarSt where
  chans  : Store Chan
  reads  : List BarRead
  writes : List BarWrite
  grants : Store (Option (Nat × Nat))
  nextId : Nat
  used   : Bool
  fresh  : List Nat
  bursts : Store (Option Nat)
  deriving DecidableEq, Repr

def BarSt.reset : BarSt := ⟨[], [], [], [], 1, false, [], []⟩

/-! ## Tiller (spec/13_tiller_motion.md) -/

/-- A motion profile as a move captures it (R433, R436): VLAUNCH, VKNEE, VCRUISE, VLAND, ALOW, AHIGH, DLOW_U and DHIGH_U. -/
structure Profile where
  launch : Nat
  knee   : Nat
  cruise : Nat
  land   : Nat
  alow   : Nat
  ahigh  : Nat
  dlow   : Nat
  dhigh  : Nat
  deriving DecidableEq, Repr

def Profile.reset : Profile := ⟨0, 0, 0, 0, 0, 0, 0, 0⟩

/-- A gearing (R447): the master encoder, x0 in 2^-16 microsteps, M0, R1, R2 and MPOS, the side of MPOS the master began on, and whether
R2 is in force. -/
structure Gearing where
  master : Nat
  x0     : Int
  m0     : Int
  r1     : Int
  r2     : Int
  mpos   : Int
  side   : Int
  second : Bool
  deriving DecidableEq, Repr

/-- A homing (R444): whether it backs off, its direction, HOME_POS, BACKOFF, BLANK, the XACT it began at, and CUR_HOME. -/
structure Homing where
  back    : Bool
  pos     : Bool
  goal    : Int
  backoff : Nat
  blank   : Nat
  start   : Int
  cur     : Nat
  deriving DecidableEq, Repr

/-- A move that waits for a pass end (R448): its axes with their operands, REL, TAG, WAIT and PORTS. -/
structure HeldMove where
  targets : List (Nat × Int)
  rel     : Bool
  tag     : Word
  wait    : Bool
  ports   : Nat
  deriving DecidableEq, Repr

/-- What a coil's bridge does (R426, R430): on-phase with positive or negative current, off-phase, slow decay of a zero entry, or off. -/
inductive Bridge where
  | drive (positive : Bool)
  | coast
  | slow
  | off
  deriving DecidableEq, Repr

/-- A coil: its bridge and the TB at which that state began, whether the last entry that was not 0 was positive, the consecutive
on-phases that ended by T_ONLIM, those found above the threshold at the end of T_MASK (R431), and whether it is off to sense its
back-EMF (R440). -/
structure Coil where
  bridge : Bridge
  at_    : Nat
  pos    : Bool
  opens  : Nat
  shorts : Nat
  sense  : Bool
  deriving DecidableEq, Repr

def Coil.reset : Coil := ⟨.off, 0, true, 0, 0, false⟩

/-- The current fraction in force (R429). -/
inductive CurLevel where
  | run | rest | home
  deriving DecidableEq, Repr

/-- An axis beside its registers (R427 to R448): x in 2^-16 microsteps, v in Q8.24, the direction, run and rev of R434, the
target, the captured profile, the kind its motion will end with, the TAG, WAIT and PORTS of its move, the gearing, the group as
leader, start and distance, the homing, the held move, the count of low LOAD samples, whether the move has extrapolated, CNT0 and
XE0, whether DEV exceeds WINDOW, the current fraction, the TB of its last entry to standstill (R432), whether it has frozen and
whether it has taken a move of the CR since the last update (R438), and the coils. -/
structure Axis where
  x       : Int
  v       : Nat
  pos     : Bool
  run     : Bool
  rev     : Bool
  target  : Int
  prof    : Profile
  ending  : Nat
  tag     : Word
  wait    : Bool
  ports   : Nat
  gear    : Option Gearing
  group   : Option (Nat × Int × Int)
  home    : Option Homing
  held    : Option HeldMove
  low     : Nat
  xtrap   : Bool
  cnt0    : Int
  xe0     : Int
  strayed : Bool
  cur     : CurLevel
  stood   : Nat
  froze   : Bool
  took    : Bool
  coilA   : Coil
  coilB   : Coil
  deriving DecidableEq, Repr

def Axis.reset : Axis :=
  ⟨0, 0, true, false, false, 0, Profile.reset, 0, 0, false, 0, none, none, none, none, 0, false, 0, 0, false, .run, 0, false, false, Coil.reset,
   Coil.reset⟩

/-! ## The Tchitric ring (spec/12_tchitric_line_ring.md) -/

/-- What a station knows of a source address (R393, R398): its JOIN_ID, the highest SEQ delivered, the SEQs of the window that are
delivered, whether it is in the roster, what its ring HELLO last advertised, and the TB at which that came. -/
structure RingSrc where
  joinId : Option Nat
  high   : Nat
  seen   : List Nat
  member : Bool
  master : Bool
  dup    : Bool
  heard  : Nat
  deriving DecidableEq, Repr

def RingSrc.reset : RingSrc := ⟨none, 0, [], false, false, false, 0⟩

/-- A forwarded Sync on its way through a station (R402): its source and sequence number, its arrival, and when it left. -/
structure Transit where
  src   : Nat
  seqId : Nat
  came  : Nat
  left  : Option Nat
  deriving DecidableEq, Repr

/-- A ring port beside its registers (R387, R394, R398, R401, R402): which trial it is at and the TB at which that began, the
neighbour's VMAX, the two output queues, the TB at which the station's own ring HELLO last returned on it, the last link-delay
measurements, the number of the next Pdelay_Req, the number and departure of the one under way, what its Pdelay_Resp brought (its
receipt at the neighbour, in 2^-16 ns, and the arrival of the response), and the Syncs that pass out of this port. -/
structure RingPort where
  trial  : Nat
  began  : Nat
  nbrMax : Nat
  crit   : List RingFrame
  bulk   : List RingFrame
  own    : Option Nat
  delays : List Nat
  reqNo  : Nat
  req    : Option (Nat × Nat)
  resp   : Option (Int × Nat)
  syncs  : List Transit
  deriving DecidableEq, Repr

def RingPort.reset : RingPort := ⟨0, 0, 0, [], [], none, [], 0, none, none, []⟩

/-- A frame admitted for delivery (R392, R393): the port and the TB it arrived at. -/
structure Admitted where
  port  : Nat
  at_   : Nat
  frame : RingFrame
  deriving DecidableEq, Repr

/-- A vote kept in the store, with the TB at which it came (R413). -/
structure Vote where
  station : Nat
  seq     : Nat
  reject  : Bool
  at_     : Nat
  deriving DecidableEq, Repr

/-- A proposal of the leader under way (R399): its epoch, the TB at which it was sent, and the copies returned as version and mask. -/
structure Proposal where
  epoch  : Nat
  sent   : Nat
  copies : List (Nat × Nat)
  deriving DecidableEq, Repr

/-- A Sync that waits for its Follow_Up (R403): port, links crossed, sequence number, arrival in TB, correction. -/
structure SyncSeen where
  port   : Nat
  links  : Nat
  seqId  : Nat
  at_    : Nat
  corr   : Int
  deriving DecidableEq, Repr

/-- A segment of a service tunnel session not yet acknowledged (R416): its SSEQ, its data, its repeats, and the TB of its last sending. -/
structure Segment where
  sseq    : Nat
  data    : List Byte
  repeats : Nat
  sent    : Nat
  deriving DecidableEq, Repr

/-- A service tunnel session (R416): its peer station and number, the next SSEQ to send, the next expected, the segments that wait
for their ACK, the bytes that wait for a place among these, and the bytes received and not yet read as frames (R531). -/
structure TunnelSession where
  peer    : Nat
  num     : Nat
  next    : Nat
  expect  : Nat
  unacked : List Segment
  waiting : List (List Byte)
  stream  : List Nat
  deriving DecidableEq, Repr

/-- The ring beside its registers (R385 to R424): the next SEQ, the JOIN_ID, the ports, the sources, the frames admitted and not
yet delivered, the leader's epoch, the TB from which its next proposal is due, its proposal, the COMMIT that waits for ACT as V,
EPOCH and ACT, the Syncs in a row within 100 ns, whether RING_OFS has been taken since the last change of master, the Syncs that
wait, the last Sync number used and the TB of its use, the next Sync sent, COUNT by print-go relay, COUNT and the last edge by
VPGO, the TB at which each VTX entry last published, the TB from which each VRX entry waits for a sample, the virtual encoders
lost, the relay pulses, the votes oldest first, the station and TAG each busy mailbox waits for and the TB from which it does, the
next TAG, and the tunnel sessions. -/
structure RingSt where
  seq      : Nat
  joinId   : Nat
  ports    : Store RingPort
  srcs     : Store RingSrc
  inbox    : List Admitted
  epoch    : Nat
  due      : Nat
  proposal : Option Proposal
  commit   : Option (Nat × Nat × Nat)
  goodSync : Nat
  ofsTaken : Bool
  syncs    : List SyncSeen
  syncUsed : Option Nat
  lastSync : Nat
  syncSeq  : Nat
  pgoCount : Store Nat
  prxCount : Store (Option Nat)
  prxLast  : Store (Option Nat)
  vtxAt    : Store (Option Nat)
  vrxAt    : Store Nat
  vlost    : List Nat
  relays   : Store (List Pulse)
  votes    : List Vote
  mbx      : Store (Option (Nat × Nat × Nat))
  tag      : Nat
  sessions : List TunnelSession
  deriving DecidableEq, Repr

def RingSt.reset : RingSt :=
  ⟨0, 0, [], [], [], 0, 0, none, none, 0, false, [], none, 0, 0, [], [], [], [], [], [], [], [], [], 0, []⟩

/-- A level report asserted at AON (R480, R493): its source, syndrome low word, whether its wire is broken, and its scope. -/
structure Level where
  src   : Nat
  low   : Nat
  rail  : Bool
  scope : Nat
  deriving DecidableEq, Repr

/-- Rake beside its registers (R480 to R493): the level reports asserted, by scope the TB from which its quiet period counts and the TBs
of its recoveries, by source the TB of its last event and the reports not written since, and the TB at which an ERR_N pulse in progress began. -/
structure RakeSt where
  levels  : List Level
  quiet   : Store Nat
  hist    : Store (List Nat)
  lastEv  : Store (Option Nat)
  missed  : Store Nat
  pulse   : Option Nat
  deriving DecidableEq, Repr

def RakeSt.reset : RakeSt := ⟨[], [], [], [], [], none⟩

/-- A command in execution that takes more than one step (R38, R83): its descriptor, what it has done so far, what is left to do, the
bytes of its source that have arrived, and the token that the MP has acquired for it (R50). -/
structure MpCmd where
  desc  : Desc
  done  : Nat
  left  : List Nat
  fed   : List Nat
  token : Option Nat
  deriving DecidableEq, Repr

/-- The MP as far as the other units see it: whether its firmware runs (R37, R65), whether the ROM loader serves in rescue mode (R550),
the command in execution (R84), and the bytes of its memory that a boot loaded or a master wrote (R41). -/
structure MpSt where
  running : Bool
  rescue  : Bool
  cmd     : Option MpCmd
  mem     : Store (Option Byte)
  deriving DecidableEq, Repr

def MpSt.reset : MpSt := ⟨false, false, none, []⟩

/-! ## Permafrost (spec/16_permafrost_otp.md) -/

/-- A word under way at the programming engine (R520): its address and data, whether its pulse has been cut, whether the MP's command
asked for it, and its RESULT once it has completed during a freeze (R588). -/
structure OtpWord where
  addr : Nat
  data : Nat
  cut  : Bool
  mp   : Bool
  ended : Option Nat
  deriving DecidableEq, Repr

/-- The array of Permafrost: each word at the strict and at the lenient margin, the main words by number and spare word e at 1024 + e
(R504); the words in force, as the last load left them (R511, R513); the word under way; and whether VDD_CORE lies within its
programming range (R519). -/
structure OtpSt where
  strict  : Store Nat
  lenient : Store Nat
  inForce : Store Nat
  prog    : Option OtpWord
  core    : Bool
  deriving DecidableEq, Repr

/-! ## The loader (spec/17_firmware_update.md) -/

/-- The loader session (R536, R542): its source identity and the tunnel session it came by, its number, the TB of its last request, its
phase (1 OPEN, 2 LOADING, 3 VERIFIED), the header accepted, the next INDEX and the last accepted, and the blocks erased in it. -/
structure Session where
  src    : Nat
  tunnel : Nat
  num    : Nat
  last   : Nat
  phase  : Nat
  header : List Nat
  next   : Nat
  lastIx : Option Nat
  erased : List Nat
  deriving DecidableEq, Repr

/-- The loader beside its registers: the session, whether an anti-rollback advance waits, has been announced and was last tried
(R548), the TB of the boot of the image on trial (R547), whether the retirements in force are recorded and the TB of the last try
(R564), and the slot whose header block is to be erased once the flash may be (R542, R567). -/
structure SvcSt where
  session : Option Session
  arbDue  : Bool
  arbTold : Bool
  arbAt   : Option Nat
  trialAt : Nat
  recorded : Bool
  recAt   : Nat
  spoiled : Option Nat
  deriving DecidableEq, Repr

def SvcSt.reset : SvcSt := ⟨none, false, false, none, 0, true, 0, none⟩

/-! ## Consumables (spec/10_consumable_accounting.md) -/

/-- An operation on a port's identity bus (R348, R352): whether it writes a record, its phase (1 RESP, 2 the signed record, 3 the
commit), the UID read, the challenge, the RECORD being written, the polls that found the device busy, and the command it ends. -/
structure BusOp where
  record : Bool
  phase  : Nat
  uid    : List Nat
  chal   : List Nat
  image  : List Nat
  polls  : Nat
  desc   : Option Desc
  deriving DecidableEq, Repr

/-- A port's consumable beside its registers (R342, R348, R352, R353): the residue in fL, the drop counters last read, the operation
running, the AUTH held before it, whether an AUTO authentication is due, the UID authenticated, the base SEQ and USAGE, the ink base,
the records written since, the INK of the last record, and the TB from which the spacing and the interval count. -/
structure ConsSt where
  residue : Nat
  seen    : List Nat
  op      : Option BusOp
  prior   : Nat
  due     : Bool
  uid     : List Nat
  baseSeq : Nat
  baseUse : Nat
  inkBase : Nat
  count   : Nat
  lastInk : Nat
  since   : Option Nat
  deriving DecidableEq, Repr

def ConsSt.reset : ConsSt := ⟨0, [0, 0, 0], none, 0, false, [], 0, 0, 0, 0, 0, none⟩

/-! ## Power, clocks and resets, freeze, and the TAP (spec/18_power_clocks_reset.md to spec/20_pins_electrical_package.md) -/

/-- PCR beside its registers: the TB at which each active warning began (R566, R570), the warnings that are long (R568), the
sources of a reset whose controller start is due (R576, R577), the supply of the last SUPPLY reset, whether REFCLK25 is lost
(R573), whether a die shutdown preceded (R472, R577), the TB of the watchdog's last feed (R581), and that from which the next AVS
step counts (R572). -/
structure PcrSt where
  warnAt  : Store (Option Nat)
  long    : List Nat
  start   : Option (List Nat)
  supply  : Nat
  refLost : Bool
  dieShut : Bool
  fed     : Nat
  avsAt   : Nat
  deriving DecidableEq, Repr

/-- Hoarfrost beside its registers: whether a freeze is under way (R586), the TB at which FROZEN set, whether FREEZE_N is low, and whether
a PERST_N or Function Level Reset is held (R588). -/
structure HfSt where
  active  : Bool
  frozen  : Nat
  pinLow  : Bool
  perst   : Bool
  deriving DecidableEq, Repr

def HfSt.reset : HfSt := ⟨false, 0, false, false⟩

/-- The TAP (R590, R626, R627): its instruction, the island selected by HF_SEL, the address taken by HF_MEM, the boundary-scan register, and
the instruction that drives the pins, if one does. -/
structure TapSt where
  ir    : Nat
  sel   : Nat
  mem   : Nat
  scan  : List Bool
  drive : Nat
  deriving DecidableEq, Repr

/-- The TAP after its reset: IDCODE is selected (R626). -/
def TapSt.reset : TapSt := ⟨1, 0, 0, [], 0⟩

/-- The housekeeping round (R459, R467): whether the present round has read a self-check channel outside its window, the consecutive invalid
rounds, the channel sampled next, and the TB at which the last round began. -/
structure RoundSt where
  bad  : Bool
  runs : Nat
  next : Nat
  at_  : Option Nat
  deriving DecidableEq, Repr

def RoundSt.reset : RoundSt := ⟨false, 0, 0, none⟩

/-- What the loaded Permafrost regions declare (R1, R507, R54, R422): device, ports, the last context, dot-store banks, the serial
number and the ring address. -/
structure Units where
  deviceId : Nat
  ports    : BitVec 16
  ctxLast  : Nat
  banks    : BitVec 64
  serial   : Nat
  ringAddr : Nat
  deriving DecidableEq, Repr

/-- The units in force until Permafrost has loaded: the restrictive defaults of region 2 (R513). -/
def Units.reset : Units := ⟨0x9600, 0, 0, 0xFFFF, 0, 0⟩

/-- A reference capture under way (R335): its command, the port, the passes, the list as class and nozzle, the pass and the nozzle
of the next tickle, the captures summed and their number by class, the references written, whether a product or a gate has stopped
it (R336), and the TB before which it drives no further tickle. -/
structure Walk where
  desc    : Desc
  port    : Nat
  avg     : Nat
  entries : List (Nat × Nat)
  pass    : Nat
  next    : Nat
  sums    : Store (Option (Nat × List Int))
  written : Nat
  halt    : Bool
  after   : Nat
  deriving DecidableEq, Repr

/-- The state of the controller. -/
structure State where
  /-- the commands that wait, first in, first out -/
  pending : List Instr
  /-- every register, by device address; an unlisted one holds its reset value -/
  regs    : Store Word
  /-- the snapshots of the upper words of wide values, by master and address (R19) -/
  snaps   : Store (Option Word)
  /-- the staged lower words of wide values, by master and address (R20) -/
  staged  : Store (Option Word)
  /-- the Moraine dot store, by byte address (R177) -/
  mem     : List Host.Cell
  /-- the master time base, in TB units, and its 24 fraction bits (R137) -/
  tb      : BitVec 64
  tbFrac  : BitVec 24
  /-- the number of free values drawn so far: the model's own field -/
  free    : Nat
  /-- what the controller has sent outward, oldest first: the model's own field -/
  out     : List Out
  /-- the reports that have not yet reached AON (R486) -/
  rakeQ   : List Report
  host    : HostSt
  bar     : BarSt
  ring    : RingSt
  mp      : MpSt
  units   : Units
  ctxs    : Store Ctx
  trackers : Store Tracker
  encoders : Store Encoder
  /-- the TB mirrors: 0 to 15 those of the HP islands, 16 that of DIBBER (R138, R482) -/
  mirrors : Store Mirror
  esp     : EspSt
  ports   : Store Port
  /-- the last fire time committed, by port and by context and range (R162) -/
  portFire : Store (Option Nat)
  rangeFire : Store (Option Nat)
  /-- the edge counts of a throttled port's contexts, by port and context (R469) -/
  throttle : Store Nat
  /-- the pulses active now on the REJ outputs: output and width in µs (R130, R131) -/
  rejActive : List (Nat × Nat)
  hk      : Store HkChan
  /-- the mask-set check under way: set, passes, modulus, and the first pair it will report with its count (R220) -/
  maskCheck : Option (Nat × Nat × Nat × Option (Nat × Nat))
  /-- the TB of the last injection fired in MODE 2 (R496) -/
  injLast : Option Nat
  /-- the CREVASSE_REF under way (R335) -/
  walk    : Option Walk
  /-- whether AON drives BYP_KEEP, and whether it sees the RING island's heartbeat (R417) -/
  keep    : Bool
  beat    : Bool
  axes    : Store Axis
  rake    : RakeSt
  otp     : OtpSt
  /-- the external NOR flash, by address; an erased byte is 0xFF (R538) -/
  nor     : List Host.Cell
  svc     : SvcSt
  consum  : Store ConsSt
  pcr     : PcrSt
  hf      : HfSt
  tap     : TapSt
  round   : RoundSt
  /-- the events of a load or a boot that wait until the ER is enabled, with the TB at which each arose (R81, R514, R555) -/
  late    : List (BitVec 64 × Nat × Nat × List Word)
  deriving DecidableEq, Repr

/-- The array as the part is shipped: an FX9616, with regions 0 to 5 complete and locked (R1, R518). What the spec does not give, serial
number, trim and keys, is chosen (DESIGN CHOICE, log entry 11). -/
def shippedWords : List (Nat × Nat) :=
  [(0x0, 0x1), (0x1, 0xB1), (0x7, 0x6312E0E99CED1F16), (0x47, 0xEE160F2011E9F0DF),
   (0x48, 0x961600FEFFFF), (0x49, 0xFFFFFFFFFFFFFFFF), (0x4F, 0x93E5BB8B6C1A4474), (0x5F, 0xC6A285D8395D7A27),
   (0x60, 0x1), (0x65, 0x56772008A988DFF7), (0x84, 0xE6F5AA52190A55AD), (0x3EF, 0x3F3F3F)]

def OtpSt.shipped : OtpSt := ⟨shippedWords, shippedWords, [], none, true⟩

/-- The machine right after power-on reset: every register at its reset value, no dot in Moraine, TB at 0 (R18, R137, R179). -/
def State.reset : State :=
  { pending := [], regs := [], snaps := [], staged := [], mem := [], tb := 0, tbFrac := 0, free := 0, out := [],
    rakeQ := [], host := HostSt.reset, bar := BarSt.reset, ring := RingSt.reset, mp := MpSt.reset, units := Units.reset, ctxs := [],
    trackers := [], encoders := [], mirrors := [], esp := EspSt.reset, ports := [], portFire := [], rangeFire := [], throttle := [],
    rejActive := [], hk := [], maskCheck := none, injLast := none,
    walk := none, keep := false, beat := true, axes := [], rake := RakeSt.reset,
    otp := OtpSt.shipped, nor := [], svc := SvcSt.reset, consum := [], pcr := ⟨[], [], some [31], 0, false, false, 0, 0⟩,
    hf := HfSt.reset, tap := TapSt.reset, round := RoundSt.reset, late := [] }

end Sys2Proof.Machine
end

