-- ==== Sys2Proof/Machine/Store.lean ====
section
/-! DEFINITION. The operations over a sparse map: reading, writing, and dropping a range of keys. -/

namespace Sys2Proof.Machine

/-- What key `k` reads as: the listed value, or the default where it is not listed. -/
def Store.get {α : Type} (d : Nat → α) : Store α → Nat → α
  | [], k => d k
  | (j, v) :: t, k => if k = j then v else if k < j then d k else Store.get d t k

/-- Whether a list has no key up to `k` in front, as the rest of a canonical map after key `k` has none. -/
def Store.opens {α : Type} (k : Nat) : Store α → Bool
  | [] => true
  | (j, _) :: _ => decide (k < j)

/-- The map with `v` at key `k`, in canonical form: writing the default removes the entry. -/
def Store.put {α : Type} [DecidableEq α] (d : Nat → α) : Store α → Nat → α → Store α
  | [], k, v => if v = d k then [] else [(k, v)]
  | (j, w) :: t, k, v =>
    if k < j then (if v = d k then (j, w) :: t else (k, v) :: (j, w) :: t)
    else if k = j then (if v = d k ∧ Store.opens k t = true then t else (k, v) :: t)
    else (j, w) :: Store.put d t k v

/-- The canonical form: keys rise strictly, and no entry equals the default of its key. -/
def Store.wf {α : Type} [DecidableEq α] (d : Nat → α) : Store α → Bool
  | [] => true
  | [(k, v)] => decide (v ≠ d k)
  | (j, w) :: (k, v) :: t => decide (w ≠ d j) && decide (j < k) && Store.wf d ((k, v) :: t)

/-- The map with every key that `p` names back at its default. -/
def Store.drop {α : Type} (p : Nat → Bool) (m : Store α) : Store α :=
  m.filter (fun c => !p c.1)

end Sys2Proof.Machine
end

