-- ==== Sys2Proof/Machine/Flags.lean ====
section
/-! DEFINITION. Bit fields of words (R11), counters that wrap or saturate (R14), and rounding (R12). The controller has no
processor flags; what a status register shows is a field. -/

namespace Sys2Proof.Machine

/-- Bits [hi:lo] of a word, as a number (R11). -/
def bitsOf (w : Word) (hi lo : Nat) : Nat := (w.toNat >>> lo) % 2 ^ (hi + 1 - lo)

/-- The word with bits [hi:lo] set to `v`, cut to the field's width. -/
def withBits (w : Word) (hi lo v : Nat) : Word :=
  BitVec.ofNat 32 (w.toNat - (bitsOf w hi lo) * 2 ^ lo + (v % 2 ^ (hi + 1 - lo)) * 2 ^ lo)

/-- Bit `n` of a word. -/
def bitOf (w : Word) (n : Nat) : Bool := w.getLsbD n

/-- A count `c` increased by `k`, in a counter of `w` bits that wraps (R14). -/
def wrapAdd (w c k : Nat) : Nat := (c + k) % 2 ^ w

/-- A count `c` increased by `k`, in a counter of `w` bits that saturates (R14). -/
def satAdd (w c k : Nat) : Nat := min (c + k) (2 ^ w - 1)

/-- The value of a `w`-bit two's complement pattern. -/
def signedOf (w n : Nat) : Int := if n % 2 ^ w < 2 ^ (w - 1) then (n % 2 ^ w : Nat) else (n % 2 ^ w : Nat) - (2 ^ w : Nat)

/-- The `w`-bit two's complement pattern of an integer, modulo 2^w. -/
def patternOf (w : Nat) (x : Int) : Nat := (x % (2 ^ w : Nat)).toNat

/-- x divided by a positive y, rounded to nearest with ties away from zero (R12). -/
def roundDiv (x y : Int) : Int :=
  if x < 0 then -(((-x) * 2 + y) / (2 * y)) else (x * 2 + y) / (2 * y)

/-- A value held within [lo, hi]. -/
def clampInt (lo hi x : Int) : Int := max lo (min hi x)

/-- A number held to the range of a signed one of `bits` bits, where a result saturates (R12, R135). -/
def saturate (bits : Nat) (x : Int) : Int := clampInt (-(2 ^ (bits - 1))) (2 ^ (bits - 1) - 1) x

/-! ## Medians (R139, R264) -/

/-- A list with `x` put in its place. -/
def insertSorted (x : Nat) : List Nat → List Nat
  | [] => [x]
  | y :: t => if x ≤ y then x :: y :: t else y :: insertSorted x t

/-- The sum of the two middle ones of an even number of numbers: twice their median. -/
def twiceMedian (l : List Nat) : Nat :=
  let a := l.foldl (fun acc x => insertSorted x acc) []
  a.getD (l.length / 2 - 1) 0 + a.getD (l.length / 2) 0

/-! ## Exact quotients: full-width intermediate values (R150, R156), rounded only where they are stored (R12) -/

/-- A quotient of integers with a positive denominator, not reduced. -/
structure Quot where
  num : Int
  den : Nat
  deriving DecidableEq, Repr

def quotOf (n : Int) (d : Nat) : Quot := ⟨n, d⟩
def quotInt (n : Int) : Quot := ⟨n, 1⟩
def quotAdd (x y : Quot) : Quot := ⟨x.num * y.den + y.num * x.den, x.den * y.den⟩
def quotNeg (x : Quot) : Quot := ⟨-x.num, x.den⟩
def quotSub (x y : Quot) : Quot := quotAdd x (quotNeg y)
def quotMul (x y : Quot) : Quot := ⟨x.num * y.num, x.den * y.den⟩
/-- x / y for y not 0. -/
def quotDiv (x y : Quot) : Quot :=
  if y.num < 0 then ⟨-(x.num * y.den), x.den * y.num.natAbs⟩ else ⟨x.num * y.den, x.den * y.num.natAbs⟩
def quotLt (x y : Quot) : Bool := decide (x.num * y.den < y.num * x.den)
def quotLe (x y : Quot) : Bool := decide (x.num * y.den ≤ y.num * x.den)
/-- Rounded to nearest, ties away from zero (R12). -/
def quotRound (x : Quot) : Int := roundDiv x.num x.den

/-- A position modulo 2^48 as a signed 48-bit number (R135). -/
def pos48 (x : Int) : Int := signedOf 48 (patternOf 48 x)

end Sys2Proof.Machine
end

