-- ==== Sys2Proof/Machine/Microstep.lean ====
section
/-! DEFINITION. The microstep tables that Tiller loads at each power-on of MOTION (R428, spec/13_tiller_motion.md). -/

namespace Sys2Proof.Machine

/-! round(2,047 × cos(2πk/1,024)) for k from 0 to 256, in parts. -/

def cosPart0 : List Nat := [2047, 2047, 2047, 2047, 2046, 2046, 2046, 2045, 2045, 2044, 2043, 2042, 2041, 2040, 2039, 2038,
  2037, 2036, 2035, 2033, 2032, 2030, 2028, 2027, 2025, 2023, 2021, 2019, 2017, 2015, 2012, 2010, 2008, 2005, 2003, 2000, 1997,
  1994, 1992, 1989, 1986, 1983, 1979, 1976, 1973, 1969, 1966, 1962, 1959, 1955, 1951, 1948, 1944, 1940, 1936, 1932, 1927, 1923,
  1919, 1914, 1910, 1905, 1901, 1896, 1891]
def cosPart1 : List Nat := [1886, 1881, 1876, 1871, 1866, 1861, 1856, 1850, 1845, 1840, 1834, 1828, 1823, 1817, 1811, 1805,
  1799, 1793, 1787, 1781, 1775, 1769, 1762, 1756, 1749, 1743, 1736, 1729, 1723, 1716, 1709, 1702, 1695, 1688, 1681, 1674, 1666,
  1659, 1652, 1644, 1637, 1629, 1621, 1614, 1606, 1598, 1590, 1582, 1574, 1566, 1558, 1550, 1542, 1533, 1525, 1517, 1508, 1500,
  1491, 1483, 1474, 1465, 1456, 1447, 1439]
def cosPart2 : List Nat := [1430, 1421, 1411, 1402, 1393, 1384, 1375, 1365, 1356, 1347, 1337, 1328, 1318, 1308, 1299, 1289,
  1279, 1269, 1259, 1249, 1239, 1229, 1219, 1209, 1199, 1189, 1179, 1168, 1158, 1148, 1137, 1127, 1116, 1106, 1095, 1085, 1074,
  1063, 1052, 1042, 1031, 1020, 1009, 998, 987, 976, 965, 954, 943, 932, 920, 909, 898, 887, 875, 864, 852, 841, 830, 818, 807,
  795, 783, 772, 760]
def cosPart3 : List Nat := [748, 737, 725, 713, 701, 690, 678, 666, 654, 642, 630, 618, 606, 594, 582, 570, 558, 546, 534, 522,
  510, 497, 485, 473, 461, 449, 436, 424, 412, 399, 387, 375, 362, 350, 338, 325, 313, 300, 288, 275, 263, 251, 238, 226, 213,
  201, 188, 176, 163, 151, 138, 126, 113, 100, 88, 75, 63, 50, 38, 25, 13, 0]

/-- The first quarter of the cosine, k from 0 to 256. -/
def cosQuarter : List Nat := cosPart0 ++ cosPart1 ++ cosPart2 ++ cosPart3

/-- round(2,047 × cos(2πk/1,024)). -/
def cosEntry (k : Nat) : Int :=
  let j := k % 1024
  if j ≤ 256 then cosQuarter.getD j 0
  else if j ≤ 512 then -(cosQuarter.getD (512 - j) 0 : Int)
  else if j ≤ 768 then -(cosQuarter.getD (j - 512) 0 : Int)
  else cosQuarter.getD (1024 - j) 0

/-- The word of entry `k` as loaded: A the cosine, B the sine, 12 bits each (R428, R458). -/
def microstepWord (k : Nat) : Nat :=
  (cosEntry k % 4096).toNat + (cosEntry (k + 768) % 4096).toNat * 2 ^ 16

end Sys2Proof.Machine
end

