-- ==== Sys2Proof/Machine/Operands.lean ====
section
/-! DEFINITION. The operand forms of the commands: addresses by device address or through a BAR, words and the bytes they hold (R10, R13,
R40, R43, spec/01_islands_and_data_flow.md). -/

namespace Sys2Proof.Machine

/-- The low word of a number, or its high word. -/
def lowWord (n : Nat) : Word := BitVec.ofNat 32 n
def highWord (n : Nat) : Word := BitVec.ofNat 32 (n / 2 ^ 32)

/-- A number as `k` bytes, low byte first (R10). -/
def leBytes : Nat → Nat → List Nat
  | 0, _ => []
  | k + 1, v => v % 256 :: leBytes k (v / 256)

/-- The number that bytes hold in little-endian order (R10). -/
def leNat : List Nat → Nat
  | [] => 0
  | b :: t => b % 256 + 256 * leNat t

/-- The device address of an access, through a BAR or not (R43). -/
def deviceAddr (a : BusAddr) : Nat :=
  match a.view with
  | .device => a.off
  | .bar0 => 0x4D00000 + a.off
  | .bar2 => 0x4D10000 + a.off
  | .bar4 => a.off

/-- The bytes of a word, low byte first. -/
def wordBytes (w : Word) : List Byte := (leBytes 4 w.toNat).map (fun b => BitVec.ofNat 8 b)

/-- A word of up to four bytes, low byte first. -/
def bytesWord (l : List Byte) : Word := lowWord (leNat (l.map (fun b => b.toNat)))

/-- The bytes of `l`, written from address `a` on, that fall in the word at `b`. -/
def partAt (a : Nat) (l : List Byte) (b : Nat) : List (Option Byte) :=
  (List.range 4).map (fun j => if a ≤ b + j then l[b + j - a]? else none)

end Sys2Proof.Machine
end

