-- ==== Sys2Proof/Machine/Regs.lean ====
section
/-! DEFINITION. The register map: where every register of the spec's register tables lies, its fields, its access
codes and its reset value (R15 to R21, and the tables of the chapters named beside each block). -/

namespace Sys2Proof.Machine

/-! ## Addresses of the registers, and their fields, under the manual's names -/

/-! HOST (spec/02_host_rings_and_doorbells.md) -/
def Reg.HOST_ID : Nat := 0x4D00000
def Fld.HOST_ID_DEVICE : Fld := ⟨Reg.HOST_ID, 31, 16⟩
def Reg.HOST_STAT : Nat := 0x4D00004
def Fld.HOST_STAT_SPEED : Fld := ⟨Reg.HOST_STAT, 15, 12⟩
def Fld.HOST_STAT_WIDTH : Fld := ⟨Reg.HOST_STAT, 11, 8⟩
def Fld.HOST_STAT_MP_RUN : Fld := ⟨Reg.HOST_STAT, 2, 2⟩
def Fld.HOST_STAT_MP_LATE : Fld := ⟨Reg.HOST_STAT, 1, 1⟩
def Fld.HOST_STAT_CFG_RETRY : Fld := ⟨Reg.HOST_STAT, 0, 0⟩
def Reg.HOST_CTL : Nat := 0x4D00008
def Fld.HOST_CTL_INTN_EN : Fld := ⟨Reg.HOST_CTL, 1, 1⟩
def Reg.HOST_CQ_LOST : Nat := 0x4D00040
def Fld.HOST_CQ_LOST_COUNT : Fld := ⟨Reg.HOST_CQ_LOST, 31, 0⟩
def Reg.HOST_ER_LOST : Nat := 0x4D00044
def Fld.HOST_ER_LOST_COUNT : Fld := ⟨Reg.HOST_ER_LOST, 31, 0⟩
def Reg.HOST_EVMASK0 : Nat := 0x4D00050
def Reg.HOST_EVMASK1 : Nat := 0x4D00054
def Reg.HOST_IPEND0 : Nat := 0x4D00060
def Reg.HOST_IPEND1 : Nat := 0x4D00064
def Reg.HOST_RBASE_LO (n : Nat) : Nat := 0x4D00100 + 0x20 * n
def Reg.HOST_RBASE_HI (n : Nat) : Nat := 0x4D00104 + 0x20 * n
def Fld.HOST_RBASE_HI_BASE (n : Nat) : Fld := ⟨Reg.HOST_RBASE_HI n, 31, 0⟩
def Reg.HOST_RCTL (n : Nat) : Nat := 0x4D00108 + 0x20 * n
def Fld.HOST_RCTL_ENABLE (n : Nat) : Fld := ⟨Reg.HOST_RCTL n, 31, 31⟩
def Fld.HOST_RCTL_VEC (n : Nat) : Fld := ⟨Reg.HOST_RCTL n, 21, 16⟩
def Fld.HOST_RCTL_COAL_N (n : Nat) : Fld := ⟨Reg.HOST_RCTL n, 15, 8⟩
def Fld.HOST_RCTL_SIZE_LOG2 (n : Nat) : Fld := ⟨Reg.HOST_RCTL n, 4, 0⟩
def Reg.HOST_RPROD (n : Nat) : Nat := 0x4D0010C + 0x20 * n
def Reg.HOST_RCONS (n : Nat) : Nat := 0x4D00110 + 0x20 * n
def Reg.HOST_RSTAT (n : Nat) : Nat := 0x4D00114 + 0x20 * n
def Fld.HOST_RSTAT_ERR (n : Nat) : Fld := ⟨Reg.HOST_RSTAT n, 23, 16⟩
def Fld.HOST_RSTAT_STATE (n : Nat) : Fld := ⟨Reg.HOST_RSTAT n, 2, 0⟩
def Reg.HOST_RIRQ (n : Nat) : Nat := 0x4D00118 + 0x20 * n
def Fld.HOST_RIRQ_COAL_T (n : Nat) : Fld := ⟨Reg.HOST_RIRQ n, 15, 0⟩
def Reg.HOST_MSIX_TABLE (n : Nat) : Nat := 0x4D08000 + 0x4 * n
def Reg.HOST_MSIX_PBA (n : Nat) : Nat := 0x4D08800 + 0x4 * n
def Reg.OWN (n : Nat) : Nat := 0x4D0F000 + 0x4 * n
def Fld.OWN_HOLDER (n : Nat) : Fld := ⟨Reg.OWN n, 23, 16⟩
def Fld.OWN_TAG (n : Nat) : Fld := ⟨Reg.OWN n, 15, 0⟩
def Reg.HOST_WHOAMI : Nat := 0x4D0F080
def Reg.OWN_STAT : Nat := 0x4D0F084

/-! DB (spec/02_host_rings_and_doorbells.md) -/
def Reg.DOORBELL (n : Nat) : Nat := 0x4D10000 + 0x8 * n

/-! CTX (spec/03_print_contexts.md) -/
def Reg.CTX_ID (n : Nat) : Nat := 0x4000000 + 0x1000 * n
def Fld.CTX_ID_PRESENT (n : Nat) : Fld := ⟨Reg.CTX_ID n, 8, 8⟩
def Reg.CTX_STATE (n : Nat) : Nat := 0x4000004 + 0x1000 * n
def Fld.CTX_STATE_QDEPTH (n : Nat) : Fld := ⟨Reg.CTX_STATE n, 27, 24⟩
def Fld.CTX_STATE_INFLIGHT (n : Nat) : Fld := ⟨Reg.CTX_STATE n, 21, 20⟩
def Fld.CTX_STATE_HALT_PEND (n : Nat) : Fld := ⟨Reg.CTX_STATE n, 16, 16⟩
def Fld.CTX_STATE_CAUSE (n : Nat) : Fld := ⟨Reg.CTX_STATE n, 15, 8⟩
def Fld.CTX_STATE_STATE (n : Nat) : Fld := ⟨Reg.CTX_STATE n, 2, 0⟩
def Reg.CTX_COMMIT (n : Nat) : Nat := 0x4000008 + 0x1000 * n
def Reg.CTX_HO_STAT (n : Nat) : Nat := 0x400000C + 0x1000 * n
def Fld.CTX_HO_STAT_HO_CNT (n : Nat) : Fld := ⟨Reg.CTX_HO_STAT n, 31, 16⟩
def Fld.CTX_HO_STAT_REFUSED (n : Nat) : Fld := ⟨Reg.CTX_HO_STAT n, 3, 3⟩
def Fld.CTX_HO_STAT_BAD (n : Nat) : Fld := ⟨Reg.CTX_HO_STAT n, 2, 2⟩
def Fld.CTX_HO_STAT_COMMIT_PEND (n : Nat) : Fld := ⟨Reg.CTX_HO_STAT n, 0, 0⟩
def Reg.CTX_HO_SEQ_LO (n : Nat) : Nat := 0x4000010 + 0x1000 * n
def Reg.CTX_HO_SEQ_HI (n : Nat) : Nat := 0x4000014 + 0x1000 * n
def Fld.CTX_HO_SEQ_HI_VALID (n : Nat) : Fld := ⟨Reg.CTX_HO_SEQ_HI n, 31, 31⟩
def Fld.CTX_HO_SEQ_HI_SEQ_HI (n : Nat) : Fld := ⟨Reg.CTX_HO_SEQ_HI n, 15, 0⟩
def Reg.CTX_BINDING (n : Nat) : Nat := 0x4000020 + 0x1000 * n
def Fld.CTX_BINDING_NRANGES (n : Nat) : Fld := ⟨Reg.CTX_BINDING n, 28, 24⟩
def Fld.CTX_BINDING_DIR (n : Nat) : Fld := ⟨Reg.CTX_BINDING n, 17, 17⟩
def Fld.CTX_BINDING_PGO_EDGE (n : Nat) : Fld := ⟨Reg.CTX_BINDING n, 16, 16⟩
def Fld.CTX_BINDING_PGO_SRC (n : Nat) : Fld := ⟨Reg.CTX_BINDING n, 13, 8⟩
def Fld.CTX_BINDING_POS_SRC (n : Nat) : Fld := ⟨Reg.CTX_BINDING n, 4, 0⟩
def Reg.CTX_PATCH_BASE (n : Nat) : Nat := 0x4000024 + 0x1000 * n
def Fld.CTX_PATCH_BASE_BASE (n : Nat) : Fld := ⟨Reg.CTX_PATCH_BASE n, 19, 0⟩
def Reg.CTX_PATCH_SIZE (n : Nat) : Nat := 0x4000028 + 0x1000 * n
def Fld.CTX_PATCH_SIZE_SIZE (n : Nat) : Fld := ⟨Reg.CTX_PATCH_SIZE n, 20, 0⟩
def Reg.CTX_RANGE (n i : Nat) : Nat := 0x4000040 + 0x1000 * n + 0x4 * i
def Fld.CTX_RANGE_PORT (n i : Nat) : Fld := ⟨Reg.CTX_RANGE n i, 31, 28⟩
def Fld.CTX_RANGE_COUNT (n i : Nat) : Fld := ⟨Reg.CTX_RANGE n i, 12, 0⟩
def Reg.CTX_STG_RANGE (n i : Nat) : Nat := 0x4000080 + 0x1000 * n + 0x4 * i
def Reg.CTX_CNT_EDGE (n : Nat) : Nat := 0x40000C0 + 0x1000 * n
def Fld.CTX_CNT_EDGE_COUNT (n : Nat) : Fld := ⟨Reg.CTX_CNT_EDGE n, 31, 0⟩
def Reg.CTX_CNT_NOJOB (n : Nat) : Nat := 0x40000C4 + 0x1000 * n
def Fld.CTX_CNT_NOJOB_COUNT (n : Nat) : Fld := ⟨Reg.CTX_CNT_NOJOB n, 31, 0⟩
def Reg.CTX_CNT_LOCKED (n : Nat) : Nat := 0x40000C8 + 0x1000 * n
def Fld.CTX_CNT_LOCKED_COUNT (n : Nat) : Fld := ⟨Reg.CTX_CNT_LOCKED n, 31, 0⟩
def Reg.CTX_CNT_IGNORED (n : Nat) : Nat := 0x40000CC + 0x1000 * n
def Fld.CTX_CNT_IGNORED_COUNT (n : Nat) : Fld := ⟨Reg.CTX_CNT_IGNORED n, 31, 0⟩
def Reg.CTX_CNT_REJLATE (n : Nat) : Nat := 0x40000D0 + 0x1000 * n
def Fld.CTX_CNT_REJLATE_COUNT (n : Nat) : Fld := ⟨Reg.CTX_CNT_REJLATE n, 31, 0⟩
def Reg.CTX_SKIP (n : Nat) : Nat := 0x40000D4 + 0x1000 * n
def Fld.CTX_SKIP_COUNT (n : Nat) : Fld := ⟨Reg.CTX_SKIP n, 7, 0⟩
def Reg.CTX_LINES (n : Nat) : Nat := 0x4000100 + 0x1000 * n
def Fld.CTX_LINES_LINES (n : Nat) : Fld := ⟨Reg.CTX_LINES n, 15, 0⟩
def Reg.CTX_LOCKOUT (n : Nat) : Nat := 0x4000110 + 0x1000 * n
def Fld.CTX_LOCKOUT_LOCKOUT (n : Nat) : Fld := ⟨Reg.CTX_LOCKOUT n, 31, 0⟩
def Reg.CTX_TIMEOUT (n : Nat) : Nat := 0x4000114 + 0x1000 * n
def Fld.CTX_TIMEOUT_TIMEOUT (n : Nat) : Fld := ⟨Reg.CTX_TIMEOUT n, 31, 0⟩
def Reg.CTX_REJ (n : Nat) : Nat := 0x4000118 + 0x1000 * n
def Fld.CTX_REJ_NOJOB_SKIP (n : Nat) : Fld := ⟨Reg.CTX_REJ n, 28, 28⟩
def Reg.CTX_REJ_DELAY (n : Nat) : Nat := 0x400011C + 0x1000 * n
def Reg.CTX_ROWOFF (n i : Nat) : Nat := 0x4000140 + 0x1000 * n + 0x4 * i
def Reg.CTX_SH_LINES (n : Nat) : Nat := 0x4000200 + 0x1000 * n
def Fld.CTX_SH_LINES_LINES (n : Nat) : Fld := ⟨Reg.CTX_SH_LINES n, 15, 0⟩
def Reg.CTX_SH_PITCH (n : Nat) : Nat := 0x4000204 + 0x1000 * n
def Reg.CTX_SH_ROWOFF (n i : Nat) : Nat := 0x4000240 + 0x1000 * n + 0x4 * i

/-! DIB (spec/04_dibber_placement.md) -/
def Reg.DIB_URGENT : Nat := 0x4100004
def Fld.DIB_URGENT_COUNT : Fld := ⟨Reg.DIB_URGENT, 31, 0⟩
def Reg.DIB_HOLD : Nat := 0x4100008
def Fld.DIB_HOLD_COUNT : Fld := ⟨Reg.DIB_HOLD, 31, 0⟩
def Reg.DIB_TB_LO : Nat := 0x4100010
def Reg.DIB_TB_HI : Nat := 0x4100014
def Reg.DIB_LOOK (n : Nat) : Nat := 0x4100100 + 0x4 * n
def Fld.DIB_LOOK_LOOKAHEAD (n : Nat) : Fld := ⟨Reg.DIB_LOOK n, 23, 0⟩
def Reg.ENC_CFG (n : Nat) : Nat := 0x4100200 + 0x20 * n
def Fld.ENC_CFG_EN (n : Nat) : Fld := ⟨Reg.ENC_CFG n, 31, 31⟩
def Fld.ENC_CFG_INV (n : Nat) : Fld := ⟨Reg.ENC_CFG n, 30, 30⟩
def Fld.ENC_CFG_Z_MODE (n : Nat) : Fld := ⟨Reg.ENC_CFG n, 29, 28⟩
def Fld.ENC_CFG_SHIFT (n : Nat) : Fld := ⟨Reg.ENC_CFG n, 26, 24⟩
def Fld.ENC_CFG_FILT (n : Nat) : Fld := ⟨Reg.ENC_CFG n, 20, 16⟩
def Reg.ENC_ZCPR (n : Nat) : Nat := 0x4100204 + 0x20 * n
def Reg.ENC_CNT (n : Nat) : Nat := 0x4100208 + 0x20 * n
def Reg.ENC_ERR (n : Nat) : Nat := 0x410020C + 0x20 * n
def Fld.ENC_ERR_PHASE_ERR (n : Nat) : Fld := ⟨Reg.ENC_ERR n, 31, 16⟩
def Fld.ENC_ERR_Z_ERR (n : Nat) : Fld := ⟨Reg.ENC_ERR n, 15, 0⟩
def Reg.ENC_LAST_LO (n : Nat) : Nat := 0x4100210 + 0x20 * n
def Reg.PGO_CFG (n : Nat) : Nat := 0x4100400 + 0x10 * n
def Fld.PGO_CFG_FILT (n : Nat) : Fld := ⟨Reg.PGO_CFG n, 15, 0⟩
def Reg.PGO_TB_LO (n : Nat) : Nat := 0x4100404 + 0x10 * n
def Reg.PGO_STAT (n : Nat) : Nat := 0x410040C + 0x10 * n
def Fld.PGO_STAT_LEVEL (n : Nat) : Fld := ⟨Reg.PGO_STAT n, 16, 16⟩
def Fld.PGO_STAT_EDGES (n : Nat) : Fld := ⟨Reg.PGO_STAT n, 15, 0⟩
def Reg.TRK_CFG (n : Nat) : Nat := 0x4100800 + 0x40 * n
def Fld.TRK_CFG_GAMMA (n : Nat) : Fld := ⟨Reg.TRK_CFG n, 31, 16⟩
def Fld.TRK_CFG_MIN_DT (n : Nat) : Fld := ⟨Reg.TRK_CFG n, 15, 0⟩
def Reg.TRK_GAIN (n : Nat) : Nat := 0x4100804 + 0x40 * n
def Fld.TRK_GAIN_ALPHA (n : Nat) : Fld := ⟨Reg.TRK_GAIN n, 31, 16⟩
def Fld.TRK_GAIN_BETA (n : Nat) : Fld := ⟨Reg.TRK_GAIN n, 15, 0⟩
def Reg.TRK_STILL (n : Nat) : Nat := 0x4100808 + 0x40 * n
def Reg.TRK_STAT (n : Nat) : Nat := 0x410080C + 0x40 * n
def Fld.TRK_STAT_ASAT (n : Nat) : Fld := ⟨Reg.TRK_STAT n, 4, 4⟩
def Fld.TRK_STAT_VSAT (n : Nat) : Fld := ⟨Reg.TRK_STAT n, 3, 3⟩
def Fld.TRK_STAT_CLAMP (n : Nat) : Fld := ⟨Reg.TRK_STAT n, 2, 2⟩
def Fld.TRK_STAT_STILL (n : Nat) : Fld := ⟨Reg.TRK_STAT n, 1, 1⟩
def Fld.TRK_STAT_ACTIVE (n : Nat) : Fld := ⟨Reg.TRK_STAT n, 0, 0⟩
def Reg.TRK_POS_LO (n : Nat) : Nat := 0x4100810 + 0x40 * n
def Reg.TRK_POS_HI (n : Nat) : Nat := 0x4100814 + 0x40 * n
def Reg.TRK_VEL (n : Nat) : Nat := 0x4100818 + 0x40 * n
def Reg.TRK_ACC (n : Nat) : Nat := 0x410081C + 0x40 * n
def Reg.TRK_TREF_LO (n : Nat) : Nat := 0x4100820 + 0x40 * n
def Reg.TRK_TREF_HI (n : Nat) : Nat := 0x4100824 + 0x40 * n
def Reg.DIB_CTX_STAT (n : Nat) : Nat := 0x4101000 + 0x10 * n
def Fld.DIB_CTX_STAT_LATE (n : Nat) : Fld := ⟨Reg.DIB_CTX_STAT n, 31, 16⟩
def Fld.DIB_CTX_STAT_LAST_OVR (n : Nat) : Fld := ⟨Reg.DIB_CTX_STAT n, 7, 0⟩
def Reg.DIB_CTX_OVR (n : Nat) : Nat := 0x4101004 + 0x10 * n
def Fld.DIB_CTX_OVR_OVR (n : Nat) : Fld := ⟨Reg.DIB_CTX_OVR n, 31, 0⟩
def Reg.DIB_CTX_ABORT (n : Nat) : Nat := 0x4101008 + 0x10 * n
def Fld.DIB_CTX_ABORT_ABORT (n : Nat) : Fld := ⟨Reg.DIB_CTX_ABORT n, 31, 0⟩

/-! ESP (spec/05_moraine_and_espalier.md) -/
def Reg.ESP_CFG : Nat := 0x4160004
def Fld.ESP_CFG_SCRUB_EN : Fld := ⟨Reg.ESP_CFG, 31, 31⟩
def Fld.ESP_CFG_SCRUB_INT : Fld := ⟨Reg.ESP_CFG, 15, 8⟩
def Reg.ESP_STAT : Nat := 0x4160008
def Fld.ESP_STAT_DS1_INIT : Fld := ⟨Reg.ESP_STAT, 5, 5⟩
def Fld.ESP_STAT_DS0_INIT : Fld := ⟨Reg.ESP_STAT, 4, 4⟩
def Fld.ESP_STAT_PLD_BAD : Fld := ⟨Reg.ESP_STAT, 0, 0⟩
def Reg.ESP_PLD_BAD : Nat := 0x416000C
def Fld.ESP_PLD_BAD_REASON : Fld := ⟨Reg.ESP_PLD_BAD, 19, 16⟩
def Fld.ESP_PLD_BAD_NUM : Fld := ⟨Reg.ESP_PLD_BAD, 11, 0⟩
def Reg.ESP_CQ : Nat := 0x4160010
def Fld.ESP_CQ_HIGH : Fld := ⟨Reg.ESP_CQ, 25, 16⟩
def Fld.ESP_CQ_LEVEL : Fld := ⟨Reg.ESP_CQ, 9, 0⟩
def Reg.ESP_CNT_LATE : Nat := 0x4160020
def Fld.ESP_CNT_LATE_COUNT : Fld := ⟨Reg.ESP_CNT_LATE, 31, 0⟩
def Reg.ESP_CNT_PATCH : Nat := 0x4160024
def Fld.ESP_CNT_PATCH_COUNT : Fld := ⟨Reg.ESP_CNT_PATCH, 31, 0⟩
def Reg.ESP_CNT_FIFO : Nat := 0x4160028
def Fld.ESP_CNT_FIFO_COUNT : Fld := ⟨Reg.ESP_CNT_FIFO, 31, 0⟩
def Reg.ESP_CNT_DEFER : Nat := 0x416002C
def Fld.ESP_CNT_DEFER_COUNT : Fld := ⟨Reg.ESP_CNT_DEFER, 31, 0⟩
def Reg.MOR_CE_CNT : Nat := 0x4160040
def Fld.MOR_CE_CNT_COUNT : Fld := ⟨Reg.MOR_CE_CNT, 31, 0⟩
def Reg.MOR_UE_CNT : Nat := 0x4160044
def Fld.MOR_UE_CNT_COUNT : Fld := ⟨Reg.MOR_UE_CNT, 31, 0⟩
def Reg.MOR_CE_ADDR : Nat := 0x4160048
def Fld.MOR_CE_ADDR_WORD : Fld := ⟨Reg.MOR_CE_ADDR, 25, 3⟩
def Reg.MOR_UE_ADDR : Nat := 0x416004C
def Fld.MOR_UE_ADDR_WORD : Fld := ⟨Reg.MOR_UE_ADDR, 25, 3⟩
def Reg.MOR_BANKS_LO : Nat := 0x4160050
def Reg.MOR_BANKS_HI : Nat := 0x4160054
def Reg.ESP_FIFO (n : Nat) : Nat := 0x4160800 + 0x4 * n
def Fld.ESP_FIFO_HIGH (n : Nat) : Fld := ⟨Reg.ESP_FIFO n, 22, 16⟩
def Fld.ESP_FIFO_LEVEL (n : Nat) : Fld := ⟨Reg.ESP_FIFO n, 6, 0⟩
def Reg.ESP_PA_USED (n : Nat) : Nat := 0x4161000 + 0x10 * n
def Fld.ESP_PA_USED_UNITS (n : Nat) : Fld := ⟨Reg.ESP_PA_USED n, 20, 0⟩
def Reg.ESP_PA_STAT (n : Nat) : Nat := 0x4161004 + 0x10 * n
def Fld.ESP_PA_STAT_BLOCKS (n : Nat) : Fld := ⟨Reg.ESP_PA_STAT n, 23, 20⟩
def Fld.ESP_PA_STAT_WAITING (n : Nat) : Fld := ⟨Reg.ESP_PA_STAT n, 19, 16⟩
def Fld.ESP_PA_STAT_FETCHING (n : Nat) : Fld := ⟨Reg.ESP_PA_STAT n, 15, 12⟩
def Reg.PLD_W0 (n : Nat) : Nat := 0x4170000 + 0x10 * n
def Fld.PLD_W0_VALID (n : Nat) : Fld := ⟨Reg.PLD_W0 n, 31, 31⟩
def Reg.PLD_W1 (n : Nat) : Nat := 0x4170004 + 0x10 * n
def Reg.PLD_W2 (n : Nat) : Nat := 0x4170008 + 0x10 * n
def Fld.PLD_W2_NOZ_FIRST (n : Nat) : Fld := ⟨Reg.PLD_W2 n, 15, 0⟩
def Reg.PLD_W3 (n : Nat) : Nat := 0x417000C + 0x10 * n
def Fld.PLD_W3_NOZ_COUNT (n : Nat) : Fld := ⟨Reg.PLD_W3 n, 16, 0⟩

/-! SHR (spec/06_shears_and_graft.md) -/
def Reg.SHR_STAT : Nat := 0x4140004
def Fld.SHR_STAT_ZONE_BAD : Fld := ⟨Reg.SHR_STAT, 0, 0⟩
def Reg.SHR_ZBAD : Nat := 0x4140008
def Fld.SHR_ZBAD_REASON : Fld := ⟨Reg.SHR_ZBAD, 19, 16⟩
def Fld.SHR_ZBAD_ZONE : Fld := ⟨Reg.SHR_ZBAD, 13, 8⟩
def Fld.SHR_ZBAD_CTX : Fld := ⟨Reg.SHR_ZBAD, 7, 0⟩
def Reg.SHR_CHECK : Nat := 0x4140010
def Fld.SHR_CHECK_BUSY : Fld := ⟨Reg.SHR_CHECK, 30, 30⟩
def Fld.SHR_CHECK_RESULT : Fld := ⟨Reg.SHR_CHECK, 29, 28⟩
def Fld.SHR_CHECK_NPASS_M1 : Fld := ⟨Reg.SHR_CHECK, 26, 24⟩
def Fld.SHR_CHECK_MOD : Fld := ⟨Reg.SHR_CHECK, 22, 16⟩
def Fld.SHR_CHECK_ENTRY : Fld := ⟨Reg.SHR_CHECK, 15, 10⟩
def Fld.SHR_CHECK_BIT : Fld := ⟨Reg.SHR_CHECK, 9, 4⟩
def Fld.SHR_CHECK_SET : Fld := ⟨Reg.SHR_CHECK, 3, 0⟩
def Reg.SHR_CNT_ZSKIP : Nat := 0x4140020
def Fld.SHR_CNT_ZSKIP_COUNT : Fld := ⟨Reg.SHR_CNT_ZSKIP, 31, 0⟩
def Reg.SHR_CNT_PASS : Nat := 0x4140024
def Fld.SHR_CNT_PASS_COUNT : Fld := ⟨Reg.SHR_CNT_PASS, 31, 0⟩
def Reg.SHR_ZONE_A (n : Nat) : Nat := 0x4141000 + 0x8 * n
def Fld.SHR_ZONE_A_EN (n : Nat) : Fld := ⟨Reg.SHR_ZONE_A n, 31, 31⟩
def Fld.SHR_ZONE_A_CTX (n : Nat) : Fld := ⟨Reg.SHR_ZONE_A n, 23, 16⟩
def Reg.SHR_ZONE_B (n : Nat) : Nat := 0x4141004 + 0x8 * n
def Reg.SHR_CTX_SCAN (n : Nat) : Nat := 0x4142000 + 0x20 * n
def Fld.SHR_CTX_SCAN_SCAN_EN (n : Nat) : Fld := ⟨Reg.SHR_CTX_SCAN n, 31, 31⟩
def Fld.SHR_CTX_SCAN_NPASS_M1 (n : Nat) : Fld := ⟨Reg.SHR_CTX_SCAN n, 26, 24⟩
def Reg.SHR_CTX_ALIGN_F (n : Nat) : Nat := 0x4142004 + 0x20 * n
def Reg.SHR_CTX_ALIGN_R (n : Nat) : Nat := 0x4142008 + 0x20 * n
def Reg.SHR_CTX_PSTAT (n : Nat) : Nat := 0x414200C + 0x20 * n
def Fld.SHR_CTX_PSTAT_ARMED (n : Nat) : Fld := ⟨Reg.SHR_CTX_PSTAT n, 8, 8⟩
def Fld.SHR_CTX_PSTAT_PASS (n : Nat) : Fld := ⟨Reg.SHR_CTX_PSTAT n, 2, 0⟩
def Reg.SHR_STITCH (n : Nat) : Nat := 0x4148000 + 0x4 * n
def Reg.SHR_MASK (n : Nat) : Nat := 0x4150000 + 0x4 * n

/-! GRF (spec/06_shears_and_graft.md) -/
def Reg.GRF_CFG : Nat := 0x4180004
def Fld.GRF_CFG_EN : Fld := ⟨Reg.GRF_CFG, 31, 31⟩
def Reg.GRF_STAT : Nat := 0x4180008
def Fld.GRF_STAT_BAD : Fld := ⟨Reg.GRF_STAT, 0, 0⟩
def Reg.GRF_BAD : Nat := 0x418000C
def Fld.GRF_BAD_REASON : Fld := ⟨Reg.GRF_BAD, 19, 16⟩
def Fld.GRF_BAD_NUM : Fld := ⟨Reg.GRF_BAD, 12, 0⟩
def Reg.GRF_NSET : Nat := 0x4180010
def Reg.GRF_CNT_SUB : Nat := 0x4180020
def Fld.GRF_CNT_SUB_COUNT : Fld := ⟨Reg.GRF_CNT_SUB, 31, 0⟩
def Reg.GRF_CNT_LOST : Nat := 0x4180024
def Fld.GRF_CNT_LOST_COUNT : Fld := ⟨Reg.GRF_CNT_LOST, 31, 0⟩
def Reg.GRF_CNT_OVF : Nat := 0x4180028
def Fld.GRF_CNT_OVF_COUNT : Fld := ⟨Reg.GRF_CNT_OVF, 31, 0⟩
def Reg.GRF_DEAD (n : Nat) : Nat := 0x4180040 + 0x4 * n
def Fld.GRF_DEAD_RETIRED (n : Nat) : Fld := ⟨Reg.GRF_DEAD n, 28, 16⟩
def Fld.GRF_DEAD_DEAD (n : Nat) : Fld := ⟨Reg.GRF_DEAD n, 12, 0⟩
def Reg.GRF_MAP (n : Nat) : Nat := 0x4190000 + 0x4 * n
def Reg.GRF_SUB_W0 (n : Nat) : Nat := 0x41A0000 + 0x10 * n
def Fld.GRF_SUB_W0_VALID (n : Nat) : Fld := ⟨Reg.GRF_SUB_W0 n, 31, 31⟩
def Reg.GRF_SUB_W1 (n : Nat) : Nat := 0x41A0004 + 0x10 * n
def Reg.GRF_SUB_W2 (n : Nat) : Nat := 0x41A0008 + 0x10 * n
def Reg.GRF_SUB_W3 (n : Nat) : Nat := 0x41A000C + 0x10 * n

/-! PORT (spec/07_head_ports.md) -/
def Reg.PORT_ID (n : Nat) : Nat := 0x4200000 + 0x10000 * n
def Fld.PORT_ID_PRESENT (n : Nat) : Fld := ⟨Reg.PORT_ID n, 8, 8⟩
def Reg.PORT_CFG (n : Nat) : Nat := 0x4200004 + 0x10000 * n
def Fld.PORT_CFG_EN (n : Nat) : Fld := ⟨Reg.PORT_CFG n, 31, 31⟩
def Fld.PORT_CFG_MODE (n : Nat) : Fld := ⟨Reg.PORT_CFG n, 27, 26⟩
def Fld.PORT_CFG_IO_V (n : Nat) : Fld := ⟨Reg.PORT_CFG n, 25, 25⟩
def Fld.PORT_CFG_RATE (n : Nat) : Fld := ⟨Reg.PORT_CFG n, 22, 20⟩
def Fld.PORT_CFG_NOZ (n : Nat) : Fld := ⟨Reg.PORT_CFG n, 12, 0⟩
def Reg.PORT_STAT (n : Nat) : Nat := 0x4200008 + 0x10000 * n
def Fld.PORT_STAT_ERR (n : Nat) : Fld := ⟨Reg.PORT_STAT n, 23, 20⟩
def Fld.PORT_STAT_MIRROR_CAL (n : Nat) : Fld := ⟨Reg.PORT_STAT n, 10, 10⟩
def Fld.PORT_STAT_GATED (n : Nat) : Fld := ⟨Reg.PORT_STAT n, 9, 9⟩
def Fld.PORT_STAT_READY (n : Nat) : Fld := ⟨Reg.PORT_STAT n, 8, 8⟩
def Fld.PORT_STAT_STATE (n : Nat) : Fld := ⟨Reg.PORT_STAT n, 3, 0⟩
def Reg.PORT_LAYOUT (n : Nat) : Nat := 0x420000C + 0x10000 * n
def Fld.PORT_LAYOUT_BLOCKED (n : Nat) : Fld := ⟨Reg.PORT_LAYOUT n, 3, 3⟩
def Fld.PORT_LAYOUT_PLANES (n : Nat) : Fld := ⟨Reg.PORT_LAYOUT n, 2, 2⟩
def Fld.PORT_LAYOUT_HI_FIRST (n : Nat) : Fld := ⟨Reg.PORT_LAYOUT n, 1, 1⟩
def Fld.PORT_LAYOUT_NOZ_DESC (n : Nat) : Fld := ⟨Reg.PORT_LAYOUT n, 0, 0⟩
def Reg.PORT_LANEMAP_LO (n : Nat) : Nat := 0x4200010 + 0x10000 * n
def Reg.PORT_LANEMAP_HI (n : Nat) : Nat := 0x4200014 + 0x10000 * n
def Reg.PORT_TIM0 (n : Nat) : Nat := 0x4200020 + 0x10000 * n
def Fld.PORT_TIM0_T_LS (n : Nat) : Fld := ⟨Reg.PORT_TIM0 n, 31, 16⟩
def Fld.PORT_TIM0_T_LATW (n : Nat) : Fld := ⟨Reg.PORT_TIM0 n, 15, 8⟩
def Fld.PORT_TIM0_T_SL (n : Nat) : Fld := ⟨Reg.PORT_TIM0 n, 7, 0⟩
def Reg.PORT_TIM1 (n : Nat) : Nat := 0x4200024 + 0x10000 * n
def Fld.PORT_TIM1_T_LH (n : Nat) : Fld := ⟨Reg.PORT_TIM1 n, 15, 0⟩
def Reg.PORT_SP (n : Nat) : Nat := 0x4200028 + 0x10000 * n
def Fld.PORT_SP_VALUE (n : Nat) : Fld := ⟨Reg.PORT_SP n, 23, 0⟩
def Reg.PORT_SPACE (n : Nat) : Nat := 0x420002C + 0x10000 * n
def Fld.PORT_SPACE_VALUE (n : Nat) : Fld := ⟨Reg.PORT_SPACE n, 23, 0⟩
def Reg.PORT_CNT_STROBE (n : Nat) : Nat := 0x4200030 + 0x10000 * n
def Fld.PORT_CNT_STROBE_COUNT (n : Nat) : Fld := ⟨Reg.PORT_CNT_STROBE n, 31, 0⟩
def Reg.PORT_CNT_DROP (n : Nat) : Nat := 0x4200034 + 0x10000 * n
def Fld.PORT_CNT_DROP_COUNT (n : Nat) : Fld := ⟨Reg.PORT_CNT_DROP n, 31, 0⟩
def Reg.PORT_CNT_VOID (n : Nat) : Nat := 0x4200038 + 0x10000 * n
def Fld.PORT_CNT_VOID_COUNT (n : Nat) : Fld := ⟨Reg.PORT_CNT_VOID n, 31, 0⟩
def Reg.PORT_CNT_INHIB (n : Nat) : Nat := 0x420003C + 0x10000 * n
def Fld.PORT_CNT_INHIB_COUNT (n : Nat) : Fld := ⟨Reg.PORT_CNT_INHIB n, 31, 0⟩
def Reg.PORT_WD_CFG (n : Nat) : Nat := 0x4200040 + 0x10000 * n
def Fld.PORT_WD_CFG_WD_TOL (n : Nat) : Fld := ⟨Reg.PORT_WD_CFG n, 31, 24⟩
def Fld.PORT_WD_CFG_MISS_LIM (n : Nat) : Fld := ⟨Reg.PORT_WD_CFG n, 23, 16⟩
def Fld.PORT_WD_CFG_WD_MAX (n : Nat) : Fld := ⟨Reg.PORT_WD_CFG n, 15, 8⟩
def Fld.PORT_WD_CFG_WD_MIN (n : Nat) : Fld := ⟨Reg.PORT_WD_CFG n, 7, 0⟩
def Reg.PORT_WD_STAT (n : Nat) : Nat := 0x4200044 + 0x10000 * n
def Fld.PORT_WD_STAT_CONSEC (n : Nat) : Fld := ⟨Reg.PORT_WD_STAT n, 31, 24⟩
def Fld.PORT_WD_STAT_LAST (n : Nat) : Fld := ⟨Reg.PORT_WD_STAT n, 15, 0⟩
def Reg.PORT_WD_CNT (n : Nat) : Nat := 0x4200048 + 0x10000 * n
def Fld.PORT_WD_CNT_MISS (n : Nat) : Fld := ⟨Reg.PORT_WD_CNT n, 31, 16⟩
def Fld.PORT_WD_CNT_SPUR (n : Nat) : Fld := ⟨Reg.PORT_WD_CNT n, 15, 0⟩
def Reg.NV_CFG (n : Nat) : Nat := 0x4200080 + 0x10000 * n
def Fld.NV_CFG_AUTO_RETRAIN (n : Nat) : Fld := ⟨Reg.NV_CFG n, 31, 31⟩
def Fld.NV_CFG_RATES (n : Nat) : Fld := ⟨Reg.NV_CFG n, 26, 24⟩
def Fld.NV_CFG_VMAX (n : Nat) : Fld := ⟨Reg.NV_CFG n, 17, 16⟩
def Fld.NV_CFG_CLAT (n : Nat) : Fld := ⟨Reg.NV_CFG n, 15, 0⟩
def Reg.NV_STAT (n : Nat) : Nat := 0x4200084 + 0x10000 * n
def Fld.NV_STAT_FAIL (n : Nat) : Fld := ⟨Reg.NV_STAT n, 27, 24⟩
def Fld.NV_STAT_VER (n : Nat) : Fld := ⟨Reg.NV_STAT n, 17, 16⟩
def Fld.NV_STAT_RATE (n : Nat) : Fld := ⟨Reg.NV_STAT n, 9, 8⟩
def Fld.NV_STAT_LOCK (n : Nat) : Fld := ⟨Reg.NV_STAT n, 3, 3⟩
def Fld.NV_STAT_STAGE (n : Nat) : Fld := ⟨Reg.NV_STAT n, 2, 0⟩
def Reg.NV_LAT (n : Nat) : Nat := 0x4200088 + 0x10000 * n
def Fld.NV_LAT_HEAD_LAT (n : Nat) : Fld := ⟨Reg.NV_LAT n, 31, 16⟩
def Fld.NV_LAT_LINK_LAT (n : Nat) : Fld := ⟨Reg.NV_LAT n, 15, 0⟩
def Reg.NV_CNT (n : Nat) : Nat := 0x420008C + 0x10000 * n
def Fld.NV_CNT_SH_ERR (n : Nat) : Fld := ⟨Reg.NV_CNT n, 31, 16⟩
def Fld.NV_CNT_LINE_ERR (n : Nat) : Fld := ⟨Reg.NV_CNT n, 15, 0⟩
def Reg.NV_CNT2 (n : Nat) : Nat := 0x4200090 + 0x10000 * n
def Fld.NV_CNT2_DOWN (n : Nat) : Fld := ⟨Reg.NV_CNT2 n, 31, 16⟩
def Fld.NV_CNT2_UNKNOWN (n : Nat) : Fld := ⟨Reg.NV_CNT2 n, 15, 0⟩
def Reg.NV_HREG_CMD (n : Nat) : Nat := 0x4200094 + 0x10000 * n
def Fld.NV_HREG_CMD_BUSY (n : Nat) : Fld := ⟨Reg.NV_HREG_CMD n, 30, 30⟩
def Fld.NV_HREG_CMD_RESULT (n : Nat) : Fld := ⟨Reg.NV_HREG_CMD n, 29, 28⟩
def Fld.NV_HREG_CMD_WRITE (n : Nat) : Fld := ⟨Reg.NV_HREG_CMD n, 16, 16⟩
def Fld.NV_HREG_CMD_ADDR (n : Nat) : Fld := ⟨Reg.NV_HREG_CMD n, 15, 0⟩
def Reg.NV_HREG_DATA (n : Nat) : Nat := 0x4200098 + 0x10000 * n
def Reg.NV_TEL (n i : Nat) : Nat := 0x42000A0 + 0x10000 * n + 0x4 * i
def Fld.NV_TEL_FRESH (n i : Nat) : Fld := ⟨Reg.NV_TEL n i, 31, 31⟩
def Fld.NV_TEL_VALUE (n i : Nat) : Fld := ⟨Reg.NV_TEL n i, 15, 0⟩
def Reg.PORT_GATE (n i : Nat) : Nat := 0x4200100 + 0x10000 * n + 0x4 * i
def Fld.PORT_GATE_ACT (n i : Nat) : Fld := ⟨Reg.PORT_GATE n i, 31, 30⟩
def Fld.PORT_GATE_LATCH (n i : Nat) : Fld := ⟨Reg.PORT_GATE n i, 29, 29⟩
def Fld.PORT_GATE_POL (n i : Nat) : Fld := ⟨Reg.PORT_GATE n i, 28, 28⟩
def Fld.PORT_GATE_FILT (n i : Nat) : Fld := ⟨Reg.PORT_GATE n i, 15, 0⟩
def Reg.PORT_GSTAT_LO (n : Nat) : Nat := 0x42001C0 + 0x10000 * n
def Reg.PORT_GSTAT_HI (n : Nat) : Nat := 0x42001C4 + 0x10000 * n
def Reg.ROSE_CFG (n : Nat) : Nat := 0x4208000 + 0x10000 * n
def Fld.ROSE_CFG_THERMAL (n : Nat) : Fld := ⟨Reg.ROSE_CFG n, 31, 31⟩
def Fld.ROSE_CFG_DROOP_EN (n : Nat) : Fld := ⟨Reg.ROSE_CFG n, 30, 30⟩
def Fld.ROSE_CFG_ACT_SLOT (n : Nat) : Fld := ⟨Reg.ROSE_CFG n, 26, 24⟩
def Fld.ROSE_CFG_REST_CODE (n : Nat) : Fld := ⟨Reg.ROSE_CFG n, 15, 0⟩
def Reg.ROSE_STAT (n : Nat) : Nat := 0x4208004 + 0x10000 * n
def Fld.ROSE_STAT_ERR (n : Nat) : Fld := ⟨Reg.ROSE_STAT n, 31, 28⟩
def Fld.ROSE_STAT_PEND (n : Nat) : Fld := ⟨Reg.ROSE_STAT n, 25, 25⟩
def Fld.ROSE_STAT_VALID (n : Nat) : Fld := ⟨Reg.ROSE_STAT n, 24, 24⟩
def Fld.ROSE_STAT_BIN (n : Nat) : Fld := ⟨Reg.ROSE_STAT n, 19, 16⟩
def Fld.ROSE_STAT_LAST_FILL (n : Nat) : Fld := ⟨Reg.ROSE_STAT n, 12, 0⟩
def Reg.ROSE_PMIN (n : Nat) : Nat := 0x4208008 + 0x10000 * n
def Fld.ROSE_PMIN_PMIN (n : Nat) : Fld := ⟨Reg.ROSE_PMIN n, 23, 0⟩
def Reg.ROSE_PMIN_SET (n : Nat) : Nat := 0x420800C + 0x10000 * n
def Fld.ROSE_PMIN_SET_FLOOR (n : Nat) : Fld := ⟨Reg.ROSE_PMIN_SET n, 23, 0⟩
def Reg.ROSE_ADV (n : Nat) : Nat := 0x4208010 + 0x10000 * n
def Reg.ROSE_THERM (n : Nat) : Nat := 0x4208014 + 0x10000 * n
def Fld.ROSE_THERM_MAXLEN (n : Nat) : Fld := ⟨Reg.ROSE_THERM n, 13, 0⟩
def Reg.ROSE_TBIN (n : Nat) : Nat := 0x4208018 + 0x10000 * n
def Fld.ROSE_TBIN_BASE (n : Nat) : Fld := ⟨Reg.ROSE_TBIN n, 31, 16⟩
def Fld.ROSE_TBIN_STEP (n : Nat) : Fld := ⟨Reg.ROSE_TBIN n, 15, 0⟩
def Reg.ROSE_CNT_XTRAP (n : Nat) : Nat := 0x4208020 + 0x10000 * n
def Fld.ROSE_CNT_XTRAP_COUNT (n : Nat) : Fld := ⟨Reg.ROSE_CNT_XTRAP n, 31, 0⟩
def Reg.ROSE_CNT_QUIET (n : Nat) : Nat := 0x4208024 + 0x10000 * n
def Fld.ROSE_CNT_QUIET_COUNT (n : Nat) : Fld := ⟨Reg.ROSE_CNT_QUIET n, 31, 0⟩
def Reg.ROSE_CNT_SAT (n : Nat) : Nat := 0x4208028 + 0x10000 * n
def Fld.ROSE_CNT_SAT_COUNT (n : Nat) : Fld := ⟨Reg.ROSE_CNT_SAT n, 31, 0⟩
def Reg.ROSE_WAVE_LEN (n i : Nat) : Nat := 0x4208100 + 0x10000 * n + 0x20 * i
def Fld.ROSE_WAVE_LEN_VALID (n i : Nat) : Fld := ⟨Reg.ROSE_WAVE_LEN n i, 31, 31⟩
def Fld.ROSE_WAVE_LEN_LOADING (n i : Nat) : Fld := ⟨Reg.ROSE_WAVE_LEN n i, 30, 30⟩
def Fld.ROSE_WAVE_LEN_NWIN (n i : Nat) : Fld := ⟨Reg.ROSE_WAVE_LEN n i, 19, 16⟩
def Fld.ROSE_WAVE_LEN_LEN (n i : Nat) : Fld := ⟨Reg.ROSE_WAVE_LEN n i, 11, 0⟩
def Reg.ROSE_WAVE_END01 (n i : Nat) : Nat := 0x4208104 + 0x10000 * n + 0x20 * i
def Fld.ROSE_WAVE_END01_END1 (n i : Nat) : Fld := ⟨Reg.ROSE_WAVE_END01 n i, 27, 16⟩
def Fld.ROSE_WAVE_END01_END0 (n i : Nat) : Fld := ⟨Reg.ROSE_WAVE_END01 n i, 11, 0⟩
def Reg.ROSE_WAVE_END23 (n i : Nat) : Nat := 0x4208108 + 0x10000 * n + 0x20 * i
def Fld.ROSE_WAVE_END23_END3 (n i : Nat) : Fld := ⟨Reg.ROSE_WAVE_END23 n i, 27, 16⟩
def Fld.ROSE_WAVE_END23_END2 (n i : Nat) : Fld := ⟨Reg.ROSE_WAVE_END23 n i, 11, 0⟩
def Reg.ROSE_WAVE_END45 (n i : Nat) : Nat := 0x420810C + 0x10000 * n + 0x20 * i
def Fld.ROSE_WAVE_END45_END5 (n i : Nat) : Fld := ⟨Reg.ROSE_WAVE_END45 n i, 27, 16⟩
def Fld.ROSE_WAVE_END45_END4 (n i : Nat) : Fld := ⟨Reg.ROSE_WAVE_END45 n i, 11, 0⟩
def Reg.ROSE_WAVE_END6 (n i : Nat) : Nat := 0x4208110 + 0x10000 * n + 0x20 * i
def Fld.ROSE_WAVE_END6_END6 (n i : Nat) : Fld := ⟨Reg.ROSE_WAVE_END6 n i, 11, 0⟩
def Reg.ROSE_WAVE_MASK (n i : Nat) : Nat := 0x4208114 + 0x10000 * n + 0x20 * i
def Reg.ROSE_WAVE_CALG (n i : Nat) : Nat := 0x4208118 + 0x10000 * n + 0x20 * i
def Fld.ROSE_WAVE_CALG_GAIN (n i : Nat) : Fld := ⟨Reg.ROSE_WAVE_CALG n i, 15, 0⟩
def Reg.ROSE_WAVE_CALF (n i : Nat) : Nat := 0x420811C + 0x10000 * n + 0x20 * i
def Fld.ROSE_WAVE_CALF_FILL_HI (n i : Nat) : Fld := ⟨Reg.ROSE_WAVE_CALF n i, 28, 16⟩
def Fld.ROSE_WAVE_CALF_FILL_LO (n i : Nat) : Fld := ⟨Reg.ROSE_WAVE_CALF n i, 12, 0⟩
def Reg.ROSE_TH (n i j : Nat) : Nat := 0x4208200 + 0x10000 * n + 0x10 * i + 0x4 * j
def Reg.ROSE_TCALG (n : Nat) : Nat := 0x4208300 + 0x10000 * n
def Fld.ROSE_TCALG_GAIN (n : Nat) : Fld := ⟨Reg.ROSE_TCALG n, 15, 0⟩
def Reg.ROSE_TCALF (n : Nat) : Nat := 0x4208304 + 0x10000 * n
def Fld.ROSE_TCALF_FILL_HI (n : Nat) : Fld := ⟨Reg.ROSE_TCALF n, 28, 16⟩
def Fld.ROSE_TCALF_FILL_LO (n : Nat) : Fld := ⟨Reg.ROSE_TCALF n, 12, 0⟩
def Reg.ROSE_DROOP (n i : Nat) : Nat := 0x4208400 + 0x10000 * n + 0x4 * i
def Fld.ROSE_DROOP_D (n i : Nat) : Fld := ⟨Reg.ROSE_DROOP n i, 15, 0⟩

/-! WRAM (spec/08_rose_pulse_shaping.md) -/
def Reg.WAVE_RAM (n i : Nat) : Nat := 0x4300000 + 0x10000 * n + 0x4 * i

/-! CRV (spec/09_crevasse_nozzle_health.md) -/
def Reg.CRV_CFG : Nat := 0x4E00004
def Fld.CRV_CFG_EN : Fld := ⟨Reg.CRV_CFG, 31, 31⟩
def Fld.CRV_CFG_MAP_EN : Fld := ⟨Reg.CRV_CFG, 30, 30⟩
def Fld.CRV_CFG_HOLD_MAX : Fld := ⟨Reg.CRV_CFG, 3, 0⟩
def Reg.CRV_STAT : Nat := 0x4E00008
def Fld.CRV_STAT_REF_BUSY : Fld := ⟨Reg.CRV_STAT, 1, 1⟩
def Fld.CRV_STAT_SEQ_OK : Fld := ⟨Reg.CRV_STAT, 0, 0⟩
def Reg.CRV_CLS : Nat := 0x4E0000C
def Fld.CRV_CLS_MIN_SCORE : Fld := ⟨Reg.CRV_CLS, 31, 16⟩
def Fld.CRV_CLS_WEAK_GAIN : Fld := ⟨Reg.CRV_CLS, 15, 0⟩
def Reg.CRV_EFLOOR : Nat := 0x4E00010
def Reg.CRV_CNT_CORR : Nat := 0x4E00014
def Fld.CRV_CNT_CORR_COUNT : Fld := ⟨Reg.CRV_CNT_CORR, 31, 0⟩
def Reg.CRV_P_CFG (n : Nat) : Nat := 0x4E00100 + 0x20 * n
def Fld.CRV_P_CFG_SENSE_EN (n : Nat) : Fld := ⟨Reg.CRV_P_CFG n, 31, 31⟩
def Fld.CRV_P_CFG_IDLE_EN (n : Nat) : Fld := ⟨Reg.CRV_P_CFG n, 30, 30⟩
def Fld.CRV_P_CFG_IDLE_PER (n : Nat) : Fld := ⟨Reg.CRV_P_CFG n, 23, 16⟩
def Fld.CRV_P_CFG_CAP_DLY (n : Nat) : Fld := ⟨Reg.CRV_P_CFG n, 15, 8⟩
def Fld.CRV_P_CFG_TK_DLY (n : Nat) : Fld := ⟨Reg.CRV_P_CFG n, 7, 0⟩
def Reg.CRV_P_STAT (n : Nat) : Nat := 0x4E00104 + 0x20 * n
def Fld.CRV_P_STAT_INDEX (n : Nat) : Fld := ⟨Reg.CRV_P_STAT n, 27, 16⟩
def Fld.CRV_P_STAT_STATE (n : Nat) : Fld := ⟨Reg.CRV_P_STAT n, 3, 0⟩
def Reg.CRV_P_REF (n : Nat) : Nat := 0x4E00108 + 0x20 * n
def Fld.CRV_P_REF_VALID (n : Nat) : Fld := ⟨Reg.CRV_P_REF n, 4, 0⟩
def Reg.CRV_P_N (n : Nat) : Nat := 0x4E0010C + 0x20 * n
def Fld.CRV_P_N_N (n : Nat) : Fld := ⟨Reg.CRV_P_N n, 15, 0⟩
def Reg.CRV_P_GREQ (n : Nat) : Nat := 0x4E00110 + 0x20 * n
def Fld.CRV_P_GREQ_GREQ (n : Nat) : Fld := ⟨Reg.CRV_P_GREQ n, 23, 0⟩
def Reg.CRV_P_CNT_SENSE (n : Nat) : Nat := 0x4E00114 + 0x20 * n
def Fld.CRV_P_CNT_SENSE_COUNT (n : Nat) : Fld := ⟨Reg.CRV_P_CNT_SENSE n, 31, 0⟩
def Reg.CRV_P_CNT_MISS (n : Nat) : Nat := 0x4E00118 + 0x20 * n
def Fld.CRV_P_CNT_MISS_CUT (n : Nat) : Fld := ⟨Reg.CRV_P_CNT_MISS n, 31, 16⟩
def Fld.CRV_P_CNT_MISS_UNCL (n : Nat) : Fld := ⟨Reg.CRV_P_CNT_MISS n, 15, 0⟩
def Reg.CRV_P_CNT_SKIP (n : Nat) : Nat := 0x4E0011C + 0x20 * n
def Fld.CRV_P_CNT_SKIP_SHORT (n : Nat) : Fld := ⟨Reg.CRV_P_CNT_SKIP n, 31, 16⟩
def Fld.CRV_P_CNT_SKIP_WAIT (n : Nat) : Fld := ⟨Reg.CRV_P_CNT_SKIP n, 15, 0⟩
def Reg.CRV_CLASS (n : Nat) : Nat := 0x4E10000 + 0x4 * n
def Reg.CRV_REF (i j : Nat) : Nat := 0x4E20000 + 0x1000 * i + 0x4 * j
def Reg.CRV_LAST (n : Nat) : Nat := 0x4E30000 + 0x4 * n

/-! CONS (spec/10_consumable_accounting.md) -/
def Reg.CONS_CFG : Nat := 0x4F00004
def Fld.CONS_CFG_REC_INT : Fld := ⟨Reg.CONS_CFG, 15, 0⟩
def Reg.CONS_STAT : Nat := 0x4F00008
def Fld.CONS_STAT_KEY_OK : Fld := ⟨Reg.CONS_STAT, 0, 0⟩
def Reg.CONS_P_CFG (n : Nat) : Nat := 0x4F01000 + 0x40 * n
def Fld.CONS_P_CFG_AUTO (n : Nat) : Fld := ⟨Reg.CONS_P_CFG n, 31, 31⟩
def Fld.CONS_P_CFG_FM (n : Nat) : Fld := ⟨Reg.CONS_P_CFG n, 30, 30⟩
def Fld.CONS_P_CFG_ADDR (n : Nat) : Fld := ⟨Reg.CONS_P_CFG n, 6, 0⟩
def Reg.CONS_P_STAT (n : Nat) : Nat := 0x4F01004 + 0x40 * n
def Fld.CONS_P_STAT_REASON (n : Nat) : Fld := ⟨Reg.CONS_P_STAT n, 11, 8⟩
def Fld.CONS_P_STAT_AUTH (n : Nat) : Fld := ⟨Reg.CONS_P_STAT n, 2, 0⟩
def Reg.CONS_P_UID_LO (n : Nat) : Nat := 0x4F01008 + 0x40 * n
def Reg.CONS_P_DROP1_LO (n : Nat) : Nat := 0x4F01010 + 0x40 * n
def Reg.CONS_P_DROP2_LO (n : Nat) : Nat := 0x4F01018 + 0x40 * n
def Reg.CONS_P_DROP3_LO (n : Nat) : Nat := 0x4F01020 + 0x40 * n
def Reg.CONS_P_VOL1 (n : Nat) : Nat := 0x4F01028 + 0x40 * n
def Fld.CONS_P_VOL1_VOL (n : Nat) : Fld := ⟨Reg.CONS_P_VOL1 n, 23, 0⟩
def Reg.CONS_P_VOL2 (n : Nat) : Nat := 0x4F0102C + 0x40 * n
def Fld.CONS_P_VOL2_VOL (n : Nat) : Fld := ⟨Reg.CONS_P_VOL2 n, 23, 0⟩
def Reg.CONS_P_VOL3 (n : Nat) : Nat := 0x4F01030 + 0x40 * n
def Fld.CONS_P_VOL3_VOL (n : Nat) : Fld := ⟨Reg.CONS_P_VOL3 n, 23, 0⟩
def Reg.CONS_P_INK_LO (n : Nat) : Nat := 0x4F01034 + 0x40 * n
def Reg.CONS_P_SEQ (n : Nat) : Nat := 0x4F0103C + 0x40 * n

/-! BAR (spec/11_barrow_dma.md) -/
def Reg.BAR_CFG : Nat := 0x4400004
def Fld.BAR_CFG_TMO : Fld := ⟨Reg.BAR_CFG, 15, 0⟩
def Reg.BAR_CTL : Nat := 0x4400008
def Reg.BAR_STAT : Nat := 0x440000C
def Fld.BAR_STAT_CAUSE : Fld := ⟨Reg.BAR_STAT, 23, 16⟩
def Fld.BAR_STAT_ERR_DEV : Fld := ⟨Reg.BAR_STAT, 10, 10⟩
def Fld.BAR_STAT_RESTART_PEND : Fld := ⟨Reg.BAR_STAT, 9, 9⟩
def Fld.BAR_STAT_STATE : Fld := ⟨Reg.BAR_STAT, 1, 0⟩
def Reg.BAR_ERR_ADDR_LO : Nat := 0x4400010
def Reg.BAR_OUT : Nat := 0x4400018
def Fld.BAR_OUT_WRITES : Fld := ⟨Reg.BAR_OUT, 23, 16⟩
def Fld.BAR_OUT_READS : Fld := ⟨Reg.BAR_OUT, 8, 0⟩
def Reg.BAR_HALT_CNT : Nat := 0x440001C
def Fld.BAR_HALT_CNT_COUNT : Fld := ⟨Reg.BAR_HALT_CNT, 31, 0⟩
def Reg.BAR_CNT_REFETCH : Nat := 0x4400020
def Fld.BAR_CNT_REFETCH_COUNT : Fld := ⟨Reg.BAR_CNT_REFETCH, 31, 0⟩
def Reg.BAR_CH_CFG (n : Nat) : Nat := 0x4400100 + 0x20 * n
def Fld.BAR_CH_CFG_PRIO (n : Nat) : Fld := ⟨Reg.BAR_CH_CFG n, 29, 28⟩
def Fld.BAR_CH_CFG_WEIGHT (n : Nat) : Fld := ⟨Reg.BAR_CH_CFG n, 19, 16⟩
def Fld.BAR_CH_CFG_QUOTA (n : Nat) : Fld := ⟨Reg.BAR_CH_CFG n, 5, 0⟩
def Reg.BAR_CH_CTL (n : Nat) : Nat := 0x4400104 + 0x20 * n
def Fld.BAR_CH_CTL_STOP (n : Nat) : Fld := ⟨Reg.BAR_CH_CTL n, 0, 0⟩
def Reg.BAR_CH_STAT (n : Nat) : Nat := 0x4400108 + 0x20 * n
def Fld.BAR_CH_STAT_CHAIN_CNT (n : Nat) : Fld := ⟨Reg.BAR_CH_STAT n, 26, 16⟩
def Fld.BAR_CH_STAT_STATE (n : Nat) : Fld := ⟨Reg.BAR_CH_STAT n, 2, 0⟩
def Reg.BAR_CH_DESC (n : Nat) : Nat := 0x440010C + 0x20 * n
def Fld.BAR_CH_DESC_COUNT (n : Nat) : Fld := ⟨Reg.BAR_CH_DESC n, 31, 0⟩
def Reg.BAR_CH_BYTES_LO (n : Nat) : Nat := 0x4400110 + 0x20 * n

/-! BUF (spec/11_barrow_dma.md) -/

/-! RING (spec/12_tchitric_line_ring.md) -/
def Reg.RING_CFG : Nat := 0x4500004
def Fld.RING_CFG_JOIN : Fld := ⟨Reg.RING_CFG, 31, 31⟩
def Fld.RING_CFG_VMAX : Fld := ⟨Reg.RING_CFG, 17, 16⟩
def Fld.RING_CFG_ADDR : Fld := ⟨Reg.RING_CFG, 13, 8⟩
def Fld.RING_CFG_MBX_TMO : Fld := ⟨Reg.RING_CFG, 7, 0⟩
def Reg.RING_STAT : Nat := 0x4500008
def Fld.RING_STAT_NSTA : Fld := ⟨Reg.RING_STAT, 22, 16⟩
def Fld.RING_STAT_LEADER : Fld := ⟨Reg.RING_STAT, 13, 8⟩
def Fld.RING_STAT_LOOPBACK : Fld := ⟨Reg.RING_STAT, 4, 4⟩
def Fld.RING_STAT_DUP : Fld := ⟨Reg.RING_STAT, 3, 3⟩
def Fld.RING_STAT_CLOSED : Fld := ⟨Reg.RING_STAT, 2, 2⟩
def Fld.RING_STAT_KEEP : Fld := ⟨Reg.RING_STAT, 1, 1⟩
def Reg.RING_VER : Nat := 0x450000C
def Fld.RING_VER_EPOCH : Fld := ⟨Reg.RING_VER, 31, 16⟩
def Fld.RING_VER_VCAP : Fld := ⟨Reg.RING_VER, 9, 8⟩
def Fld.RING_VER_RVER : Fld := ⟨Reg.RING_VER, 1, 0⟩
def Reg.RING_ROSTER_LO : Nat := 0x4500010
def Reg.RING_ROSTER_HI : Nat := 0x4500014
def Reg.RING_PTP_CFG : Nat := 0x4500020
def Fld.RING_PTP_CFG_MASTER : Fld := ⟨Reg.RING_PTP_CFG, 31, 31⟩
def Fld.RING_PTP_CFG_DOMAIN : Fld := ⟨Reg.RING_PTP_CFG, 7, 0⟩
def Reg.RING_PTP_STAT : Nat := 0x4500024
def Fld.RING_PTP_STAT_GM : Fld := ⟨Reg.RING_PTP_STAT, 13, 8⟩
def Fld.RING_PTP_STAT_GM_VALID : Fld := ⟨Reg.RING_PTP_STAT, 2, 2⟩
def Fld.RING_PTP_STAT_MASTER_ACT : Fld := ⟨Reg.RING_PTP_STAT, 1, 1⟩
def Fld.RING_PTP_STAT_LOCKED : Fld := ⟨Reg.RING_PTP_STAT, 0, 0⟩
def Reg.RING_OFS_LO : Nat := 0x4500028
def Reg.RING_RTIME_LO : Nat := 0x4500030
def Reg.RING_RTIME_HI : Nat := 0x4500034
def Reg.RING_CNT_DISC : Nat := 0x4500040
def Fld.RING_CNT_DISC_COUNT : Fld := ⟨Reg.RING_CNT_DISC, 31, 0⟩
def Reg.RING_CNT_GAP : Nat := 0x4500044
def Fld.RING_CNT_GAP_COUNT : Fld := ⟨Reg.RING_CNT_GAP, 31, 0⟩
def Reg.RING_CNT_RLATE : Nat := 0x4500048
def Fld.RING_CNT_RLATE_COUNT : Fld := ⟨Reg.RING_CNT_RLATE, 31, 0⟩
def Reg.RING_CNT_VOVF : Nat := 0x450004C
def Fld.RING_CNT_VOVF_COUNT : Fld := ⟨Reg.RING_CNT_VOVF, 31, 0⟩
def Reg.RING_TRK_WR : Nat := 0x4500050
def Fld.RING_TRK_WR_TOTAL : Fld := ⟨Reg.RING_TRK_WR, 31, 8⟩
def Fld.RING_TRK_WR_NEXT : Fld := ⟨Reg.RING_TRK_WR, 7, 0⟩
def Reg.RING_P_CFG (n : Nat) : Nat := 0x4500080 + 0x20 * n
def Fld.RING_P_CFG_EN (n : Nat) : Fld := ⟨Reg.RING_P_CFG n, 31, 31⟩
def Reg.RING_P_STAT (n : Nat) : Nat := 0x4500084 + 0x20 * n
def Fld.RING_P_STAT_NBR (n : Nat) : Fld := ⟨Reg.RING_P_STAT n, 21, 16⟩
def Fld.RING_P_STAT_LVER (n : Nat) : Fld := ⟨Reg.RING_P_STAT n, 13, 12⟩
def Fld.RING_P_STAT_PHY (n : Nat) : Fld := ⟨Reg.RING_P_STAT n, 10, 8⟩
def Fld.RING_P_STAT_DELAY_OK (n : Nat) : Fld := ⟨Reg.RING_P_STAT n, 1, 1⟩
def Fld.RING_P_STAT_LINK (n : Nat) : Fld := ⟨Reg.RING_P_STAT n, 0, 0⟩
def Reg.RING_P_DELAY (n : Nat) : Nat := 0x4500088 + 0x20 * n
def Fld.RING_P_DELAY_DELAY (n : Nat) : Fld := ⟨Reg.RING_P_DELAY n, 31, 0⟩
def Reg.RING_P_CNT_RX (n : Nat) : Nat := 0x450008C + 0x20 * n
def Fld.RING_P_CNT_RX_COUNT (n : Nat) : Fld := ⟨Reg.RING_P_CNT_RX n, 31, 0⟩
def Reg.RING_P_CNT_TX (n : Nat) : Nat := 0x4500090 + 0x20 * n
def Fld.RING_P_CNT_TX_COUNT (n : Nat) : Fld := ⟨Reg.RING_P_CNT_TX n, 31, 0⟩
def Reg.RING_P_CNT_DROP (n : Nat) : Nat := 0x4500094 + 0x20 * n
def Fld.RING_P_CNT_DROP_COUNT (n : Nat) : Fld := ⟨Reg.RING_P_CNT_DROP n, 31, 0⟩
def Reg.RING_P_CNT_ERR (n : Nat) : Nat := 0x4500098 + 0x20 * n
def Fld.RING_P_CNT_ERR_COUNT (n : Nat) : Fld := ⟨Reg.RING_P_CNT_ERR n, 31, 0⟩
def Reg.RING_VTX (n : Nat) : Nat := 0x4500100 + 0x4 * n
def Fld.RING_VTX_EN (n : Nat) : Fld := ⟨Reg.RING_VTX n, 31, 31⟩
def Fld.RING_VTX_ENC (n : Nat) : Fld := ⟨Reg.RING_VTX n, 19, 16⟩
def Fld.RING_VTX_PER (n : Nat) : Fld := ⟨Reg.RING_VTX n, 15, 0⟩
def Reg.RING_VRX (n : Nat) : Nat := 0x4500120 + 0x4 * n
def Fld.RING_VRX_EN (n : Nat) : Fld := ⟨Reg.RING_VRX n, 31, 31⟩
def Fld.RING_VRX_SRC (n : Nat) : Fld := ⟨Reg.RING_VRX n, 21, 16⟩
def Fld.RING_VRX_ID (n : Nat) : Fld := ⟨Reg.RING_VRX n, 10, 8⟩
def Fld.RING_VRX_TMO (n : Nat) : Fld := ⟨Reg.RING_VRX n, 7, 0⟩
def Reg.RING_PTX (n : Nat) : Nat := 0x4500140 + 0x4 * n
def Fld.RING_PTX_EN (n : Nat) : Fld := ⟨Reg.RING_PTX n, 31, 31⟩
def Fld.RING_PTX_POL (n : Nat) : Fld := ⟨Reg.RING_PTX n, 30, 30⟩
def Fld.RING_PTX_PGO (n : Nat) : Fld := ⟨Reg.RING_PTX n, 4, 0⟩
def Reg.RING_PRX (n : Nat) : Nat := 0x4500160 + 0x4 * n
def Fld.RING_PRX_EN (n : Nat) : Fld := ⟨Reg.RING_PRX n, 31, 31⟩
def Fld.RING_PRX_SRC (n : Nat) : Fld := ⟨Reg.RING_PRX n, 21, 16⟩
def Fld.RING_PRX_ID (n : Nat) : Fld := ⟨Reg.RING_PRX n, 10, 8⟩
def Reg.RING_RRLY_A (n : Nat) : Nat := 0x4500200 + 0x10 * n
def Fld.RING_RRLY_A_EN (n : Nat) : Fld := ⟨Reg.RING_RRLY_A n, 31, 31⟩
def Fld.RING_RRLY_A_ANYCTX (n : Nat) : Fld := ⟨Reg.RING_RRLY_A n, 30, 30⟩
def Fld.RING_RRLY_A_SRC (n : Nat) : Fld := ⟨Reg.RING_RRLY_A n, 29, 24⟩
def Fld.RING_RRLY_A_CTX (n : Nat) : Fld := ⟨Reg.RING_RRLY_A n, 23, 16⟩
def Fld.RING_RRLY_A_DIR (n : Nat) : Fld := ⟨Reg.RING_RRLY_A n, 15, 15⟩
def Fld.RING_RRLY_A_REJ_OUT (n : Nat) : Fld := ⟨Reg.RING_RRLY_A n, 14, 12⟩
def Fld.RING_RRLY_A_POS_SRC (n : Nat) : Fld := ⟨Reg.RING_RRLY_A n, 4, 0⟩
def Reg.RING_RRLY_DELAY (n : Nat) : Nat := 0x4500204 + 0x10 * n
def Fld.RING_RRLY_DELAY_DELAY (n : Nat) : Fld := ⟨Reg.RING_RRLY_DELAY n, 31, 0⟩
def Reg.RING_RRLY_WIDTH (n : Nat) : Nat := 0x4500208 + 0x10 * n
def Fld.RING_RRLY_WIDTH_WIDTH (n : Nat) : Fld := ⟨Reg.RING_RRLY_WIDTH n, 15, 0⟩
def Reg.RING_VOTE_A (n : Nat) : Nat := 0x4500300 + 0x10 * n
def Fld.RING_VOTE_A_EN (n : Nat) : Fld := ⟨Reg.RING_VOTE_A n, 31, 31⟩
def Fld.RING_VOTE_A_MISSING (n : Nat) : Fld := ⟨Reg.RING_VOTE_A n, 30, 30⟩
def Fld.RING_VOTE_A_RULE (n : Nat) : Fld := ⟨Reg.RING_VOTE_A n, 29, 29⟩
def Fld.RING_VOTE_A_K (n : Nat) : Fld := ⟨Reg.RING_VOTE_A n, 22, 16⟩
def Fld.RING_VOTE_A_CTX (n : Nat) : Fld := ⟨Reg.RING_VOTE_A n, 7, 0⟩
def Reg.RING_VOTE_MASK_LO (n : Nat) : Nat := 0x4500304 + 0x10 * n
def Reg.RING_VOTE_DEADLINE (n : Nat) : Nat := 0x450030C + 0x10 * n
def Fld.RING_VOTE_DEADLINE_DEADLINE (n : Nat) : Fld := ⟨Reg.RING_VOTE_DEADLINE n, 19, 0⟩
def Reg.RING_VSEND (n : Nat) : Nat := 0x4500400 + 0x4 * n
def Reg.RING_TSEND (n : Nat) : Nat := 0x4500420 + 0x4 * n
def Reg.RING_MBX_CMD (n : Nat) : Nat := 0x4500800 + 0x200 * n
def Fld.RING_MBX_CMD_BUSY (n : Nat) : Fld := ⟨Reg.RING_MBX_CMD n, 30, 30⟩
def Fld.RING_MBX_CMD_RESULT (n : Nat) : Fld := ⟨Reg.RING_MBX_CMD n, 29, 27⟩
def Fld.RING_MBX_CMD_WRITE (n : Nat) : Fld := ⟨Reg.RING_MBX_CMD n, 26, 26⟩
def Fld.RING_MBX_CMD_STATUS (n : Nat) : Fld := ⟨Reg.RING_MBX_CMD n, 25, 24⟩
def Fld.RING_MBX_CMD_DST (n : Nat) : Fld := ⟨Reg.RING_MBX_CMD n, 21, 16⟩
def Fld.RING_MBX_CMD_COUNT (n : Nat) : Fld := ⟨Reg.RING_MBX_CMD n, 6, 0⟩
def Reg.RING_MBX_ADDR (n : Nat) : Nat := 0x4500804 + 0x200 * n
def Fld.RING_MBX_ADDR_ADDR (n : Nat) : Fld := ⟨Reg.RING_MBX_ADDR n, 27, 2⟩
def Reg.RING_MBX_DATA (i j : Nat) : Nat := 0x4500900 + 0x200 * i + 0x4 * j
def Reg.RING_TRK (n : Nat) : Nat := 0x4502000 + 0x4 * n

/-! TIL (spec/13_tiller_motion.md) -/
def Reg.TIL_STAT : Nat := 0x4600004
def Fld.TIL_STAT_SEQ_OK : Fld := ⟨Reg.TIL_STAT, 0, 0⟩
def Reg.TIL_CTL : Nat := 0x4600008
def Reg.AX_CFG (n : Nat) : Nat := 0x4601000 + 0x100 * n
def Fld.AX_CFG_EN (n : Nat) : Fld := ⟨Reg.AX_CFG n, 31, 31⟩
def Fld.AX_CFG_STOP_KEEP (n : Nat) : Fld := ⟨Reg.AX_CFG n, 30, 30⟩
def Fld.AX_CFG_STALL_MODE (n : Nat) : Fld := ⟨Reg.AX_CFG n, 29, 28⟩
def Fld.AX_CFG_STALL_STOP (n : Nat) : Fld := ⟨Reg.AX_CFG n, 27, 27⟩
def Fld.AX_CFG_INV (n : Nat) : Fld := ⟨Reg.AX_CFG n, 26, 26⟩
def Fld.AX_CFG_PASS_EN (n : Nat) : Fld := ⟨Reg.AX_CFG n, 25, 25⟩
def Fld.AX_CFG_ENC (n : Nat) : Fld := ⟨Reg.AX_CFG n, 23, 20⟩
def Fld.AX_CFG_REST_DLY (n : Nat) : Fld := ⟨Reg.AX_CFG n, 15, 8⟩
def Fld.AX_CFG_T_DEAD (n : Nat) : Fld := ⟨Reg.AX_CFG n, 7, 0⟩
def Reg.AX_CUR (n : Nat) : Nat := 0x4601004 + 0x100 * n
def Fld.AX_CUR_CUR_REST (n : Nat) : Fld := ⟨Reg.AX_CUR n, 23, 16⟩
def Fld.AX_CUR_CUR_RUN (n : Nat) : Fld := ⟨Reg.AX_CUR n, 7, 0⟩
def Reg.AX_CHOP (n : Nat) : Nat := 0x4601008 + 0x100 * n
def Fld.AX_CHOP_T_COAST (n : Nat) : Fld := ⟨Reg.AX_CHOP n, 31, 24⟩
def Fld.AX_CHOP_FAST_FRAC (n : Nat) : Fld := ⟨Reg.AX_CHOP n, 23, 20⟩
def Fld.AX_CHOP_T_MASK (n : Nat) : Fld := ⟨Reg.AX_CHOP n, 15, 8⟩
def Fld.AX_CHOP_T_ONLIM (n : Nat) : Fld := ⟨Reg.AX_CHOP n, 7, 0⟩
def Reg.AX_VLAUNCH (n : Nat) : Nat := 0x4601010 + 0x100 * n
def Fld.AX_VLAUNCH_VALUE (n : Nat) : Fld := ⟨Reg.AX_VLAUNCH n, 31, 0⟩
def Reg.AX_VKNEE (n : Nat) : Nat := 0x4601014 + 0x100 * n
def Fld.AX_VKNEE_VALUE (n : Nat) : Fld := ⟨Reg.AX_VKNEE n, 31, 0⟩
def Reg.AX_VCRUISE (n : Nat) : Nat := 0x4601018 + 0x100 * n
def Fld.AX_VCRUISE_VALUE (n : Nat) : Fld := ⟨Reg.AX_VCRUISE n, 31, 0⟩
def Reg.AX_VLAND (n : Nat) : Nat := 0x460101C + 0x100 * n
def Fld.AX_VLAND_VALUE (n : Nat) : Fld := ⟨Reg.AX_VLAND n, 31, 0⟩
def Reg.AX_ALOW (n : Nat) : Nat := 0x4601020 + 0x100 * n
def Fld.AX_ALOW_VALUE (n : Nat) : Fld := ⟨Reg.AX_ALOW n, 31, 0⟩
def Reg.AX_AHIGH (n : Nat) : Nat := 0x4601024 + 0x100 * n
def Fld.AX_AHIGH_VALUE (n : Nat) : Fld := ⟨Reg.AX_AHIGH n, 31, 0⟩
def Reg.AX_DHIGH (n : Nat) : Nat := 0x4601028 + 0x100 * n
def Fld.AX_DHIGH_VALUE (n : Nat) : Fld := ⟨Reg.AX_DHIGH n, 31, 0⟩
def Reg.AX_DLOW (n : Nat) : Nat := 0x460102C + 0x100 * n
def Fld.AX_DLOW_VALUE (n : Nat) : Fld := ⟨Reg.AX_DLOW n, 31, 0⟩
def Reg.AX_STALL (n : Nat) : Nat := 0x4601030 + 0x100 * n
def Fld.AX_STALL_WINDOW (n : Nat) : Fld := ⟨Reg.AX_STALL n, 31, 16⟩
def Fld.AX_STALL_LOAD_RUN (n : Nat) : Fld := ⟨Reg.AX_STALL n, 15, 12⟩
def Fld.AX_STALL_T_SENSE (n : Nat) : Fld := ⟨Reg.AX_STALL n, 7, 0⟩
def Reg.AX_BEMFK (n : Nat) : Nat := 0x4601034 + 0x100 * n
def Fld.AX_BEMFK_BEMF_K (n : Nat) : Fld := ⟨Reg.AX_BEMFK n, 31, 0⟩
def Reg.AX_KENC (n : Nat) : Nat := 0x4601038 + 0x100 * n
def Reg.AX_BAND_V (i j : Nat) : Nat := 0x4601040 + 0x100 * i + 0x10 * j
def Fld.AX_BAND_V_V_BAND (i j : Nat) : Fld := ⟨Reg.AX_BAND_V i j, 31, 0⟩
def Reg.AX_BAND_MIN (i j : Nat) : Nat := 0x4601044 + 0x100 * i + 0x10 * j
def Fld.AX_BAND_MIN_LOAD_MIN (i j : Nat) : Fld := ⟨Reg.AX_BAND_MIN i j, 15, 0⟩
def Reg.AX_BAND_CAL (i j : Nat) : Nat := 0x4601048 + 0x100 * i + 0x10 * j
def Fld.AX_BAND_CAL_CAL_HI (i j : Nat) : Fld := ⟨Reg.AX_BAND_CAL i j, 31, 16⟩
def Fld.AX_BAND_CAL_CAL_LO (i j : Nat) : Fld := ⟨Reg.AX_BAND_CAL i j, 15, 0⟩
def Reg.AX_CTL (n : Nat) : Nat := 0x46010C0 + 0x100 * n
def Reg.AX_XSET (n : Nat) : Nat := 0x46010C4 + 0x100 * n
def Reg.AX_STAT (n : Nat) : Nat := 0x46010C8 + 0x100 * n
def Fld.AX_STAT_POS_VALID (n : Nat) : Fld := ⟨Reg.AX_STAT n, 31, 31⟩
def Fld.AX_STAT_HELD (n : Nat) : Fld := ⟨Reg.AX_STAT n, 30, 30⟩
def Fld.AX_STAT_GROUP (n : Nat) : Fld := ⟨Reg.AX_STAT n, 29, 29⟩
def Fld.AX_STAT_DECEL (n : Nat) : Fld := ⟨Reg.AX_STAT n, 28, 28⟩
def Fld.AX_STAT_LAST (n : Nat) : Fld := ⟨Reg.AX_STAT n, 27, 24⟩
def Fld.AX_STAT_BAND (n : Nat) : Fld := ⟨Reg.AX_STAT n, 18, 16⟩
def Fld.AX_STAT_STATE (n : Nat) : Fld := ⟨Reg.AX_STAT n, 3, 0⟩
def Reg.AX_XACT (n : Nat) : Nat := 0x46010CC + 0x100 * n
def Reg.AX_XTGT (n : Nat) : Nat := 0x46010D0 + 0x100 * n
def Reg.AX_VACT (n : Nat) : Nat := 0x46010D4 + 0x100 * n
def Reg.AX_LOAD (n : Nat) : Nat := 0x46010D8 + 0x100 * n
def Fld.AX_LOAD_DEV (n : Nat) : Fld := ⟨Reg.AX_LOAD n, 31, 16⟩
def Fld.AX_LOAD_LOAD (n : Nat) : Fld := ⟨Reg.AX_LOAD n, 15, 0⟩
def Reg.AX_MS (n : Nat) : Nat := 0x46010DC + 0x100 * n
def Fld.AX_MS_MS_OFS (n : Nat) : Fld := ⟨Reg.AX_MS n, 25, 16⟩
def Fld.AX_MS_ADDR (n : Nat) : Fld := ⟨Reg.AX_MS n, 9, 0⟩
def Reg.AX_CNT (n : Nat) : Nat := 0x46010E0 + 0x100 * n
def Fld.AX_CNT_STALLS (n : Nat) : Fld := ⟨Reg.AX_CNT n, 31, 16⟩
def Fld.AX_CNT_XTRAP (n : Nat) : Fld := ⟨Reg.AX_CNT n, 15, 0⟩
def Reg.AX_TABLE (i j : Nat) : Nat := 0x4608000 + 0x1000 * i + 0x4 * j
def Fld.AX_TABLE_B (i j : Nat) : Fld := ⟨Reg.AX_TABLE i j, 27, 16⟩
def Fld.AX_TABLE_A (i j : Nat) : Fld := ⟨Reg.AX_TABLE i j, 11, 0⟩

/-! HK (spec/14_thermal_supervision.md) -/
def Reg.HK_CFG : Nat := 0x4700004
def Fld.HK_CFG_DIE_PAUSE : Fld := ⟨Reg.HK_CFG, 7, 0⟩
def Reg.HK_STAT : Nat := 0x4700008
def Fld.HK_STAT_DIE_STATE : Fld := ⟨Reg.HK_STAT, 9, 8⟩
def Fld.HK_STAT_INVALID : Fld := ⟨Reg.HK_STAT, 4, 4⟩
def Reg.HK_DIE : Nat := 0x470000C
def Fld.HK_DIE_TMAX : Fld := ⟨Reg.HK_DIE, 31, 16⟩
def Fld.HK_DIE_TMIN : Fld := ⟨Reg.HK_DIE, 15, 0⟩
def Reg.HK_CNT_ROUND : Nat := 0x4700010
def Fld.HK_CNT_ROUND_COUNT : Fld := ⟨Reg.HK_CNT_ROUND, 31, 0⟩
def Reg.HK_CNT_INVALID : Nat := 0x4700014
def Fld.HK_CNT_INVALID_COUNT : Fld := ⟨Reg.HK_CNT_INVALID, 31, 0⟩
def Reg.HK_HEAD_THR (n : Nat) : Nat := 0x4700100 + 0x4 * n
def Fld.HK_HEAD_THR_SKIPPED (n : Nat) : Fld := ⟨Reg.HK_HEAD_THR n, 31, 16⟩
def Fld.HK_HEAD_THR_THR_DIV (n : Nat) : Fld := ⟨Reg.HK_HEAD_THR n, 3, 0⟩
def Reg.HK_TTAB (i j : Nat) : Nat := 0x4700400 + 0x100 * i + 0x4 * j
def Fld.HK_TTAB_T (i j : Nat) : Fld := ⟨Reg.HK_TTAB i j, 15, 0⟩
def Reg.HK_CH_VAL (n : Nat) : Nat := 0x4701000 + 0x20 * n
def Fld.HK_CH_VAL_BROKEN (n : Nat) : Fld := ⟨Reg.HK_CH_VAL n, 31, 31⟩
def Fld.HK_CH_VAL_SUBST (n : Nat) : Fld := ⟨Reg.HK_CH_VAL n, 30, 30⟩
def Fld.HK_CH_VAL_STATE (n : Nat) : Fld := ⟨Reg.HK_CH_VAL n, 29, 28⟩
def Fld.HK_CH_VAL_RATE (n : Nat) : Fld := ⟨Reg.HK_CH_VAL n, 27, 27⟩
def Fld.HK_CH_VAL_HOT (n : Nat) : Fld := ⟨Reg.HK_CH_VAL n, 26, 26⟩
def Fld.HK_CH_VAL_VALUE (n : Nat) : Fld := ⟨Reg.HK_CH_VAL n, 15, 0⟩
def Reg.HK_CH_RAW (n : Nat) : Nat := 0x4701004 + 0x20 * n
def Fld.HK_CH_RAW_ROR (n : Nat) : Fld := ⟨Reg.HK_CH_RAW n, 31, 16⟩
def Fld.HK_CH_RAW_CODE (n : Nat) : Fld := ⟨Reg.HK_CH_RAW n, 11, 0⟩
def Reg.HK_CH_LIM0 (n : Nat) : Nat := 0x4701008 + 0x20 * n
def Fld.HK_CH_LIM0_THROTTLE (n : Nat) : Fld := ⟨Reg.HK_CH_LIM0 n, 31, 16⟩
def Fld.HK_CH_LIM0_WARN (n : Nat) : Fld := ⟨Reg.HK_CH_LIM0 n, 15, 0⟩
def Reg.HK_CH_LIM1 (n : Nat) : Nat := 0x470100C + 0x20 * n
def Fld.HK_CH_LIM1_SHUTDOWN (n : Nat) : Fld := ⟨Reg.HK_CH_LIM1 n, 31, 16⟩
def Fld.HK_CH_LIM1_RATE_LIM (n : Nat) : Fld := ⟨Reg.HK_CH_LIM1 n, 15, 8⟩
def Fld.HK_CH_LIM1_HYST (n : Nat) : Fld := ⟨Reg.HK_CH_LIM1 n, 3, 0⟩
def Reg.HK_CH_CFG (n : Nat) : Nat := 0x4701010 + 0x20 * n
def Fld.HK_CH_CFG_FITTED (n : Nat) : Fld := ⟨Reg.HK_CH_CFG n, 31, 31⟩
def Fld.HK_CH_CFG_RATE_ACT (n : Nat) : Fld := ⟨Reg.HK_CH_CFG n, 30, 29⟩
def Fld.HK_CH_CFG_DIE_TIE (n : Nat) : Fld := ⟨Reg.HK_CH_CFG n, 28, 28⟩
def Fld.HK_CH_CFG_TAB (n : Nat) : Fld := ⟨Reg.HK_CH_CFG n, 9, 8⟩
def Fld.HK_CH_CFG_GROUP (n : Nat) : Fld := ⟨Reg.HK_CH_CFG n, 4, 0⟩

/-! RAKE (spec/15_rake_fault_handling.md) -/
def Reg.RAKE_CFG : Nat := 0x4800004
def Fld.RAKE_CFG_ERRN_CONT : Fld := ⟨Reg.RAKE_CFG, 31, 31⟩
def Fld.RAKE_CFG_ERRN_CORR : Fld := ⟨Reg.RAKE_CFG, 30, 30⟩
def Fld.RAKE_CFG_ERR_PW : Fld := ⟨Reg.RAKE_CFG, 9, 0⟩
def Reg.RAKE_ERRN : Nat := 0x4800008
def Fld.RAKE_ERRN_HOLD : Fld := ⟨Reg.RAKE_ERRN, 31, 31⟩
def Fld.RAKE_ERRN_LOW : Fld := ⟨Reg.RAKE_ERRN, 29, 29⟩
def Reg.RAKE_CTL : Nat := 0x480000C
def Reg.RAKE_FIRST_SRC : Nat := 0x4800010
def Fld.RAKE_FIRST_SRC_VALID : Fld := ⟨Reg.RAKE_FIRST_SRC, 31, 31⟩
def Fld.RAKE_FIRST_SRC_OVF : Fld := ⟨Reg.RAKE_FIRST_SRC, 30, 30⟩
def Fld.RAKE_FIRST_SRC_CLASS : Fld := ⟨Reg.RAKE_FIRST_SRC, 11, 10⟩
def Fld.RAKE_FIRST_SRC_SRC : Fld := ⟨Reg.RAKE_FIRST_SRC, 9, 0⟩
def Reg.RAKE_FIRST_TB_LO : Nat := 0x4800014
def Reg.RAKE_FIRST_TB_HI : Nat := 0x4800018
def Reg.RAKE_FIRST_SYND_LO : Nat := 0x480001C
def Reg.RAKE_FIRST_SYND_HI : Nat := 0x4800020
def Reg.RAKE_CNT_FATAL : Nat := 0x4800024
def Fld.RAKE_CNT_FATAL_COUNT : Fld := ⟨Reg.RAKE_CNT_FATAL, 31, 0⟩
def Reg.RAKE_CNT_CONT : Nat := 0x4800028
def Fld.RAKE_CNT_CONT_COUNT : Fld := ⟨Reg.RAKE_CNT_CONT, 31, 0⟩
def Reg.RAKE_CNT_CORR : Nat := 0x480002C
def Fld.RAKE_CNT_CORR_COUNT : Fld := ⟨Reg.RAKE_CNT_CORR, 31, 0⟩
def Reg.RAKE_THAW_DEV : Nat := 0x4800040
def Reg.RAKE_THAW_PORT : Nat := 0x4800044
def Reg.RAKE_THAW_CTX : Nat := 0x4800048
def Reg.RAKE_INJ_CTL : Nat := 0x4800060
def Fld.RAKE_INJ_CTL_MODE : Fld := ⟨Reg.RAKE_INJ_CTL, 31, 30⟩
def Fld.RAKE_INJ_CTL_RAIL : Fld := ⟨Reg.RAKE_INJ_CTL, 29, 29⟩
def Fld.RAKE_INJ_CTL_ARMED : Fld := ⟨Reg.RAKE_INJ_CTL, 28, 28⟩
def Fld.RAKE_INJ_CTL_FLIP : Fld := ⟨Reg.RAKE_INJ_CTL, 25, 24⟩
def Fld.RAKE_INJ_CTL_SRC : Fld := ⟨Reg.RAKE_INJ_CTL, 9, 0⟩
def Reg.RAKE_INJ_PER : Nat := 0x4800064
def Fld.RAKE_INJ_PER_PER : Fld := ⟨Reg.RAKE_INJ_PER, 19, 0⟩
def Reg.RAKE_INJ_STAT : Nat := 0x4800068
def Fld.RAKE_INJ_STAT_FIRED : Fld := ⟨Reg.RAKE_INJ_STAT, 31, 16⟩
def Fld.RAKE_INJ_STAT_COINC : Fld := ⟨Reg.RAKE_INJ_STAT, 15, 0⟩
def Reg.RAKE_SRC_CFG (n : Nat) : Nat := 0x4801000 + 0x4 * n
def Fld.RAKE_SRC_CFG_PRESENT (n : Nat) : Fld := ⟨Reg.RAKE_SRC_CFG n, 31, 31⟩
def Fld.RAKE_SRC_CFG_PROG (n : Nat) : Fld := ⟨Reg.RAKE_SRC_CFG n, 30, 30⟩
def Fld.RAKE_SRC_CFG_SEV (n : Nat) : Fld := ⟨Reg.RAKE_SRC_CFG n, 29, 28⟩
def Fld.RAKE_SRC_CFG_SCOPE (n : Nat) : Fld := ⟨Reg.RAKE_SRC_CFG n, 9, 0⟩
def Reg.RAKE_SRC_CNT (n : Nat) : Nat := 0x4802000 + 0x4 * n
def Fld.RAKE_SRC_CNT_ACTIVE (n : Nat) : Fld := ⟨Reg.RAKE_SRC_CNT n, 31, 31⟩
def Fld.RAKE_SRC_CNT_RAIL (n : Nat) : Fld := ⟨Reg.RAKE_SRC_CNT n, 30, 30⟩
def Fld.RAKE_SRC_CNT_INJ_COINC (n : Nat) : Fld := ⟨Reg.RAKE_SRC_CNT n, 29, 29⟩
def Fld.RAKE_SRC_CNT_COUNT (n : Nat) : Fld := ⟨Reg.RAKE_SRC_CNT n, 15, 0⟩
def Reg.RAKE_SCOPE (n : Nat) : Nat := 0x4804000 + 0x4 * n
def Fld.RAKE_SCOPE_STATE (n : Nat) : Fld := ⟨Reg.RAKE_SCOPE n, 27, 26⟩
def Fld.RAKE_SCOPE_HELD (n : Nat) : Fld := ⟨Reg.RAKE_SCOPE n, 25, 25⟩
def Fld.RAKE_SCOPE_WINCNT (n : Nat) : Fld := ⟨Reg.RAKE_SCOPE n, 24, 20⟩
def Fld.RAKE_SCOPE_RECOV_CNT (n : Nat) : Fld := ⟨Reg.RAKE_SCOPE n, 15, 0⟩

/-! PF (spec/16_permafrost_otp.md) -/
def Reg.PF_STAT : Nat := 0x4900004
def Fld.PF_STAT_LOADED : Fld := ⟨Reg.PF_STAT, 31, 31⟩
def Fld.PF_STAT_SPARES : Fld := ⟨Reg.PF_STAT, 20, 16⟩
def Fld.PF_STAT_WIN_OK : Fld := ⟨Reg.PF_STAT, 1, 1⟩
def Fld.PF_STAT_VQPS_OK : Fld := ⟨Reg.PF_STAT, 0, 0⟩
def Reg.PF_LOCK_SET : Nat := 0x4900008
def Fld.PF_LOCK_SET_LOCK : Fld := ⟨Reg.PF_LOCK_SET, 7, 0⟩
def Reg.PF_LOCK_PERM : Nat := 0x490000C
def Fld.PF_LOCK_PERM_LOCK : Fld := ⟨Reg.PF_LOCK_PERM, 7, 0⟩
def Reg.PF_CTL : Nat := 0x4900010
def Reg.PF_PROG_CTL : Nat := 0x4900014
def Fld.PF_PROG_CTL_BUSY : Fld := ⟨Reg.PF_PROG_CTL, 30, 30⟩
def Fld.PF_PROG_CTL_RESULT : Fld := ⟨Reg.PF_PROG_CTL, 29, 27⟩
def Fld.PF_PROG_CTL_ADDR : Fld := ⟨Reg.PF_PROG_CTL, 9, 0⟩
def Reg.PF_PROG_DATA_LO : Nat := 0x4900018
def Reg.PF_REG (n : Nat) : Nat := 0x4900040 + 0x4 * n
def Fld.PF_REG_VALID (n : Nat) : Fld := ⟨Reg.PF_REG n, 31, 31⟩
def Reg.PF_SCAN (n : Nat) : Nat := 0x4900060 + 0x4 * n
def Reg.PF_SCAN_STAT : Nat := 0x4900080
def Fld.PF_SCAN_STAT_BUSY : Fld := ⟨Reg.PF_SCAN_STAT, 31, 31⟩
def Fld.PF_SCAN_STAT_DONE : Fld := ⟨Reg.PF_SCAN_STAT, 30, 30⟩
def Fld.PF_SCAN_STAT_TABLE_MARG : Fld := ⟨Reg.PF_SCAN_STAT, 1, 1⟩
def Reg.PF_WORD (n : Nat) : Nat := 0x4910000 + 0x4 * n

/-! SVC (spec/17_firmware_update.md) -/
def Reg.SVC_STAT : Nat := 0x4A00004
def Fld.SVC_STAT_HS : Fld := ⟨Reg.SVC_STAT, 18, 18⟩
def Fld.SVC_STAT_USB_CFG : Fld := ⟨Reg.SVC_STAT, 17, 17⟩
def Fld.SVC_STAT_RESCUE : Fld := ⟨Reg.SVC_STAT, 16, 16⟩
def Fld.SVC_STAT_SOURCE : Fld := ⟨Reg.SVC_STAT, 15, 8⟩
def Fld.SVC_STAT_PHASE : Fld := ⟨Reg.SVC_STAT, 1, 0⟩
def Reg.SVC_SESSION : Nat := 0x4A00008
def Reg.SVC_MPWIN : Nat := 0x4A0000C
def Fld.SVC_MPWIN_PAGE : Fld := ⟨Reg.SVC_MPWIN, 1, 0⟩
def Reg.SVC_BOOT : Nat := 0x4A00010
def Fld.SVC_BOOT_FMT : Fld := ⟨Reg.SVC_BOOT, 31, 16⟩
def Fld.SVC_BOOT_INACT_VALID : Fld := ⟨Reg.SVC_BOOT, 8, 8⟩
def Fld.SVC_BOOT_TRIALS : Fld := ⟨Reg.SVC_BOOT, 5, 4⟩
def Fld.SVC_BOOT_TRIAL : Fld := ⟨Reg.SVC_BOOT, 1, 1⟩
def Fld.SVC_BOOT_ACTIVE : Fld := ⟨Reg.SVC_BOOT, 0, 0⟩
def Reg.SVC_VER_ACT : Nat := 0x4A00014
def Reg.SVC_VER_INACT : Nat := 0x4A00018
def Reg.SVC_ARB : Nat := 0x4A0001C
def Fld.SVC_ARB_PENDING : Fld := ⟨Reg.SVC_ARB, 16, 16⟩
def Fld.SVC_ARB_TARGET : Fld := ⟨Reg.SVC_ARB, 15, 8⟩
def Fld.SVC_ARB_COUNTER : Fld := ⟨Reg.SVC_ARB, 7, 0⟩
def Reg.SVC_UPD_CFG : Nat := 0x4A00020
def Fld.SVC_UPD_CFG_TRIAL_TMO : Fld := ⟨Reg.SVC_UPD_CFG, 15, 0⟩

/-! PCR (spec/18_power_clocks_reset.md) -/
def Reg.PCR_STAT : Nat := 0x4B00004
def Fld.PCR_STAT_REFCLK_OK : Fld := ⟨Reg.PCR_STAT, 4, 4⟩
def Fld.PCR_STAT_LONG : Fld := ⟨Reg.PCR_STAT, 3, 3⟩
def Fld.PCR_STAT_START : Fld := ⟨Reg.PCR_STAT, 2, 0⟩
def Reg.PCR_RST_CAUSE : Nat := 0x4B00008
def Fld.PCR_RST_CAUSE_DIE_SHUT : Fld := ⟨Reg.PCR_RST_CAUSE, 26, 26⟩
def Fld.PCR_RST_CAUSE_SUP : Fld := ⟨Reg.PCR_RST_CAUSE, 12, 8⟩
def Fld.PCR_RST_CAUSE_STARTS : Fld := ⟨Reg.PCR_RST_CAUSE, 7, 0⟩
def Reg.PCR_RST : Nat := 0x4B0000C
def Reg.PCR_DOM_CTL : Nat := 0x4B00010
def Reg.PCR_DOM_RST : Nat := 0x4B00014
def Reg.PCR_DOM_STAT : Nat := 0x4B00018
def Reg.PCR_RET_PORT : Nat := 0x4B00020
def Fld.PCR_RET_PORT_RET : Fld := ⟨Reg.PCR_RET_PORT, 15, 0⟩
def Reg.PCR_RET_BANK_LO : Nat := 0x4B00024
def Reg.PCR_RET_BANK_HI : Nat := 0x4B00028
def Reg.PCR_RET_CTX (n : Nat) : Nat := 0x4B00040 + 0x4 * n
def Reg.PCR_SUP_STAT : Nat := 0x4B00060
def Fld.PCR_SUP_STAT_LONG : Fld := ⟨Reg.PCR_SUP_STAT, 31, 31⟩
def Fld.PCR_SUP_STAT_WARN : Fld := ⟨Reg.PCR_SUP_STAT, 12, 0⟩
def Reg.PCR_AVS : Nat := 0x4B00064
def Fld.PCR_AVS_CODE : Fld := ⟨Reg.PCR_AVS, 20, 16⟩
def Fld.PCR_AVS_REQ : Fld := ⟨Reg.PCR_AVS, 4, 0⟩
def Reg.PCR_PLL_STAT : Nat := 0x4B00068
def Fld.PCR_PLL_STAT_PCIE_REF_OK : Fld := ⟨Reg.PCR_PLL_STAT, 31, 31⟩
def Fld.PCR_PLL_STAT_RING_REF_OK : Fld := ⟨Reg.PCR_PLL_STAT, 30, 30⟩
def Reg.PCR_TB_INC : Nat := 0x4B0006C
def Reg.PCR_WDOG : Nat := 0x4B00070
def Fld.PCR_WDOG_EN : Fld := ⟨Reg.PCR_WDOG, 31, 31⟩
def Fld.PCR_WDOG_TMO : Fld := ⟨Reg.PCR_WDOG, 9, 0⟩
def Reg.PCR_MP_LOAD : Nat := 0x4B00074
def Fld.PCR_MP_LOAD_PEAK : Fld := ⟨Reg.PCR_MP_LOAD, 23, 16⟩
def Fld.PCR_MP_LOAD_CR_DEPTH : Fld := ⟨Reg.PCR_MP_LOAD, 15, 8⟩
def Fld.PCR_MP_LOAD_LOAD : Fld := ⟨Reg.PCR_MP_LOAD, 7, 0⟩
def Reg.PCR_TB_LO : Nat := 0x4B00078
def Reg.PCR_TB_HI : Nat := 0x4B0007C
def Reg.PCR_SUP_CNT (n : Nat) : Nat := 0x4B00080 + 0x4 * n
def Fld.PCR_SUP_CNT_LONG (n : Nat) : Fld := ⟨Reg.PCR_SUP_CNT n, 31, 16⟩
def Fld.PCR_SUP_CNT_WARN (n : Nat) : Fld := ⟨Reg.PCR_SUP_CNT n, 15, 0⟩

/-! HF (spec/19_hoarfrost_freeze.md) -/
def Reg.HF_ID : Nat := 0x4C00000
def Reg.HF_CFG : Nat := 0x4C00004
def Fld.HF_CFG_FRZ_BYPASS : Fld := ⟨Reg.HF_CFG, 31, 31⟩
def Fld.HF_CFG_ON_FATAL : Fld := ⟨Reg.HF_CFG, 30, 30⟩
def Fld.HF_CFG_REL_TMO : Fld := ⟨Reg.HF_CFG, 15, 0⟩
def Reg.HF_CTL : Nat := 0x4C00008
def Reg.HF_STAT : Nat := 0x4C0000C
def Fld.HF_STAT_FROZEN : Fld := ⟨Reg.HF_STAT, 31, 31⟩
def Fld.HF_STAT_CAUSE : Fld := ⟨Reg.HF_STAT, 29, 27⟩
def Fld.HF_STAT_STOPPED : Fld := ⟨Reg.HF_STAT, 26, 1⟩
def Reg.HF_TB_LO : Nat := 0x4C00010
def Reg.HF_TB_HI : Nat := 0x4C00014
def Reg.HF_CNT : Nat := 0x4C00018
def Fld.HF_CNT_COUNT : Fld := ⟨Reg.HF_CNT, 31, 0⟩

/-! ## The tables: one row per register (offset in its block, repetition, access masks, reset value)

A row is: offset; count and stride of its repetition, twice; the RW mask; the W1C mask; the W1S mask; the mask of the
RS fields, which also stand in the RW mask; the reset word; and, for a value wider than 32 bits (R19, R20), the word's place
in the value and the value's number of words. -/

/-- The registers of HOST, spec/02_host_rings_and_doorbells.md. -/
def rowsHOST : List RegRow :=
  [ ⟨0x0, 1, 0x4, 1, 0x4, 0x0, 0x0, 0x0, 0x0, 0x101, 0, 0⟩ /- HOST_ID R64 -/
  , ⟨0x4, 1, 0x4, 1, 0x4, 0x0, 0x2, 0x0, 0x0, 0x1, 0, 0⟩ /- HOST_STAT R65 -/
  , ⟨0x8, 1, 0x4, 1, 0x4, 0x2, 0x0, 0x0, 0x0, 0x0, 0, 0⟩ /- HOST_CTL R66 -/
  , ⟨0x40, 1, 0x4, 1, 0x4, 0xFFFFFFFF, 0x0, 0x0, 0x0, 0x0, 0, 0⟩ /- HOST_CQ_LOST R67 -/
  , ⟨0x44, 1, 0x4, 1, 0x4, 0xFFFFFFFF, 0x0, 0x0, 0x0, 0x0, 0, 0⟩ /- HOST_ER_LOST R67 -/
  , ⟨0x50, 1, 0x4, 1, 0x4, 0xFFFFFFFF, 0x0, 0x0, 0x0, 0x0, 0, 0⟩ /- HOST_EVMASK0 R67 -/
  , ⟨0x54, 1, 0x4, 1, 0x4, 0xFFFFFFFF, 0x0, 0x0, 0x0, 0x0, 0, 0⟩ /- HOST_EVMASK1 R67 -/
  , ⟨0x60, 1, 0x4, 1, 0x4, 0x0, 0xFFFFFFFF, 0x0, 0x0, 0x0, 0, 0⟩ /- HOST_IPEND0 R73 -/
  , ⟨0x64, 1, 0x4, 1, 0x4, 0x0, 0xFFFFFFFF, 0x0, 0x0, 0x0, 0, 0⟩ /- HOST_IPEND1 R73 -/
  , ⟨0x100, 51, 0x20, 1, 0x4, 0xFFFFF000, 0x0, 0x0, 0x0, 0x0, 0, 2⟩ /- HOST_RBASE_LO R68 -/
  , ⟨0x104, 51, 0x20, 1, 0x4, 0xFFFFFFFF, 0x0, 0x0, 0x0, 0x0, 1, 2⟩ /- HOST_RBASE_HI R68 -/
  , ⟨0x108, 51, 0x20, 1, 0x4, 0x803FFF1F, 0x0, 0x0, 0x0, 0x0, 0, 0⟩ /- HOST_RCTL R69 -/
  , ⟨0x10C, 51, 0x20, 1, 0x4, 0x0, 0x0, 0x0, 0x0, 0x10000, 0, 0⟩ /- HOST_RPROD R70 -/
  , ⟨0x110, 51, 0x20, 1, 0x4, 0x0, 0x0, 0x0, 0x0, 0x10000, 0, 0⟩ /- HOST_RCONS R70 -/
  , ⟨0x114, 51, 0x20, 1, 0x4, 0x0, 0x0, 0x0, 0x0, 0x0, 0, 0⟩ /- HOST_RSTAT R71 -/
  , ⟨0x118, 51, 0x20, 1, 0x4, 0xFFFF, 0x0, 0x0, 0x0, 0x0, 0, 0⟩ /- HOST_RIRQ R73 -/
  , ⟨0x8000, 256, 0x4, 1, 0x4, 0xFFFFFFFF, 0x0, 0x0, 0x0, 0x0, 0, 0⟩ /- HOST_MSIX_TABLE R63 -/
  , ⟨0x8800, 2, 0x4, 1, 0x4, 0x0, 0x0, 0x0, 0x0, 0x0, 0, 0⟩ /- HOST_MSIX_PBA R63 -/
  , ⟨0xF000, 32, 0x4, 1, 0x4, 0xFFFF, 0x0, 0x0, 0x0, 0x0, 0, 0⟩ /- OWN R47 -/
  , ⟨0xF080, 1, 0x4, 1, 0x4, 0x0, 0x0, 0x0, 0x0, 0x0, 0, 0⟩ /- HOST_WHOAMI R46 -/
  , ⟨0xF084, 1, 0x4, 1, 0x4, 0x0, 0xFFFFFFFF, 0x0, 0x0, 0x0, 0, 0⟩ /- OWN_STAT R49 -/ ]

/-- The registers of DB, spec/02_host_rings_and_doorbells.md. -/
def rowsDB : List RegRow :=
  [ ⟨0x0, 49, 0x8, 1, 0x4, 0x0, 0x0, 0x0, 0x0, 0x10000, 0, 0⟩ /- DOORBELL R77 -/ ]

/-- The registers of CTX, spec/03_print_contexts.md. -/
def rowsCTX : List RegRow :=
  [ ⟨0x0, 1, 0x4, 1, 0x4, 0x0, 0x0, 0x0, 0x0, 0x0, 0, 0⟩ /- CTX_ID R96 -/
  , ⟨0x4, 1, 0x4, 1, 0x4, 0x0, 0x0, 0x0, 0x0, 0x0, 0, 0⟩ /- CTX_STATE R97 -/
  , ⟨0x8, 1, 0x4, 1, 0x4, 0x0, 0x0, 0x0, 0x0, 0x0, 0, 0⟩ /- CTX_COMMIT R120 -/
  , ⟨0xC, 1, 0x4, 1, 0x4, 0x0, 0xC, 0x0, 0x0, 0x0, 0, 0⟩ /- CTX_HO_STAT R121 -/
  , ⟨0x10, 1, 0x4, 1, 0x4, 0x0, 0x0, 0x0, 0x0, 0x0, 0, 2⟩ /- CTX_HO_SEQ_LO R122 -/
  , ⟨0x14, 1, 0x4, 1, 0x4, 0x0, 0x0, 0x0, 0x0, 0x0, 1, 2⟩ /- CTX_HO_SEQ_HI R122 -/
  , ⟨0x20, 1, 0x4, 1, 0x4, 0x0, 0x0, 0x0, 0x0, 0x0, 0, 0⟩ /- CTX_BINDING R100 -/
  , ⟨0x24, 1, 0x4, 1, 0x4, 0x0, 0x0, 0x0, 0x0, 0x0, 0, 0⟩ /- CTX_PATCH_BASE R102 -/
  , ⟨0x28, 1, 0x4, 1, 0x4, 0x0, 0x0, 0x0, 0x0, 0x0, 0, 0⟩ /- CTX_PATCH_SIZE R102 -/
  , ⟨0x40, 16, 0x4, 1, 0x4, 0x0, 0x0, 0x0, 0x0, 0x0, 0, 0⟩ /- CTX_RANGE R101 -/
  , ⟨0x80, 16, 0x4, 1, 0x4, 0xFFFF1FFF, 0x0, 0x0, 0x0, 0x0, 0, 0⟩ /- CTX_STG_RANGE R101 -/
  , ⟨0xC0, 1, 0x4, 1, 0x4, 0xFFFFFFFF, 0x0, 0x0, 0x0, 0x0, 0, 0⟩ /- CTX_CNT_EDGE R98 -/
  , ⟨0xC4, 1, 0x4, 1, 0x4, 0xFFFFFFFF, 0x0, 0x0, 0x0, 0x0, 0, 0⟩ /- CTX_CNT_NOJOB R98 -/
  , ⟨0xC8, 1, 0x4, 1, 0x4, 0xFFFFFFFF, 0x0, 0x0, 0x0, 0x0, 0, 0⟩ /- CTX_CNT_LOCKED R98 -/
  , ⟨0xCC, 1, 0x4, 1, 0x4, 0xFFFFFFFF, 0x0, 0x0, 0x0, 0x0, 0, 0⟩ /- CTX_CNT_IGNORED R98 -/
  , ⟨0xD0, 1, 0x4, 1, 0x4, 0xFFFFFFFF, 0x0, 0x0, 0x0, 0x0, 0, 0⟩ /- CTX_CNT_REJLATE R98 -/
  , ⟨0xD4, 1, 0x4, 1, 0x4, 0xFF, 0x0, 0x0, 0x0, 0x0, 0, 0⟩ /- CTX_SKIP R98 -/
  , ⟨0x100, 1, 0x4, 1, 0x4, 0x0, 0x0, 0x0, 0x0, 0x0, 0, 0⟩ /- CTX_LINES R106 -/
  , ⟨0x104, 1, 0x4, 1, 0x4, 0x0, 0x0, 0x0, 0x0, 0x0, 0, 0⟩ /- CTX_PITCH R106 -/
  , ⟨0x108, 1, 0x4, 1, 0x4, 0x0, 0x0, 0x0, 0x0, 0x0, 0, 0⟩ /- CTX_START R106 -/
  , ⟨0x10C, 1, 0x4, 1, 0x4, 0x0, 0x0, 0x0, 0x0, 0x0, 0, 0⟩ /- CTX_LIMIT R106 -/
  , ⟨0x110, 1, 0x4, 1, 0x4, 0x0, 0x0, 0x0, 0x0, 0x0, 0, 0⟩ /- CTX_LOCKOUT R106 -/
  , ⟨0x114, 1, 0x4, 1, 0x4, 0x0, 0x0, 0x0, 0x0, 0x0, 0, 0⟩ /- CTX_TIMEOUT R106 -/
  , ⟨0x118, 1, 0x4, 1, 0x4, 0x0, 0x0, 0x0, 0x0, 0x0, 0, 0⟩ /- CTX_REJ R106 -/
  , ⟨0x11C, 1, 0x4, 1, 0x4, 0x0, 0x0, 0x0, 0x0, 0x0, 0, 0⟩ /- CTX_REJ_DELAY R106 -/
  , ⟨0x140, 16, 0x4, 1, 0x4, 0x0, 0x0, 0x0, 0x0, 0x0, 0, 0⟩ /- CTX_ROWOFF R106 -/
  , ⟨0x200, 1, 0x4, 1, 0x4, 0xFFFF, 0x0, 0x0, 0x0, 0x0, 0, 0⟩ /- CTX_SH_LINES R106 -/
  , ⟨0x204, 1, 0x4, 1, 0x4, 0xFFFFFFFF, 0x0, 0x0, 0x0, 0x0, 0, 0⟩ /- CTX_SH_PITCH R106 -/
  , ⟨0x208, 1, 0x4, 1, 0x4, 0xFFFFFFFF, 0x0, 0x0, 0x0, 0x0, 0, 0⟩ /- CTX_SH_START R106 -/
  , ⟨0x20C, 1, 0x4, 1, 0x4, 0xFFFFFFFF, 0x0, 0x0, 0x0, 0x0, 0, 0⟩ /- CTX_SH_LIMIT R106 -/
  , ⟨0x210, 1, 0x4, 1, 0x4, 0xFFFFFFFF, 0x0, 0x0, 0x0, 0x0, 0, 0⟩ /- CTX_SH_LOCKOUT R106 -/
  , ⟨0x214, 1, 0x4, 1, 0x4, 0xFFFFFFFF, 0x0, 0x0, 0x0, 0x0, 0, 0⟩ /- CTX_SH_TIMEOUT R106 -/
  , ⟨0x218, 1, 0x4, 1, 0x4, 0xF700FFFF, 0x0, 0x0, 0x0, 0x0, 0, 0⟩ /- CTX_SH_REJ R106 -/
  , ⟨0x21C, 1, 0x4, 1, 0x4, 0xFFFFFFFF, 0x0, 0x0, 0x0, 0x0, 0, 0⟩ /- CTX_SH_REJ_DELAY R106 -/
  , ⟨0x240, 16, 0x4, 1, 0x4, 0xFFFFFF, 0x0, 0x0, 0x0, 0x0, 0, 0⟩ /- CTX_SH_ROWOFF R106 -/ ]

/-- The registers of DIB, spec/04_dibber_placement.md. -/
def rowsDIB : List RegRow :=
  [ ⟨0x0, 1, 0x4, 1, 0x4, 0x0, 0x0, 0x0, 0x0, 0x110, 0, 0⟩ /- DIB_ID R170 -/
  , ⟨0x4, 1, 0x4, 1, 0x4, 0xFFFFFFFF, 0x0, 0x0, 0x0, 0x0, 0, 0⟩ /- DIB_URGENT R170 -/
  , ⟨0x8, 1, 0x4, 1, 0x4, 0xFFFFFFFF, 0x0, 0x0, 0x0, 0x0, 0, 0⟩ /- DIB_HOLD R170 -/
  , ⟨0x10, 1, 0x4, 1, 0x4, 0x0, 0x0, 0x0, 0x0, 0x0, 0, 2⟩ /- DIB_TB_LO R169 -/
  , ⟨0x14, 1, 0x4, 1, 0x4, 0x0, 0x0, 0x0, 0x0, 0x0, 1, 2⟩ /- DIB_TB_HI R169 -/
  , ⟨0x100, 16, 0x4, 1, 0x4, 0xFFFFFF, 0x0, 0x0, 0x0, 0x17700, 0, 0⟩ /- DIB_LOOK R170 -/
  , ⟨0x200, 16, 0x20, 1, 0x4, 0xF71F0000, 0x0, 0x0, 0x0, 0x0, 0, 0⟩ /- ENC_CFG R171 -/
  , ⟨0x204, 16, 0x20, 1, 0x4, 0xFFFFFFFF, 0x0, 0x0, 0x0, 0x0, 0, 0⟩ /- ENC_ZCPR R172 -/
  , ⟨0x208, 16, 0x20, 1, 0x4, 0x0, 0x0, 0x0, 0x0, 0x0, 0, 0⟩ /- ENC_CNT R172 -/
  , ⟨0x20C, 16, 0x20, 1, 0x4, 0xFFFFFFFF, 0x0, 0x0, 0x0, 0x0, 0, 0⟩ /- ENC_ERR R172 -/
  , ⟨0x210, 16, 0x20, 1, 0x4, 0x0, 0x0, 0x0, 0x0, 0x0, 0, 2⟩ /- ENC_LAST_LO R172 -/
  , ⟨0x214, 16, 0x20, 1, 0x4, 0x0, 0x0, 0x0, 0x0, 0x0, 1, 2⟩ /- ENC_LAST_HI R172 -/
  , ⟨0x400, 32, 0x10, 1, 0x4, 0xFFFF, 0x0, 0x0, 0x0, 0x0, 0, 0⟩ /- PGO_CFG R173 -/
  , ⟨0x404, 32, 0x10, 1, 0x4, 0x0, 0x0, 0x0, 0x0, 0x0, 0, 2⟩ /- PGO_TB_LO R173 -/
  , ⟨0x408, 32, 0x10, 1, 0x4, 0x0, 0x0, 0x0, 0x0, 0x0, 1, 2⟩ /- PGO_TB_HI R173 -/
  , ⟨0x40C, 32, 0x10, 1, 0x4, 0xFFFF, 0x0, 0x0, 0x0, 0x0, 0, 0⟩ /- PGO_STAT R173 -/
  , ⟨0x800, 24, 0x40, 1, 0x4, 0xFFFFFFFF, 0x0, 0x0, 0x0, 0xA903E8, 0, 0⟩ /- TRK_CFG R174 -/
  , ⟨0x804, 24, 0x40, 1, 0x4, 0xFFFFFFFF, 0x0, 0x0, 0x0, 0x40000931, 0, 0⟩ /- TRK_GAIN R174 -/
  , ⟨0x808, 24, 0x40, 1, 0x4, 0xFFFFFFFF, 0x0, 0x0, 0x0, 0x2625A00, 0, 0⟩ /- TRK_STILL R174 -/
  , ⟨0x80C, 24, 0x40, 1, 0x4, 0x0, 0x0, 0x0, 0x0, 0x2, 0, 0⟩ /- TRK_STAT R174 -/
  , ⟨0x810, 24, 0x40, 1, 0x4, 0x0, 0x0, 0x0, 0x0, 0x0, 0, 2⟩ /- TRK_POS_LO R174 -/
  , ⟨0x814, 24, 0x40, 1, 0x4, 0x0, 0x0, 0x0, 0x0, 0x0, 1, 2⟩ /- TRK_POS_HI R174 -/
  , ⟨0x818, 24, 0x40, 1, 0x4, 0x0, 0x0, 0x0, 0x0, 0x0, 0, 0⟩ /- TRK_VEL R174 -/
  , ⟨0x81C, 24, 0x40, 1, 0x4, 0x0, 0x0, 0x0, 0x0, 0x0, 0, 0⟩ /- TRK_ACC R174 -/
  , ⟨0x820, 24, 0x40, 1, 0x4, 0x0, 0x0, 0x0, 0x0, 0x0, 0, 2⟩ /- TRK_TREF_LO R174 -/
  , ⟨0x824, 24, 0x40, 1, 0x4, 0x0, 0x0, 0x0, 0x0, 0x0, 1, 2⟩ /- TRK_TREF_HI R174 -/
  , ⟨0x1000, 255, 0x10, 1, 0x4, 0xFFFF0000, 0x0, 0x0, 0x0, 0x0, 0, 0⟩ /- DIB_CTX_STAT R175 -/
  , ⟨0x1004, 255, 0x10, 1, 0x4, 0xFFFFFFFF, 0x0, 0x0, 0x0, 0x0, 0, 0⟩ /- DIB_CTX_OVR R175 -/
  , ⟨0x1008, 255, 0x10, 1, 0x4, 0xFFFFFFFF, 0x0, 0x0, 0x0, 0x0, 0, 0⟩ /- DIB_CTX_ABORT R175 -/ ]

/-- The registers of ESP, spec/05_moraine_and_espalier.md. -/
def rowsESP : List RegRow :=
  [ ⟨0x0, 1, 0x4, 1, 0x4, 0x0, 0x0, 0x0, 0x0, 0x114, 0, 0⟩ /- ESP_ID R208 -/
  , ⟨0x4, 1, 0x4, 1, 0x4, 0x8000FF00, 0x0, 0x0, 0x0, 0x80000100, 0, 0⟩ /- ESP_CFG R208 -/
  , ⟨0x8, 1, 0x4, 1, 0x4, 0x0, 0x1, 0x0, 0x0, 0x0, 0, 0⟩ /- ESP_STAT R208 -/
  , ⟨0xC, 1, 0x4, 1, 0x4, 0x0, 0x0, 0x0, 0x0, 0x0, 0, 0⟩ /- ESP_PLD_BAD R209 -/
  , ⟨0x10, 1, 0x4, 1, 0x4, 0x3FF0000, 0x0, 0x0, 0x0, 0x0, 0, 0⟩ /- ESP_CQ R209 -/
  , ⟨0x20, 1, 0x4, 1, 0x4, 0xFFFFFFFF, 0x0, 0x0, 0x0, 0x0, 0, 0⟩ /- ESP_CNT_LATE R209 -/
  , ⟨0x24, 1, 0x4, 1, 0x4, 0xFFFFFFFF, 0x0, 0x0, 0x0, 0x0, 0, 0⟩ /- ESP_CNT_PATCH R209 -/
  , ⟨0x28, 1, 0x4, 1, 0x4, 0xFFFFFFFF, 0x0, 0x0, 0x0, 0x0, 0, 0⟩ /- ESP_CNT_FIFO R209 -/
  , ⟨0x2C, 1, 0x4, 1, 0x4, 0xFFFFFFFF, 0x0, 0x0, 0x0, 0x0, 0, 0⟩ /- ESP_CNT_DEFER R209 -/
  , ⟨0x40, 1, 0x4, 1, 0x4, 0xFFFFFFFF, 0x0, 0x0, 0x0, 0x0, 0, 0⟩ /- MOR_CE_CNT R209 -/
  , ⟨0x44, 1, 0x4, 1, 0x4, 0xFFFFFFFF, 0x0, 0x0, 0x0, 0x0, 0, 0⟩ /- MOR_UE_CNT R209 -/
  , ⟨0x48, 1, 0x4, 1, 0x4, 0x0, 0x0, 0x0, 0x0, 0x0, 0, 0⟩ /- MOR_CE_ADDR R209 -/
  , ⟨0x4C, 1, 0x4, 1, 0x4, 0x0, 0x0, 0x0, 0x0, 0x0, 0, 0⟩ /- MOR_UE_ADDR R209 -/
  , ⟨0x50, 1, 0x4, 1, 0x4, 0x0, 0x0, 0x0, 0x0, 0x0, 0, 2⟩ /- MOR_BANKS_LO R209 -/
  , ⟨0x54, 1, 0x4, 1, 0x4, 0x0, 0x0, 0x0, 0x0, 0x0, 1, 2⟩ /- MOR_BANKS_HI R209 -/
  , ⟨0x800, 16, 0x4, 1, 0x4, 0x7F0000, 0x0, 0x0, 0x0, 0x0, 0, 0⟩ /- ESP_FIFO R210 -/
  , ⟨0x1000, 255, 0x10, 1, 0x4, 0x0, 0x0, 0x0, 0x0, 0x0, 0, 0⟩ /- ESP_PA_USED R210 -/
  , ⟨0x1004, 255, 0x10, 1, 0x4, 0x0, 0x0, 0x0, 0x0, 0x0, 0, 0⟩ /- ESP_PA_STAT R210 -/
  , ⟨0x10000, 4096, 0x10, 1, 0x4, 0xFFFFFFFF, 0x0, 0x0, 0x0, 0x0, 0, 4⟩ /- PLD_W0 R184 -/
  , ⟨0x10004, 4096, 0x10, 1, 0x4, 0xFFFFFFFF, 0x0, 0x0, 0x0, 0x0, 1, 4⟩ /- PLD_W1 R184 -/
  , ⟨0x10008, 4096, 0x10, 1, 0x4, 0xFFFFFFFF, 0x0, 0x0, 0x0, 0x0, 2, 4⟩ /- PLD_W2 R184 -/
  , ⟨0x1000C, 4096, 0x10, 1, 0x4, 0xFFFFFFFF, 0x0, 0x0, 0x0, 0x0, 3, 4⟩ /- PLD_W3 R184 -/ ]

/-- The registers of SHR, spec/06_shears_and_graft.md. -/
def rowsSHR : List RegRow :=
  [ ⟨0x0, 1, 0x4, 1, 0x4, 0x0, 0x0, 0x0, 0x0, 0x111, 0, 0⟩ /- SHR_ID R237 -/
  , ⟨0x4, 1, 0x4, 1, 0x4, 0x0, 0x1, 0x0, 0x0, 0x0, 0, 0⟩ /- SHR_STAT R237 -/
  , ⟨0x8, 1, 0x4, 1, 0x4, 0x0, 0x0, 0x0, 0x0, 0x0, 0, 0⟩ /- SHR_ZBAD R237 -/
  , ⟨0x10, 1, 0x4, 1, 0x4, 0x77F000F, 0x0, 0x0, 0x0, 0x0, 0, 0⟩ /- SHR_CHECK R237 -/
  , ⟨0x20, 1, 0x4, 1, 0x4, 0xFFFFFFFF, 0x0, 0x0, 0x0, 0x0, 0, 0⟩ /- SHR_CNT_ZSKIP R237 -/
  , ⟨0x24, 1, 0x4, 1, 0x4, 0xFFFFFFFF, 0x0, 0x0, 0x0, 0x0, 0, 0⟩ /- SHR_CNT_PASS R237 -/
  , ⟨0x1000, 64, 0x8, 1, 0x4, 0xFFFFFFFF, 0x0, 0x0, 0x0, 0x0, 0, 2⟩ /- SHR_ZONE_A R238 -/
  , ⟨0x1004, 64, 0x8, 1, 0x4, 0xFFFFFFFF, 0x0, 0x0, 0x0, 0x0, 1, 2⟩ /- SHR_ZONE_B R238 -/
  , ⟨0x2000, 255, 0x20, 1, 0x4, 0xE77FF007, 0x0, 0x0, 0x0, 0x0, 0, 3⟩ /- SHR_CTX_SCAN R238 -/
  , ⟨0x2004, 255, 0x20, 1, 0x4, 0xFFFFFFFF, 0x0, 0x0, 0x0, 0x0, 1, 3⟩ /- SHR_CTX_ALIGN_F R238 -/
  , ⟨0x2008, 255, 0x20, 1, 0x4, 0xFFFFFFFF, 0x0, 0x0, 0x0, 0x0, 2, 3⟩ /- SHR_CTX_ALIGN_R R238 -/
  , ⟨0x200C, 255, 0x20, 1, 0x4, 0x0, 0x0, 0x0, 0x0, 0x0, 0, 0⟩ /- SHR_CTX_PSTAT R238 -/
  , ⟨0x8000, 8192, 0x4, 1, 0x4, 0xFFFFFFFF, 0x0, 0x0, 0x0, 0xFFFFFFFF, 0, 0⟩ /- SHR_STITCH R222 -/
  , ⟨0x10000, 16384, 0x4, 1, 0x4, 0xFFFFFFFF, 0x0, 0x0, 0x0, 0xFFFFFFFF, 0, 0⟩ /- SHR_MASK R219 -/ ]

/-- The registers of GRF, spec/06_shears_and_graft.md. -/
def rowsGRF : List RegRow :=
  [ ⟨0x0, 1, 0x4, 1, 0x4, 0x0, 0x0, 0x0, 0x0, 0x112, 0, 0⟩ /- GRF_ID R240 -/
  , ⟨0x4, 1, 0x4, 1, 0x4, 0x80000000, 0x0, 0x0, 0x0, 0x80000000, 0, 0⟩ /- GRF_CFG R240 -/
  , ⟨0x8, 1, 0x4, 1, 0x4, 0x0, 0x1, 0x0, 0x0, 0x0, 0, 0⟩ /- GRF_STAT R240 -/
  , ⟨0xC, 1, 0x4, 1, 0x4, 0x0, 0x0, 0x0, 0x0, 0x0, 0, 0⟩ /- GRF_BAD R240 -/
  , ⟨0x10, 1, 0x4, 1, 0x4, 0x0, 0x0, 0x0, 0x0, 0x0, 0, 0⟩ /- GRF_NSET R240 -/
  , ⟨0x20, 1, 0x4, 1, 0x4, 0xFFFFFFFF, 0x0, 0x0, 0x0, 0x0, 0, 0⟩ /- GRF_CNT_SUB R240 -/
  , ⟨0x24, 1, 0x4, 1, 0x4, 0xFFFFFFFF, 0x0, 0x0, 0x0, 0x0, 0, 0⟩ /- GRF_CNT_LOST R240 -/
  , ⟨0x28, 1, 0x4, 1, 0x4, 0xFFFFFFFF, 0x0, 0x0, 0x0, 0x0, 0, 0⟩ /- GRF_CNT_OVF R240 -/
  , ⟨0x40, 16, 0x4, 1, 0x4, 0x0, 0x0, 0x0, 0x0, 0x0, 0, 0⟩ /- GRF_DEAD R240 -/
  , ⟨0x10000, 4096, 0x4, 1, 0x4, 0xFFFFFFFF, 0x0, 0x0, 0x0, 0x0, 0, 0⟩ /- GRF_MAP R224 -/
  , ⟨0x20000, 8192, 0x10, 1, 0x4, 0xFFFFFFFF, 0x0, 0x0, 0x0, 0x0, 0, 4⟩ /- GRF_SUB_W0 R226 -/
  , ⟨0x20004, 8192, 0x10, 1, 0x4, 0xFFFFFFFF, 0x0, 0x0, 0x0, 0x0, 1, 4⟩ /- GRF_SUB_W1 R226 -/
  , ⟨0x20008, 8192, 0x10, 1, 0x4, 0xFFFFFFFF, 0x0, 0x0, 0x0, 0x0, 2, 4⟩ /- GRF_SUB_W2 R226 -/
  , ⟨0x2000C, 8192, 0x10, 1, 0x4, 0xFFFFFFFF, 0x0, 0x0, 0x0, 0x0, 3, 4⟩ /- GRF_SUB_W3 R226 -/ ]

/-- The registers of PORT, spec/07_head_ports.md. -/
def rowsPORT : List RegRow :=
  [ ⟨0x0, 1, 0x4, 1, 0x4, 0x0, 0x0, 0x0, 0x0, 0x0, 0, 0⟩ /- PORT_ID R285 -/
  , ⟨0x4, 1, 0x4, 1, 0x4, 0x8E701FFF, 0x0, 0x0, 0x0, 0x0, 0, 0⟩ /- PORT_CFG R285 -/
  , ⟨0x8, 1, 0x4, 1, 0x4, 0x0, 0x0, 0x0, 0x0, 0x0, 0, 0⟩ /- PORT_STAT R285 -/
  , ⟨0xC, 1, 0x4, 1, 0x4, 0xF, 0x0, 0x0, 0x0, 0x0, 0, 0⟩ /- PORT_LAYOUT R286 -/
  , ⟨0x10, 1, 0x4, 1, 0x4, 0xFFFFFFFF, 0x0, 0x0, 0x0, 0x76543210, 0, 0⟩ /- PORT_LANEMAP_LO R286 -/
  , ⟨0x14, 1, 0x4, 1, 0x4, 0xFFFFFFFF, 0x0, 0x0, 0x0, 0xFEDCBA98, 0, 0⟩ /- PORT_LANEMAP_HI R286 -/
  , ⟨0x20, 1, 0x4, 1, 0x4, 0xFFFFFFFF, 0x0, 0x0, 0x0, 0x100, 0, 0⟩ /- PORT_TIM0 R286 -/
  , ⟨0x24, 1, 0x4, 1, 0x4, 0xFFFF, 0x0, 0x0, 0x0, 0x0, 0, 0⟩ /- PORT_TIM1 R286 -/
  , ⟨0x28, 1, 0x4, 1, 0x4, 0x0, 0x0, 0x0, 0x0, 0x0, 0, 0⟩ /- PORT_SP R286 -/
  , ⟨0x2C, 1, 0x4, 1, 0x4, 0x0, 0x0, 0x0, 0x0, 0x0, 0, 0⟩ /- PORT_SPACE R286 -/
  , ⟨0x30, 1, 0x4, 1, 0x4, 0xFFFFFFFF, 0x0, 0x0, 0x0, 0x0, 0, 0⟩ /- PORT_CNT_STROBE R287 -/
  , ⟨0x34, 1, 0x4, 1, 0x4, 0xFFFFFFFF, 0x0, 0x0, 0x0, 0x0, 0, 0⟩ /- PORT_CNT_DROP R287 -/
  , ⟨0x38, 1, 0x4, 1, 0x4, 0xFFFFFFFF, 0x0, 0x0, 0x0, 0x0, 0, 0⟩ /- PORT_CNT_VOID R287 -/
  , ⟨0x3C, 1, 0x4, 1, 0x4, 0xFFFFFFFF, 0x0, 0x0, 0x0, 0x0, 0, 0⟩ /- PORT_CNT_INHIB R287 -/
  , ⟨0x40, 1, 0x4, 1, 0x4, 0xFFFFFFFF, 0x0, 0x0, 0x0, 0x8000000, 0, 0⟩ /- PORT_WD_CFG R287 -/
  , ⟨0x44, 1, 0x4, 1, 0x4, 0x0, 0x0, 0x0, 0x0, 0x0, 0, 0⟩ /- PORT_WD_STAT R287 -/
  , ⟨0x48, 1, 0x4, 1, 0x4, 0xFFFFFFFF, 0x0, 0x0, 0x0, 0x0, 0, 0⟩ /- PORT_WD_CNT R287 -/
  , ⟨0x80, 1, 0x4, 1, 0x4, 0x8703FFFF, 0x0, 0x0, 0x0, 0x87020640, 0, 0⟩ /- NV_CFG R288 -/
  , ⟨0x84, 1, 0x4, 1, 0x4, 0x0, 0x0, 0x0, 0x0, 0x0, 0, 0⟩ /- NV_STAT R288 -/
  , ⟨0x88, 1, 0x4, 1, 0x4, 0x0, 0x0, 0x0, 0x0, 0x0, 0, 0⟩ /- NV_LAT R288 -/
  , ⟨0x8C, 1, 0x4, 1, 0x4, 0xFFFFFFFF, 0x0, 0x0, 0x0, 0x0, 0, 0⟩ /- NV_CNT R288 -/
  , ⟨0x90, 1, 0x4, 1, 0x4, 0xFFFFFFFF, 0x0, 0x0, 0x0, 0x0, 0, 0⟩ /- NV_CNT2 R288 -/
  , ⟨0x94, 1, 0x4, 1, 0x4, 0x1FFFF, 0x0, 0x0, 0x0, 0x0, 0, 0⟩ /- NV_HREG_CMD R288 -/
  , ⟨0x98, 1, 0x4, 1, 0x4, 0xFFFFFFFF, 0x0, 0x0, 0x0, 0x0, 0, 0⟩ /- NV_HREG_DATA R288 -/
  , ⟨0xA0, 8, 0x4, 1, 0x4, 0x0, 0x0, 0x0, 0x0, 0x0, 0, 0⟩ /- NV_TEL R288 -/
  , ⟨0x100, 48, 0x4, 1, 0x4, 0xF000FFFF, 0x0, 0x0, 0x0, 0x0, 0, 0⟩ /- PORT_GATE R289 -/
  , ⟨0x1C0, 1, 0x4, 1, 0x4, 0x0, 0xFFFFFFFF, 0x0, 0x0, 0x0, 0, 0⟩ /- PORT_GSTAT_LO R289 -/
  , ⟨0x1C4, 1, 0x4, 1, 0x4, 0x0, 0xFFFF, 0x0, 0x0, 0x0, 0, 0⟩ /- PORT_GSTAT_HI R289 -/
  , ⟨0x8000, 1, 0x4, 1, 0x4, 0xC700FFFF, 0x0, 0x0, 0x0, 0x40000000, 0, 0⟩ /- ROSE_CFG R318 -/
  , ⟨0x8004, 1, 0x4, 1, 0x4, 0x0, 0x0, 0x0, 0x0, 0x10000000, 0, 0⟩ /- ROSE_STAT R318 -/
  , ⟨0x8008, 1, 0x4, 1, 0x4, 0x0, 0x0, 0x0, 0x0, 0x0, 0, 0⟩ /- ROSE_PMIN R318 -/
  , ⟨0x800C, 1, 0x4, 1, 0x4, 0xFFFFFF, 0x0, 0x0, 0x0, 0x0, 0, 0⟩ /- ROSE_PMIN_SET R318 -/
  , ⟨0x8010, 1, 0x4, 1, 0x4, 0x1FF, 0x0, 0x0, 0x0, 0x0, 0, 0⟩ /- ROSE_ADV R318 -/
  , ⟨0x8014, 1, 0x4, 1, 0x4, 0xFFFF3FFF, 0x0, 0x0, 0x0, 0x0, 0, 0⟩ /- ROSE_THERM R318 -/
  , ⟨0x8018, 1, 0x4, 1, 0x4, 0xFFFFFFFF, 0x0, 0x0, 0x0, 0x1400050, 0, 0⟩ /- ROSE_TBIN R318 -/
  , ⟨0x8020, 1, 0x4, 1, 0x4, 0xFFFFFFFF, 0x0, 0x0, 0x0, 0x0, 0, 0⟩ /- ROSE_CNT_XTRAP R318 -/
  , ⟨0x8024, 1, 0x4, 1, 0x4, 0xFFFFFFFF, 0x0, 0x0, 0x0, 0x0, 0, 0⟩ /- ROSE_CNT_QUIET R318 -/
  , ⟨0x8028, 1, 0x4, 1, 0x4, 0xFFFFFFFF, 0x0, 0x0, 0x0, 0x0, 0, 0⟩ /- ROSE_CNT_SAT R318 -/
  , ⟨0x8100, 8, 0x20, 1, 0x4, 0xF0FFF, 0x0, 0x0, 0x0, 0x10000, 0, 0⟩ /- ROSE_WAVE_LEN R318 -/
  , ⟨0x8104, 8, 0x20, 1, 0x4, 0xFFF0FFF, 0x0, 0x0, 0x0, 0x0, 0, 0⟩ /- ROSE_WAVE_END01 R318 -/
  , ⟨0x8108, 8, 0x20, 1, 0x4, 0xFFF0FFF, 0x0, 0x0, 0x0, 0x0, 0, 0⟩ /- ROSE_WAVE_END23 R318 -/
  , ⟨0x810C, 8, 0x20, 1, 0x4, 0xFFF0FFF, 0x0, 0x0, 0x0, 0x0, 0, 0⟩ /- ROSE_WAVE_END45 R318 -/
  , ⟨0x8110, 8, 0x20, 1, 0x4, 0xFFF, 0x0, 0x0, 0x0, 0x0, 0, 0⟩ /- ROSE_WAVE_END6 R318 -/
  , ⟨0x8114, 8, 0x20, 1, 0x4, 0xFFFFFF, 0x0, 0x0, 0x0, 0x0, 0, 0⟩ /- ROSE_WAVE_MASK R318 -/
  , ⟨0x8118, 8, 0x20, 1, 0x4, 0xFFFF, 0x0, 0x0, 0x0, 0x4000, 0, 0⟩ /- ROSE_WAVE_CALG R318 -/
  , ⟨0x811C, 8, 0x20, 1, 0x4, 0x1FFF1FFF, 0x0, 0x0, 0x0, 0x10000000, 0, 0⟩ /- ROSE_WAVE_CALF R318 -/
  , ⟨0x8200, 16, 0x10, 3, 0x4, 0xFFFFFFFF, 0x0, 0x0, 0x0, 0x0, 0, 0⟩ /- ROSE_TH R318 -/
  , ⟨0x8300, 1, 0x4, 1, 0x4, 0xFFFF, 0x0, 0x0, 0x0, 0x4000, 0, 0⟩ /- ROSE_TCALG R318 -/
  , ⟨0x8304, 1, 0x4, 1, 0x4, 0x1FFF1FFF, 0x0, 0x0, 0x0, 0x10000000, 0, 0⟩ /- ROSE_TCALF R318 -/
  , ⟨0x8400, 33, 0x4, 1, 0x4, 0xFFFF, 0x0, 0x0, 0x0, 0x4000, 0, 0⟩ /- ROSE_DROOP R318 -/ ]

/-- The registers of WRAM, spec/08_rose_pulse_shaping.md. -/
def rowsWRAM : List RegRow :=
  [ ⟨0x0, 8192, 0x4, 1, 0x4, 0xFFFFFFFF, 0x0, 0x0, 0x0, 0x0, 0, 0⟩ /- WAVE_RAM R295 -/ ]

/-- The registers of CRV, spec/09_crevasse_nozzle_health.md. -/
def rowsCRV : List RegRow :=
  [ ⟨0x0, 1, 0x4, 1, 0x4, 0x0, 0x0, 0x0, 0x0, 0x130, 0, 0⟩ /- CRV_ID R339 -/
  , ⟨0x4, 1, 0x4, 1, 0x4, 0xC000000F, 0x0, 0x0, 0x0, 0xC0000004, 0, 0⟩ /- CRV_CFG R339 -/
  , ⟨0x8, 1, 0x4, 1, 0x4, 0x0, 0x0, 0x0, 0x0, 0x0, 0, 0⟩ /- CRV_STAT R339 -/
  , ⟨0xC, 1, 0x4, 1, 0x4, 0xFFFFFFFF, 0x0, 0x0, 0x0, 0xC0003000, 0, 0⟩ /- CRV_CLS R339 -/
  , ⟨0x10, 1, 0x4, 1, 0x4, 0xFFFFFFFF, 0x0, 0x0, 0x0, 0x0, 0, 0⟩ /- CRV_EFLOOR R339 -/
  , ⟨0x14, 1, 0x4, 1, 0x4, 0xFFFFFFFF, 0x0, 0x0, 0x0, 0x0, 0, 0⟩ /- CRV_CNT_CORR R339 -/
  , ⟨0x100, 16, 0x20, 1, 0x4, 0xC0FFFFFF, 0x0, 0x0, 0x0, 0x141E32, 0, 0⟩ /- CRV_P_CFG R339 -/
  , ⟨0x104, 16, 0x20, 1, 0x4, 0x0, 0x0, 0x0, 0x0, 0x1, 0, 0⟩ /- CRV_P_STAT R339 -/
  , ⟨0x108, 16, 0x20, 1, 0x4, 0x1F, 0x0, 0x0, 0x0, 0x0, 0, 0⟩ /- CRV_P_REF R339 -/
  , ⟨0x10C, 16, 0x20, 1, 0x4, 0x0, 0x0, 0x0, 0x0, 0x0, 0, 0⟩ /- CRV_P_N R339 -/
  , ⟨0x110, 16, 0x20, 1, 0x4, 0x0, 0x0, 0x0, 0x0, 0x0, 0, 0⟩ /- CRV_P_GREQ R339 -/
  , ⟨0x114, 16, 0x20, 1, 0x4, 0xFFFFFFFF, 0x0, 0x0, 0x0, 0x0, 0, 0⟩ /- CRV_P_CNT_SENSE R339 -/
  , ⟨0x118, 16, 0x20, 1, 0x4, 0xFFFFFFFF, 0x0, 0x0, 0x0, 0x0, 0, 0⟩ /- CRV_P_CNT_MISS R339 -/
  , ⟨0x11C, 16, 0x20, 1, 0x4, 0xFFFFFFFF, 0x0, 0x0, 0x0, 0x0, 0, 0⟩ /- CRV_P_CNT_SKIP R339 -/
  , ⟨0x10000, 8192, 0x4, 1, 0x4, 0x77777777, 0x0, 0x0, 0x0, 0x0, 0, 0⟩ /- CRV_CLASS R338 -/
  , ⟨0x20000, 16, 0x1000, 640, 0x4, 0xFFFFFFFF, 0x0, 0x0, 0x0, 0x0, 0, 0⟩ /- CRV_REF R337 -/
  , ⟨0x30000, 2048, 0x4, 1, 0x4, 0x0, 0x0, 0x0, 0x0, 0x0, 0, 0⟩ /- CRV_LAST R337 -/ ]

/-- The registers of CONS, spec/10_consumable_accounting.md. -/
def rowsCONS : List RegRow :=
  [ ⟨0x0, 1, 0x4, 1, 0x4, 0x0, 0x0, 0x0, 0x0, 0x140, 0, 0⟩ /- CONS_ID R357 -/
  , ⟨0x4, 1, 0x4, 1, 0x4, 0xFFFF, 0x0, 0x0, 0x0, 0x3C, 0, 0⟩ /- CONS_CFG R357 -/
  , ⟨0x8, 1, 0x4, 1, 0x4, 0x0, 0x0, 0x0, 0x0, 0x0, 0, 0⟩ /- CONS_STAT R357 -/
  , ⟨0x1000, 16, 0x40, 1, 0x4, 0xC000007F, 0x0, 0x0, 0x0, 0x80000050, 0, 0⟩ /- CONS_P_CFG R357 -/
  , ⟨0x1004, 16, 0x40, 1, 0x4, 0x0, 0x0, 0x0, 0x0, 0x0, 0, 0⟩ /- CONS_P_STAT R357 -/
  , ⟨0x1008, 16, 0x40, 1, 0x4, 0x0, 0x0, 0x0, 0x0, 0x0, 0, 2⟩ /- CONS_P_UID_LO R357 -/
  , ⟨0x100C, 16, 0x40, 1, 0x4, 0x0, 0x0, 0x0, 0x0, 0x0, 1, 2⟩ /- CONS_P_UID_HI R357 -/
  , ⟨0x1010, 16, 0x40, 1, 0x4, 0xFFFFFFFF, 0x0, 0x0, 0x0, 0x0, 0, 2⟩ /- CONS_P_DROP1_LO R357 -/
  , ⟨0x1014, 16, 0x40, 1, 0x4, 0xFFFF, 0x0, 0x0, 0x0, 0x0, 1, 2⟩ /- CONS_P_DROP1_HI R357 -/
  , ⟨0x1018, 16, 0x40, 1, 0x4, 0xFFFFFFFF, 0x0, 0x0, 0x0, 0x0, 0, 2⟩ /- CONS_P_DROP2_LO R357 -/
  , ⟨0x101C, 16, 0x40, 1, 0x4, 0xFFFF, 0x0, 0x0, 0x0, 0x0, 1, 2⟩ /- CONS_P_DROP2_HI R357 -/
  , ⟨0x1020, 16, 0x40, 1, 0x4, 0xFFFFFFFF, 0x0, 0x0, 0x0, 0x0, 0, 2⟩ /- CONS_P_DROP3_LO R357 -/
  , ⟨0x1024, 16, 0x40, 1, 0x4, 0xFFFF, 0x0, 0x0, 0x0, 0x0, 1, 2⟩ /- CONS_P_DROP3_HI R357 -/
  , ⟨0x1028, 16, 0x40, 1, 0x4, 0xFFFFFF, 0x0, 0x0, 0x0, 0x0, 0, 0⟩ /- CONS_P_VOL1 R357 -/
  , ⟨0x102C, 16, 0x40, 1, 0x4, 0xFFFFFF, 0x0, 0x0, 0x0, 0x0, 0, 0⟩ /- CONS_P_VOL2 R357 -/
  , ⟨0x1030, 16, 0x40, 1, 0x4, 0xFFFFFF, 0x0, 0x0, 0x0, 0x0, 0, 0⟩ /- CONS_P_VOL3 R357 -/
  , ⟨0x1034, 16, 0x40, 1, 0x4, 0xFFFFFFFF, 0x0, 0x0, 0x0, 0x0, 0, 2⟩ /- CONS_P_INK_LO R357 -/
  , ⟨0x1038, 16, 0x40, 1, 0x4, 0xFFFFFFFF, 0x0, 0x0, 0x0, 0x0, 1, 2⟩ /- CONS_P_INK_HI R357 -/
  , ⟨0x103C, 16, 0x40, 1, 0x4, 0x0, 0x0, 0x0, 0x0, 0x0, 0, 0⟩ /- CONS_P_SEQ R357 -/ ]

/-- The registers of BAR, spec/11_barrow_dma.md. -/
def rowsBAR : List RegRow :=
  [ ⟨0x0, 1, 0x4, 1, 0x4, 0x0, 0x0, 0x0, 0x0, 0x118, 0, 0⟩ /- BAR_ID R383 -/
  , ⟨0x4, 1, 0x4, 1, 0x4, 0xFFFF, 0x0, 0x0, 0x0, 0x3E8, 0, 0⟩ /- BAR_CFG R383 -/
  , ⟨0x8, 1, 0x4, 1, 0x4, 0x0, 0x0, 0x0, 0x0, 0x0, 0, 0⟩ /- BAR_CTL R383 -/
  , ⟨0xC, 1, 0x4, 1, 0x4, 0x0, 0x0, 0x0, 0x0, 0x0, 0, 0⟩ /- BAR_STAT R383 -/
  , ⟨0x10, 1, 0x4, 1, 0x4, 0x0, 0x0, 0x0, 0x0, 0x0, 0, 2⟩ /- BAR_ERR_ADDR_LO R383 -/
  , ⟨0x14, 1, 0x4, 1, 0x4, 0x0, 0x0, 0x0, 0x0, 0x0, 1, 2⟩ /- BAR_ERR_ADDR_HI R383 -/
  , ⟨0x18, 1, 0x4, 1, 0x4, 0x0, 0x0, 0x0, 0x0, 0x0, 0, 0⟩ /- BAR_OUT R383 -/
  , ⟨0x1C, 1, 0x4, 1, 0x4, 0xFFFFFFFF, 0x0, 0x0, 0x0, 0x0, 0, 0⟩ /- BAR_HALT_CNT R383 -/
  , ⟨0x20, 1, 0x4, 1, 0x4, 0xFFFFFFFF, 0x0, 0x0, 0x0, 0x0, 0, 0⟩ /- BAR_CNT_REFETCH R383 -/
  , ⟨0x100, 32, 0x20, 1, 0x4, 0x300F003F, 0x0, 0x0, 0x0, 0x20010008, 0, 0⟩ /- BAR_CH_CFG R384 -/
  , ⟨0x104, 32, 0x20, 1, 0x4, 0x1, 0x0, 0x0, 0x0, 0x0, 0, 0⟩ /- BAR_CH_CTL R384 -/
  , ⟨0x108, 32, 0x20, 1, 0x4, 0x0, 0x0, 0x0, 0x0, 0x0, 0, 0⟩ /- BAR_CH_STAT R384 -/
  , ⟨0x10C, 32, 0x20, 1, 0x4, 0xFFFFFFFF, 0x0, 0x0, 0x0, 0x0, 0, 0⟩ /- BAR_CH_DESC R384 -/
  , ⟨0x110, 32, 0x20, 1, 0x4, 0xFFFFFFFF, 0x0, 0x0, 0x0, 0x0, 0, 2⟩ /- BAR_CH_BYTES_LO R384 -/
  , ⟨0x114, 32, 0x20, 1, 0x4, 0xFFFFFFFF, 0x0, 0x0, 0x0, 0x0, 1, 2⟩ /- BAR_CH_BYTES_HI R384 -/ ]

/-- The registers of BUF, spec/11_barrow_dma.md. -/
def rowsBUF : List RegRow :=
  [ ⟨0x0, 65536, 0x4, 1, 0x4, 0xFFFFFFFF, 0x0, 0x0, 0x0, 0x0, 0, 0⟩ /- BAR_BUFFER R42 -/ ]

/-- The registers of RING, spec/12_tchitric_line_ring.md. -/
def rowsRING : List RegRow :=
  [ ⟨0x0, 1, 0x4, 1, 0x4, 0x0, 0x0, 0x0, 0x0, 0x150, 0, 0⟩ /- RING_ID R422 -/
  , ⟨0x4, 1, 0x4, 1, 0x4, 0x80033FFF, 0x0, 0x0, 0x0, 0x3000A, 0, 0⟩ /- RING_CFG R422 -/
  , ⟨0x8, 1, 0x4, 1, 0x4, 0x0, 0x0, 0x0, 0x0, 0x0, 0, 0⟩ /- RING_STAT R422 -/
  , ⟨0xC, 1, 0x4, 1, 0x4, 0x0, 0x0, 0x0, 0x0, 0x1, 0, 0⟩ /- RING_VER R422 -/
  , ⟨0x10, 1, 0x4, 1, 0x4, 0x0, 0x0, 0x0, 0x0, 0x0, 0, 2⟩ /- RING_ROSTER_LO R422 -/
  , ⟨0x14, 1, 0x4, 1, 0x4, 0x0, 0x0, 0x0, 0x0, 0x0, 1, 2⟩ /- RING_ROSTER_HI R422 -/
  , ⟨0x20, 1, 0x4, 1, 0x4, 0x800000FF, 0x0, 0x0, 0x0, 0x0, 0, 0⟩ /- RING_PTP_CFG R422 -/
  , ⟨0x24, 1, 0x4, 1, 0x4, 0x0, 0x0, 0x0, 0x0, 0x0, 0, 0⟩ /- RING_PTP_STAT R422 -/
  , ⟨0x28, 1, 0x4, 1, 0x4, 0x0, 0x0, 0x0, 0x0, 0x0, 0, 2⟩ /- RING_OFS_LO R422 -/
  , ⟨0x2C, 1, 0x4, 1, 0x4, 0x0, 0x0, 0x0, 0x0, 0x0, 1, 2⟩ /- RING_OFS_HI R422 -/
  , ⟨0x30, 1, 0x4, 1, 0x4, 0x0, 0x0, 0x0, 0x0, 0x0, 0, 2⟩ /- RING_RTIME_LO R422 -/
  , ⟨0x34, 1, 0x4, 1, 0x4, 0x0, 0x0, 0x0, 0x0, 0x0, 1, 2⟩ /- RING_RTIME_HI R422 -/
  , ⟨0x40, 1, 0x4, 1, 0x4, 0xFFFFFFFF, 0x0, 0x0, 0x0, 0x0, 0, 0⟩ /- RING_CNT_DISC R422 -/
  , ⟨0x44, 1, 0x4, 1, 0x4, 0xFFFFFFFF, 0x0, 0x0, 0x0, 0x0, 0, 0⟩ /- RING_CNT_GAP R422 -/
  , ⟨0x48, 1, 0x4, 1, 0x4, 0xFFFFFFFF, 0x0, 0x0, 0x0, 0x0, 0, 0⟩ /- RING_CNT_RLATE R422 -/
  , ⟨0x4C, 1, 0x4, 1, 0x4, 0xFFFFFFFF, 0x0, 0x0, 0x0, 0x0, 0, 0⟩ /- RING_CNT_VOVF R422 -/
  , ⟨0x50, 1, 0x4, 1, 0x4, 0xFFFFFF00, 0x0, 0x0, 0x0, 0x0, 0, 0⟩ /- RING_TRK_WR R422 -/
  , ⟨0x80, 2, 0x20, 1, 0x4, 0x8F800000, 0x0, 0x0, 0x0, 0x8F800000, 0, 0⟩ /- RING_P_CFG R423 -/
  , ⟨0x84, 2, 0x20, 1, 0x4, 0x0, 0x0, 0x0, 0x0, 0x0, 0, 0⟩ /- RING_P_STAT R423 -/
  , ⟨0x88, 2, 0x20, 1, 0x4, 0x0, 0x0, 0x0, 0x0, 0x0, 0, 0⟩ /- RING_P_DELAY R423 -/
  , ⟨0x8C, 2, 0x20, 1, 0x4, 0xFFFFFFFF, 0x0, 0x0, 0x0, 0x0, 0, 0⟩ /- RING_P_CNT_RX R423 -/
  , ⟨0x90, 2, 0x20, 1, 0x4, 0xFFFFFFFF, 0x0, 0x0, 0x0, 0x0, 0, 0⟩ /- RING_P_CNT_TX R423 -/
  , ⟨0x94, 2, 0x20, 1, 0x4, 0xFFFFFFFF, 0x0, 0x0, 0x0, 0x0, 0, 0⟩ /- RING_P_CNT_DROP R423 -/
  , ⟨0x98, 2, 0x20, 1, 0x4, 0xFFFFFFFF, 0x0, 0x0, 0x0, 0x0, 0, 0⟩ /- RING_P_CNT_ERR R423 -/
  , ⟨0x100, 8, 0x4, 1, 0x4, 0x800FFFFF, 0x0, 0x0, 0x0, 0xA, 0, 0⟩ /- RING_VTX R423 -/
  , ⟨0x120, 8, 0x4, 1, 0x4, 0x803F07FF, 0x0, 0x0, 0x0, 0xA, 0, 0⟩ /- RING_VRX R423 -/
  , ⟨0x140, 8, 0x4, 1, 0x4, 0xC000001F, 0x0, 0x0, 0x0, 0x0, 0, 0⟩ /- RING_PTX R423 -/
  , ⟨0x160, 8, 0x4, 1, 0x4, 0x803F0700, 0x0, 0x0, 0x0, 0x0, 0, 0⟩ /- RING_PRX R423 -/
  , ⟨0x200, 16, 0x10, 1, 0x4, 0xFFFFF01F, 0x0, 0x0, 0x0, 0x0, 0, 0⟩ /- RING_RRLY_A R423 -/
  , ⟨0x204, 16, 0x10, 1, 0x4, 0xFFFFFFFF, 0x0, 0x0, 0x0, 0x0, 0, 0⟩ /- RING_RRLY_DELAY R423 -/
  , ⟨0x208, 16, 0x10, 1, 0x4, 0xFFFF, 0x0, 0x0, 0x0, 0x0, 0, 0⟩ /- RING_RRLY_WIDTH R423 -/
  , ⟨0x300, 16, 0x10, 1, 0x4, 0xE07F00FF, 0x0, 0x0, 0x0, 0x10000, 0, 0⟩ /- RING_VOTE_A R423 -/
  , ⟨0x304, 16, 0x10, 1, 0x4, 0xFFFFFFFF, 0x0, 0x0, 0x0, 0x0, 0, 2⟩ /- RING_VOTE_MASK_LO R423 -/
  , ⟨0x308, 16, 0x10, 1, 0x4, 0xFFFFFFFF, 0x0, 0x0, 0x0, 0x0, 1, 2⟩ /- RING_VOTE_MASK_HI R423 -/
  , ⟨0x30C, 16, 0x10, 1, 0x4, 0xFFFFF, 0x0, 0x0, 0x0, 0x0, 0, 0⟩ /- RING_VOTE_DEADLINE R423 -/
  , ⟨0x400, 8, 0x4, 1, 0x4, 0xFFFFFFFF, 0x0, 0x0, 0x0, 0x0, 0, 0⟩ /- RING_VSEND R421 -/
  , ⟨0x420, 8, 0x4, 1, 0x4, 0xFFFFFFFF, 0x0, 0x0, 0x0, 0x0, 0, 0⟩ /- RING_TSEND R421 -/
  , ⟨0x800, 4, 0x200, 1, 0x4, 0x43F007F, 0x0, 0x0, 0x0, 0x0, 0, 0⟩ /- RING_MBX_CMD R423 -/
  , ⟨0x804, 4, 0x200, 1, 0x4, 0xFFFFFFC, 0x0, 0x0, 0x0, 0x0, 0, 0⟩ /- RING_MBX_ADDR R423 -/
  , ⟨0x900, 4, 0x200, 64, 0x4, 0xFFFFFFFF, 0x0, 0x0, 0x0, 0x0, 0, 0⟩ /- RING_MBX_DATA R421 -/
  , ⟨0x2000, 2048, 0x4, 1, 0x4, 0x0, 0x0, 0x0, 0x0, 0x0, 0, 0⟩ /- RING_TRK R424 -/ ]

/-- The registers of TIL, spec/13_tiller_motion.md. -/
def rowsTIL : List RegRow :=
  [ ⟨0x0, 1, 0x4, 1, 0x4, 0x0, 0x0, 0x0, 0x0, 0x160, 0, 0⟩ /- TIL_ID R457 -/
  , ⟨0x4, 1, 0x4, 1, 0x4, 0x0, 0x0, 0x0, 0x0, 0x0, 0, 0⟩ /- TIL_STAT R457 -/
  , ⟨0x8, 1, 0x4, 1, 0x4, 0x0, 0x0, 0x0, 0x0, 0x0, 0, 0⟩ /- TIL_CTL R457 -/
  , ⟨0x1000, 8, 0x100, 1, 0x4, 0xFEF0FFFF, 0x0, 0x0, 0x0, 0x8006414, 0, 0⟩ /- AX_CFG R457 -/
  , ⟨0x1004, 8, 0x100, 1, 0x4, 0xFF00FF, 0x0, 0x0, 0x0, 0x400080, 0, 0⟩ /- AX_CUR R457 -/
  , ⟨0x1008, 8, 0x100, 1, 0x4, 0xFFF0FFFF, 0x0, 0x0, 0x0, 0x1E400F32, 0, 0⟩ /- AX_CHOP R457 -/
  , ⟨0x1010, 8, 0x100, 1, 0x4, 0xFFFFFFFF, 0x0, 0x0, 0x0, 0x0, 0, 0⟩ /- AX_VLAUNCH R457 -/
  , ⟨0x1014, 8, 0x100, 1, 0x4, 0xFFFFFFFF, 0x0, 0x0, 0x0, 0x0, 0, 0⟩ /- AX_VKNEE R457 -/
  , ⟨0x1018, 8, 0x100, 1, 0x4, 0xFFFFFFFF, 0x0, 0x0, 0x0, 0x0, 0, 0⟩ /- AX_VCRUISE R457 -/
  , ⟨0x101C, 8, 0x100, 1, 0x4, 0xFFFFFFFF, 0x0, 0x0, 0x0, 0x0, 0, 0⟩ /- AX_VLAND R457 -/
  , ⟨0x1020, 8, 0x100, 1, 0x4, 0xFFFFFFFF, 0x0, 0x0, 0x0, 0x0, 0, 0⟩ /- AX_ALOW R457 -/
  , ⟨0x1024, 8, 0x100, 1, 0x4, 0xFFFFFFFF, 0x0, 0x0, 0x0, 0x0, 0, 0⟩ /- AX_AHIGH R457 -/
  , ⟨0x1028, 8, 0x100, 1, 0x4, 0xFFFFFFFF, 0x0, 0x0, 0x0, 0x0, 0, 0⟩ /- AX_DHIGH R457 -/
  , ⟨0x102C, 8, 0x100, 1, 0x4, 0xFFFFFFFF, 0x0, 0x0, 0x0, 0x0, 0, 0⟩ /- AX_DLOW R457 -/
  , ⟨0x1030, 8, 0x100, 1, 0x4, 0xFFFFF0FF, 0x0, 0x0, 0x0, 0x1003008, 0, 0⟩ /- AX_STALL R457 -/
  , ⟨0x1034, 8, 0x100, 1, 0x4, 0xFFFFFFFF, 0x0, 0x0, 0x0, 0x0, 0, 0⟩ /- AX_BEMFK R457 -/
  , ⟨0x1038, 8, 0x100, 1, 0x4, 0xFFFFFFFF, 0x0, 0x0, 0x0, 0x10000, 0, 0⟩ /- AX_KENC R457 -/
  , ⟨0x1040, 8, 0x100, 8, 0x10, 0xFFFFFFFF, 0x0, 0x0, 0x0, 0x0, 0, 0⟩ /- AX_BAND_V R457 -/
  , ⟨0x1044, 8, 0x100, 8, 0x10, 0xFFFF, 0x0, 0x0, 0x0, 0x0, 0, 0⟩ /- AX_BAND_MIN R457 -/
  , ⟨0x1048, 8, 0x100, 8, 0x10, 0xFFFFFFFF, 0x0, 0x0, 0x0, 0xFFFF0000, 0, 0⟩ /- AX_BAND_CAL R457 -/
  , ⟨0x10C0, 8, 0x100, 1, 0x4, 0x0, 0x0, 0x0, 0x0, 0x0, 0, 0⟩ /- AX_CTL R458 -/
  , ⟨0x10C4, 8, 0x100, 1, 0x4, 0xFFFFFFFF, 0x0, 0x0, 0x0, 0x0, 0, 0⟩ /- AX_XSET R458 -/
  , ⟨0x10C8, 8, 0x100, 1, 0x4, 0x0, 0x0, 0x0, 0x0, 0x0, 0, 0⟩ /- AX_STAT R458 -/
  , ⟨0x10CC, 8, 0x100, 1, 0x4, 0x0, 0x0, 0x0, 0x0, 0x0, 0, 0⟩ /- AX_XACT R458 -/
  , ⟨0x10D0, 8, 0x100, 1, 0x4, 0x0, 0x0, 0x0, 0x0, 0x0, 0, 0⟩ /- AX_XTGT R458 -/
  , ⟨0x10D4, 8, 0x100, 1, 0x4, 0x0, 0x0, 0x0, 0x0, 0x0, 0, 0⟩ /- AX_VACT R458 -/
  , ⟨0x10D8, 8, 0x100, 1, 0x4, 0x0, 0x0, 0x0, 0x0, 0x0, 0, 0⟩ /- AX_LOAD R458 -/
  , ⟨0x10DC, 8, 0x100, 1, 0x4, 0x0, 0x0, 0x0, 0x0, 0x0, 0, 0⟩ /- AX_MS R458 -/
  , ⟨0x10E0, 8, 0x100, 1, 0x4, 0xFFFFFFFF, 0x0, 0x0, 0x0, 0x0, 0, 0⟩ /- AX_CNT R458 -/
  , ⟨0x8000, 8, 0x1000, 1024, 0x4, 0xFFFFFFFF, 0x0, 0x0, 0x0, 0x0, 0, 0⟩ /- AX_TABLE R458 -/ ]

/-- The registers of HK, spec/14_thermal_supervision.md. -/
def rowsHK : List RegRow :=
  [ ⟨0x0, 1, 0x4, 1, 0x4, 0x0, 0x0, 0x0, 0x0, 0x170, 0, 0⟩ /- HK_ID R477 -/
  , ⟨0x4, 1, 0x4, 1, 0x4, 0xFF, 0x0, 0x0, 0x0, 0xA, 0, 0⟩ /- HK_CFG R477 -/
  , ⟨0x8, 1, 0x4, 1, 0x4, 0x0, 0x0, 0x0, 0x0, 0x0, 0, 0⟩ /- HK_STAT R477 -/
  , ⟨0xC, 1, 0x4, 1, 0x4, 0x0, 0x0, 0x0, 0x0, 0x0, 0, 0⟩ /- HK_DIE R477 -/
  , ⟨0x10, 1, 0x4, 1, 0x4, 0xFFFFFFFF, 0x0, 0x0, 0x0, 0x0, 0, 0⟩ /- HK_CNT_ROUND R477 -/
  , ⟨0x14, 1, 0x4, 1, 0x4, 0xFFFFFFFF, 0x0, 0x0, 0x0, 0x0, 0, 0⟩ /- HK_CNT_INVALID R477 -/
  , ⟨0x100, 16, 0x4, 1, 0x4, 0xFFFF000F, 0x0, 0x0, 0x0, 0x2, 0, 0⟩ /- HK_HEAD_THR R477 -/
  , ⟨0x400, 4, 0x100, 33, 0x4, 0xFFFF, 0x0, 0x0, 0x0, 0x0, 0, 0⟩ /- HK_TTAB R477 -/
  , ⟨0x1000, 96, 0x20, 1, 0x4, 0x0, 0x0, 0x0, 0x0, 0x0, 0, 0⟩ /- HK_CH_VAL R478 -/
  , ⟨0x1004, 96, 0x20, 1, 0x4, 0x0, 0x0, 0x0, 0x0, 0x0, 0, 0⟩ /- HK_CH_RAW R478 -/
  , ⟨0x1008, 96, 0x20, 1, 0x4, 0xFFFFFFFF, 0x0, 0x0, 0x0, 0x0, 0, 0⟩ /- HK_CH_LIM0 R478 -/
  , ⟨0x100C, 96, 0x20, 1, 0x4, 0xFFFFFF0F, 0x0, 0x0, 0x0, 0x0, 0, 0⟩ /- HK_CH_LIM1 R478 -/
  , ⟨0x1010, 96, 0x20, 1, 0x4, 0xF000031F, 0x0, 0x0, 0x0, 0x0, 0, 0⟩ /- HK_CH_CFG R478 -/ ]

/-- The registers of RAKE, spec/15_rake_fault_handling.md. -/
def rowsRAKE : List RegRow :=
  [ ⟨0x0, 1, 0x4, 1, 0x4, 0x0, 0x0, 0x0, 0x0, 0x180, 0, 0⟩ /- RAKE_ID R502 -/
  , ⟨0x4, 1, 0x4, 1, 0x4, 0xC00003FF, 0x0, 0x0, 0x0, 0x80000001, 0, 0⟩ /- RAKE_CFG R502 -/
  , ⟨0x8, 1, 0x4, 1, 0x4, 0x80000000, 0x0, 0x0, 0x0, 0x0, 0, 0⟩ /- RAKE_ERRN R502 -/
  , ⟨0xC, 1, 0x4, 1, 0x4, 0x0, 0x0, 0x0, 0x0, 0x0, 0, 0⟩ /- RAKE_CTL R502 -/
  , ⟨0x10, 1, 0x4, 1, 0x4, 0xC0000FFF, 0x0, 0x0, 0xC0000FFF, 0x0, 0, 0⟩ /- RAKE_FIRST_SRC R502 -/
  , ⟨0x14, 1, 0x4, 1, 0x4, 0xFFFFFFFF, 0x0, 0x0, 0xFFFFFFFF, 0x0, 0, 2⟩ /- RAKE_FIRST_TB_LO R502 -/
  , ⟨0x18, 1, 0x4, 1, 0x4, 0xFFFFFFFF, 0x0, 0x0, 0xFFFFFFFF, 0x0, 1, 2⟩ /- RAKE_FIRST_TB_HI R502 -/
  , ⟨0x1C, 1, 0x4, 1, 0x4, 0xFFFFFFFF, 0x0, 0x0, 0xFFFFFFFF, 0x0, 0, 2⟩ /- RAKE_FIRST_SYND_LO R502 -/
  , ⟨0x20, 1, 0x4, 1, 0x4, 0xFFFFFFFF, 0x0, 0x0, 0xFFFFFFFF, 0x0, 1, 2⟩ /- RAKE_FIRST_SYND_HI R502 -/
  , ⟨0x24, 1, 0x4, 1, 0x4, 0xFFFFFFFF, 0x0, 0x0, 0xFFFFFFFF, 0x0, 0, 0⟩ /- RAKE_CNT_FATAL R502 -/
  , ⟨0x28, 1, 0x4, 1, 0x4, 0xFFFFFFFF, 0x0, 0x0, 0xFFFFFFFF, 0x0, 0, 0⟩ /- RAKE_CNT_CONT R502 -/
  , ⟨0x2C, 1, 0x4, 1, 0x4, 0xFFFFFFFF, 0x0, 0x0, 0xFFFFFFFF, 0x0, 0, 0⟩ /- RAKE_CNT_CORR R502 -/
  , ⟨0x40, 1, 0x4, 1, 0x4, 0xFFFFF3FF, 0x0, 0x0, 0x0, 0x2583064, 0, 0⟩ /- RAKE_THAW_DEV R502 -/
  , ⟨0x44, 1, 0x4, 1, 0x4, 0xFFFFF3FF, 0x0, 0x0, 0x0, 0x2583064, 0, 0⟩ /- RAKE_THAW_PORT R502 -/
  , ⟨0x48, 1, 0x4, 1, 0x4, 0xFFFFF3FF, 0x0, 0x0, 0x0, 0x258300A, 0, 0⟩ /- RAKE_THAW_CTX R502 -/
  , ⟨0x60, 1, 0x4, 1, 0x4, 0xE30003FF, 0x0, 0x0, 0x0, 0x1000000, 0, 0⟩ /- RAKE_INJ_CTL R502 -/
  , ⟨0x64, 1, 0x4, 1, 0x4, 0xFFFFF, 0x0, 0x0, 0x0, 0x3E8, 0, 0⟩ /- RAKE_INJ_PER R502 -/
  , ⟨0x68, 1, 0x4, 1, 0x4, 0xFFFFFFFF, 0x0, 0x0, 0x0, 0x0, 0, 0⟩ /- RAKE_INJ_STAT R502 -/
  , ⟨0x1000, 1024, 0x4, 1, 0x4, 0x30000000, 0x0, 0x0, 0x0, 0x0, 0, 0⟩ /- RAKE_SRC_CFG R503 -/
  , ⟨0x2000, 1024, 0x4, 1, 0x4, 0xFFFF, 0x20000000, 0x0, 0x0, 0x0, 0, 0⟩ /- RAKE_SRC_CNT R503 -/
  , ⟨0x4000, 1024, 0x4, 1, 0x4, 0xFFFF, 0x0, 0x0, 0xFFFF, 0x0, 0, 0⟩ /- RAKE_SCOPE R503 -/ ]

/-- The registers of PF, spec/16_permafrost_otp.md. -/
def rowsPF : List RegRow :=
  [ ⟨0x0, 1, 0x4, 1, 0x4, 0x0, 0x0, 0x0, 0x0, 0x190, 0, 0⟩ /- PF_ID R530 -/
  , ⟨0x4, 1, 0x4, 1, 0x4, 0x0, 0x0, 0x0, 0x0, 0x0, 0, 0⟩ /- PF_STAT R530 -/
  , ⟨0x8, 1, 0x4, 1, 0x4, 0x0, 0x0, 0xFF, 0x0, 0x0, 0, 0⟩ /- PF_LOCK_SET R530 -/
  , ⟨0xC, 1, 0x4, 1, 0x4, 0x0, 0x0, 0x0, 0x0, 0x0, 0, 0⟩ /- PF_LOCK_PERM R530 -/
  , ⟨0x10, 1, 0x4, 1, 0x4, 0x0, 0x0, 0x0, 0x0, 0x0, 0, 0⟩ /- PF_CTL R530 -/
  , ⟨0x14, 1, 0x4, 1, 0x4, 0x3FF, 0x0, 0x0, 0x0, 0x0, 0, 0⟩ /- PF_PROG_CTL R530 -/
  , ⟨0x18, 1, 0x4, 1, 0x4, 0xFFFFFFFF, 0x0, 0x0, 0x0, 0x0, 0, 2⟩ /- PF_PROG_DATA_LO R530 -/
  , ⟨0x1C, 1, 0x4, 1, 0x4, 0xFFFFFFFF, 0x0, 0x0, 0x0, 0x0, 1, 2⟩ /- PF_PROG_DATA_HI R530 -/
  , ⟨0x40, 8, 0x4, 1, 0x4, 0x0, 0x0, 0x0, 0x0, 0x0, 0, 0⟩ /- PF_REG R530 -/
  , ⟨0x60, 8, 0x4, 1, 0x4, 0x0, 0x0, 0x0, 0x0, 0x0, 0, 0⟩ /- PF_SCAN R529 -/
  , ⟨0x80, 1, 0x4, 1, 0x4, 0x0, 0x0, 0x0, 0x0, 0x0, 0, 0⟩ /- PF_SCAN_STAT R530 -/
  , ⟨0x10000, 2048, 0x4, 1, 0x4, 0x0, 0x0, 0x0, 0x0, 0x0, 0, 0⟩ /- PF_WORD R529 -/ ]

/-- The registers of SVC, spec/17_firmware_update.md. -/
def rowsSVC : List RegRow :=
  [ ⟨0x0, 1, 0x4, 1, 0x4, 0x0, 0x0, 0x0, 0x0, 0x1A0, 0, 0⟩ /- SVC_ID R559 -/
  , ⟨0x4, 1, 0x4, 1, 0x4, 0x0, 0x0, 0x0, 0x0, 0x0, 0, 0⟩ /- SVC_STAT R559 -/
  , ⟨0x8, 1, 0x4, 1, 0x4, 0x0, 0x0, 0x0, 0x0, 0x0, 0, 0⟩ /- SVC_SESSION R559 -/
  , ⟨0xC, 1, 0x4, 1, 0x4, 0x3, 0x0, 0x0, 0x0, 0x0, 0, 0⟩ /- SVC_MPWIN R559 -/
  , ⟨0x10, 1, 0x4, 1, 0x4, 0x0, 0x0, 0x0, 0x0, 0x0, 0, 0⟩ /- SVC_BOOT R559 -/
  , ⟨0x14, 1, 0x4, 1, 0x4, 0x0, 0x0, 0x0, 0x0, 0x0, 0, 0⟩ /- SVC_VER_ACT R559 -/
  , ⟨0x18, 1, 0x4, 1, 0x4, 0x0, 0x0, 0x0, 0x0, 0x0, 0, 0⟩ /- SVC_VER_INACT R559 -/
  , ⟨0x1C, 1, 0x4, 1, 0x4, 0x0, 0x0, 0x0, 0x0, 0x0, 0, 0⟩ /- SVC_ARB R559 -/
  , ⟨0x20, 1, 0x4, 1, 0x4, 0xFFFF, 0x0, 0x0, 0x0, 0x0, 0, 0⟩ /- SVC_UPD_CFG R559 -/ ]

/-- The registers of PCR, spec/18_power_clocks_reset.md. -/
def rowsPCR : List RegRow :=
  [ ⟨0x0, 1, 0x4, 1, 0x4, 0x0, 0x0, 0x0, 0x0, 0x1B0, 0, 0⟩ /- PCR_ID R584 -/
  , ⟨0x4, 1, 0x4, 1, 0x4, 0x0, 0x0, 0x0, 0x0, 0x0, 0, 0⟩ /- PCR_STAT R584 -/
  , ⟨0x8, 1, 0x4, 1, 0x4, 0xFC001FFF, 0x0, 0x0, 0xFC001FFF, 0x80000000, 0, 0⟩ /- PCR_RST_CAUSE R584 -/
  , ⟨0xC, 1, 0x4, 1, 0x4, 0x0, 0x0, 0x0, 0x0, 0x0, 0, 0⟩ /- PCR_RST R584 -/
  , ⟨0x10, 1, 0x4, 1, 0x4, 0x3FFF, 0x0, 0x0, 0x0, 0x0, 0, 0⟩ /- PCR_DOM_CTL R584 -/
  , ⟨0x14, 1, 0x4, 1, 0x4, 0x0, 0x0, 0x0, 0x0, 0x0, 0, 0⟩ /- PCR_DOM_RST R584 -/
  , ⟨0x18, 1, 0x4, 1, 0x4, 0x0, 0x0, 0x0, 0x0, 0x0, 0, 0⟩ /- PCR_DOM_STAT R584 -/
  , ⟨0x20, 1, 0x4, 1, 0x4, 0x0, 0x0, 0xFFFF, 0x0, 0x0, 0, 0⟩ /- PCR_RET_PORT R584 -/
  , ⟨0x24, 1, 0x4, 1, 0x4, 0x0, 0x0, 0xFFFFFFFF, 0x0, 0x0, 0, 2⟩ /- PCR_RET_BANK_LO R584 -/
  , ⟨0x28, 1, 0x4, 1, 0x4, 0x0, 0x0, 0xFFFFFFFF, 0x0, 0x0, 1, 2⟩ /- PCR_RET_BANK_HI R584 -/
  , ⟨0x40, 8, 0x4, 1, 0x4, 0x0, 0x0, 0xFFFFFFFF, 0x0, 0x0, 0, 0⟩ /- PCR_RET_CTX R584 -/
  , ⟨0x60, 1, 0x4, 1, 0x4, 0x0, 0x0, 0x0, 0x0, 0x0, 0, 0⟩ /- PCR_SUP_STAT R584 -/
  , ⟨0x64, 1, 0x4, 1, 0x4, 0x1F, 0x0, 0x0, 0x0, 0x140000, 0, 0⟩ /- PCR_AVS R584 -/
  , ⟨0x68, 1, 0x4, 1, 0x4, 0x0, 0x0, 0x0, 0x0, 0x0, 0, 0⟩ /- PCR_PLL_STAT R584 -/
  , ⟨0x6C, 1, 0x4, 1, 0x4, 0xFFFFFFFF, 0x0, 0x0, 0x0, 0xA0000000, 0, 0⟩ /- PCR_TB_INC R584 -/
  , ⟨0x70, 1, 0x4, 1, 0x4, 0x800003FF, 0x0, 0x0, 0x0, 0x800000FA, 0, 0⟩ /- PCR_WDOG R584 -/
  , ⟨0x74, 1, 0x4, 1, 0x4, 0xFF0000, 0x0, 0x0, 0x0, 0x0, 0, 0⟩ /- PCR_MP_LOAD R584 -/
  , ⟨0x78, 1, 0x4, 1, 0x4, 0x0, 0x0, 0x0, 0x0, 0x0, 0, 2⟩ /- PCR_TB_LO R584 -/
  , ⟨0x7C, 1, 0x4, 1, 0x4, 0x0, 0x0, 0x0, 0x0, 0x0, 1, 2⟩ /- PCR_TB_HI R584 -/
  , ⟨0x80, 13, 0x4, 1, 0x4, 0xFFFFFFFF, 0x0, 0x0, 0x0, 0x0, 0, 0⟩ /- PCR_SUP_CNT R584 -/ ]

/-- The registers of HF, spec/19_hoarfrost_freeze.md. -/
def rowsHF : List RegRow :=
  [ ⟨0x0, 1, 0x4, 1, 0x4, 0x0, 0x0, 0x0, 0x0, 0x1C0, 0, 0⟩ /- HF_ID R598 -/
  , ⟨0x4, 1, 0x4, 1, 0x4, 0xC000FFFF, 0x0, 0x0, 0x0, 0x0, 0, 0⟩ /- HF_CFG R598 -/
  , ⟨0x8, 1, 0x4, 1, 0x4, 0x0, 0x0, 0x0, 0x0, 0x0, 0, 0⟩ /- HF_CTL R598 -/
  , ⟨0xC, 1, 0x4, 1, 0x4, 0x38000000, 0x0, 0x0, 0x38000000, 0x0, 0, 0⟩ /- HF_STAT R598 -/
  , ⟨0x10, 1, 0x4, 1, 0x4, 0xFFFFFFFF, 0x0, 0x0, 0xFFFFFFFF, 0x0, 0, 2⟩ /- HF_TB_LO R598 -/
  , ⟨0x14, 1, 0x4, 1, 0x4, 0xFFFFFFFF, 0x0, 0x0, 0xFFFFFFFF, 0x0, 1, 2⟩ /- HF_TB_HI R598 -/
  , ⟨0x18, 1, 0x4, 1, 0x4, 0xFFFFFFFF, 0x0, 0x0, 0xFFFFFFFF, 0x0, 0, 0⟩ /- HF_CNT R598 -/ ]

/-- The blocks of the device address map (R40), with the power domain that holds each. -/
def regBlocks : List RegBlock :=
  [ ⟨.host, 0x4D00000, 1, 0x10000, 0x10000, .host, rowsHOST⟩
  , ⟨.db, 0x4D10000, 1, 0x1000, 0x1000, .host, rowsDB⟩
  , ⟨.ctx, 0x4000000, 255, 0x1000, 0x1000, .place, rowsCTX⟩
  , ⟨.dib, 0x4100000, 1, 0x40000, 0x40000, .place, rowsDIB⟩
  , ⟨.esp, 0x4160000, 1, 0x20000, 0x20000, .ds0, rowsESP⟩
  , ⟨.shr, 0x4140000, 1, 0x20000, 0x20000, .place, rowsSHR⟩
  , ⟨.grf, 0x4180000, 1, 0x80000, 0x80000, .place, rowsGRF⟩
  , ⟨.port, 0x4200000, 16, 0x10000, 0x10000, .hpg, rowsPORT⟩
  , ⟨.wram, 0x4300000, 16, 0x10000, 0x10000, .hpg, rowsWRAM⟩
  , ⟨.crv, 0x4E00000, 1, 0x100000, 0x100000, .place, rowsCRV⟩
  , ⟨.cons, 0x4F00000, 1, 0x100000, 0x100000, .mgmt, rowsCONS⟩
  , ⟨.bar, 0x4400000, 1, 0x40000, 0x40000, .host, rowsBAR⟩
  , ⟨.buf, 0x4440000, 1, 0x40000, 0x40000, .host, rowsBUF⟩
  , ⟨.ring, 0x4500000, 1, 0x100000, 0x100000, .ring, rowsRING⟩
  , ⟨.til, 0x4600000, 1, 0x100000, 0x100000, .motion, rowsTIL⟩
  , ⟨.hk, 0x4700000, 1, 0x100000, 0x100000, .hk, rowsHK⟩
  , ⟨.rake, 0x4800000, 1, 0x100000, 0x100000, .aon, rowsRAKE⟩
  , ⟨.pf, 0x4900000, 1, 0x100000, 0x100000, .aon, rowsPF⟩
  , ⟨.svc, 0x4A00000, 1, 0x80000, 0x80000, .service, rowsSVC⟩
  , ⟨.pcr, 0x4B00000, 1, 0x100000, 0x100000, .aon, rowsPCR⟩
  , ⟨.hf, 0x4C00000, 1, 0x100000, 0x100000, .aon, rowsHF⟩ ]

end Sys2Proof.Machine
end

