-- ==== Sys2Proof/Machine/Sources.lean ====
section
/-! DEFINITION. The sources of Rake and the islands they lie in (R24, R482). -/

namespace Sys2Proof.Machine

/-- A source of R482: its class or reset severity (0 ignore, 1 corrected, 2 contained, 3 fatal), whether that is programmable, its
kind (0 firing-path, 1 dot-data, 2 host traffic, 3 management), and its scope, 0x3FF for none. -/
structure Source where
  sev   : Nat
  prog  : Bool
  kind  : Nat
  scope : Nat
  deriving DecidableEq, Repr

/-- The sources of host traffic and of management, from 0x200, as class and kind. -/
def hostSources : List (Nat × Nat) :=
  [(0, 2), (1, 2), (2, 2), (2, 2), (2, 2), (1, 2), (1, 2), (2, 2), (2, 3), (1, 3), (2, 3), (2, 3)]

/-- The ten sources from 0x000 (R482). -/
def firstSources : List Source :=
  [⟨3, false, 0, 0⟩, ⟨3, false, 0, 0⟩, ⟨3, false, 0, 0⟩, ⟨2, false, 0, 0x3FF⟩, ⟨1, false, 0, 0x3FF⟩, ⟨1, false, 0, 0x3FF⟩,
   ⟨2, false, 0, 0x3FF⟩, ⟨2, false, 0, 0x3FF⟩, ⟨1, false, 1, 0x3FF⟩, ⟨2, false, 1, 0x3FF⟩]

/-- The sources of a head port, from 0x040 in sixteens (R482). -/
def portSource (k p : Nat) : Source :=
  match k with
  | 4 => ⟨3, false, 0, 0x100 + p⟩
  | 5 => ⟨3, false, 0, 0x100 + p⟩
  | 6 => ⟨2, false, 0, 0x3FF⟩
  | 7 => ⟨2, false, 0, 0x3FF⟩
  | 8 => ⟨3, false, 1, 0x100 + p⟩
  | 9 => ⟨1, false, 1, 0x3FF⟩
  | _ => ⟨2, false, 1, 0x3FF⟩

/-- The source of a number, where R482 lists one. -/
def sourceOf (n : Nat) : Option Source :=
  if n < 0x00A then firstSources[n]?
  else if 0x040 ≤ n ∧ n < 0x0B0 then some (portSource (n / 16) (n % 16))
  else if 0x100 ≤ n ∧ n ≤ 0x1FE then some ⟨3, false, 0, 0x200 + (n - 0x100)⟩
  else if 0x200 ≤ n ∧ n < 0x20C then (hostSources[n - 0x200]?).map (fun x => ⟨x.1, true, x.2, 0⟩)
  else if 0x210 ≤ n ∧ n < 0x228 then some ⟨1, true, 3, 0⟩
  else none

/-- The reset word of RAKE_SRCn_CFG (R482, R503); that of a number not listed is 0. -/
def sourceWord (n : Nat) : Nat :=
  match sourceOf n with
  | none => 0
  | some x => 2 ^ 31 + (if x.prog then 2 ^ 30 else 0) + x.sev * 2 ^ 28 + x.kind * 2 ^ 24 + x.scope

/-- The island in which a source lies, numbered as TINE_LOST numbers them (R482), with the syndrome for a TB mirror. -/
def sourceIsland (n low : Nat) : Nat :=
  if n = 0x003 then (if low % 32 < 16 then 6 + low % 32 else 5)
  else if n = 0x000 ∨ (0x050 ≤ n ∧ n < 0x060) then 24
  else if n = 0x007 ∨ n = 0x205 then 22
  else if n = 0x008 ∨ n = 0x009 then 4
  else if 0x040 ≤ n ∧ n < 0x0B0 then 6 + n % 16
  else if n = 0x203 ∨ n = 0x204 then 3
  else if 0x208 ≤ n ∧ n < 0x210 then 1
  else if 0x210 ≤ n ∧ n < 0x228 then 23
  else if 0x200 ≤ n then 2
  else 5

end Sys2Proof.Machine
end

