-- ==== Sys2Proof/Machine/Ops.lean ====
section
/-! DEFINITION. The named operations over registers, memory, reports, events and completions that the meanings share. -/

namespace Sys2Proof.Machine

/-- Whether `units` TB units have passed since TB `t`. -/
def State.past (s : State) (t units : Nat) : Bool := decide (t + units ≤ s.tb.toNat)

/-! ## Registers -/

/-- The block that an address lies in, the copy of it, and the offset within the copy (R40). -/
def blockOf (a : Nat) : Option (RegBlock × Nat × Nat) :=
  (regBlocks.find? (fun b => decide (b.base ≤ a) && decide ((a - b.base) / b.stride < b.copies)
      && decide ((a - b.base) % b.stride < b.size))).map
    (fun b => (b, (a - b.base) / b.stride, (a - b.base) % b.stride))

/-- Whether a row of a register table holds the word at offset `off`. -/
def RegRow.holds (r : RegRow) (off : Nat) : Bool :=
  decide (r.off ≤ off) && decide ((off - r.off) / r.st1 < r.n1) &&
  (if r.n2 = 1 then decide ((off - r.off) % r.st1 = 0)
   else decide ((off - r.off) % r.st1 % r.st2 = 0) && decide ((off - r.off) % r.st1 / r.st2 < r.n2))

/-- The row of the register map for an address, if it lies in a register (R16). -/
def rowOf (a : Nat) : Option RegRow :=
  (blockOf a).bind (fun x => x.1.rows.find? (fun r => r.holds x.2.2))

/-- The limits of a housekeeping channel at reset, by its class (R478): LIM0 and LIM1. -/
def chanLimits (c : Nat) : Nat × Nat :=
  if c < 24 then (0x069005F0, 0x07D00005)
  else if c < 32 then (0x07300640, 0x07D00005)
  else if c < 40 then (0x05000460, 0x05A00005)
  else if c < 56 then (0x03700320, 0x03C01403)
  else (0, 0)

/-- The three words of a housekeeping channel from +0x08 at reset (R478): limits, and FITTED with the group of an on-die sensor. -/
def chanWord (c i : Nat) : Nat :=
  match i with
  | 2 => (chanLimits c).1
  | 3 => (chanLimits c).2
  | 4 => if c < 24 then 0x80000000 + 16 + c / 3 else if c < 56 then 0x80000000 else 0
  | _ => 0

/-- The reset values that a table gives as a rule and not as a number: unit numbers of copied blocks (R96, R285), the microstep tables
(R428), the channel limits (R478), the sources of Rake (R482), and the mask bit of an MSI-X vector, set at reset by the PCI Express
Base Specification (R63; PRESUMED, log entry 2). -/
def ruledReset (b : BlockName) (copy off : Nat) : Nat :=
  match b with
  | .ctx => if off = 0 then copy else 0
  | .port => if off = 0 then 0x20 + copy else 0
  | .til => if 0x8000 ≤ off then microstepWord ((off - 0x8000) / 4) else 0
  | .hk => if 0x1000 ≤ off ∧ off < 0x1C00 then chanWord ((off - 0x1000) / 32) ((off - 0x1000) % 32 / 4) else 0
  | .rake => if 0x1000 ≤ off ∧ off < 0x2000 then sourceWord ((off - 0x1000) / 4) else 0
  | .host => if 0x8000 ≤ off ∧ off < 0x8400 ∧ off % 16 = 12 then 1 else 0
  | _ => 0

/-- The reset value of the register word at an address (R18); 0 where no register lies (R16). -/
def resetWord (a : Nat) : Word :=
  match blockOf a with
  | none => 0
  | some (b, c, off) =>
    match b.rows.find? (fun r => r.holds off) with
    | none => 0
    | some r => BitVec.ofNat 32 (r.reset + ruledReset b.name c off)

/-- The word that the register at an address holds. -/
def State.getReg (s : State) (a : Nat) : Word := Store.get resetWord s.regs a

/-- The state with the register at an address holding `v`. -/
def State.setReg (s : State) (a : Nat) (v : Word) : State := { s with regs := Store.put resetWord s.regs a v }

/-- The value of a register field. -/
def State.rd (s : State) (f : Fld) : Nat := bitsOf (s.getReg f.addr) f.hi f.lo

/-- Whether a one-bit field is set. -/
def State.on (s : State) (f : Fld) : Bool := decide (s.rd f ≠ 0)

/-- The state with a register field set to `v`, cut to the field's width. -/
def State.wr (s : State) (f : Fld) (v : Nat) : State := s.setReg f.addr (withBits (s.getReg f.addr) f.hi f.lo v)

/-- A one-bit field set or cleared. -/
def State.wrBit (s : State) (f : Fld) (b : Bool) : State := s.wr f (if b then 1 else 0)

/-- A counter field that wraps, one up (R14). -/
def State.bump (s : State) (f : Fld) : State := s.wr f (wrapAdd (f.hi + 1 - f.lo) (s.rd f) 1)

/-- A counter field that saturates, one up (R14). -/
def State.bumpSat (s : State) (f : Fld) : State := s.wr f (satAdd (f.hi + 1 - f.lo) (s.rd f) 1)

/-- The number in two consecutive registers, low word first (R19). -/
def State.rd64 (s : State) (lo : Nat) : Nat := (s.getReg lo).toNat + 2 ^ 32 * (s.getReg (lo + 4)).toNat

/-- Two consecutive registers set to a number, low word first (R19). -/
def State.wr64 (s : State) (lo : Nat) (v : Nat) : State :=
  (s.setReg lo (BitVec.ofNat 32 v)).setReg (lo + 4) (BitVec.ofNat 32 (v / 2 ^ 32))

/-- The identity of a master (R45). -/
def masterCode : Master → Nat
  | .host => 1
  | .mp => 2
  | .service => 3
  | .tunnel st => 0x40 + st.val

/-- The key under which a master's snapshot or staged word of an address stands (R19, R20). The tunnel counts as one master for each ring
station it serves, where R19 and R20 list it as one (DESIGN CHOICE, log entries 97 and 98). -/
def masterKey (m : Master) (a : Nat) : Nat := masterCode m * 2 ^ 28 + a

/-- A word of a register after a master's write of `v`, by the access codes of its row (R17). -/
def RegRow.written (r : RegRow) (old v : Word) : Word :=
  let rw := BitVec.ofNat 32 r.rw
  let c  := BitVec.ofNat 32 r.w1c
  let st := BitVec.ofNat 32 r.w1s
  (((old &&& ~~~rw) ||| (v &&& rw)) &&& ~~~(v &&& c)) ||| (v &&& st)

/-- The lower words of a wide value taken from a master's staging copy (R20): word `i` of the `k` below the top one. -/
def State.unstage (m : Master) (r : RegRow) (top : Nat) : Nat → State → State
  | 0, s => s
  | k + 1, s =>
    let a := top - 4 * (k + 1)
    let s := match Store.get (fun _ => none) s.staged (masterKey m a) with
      | none => s
      | some w => s.setReg a ((rowOf a).elim (s.getReg a) (fun q => q.written (s.getReg a) w))
    State.unstage m r top k s

/-- A master's write of a register by its access code alone (R17), with the staging of wide values (R20). Reserved bits and
offsets are unaffected (R16). -/
def State.writeCode (s : State) (m : Master) (a : Nat) (v : Word) : State :=
  match rowOf a with
  | none => s
  | some r =>
    if r.wlen > 1 ∧ r.rw ≠ 0 then
      if r.wide + 1 < r.wlen then
        { s with staged := Store.put (fun _ => none) s.staged (masterKey m a) (some v) }
      else
        let s := State.unstage m r a (r.wlen - 1) s
        s.setReg a (r.written (s.getReg a) v)
    else s.setReg a (r.written (s.getReg a) v)

/-! ## Domains, presence and reach (R3, R4, R22, R27) -/

/-- The code of a domain (R560). -/
def domCode : Domain → Nat
  | .aon => 0
  | .mgmt => 1
  | .service => 2
  | .host => 3
  | .ring => 4
  | .ds0 => 5
  | .ds1 => 6
  | .place => 7
  | .hpg g => 8 + g.val
  | .motion => 12
  | .hk => 13

/-- The field of PCR_DOM_STAT that shows a domain's state: 0 OFF, 1 POWERING, 2 ON, 3 ABSENT (R584). -/
def domField (d : Domain) : Fld := ⟨Reg.PCR_DOM_STAT, 2 * domCode d + 1, 2 * domCode d⟩

/-- Whether a domain is ON. AON holds the power control itself and is never off (R561). -/
def State.domOn (s : State) (d : Domain) : Bool := decide (d = .aon) || decide (s.rd (domField d) = 2)

/-- The power group of a head port (R24). -/
def portGroup (p : Nat) : Fin 4 := Fin.ofNat 4 (p / 4)

/-- The domain of a copy of a block (R24). -/
def blockDomain (d : BlockDom) (copy : Nat) : Domain :=
  match d with
  | .aon => .aon
  | .mgmt => .mgmt
  | .host => .host
  | .ds0 => .ds0
  | .place => .place
  | .hpg => .hpg (portGroup copy)
  | .ring => .ring
  | .motion => .motion
  | .hk => .hk
  | .service => .service

/-- Whether head port `p` is present and not retired (R1, R3, R564). -/
def State.portPresent (s : State) (p : Nat) : Bool :=
  s.units.ports.getLsbD p && !bitOf (s.getReg Reg.PCR_RET_PORT) p

/-- Whether context `n` is present and not retired. -/
def State.ctxPresent (s : State) (n : Nat) : Bool :=
  decide (n ≤ s.units.ctxLast) && !bitOf (s.getReg (Reg.PCR_RET_CTX (n / 32))) (n % 32)

/-- Whether dot-store bank `b` is present and not retired (R180). -/
def State.bankPresent (s : State) (b : Nat) : Bool :=
  s.units.banks.getLsbD b && !(s.rd64 Reg.PCR_RET_BANK_LO).testBit b

/-- Whether the unit behind a copy of a block is present and not retired (R4). -/
def State.copyPresent (s : State) (b : BlockName) (copy : Nat) : Bool :=
  match b with
  | .ctx => s.ctxPresent copy
  | .port => s.portPresent copy
  | .wram => s.portPresent copy
  | _ => true

/-- Whether the unit behind a block is held in reset until its sequencer is loaded: Tiller and Crevasse (R27, R562). -/
def State.blockHeld (s : State) (b : BlockName) : Bool :=
  match b with
  | .til => !s.on Fld.TIL_STAT_SEQ_OK
  | .crv => !s.on Fld.CRV_STAT_SEQ_OK
  | _ => false

/-- Whether a register of a head port's block is one of its Névé link (R284). -/
def nvOffset (off : Nat) : Bool := decide (0x80 ≤ off) && decide (off < 0xC0)

/-- Whether an offset of a port's block lies in its Névé link, which its sequencer's reset holds until the sequencer is loaded (R27,
R562). -/
def State.linkHeld (s : State) (b : BlockName) (copy off : Nat) : Bool :=
  decide (b = .port) && nvOffset off && !(Store.get (fun _ => Port.reset) s.ports copy).neve.seqOk

/-- What stands at an address for an access now. -/
inductive Reach where
  /-- a block that accepts the access -/
  | open (b : BlockName) (copy off : Nat)
  /-- the block of an absent or retired unit (R4) -/
  | absent (b : BlockName) (copy off : Nat)
  /-- a unit held in reset in a domain that is ON (R27) -/
  | held
  /-- a domain that is OFF or POWERING (R27) -/
  | off
  /-- an address in no block (R22) -/
  | unmapped
  deriving DecidableEq, Repr

/-- The port whose drop counters hold an address: these registers lie in the HP island (R356). -/
def dropPort (a : Nat) : Option Nat :=
  if 0x04F01000 ≤ a ∧ a < 0x04F01400 ∧ 0x10 ≤ a % 0x40 ∧ a % 0x40 < 0x28 then some ((a - 0x04F01000) / 0x40) else none

/-- What a register access to an address meets (R4, R22, R27). While PERST_N is low the HOST domain is held in reset (DEDUCED, log entry
31). -/
def State.reach (s : State) (a : Nat) : Reach :=
  match blockOf a with
  | none => .unmapped
  | some (b, c, off) =>
    match dropPort a with
    | some p =>
      if !s.portPresent p then .absent b.name c off
      else if s.domOn (.hpg (portGroup p)) then .open b.name c off else .off
    | none =>
    if !s.copyPresent b.name c || decide (s.rd (domField (blockDomain b.dom c)) = 3) then .absent b.name c off
    else if !s.domOn (blockDomain b.dom c) then .off
    else if s.blockHeld b.name || (decide (b.dom = .host) && s.host.perstLow) || s.linkHeld b.name c off then .held
    else .open b.name c off

/-! ## Freeze (R586) -/

/-- What happens on the islands: nothing while Hoarfrost holds their clocks. -/
def State.unfrozen (s : State) (f : State → State) : State := if s.hf.active then s else f s

/-! ## Free values -/

/-- The next free value, and the state that has drawn it (DESIGN CHOICE, log entry 1). -/
def State.draw (s : State) : BitVec 64 × State := (Config.freeWord s.free, { s with free := s.free + 1 })

/-- A free word. -/
def State.drawWord (s : State) : Word × State := ((s.draw).1.truncate 32, s.draw.2)

/-! ## The time base (R137) -/

/-- The range of TB_INC: 160 units less and more 200 ppm, in steps of 2^-24 (R137, R575). -/
def tbIncLow : Nat := 0x9FF7CED9
def tbIncHigh : Nat := 0xA0083127

/-- TB_INC as it applies: a written value beyond the range applies its bound (R575). -/
def State.tbInc (s : State) : Nat := max tbIncLow (min tbIncHigh (s.getReg Reg.PCR_TB_INC).toNat)

/-- A write of PCR_TB_INC, which holds TB_INC: a value beyond the range applies its bound (R575). -/
def State.writeTbInc (s : State) (m : Master) (v : Word) : State :=
  s.writeCode m Reg.PCR_TB_INC (BitVec.ofNat 32 (max tbIncLow (min tbIncHigh v.toNat)))

/-- One cycle of REFCLK25: the master TB advances by TB_INC, a Q8.24 number of TB units (R137, R575). -/
def State.tick (s : State) : State :=
  let v := (s.tb.toNat * 2 ^ 24 + s.tbFrac.toNat + s.tbInc) % 2 ^ 88
  { s with tb := BitVec.ofNat 64 (v / 2 ^ 24), tbFrac := BitVec.ofNat 24 v }

/-! ## What goes outward -/

/-- The state that has sent `o` outward. -/
def State.emit (s : State) (o : Out) : State := { s with out := s.out ++ [o] }

/-! ## Reports to Rake (R479, R486) -/

/-- A checker's report, on its way to AON. -/
def State.report (s : State) (src : Nat) (synd : Word) : State :=
  { s with rakeQ := s.rakeQ ++ [⟨src, synd, 0, s.tb, false, false, false, false⟩] }

/-- The report of an access that a master made itself (R482). -/
def State.reportBy (s : State) (src : Nat) (synd : Word) (m : Master) : State :=
  { s with rakeQ := s.rakeQ ++ [⟨src, synd, masterCode m, s.tb, false, false, false, false⟩] }

/-- A report that begins a level (R480). -/
def State.reportLevel (s : State) (src : Nat) (synd : Word) : State :=
  { s with rakeQ := s.rakeQ ++ [⟨src, synd, 0, s.tb, true, false, false, false⟩] }

/-- A report of an access made by a master, or of no access, with the marks of an injection (R497, R498). -/
def State.reportInj (s : State) (src : Nat) (synd : Word) (m : Option Master) (inj coinc : Bool) : State :=
  { s with rakeQ := s.rakeQ ++ [⟨src, synd, m.elim 0 masterCode, s.tb, false, false, inj, coinc⟩] }

/-! ## Injection (R496 to R498) -/

/-- Whether the armed injection falls on a check made now at one of the given sources. -/
def State.injDue (s : State) (srcs : List Nat) : Bool :=
  s.on Fld.RAKE_INJ_CTL_ARMED && srcs.contains (s.rd Fld.RAKE_INJ_CTL_SRC) &&
  (match s.injLast with
   | none => true
   | some t => decide (s.rd Fld.RAKE_INJ_CTL_MODE ≠ 2) || decide (t + max (s.rd Fld.RAKE_INJ_PER_PER) 1 * 4000 ≤ s.tb.toNat))

/-- The armed injection has fired: it is counted, and disarmed in MODE 1. -/
def State.injFired (s : State) (coinc : Bool) : State :=
  let s := s.bumpSat Fld.RAKE_INJ_STAT_FIRED
  let s := if coinc then (s.bumpSat Fld.RAKE_INJ_STAT_COINC).wr (Fld.RAKE_SRC_CNT_INJ_COINC (s.rd Fld.RAKE_INJ_CTL_SRC)) 1 else s
  let s := { s with injLast := some s.tb.toNat }
  if s.rd Fld.RAKE_INJ_CTL_MODE = 2 then s else s.wr Fld.RAKE_INJ_CTL_ARMED 0

/-- The broken-wire report that an injection with RAIL set makes: a level report that begins and ends (R480, R496). -/
def State.injRail (s : State) : State :=
  let src := s.rd Fld.RAKE_INJ_CTL_SRC
  { s with rakeQ := s.rakeQ ++ [⟨src, 0, 0, s.tb, false, true, true, false⟩] }

/-- Whether an error of `src` has been reported since the queue of reports was `n` long. -/
def State.reported (s : State) (n src : Nat) : Bool := (s.rakeQ.drop n).any (fun r => decide (r.src = src))

/-- The reports of `src` made since the queue was `n` long carry the mark of an injection (R497), or of one that coincided (R498). -/
def State.markInj (s : State) (n src : Nat) (coinc : Bool) : State :=
  { s with rakeQ := s.rakeQ.take n ++ (s.rakeQ.drop n).map (fun r =>
      if r.src = src then { r with inj := r.inj || !coinc, coinc := r.coinc || coinc } else r) }

/-- A check of a checker of `src`: `bad` is what the state becomes when it finds an error, `good` what it becomes by what it really
finds. An armed injection makes it find an error, with all its consequences, unless it really finds one; with RAIL set the wire breaks and
the check sees nothing (R496 to R498). Where `bad` reports nothing no check was made. -/
def State.injectAt (src : Nat) (bad good : State → State) (s : State) : State :=
  if !s.injDue [src] then good s
  else if !(bad s).reported s.rakeQ.length src then good s
  else if s.on Fld.RAKE_INJ_CTL_RAIL then (good s.injRail).injFired false
  else if (good s).reported s.rakeQ.length src then ((good s).markInj s.rakeQ.length src true).injFired true
  else ((bad s).markInj s.rakeQ.length src false).injFired false

/-- The crossbar checks an access of a master at address `a`: an injected error drops it (R4, R27, R496). -/
def State.busCheck (s : State) (m : Master) (a : Nat) (f : State → State) : State :=
  State.injectAt 0x200 (fun s => s.reportBy 0x200 (BitVec.ofNat 32 a) m)
    (State.injectAt 0x201 (fun s => s.reportBy 0x201 (BitVec.ofNat 32 a) m) f) s

/-- A master's write access to a register: it takes effect as `f` where the block accepts it, has no effect on an absent,
retired or held unit, and is reported where the domain is off or the address lies in no block (R4, R22, R27). -/
def State.accessBy (s : State) (m : Master) (a : Nat) (f : State → State) : State :=
  s.busCheck m a (fun s => match s.reach a with
  | .open _ _ _ => f s
  | .absent _ _ _ => s
  | .held => s
  | .off => s.reportBy 0x201 (BitVec.ofNat 32 a) m
  | .unmapped => s.reportBy 0x200 (BitVec.ofNat 32 a) m)

/-! ## Ring positions (R70, R74) -/

/-- The ring group of an entry ring (R63). -/
def entryGroup : EntryRing → Nat
  | .cq => 49
  | .er => 50

/-- The size of a ring, from its SIZE_LOG2 (R69). -/
def State.ringSize (s : State) (k : Nat) : Nat := 2 ^ s.rd (Fld.HOST_RCTL_SIZE_LOG2 k)

/-- The linear value of a position register (R74). -/
def linearOf (size : Nat) (v : Word) : Nat := if bitOf v 16 then bitsOf v 15 0 else bitsOf v 15 0 + size

/-- The position register of a linear value (R70, R74). -/
def positionOf (size lin : Nat) : Word :=
  if lin % (2 * size) < size then BitVec.ofNat 32 (0x10000 + lin % (2 * size)) else BitVec.ofNat 32 (lin % (2 * size) - size)

def State.prod (s : State) (k : Nat) : Nat := linearOf (s.ringSize k) (s.getReg (Reg.HOST_RPROD k))
def State.cons (s : State) (k : Nat) : Nat := linearOf (s.ringSize k) (s.getReg (Reg.HOST_RCONS k))

/-- Entries from `c` to `p`, modulo twice the size (R74). -/
def entriesFrom (size c p : Nat) : Nat := (p % (2 * size) + 2 * size - c % (2 * size)) % (2 * size)

/-- The host address of an entry of a ring whose entries are `bytes` long (R68). -/
def State.entryAddr (s : State) (k index bytes : Nat) : Nat := s.rd64 (Reg.HOST_RBASE_LO k) + index * bytes

def State.getRing (s : State) (k : Nat) : Ring := Store.get (fun _ => Ring.reset) s.host.rings k
def State.setRing (s : State) (k : Nat) (r : Ring) : State :=
  { s with host := { s.host with rings := Store.put (fun _ => Ring.reset) s.host.rings k r } }

/-- The link is up: a width and a rate are trained (R65). -/
def State.linkUp (s : State) : Bool := decide (s.host.speed ≠ 0)

/-- Whether an entry ring has a position that the host has released, with the ring running and the link up (R59, R76). -/
def State.entryRoom (s : State) (q : EntryRing) : Bool :=
  s.linkUp && decide (s.rd (Fld.HOST_RSTAT_STATE (entryGroup q)) = 1) &&
  decide (entriesFrom (s.ringSize (entryGroup q)) (s.cons (entryGroup q)) (s.prod (entryGroup q)) < s.ringSize (entryGroup q))

/-! ## Interrupt vectors (R73) -/

/-- The register and bit of a vector's pending bit. -/
def ipendReg (v : Nat) : Nat := if v < 32 then Reg.HOST_IPEND0 else Reg.HOST_IPEND1

/-- The message of an MSI-X vector, from its table entry. -/
def State.msixMessage (s : State) (v : Nat) : Out :=
  .msix v (s.rd64 (Reg.HOST_MSIX_TABLE (4 * v))) (s.getReg (Reg.HOST_MSIX_TABLE (4 * v + 2)))

/-- A raised vector sets its pending bit, and with MSI-X enabled is sent as a message, or held in the pending bit array
while it is masked (R73). A message that falls due while the link is down goes outward at once (DESIGN CHOICE, log entry 101). -/
def State.raiseVector (s : State) (v : Nat) : State :=
  let s := s.wr ⟨ipendReg v, v % 32, v % 32⟩ 1
  if s.host.cfg.msixEn then
    if s.host.cfg.msixMask || bitOf (s.getReg (Reg.HOST_MSIX_TABLE (4 * v + 3))) 0 then
      s.wr ⟨Reg.HOST_MSIX_PBA (v / 32), v % 32, v % 32⟩ 1
    else s.emit (s.msixMessage v)
  else s

/-- Whether INT_N is driven low: while any pending bit is set, with INTN_EN set (R66, R73). -/
def State.intnLow (s : State) : Bool :=
  s.on Fld.HOST_CTL_INTN_EN && decide (s.getReg Reg.HOST_IPEND0 ||| s.getReg Reg.HOST_IPEND1 ≠ 0)

/-- The vector of ring group `k` is raised, and nothing stays unsignalled. -/
def State.signalRing (s : State) (k : Nat) : State :=
  (s.setRing k { s.getRing k with unsignalled := 0 }).raiseVector (s.rd (Fld.HOST_RCTL_VEC k))

/-- One entry more is written on account of ring group `k`; its vector is raised at COAL_N entries (R69, R73). -/
def State.countEntry (s : State) (k : Nat) : State :=
  let r := s.getRing k
  let s := s.setRing k { r with
    unsignalled := r.unsignalled + 1
    since := if r.unsignalled = 0 then s.tb.toNat else r.since }
  if max (s.rd (Fld.HOST_RCTL_COAL_N k)) 1 ≤ r.unsignalled + 1 then s.signalRing k else s

/-! ## Events (R76, R81) -/

/-- Doubleword `i` of a list, 0 beyond its end. -/
def dwAt (l : List Word) (i : Nat) : Word := l.getD i 0

/-- An entry of an event that arose at a TB is written at the ER's producer, which advances (R81). -/
def State.writeEventAt (s : State) (t : BitVec 64) (code subject : Nat) (data : List Word) : State :=
  let k := (entryGroup .er)
  let p := s.prod k
  let size := s.ringSize k
  let pos := positionOf size p
  let phase := if bitOf pos 16 then 0x80000000 else 0
  let dw := [BitVec.ofNat 32 (phase + code), BitVec.ofNat 32 subject, t.truncate 32, (t >>> 32).truncate 32,
             dwAt data 0, dwAt data 1, dwAt data 2, dwAt data 3]
  let s := s.emit (.er (s.entryAddr k (bitsOf pos 15 0) 32) dw)
  let s := s.setReg (Reg.HOST_RPROD k) (positionOf size (p + 1))
  s.countEntry k

/-- The entry of an event that arises now. -/
def State.writeEvent (s : State) (code subject : Nat) (data : List Word) : State := s.writeEventAt s.tb code subject data

/-- Whether events of a code are suppressed (R67). -/
def State.evMasked (s : State) (code : Nat) : Bool :=
  bitOf (s.getReg (if code < 32 then Reg.HOST_EVMASK0 else Reg.HOST_EVMASK1)) (code % 32)

/-- The ER_OVERFLOW event that is owed is written when the ER has room (R76), unless events of its code are suppressed (R67). -/
def State.payOverflow (s : State) : State :=
  if s.host.erOwed && s.entryRoom .er then
    let t := { s with host := { s.host with erOwed := false } }
    if s.evMasked 0x03 then t else t.writeEvent 0x03 0 [s.getReg Reg.HOST_ER_LOST]
  else s

/-- An event that arose at a TB: it is written, or dropped and counted while the ER is full or the link is down (R59, R67, R76). While
the ER is not running it is dropped uncounted (DESIGN CHOICE, log entry 3); while the controller is frozen none can be written (R588). -/
def State.eventAt (s : State) (t : BitVec 64) (code subject : Nat) (data : List Word) : State :=
  if s.hf.active || s.evMasked code then s
  else if s.rd (Fld.HOST_RSTAT_STATE (entryGroup .er)) ≠ 1 then s
  else
    let s := s.payOverflow
    if s.entryRoom .er then s.writeEventAt t code subject data
    else { s.bumpSat Fld.HOST_ER_LOST_COUNT with host := { s.host with erOwed := true } }

/-- An event arises now. -/
def State.event (s : State) (code subject : Nat) (data : List Word) : State := s.eventAt s.tb code subject data

/-- An event of a load or a boot: written at once while the ER runs, else when it is next enabled (R514, R555). -/
def State.lateEvent (s : State) (code subject : Nat) (data : List Word) : State :=
  if s.rd (Fld.HOST_RSTAT_STATE (entryGroup .er)) = 1 then s.event code subject data
  else { s with late := s.late ++ [(s.tb, code, subject, data)] }

/-- The events that waited for the ER are written, in their order, each with the time at which it arose (R81). -/
def State.payLate (s : State) : State :=
  s.late.foldl (fun s e => s.eventAt e.1 e.2.1 e.2.2.1 e.2.2.2) { s with late := [] }

/-! ## Completions (R76, R79) -/

/-- The positions of an entry ring that entries can be written in now (R59, R76). -/
def State.entryFree (s : State) (q : EntryRing) : Nat :=
  if s.linkUp && decide (s.rd (Fld.HOST_RSTAT_STATE (entryGroup q)) = 1) then
    s.ringSize (entryGroup q) -
      entriesFrom (s.ringSize (entryGroup q)) (s.cons (entryGroup q)) (s.prod (entryGroup q))
  else 0

/-- A completion arises: it waits for its write, behind the reports that arose before it (R92). With the CQ full, the internal queue holds
512, and what arises beyond them is dropped and counted (R76). -/
def State.complete (s : State) (c : Completion) : State :=
  if s.host.cqQueue.length < 512 + s.entryFree .cq then
    { s with host := { s.host with cqQueue := s.host.cqQueue ++ [{ c with after := s.rakeQ.length }] } }
  else s.bumpSat Fld.HOST_CQ_LOST_COUNT

/-- One descriptor of ring `k` has completed: it is no longer outstanding (R72). -/
def State.settle (s : State) (k : Nat) : State :=
  let r := s.getRing k
  s.setRing k { r with outstanding := r.outstanding - 1 }

/-- The two result doublewords of a command's or DMA descriptor's completion (R79). -/
def resultDw (r : Nat) : Word × Word := (BitVec.ofNat 32 r, BitVec.ofNat 32 (r / 2 ^ 32))

/-- A descriptor of the CR or of a DR completes; QUIET with status OK writes no entry (R78). -/
def State.completeDesc (s : State) (k : Nat) (d : Desc) (status result : Nat) : State :=
  let s := s.settle k
  if bitOf (dwAt d.dw 0) 30 && decide (status = 0) then s
  else s.complete ⟨k, status, d.index, dwAt d.dw 1, (resultDw result).1, (resultDw result).2, 0⟩

/-- A ring error is recorded in ERR and written as an event (R71, R82). -/
def State.ringError (s : State) (k err : Nat) : State :=
  let s := s.wr (Fld.HOST_RSTAT_ERR k) err
  s.event 0x02 k [BitVec.ofNat 32 err, s.getReg (Reg.HOST_RCONS k)]

/-! ## Status codes (R80) -/

def Status.ok : Nat := 0x00
def Status.printed : Nat := 0x01
def Status.skippedThermal : Nat := 0x02
def Status.abortedOverspeed : Nat := 0x03
def Status.abortedGate : Nat := 0x04
def Status.abortedUnderrun : Nat := 0x05
def Status.noProduct : Nat := 0x06
def Status.abortedFault : Nat := 0x07
def Status.cancelled : Nat := 0x08
def Status.descError : Nat := 0x10
def Status.unitAbsent : Nat := 0x11
def Status.busy : Nat := 0x12
def Status.restarted : Nat := 0x13
def Status.badOpcode : Nat := 0x14
def Status.ctxState : Nat := 0x15
def Status.window : Nat := 0x16
def Status.dmaError : Nat := 0x17
def Status.stopped : Nat := 0x18
def Status.chainLimit : Nat := 0x19

end Sys2Proof.Machine
end

