-- ==== Sys2Proof/Machine/Sides.lean ====
section
/-! DEFINITION. The fields of a DMA descriptor: sides, extents and refusals (R87, R88, R362 to R366, spec/11_barrow_dma.md). -/

namespace Sys2Proof.Machine

/-- The opcode of a descriptor (R78). -/
def Desc.opcode (d : Desc) : Nat := bitsOf (dwAt d.dw 0) 7 0

/-- A field of a descriptor: bits [hi:lo] of doubleword `i`. -/
def Desc.fld (d : Desc) (i hi lo : Nat) : Nat := bitsOf (dwAt d.dw i) hi lo

/-- A 64-bit operand in two consecutive doublewords, low word first. -/
def Desc.wide (d : Desc) (i : Nat) : Nat := (dwAt d.dw i).toNat + 2 ^ 32 * (dwAt d.dw (i + 1)).toNat

/-- Whether a descriptor has a bit set that its layout gives no field: such a bit causes DESC_ERROR (spec/02, Entry formats). -/
def Desc.reservedSet (d : Desc) (layout : List Nat) : Bool :=
  (List.range 16).any (fun i => decide ((dwAt d.dw i) &&& ~~~(BitVec.ofNat 32 (layout.getD i 0)) ≠ 0))

/-- Whether `len` bytes of the dot store from address `a` all lie in present banks (R5, R180). -/
def State.storePresent (s : State) (a len : Nat) : Bool :=
  decide (len = 0) || (decide (a + len ≤ 0x4000000) &&
    (List.range ((a + len - 1) / 0x100000 - a / 0x100000 + 1)).all (fun i => s.bankPresent (a / 0x100000 + i)))

/-- One side of a descriptor (R362): its address, counts, steps, element width and whether it is a device address. -/
structure Side where
  addr : Nat
  n    : Nat × Nat × Nat
  st   : Int × Int × Int
  w    : Nat
  dev  : Bool
  deriving DecidableEq, Repr

def stepOf (w : Word) : Int := signedOf 32 w.toNat

/-- The width in bytes of a width code; 0 for a code that is not defined (R87). -/
def widthOf (code : Nat) : Nat := if code ≤ 5 then 2 ^ code else 0

def Desc.srcSide (d : Desc) : Side :=
  ⟨d.wide 2, (d.fld 6 15 0, d.fld 6 31 16, d.fld 7 15 0), (stepOf (dwAt d.dw 9), stepOf (dwAt d.dw 10), stepOf (dwAt d.dw 11)),
   widthOf (d.fld 0 27 24), bitOf (dwAt d.dw 0) 19⟩
def Desc.dstSide (d : Desc) : Side :=
  ⟨d.wide 4, (d.fld 7 31 16, d.fld 8 15 0, d.fld 8 31 16), (stepOf (dwAt d.dw 12), stepOf (dwAt d.dw 13), stepOf (dwAt d.dw 14)),
   widthOf (d.fld 0 23 20), bitOf (dwAt d.dw 0) 18⟩

def Side.elements (x : Side) : Nat := x.n.1 * x.n.2.1 * x.n.2.2
def Side.total (x : Side) : Nat := x.elements * x.w
def Side.zero (x : Side) : Bool := decide (x.elements = 0)

/-- The address of stream byte `off` on a side (R362, R363); host addresses are modulo 2^64 (R365). -/
def Side.at_ (x : Side) (off : Nat) : Nat :=
  let e := off / max x.w 1
  let i := e % max x.n.1 1
  let j := e / max x.n.1 1 % max x.n.2.1 1
  let k := e / max x.n.1 1 / max x.n.2.1 1
  patternOf 64 ((x.addr : Int) + i * x.st.1 + j * x.st.2.1 + k * x.st.2.2 + (off % max x.w 1 : Nat))

/-- The extent of a side: its lowest and highest byte (R365). -/
def Side.extent (x : Side) : Int × Int :=
  let a : Int := (x.n.1 - 1 : Nat) * x.st.1
  let b : Int := (x.n.2.1 - 1 : Nat) * x.st.2.1
  let c : Int := (x.n.2.2 - 1 : Nat) * x.st.2.2
  (x.addr + min 0 a + min 0 b + min 0 c, x.addr + max 0 a + max 0 b + max 0 c + x.w - 1)

/-- Whether a device side fails the check of its extent (R365). -/
def State.extentBad (s : State) (x : Side) : Bool :=
  x.dev && (decide (x.extent.1 < 0) || !s.storePresent x.extent.1.toNat (x.extent.2 - x.extent.1 + 1).toNat)

/-- The bits that a DMA descriptor's layout gives a field (R87). -/
def dmaLayout : List Nat := [0xFFFC00FF] ++ List.replicate 14 0xFFFFFFFF

/-- Whether a device extent of a COPY or a FILL fails its check (R365). -/
def State.extentsBad (s : State) (d : Desc) : Bool :=
  (decide (d.opcode = 1) && s.extentBad d.srcSide) || (decide (d.opcode = 1 ∨ d.opcode = 2) && s.extentBad d.dstSide)

/-- The reason for which a COPY or a FILL is refused, the lowest; 0 when it is not. `bad` tells whether a device extent failed its check
at the fetch (R365, R366). -/
def Desc.dmaReason (d : Desc) (bad : Bool) : Nat :=
  let copy := decide (d.opcode = 1)
  let a := d.srcSide
  let b := d.dstSide
  if (copy && a.zero) || b.zero then 1
  else if copy && decide (a.w ≠ 0) && decide (b.w ≠ 0) && decide (a.total ≠ b.total) then 2
  else if (copy && decide (a.w = 0)) || decide (b.w = 0) then 3
  else if bad then 4
  else if d.reservedSet dmaLayout then 7
  else 0

end Sys2Proof.Machine
end

