-- ==== Sys2Proof/Machine/Rings.lean ====
section
/-! DEFINITION. The host rings: setup, doorbells, fetching, entries and interrupts (spec/02_host_rings_and_doorbells.md). -/

namespace Sys2Proof.Machine

/-! ## Ring setup (R69 to R72) -/

def State.getChan32 (s : State) (c : Nat) : Chan := Store.get (fun _ => Chan.reset) s.bar.chans c
def State.setChan32 (s : State) (c : Nat) (x : Chan) : State :=
  { s with bar := { s.bar with chans := Store.put (fun _ => Chan.reset) s.bar.chans c x } }

/-- A DMA ring starts anew: the doorbells that it did not fetch are forgotten (R72, R370). -/
def State.freshMarks (s : State) (c : Nat) : State := s.setChan32 c { s.getChan32 c with marks := [] }

/-- A DISABLED ring starts: at INDEX 0, PHASE 1, or not at all on a bad size or a base of 0, the lower code first (R71, R72, R636). -/
def State.startRing (s : State) (k : Nat) : State :=
  let size := s.rd (Fld.HOST_RCTL_SIZE_LOG2 k)
  if size < 4 ∨ 16 < size then s.ringError k 0x01
  else if s.rd64 (Reg.HOST_RBASE_LO k) = 0 then s.ringError k 0x02
  else
    let s := s.setReg (Reg.HOST_RPROD k) 0x10000
    let s := s.setReg (Reg.HOST_RCONS k) 0x10000
    let s := s.wr (Fld.HOST_RSTAT_ERR k) 0
    let s := s.wr (Fld.HOST_RSTAT_STATE k) 1
    let s := s.wr (Fld.HOST_RCTL_ENABLE k) 1
    let s := s.setRing k { s.getRing k with retries := 0, unsignalled := 0 }
    if k = entryGroup .er then s.payLate
    else if 16 < k ∧ k < 49 then s.freshMarks (k - 17)
    else s

/-- A write of HOST_RCTL (R69, R71, R72). Another SIZE_LOG2 while ENABLE is set is SETUP_LOCKED and the write is ignored
(DEDUCED, log entry 5). -/
def State.writeRctl (s : State) (k : Nat) (v : Word) : State :=
  let en := s.on (Fld.HOST_RCTL_ENABLE k)
  if en ∧ bitsOf v 4 0 ≠ s.rd (Fld.HOST_RCTL_SIZE_LOG2 k) then s.ringError k 0x07
  else
    let s := s.wr (Fld.HOST_RCTL_VEC k) (bitsOf v 21 16)
    let s := s.wr (Fld.HOST_RCTL_COAL_N k) (bitsOf v 15 8)
    let s := s.wr (Fld.HOST_RCTL_SIZE_LOG2 k) (bitsOf v 4 0)
    if bitOf v 31 then
      if en then s
      else if s.rd (Fld.HOST_RSTAT_STATE k) = 0 then s.startRing k
      else s.setRing k { s.getRing k with enableHeld := true }
    else
      let s := s.setRing k { s.getRing k with enableHeld := false }
      if en then (s.wr (Fld.HOST_RCTL_ENABLE k) 0).wr (Fld.HOST_RSTAT_STATE k) 2 else s

/-- A write of a base register of ring group `k`: SETUP_LOCKED while ENABLE is set (R71). -/
def State.writeRbase (s : State) (m : Master) (k a : Nat) (v : Word) : State :=
  if s.on (Fld.HOST_RCTL_ENABLE k) then s.ringError k 0x07 else s.writeCode m a v

/-- RING_ENABLE: a write of HOST_RCTL with ENABLE set. -/
def execRingEnable (m : Master) (k : Fin 51) (v : Word) (s : State) : Host.Outcome State Fault Refusal :=
  .next (s.unfrozen (fun s => s.accessBy m (Reg.HOST_RCTL k) (fun s => s.writeRctl k (v ||| 0x80000000))))

/-- RING_DISABLE: a write of HOST_RCTL with ENABLE clear. -/
def execRingDisable (m : Master) (k : Fin 51) (v : Word) (s : State) : Host.Outcome State Fault Refusal :=
  .next (s.unfrozen (fun s => s.accessBy m (Reg.HOST_RCTL k) (fun s => s.writeRctl k (v &&& 0x7FFFFFFF))))

/-- RING_DRAINED: every descriptor fetched from a DRAINING ring has completed, so it is DISABLED, and a held ENABLE takes
effect (R72). While one has not completed, nothing happens. -/
def execRingDrained (k : Fin 51) (s : State) : Host.Outcome State Fault Refusal :=
  .next (s.unfrozen (fun s =>
    if s.rd (Fld.HOST_RSTAT_STATE k) = 2 ∧ (s.getRing k).outstanding = 0 then
      let s := s.wr (Fld.HOST_RSTAT_STATE k) 0
      if (s.getRing k).enableHeld then (s.setRing k { s.getRing k with enableHeld := false }).startRing k else s
    else s))

/-! ## Doorbells and consumer positions (R74, R77) -/

/-- A 32-bit write to the doorbell of ring `k` (R74, R77). The lower of two error codes is reported (R636). -/
def State.ringDoorbell (s : State) (k : Nat) (v : Word) : State :=
  let size := s.ringSize k
  if size ≤ bitsOf v 15 0 ∨ size < entriesFrom size (s.cons k) (linearOf size v) then s.ringError k 0x03
  else if ¬ s.on (Fld.HOST_RCTL_ENABLE k) then s.ringError k 0x04
  else
    let old := bitsOf (s.getReg (Reg.HOST_RPROD k)) 15 0
    let moved := decide (s.getReg (Reg.HOST_RPROD k) ≠ v &&& 0x1FFFF)
    let s := s.setReg (Reg.HOST_RPROD k) (v &&& 0x1FFFF)
    if 16 < k ∧ moved then
      let x := s.getChan32 (k - 17)
      s.setChan32 (k - 17) { x with marks := x.marks ++ [old] }
    else s

/-- DOORBELL. -/
def execDoorbell (m : Master) (r : Fin 49) (v : Word) (s : State) : Host.Outcome State Fault Refusal :=
  .next (s.unfrozen (fun s => s.accessBy m (Reg.DOORBELL r) (fun s => s.ringDoorbell r v)))

/-- A write of HOST_RCONS of the CQ or the ER (R70, R74). Past the producer is judged along the ring from the old position
(DEDUCED, log entry 6). -/
def State.writeRcons (s : State) (k : Nat) (v : Word) : State :=
  let size := s.ringSize k
  let new := linearOf size v
  if size ≤ bitsOf v 15 0 ∨ size < entriesFrom size new (s.prod k)
      ∨ entriesFrom size (s.cons k) (s.prod k) < entriesFrom size (s.cons k) new then s.ringError k 0x03
  else s.setReg (Reg.HOST_RCONS k) (v &&& 0x1FFFF)

/-- HOST_RCONS_WRITE. -/
def execHostRconsWrite (m : Master) (q : EntryRing) (v : Word) (s : State) : Host.Outcome State Fault Refusal :=
  .next (s.unfrozen (fun s => s.accessBy m (Reg.HOST_RCONS (entryGroup q)) (fun s => s.writeRcons (entryGroup q) v)))

/-! ## Fetching (R75, R78) -/

/-- Whether an opcode is defined for a ring (R78, R83, R85, R87): ring 0 is the CR, 1 to 16 the JRs, 17 to 48 the DRs. -/
def opcodeDefined (k op : Nat) : Bool :=
  if k = 0 then
    decide (op ∈ [0x00, 0x10, 0x11, 0x12, 0x20, 0x21, 0x22, 0x30, 0x31, 0x32, 0x40, 0x50, 0x51, 0x58, 0x59, 0x60, 0x61, 0x70, 0x71])
  else if k ≤ 16 then decide (op ≤ 0x01)
  else decide (op ≤ 0x03)

/-- The completion of a job that never entered a queue: SEQ and CONTEXT as the job gives them, REJECT clear (R79, R80). -/
def jobRefusal (k : Nat) (d : Desc) (status : Nat) : Completion :=
  ⟨k, status, d.index, dwAt d.dw 1, dwAt d.dw 2,
   BitVec.ofNat 32 (bitsOf (dwAt d.dw 3) 15 0 * 65536 + bitsOf (dwAt d.dw 0) 15 8 * 256), 0⟩

/-- A descriptor of ring `k` completes with a status and no result, in the form of its ring (R78, R79). -/
def State.completeAny (s : State) (k : Nat) (d : Desc) (status : Nat) : State :=
  if k = 0 ∨ 16 < k then s.completeDesc k d status 0 else (s.settle k).complete (jobRefusal k d status)

/-- The phase that the consumer position of a ring calls for (R70, R75). -/
def State.consPhase (s : State) (k : Nat) : Bool := bitOf (s.getReg (Reg.HOST_RCONS k)) 16

/-- A valid descriptor is taken from ring `k`: the consumer advances, and the descriptor waits for its execution, or completes
BAD_OPCODE at its turn when its opcode is not defined for the ring (R75, R78). The ring keeps the number of the fetch, by which
jobs of one context on different rings are ordered (R89), and of a DMA descriptor whether its device extents fail (R365). In
rescue mode every command completes BUSY at once (R550). -/
def State.takeDesc (s : State) (k : Nat) (dw : List Word) : State :=
  let size := s.ringSize k
  let d : Desc := ⟨bitsOf (s.getReg (Reg.HOST_RCONS k)) 15 0, dw⟩
  let s := s.setReg (Reg.HOST_RCONS k) (positionOf size (s.cons k + 1))
  let s := { s with host := { s.host with fetchNo := s.host.fetchNo + 1 } }
  let r := { s.getRing k with no := s.host.fetchNo }
  let r := if decide (16 < k) && s.extentsBad d then { r with bad := r.bad ++ [d.index] } else r
  if k = 0 ∧ s.mp.rescue then
    let s := s.setRing k { r with outstanding := r.outstanding + 1, retries := 0 }
    s.completeDesc 0 d Status.busy 0xFE
  else s.setRing k { r with outstanding := r.outstanding + 1, fetched := r.fetched ++ [d], retries := 0 }

/-- A fetch of ring `k` ended in an error: the ring stops, and Rake is told (R71). -/
def State.fetchError (s : State) (k : Nat) : State :=
  let s := s.wr (Fld.HOST_RSTAT_STATE k) 3
  let s := s.setRing k { s.getRing k with retries := 0 }
  (s.report 0x202 (BitVec.ofNat 32 k)).ringError k 0x06

/-- The host side can issue requests now: the link is up, and the function is not in D3hot (R54, R59). -/
def State.hostBus (s : State) : Bool := s.linkUp && !s.host.cfg.d3hot

/-- Whether one of the 16 tags of the descriptor fetches is free (R56, R359). -/
def State.fetchTag (s : State) : Bool := decide ((s.bar.reads.filter (fun r => decide (r.kind = .chain))).length < 16)

/-- Whether ring `k` fetches now: ACTIVE, doorbelled past its consumer, the link up, not in D3hot (R54, R59), with a tag free (R56); for a
job ring, no job held at it (R89); for a DMA ring, Barrow running and at most 4 descriptors fetched ahead of the one in execution (R358,
R377). -/
def State.fetches (s : State) (k : Nat) : Bool :=
  decide (s.rd (Fld.HOST_RSTAT_STATE k) = 1) && decide (s.cons k ≠ s.prod k) && s.hostBus && s.fetchTag &&
  (if k = 0 then true else if k ≤ 16 then (s.getRing k).fetched.isEmpty
   else decide (s.rd Fld.BAR_STAT_STATE = 0) &&
     decide ((s.getRing k).fetched.length + (Store.get (fun _ => Chan.reset) s.bar.chans (k - 17)).runs.length < 5))

/-- The first read of a descriptor: taken when its PHASE is right, else read again (R75). -/
def State.fetched (s : State) (k : Nat) (d : Fetched) : State :=
  match d with
  | .error => s.fetchError k
  | .data dw => if bitOf (dwAt dw 0) 31 = s.consPhase k then s.takeDesc k dw else s.setRing k { s.getRing k with retries := 1 }

/-- DESCRIPTOR_FETCH: the first read of the descriptor at HOST_RCONS (R75). -/
def execDescriptorFetch (k : Fin 49) (d : Fetched) (s : State) : Host.Outcome State Fault Refusal :=
  .next (s.unfrozen (fun s =>
    if s.fetches k && decide ((s.getRing k).retries = 0) then
      State.injectAt 0x202 (fun s => s.fetchError k) (fun s => s.fetched k d) s
    else s))

/-- PHASE_RETRY: the re-read, 1 µs later, of a descriptor whose PHASE was wrong; the fourth that fails stops the ring (R75). -/
def execPhaseRetry (k : Fin 49) (d : Fetched) (s : State) : Host.Outcome State Fault Refusal :=
  .next (s.unfrozen (fun s =>
    if s.fetches k && decide ((s.getRing k).retries ≠ 0) then
      match d with
      | .error => s.fetchError k
      | .data dw =>
        if bitOf (dwAt dw 0) 31 = s.consPhase k then s.takeDesc k dw
        else if (s.getRing k).retries < 4 then
          s.setRing k { s.getRing k with retries := (s.getRing k).retries + 1 }
        else
          let s := s.setRing k { s.getRing k with retries := 0 }
          (s.wr (Fld.HOST_RSTAT_STATE k) 3).ringError k 0x05
    else s))

/-- A write of RESUME re-reads the descriptor that stopped the ring (R71, R72). -/
def State.resumeRing (s : State) (k : Nat) (d : Fetched) : State :=
  if s.rd (Fld.HOST_RSTAT_STATE k) = 3 then
    match d with
    | .error => s.fetchError k
    | .data dw =>
      if bitOf (dwAt dw 0) 31 = s.consPhase k then s.wr (Fld.HOST_RSTAT_STATE k) 1
      else s.ringError k (s.rd (Fld.HOST_RSTAT_ERR k))
  else s

/-- RING_RESUME. -/
def execRingResume (m : Master) (k : Fin 51) (d : Fetched) (s : State) : Host.Outcome State Fault Refusal :=
  .next (s.unfrozen (fun s => s.accessBy m (Reg.HOST_RSTAT k) (fun s => s.resumeRing k d)))

/-- The oldest descriptor of ring `k` that waits for its execution. -/
def State.nextDesc (s : State) (k : Nat) : Option Desc := (s.getRing k).fetched.head?

/-- Ring `k` with its oldest waiting descriptor taken away. -/
def State.popDesc (s : State) (k : Nat) : State :=
  s.setRing k { s.getRing k with fetched := (s.getRing k).fetched.tail }

/-! ## Entries and interrupts (R73, R76) -/

/-- The oldest waiting completion is written at the CQ's producer, which advances; the entry counts on the vector of its own ring
(R69, R76, R79). -/
def State.writeCqEntry (s : State) (c : Completion) : State :=
  let k := entryGroup .cq
  let p := s.prod k
  let size := s.ringSize k
  let pos := positionOf size p
  let dw0 := (if bitOf pos 16 then 0x80000000 else 0) + c.ring * 2 ^ 24 + c.status * 2 ^ 16 + c.index
  let s := s.emit (.cq (s.entryAddr k (bitsOf pos 15 0) 16) [BitVec.ofNat 32 dw0, c.tag, c.dw2, c.dw3])
  let s := s.setReg (Reg.HOST_RPROD k) (positionOf size (p + 1))
  s.countEntry c.ring

/-- ER_OVERFLOW: the ER has room again, and one event carries HOST_ER_LOST (R76). -/
def execErOverflow (s : State) : Host.Outcome State Fault Refusal := .next (s.unfrozen (fun s => s.payOverflow))

/-- COALESCE_TIMEOUT: COAL_T µs, at least 1, have passed since the first entry not yet signalled of ring group `k` (R73). -/
def execCoalesceTimeout (k : Fin 51) (s : State) : Host.Outcome State Fault Refusal :=
  .next (s.unfrozen (fun s =>
    if (s.getRing k).unsignalled = 0 ∨ s.tb.toNat < (s.getRing k).since + max 1 (s.rd (Fld.HOST_RIRQ_COAL_T k)) * 4000 then s
    else s.signalRing k))

/-! ## Configuration retry (R60, R65, R66) -/

/-- A write of HOST_CTL: INTN_EN by its code, and CFG_DONE clears CFG_RETRY (R66). -/
def State.writeHostCtl (s : State) (m : Master) (v : Word) : State :=
  let s := s.writeCode m Reg.HOST_CTL v
  if bitOf v 0 then s.wr Fld.HOST_STAT_CFG_RETRY 0 else s

/-- CFG_DONE: a master writes HOST_CTL with CFG_DONE set, which clears CFG_RETRY (R66). -/
def execCfgDone (m : Master) (v : Word) (s : State) : Host.Outcome State Fault Refusal :=
  .next (s.unfrozen (fun s => s.accessBy m Reg.HOST_CTL (fun s => s.writeHostCtl m (v ||| 1))))

/-- CFG_RETRY_TIMEOUT: 900 ms have passed with CFG_RETRY set, PERST_N being high and the HOST domain ON; the hardware clears it and sets
MP_LATE (R60). -/
def execCfgRetryTimeout (s : State) : Host.Outcome State Fault Refusal :=
  .next (s.unfrozen (fun s =>
    if s.on Fld.HOST_STAT_CFG_RETRY && s.domOn .host && !s.host.perstLow then
      (s.wr Fld.HOST_STAT_CFG_RETRY 0).wr Fld.HOST_STAT_MP_LATE 1
    else s))

end Sys2Proof.Machine
end

