-- ==== Sys2Proof/Machine/Tokens.lean ====
section
/-! DEFINITION. The OWN tokens (R45 to R51, spec/01_islands_and_data_flow.md). -/

namespace Sys2Proof.Machine

/-- Who holds token `n`: the identity of R45, 0 when it is free. -/
def State.holder (s : State) (n : Nat) : Nat := s.rd (Fld.OWN_HOLDER n)

/-- Token `n` held by identity `h` with a tag. -/
def State.setToken (s : State) (n h : Nat) (tag : BitVec 16) : State :=
  (s.wr (Fld.OWN_HOLDER n) h).wr (Fld.OWN_TAG n) tag.toNat

/-- The TOKEN_TAKEN event of token `n` (R82). -/
def State.tokenEvent (s : State) (n old new : Nat) : State :=
  s.event 0x01 n [BitVec.ofNat 32 (old * 2 ^ 8 + new * 2 ^ 16)]

/-- ACQUIRE: a free token takes the writing master and its tag (R47). -/
def State.acquireToken (s : State) (m : Master) (n : Nat) (tag : BitVec 16) : State :=
  if s.holder n = 0 then s.setToken n (masterCode m) tag else s

/-- RELEASE: the holder's own release clears the token (R47). -/
def State.releaseToken (s : State) (m : Master) (n : Nat) : State :=
  if s.holder n = masterCode m then s.setToken n 0 0 else s

/-- FORCE: the writing master takes the token; taken from another master, OWN_STAT and an event say so (R47, R49). -/
def State.forceToken (s : State) (m : Master) (n : Nat) (tag : BitVec 16) : State :=
  let old := s.holder n
  let s := s.setToken n (masterCode m) tag
  if old ≠ 0 ∧ old ≠ masterCode m then (s.wr ⟨Reg.OWN_STAT, n, n⟩ 1).tokenEvent n old (masterCode m) else s

/-- NONE: the holder writes its tag (R47). -/
def State.tagToken (s : State) (m : Master) (n : Nat) (tag : BitVec 16) : State :=
  if s.holder n = masterCode m then s.wr (Fld.OWN_TAG n) tag.toNat else s

/-- A write of OWNn, by its ACTION field (R47). -/
def State.writeToken (s : State) (m : Master) (n : Nat) (v : Word) : State :=
  let tag := v.truncate 16
  match bitsOf v 31 30 with
  | 0 => s.tagToken m n tag
  | 1 => s.acquireToken m n tag
  | 2 => s.releaseToken m n
  | _ => s.forceToken m n tag

/-- The first `k` tokens, freed where identity `h` holds them: HOLDER and TAG clear and an event names the old holder (R49). -/
def State.freeTokens (s : State) (h : Nat) : Nat → State
  | 0 => s
  | k + 1 =>
    let s := State.freeTokens s h k
    if s.holder k = h then (s.setToken k 0 0).tokenEvent k h 0 else s

/-- Every token that a restarting or leaving master holds is freed (R49). -/
def State.freeTokensOf (s : State) (m : Master) : State := s.freeTokens (masterCode m) 32

/-- Whether the MP may act in the class of token `n`: no other master holds it (R50). -/
def State.mpMay (s : State) (n : Nat) : Bool := decide (s.holder n = 0) || decide (s.holder n = masterCode .mp)

/-- TOKEN_ACQUIRE. -/
def execTokenAcquire (m : Master) (n : Fin 32) (tag : BitVec 16) (s : State) : Host.Outcome State Fault Refusal :=
  .next (s.unfrozen (fun s => s.accessBy m (Reg.OWN n) (fun s => s.acquireToken m n tag)))

/-- TOKEN_RELEASE. -/
def execTokenRelease (m : Master) (n : Fin 32) (s : State) : Host.Outcome State Fault Refusal :=
  .next (s.unfrozen (fun s => s.accessBy m (Reg.OWN n) (fun s => s.releaseToken m n)))

/-- TOKEN_FORCE. -/
def execTokenForce (m : Master) (n : Fin 32) (tag : BitVec 16) (s : State) : Host.Outcome State Fault Refusal :=
  .next (s.unfrozen (fun s => s.accessBy m (Reg.OWN n) (fun s => s.forceToken m n tag)))

/-- TOKEN_TAG_WRITE. -/
def execTokenTagWrite (m : Master) (n : Fin 32) (tag : BitVec 16) (s : State) : Host.Outcome State Fault Refusal :=
  .next (s.unfrozen (fun s => s.accessBy m (Reg.OWN n) (fun s => s.tagToken m n tag)))

end Sys2Proof.Machine
end

