-- ==== Sys2Proof/Machine/Commands.lean ====
section
/-! DEFINITION. How a command of the CR begins and ends: its reserved bits, its token, its completion (R50, R78, R84). -/

namespace Sys2Proof.Machine

/-- The bits of the sixteen doublewords that a command's layout gives a field, from those of dw2 onward; dw0 holds PHASE, QUIET and
OPCODE, dw1 the tag (R78). -/
def commandLayout (dw2on : List Nat) : List Nat := [0xC00000FF, 0xFFFFFFFF] ++ dw2on

/-- Whether the MP takes a command now: it runs, has none in execution, and the completion of every earlier one is written (R37, R84). -/
def State.mpFree (s : State) : Bool := s.mp.running && s.mp.cmd.isNone && s.host.cqQueue.all (fun c => decide (c.ring ≠ 0))

/-- The command that the MP takes next, when the oldest waiting command of the CR has the opcode (R84). -/
def State.nextCommand (s : State) (op : Nat) : Option Desc :=
  if s.mpFree then (s.nextDesc 0).filter (fun d => d.opcode == op) else none

/-- The command at the front of the CR completes with a status and a RESULT (R79, R84). -/
def State.finish (s : State) (d : Desc) (status result : Nat) : State := (s.popDesc 0).completeDesc 0 d status result

/-- The mark of a command whose ring a reset of the HOST domain has taken away: an index beyond those of any ring (R62, R69). -/
def orphanMark : Nat := 2 ^ 20

/-- A command that lasts is in execution from now on: the MP acquires its token, unless it holds that already, with a TAG that is a free
value (R50; DESIGN CHOICE, log entry 1). -/
def State.beginCommand (s : State) (d : Desc) (token : Option Nat) (left : List Nat) : State :=
  match token.filter (fun n => decide (s.holder n = 0)) with
  | none => { s with mp := { s.mp with cmd := some ⟨d, 0, left, [], none⟩ } }
  | some n =>
    let t := s.draw.2.setToken n (masterCode .mp) (s.draw.1.truncate 16)
    { t with mp := { t.mp with cmd := some ⟨d, 0, left, [], some n⟩ } }

/-- The token that the MP acquired for a command is released when the command ends, unless a session of the loader needs it (R50). -/
def State.dropToken (s : State) (c : Option MpCmd) : State :=
  match c.bind (fun c => c.token) with
  | none => s
  | some n => if n = 2 ∧ s.svc.session.isSome then s else s.releaseToken .mp n

/-- The command in execution, or the one at the front of the CR, completes with a status and a RESULT: the MP is free for the next (R84).
One whose ring a reset of the HOST domain has taken away writes no completion (DESIGN CHOICE, log entry 18). -/
def State.endCommand (s : State) (d : Desc) (status result : Nat) : State :=
  let t := { s with mp := { s.mp with cmd := none } }.dropToken s.mp.cmd
  if orphanMark ≤ (s.mp.cmd.elim d (fun c => c.desc)).index then t else t.finish d status result

/-! ## Commands whose source comes in pieces (R38, R83) -/

/-- The command of an opcode that a step carries on: the one in execution, or else the next of the CR. -/
def State.loadCommand (s : State) (op : Nat) : Option MpCmd :=
  match s.mp.cmd with
  | some c => if s.mp.running && decide (c.desc.opcode = op) then some c else none
  | none => (s.nextCommand op).map (fun d => ⟨d, 0, [], [], none⟩)

/-- What is left of a command whose entry the flash is programming. -/
def flashWorks : List Nat := [1]

/-- A command whose entry the flash is programming stays in execution under its token, with the value of the entry. -/
def State.holdFlash (s : State) (c : MpCmd) (token : Nat) (bytes : List Nat) : State :=
  let t := if c.left = flashWorks then s else s.beginCommand c.desc (some token) flashWorks
  { t with mp := { t.mp with cmd := t.mp.cmd.map (fun c => { c with fed := bytes }) } }

/-- A command that waits for the rest of its source stays in execution, with the bytes that have arrived. -/
def State.holdCommand (s : State) (c : MpCmd) (token : Option Nat) (bytes : List Nat) : State :=
  let t := if s.mp.cmd.isSome then s else s.beginCommand c.desc token []
  { t with mp := { t.mp with cmd := t.mp.cmd.map (fun c => { c with fed := bytes }) } }

end Sys2Proof.Machine
end

