-- ==== Sys2Proof/Machine/Tracker.lean ====
section
/-! DEFINITION. The time base's mirrors, the encoders, the trackers and their prediction (R137 to R154,
spec/04_dibber_placement.md). -/

namespace Sys2Proof.Machine

/-! ## Mirrors (R138 to R140) -/

def State.getMirror (s : State) (i : Nat) : Mirror := Store.get (fun _ => Mirror.reset) s.mirrors i
def State.setMirror (s : State) (i : Nat) (m : Mirror) : State :=
  { s with mirrors := Store.put (fun _ => Mirror.reset) s.mirrors i m }

/-- The value of mirror `i` in units of 2^-24: the master's and the mirror's offset (R138). -/
def State.mirrorFine (s : State) (i : Nat) : Int := (s.tb.toNat : Int) * 2 ^ 24 + s.tbFrac.toNat + (s.getMirror i).off

/-- What mirror `i` reads now, in TB units. -/
def State.mirrorNow (s : State) (i : Nat) : Nat := (s.mirrorFine i / 2 ^ 24).toNat % 2 ^ 64

/-- What the DIBBER mirror reads now. -/
def State.dibNow (s : State) : Nat := s.mirrorNow 16

/-- The block time in ps, by a rate (R255, R288). -/
def blockPs (rate : Nat) : Nat := [0, 26400, 13200, 6400].getD rate 0

/-- The rate that the Névé link of a port runs at now: the agreed one from MEASURE on, before it and while the link is down 2.5 Gb/s (R28,
R255, R261). -/
def State.clockRate (s : State) (p : Nat) : Nat := if 3 ≤ s.rd (Fld.NV_STAT_STAGE p) then s.rd (Fld.NV_STAT_RATE p) else 1

/-- The period in ps of the clock of mirror `i`: 1.6 ns in an HP island and, in mode C, one block; in DIBBER that in which TB advances by
4.0 units (R138, R255). -/
def State.localPs (s : State) (i : Nat) : Nat :=
  if i = 16 then 1000 else if s.rd (Fld.PORT_CFG_MODE i) = 2 then blockPs (s.clockRate i) else 1600

/-- Whether the clock of mirror `i` runs: its island is powered and the PLL of the island has locked (R139, R574). -/
def State.clockRuns (s : State) (i : Nat) : Bool :=
  s.domOn (if i = 16 then .place else .hpg (portGroup i)) && bitOf (s.getReg Reg.PCR_PLL_STAT) (if i = 16 then 5 else i + 6)

/-- The mirror of a port's island, or of DIBBER, is no longer calibrated (R139, R255, R574). -/
def State.uncalibrate (s : State) (i : Nat) : State := s.setMirror i { s.getMirror i with cal := false }

/-- One cycle of REFCLK25 at a mirror whose clock has a period of `ps` while the master advances by `inc`: it advances by the share that
it has adopted, less the correction of one unit in 16 local cycles (R138). The shares add up without loss: each rounded to 8 fraction
bits would carry a mirror out of the ±1 unit of R139 between two synchronisations (DEDUCED, log entry 115). -/
def Mirror.advance (m : Mirror) (ps inc : Nat) : Mirror :=
  let n := m.cyc + (m.ph + 40000) / max ps 1
  let lim : Int := 2 ^ 24 * (n / 16 : Nat)
  let c := clampInt (-lim) lim m.left
  { m with off := m.off + m.inc - inc - c, left := m.left - c, cyc := n % 16, ph := (m.ph + 40000) % max ps 1 }

/-- The calibrated mirrors advance with one cycle of REFCLK25; one that is not calibrated follows the master (R138; log entry 115). -/
def State.advanceMirrors (s : State) : State :=
  s.mirrors.foldl (fun s e => if e.2.cal then s.setMirror e.1 (e.2.advance (s.localPs e.1) s.tbInc) else s) s

/-- Whether an input has held a new level for a filter time in ns, counted from its transition at TB `t` (R142, R146). -/
def State.filtered (s : State) (t : BitVec 64) (ns : Nat) : Bool := decide (t.toNat + ns * 4 ≤ s.dibNow)

/-- FILT of encoder `n` as it applies (R142, R171). -/
def State.encFilter (s : State) (n : Nat) : Nat := min (s.rd (Fld.ENC_CFG_FILT n)) 20

/-! ## Encoders (R141 to R144) -/

def State.getEncoder (s : State) (n : Nat) : Encoder := Store.get (fun _ => Encoder.reset) s.encoders n
def State.setEncoder (s : State) (n : Nat) (e : Encoder) : State :=
  { s with encoders := Store.put (fun _ => Encoder.reset) s.encoders n e }
def State.getTracker (s : State) (n : Nat) : Tracker := Store.get (fun _ => Tracker.reset) s.trackers n
def State.setTracker (s : State) (n : Nat) (t : Tracker) : State :=
  { s with trackers := Store.put (fun _ => Tracker.reset) s.trackers n t }

/-- The step of a pair of levels in the count's direction: +1 along 00, 10, 11, 01, −1 against it, 2 when both changed, 0 when
neither did. Which input leads in the positive direction is the model's convention (DESIGN CHOICE, log entry 7). -/
def quadStep (a b a' b' : Bool) : Int :=
  let place : Bool → Bool → Int := fun a b =>
    match a, b with
    | false, false => 0
    | true, false => 1
    | true, true => 2
    | false, true => 3
  match ((place a' b' - place a b) % 4) with
  | 1 => 1
  | 3 => -1
  | 2 => 2
  | _ => 0

/-- The position step of one edge in ticks: 65,536 >> SHIFT (R141). -/
def State.edgeTicks (s : State) (n : Nat) : Int := 65536 / 2 ^ s.rd (Fld.ENC_CFG_SHIFT n)

/-- The velocity of tracker `n`, in 2^−16 ticks per µs. -/
def State.trkVel (s : State) (n : Nat) : Int := signedOf 32 (s.getReg (Reg.TRK_VEL n)).toNat
def State.trkAcc (s : State) (n : Nat) : Int := signedOf 32 (s.getReg (Reg.TRK_ACC n)).toNat
def State.trkPos (s : State) (n : Nat) : Int := signedOf 48 (s.rd64 (Reg.TRK_POS_LO n))
def State.trkRef (s : State) (n : Nat) : Nat := s.rd64 (Reg.TRK_TREF_LO n)

/-- `k` edges counted on encoder `n`, timestamped `t`: the count, LAST, and the measurement that waits for the source stage (R141,
R142, R149). -/
def State.countEdges (s : State) (n : Nat) (k : Int) (t : Nat) : State :=
  let cnt := (s.getReg (Reg.ENC_CNT n)).toNat
  let s := s.setReg (Reg.ENC_CNT n) (BitVec.ofNat 32 (patternOf 32 (cnt + k)))
  let s := s.wr64 (Reg.ENC_LAST_LO n) t
  let tr := s.getTracker n
  let pe := pos48 (tr.pe + k * s.edgeTicks n)
  s.setTracker n { tr with pe := pe, te := t, meas := some (pe, t) }

/-- A phase error of encoder `n` (R142). -/
def State.phaseError (s : State) (n : Nat) : State := (s.bumpSat (Fld.ENC_ERR_PHASE_ERR n)).report 0x004 (BitVec.ofNat 32 n)

/-- A step of the quadrature decoder at TB `t`: 1 or -1, or 2 where both levels change (R142). -/
def State.takeEdge (s : State) (n : Nat) (d : Int) (t : Nat) : State :=
  if d = 2 then
    let v := s.trkVel n
    let s := if v = 0 then s else s.countEdges n (if 0 < v then 2 else -2) t
    s.phaseError n
  else s.countEdges n (if s.on (Fld.ENC_CFG_INV n) then -d else d) t

/-- ENCODER_EDGE: the levels of encoder `n` are (a, b) since a transition at TB `t` (R141 to R143). Before the filter time has passed the
transition is not accepted: one that bounces back is discarded. With EN clear the count holds (R171); an edge during a freeze is not counted
(R595). -/
def execEncoderEdge (n : Fin 16) (a b : Bool) (t : BitVec 64) (s : State) : Host.Outcome State Fault Refusal :=
  .next (
    if !s.domOn .place || !s.filtered t (s.encFilter n) then s else
    let e := s.getEncoder n
    let d := quadStep e.a e.b a b
    let s := s.setEncoder n { e with a := a, b := b }
    if s.hf.active || !s.on (Fld.ENC_CFG_EN n) || decide (d = 0) then s
    else State.injectAt 0x004 (fun s => (s.takeEdge n d t.toNat).phaseError n) (fun s => s.takeEdge n d t.toNat) s)

/-- A Z error of encoder `n` (R144). -/
def State.zError (s : State) (n : Nat) : State := (s.bumpSat (Fld.ENC_ERR_Z_ERR n)).report 0x005 (BitVec.ofNat 32 n)

/-- Encoder `n` has seen Z high since a transition at TB `t`, and the filter time has passed (R142, R144). -/
def State.zEdge (s : State) (n : Fin 16) (t : BitVec 64) : State :=
  s.unfrozen (fun s =>
    if !s.domOn .place || !s.filtered t (s.encFilter n) then s else
    let e := s.getEncoder n
    let cnt := (s.getReg (Reg.ENC_CNT n)).toNat
    let zcpr := (s.getReg (Reg.ENC_ZCPR n)).toNat
    let s := s.setEncoder n { e with zLast := some cnt }
    match e.zLast with
    | none => s
    | some z =>
      if s.rd (Fld.ENC_CFG_Z_MODE n) ≠ 1 ∨ zcpr = 0 then s
      else State.injectAt 0x005 (fun s => s.zError n)
        (fun s => if (signedOf 32 (patternOf 32 ((cnt : Int) - z))).natAbs = zcpr then s else s.zError n) s)

/-- Z_EDGE: a rising edge of Z, given as its encoder and the time of its transition. -/
def execZEdge (e : Fin 16 × BitVec 64) (s : State) : Host.Outcome State Fault Refusal := .next (s.zEdge e.1 e.2)

/-! ## The trackers (R148 to R153) -/

/-- The time from Tref to `t` in µs, Q32.32 (R150). -/
def usQ32 (t tref : Nat) : Int := saturate 64 (roundDiv (((t : Int) - tref) * 2 ^ 32) 4000)

/-- Tracker `n` with position, velocity and acceleration as stored values; the two rates saturate (R135, R153). -/
def State.storeTrack (s : State) (n : Nat) (x v a : Int) (t : Nat) : State :=
  let vc := saturate 32 v
  let ac := saturate 32 a
  let s := s.wr64 (Reg.TRK_POS_LO n) (patternOf 48 x)
  let s := s.setReg (Reg.TRK_VEL n) (BitVec.ofNat 32 (patternOf 32 vc))
  let s := s.setReg (Reg.TRK_ACC n) (BitVec.ofNat 32 (patternOf 32 ac))
  let s := s.wr64 (Reg.TRK_TREF_LO n) t
  let s := s.wrBit (Fld.TRK_STAT_VSAT n) (decide (vc ≠ v))
  s.wrBit (Fld.TRK_STAT_ASAT n) (decide (ac ≠ a))

/-- A measurement (P, T) updates tracker `n` (R150). -/
def State.trackUpdate (s : State) (n : Nat) (p : Int) (t : Nat) : State :=
  let tr := s.getTracker n
  let x := s.trkPos n
  let dt := usQ32 t (s.trkRef n)
  let tr := { tr with meas := none, used := some t }
  match tr.mode with
  | .still =>
    ((s.setTracker n { tr with mode := .start }).storeTrack n p 0 0 t).wr (Fld.TRK_STAT_STILL n) 0
  | .start =>
    let v := roundDiv (pos48 (p - x) * 2 ^ 48) (max dt 1)
    (s.setTracker n { tr with mode := .track }).storeTrack n p v 0 t
  | .track =>
    let alpha := s.rd (Fld.TRK_GAIN_ALPHA n)
    let beta := s.rd (Fld.TRK_GAIN_BETA n)
    let gamma := s.rd (Fld.TRK_CFG_GAMMA n)
    let dq := quotOf (max dt 1) (2 ^ 32)
    let v := quotOf (s.trkVel n) (2 ^ 16)
    let a := quotOf (s.trkAcc n) (2 ^ 24)
    let moved := quotAdd (quotMul v dq) (quotMul (quotMul a (quotMul dq dq)) (quotOf 1 2))
    let vp := quotAdd v (quotMul a dq)
    let r := quotSub (quotInt (pos48 (p - x))) moved
    let x' := x + quotRound (quotAdd moved (quotMul (quotOf alpha (2 ^ 16)) r))
    let v' := quotRound (quotMul (quotAdd vp (quotDiv (quotMul (quotOf beta (2 ^ 16)) r) dq)) (quotInt (2 ^ 16)))
    let a' := quotRound (quotMul (quotAdd a (quotDiv (quotMul (quotOf (2 * gamma) (2 ^ 16)) r) (quotMul dq dq))) (quotInt (2 ^ 24)))
    (s.setTracker n tr).storeTrack n (pos48 x') v' a' t

/-- The least measurement spacing (R174). -/
def State.minDt (s : State) (n : Nat) : Nat := max (s.rd (Fld.TRK_CFG_MIN_DT n)) 1000

/-- TRACKER_STILL's effect: velocity and acceleration 0, mode STILL (R152). -/
def State.stillTracker (s : State) (n : Nat) : State :=
  let s := s.setTracker n { s.getTracker n with mode := .still, meas := none }
  let s := (s.setReg (Reg.TRK_VEL n) 0).setReg (Reg.TRK_ACC n) 0
  ((s.wr (Fld.TRK_STAT_STILL n) 1).wr (Fld.TRK_STAT_VSAT n) 0).wr (Fld.TRK_STAT_ASAT n) 0

/-- The STILL time of a tracker in TB units; 0 applies 10 ms (R152, R174). -/
def State.stillTime (s : State) (n : Nat) : Nat :=
  if s.getReg (Reg.TRK_STILL n) = 0 then 40000000 else (s.getReg (Reg.TRK_STILL n)).toNat

/-- TRACKER_STILL: the STILL time has passed since the last edge or sample of the tracker (R152). -/
def execTrackerStill (n : Fin 24) (s : State) : Host.Outcome State Fault Refusal :=
  .next (s.unfrozen (fun s =>
    if s.domOn .place && decide ((s.getTracker n).te + s.stillTime n ≤ s.dibNow) then s.stillTracker n else s))

/-! ## Prediction (R151) -/

/-- What the prediction gives: position, velocity in ticks per µs, acceleration, and whether the last edge bounded it. -/
structure Predicted where
  x     : Quot
  v     : Quot
  a     : Quot
  clamp : Bool
  deriving DecidableEq, Repr

/-- The prediction of source `n` at TB `t`, as differences from the tracker's position (R151). -/
def State.predict (s : State) (n : Nat) (t : Nat) : Predicted :=
  let dq := quotOf (usQ32 t (s.trkRef n)) (2 ^ 32)
  let v := quotOf (s.trkVel n) (2 ^ 16)
  let a := quotOf (s.trkAcc n) (2 ^ 24)
  let xq := quotAdd (quotMul v dq) (quotMul (quotMul a (quotMul dq dq)) (quotOf 1 2))
  let vq := quotAdd v (quotMul a dq)
  let tr := s.getTracker n
  if n < 16 ∧ tr.te < t then
    let e := s.edgeTicks n
    let vb := quotOf (e * 4000) (t - tr.te)
    let pe := pos48 (tr.pe - s.trkPos n)
    let hi := quotInt (pe + e)
    let lo := quotInt (pe - e)
    let c := quotLt hi xq || quotLt xq lo
    let xq := if quotLt hi xq then hi else if quotLt xq lo then lo else xq
    if quotLt vb vq then ⟨xq, vb, quotInt 0, true⟩
    else if quotLt vq (quotNeg vb) then ⟨xq, quotNeg vb, quotInt 0, true⟩
    else ⟨xq, vq, a, c⟩
  else ⟨xq, vq, a, false⟩

/-- The position source of context `c` and its direction (R100). -/
def State.posSrc (s : State) (c : Nat) : Nat := s.rd (Fld.CTX_BINDING_POS_SRC c)

/-- The prediction in the forward coordinate u of context `c`: negated when DIR is set (R155). -/
def State.predictFwd (s : State) (c : Nat) (t : Nat) : Predicted :=
  let p := s.predict (s.posSrc c) t
  if s.on (Fld.CTX_BINDING_DIR c) then ⟨quotNeg p.x, quotNeg p.v, quotNeg p.a, p.clamp⟩ else p

/-- The forward coordinate of the tracker's own position, to which `predictFwd`'s x is relative. -/
def State.fwdBase (s : State) (c : Nat) : Int :=
  let x := s.trkPos (s.posSrc c)
  if s.on (Fld.CTX_BINDING_DIR c) then -x else x

/-- The forward position of context `c` at TB `t`, rounded to a whole tick, modulo 2^48 (R113, R155). -/
def State.fwdAt (s : State) (c : Nat) (t : Nat) : Int := pos48 (s.fwdBase c + quotRound (s.predictFwd c t).x)

/-- The forward travel from one position to another: their signed 48-bit difference (R136). -/
def travel (fromU toU : Int) : Int := pos48 (toU - fromU)

end Sys2Proof.Machine
end

