-- ==== Sys2Proof/Machine/RosePulse.lean ====
section
/-! DEFINITION. What Rose computes for a port: windows, fill, droop, scale, the port minimum and the configuration check
(R296 to R312, spec/08_rose_pulse_shaping.md). -/

namespace Sys2Proof.Machine

def State.getPort (s : State) (p : Nat) : Port := Store.get (fun _ => Port.reset) s.ports p
def State.setPort (s : State) (p : Nat) (x : Port) : State :=
  { s with ports := Store.put (fun _ => Port.reset) s.ports p x }

/-- The mode of a port: 0 A, 1 B, 2 C (R285). -/
def State.portMode (s : State) (p : Nat) : Nat := s.rd (Fld.PORT_CFG_MODE p)

/-- A latch timing field with its default (R286): T_LATW of 0 applies 1, and mode C ignores T_SL and T_LATW. -/
def State.tLatw (s : State) (p : Nat) : Nat := if s.portMode p = 2 then 0 else max (s.rd (Fld.PORT_TIM0_T_LATW p)) 1
def State.tSl (s : State) (p : Nat) : Nat := if s.portMode p = 2 then 0 else s.rd (Fld.PORT_TIM0_T_SL p)
def State.tLs (s : State) (p : Nat) : Nat := s.rd (Fld.PORT_TIM0_T_LS p)
def State.tLh (s : State) (p : Nat) : Nat := s.rd (Fld.PORT_TIM1_T_LH p)

/-! ## Slots (R296) -/

/-- The window ends END0 to END6 of slot `w` of port `p`, in samples. -/
def State.slotEnds (s : State) (p w : Nat) : List Nat :=
  [s.rd (Fld.ROSE_WAVE_END01_END0 p w), s.rd (Fld.ROSE_WAVE_END01_END1 p w), s.rd (Fld.ROSE_WAVE_END23_END2 p w),
   s.rd (Fld.ROSE_WAVE_END23_END3 p w), s.rd (Fld.ROSE_WAVE_END45_END4 p w), s.rd (Fld.ROSE_WAVE_END45_END5 p w),
   s.rd (Fld.ROSE_WAVE_END6_END6 p w)]

/-- A list that rises strictly from `lo` and stays below `hi`. -/
def risesWithin (lo hi : Nat) : List Nat → Bool
  | [] => true
  | x :: t => decide (lo < x) && decide (x < hi) && risesWithin x hi t

/-- A window count of 1 to 8 with ends 0 to NWIN − 2 strictly increasing below LEN (R296, R312). -/
def windowsOk (nwin len : Nat) (ends : List Nat) : Bool :=
  decide (1 ≤ nwin) && decide (nwin ≤ 8) &&
  (match ends.take (nwin - 1) with
   | [] => true
   | e :: t => decide (e < len) && risesWithin e len t)

/-- A calibration record is valid when FILL_LO ≤ FILL_HI ≤ 4,096 (R303). -/
def recordOk (lo hi : Nat) : Bool := decide (lo ≤ hi) && decide (hi ≤ 4096)

/-- Whether slot `w` of port `p` is valid (R296). -/
def State.slotValid (s : State) (p w : Nat) : Bool :=
  decide (1 ≤ s.rd (Fld.ROSE_WAVE_LEN_LEN p w)) && decide (s.rd (Fld.ROSE_WAVE_LEN_LEN p w) ≤ 2048) &&
  windowsOk (s.rd (Fld.ROSE_WAVE_LEN_NWIN p w)) (s.rd (Fld.ROSE_WAVE_LEN_LEN p w)) (s.slotEnds p w) &&
  recordOk (s.rd (Fld.ROSE_WAVE_CALF_FILL_LO p w)) (s.rd (Fld.ROSE_WAVE_CALF_FILL_HI p w)) &&
  !s.on (Fld.ROSE_WAVE_LEN_LOADING p w)

/-! ## Thermal windows (R299) -/

/-- A level of a thermal bin: P, D and M in 2 ns units. -/
structure Heat where
  p : Nat
  d : Nat
  m : Nat
  deriving DecidableEq, Repr

/-- A word of the thermal table (R318). -/
def heatOf (w : Word) : Heat := ⟨bitsOf w 9 0, bitsOf w 19 10, bitsOf w 31 20⟩

/-- S of a level: the start of its main pulse (R299). -/
def Heat.start (h : Heat) : Nat := if 0 < h.p then h.p + h.d else 0

/-- A sorted list with `x` put in its place, once. -/
def insertOnce (x : Nat) : List Nat → List Nat
  | [] => [x]
  | y :: t => if x < y then x :: y :: t else if x = y then y :: t else y :: insertOnce x t

/-- The window starts E of a bin's three levels, sorted and distinct (R299). -/
def binEdges (hs : List Heat) : List Nat :=
  hs.foldl (fun e h =>
    let e := if 0 < h.p then insertOnce h.p e else e
    if 0 < h.m then insertOnce (h.start + h.m) (insertOnce h.start e) else e) [0]

/-- The mask of a level over the windows that begin at the given starts (R299). -/
def heatMask (h : Heat) (starts : List Nat) : Nat :=
  (starts.zipIdx.foldl (fun acc x =>
    if (0 < h.p ∧ x.1 < h.p) ∨ (0 < h.m ∧ h.start ≤ x.1 ∧ x.1 < h.start + h.m) then acc + 2 ^ x.2 else acc) 0)

/-- The least main-pulse start of a bin; 0 when no level has a main pulse (R299). -/
def binSMin (hs : List Heat) : Nat :=
  match (hs.filter (fun h => decide (0 < h.m))).map Heat.start with
  | [] => 0
  | x :: t => t.foldl min x

/-- The differences of a rising list. -/
def gapsOf : List Nat → List Nat
  | x :: y :: t => (y - x) :: gapsOf (y :: t)
  | _ => []

/-- The configuration error of a thermal bin in a mode: 0x6, 0x7, 0x8, or 0 (R299, R312). -/
def binError (mode maxlen : Nat) (hs : List Heat) : Nat :=
  let e := binEdges hs
  if e.length - 1 = 0 ∨ 8 < e.length - 1 then 6
  else if mode ≠ 2 ∧ (gapsOf e).any (fun g => decide (g < 10)) then 7
  else if maxlen = 0 ∨ hs.any (fun h => decide (maxlen < h.p) || (decide (0 < h.m) && decide (maxlen < h.start + h.m))) then 8
  else 0

/-- The three levels of bin `b` of port `p` as the table in force reads (R318). -/
def State.binHeats (s : State) (p b : Nat) : List Heat :=
  (List.range 3).map (fun l => heatOf (s.getReg (Reg.ROSE_TH p b l)))

/-! ## Droop and scale (R302) -/

/-- Interpolation between 33 table points, 128 apart (R302, R461). -/
def interpolate (tab : Nat → Int) (f : Nat) : Int :=
  let i := f / 128
  let r := f % 128
  if i = 32 then tab 32 else tab i + (((tab (i + 1) - tab i) * r + 64) / 128)

/-- Entry `i` of the droop table; 0 applies 1 (R302). -/
def State.droopAt (s : State) (p i : Nat) : Int := max (s.rd (Fld.ROSE_DROOP_D p i)) 1

/-- The calibration record of the thermal mode, or of slot `w` (R303): GAIN, FILL_LO, FILL_HI. -/
def State.calRecord (s : State) (p : Nat) (thermal : Bool) (w : Nat) : Nat × Nat × Nat :=
  if thermal then
    (s.rd (Fld.ROSE_TCALG_GAIN p), s.rd (Fld.ROSE_TCALF_FILL_LO p), s.rd (Fld.ROSE_TCALF_FILL_HI p))
  else
    (s.rd (Fld.ROSE_WAVE_CALG_GAIN p w), s.rd (Fld.ROSE_WAVE_CALF_FILL_LO p w), s.rd (Fld.ROSE_WAVE_CALF_FILL_HI p w))

/-- The scale s of a line with fill `f` under a record, Q2.14, saturating (R302). -/
def State.roseScale (s : State) (p : Nat) (r : Nat × Nat × Nat) (f : Nat) : Nat :=
  if s.on (Fld.ROSE_CFG_DROOP_EN p) then
    let ref := min ((r.2.1 + r.2.2) / 2) 4096
    min (roundDiv (r.1 * interpolate (s.droopAt p) f) (max (interpolate (s.droopAt p) ref) 1)).toNat 0xFFFF
  else r.1

/-! ## The configuration check (R312) -/

/-- The reason for which Rose's written settings of port `p` are not valid, the lowest that applies; 0 when they are (R312). -/
def State.roseErr (s : State) (p : Nat) : Nat :=
  let w := s.rd (Fld.ROSE_CFG_ACT_SLOT p)
  let len := s.rd (Fld.ROSE_WAVE_LEN_LEN p w)
  let thermal := s.on (Fld.ROSE_CFG_THERMAL p)
  let r := s.calRecord p thermal w
  let maxlen := s.rd (Fld.ROSE_THERM_MAXLEN p)
  let be := binError (s.portMode p) maxlen (s.binHeats p (s.getPort p).bin)
  if !thermal ∧ (len = 0 ∨ 2048 < len) then 1
  else if !thermal ∧ w = 7 then 2
  else if !thermal ∧ !windowsOk (s.rd (Fld.ROSE_WAVE_LEN_NWIN p w)) len (s.slotEnds p w) then 3
  else if !thermal ∧ s.on (Fld.ROSE_WAVE_LEN_LOADING p w) then 4
  else if !recordOk r.2.1 r.2.2 then 5
  else if thermal ∧ be ≠ 0 then be
  else if s.portMode p ≠ 2 ∧ s.tLh p < 2 then 9
  else if s.portMode p = 2 ∧ (s.getPort p).loadErr then 10
  else 0

/-! ## Settings in force (R306) -/

/-- The words that only a quiet point puts in force, as written now. -/
def State.roseWritten (s : State) (p : Nat) : List Word :=
  let w := s.rd (Fld.ROSE_CFG_ACT_SLOT p)
  [s.getReg (Reg.ROSE_CFG p) &&& 0x8700FFFF, s.getReg (Reg.ROSE_ADV p), s.getReg (Reg.ROSE_THERM p), s.getReg (Reg.ROSE_TBIN p),
   s.getReg (Reg.ROSE_WAVE_LEN p w) &&& 0x3FFFFFFF, s.getReg (Reg.ROSE_WAVE_END01 p w), s.getReg (Reg.ROSE_WAVE_END23 p w),
   s.getReg (Reg.ROSE_WAVE_END45 p w), s.getReg (Reg.ROSE_WAVE_END6 p w), s.getReg (Reg.ROSE_WAVE_MASK p w)] ++
  (List.range 48).map (fun i => s.getReg (Reg.ROSE_TH p (i / 3) (i % 3)))

/-- Word `i` of the settings in force on port `p`. -/
def State.forced (s : State) (p i : Nat) : Word :=
  match (s.getPort p).force with
  | none => 0
  | some f => dwAt f.words i

def State.forcedThermal (s : State) (p : Nat) : Bool := bitOf (s.forced p 0) 31
def State.forcedSlot (s : State) (p : Nat) : Nat := bitsOf (s.forced p 0) 26 24

/-- The record in use (R303). -/
def State.recordInUse (s : State) (p : Nat) : Nat × Nat × Nat := s.calRecord p (s.forcedThermal p) (s.forcedSlot p)
def State.forcedLen (s : State) (p : Nat) : Nat := bitsOf (s.forced p 4) 11 0
def State.forcedNwin (s : State) (p : Nat) : Nat := bitsOf (s.forced p 4) 19 16
def State.forcedMaxlen (s : State) (p : Nat) : Nat := bitsOf (s.forced p 2) 13 0

/-- The window ends in force, in samples. -/
def State.forcedEnds (s : State) (p : Nat) : List Nat :=
  [bitsOf (s.forced p 5) 11 0, bitsOf (s.forced p 5) 27 16, bitsOf (s.forced p 6) 11 0, bitsOf (s.forced p 6) 27 16,
   bitsOf (s.forced p 7) 11 0, bitsOf (s.forced p 7) 27 16, bitsOf (s.forced p 8) 11 0]

/-- The thermal levels in force for the bin in force. -/
def State.forcedHeats (s : State) (p : Nat) : List Heat :=
  (List.range 3).map (fun l => heatOf (s.forced p (10 + 3 * (s.getPort p).bin + l)))

/-- The level masks in force, levels 1 to 3 (R299, R306). -/
def State.forcedMasks (s : State) (p : Nat) : List Nat :=
  if s.forcedThermal p then
    let hs := s.forcedHeats p
    hs.map (fun h => heatMask h (binEdges hs).dropLast)
  else [bitsOf (s.forced p 9) 7 0, bitsOf (s.forced p 9) 15 8, bitsOf (s.forced p 9) 23 16]

/-- A thermal window start after scaling (R302). -/
def scaleEdge (smin scale e : Nat) : Nat := if e ≤ smin then e else smin + (roundDiv ((e - smin : Nat) * scale) 16384).toNat

/-- Window starts lengthened to at least `least` apart, later ones moving by the difference (R302). -/
def lengthenFrom (least prev shift : Nat) : List Nat → List Nat
  | [] => []
  | y :: t =>
    let z := max (y + shift) (prev + least)
    z :: lengthenFrom least z (z - y) t

/-- The same, over a list of starts whose first is fixed. -/
def lengthen (least : Nat) : List Nat → List Nat
  | [] => []
  | x :: t => x :: lengthenFrom least x 0 t

/-- The pulse length of a line with a scale, in TB units: LEN × 20 ns, or the last scaled window end (R290, R301, R302). -/
def State.pulseLen (s : State) (p scale : Nat) : Nat :=
  if s.forcedThermal p then
    let hs := s.forcedHeats p
    let e := (binEdges hs).map (scaleEdge (binSMin hs) scale)
    let e := if s.portMode p = 2 then e else lengthen 5 e
    8 * min (e.getLastD 0) (s.forcedMaxlen p)
  else 80 * s.forcedLen p

/-- The value of sample `x` under a scale (R302), before it is held to 16 bits. -/
def scaleSample (rest x : Int) (scale : Nat) : Int := rest + roundDiv ((x - rest) * scale) 16384

/-- REST_CODE in force. -/
def State.restCode (s : State) (p : Nat) : Int := signedOf 16 (bitsOf (s.forced p 0) 15 0)

/-- Sample `k` of a list of words with two 16-bit samples each, the lower first (R295, R331). -/
def sampleOf (w : Word) (k : Nat) : Int := signedOf 16 (if k % 2 = 0 then bitsOf w 15 0 else bitsOf w 31 16)

/-- Whether a line with a scale has a window lengthened or cut (R302). -/
def State.windowSaturates (s : State) (p scale : Nat) : Bool :=
  let e := (binEdges (s.forcedHeats p)).map (scaleEdge (binSMin (s.forcedHeats p)) scale)
  (decide (s.portMode p ≠ 2) && (gapsOf e).any (fun g => decide (g < 5))) || e.any (fun x => decide (s.forcedMaxlen p < x))

/-- The port minimum PMIN in TB units, from the settings in force and PMIN_SET (R309). -/
def State.portMin (s : State) (p : Nat) : Nat :=
  let rate := if s.forcedThermal p then 111112 else 62500
  let pl := if s.forcedThermal p then s.forcedMaxlen p * 8 else s.forcedLen p * 80
  max rate (max ((pl * 10 + (s.tLh p + s.tLatw p + s.tLs p) * 64 + 9) / 10) (s.rd (Fld.ROSE_PMIN_SET_FLOOR p)))

end Sys2Proof.Machine
end

