-- ==== Sys2Proof/Machine/Waveform.lean ====
section
/-! DEFINITION. The waveform output of a port and the instants of its strobes (R167, R253, R259, R297 to R302, R305, R310, R311,
spec/04_dibber_placement.md, spec/07_head_ports.md, spec/08_rose_pulse_shaping.md). -/

namespace Sys2Proof.Machine

def State.onPort (s : State) (p : Nat) (f : Port → Port) : State := s.setPort p (f (s.getPort p))
def State.getWave (s : State) (p : Nat) : Wave := (s.getPort p).wave
def State.onWave (s : State) (p : Nat) (f : Wave → Wave) : State := s.onPort p (fun x => { x with wave := f x.wave })

/-! ## The stream (R297, R298, R301, R302) -/

/-- THERM_CODE and WAVE_ADV in force (R298, R318). -/
def State.thermCode (s : State) (p : Nat) : Int := signedOf 16 (bitsOf (s.forced p 2) 31 16)
def State.waveAdv (s : State) (p : Nat) : Nat := min 360 (bitsOf (s.forced p 1) 8 0)

/-- Codes leave on the waveform output from an instant in tenths of a TB unit, one in each sample period of 20 ns. The last one holds. -/
def State.sendCodes (s : State) (p : Nat) (at_ : Int) (codes : List Int) : State :=
  match codes.getLast? with
  | none => s
  | some c => (s.onWave p (fun w => { w with code := c, ramp := none })).emit (.wave p at_ codes)

/-- The codes of a linear ramp over `n` samples. Each is rounded (DESIGN CHOICE, log entry 112). -/
def rampCodes (a b : Int) (n : Nat) : List Int := (List.range n).map (fun (i : Nat) => a + roundDiv ((b - a) * (i + 1)) n)

/-- The code that the waveform output carries now. -/
def State.waveCode (s : State) (p : Nat) : Int :=
  let w := s.getWave p
  match w.ramp with
  | none => w.code
  | some r => (rampCodes r.first w.code r.len).getD ((s.mirrorNow p - r.start) / 80) w.code

/-- Sample `k` of slot `w` under a scale, held to 16 bits, and whether it had to be (R302). -/
def State.sampleSent (s : State) (p w scale k : Nat) : Int × Bool :=
  let y := scaleSample (s.restCode p) (sampleOf (s.getReg (Reg.WAVE_RAM p (w * 1024 + k / 2))) k) scale
  (saturate 16 y, decide (saturate 16 y ≠ y))

/-- How many samples of a stream begin by an instant. -/
def Play.begun (y : Play) (t : Int) : Nat :=
  if y.slot.isNone || decide (t < y.start) then y.sent
  else max y.sent (min ((y.fin - y.start) / 800) ((t - y.start) / 800 + 1)).toNat

/-- The stream of a pulse goes on to an instant, in tenths of a TB unit: its samples are read as they are sent, a line with a held sample
is counted once, and the stream returns to REST_CODE when it has ended (R297, R298, R302). -/
def State.playTo (s : State) (p : Nat) (t : Int) : State :=
  match (s.getWave p).play with
  | none => s
  | some y =>
    let n := y.begun t
    let new := (List.range (n - y.sent)).map (fun i => s.sampleSent p (y.slot.getD 0) y.scale (y.sent + i))
    let held := y.line && new.any (fun x => x.2)
    let s := s.onWave p (fun w => { w with play := some { y with sent := n, sat := y.sat || held } })
    let s := s.sendCodes p (y.start + 800 * y.sent) (new.map (fun x => x.1))
    let s := if held && !y.sat then s.bumpSat (Fld.ROSE_CNT_SAT_COUNT p) else s
    if y.fin ≤ t then (s.onWave p (fun w => { w with play := none })).sendCodes p y.fin [s.restCode p] else s

/-- The stream goes on to now: before a write of the waveform RAM, and at the end of a pulse. -/
def State.playNow (s : State) (p : Nat) : State := s.playTo p (s.mirrorNow p * 10)

/-- A pulse or a tickle at `t` begins to stream, WAVE_ADV ahead of the strobe's edge: a slot under a scale, or in thermal mode the code of a
pulse of `len` TB units (R297, R301, R305). A stream begins with its STROBE (DESIGN CHOICE, log entry 112). -/
def State.startPlay (s : State) (p : Nat) (slot : Option Nat) (scale t len : Nat) (line : Bool) : State :=
  let start : Int := t * 10 + 384 - s.waveAdv p * 10
  let s := s.playTo p start
  match slot with
  | none =>
    (s.onWave p (fun w => { w with play := some ⟨none, scale, start, t * 10 + 384 + len * 10, 0, line, false⟩ })).sendCodes p start [s.thermCode p]
  | some w =>
    (s.onWave p (fun x => { x with play := some ⟨some w, scale, start, start + len * 10, 0, line, false⟩ })).playNow p

/-- What streams ends: the output ramps from its code to another over `n` samples (R310, R311). -/
def State.rampWave (s : State) (p : Nat) (target : Int) (n : Nat) : State :=
  let s := s.playNow p
  let a := s.waveCode p
  if (s.getWave p).play.isNone && (s.getWave p).ramp.isNone && decide (a = target) then s
  else
    let now := s.mirrorNow p
    let s := (s.onWave p (fun w => { w with play := none })).sendCodes p (now * 10) (rampCodes a target n)
    s.onWave p (fun w => { w with ramp := some ⟨a, now, n⟩ })

/-- A tickle that a line's fire cuts: the stream returns to REST_CODE at the next sample boundary (R327). -/
def State.cutTickle (s : State) (p : Nat) : State :=
  let s := s.playNow p
  match (s.getWave p).play with
  | none => s
  | some y => (s.onWave p (fun w => { w with play := none })).sendCodes p (y.start + 800 * y.sent) [s.restCode p]

/-- The output carries a code at once, whatever it did. -/
def State.forceWave (s : State) (p : Nat) (c : Int) : State :=
  let s := s.playNow p
  if (s.getWave p).play.isNone && (s.getWave p).ramp.isNone && decide ((s.getWave p).code = c) then s
  else (s.onWave p (fun w => { w with play := none })).sendCodes p (s.mirrorNow p * 10) [c]

/-! ## The instants of a strobe (R167, R253, R259) -/

/-- NV_CFG.CLAT as it applies (R288). -/
def State.clat (s : State) (p : Nat) : Nat := min (s.rd (Fld.NV_CFG_CLAT p)) 8000

/-- The instant of a strobe with fire time `t`, in tenths of a TB unit: STB0's first edge, or the head's strobe (R253, R259). -/
def State.strobeAt (s : State) (p t : Nat) : Nat := if s.portMode p = 2 then (t + s.clat p) * 10 else t * 10 + 384

/-- The share of the mirror's increment that falls to a local cycle, in units of 2^-24 (R138). -/
def State.localShare (s : State) (p : Nat) : Int := max 1 (roundDiv ((s.getMirror p).inc * s.localPs p) 40000)

/-- How many blocks after the present one the STROBE block of fire time `t` is due, and its DELAY there: at the latest block boundary at
which DELAY is at least 64 (R259). -/
def State.strobeBlockDue (s : State) (p t : Nat) : Int × Nat :=
  let inc := s.localShare p
  let d : Int := ((t + s.clat p : Nat) - (s.rd (Fld.NV_LAT_LINK_LAT p) + s.rd (Fld.NV_LAT_HEAD_LAT p) : Nat) : Int) * 2 ^ 24 - s.mirrorFine p
  let k := (d - 127 * 2 ^ 23) / inc
  (k, (roundDiv (d - k * inc) (2 ^ 24)).toNat)

/-- Whether the time for the strobe of a fire time has come: the mirror has reached T − 6.4 units, or in mode C the boundary of its STROBE
block (R167, R259). -/
def State.strobeDue (s : State) (p t : Nat) : Bool :=
  if s.portMode p = 2 then decide ((s.strobeBlockDue p t).1 ≤ 0)
  else decide ((t : Int) * 10 * 2 ^ 24 ≤ s.mirrorFine p * 10 + 64 * 2 ^ 24)

/-- The tap of the delay line that places a strobe edge: from the start of the 625 MHz cycle at which the mirror first reaches or passes
T − 6.4 units, in 250 ps steps (R167). -/
def State.strobeTap (s : State) (p t : Nat) : Nat :=
  let lead : Int := roundDiv (64 * 2 ^ 24) 10
  let past := (s.mirrorFine p - (t : Int) * 2 ^ 24 + lead) % s.localShare p
  (min 7 (roundDiv (lead - past) (2 ^ 24))).toNat

end Sys2Proof.Machine
end

