-- ==== Sys2Proof/Machine/PortState.lean ====
section
/-! DEFINITION. The state of a head port and what follows from it: configuration check, lead and spacing (R242, R246, R285,
spec/07_head_ports.md). -/

namespace Sys2Proof.Machine

/-! ## Fault scopes (R489) -/

/-- The STATE field of a fault scope: 0 OK, 1 FAULT, 2 LATCHED. -/
def State.scopeState (s : State) (sc : Nat) : Nat := s.rd (Fld.RAKE_SCOPE_STATE sc)

/-- The scope whose DIBBER contexts and head ports a source tells directly: it is a firing-path source of class fatal in the
DIBBER island or an HP island (R479, R482, R499). -/
def directScope (src : Nat) : Option Nat :=
  if src = 0x001 then some 0
  else if 0x040 ≤ src ∧ src < 0x050 then some (0x100 + (src - 0x040))
  else if 0x100 ≤ src ∧ src ≤ 0x1FE then some (0x200 + (src - 0x100))
  else none

/-- Whether the ports have been told of a fatal report for a scope that is still on its way to AON (R479). -/
def State.toldFault (s : State) (sc : Nat) : Bool := s.rakeQ.any (fun r => !r.rail && decide (directScope r.src = some sc))

/-- Whether a scope, or the device that encloses it, is in FAULT or LATCHED (R489), or firing has been stopped for it (R479). -/
def State.scopeBad (s : State) (sc : Nat) : Bool :=
  decide (s.scopeState 0 ≠ 0) || decide (s.scopeState sc ≠ 0) || s.toldFault 0 || s.toldFault sc

/-! ## Housekeeping as the ports see it -/

def State.getChan (s : State) (c : Nat) : HkChan := Store.get (fun _ => HkChan.reset) s.hk c
def State.setChan (s : State) (c : Nat) (x : HkChan) : State := { s with hk := Store.put (fun _ => HkChan.reset) s.hk c x }

/-- Whether channel `c` is fitted; that of a head thermistor on an absent or retired port reads 0 (R464). -/
def State.fitted (s : State) (c : Nat) : Bool :=
  s.on (Fld.HK_CH_CFG_FITTED c) && (decide (c < 40 ∨ 56 ≤ c) || s.portPresent (c - 40))

/-! ## The configuration check (R285, R612) -/

/-- The lane of a port's lane map, from its nibble. -/
def State.laneOf (s : State) (p l : Nat) : Nat :=
  bitsOf (s.getReg (if l < 8 then Reg.PORT_LANEMAP_LO p else Reg.PORT_LANEMAP_HI p)) (4 * (l % 8) + 3) (4 * (l % 8))

/-- Whether a list of numbers holds none twice. -/
def allDistinct : List Nat → Bool
  | [] => true
  | x :: t => !t.contains x && allDistinct t

/-- Whether the last housekeeping reading of the port's I/O bank fits the configuration (R612). -/
def State.bankFits (s : State) (p : Nat) : Bool :=
  match (s.getChan (72 + p)).value with
  | none => false
  | some v =>
    let lo := decide (1620 ≤ v) && decide (v ≤ 1980)
    let hi := decide (2970 ≤ v) && decide (v ≤ 3630)
    if s.portMode p = 0 then (if s.on (Fld.PORT_CFG_IO_V p) then hi else lo) else lo || hi

/-- The configuration error of a port, the lowest that applies; 0 when there is none (R285, R636). -/
def State.portErr (s : State) (p : Nat) : Nat :=
  let mode := s.portMode p
  let noz := s.rd (Fld.PORT_CFG_NOZ p)
  let lanes := (List.range (if mode = 1 then 8 else 16)).map (s.laneOf p)
  if mode = 3 then 1
  else if noz = 0 ∨ 4096 < noz ∨ noz % 64 ≠ 0 then 2
  else if mode ≠ 2 ∧ s.rd (Fld.PORT_CFG_RATE p) = 7 then 3
  else if !allDistinct lanes ∨ (mode = 1 ∧ lanes.any (fun l => decide (7 < l))) then 4
  else if !s.bankFits p then 5
  else 0

/-! ## The state (R242) -/

/-- Whether a long supply warning is active (R568). -/
def State.longWarning (s : State) : Bool := s.on Fld.PCR_SUP_STAT_LONG

/-- Whether the port's fitted head thermistor has no value in use yet (R242, R464). -/
def State.headUnread (s : State) (p : Nat) : Bool := s.fitted (40 + p) && decide ((s.getChan (40 + p)).value = none)

/-- Whether one of the WAIT conditions holds, the entry ramp apart (R242). -/
def State.portWaits (s : State) (p : Nat) : Bool :=
  !(s.getMirror p).cal || !s.on (Fld.ROSE_STAT_VALID p) || s.longWarning ||
  (decide (s.portMode p = 2) && !(s.getPort p).neve.seqOk) || s.headUnread p

/-- Whether the port's Névé link is LINKED (R261). -/
def State.linked (s : State) (p : Nat) : Bool := decide (s.rd (Fld.NV_STAT_STAGE p) = 5)

/-- Everything READY needs but the end of the entry ramp (R242, R311). -/
def State.portEligible (s : State) (p : Nat) : Bool :=
  s.portPresent p && s.domOn (.hpg (portGroup p)) && !s.scopeBad (0x100 + p) && s.on (Fld.PORT_CFG_EN p) &&
  decide (s.portErr p = 0) && !s.portWaits p && (decide (s.portMode p ≠ 2) || s.linked p)

/-- Whether the port is READY (R242). -/
def State.portReady (s : State) (p : Nat) : Bool := s.portEligible p && (s.getPort p).ramped

/-- PORT_STAT.STATE (R242): the first state whose condition holds. -/
def State.portState (s : State) (p : Nat) : Nat :=
  if !s.portPresent p then 0
  else if !s.domOn (.hpg (portGroup p)) then 1
  else if s.scopeBad (0x100 + p) then 8
  else if !s.on (Fld.PORT_CFG_EN p) then 2
  else if s.portErr p ≠ 0 then 3
  else if s.portWaits p then 4
  else if s.portMode p = 2 ∧ (s.getPort p).neve.failed then 6
  else if s.portMode p = 2 ∧ !s.linked p then 5
  else if (s.getPort p).ramped then 7
  else 4

/-! ## Lead and spacing (R246, R251, R255) -/

/-- The bit period in ps (R251). -/
def bitPs (mode rate : Nat) : Nat :=
  if mode = 0 then [20000, 25000, 40000, 50000, 80000, 100000, 200000].getD rate 0
  else [2500, 3125, 5000, 6250, 10000, 12500, 25000].getD rate 0

/-- The shift time, or in mode C the frame time, in ps (R246). -/
def State.shiftPs (s : State) (p : Nat) : Nat :=
  let noz := s.rd (Fld.PORT_CFG_NOZ p)
  match s.portMode p with
  | 0 => noz / 8 * bitPs 0 (s.rd (Fld.PORT_CFG_RATE p))
  | 1 => noz / 4 * bitPs 1 (s.rd (Fld.PORT_CFG_RATE p))
  | _ => (noz / 32 + 5) * blockPs (s.rd (Fld.NV_STAT_RATE p))

/-- A time in ps rounded up to whole TB units (R246). -/
def tbUp (ps : Nat) : Nat := (ps + 249) / 250

/-- S_p in TB units, rounded up (R246). In mode C it is negative where CLAT is the larger part. -/
def State.portSp (s : State) (p : Nat) : Int :=
  if s.portMode p = 2 then
    ((s.shiftPs p + s.tLs p * 1600 + s.rd (Fld.NV_LAT_LINK_LAT p) * 250 : Nat) - (s.clat p * 250 : Nat) + 249 : Int) / 250
  else tbUp (s.shiftPs p + (s.tSl p + s.tLatw p + s.tLs p) * 1600)

/-- S_p as PORT_SP shows it: a field of 24 bits, in two's complement (R246, R286; DEDUCED, log entry 118). -/
def State.leadNow (s : State) (p : Nat) : Int := signedOf 24 (s.rd (Fld.PORT_SP_VALUE p))

/-- T_TBL in ps: how long a table frame lasts (R291). -/
def State.tablePs (s : State) (p : Nat) : Nat :=
  let bit := bitPs (s.portMode p) (s.rd (Fld.PORT_CFG_RATE p))
  24 * bit + max (s.tSl p * 1600) bit + s.tLatw p * 1600 + 3200

/-- PORT_SPACE in TB units (R246). -/
def State.portSpace (s : State) (p : Nat) : Nat :=
  if s.portMode p = 2 then tbUp (s.shiftPs p + blockPs (s.rd (Fld.NV_STAT_RATE p)))
  else tbUp (s.shiftPs p + (s.tSl p + s.tLatw p) * 1600 + 3200)

end Sys2Proof.Machine
end

