-- ==== Sys2Proof/Machine/RingSend.lean ====
section
/-! DEFINITION. Ring time, and what a station sends on the Tchitric ring (R388 to R394, R405,
spec/12_tchitric_line_ring.md). -/

namespace Sys2Proof.Machine

def State.getRport (s : State) (p : Nat) : RingPort := Store.get (fun _ => RingPort.reset) s.ring.ports p
def State.setRport (s : State) (p : Nat) (x : RingPort) : State :=
  { s with ring := { s.ring with ports := Store.put (fun _ => RingPort.reset) s.ring.ports p x } }
def State.getRsrc (s : State) (a : Nat) : RingSrc := Store.get (fun _ => RingSrc.reset) s.ring.srcs a
def State.setRsrc (s : State) (a : Nat) (x : RingSrc) : State :=
  { s with ring := { s.ring with srcs := Store.put (fun _ => RingSrc.reset) s.ring.srcs a x } }

/-- The station's own address (R385). -/
def State.ringAddr (s : State) : Nat := s.rd Fld.RING_CFG_ADDR
def State.ringVersion (s : State) : Nat := s.rd Fld.RING_VER_RVER
def State.ringJoined (s : State) : Bool := s.on Fld.RING_CFG_JOIN
def State.ringLocked (s : State) : Bool := s.on Fld.RING_PTP_STAT_LOCKED
def State.rportUp (s : State) (p : Nat) : Bool := s.on (Fld.RING_P_STAT_LINK p)

/-- RING_OFS, signed. -/
def State.ringOfs (s : State) : Int := signedOf 64 (s.rd64 Reg.RING_OFS_LO)
/-- A TB as ring time, and back (R405). -/
def State.toRing (s : State) (t : Nat) : Nat := patternOf 64 (t + s.ringOfs)
def State.fromRing (s : State) (t : Nat) : Nat := patternOf 64 (t - s.ringOfs)

/-- Whether frames of a message go to the critical queue (R394). -/
def msgCritical : RingMsg → Bool
  | .mgmt .. => false
  | .service .. => false
  | .other .. => false
  | _ => true

/-- Whether a message carries a time of R405. -/
def msgTimed : RingMsg → Bool
  | .track .. => true
  | .pgo .. => true
  | .venc .. => true
  | .reject .. => true
  | _ => false

/-- A frame joins a port's output queue of 32 or 64, or is discarded and counted (R394). -/
def State.queueFrame (s : State) (p : Nat) (f : RingFrame) : State :=
  let x := s.getRport p
  if msgCritical f.msg then
    if x.crit.length < 32 then s.setRport p { x with crit := x.crit ++ [f] } else s.bumpSat (Fld.RING_P_CNT_DROP_COUNT p)
  else if x.bulk.length < 64 then s.setRport p { x with bulk := x.bulk ++ [f] }
  else s.bumpSat (Fld.RING_P_CNT_DROP_COUNT p)

/-- A time in TB units as a PTP timestamp: whole ns, and the remainder in 2^-16 ns for the correctionField (R400). -/
def ptpStamp (t : Nat) : Nat × Int := (t / 4, ((t % 4 * 2 ^ 14 : Nat) : Int))

/-- A Follow_Up that leaves has the residence time of its Sync and the link delay of the arrival port added (R402). -/
def State.correctFollow (s : State) (p : Nat) (f : RingFrame) (m : PtpMsg) : RingFrame × State :=
  let x := s.getRport p
  match x.syncs.find? (fun y => y.src == f.src && y.seqId == m.seqId) with
  | none => (f, s)
  | some y =>
    let res := ((y.left.getD s.tb.toNat : Nat) : Int) - y.came
    let d := s.rd (Fld.RING_P_DELAY_DELAY (1 - p))
    ({ f with msg := .ptp { m with corr := m.corr + res * 2 ^ 14 + d * 2 ^ 6 } },
     s.setRport p { x with syncs := x.syncs.filter (fun z => z ≠ y) })

/-- What follows the departure of a frame at port `p` (R400 to R402): a Sync of this station is followed by its Follow_Up, a Pdelay_Req
and a forwarded Sync note their time, and a Pdelay_Resp is followed by its Pdelay_Resp_Follow_Up. -/
def State.departed (s : State) (p : Nat) (f : RingFrame) : State :=
  let x := s.getRport p
  let now := s.tb.toNat
  match f.msg with
  | .ptp m =>
    let st := ptpStamp (s.toRing now)
    match m.kind with
    | .sync =>
      if f.src = s.ringAddr then
        s.queueFrame p { f with seq := (f.seq + 1) % 65536, msg := .ptp { m with kind := .followUp, stamp := st.1, corr := st.2 } }
      else s.setRport p { x with syncs := x.syncs.map (fun y =>
        if y.src = f.src ∧ y.seqId = m.seqId then { y with left := some now } else y) }
    | .pdelayReq => s.setRport p { x with req := some (m.seqId, now) }
    | .pdelayResp =>
      s.queueFrame p { f with seq := (f.seq + 1) % 65536, msg := .ptp { m with kind := .pdelayRespFollowUp, stamp := st.1, corr := st.2 } }
    | _ => s
  | _ => s

/-- A frame leaves port `p` and is counted. -/
def State.depart (s : State) (p : Nat) (f : RingFrame) : State :=
  let r := match f.msg with
    | .ptp m => if m.kind = PtpKind.followUp ∧ f.src ≠ s.ringAddr then s.correctFollow p f m else (f, s)
    | _ => (f, s)
  ((r.2.bump (Fld.RING_P_CNT_TX_COUNT p)).emit (.ring p r.1)).departed p r.1

/-- The next frame of a port's queues is sent, the critical queue first (R394). -/
def State.sendNext (s : State) (p : Nat) : State :=
  let x := s.getRport p
  match x.crit, x.bulk with
  | f :: t, _ => (s.setRport p { x with crit := t }).depart p f
  | [], f :: t => (s.setRport p { x with bulk := t }).depart p f
  | [], [] => s

/-- The PHYs a port can try, in the order of its trials (R386, R387): PHYS bits whose least version VMAX allows, from the top. -/
def State.phyOrder (s : State) (p : Nat) : List Nat :=
  [3, 2, 1, 0].filter (fun b => bitOf (s.getReg (Reg.RING_P_CFG p)) (24 + b) &&
    decide ([1, 2, 3, 3].getD b 0 ≤ max 1 (s.rd Fld.RING_CFG_VMAX)))

/-- Whether a ring port is in use: its EN bit is set, the domain is on and it has a PHY to try (R387). -/
def State.rportRuns (s : State) (p : Nat) : Bool :=
  s.domOn .ring && s.on (Fld.RING_P_CFG_EN p) && !(s.phyOrder p).isEmpty

/-- One idle cycle of REFCLK25: TB and the mirrors advance (R137, R138), and each ring port in use sends the next frame of its queues (R394; log
entry 9). While REFCLK25 is lost nothing happens (R573); while the controller is frozen only TB advances (R587). -/
def State.idle (s : State) : State :=
  if s.pcr.refLost then s
  else if s.hf.active then s.tick
  else
  let s := s.advanceMirrors.tick
  let s := if s.rportRuns 0 then s.sendNext 0 else s
  if s.rportRuns 1 then s.sendNext 1 else s

/-- A frame of this station with a sequence number (R390). -/
def State.ownFrame (s : State) (hops dst seq : Nat) (west : Bool) (m : RingMsg) : RingFrame :=
  ⟨s.ringVersion, west, false, msgTimed m && !s.ringLocked, 0, hops, s.ringAddr, dst, seq, s.ring.joinId, m⟩

/-- A ring-scope message of this station, with the next SEQ, once on each port whose link is up (R391). -/
def State.ringSendAny (s : State) (dst : Nat) (m : RingMsg) : State :=
  if !s.ringJoined || !s.domOn .ring then s
  else
    let q := s.ring.seq
    let s := { s with ring := { s.ring with seq := (q + 1) % 65536 } }
    let s := if s.rportUp 0 then s.queueFrame 0 (s.ownFrame 64 dst q false m) else s
    if s.rportUp 1 then s.queueFrame 1 (s.ownFrame 64 dst q true m) else s

/-- The same, for every message but HELLO: a station in DUP originates nothing else (R398). -/
def State.ringSend (s : State) (dst : Nat) (m : RingMsg) : State :=
  if s.on Fld.RING_STAT_DUP then s else s.ringSendAny dst m

/-- A message on one port only, with HOPS 1 (R391). -/
def State.ringSendOne (s : State) (p : Nat) (m : RingMsg) : State :=
  if !s.domOn .ring then s
  else
    let q := s.ring.seq
    let s := { s with ring := { s.ring with seq := (q + 1) % 65536 } }
    s.queueFrame p (s.ownFrame 1 0xFF q (decide (p = 1)) m)

end Sys2Proof.Machine
end

