-- ==== Sys2Proof/Machine/Products.lean ====
section
/-! DEFINITION. Contexts, products and rejects: what the chapters share about a product's lines, its abort, its end, its reject and
its completion (R97 to R134, R163, R248, R283, R410 to R413). -/

namespace Sys2Proof.Machine

/-! ## Contexts -/

def State.getCtx (s : State) (c : Nat) : Ctx := Store.get (fun _ => Ctx.reset) s.ctxs c
def State.setCtx (s : State) (c : Nat) (x : Ctx) : State := { s with ctxs := Store.put (fun _ => Ctx.reset) s.ctxs c x }

/-- The contexts that hold anything beside their registers. -/
def State.liveCtxs (s : State) : List Nat := s.ctxs.map (fun e => e.1)

/-- CTX_STATE.STATE: 0 UNBOUND, 1 ARMED, 2 PRINTING, 3 DRAINING, 4 HALTED, 5 FAULTED (R97). -/
def State.ctxState (s : State) (c : Nat) : Nat := s.rd (Fld.CTX_STATE_STATE c)

def State.nranges (s : State) (c : Nat) : Nat := s.rd (Fld.CTX_BINDING_NRANGES c)

/-- The port of range `r` of context `c` (R101). -/
def State.rangePort (s : State) (c r : Nat) : Nat := s.rd (Fld.CTX_RANGE_PORT c r)

/-- The numbers of a list, sorted, each once. -/
def distinct (l : List Nat) : List Nat := l.foldl (fun acc x => insertOnce x acc) []

/-- The ports of a context's ranges. -/
def State.ctxPorts (s : State) (c : Nat) : List Nat := distinct ((List.range (s.nranges c)).map (s.rangePort c))

/-- The ports of a row group. -/
def State.groupPorts (s : State) (c : Nat) (g : Group) : List Nat := distinct (g.ranges.map (s.rangePort c))

/-- Whether a context is bound and has a range on port `p`. -/
def State.ctxOnPort (s : State) (c p : Nat) : Bool := decide (s.ctxState c ≠ 0) && (s.ctxPorts c).contains p

/-- The products of a context that are in flight (R114). -/
def Ctx.inflight (x : Ctx) : List Product := x.prods.filter (fun p => !p.ended)

/-- A product of a context, by its number. -/
def State.findProd (s : State) (c id : Nat) : Option Product := (s.getCtx c).prods.find? (fun x => x.id == id)

/-- The context with one product replaced. -/
def State.setProd (s : State) (c : Nat) (x : Product) : State :=
  s.setCtx c { s.getCtx c with prods := (s.getCtx c).prods.map (fun y => if y.id = x.id then x else y) }

/-- SEQ of a job (R85). -/
def Job.seqNum (j : Job) : Nat := (dwAt j.dw 2).toNat + 2 ^ 32 * bitsOf (dwAt j.dw 3) 15 0

/-- SEQ where there is no job: all ones (R132, R396). -/
def noSeq : Nat := 2 ^ 48 - 1

/-- Doublewords of the active set of context `c`, in the order of R106: eight, then sixteen row offsets. -/
def State.activeSet (s : State) (c : Nat) : List Word :=
  (List.range 8).map (fun i => s.getReg (Reg.CTX_LINES c + 4 * i)) ++ (List.range 16).map (fun r => s.getReg (Reg.CTX_ROWOFF c r))

/-! ## State changes (R110, R111) -/

/-- A context changes state. ARMED to PRINTING and back are not reported and leave CAUSE; every other transition writes CAUSE and a
CTX_STATE_CHANGE event (R111). -/
def State.ctxMove (s : State) (c new cause data2 : Nat) : State :=
  let old := s.ctxState c
  if (old = 1 ∧ new = 2) ∨ (old = 2 ∧ new = 1) then s.wr (Fld.CTX_STATE_STATE c) new
  else
    let s := (s.wr (Fld.CTX_STATE_STATE c) new).wr (Fld.CTX_STATE_CAUSE c) cause
    s.event 0x06 c [BitVec.ofNat 32 (old + new * 2 ^ 8 + cause * 2 ^ 16), BitVec.ofNat 32 (s.getCtx c).queue.length,
      BitVec.ofNat 32 data2, 0]

/-! ## Reject pulses (R128 to R132) -/

/-- The forward position at TB `t` of a source taken along a direction, modulo 2^48 (R155). -/
def State.fwdOf (s : State) (src : Nat) (dir : Bool) (t : Nat) : Int :=
  let p := s.predict src t
  let x := s.trkPos src + quotRound p.x
  pos48 (if dir then -x else x)

/-- A pulse is driven: its output is asserted until its width has passed (R128, R130). -/
def State.drivePulse (s : State) (p : Pulse) : State := { s with rejActive := s.rejActive ++ [(p.out, p.width)] }

/-- A reject is decided for context `c` with a reference position and a routing (REJ and REJ_DELAY words): the pulse is scheduled, or
driven at the decision, and counted when it comes late or finds 64 scheduled (R128, R129). Source and direction are those of the binding
at the decision, also for a product that has waited for its vote meanwhile (DESIGN CHOICE, log entry 105). -/
def State.schedulePulse (s : State) (c : Nat) (ref : Int) (rej delay : Word) : State :=
  if !bitOf rej 31 then s
  else
    let dir := s.on (Fld.CTX_BINDING_DIR c)
    let p : Pulse := ⟨s.posSrc c, dir, pos48 (ref + delay.toNat), bitsOf rej 26 24, max 1 (bitsOf rej 15 0)⟩
    let d := travel (s.fwdOf p.src dir s.dibNow) p.pos
    if d < 0 then (s.drivePulse p).bumpSat (Fld.CTX_CNT_REJLATE_COUNT c)
    else if d = 0 then s.drivePulse p
    else if 64 ≤ (s.getCtx c).pulses.length then (s.drivePulse p).bumpSat (Fld.CTX_CNT_REJLATE_COUNT c)
    else s.setCtx c { s.getCtx c with pulses := (s.getCtx c).pulses ++ [p] }

/-- The ring REJECT of a decision, when RING_REJ asks for it (R132). -/
def State.ringReject (s : State) (c : Nat) (rej : Word) (status seq : Nat) (ref : Int) (t : Nat) : State :=
  if bitOf rej 30 then s.ringSend 0xFF (.reject c 1 status seq (patternOf 48 ref) (s.toRing t)) else s

/-- The reject of an edge that has no product, by the active set, when NOJOB_REJ is set (R113, R116, R128). The STATUS of its ring
message is a free value (DESIGN CHOICE, log entry 1). -/
def State.rejectNoJob (s : State) (c : Nat) (ref : Int) (t : Nat) : State :=
  let w := s.getReg (Reg.CTX_REJ c)
  if bitOf w 29 then
    let s := s.schedulePulse c ref w (s.getReg (Reg.CTX_REJ_DELAY c))
    let (f, s) := s.draw
    s.ringReject c w (f.toNat % 256) noSeq ref t
  else s

/-- The reject decision of a product whose status is known (R80, R128, R132): `voted` is the outcome of its vote. -/
def State.decideReject (s : State) (c : Nat) (x : Product) (voted : Bool) : State :=
  let st := x.status.getD 0
  if decide (st = Status.printed) && !bitOf (dwAt x.job.dw 3) 18 && !voted then s.setProd c { x with decided := true }
  else
    let w := dwAt x.set 6
    let s := s.setProd c { x with decided := true, reject := true, rejOut := if bitOf w 31 then bitsOf w 26 24 else 0 }
    let s := s.schedulePulse c x.refPos w (dwAt x.set 7)
    s.ringReject c w st x.job.seqNum x.refPos x.tpg

/-! ## The vote (R413) -/

/-- The vote entry that applies to a context, the lowest-numbered (R413, R423). -/
def State.voteEntry (s : State) (c : Nat) : Option Nat :=
  (List.range 16).find? (fun v => s.on (Fld.RING_VOTE_A_EN v) && decide (s.rd (Fld.RING_VOTE_A_CTX v) = c) && decide (1 ≤ c ∧ c ≤ 254))

/-- The stations of a vote entry's mask. -/
def State.voters (s : State) (v : Nat) : List Nat :=
  (List.range 64).filter (fun b => (s.rd64 (Reg.RING_VOTE_MASK_LO v)).testBit b)

/-- The vote of a station on a SEQ, if it is in the store. -/
def State.voteOf (s : State) (station seq : Nat) : Option Bool :=
  (s.ring.votes.find? (fun x => x.station == station && x.seq == seq)).map (fun x => x.reject)

/-- Whether every voter has voted on a SEQ. -/
def State.votesIn (s : State) (v seq : Nat) : Bool := (s.voters v).all (fun b => (s.voteOf b seq).isSome)

/-- The outcome of a vote with the votes present now, a missing vote counting as MISSING. -/
def State.voteRejects (s : State) (v seq : Nat) : Bool :=
  let n := ((s.voters v).filter (fun b => (s.voteOf b seq).getD (s.on (Fld.RING_VOTE_A_MISSING v)))).length
  if s.on (Fld.RING_VOTE_A_RULE v) then decide (max (s.rd (Fld.RING_VOTE_A_K v)) 1 ≤ n) else decide (0 < n)

/-- Whether a printed product's vote is complete, and its outcome: `none` while it waits (R413). -/
def State.judgeVote (s : State) (c : Nat) (x : Product) : Option Bool :=
  if s.ringVersion ≠ 3 then some false
  else
    match s.voteEntry c with
    | none => some false
    | some v =>
      let dl := s.rd (Fld.RING_VOTE_DEADLINE_DEADLINE v)
      if s.votesIn v x.job.seqNum || decide (dl = 0) || decide (x.tpg + dl * 4000 ≤ s.dibNow) then
        some (s.voteRejects v x.job.seqNum)
      else none

/-! ## Completion (R79, R89, R91, R118) -/

/-- Whether a context's bit is set in RING_VSEND or RING_TSEND (R410, R412). -/
def ctxBit (w : Nat → Nat) (s : State) (c : Nat) : Bool := bitOf (s.getReg (w (c / 32))) (c % 32)

/-- A job's completion: the ring messages that go with it, and its entry unless a reset of the HOST domain has orphaned it (R62,
R79, R410, R412). TRACK goes with the completion that is written (R410). A job cancelled off the line sends the REJECT message of R412
too, where R127 gives it no ring REJECT (DESIGN CHOICE, log entry 104). -/
def State.completeJob (s : State) (c : Nat) (x : Product) : State :=
  let st := x.status.getD 0
  let seq := x.job.seqNum
  let s := if ctxBit Reg.RING_TSEND s c && !x.job.orphan then
      s.ringSend 0xFF (.track c 2 st x.reject seq (patternOf 48 x.refPos) (s.toRing x.tpg)) else s
  let s := if ctxBit Reg.RING_VSEND s c && decide (s.ringVersion = 3) then
      s.ringSend 0xFF (.reject c (if x.reject then 1 else 0) st seq (patternOf 48 x.refPos) (s.toRing x.tpg)) else s
  if x.job.orphan then s
  else
    (s.settle x.job.ring).complete ⟨x.job.ring, st, x.job.index, dwAt x.job.dw 1, dwAt x.job.dw 2,
      BitVec.ofNat 32 (bitsOf (dwAt x.job.dw 3) 15 0 * 2 ^ 16 + c * 2 ^ 8 + (if x.reject then 2 ^ 7 else 0) + x.rejOut * 2 ^ 4), 0⟩

/-- The completions that are due at the head of a context's products, in product order (R89). -/
def State.flushProds (c : Nat) : List Product → State → State
  | [], s => s.setCtx c { s.getCtx c with prods := [] }
  | x :: t, s =>
    if x.ended && x.decided then State.flushProds c t (s.completeJob c x)
    else s.setCtx c { s.getCtx c with prods := x :: t }

/-- The votes of ended products judged, and every completion that is due written. -/
def State.settleProds (s : State) (c : Nat) : State :=
  let s := (s.getCtx c).prods.foldl (fun s x =>
    if x.ended && !x.decided then
      match s.judgeVote c x with
      | none => s
      | some v => s.decideReject c x v
    else s) s
  State.flushProds c (s.getCtx c).prods s

/-- A context leaves PRINTING or DRAINING once no product is in flight (R109). -/
def State.restCtx (s : State) (c : Nat) : State :=
  if !(s.getCtx c).inflight.isEmpty then s
  else if s.ctxState c = 2 then s.ctxMove c 1 0 0
  else if s.ctxState c = 3 then s.ctxMove c 4 0x06 0
  else s

/-! ## Lines at the ports (R248, R249) -/

/-- Whether a port holds a line of a product. -/
def State.hasLines (s : State) (c id : Nat) : Bool :=
  (List.range 16).any (fun p => (s.getPort p).lines.any (fun l => l.key.ctx == c && l.key.prod == id))

/-- Whether a line order belongs to a line FIFO entry that is void (R183). -/
def PLine.void (l : PLine) : Bool :=
  match l.entry with
  | some e => e.void
  | none => false

/-- Whether a line is latched: it has left the head of the FIFO for the head's latch. -/
def PLine.latched (l : PLine) : Bool :=
  match l.shift with
  | .latched _ _ => true
  | _ => false

/-- VOID entries at the head of a port's FIFO, behind a line that is latched, are freed and counted (R245, R249). -/
def State.purgeVoids (s : State) (p : Nat) : State :=
  let x := s.getPort p
  let rest := x.lines.dropWhile PLine.latched
  let k := (rest.takeWhile PLine.void).length
  if k = 0 then s
  else
    let s := s.setPort p { x with lines := x.lines.takeWhile PLine.latched ++ rest.drop k }
    s.wr (Fld.PORT_CNT_VOID_COUNT p) (wrapAdd 32 (s.rd (Fld.PORT_CNT_VOID_COUNT p)) k)

/-- The lines of port `p` that `drop` names are dropped (R248). In mode C a DROP block names each line whose frame has begun. -/
def State.dropAt (s : State) (p : Nat) (drop : PLine → Bool) : State :=
  let x := s.getPort p
  let gone := x.lines.filter drop
  if gone.isEmpty then s
  else
    let s := s.setPort p { x with lines := x.lines.filter (fun l => !drop l) }
    let s := s.wr (Fld.PORT_CNT_DROP_COUNT p) (wrapAdd 32 (s.rd (Fld.PORT_CNT_DROP_COUNT p)) gone.length)
    let s := if s.portMode p = 2 then
        (gone.filter (fun l => decide (l.shift ≠ .waiting))).foldl (fun s l => s.emit (.block p 0x78 [l.tag])) s else s
    s.purgeVoids p

/-- Compose requests and held entries that no line order wants any more are discarded. -/
def State.cleanCompose (s : State) : State :=
  let wanted := fun (k : LineKey) => (List.range 16).any (fun p => (s.getPort p).lines.any (fun l => decide (l.key = k)))
  let heldWanted := fun (w : WaitEntry) => (s.getPort w.port).lines.any (fun l => decide (l.key = w.key))
  { s with esp := { s.esp with queue := s.esp.queue.filter wanted, waiting := s.esp.waiting.filter heldWanted } }

/-! ## Aborts (R163, R198, R275, R280, R283, R490) -/

/-- What an abort does to a product's lines. -/
inductive AbortKind where
  /-- R163: committed lines fire, the others are dropped; so too where a rule names no other effect (R140, R153, R409) -/
  | overspeed
  /-- R198: the same, and the compose requests still queued are discarded -/
  | underrun
  /-- R275, R280: dropped on the port; elsewhere only committed lines with complete entries fire -/
  | portOnly (p : Nat)
  /-- R490: dropped on every port -/
  | faulted
  deriving DecidableEq, Repr

/-- Whether an abort keeps a line on port `q`. -/
def AbortKind.keeps (k : AbortKind) (q : Nat) (l : PLine) : Bool :=
  match k with
  | .overspeed => l.fire.isSome
  | .underrun => l.fire.isSome
  | .portOnly p => decide (q ≠ p) && l.fire.isSome && l.entry.isSome
  | .faulted => false

/-- Where an abort is `underrun`, the product's queued compose requests go (R198). -/
def State.dropRequests (s : State) (k : AbortKind) (c id : Nat) : State :=
  match k with
  | .underrun => { s with esp := { s.esp with queue := s.esp.queue.filter (fun q => !(q.ctx == c && q.prod == id)) } }
  | _ => s

/-- The order among the statuses of aborts that take effect in one cycle (R283). -/
def abortRank (status : Nat) : Nat :=
  if status = Status.abortedFault then 0
  else if status = Status.abortedGate then 1
  else if status = Status.abortedUnderrun then 2
  else 3

/-- A product in flight is aborted with a status: the first abort decides the status and the reject, and each abort has its effect
on the lines. Among aborts at one value of TB, which the model takes as one cycle, the status that R283 lists first stands (DESIGN CHOICE, log
entry 117). -/
def State.abortProd (s : State) (c id : Nat) (k : AbortKind) (status : Nat) : State :=
  match s.findProd c id with
  | none => s
  | some x =>
    if x.ended then s
    else
      let s :=
        if x.status.isNone then s.decideReject c { x with status := some status, cutAt := some s.dibNow } false
        else if x.cutAt = some s.dibNow ∧ abortRank status < abortRank (x.status.getD 0) then s.setProd c { x with status := some status }
        else s
      let s := (List.range 16).foldl (fun s q =>
        s.dropAt q (fun l => l.key.ctx == c && l.key.prod == id && !k.keeps q l)) s
      (s.dropRequests k c id).cleanCompose

/-! ## The end of a product (R114, R164, R216) -/

/-- The passes of a product (R213, R214). -/
def Product.passes (x : Product) : Nat := if bitOf (dwAt x.scan 0) 31 then bitsOf (dwAt x.scan 0) 26 24 + 1 else 1

/-- LINES of a product's captured set. -/
def Product.lines (x : Product) : Nat := bitsOf (dwAt x.set 0) 15 0

/-- Every line of every row group of the current pass is committed. -/
def Product.passDone (x : Product) : Bool := x.groups.all (fun g => decide (x.lines ≤ g.com))

/-- A product's lines have ended, with the status it then has: the placement counters follow (R175). -/
def State.endProd (s : State) (c : Nat) (x : Product) (status : Nat) : State :=
  let s := s.setProd c { x with status := some status, ended := true }
  let s := s.wr (Fld.DIB_CTX_STAT_LAST_OVR c) (min x.ovr 255)
  if status = Status.abortedOverspeed then s.bumpSat (Fld.DIB_CTX_ABORT_ABORT c) else s

/-- Whether a product with no line left at a port has ended, and with what status (R114, R164). -/
def Product.outcome (x : Product) : Option Nat :=
  match x.status with
  | some st => some st
  | none => if x.passDone && decide (x.pass + 1 = x.passes) && x.upg.isSome then some Status.printed else none

/-- The products of context `c` that have ended leave flight, and the completions that are due are written. -/
def State.endProds (s : State) (c : Nat) : State :=
  let s := (s.getCtx c).prods.foldl (fun s x =>
    if x.ended || s.hasLines c x.id then s
    else
      match x.outcome with
      | none => s
      | some st => s.endProd c x st) s
  (s.settleProds c).restCtx c

/-- The same, for every context. -/
def State.endAll (s : State) : State := s.liveCtxs.foldl (fun s c => s.endProds c) s

/-- Every product in flight of context `c` that `p` names is aborted. -/
def State.abortCtx (s : State) (c : Nat) (which : Product → Bool) (k : AbortKind) (status : Nat) : State :=
  (((s.getCtx c).inflight.filter which).foldl (fun s x => s.abortProd c x.id k status) s).endProds c

/-! ## FAULTED (R110, R490) -/

/-- A cause of FAULTED takes effect on a bound context: it enters FAULTED if it was not, and its products in flight complete
ABORTED_FAULT with every line dropped. `scope` is the scope for RAKE_SCOPE, else 0. -/
def State.enterFaulted (s : State) (c cause scope : Nat) : State :=
  if s.ctxState c = 0 then s
  else
    let x := s.getCtx c
    let s := s.setCtx c { x with causes := insertOnce cause x.causes }
    if s.ctxState c = 5 then s
    else (s.ctxMove c 5 cause scope).abortCtx c (fun _ => true) .faulted Status.abortedFault

/-- Causes of FAULTED are left. When none stays, the context goes to HALTED or ARMED, by the last cause left (R110). -/
def State.leaveFaulted (s : State) (c : Nat) (left : List Nat) (cause scope : Nat) : State :=
  let x := s.getCtx c
  let rest := x.causes.filter (fun k => !left.contains k)
  let s := s.setCtx c { x with causes := rest }
  if s.ctxState c = 5 ∧ rest.isEmpty ∧ ¬ x.causes.isEmpty then
    if s.on (Fld.CTX_STATE_HALT_PEND c) then (s.ctxMove c 4 cause scope).wr (Fld.CTX_STATE_HALT_PEND c) 0
    else s.ctxMove c 1 cause scope
  else s

/-- The scopes that a context depends on: the device, itself, and the ports of its ranges (R110). -/
def State.ctxScopes (s : State) (c : Nat) : List Nat := [0, 0x200 + c] ++ (s.ctxPorts c).map (fun p => 0x100 + p)

/-- Whether a scope that a bound context depends on is in FAULT or LATCHED. -/
def State.ctxScopeBad (s : State) (c : Nat) : Bool := (s.ctxScopes c).any (fun sc => decide (s.scopeState sc ≠ 0))

end Sys2Proof.Machine
end

