-- ==== Sys2Proof/Machine/Contexts.lean ====
section
/-! DEFINITION. Binding, control and hand-over of contexts, jobs and their queues (R86, R89, R90, R99 to R126,
spec/03_print_contexts.md). -/

namespace Sys2Proof.Machine

/-! ## Overlaps (R103) -/

/-- A range word's port, first nozzle and count (R101). -/
def rangeOf (w : Word) : Nat × Nat × Nat := (bitsOf w 31 28, bitsOf w 27 16, bitsOf w 12 0)

/-- Whether two ranges share a nozzle. -/
def rangesMeet (x y : Nat × Nat × Nat) : Bool :=
  decide (x.1 = y.1) && decide (x.2.1 < y.2.1 + y.2.2) && decide (y.2.1 < x.2.1 + x.2.2)

/-- Whether two ranges of a list share a nozzle. -/
def anyMeet : List (Nat × Nat × Nat) → Bool
  | [] => false
  | x :: t => t.any (rangesMeet x) || anyMeet t

/-- The ranges in force of a context, and its patch area in 64-byte units. -/
def State.ctxRanges (s : State) (c : Nat) : List (Nat × Nat × Nat) :=
  (List.range (s.nranges c)).map (fun r => rangeOf (s.getReg (Reg.CTX_RANGE c r)))
def State.patchBase (s : State) (c : Nat) : Nat := s.rd (Fld.CTX_PATCH_BASE_BASE c)
def State.patchSize (s : State) (c : Nat) : Nat := s.rd (Fld.CTX_PATCH_SIZE_SIZE c)

/-- The bound contexts but one. -/
def State.otherBound (s : State) (c : Nat) : List Nat :=
  (List.range 255).filter (fun d => decide (d ≠ c) && decide (s.ctxState d ≠ 0))

/-- The nozzles of a context's ranges together (R101). -/
def State.ctxNozzles (s : State) (c : Nat) : Nat := (s.ctxRanges c).foldl (fun n x => n + x.2.2) 0

/-! ## Hand-over (R104, R120 to R124) -/

/-- The shadow set is invalid: LINES or PITCH is 0 (R107). -/
def State.shadowBad (s : State) (c : Nat) : Bool :=
  decide (s.rd (Fld.CTX_SH_LINES_LINES c) = 0) || decide (s.getReg (Reg.CTX_SH_PITCH c) = 0)

/-- The shadow set is copied into the active set (R123). -/
def State.copySet (s : State) (c : Nat) : State :=
  let s := (List.range 8).foldl (fun s i => s.setReg (Reg.CTX_LINES c + 4 * i) (s.getReg (Reg.CTX_SH_LINES c + 4 * i))) s
  (List.range 16).foldl (fun s r => s.setReg (Reg.CTX_ROWOFF c r) (s.getReg (Reg.CTX_SH_ROWOFF c r))) s

/-- A hand-over, with the job that its edge takes, if any (R121 to R124). An invalid shadow set is not copied and sets BAD; VALID then
stays as it was (DESIGN CHOICE, log entry 107). -/
def State.handOver (s : State) (c : Nat) (taken : Option Job) : State :=
  let s := s.wr (Fld.CTX_HO_STAT_COMMIT_PEND c) 0
  if s.shadowBad c then s.wr (Fld.CTX_HO_STAT_BAD c) 1
  else
    let s := (s.copySet c).bump (Fld.CTX_HO_STAT_HO_CNT c)
    match taken with
    | none => s.wr (Fld.CTX_HO_SEQ_HI_VALID c) 0
    | some j =>
      ((s.setReg (Reg.CTX_HO_SEQ_LO c) (dwAt j.dw 2)).wr (Fld.CTX_HO_SEQ_HI_SEQ_HI c) (bitsOf (dwAt j.dw 3) 15 0)).wr
        (Fld.CTX_HO_SEQ_HI_VALID c) 1

/-- A write of CTX_COMMIT (R120, R124). COMMIT checks the shadow set also while one is pending, and leaves COMMIT_PEND as it was where the
set is invalid. -/
def State.writeCommit (s : State) (c : Nat) (v : Word) : State :=
  match bitsOf v 2 0 with
  | 0 => s
  | 1 =>
    if s.shadowBad c then s.wr (Fld.CTX_HO_STAT_BAD c) 1
    else s.wr (Fld.CTX_HO_STAT_COMMIT_PEND c) 1
  | 2 => s.wr (Fld.CTX_HO_STAT_COMMIT_PEND c) 0
  | 4 => if s.ctxState c = 4 then s.handOver c none else s.wr (Fld.CTX_HO_STAT_REFUSED c) 1
  | _ => s.wr (Fld.CTX_HO_STAT_REFUSED c) 1

/-- COMMIT: a master writes CTX_COMMIT with COMMIT alone set (R120). -/
def execCommit (m : Master) (n : Fin 255) (s : State) : Host.Outcome State Fault Refusal :=
  .next (s.unfrozen (fun s => s.accessBy m (Reg.CTX_COMMIT n) (fun s => s.writeCommit n 1)))

/-- CANCEL: a master writes CTX_COMMIT with CANCEL alone set (R120). -/
def execCancel (m : Master) (n : Fin 255) (s : State) : Host.Outcome State Fault Refusal :=
  .next (s.unfrozen (fun s => s.accessBy m (Reg.CTX_COMMIT n) (fun s => s.writeCommit n 2)))

/-- IMMEDIATE: a master writes CTX_COMMIT with IMMEDIATE alone set (R124). -/
def execImmediate (m : Master) (n : Fin 255) (s : State) : Host.Outcome State Fault Refusal :=
  .next (s.unfrozen (fun s => s.accessBy m (Reg.CTX_COMMIT n) (fun s => s.writeCommit n 4)))

/-! ## Jobs without a product -/

/-- A product's record for a job of context `c`, with the active set as it stands (R108). -/
def State.newProduct (s : State) (c : Nat) (j : Job) (t : Nat) (ref : Int) : Product :=
  ⟨(s.getCtx c).nextProd, j, s.activeSet c, [s.getReg (Reg.SHR_CTX_SCAN c), s.getReg (Reg.SHR_CTX_ALIGN_F c),
    s.getReg (Reg.SHR_CTX_ALIGN_R c)], [], none, [], t, ref, none, [], 0, true, [], 0, none, false, false, false, 0, [], none⟩

/-- A record joins the products of its context, in product order. -/
def State.addProd (s : State) (c : Nat) (x : Product) : State :=
  let k := s.getCtx c
  s.setCtx c { k with prods := k.prods ++ [x], nextProd := k.nextProd + 1 }

/-- A job ends at an edge or a timeout without a product: its reject is decided there, and its completion keeps product order (R114 to
R118, R127). The set in force after the edge's hand-over routes the reject (DESIGN CHOICE, log entry 105). -/
def State.endJob (s : State) (c : Nat) (j : Job) (status t : Nat) (ref : Int) : State :=
  let x := { s.newProduct c j t ref with status := some status, ended := true }
  ((s.addProd c x).decideReject c x false).settleProds c

/-- A job ends off the line, CANCELLED, with REJECT set and neither pulse nor ring REJECT (R127). It has no reference: what its ring
messages give as one is a free value (DESIGN CHOICE, log entry 1). -/
def State.cancelJob (s : State) (c : Nat) (j : Job) : State :=
  let (f, s) := s.draw
  let x := { s.newProduct c j f.toNat (signedOf 48 f.toNat) with
    status := some Status.cancelled, ended := true, decided := true, reject := true }
  (s.addProd c x).settleProds c

/-- Every queued job is cancelled, in queue order (R105, R112, R118). -/
def State.cancelQueue (s : State) (c : Nat) : State :=
  let q := (s.getCtx c).queue
  q.foldl (fun s j => s.cancelJob c j) (s.setCtx c { s.getCtx c with queue := [] })

/-! ## Binding (R103 to R105) -/

/-- Why CTX_BIND is refused: the status and RESULT of the first check that fails (R103). -/
def State.bindRefusal (s : State) (d : Desc) : Option (Nat × Nat) :=
  let c := d.fld 2 7 0
  let n := d.fld 3 28 24
  let pos := d.fld 3 4 0
  let pgo := d.fld 3 13 8
  let base := d.fld 4 19 0
  let size := d.fld 5 20 0
  let rs := (List.range n).map (fun r => rangeOf (s.getReg (Reg.CTX_STG_RANGE c r)))
  if d.reservedSet (commandLayout [0xFF, 0x1F033F1F, 0xFFFFF, 0x1FFFFF]) then some (Status.descError, 0)
  else if !s.ctxPresent c then some (Status.unitAbsent, 0)
  else if s.ctxState c ≠ 0 then some (Status.ctxState, 0)
  else if 23 < pos ∨ (39 < pgo ∧ c ≠ 0) then some (Status.descError, 0x01)
  else if n = 0 ∨ 16 < n then some (Status.descError, 0x02)
  else if rs.any (fun x => !s.portPresent x.1) then some (Status.unitAbsent, 0)
  else if rs.any (fun x => decide (x.2.2 = 0) || decide (4096 < x.2.1 + x.2.2)) then some (Status.descError, 0x03)
  else if anyMeet rs then some (Status.descError, 0x04)
  else if !s.storePresent (base * 64) (size * 64) then some (Status.descError, 0x05)
  else if s.shadowBad c then some (Status.descError, 0x06)
  else if decide (c ≠ 0) && (s.otherBound c).any (fun o => decide (o ≠ 0) && (s.ctxRanges o).any (fun y => rs.any (rangesMeet y))) then
    some (Status.busy, 0x10)
  else if (s.otherBound c).any (fun o => decide (base < s.patchBase o + s.patchSize o) && decide (s.patchBase o < base + size)
      && decide (size ≠ 0) && decide (s.patchSize o ≠ 0)) then some (Status.busy, 0x11)
  else none

/-- The final step of CTX_BIND (R104): sources and ranges in force, the hand-over, ARMED, and any cause of FAULTED that stands. The lockout
of R113 starts without an edge (DESIGN CHOICE, log entry 106). -/
def State.bindCtx (s : State) (d : Desc) : State :=
  let c := d.fld 2 7 0
  let n := d.fld 3 28 24
  let s := s.setReg (Reg.CTX_BINDING c) ((dwAt d.dw 3 &&& 0x1F033F1F) ||| (if c = 0 then 0x80000000 else 0))
  let s := s.setReg (Reg.CTX_PATCH_BASE c) (BitVec.ofNat 32 (d.fld 4 19 0))
  let s := s.setReg (Reg.CTX_PATCH_SIZE c) (BitVec.ofNat 32 (d.fld 5 20 0))
  let s := (List.range 16).foldl (fun s r =>
    s.setReg (Reg.CTX_RANGE c r) (if r < n then s.getReg (Reg.CTX_STG_RANGE c r) else 0)) s
  let s := s.setCtx c { s.getCtx c with lastEdge := none, toRef := none, edges := [], causes := [], alloc := 0 }
  let s := (s.handOver c none).ctxMove c 1 0x01 0
  let s := match (s.ctxScopes c).find? (fun sc => decide (s.scopeState sc ≠ 0)) with
    | none => s
    | some sc => s.enterFaulted c 0x08 sc
  if s.longWarning then s.enterFaulted c 0x0A 0 else s

/-- Whether the MP may act on context `c`: context 0 is under token 5 (R50, R133). -/
def State.mpMayCtx (s : State) (c : Nat) : Bool := decide (c ≠ 0) || s.mpMay 5

/-- CTX_BIND (0x10). -/
def execCtxBind (s : State) : Host.Outcome State Fault Refusal :=
  .next (s.unfrozen (fun s =>
    match s.nextCommand 0x10 with
    | none => s
    | some d =>
      match s.bindRefusal d with
      | some r => s.finish d r.1 r.2
      | none => if s.mpMayCtx (d.fld 2 7 0) then (s.bindCtx d).finish d Status.ok 0 else s.finish d Status.busy 0))

/-- A context becomes UNBOUND: ranges, sources and patch area are released, and every cause is left (R105, R564). The last edge of its
lockout is forgotten (DESIGN CHOICE, log entry 106). -/
def State.releaseCtx (s : State) (c : Nat) : State :=
  let s := ((s.setReg (Reg.CTX_BINDING c) 0).setReg (Reg.CTX_PATCH_BASE c) 0).setReg (Reg.CTX_PATCH_SIZE c) 0
  let s := (List.range 16).foldl (fun s r => s.setReg (Reg.CTX_RANGE c r) 0) s
  let s := s.wr (Fld.CTX_STATE_HALT_PEND c) 0
  s.setCtx c { s.getCtx c with causes := [], edges := [], lastEdge := none, toRef := none, alloc := 0 }

/-- CTX_UNBIND (0x11). -/
def execCtxUnbind (s : State) : Host.Outcome State Fault Refusal :=
  .next (s.unfrozen (fun s =>
    match s.nextCommand 0x11 with
    | none => s
    | some d =>
      let c := d.fld 2 7 0
      if d.reservedSet (commandLayout [0xFF]) then s.finish d Status.descError 0
      else if !s.ctxPresent c then s.finish d Status.unitAbsent 0
      else if !(decide (s.ctxState c ∈ [1, 4, 5]) && (s.getCtx c).inflight.isEmpty) then s.finish d Status.ctxState 0
      else if !s.mpMayCtx c then s.finish d Status.busy 0
      else
        let k := (s.getCtx c).queue.length
        ((s.cancelQueue c).releaseCtx c |>.ctxMove c 0 0x02 0).finish d Status.ok k))

/-! ## CTX_CONTROL (R112) -/

/-- The common part of CTX_CONTROL (0x12): the row whose action code it is runs `act`, which gives the state, the status and the RESULT;
every row completes an undefined action DESC_ERROR, of an absent context too (DESIGN CHOICE, log entry 102). -/
def State.ctxControl (s : State) (action : Nat) (act : Nat → State → State × Nat × Nat) : State :=
  match s.nextCommand 0x12 with
  | none => s
  | some d =>
    let c := d.fld 2 7 0
    let a := d.fld 2 15 8
    if d.reservedSet (commandLayout [0xFFFF]) ∨ a = 0 ∨ 4 < a then s.finish d Status.descError 0
    else if a ≠ action then s
    else if !s.ctxPresent c then s.finish d Status.unitAbsent 0
    else if !s.mpMayCtx c then s.finish d Status.busy 0
    else
      let r := act c s
      r.1.finish d r.2.1 r.2.2

/-- HALT: action 0x01 of CTX_CONTROL. -/
def execHalt (s : State) : Host.Outcome State Fault Refusal :=
  .next (s.unfrozen (fun s => s.ctxControl 0x01 (fun c s =>
    match s.ctxState c with
    | 0 => (s, Status.ctxState, 0)
    | 1 => (s.ctxMove c 4 0x05 0, Status.ok, 0)
    | 2 => (s.ctxMove c 3 0x05 0, Status.ok, 0)
    | 5 => (s.wr (Fld.CTX_STATE_HALT_PEND c) 1, Status.ok, 0)
    | _ => (s, Status.ok, 0))))

/-- RESUME: action 0x02 of CTX_CONTROL. -/
def execResume (s : State) : Host.Outcome State Fault Refusal :=
  .next (s.unfrozen (fun s => s.ctxControl 0x02 (fun c s =>
    match s.ctxState c with
    | 0 => (s, Status.ctxState, 0)
    | 3 => (s, Status.ctxState, 0)
    | 4 => (s.ctxMove c 1 0x07 0, Status.ok, 0)
    | 5 => (s.wr (Fld.CTX_STATE_HALT_PEND c) 0, Status.ok, 0)
    | _ => (s, Status.ok, 0))))

/-- FLUSH: action 0x03 of CTX_CONTROL. -/
def execFlush (s : State) : Host.Outcome State Fault Refusal :=
  .next (s.unfrozen (fun s => s.ctxControl 0x03 (fun c s =>
    if s.ctxState c = 4 ∨ s.ctxState c = 5 then (s.cancelQueue c, Status.ok, (s.getCtx c).queue.length)
    else (s, Status.ctxState, 0))))

/-- RECOVER: action 0x04 of CTX_CONTROL. While a long warning stands, the context enters FAULTED with SUPPLY again (R568). -/
def execRecover (s : State) : Host.Outcome State Fault Refusal :=
  .next (s.unfrozen (fun s => s.ctxControl 0x04 (fun c s =>
    if s.ctxState c = 5 then
      let s := s.leaveFaulted c [0x0A, 0x0B] 0x0C 0
      ((if s.longWarning then s.enterFaulted c 0x0A 0 else s), Status.ok, 0)
    else (s, Status.ctxState, 0))))

/-! ## Jobs (R86, R89, R90) -/

/-- The bits that a job's layout gives a field (R85). -/
def jobLayout : List Nat :=
  [0xC000FFFF, 0xFFFFFFFF, 0xFFFFFFFF, 0x0006FFFF, 0xFFFF0FFF, 0xFF, 0xFFFFFFFF, 0xFFFFFFFF, 0xFFFFFFFF, 0xFFFFFFFF,
   0xFFFFFFFF, 0xFFFFFFFF, 0xFFFFFFFF, 0xFFFFFFFF, 0x007FFFFF]

/-- A layer of a job: enabled or not, and its operation (R85). Layers are 0 base, 1 overlay, 2 patch 0, 3 patch 1. -/
def layerOn (dw : List Word) (l : Nat) : Bool := bitOf (dwAt dw 4) (28 + l)
def layerOp (dw : List Word) (l : Nat) : Nat := bitsOf (dwAt dw 5) (2 * l + 1) (2 * l)

/-- The fields of patch `i` (R85): host address, bytes per line, lines, first nozzle and first product line. -/
structure Patch where
  addr  : Nat
  bpl   : Nat
  lines : Nat
  noz   : Nat
  line0 : Nat
  deriving DecidableEq, Repr

def patchOf (dw : List Word) (i : Nat) : Patch :=
  let b := 6 + 4 * i
  ⟨(dwAt dw b).toNat + 2 ^ 32 * (dwAt dw (b + 1)).toNat, bitsOf (dwAt dw (b + 2)) 31 16, bitsOf (dwAt dw (b + 2)) 15 0,
   bitsOf (dwAt dw (b + 3)) 31 16, bitsOf (dwAt dw (b + 3)) 15 0⟩

/-- The 64-byte units of a job's patch `i`; 0 when its layer is not enabled (R189). -/
def patchUnits (dw : List Word) (i : Nat) : Nat :=
  if layerOn dw (2 + i) then ((patchOf dw i).bpl * (patchOf dw i).lines + 63) / 64 else 0

/-- The plate of layer 0 or 1 of a job. -/
def plateOf (dw : List Word) (l : Nat) : Nat := if l = 0 then bitsOf (dwAt dw 4) 11 0 else bitsOf (dwAt dw 4) 27 16

/-- Whether an enabled plate of a job is refused (R86). -/
def State.plateRefused (s : State) (c : Nat) (dw : List Word) (l : Nat) : Bool :=
  let p := plateOf dw l
  layerOn dw l && (!s.on (Fld.PLD_W0_VALID p) ||
    decide (s.ctxNozzles c < s.rd (Fld.PLD_W2_NOZ_FIRST p) + s.rd (Fld.PLD_W3_NOZ_COUNT p)))

/-- Whether an enabled patch of a job is refused (R86); the product's lines are those of the active set (DEDUCED, log entry 10). -/
def State.patchRefused (s : State) (c : Nat) (dw : List Word) (i : Nat) : Bool :=
  let p := patchOf dw i
  layerOn dw (2 + i) && (decide (p.bpl = 0) || decide (p.lines = 0) || decide (1024 < p.bpl) || decide (p.noz % 4 ≠ 0) ||
    decide (s.ctxNozzles c < p.noz + 4 * p.bpl) || decide (s.rd (Fld.CTX_LINES_LINES c) < p.line0 + p.lines) ||
    decide (s.patchSize c * 64 < p.bpl * p.lines))

/-- Whether the checks of R86 refuse a job. -/
def State.jobBad (s : State) (c : Nat) (d : Desc) : Bool :=
  let dw := d.dw
  d.reservedSet jobLayout || (List.range 4).any (fun l => layerOn dw l && decide (layerOp dw l = 3)) ||
  s.plateRefused c dw 0 || s.plateRefused c dw 1 || s.patchRefused c dw 0 || s.patchRefused c dw 1 ||
  (bitOf (dwAt dw 3) 17 && (decide (31 < d.fld 14 22 17) || decide (s.ringSize (17 + d.fld 14 22 17) ≤ d.fld 14 15 0)))

/-- JOB_FETCH: the job at the front of job ring `r` is checked, and refused or presented to its queue (R86; DEDUCED, log entry 10 for the order
of the checks). -/
def execJobFetch (r : Fin 16) (s : State) : Host.Outcome State Fault Refusal :=
  .next (s.unfrozen (fun s =>
    let k := r.val + 1
    match s.nextDesc k with
    | none => s
    | some d =>
      let c := d.fld 0 15 8
      if d.opcode ≠ 1 ∨ (s.getRing k).checked then s
      else if c = 0 ∨ !s.ctxPresent c then (s.popDesc k).completeAny k d Status.unitAbsent
      else if s.ctxState c = 0 then (s.popDesc k).completeAny k d Status.ctxState
      else if s.jobBad c d then (s.popDesc k).completeAny k d Status.descError
      else s.setRing k { s.getRing k with checked := true }))

/-- The linear position up to which DMA ring `k` has completed its descriptors, which it does in ring order (R89, R90). -/
def State.completedPos (s : State) (k : Nat) : Nat :=
  let size := s.ringSize k
  (s.cons k + 2 * size - (s.getRing k).outstanding % (2 * size)) % (2 * size)

/-- Whether a job's WAIT condition is met (R90). -/
def State.waitMet (s : State) (d : Desc) : Bool :=
  if bitOf (dwAt d.dw 3) 17 then
    let k := 17 + d.fld 14 22 17
    let size := s.ringSize k
    let w := entriesFrom size (s.completedPos k) (linearOf size (dwAt d.dw 14))
    decide (w = 0) || decide (size < w)
  else true

/-- The forward position of context `c` now. -/
def State.fwdNow (s : State) (c : Nat) : Int := s.fwdOf (s.posSrc c) (s.on (Fld.CTX_BINDING_DIR c)) s.dibNow

/-- A job enters the queue of its context, or is cancelled by NOJOB_SKIP (R116, R117). -/
def State.enterQueue (s : State) (c : Nat) (j : Job) : State :=
  if s.rd (Fld.CTX_SKIP_COUNT c) ≠ 0 then
    (s.wr (Fld.CTX_SKIP_COUNT c) (s.rd (Fld.CTX_SKIP_COUNT c) - 1)).cancelJob c j
  else
    let x := s.getCtx c
    s.setCtx c { x with queue := x.queue ++ [j], toRef := if x.queue.isEmpty then some (s.fwdNow c) else x.toRef }

/-- Whether a job of context `c` fetched before that of ring `k` is held at another job ring: the jobs of a context enter its queue in
the order of their fetch (R89). -/
def State.earlierJob (s : State) (k c : Nat) : Bool :=
  (List.range 16).any (fun i => match s.nextDesc (i + 1) with
    | none => false
    | some d => decide (i + 1 ≠ k) && decide (d.opcode = 1) && decide (d.fld 0 15 8 = c) &&
      decide ((s.getRing (i + 1)).no < (s.getRing k).no))

/-- JOB_ENTER_QUEUE: the job held at job ring `r` enters its queue when the queue has room and its WAIT condition is met (R89). A
context that has meanwhile become unbound or been retired refuses it (DEDUCED, log entry 10). -/
def execJobEnterQueue (r : Fin 16) (s : State) : Host.Outcome State Fault Refusal :=
  .next (s.unfrozen (fun s =>
    let k := r.val + 1
    match s.nextDesc k with
    | none => s
    | some d =>
      let c := d.fld 0 15 8
      if !(s.getRing k).checked then s
      else
        let t := (s.popDesc k).setRing k { (s.popDesc k).getRing k with checked := false }
        if !s.ctxPresent c then t.completeAny k d Status.unitAbsent
        else if s.ctxState c = 0 then t.completeAny k d Status.ctxState
        else if 8 ≤ (s.getCtx c).queue.length ∨ !s.waitMet d ∨ s.earlierJob k c then s
        else t.enterQueue c ⟨k, d.index, false, d.dw, none⟩))

end Sys2Proof.Machine
end

