-- ==== Sys2Proof/Machine/Moraine.lean ====
section
/-! DEFINITION. Moraine's words and their code, scrub and write-back, plates and patch blocks (R34, R176 to R193, R637,
spec/05_moraine_and_espalier.md). -/

namespace Sys2Proof.Machine

/-- Whether a unit whose last burst or request was at TB `t` still pauses: while the die state is THROTTLE it waits DIE_PAUSE
after each, in 10 ns units (R471, R477). -/
def State.diePaused (s : State) (t : Option Nat) : Bool :=
  decide (s.rd Fld.HK_STAT_DIE_STATE = 2) && t.any (fun t => !s.past t (max 1 (s.rd Fld.HK_CFG_DIE_PAUSE) * 40))

/-! ## Bytes and words -/

/-- What an unlisted byte of the dot store reads as: 0, which initialisation writes (R179). -/
def memDefault (_ : Nat) : Byte := 0

def State.readByte (s : State) (a : Nat) : Byte := Store.get memDefault s.mem a
def State.writeByte (s : State) (a : Nat) (b : Byte) : State := { s with mem := Store.put memDefault s.mem a b }

/-- The form of the memory: addresses strictly rising, no entry equal to the default. -/
abbrev memWf (m : List Host.Cell) : Prop := Store.wf memDefault m = true

/-- The bank of an address (R176), and its domain. -/
def bankOf (a : Nat) : Nat := a / 0x100000
def bankDomain (b : Nat) : Domain := if b < 32 then .ds0 else .ds1

/-- Whether a DS domain is being initialised (R179). -/
def State.dsInit (s : State) (b : Nat) : Bool := if b < 32 then s.on Fld.ESP_STAT_DS0_INIT else s.on Fld.ESP_STAT_DS1_INIT

/-- Whether bank `b` is present, on and initialised. -/
def State.bankReady (s : State) (b : Nat) : Bool := s.bankPresent b && s.domOn (bankDomain b) && !s.dsInit b

/-! ## The code of a word (R177, R182, R496) -/

/-- What is wrong with the word at `w`, if anything. -/
def State.badWord (s : State) (w : Nat) : Option BadWord := Store.get (fun _ => none) s.esp.bad w
def State.setBad (s : State) (w : Nat) (b : Option BadWord) : State :=
  { s with esp := { s.esp with bad := Store.put (fun _ => none) s.esp.bad w b } }

/-- What the decoder finds in the word at `w`. -/
def State.eccOf (s : State) (w : Nat) : Ecc := (s.badWord w).elim .clean (fun b => b.look)

/-- Byte `i` of a word of Moraine. -/
def byteOf (v : BitVec 64) (i : Nat) : Byte := BitVec.ofNat 8 (v.toNat / 2 ^ (8 * i))

/-- The byte at an address as a read through the decoder gives it (R177). -/
def State.decodedByte (s : State) (a : Nat) : Byte :=
  match s.badWord (a / 8 * 8) with
  | none => s.readByte a
  | some b => byteOf b.data (a % 8)

/-- The data bits of the word at `w` as stored. -/
def State.storedWord (s : State) (w : Nat) : BitVec 64 :=
  BitVec.ofNat 64 (((List.range 8).map (fun i => (s.readByte (w + i)).toNat * 2 ^ (8 * i))).foldl (· + ·) 0)

/-- The data bits of the word at `w` are stored. -/
def State.storeWord (s : State) (w : Nat) (v : BitVec 64) : State :=
  (List.range 8).foldl (fun s i => s.writeByte (w + i) (byteOf v i)) s

/-- How many bits of a code word are set. -/
def onesOf (v : BitVec 72) : Nat := ((List.range 72).filter (fun i => v.getLsbD i)).length

/-- Bits of the stored code word at `w` are upset. One wrong bit is corrected and two are detected; three or more can give any of three
results, and what a miscorrection returns is open too: free values (R177; DESIGN CHOICE, log entry 1). -/
def State.upset (s : State) (w : Nat) (flips : BitVec 72) : State :=
  let all := (s.badWord w).elim flips (fun b => b.flips ^^^ flips)
  let stored := s.storedWord w ^^^ flips.truncate 64
  let s := s.storeWord w stored
  match onesOf all with
  | 0 => s.setBad w none
  | 1 => s.setBad w (some ⟨all, .corrected, stored ^^^ all.truncate 64⟩)
  | 2 => s.setBad w (some ⟨all, .bad, stored⟩)
  | _ =>
    let (f, s) := s.draw
    let (g, s) := s.draw
    s.setBad w (some (match f.toNat % 3 with
      | 0 => ⟨all, .clean, stored⟩
      | 1 => ⟨all, .corrected, g⟩
      | _ => ⟨all, .bad, stored⟩))

/-- The word at `w` is written back as the decoder gave it, with a valid code (R181, R182). -/
def State.writeBack (s : State) (w : Nat) : State :=
  match s.badWord w with
  | none => s
  | some b => (s.storeWord w b.data).setBad w none

/-- The report and the counters of a decoder's result for the word at `w` (R182). -/
def State.eccReport (s : State) (w : Nat) (r : Ecc) (m : Option Master) (inj coinc : Bool) : State :=
  match r with
  | .clean => s
  | .corrected =>
    ((s.reportInj 0x008 (BitVec.ofNat 32 w) m inj coinc).bumpSat Fld.MOR_CE_CNT_COUNT).wr Fld.MOR_CE_ADDR_WORD (w / 8)
  | .bad =>
    ((s.reportInj 0x009 (BitVec.ofNat 32 w) m inj coinc).bumpSat Fld.MOR_UE_CNT_COUNT).wr Fld.MOR_UE_ADDR_WORD (w / 8)

/-- The check of the word at `w` in a read, made for a master or a unit: the result, reported and counted. An armed injection falls on
the first word checked (R496); a real error takes its place and is marked (R498). -/
def State.checkWord (s : State) (w : Nat) (m : Option Master) : Ecc × State :=
  let r := s.eccOf w
  if s.injDue [0x008, 0x009] then
    if s.on Fld.RAKE_INJ_CTL_RAIL then (r, ((s.injRail.injFired false).eccReport w r m false false))
    else if r = .clean then
      let k := if 2 ≤ s.rd Fld.RAKE_INJ_CTL_FLIP then Ecc.bad else Ecc.corrected
      (k, (s.eccReport w k m true false).injFired false)
    else (r, (s.eccReport w r m false true).injFired true)
  else (r, s.eccReport w r m false false)

/-- A write-back of the word at `w` is scheduled, unless it is already or its bank holds 8 (R182). -/
def State.scheduleBack (s : State) (w : Nat) : State :=
  let q := s.esp.writeBack
  if q.contains w || decide (8 ≤ (q.filter (fun x => decide (bankOf x = bankOf w))).length) then s
  else { s with esp := { s.esp with writeBack := q ++ [w] } }

/-- A read that schedules the write-back of a correctable word (R182). -/
def State.readWord (s : State) (w : Nat) (m : Option Master) : Ecc × State :=
  let (r, s) := s.checkWord w m
  (r, if r = .corrected then s.scheduleBack w else s)

/-! ## Writes (R34) -/

/-- The bytes of a write that fall in the word at `w`: for each of its 8 bytes, the byte written if any. -/
def wordPart (a : Nat) (data : List (Option Byte)) (w : Nat) : List (Option Byte) :=
  (List.range 8).map (fun i => if w + i < a then none else (data.getD (w + i - a) none))

/-- The bytes of a word are stored. -/
def State.putBytes (s : State) (w : Nat) (part : List (Option Byte)) : State :=
  (part.zipIdx).foldl (fun s x => match x.1 with | none => s | some b => s.writeByte (w + x.2) b) s

/-- A write granted to the word at `w`, as whole or as read-modify-write (R34, R177). It clears the word's errors and any write-back
scheduled for it. -/
def State.writeWord (s : State) (w : Nat) (part : List (Option Byte)) (m : Option Master) : State :=
  if part.all Option.isNone then s
  else
    let s := { s with esp := { s.esp with writeBack := s.esp.writeBack.filter (fun x => x != w) } }
    if part.all Option.isSome then (s.setBad w none).putBytes w part
    else
      let (r, s) := s.checkWord w m
      if r = .bad then s else (s.writeBack w).putBytes w part

/-- The words that `len` bytes from `a` touch. -/
def wordsOf (a len : Nat) : List Nat :=
  if len = 0 then [] else (List.range ((a + len - 1) / 8 - a / 8 + 1)).map (fun i => (a / 8 + i) * 8)

/-- A write of bytes of the dot store: words in absent banks take nothing (R5), words of a domain that is off or initialising are
dropped and the access is reported once (R27, R179). -/
def State.writeDots (s : State) (a : Nat) (data : List (Option Byte)) (m : Option Master) : State :=
  let ws := (wordsOf a data.length).filter (fun w => s.bankPresent (bankOf w))
  let s := if m.isSome && ws.any (fun w => !s.bankReady (bankOf w)) then
      s.reportInj 0x201 (BitVec.ofNat 32 a) m false false else s
  (ws.filter (fun w => s.bankReady (bankOf w))).foldl (fun s w => s.writeWord w (wordPart a data w) m) s

/-- The bytes of a word of the dot store, as a read returns them: 0 in a bank that is absent, off or initialising (R5, R27, R179). -/
def State.dotByte (s : State) (a : Nat) : Byte := if s.bankReady (bankOf a) then s.decodedByte a else 0

/-- A master's read of `len` bytes of the dot store: every word read is checked once (R182). -/
def State.readDots (s : State) (a len : Nat) (m : Option Master) : List Byte × State :=
  let ws := (wordsOf a len).filter (fun w => s.bankPresent (bankOf w))
  let out := (List.range len).map (fun i => s.dotByte (a + i))
  let s := if m.isSome && ws.any (fun w => !s.bankReady (bankOf w)) then
      s.reportInj 0x201 (BitVec.ofNat 32 a) m false false else s
  (out, (ws.filter (fun w => s.bankReady (bankOf w))).foldl (fun s w => (s.readWord w m).2) s)

/-- MORAINE_WRITE: a master writes 1 to 512 bytes of the dot store, with byte enables (R34). -/
def execMoraineWrite (m : Master) (a : BusAddr) (data : List (Option Byte)) (s : State) : Host.Outcome State Fault Refusal :=
  .next (s.unfrozen (fun s => if (deviceAddr a) < 0x4000000 then s.writeDots (deviceAddr a) (data.take 512) (some m) else s))

/-! ## Scrub, write-back, initialisation (R179, R181, R182) -/

/-- Whether SCRUB_INT has passed since the last scrub reads; 0 applies 1 µs (R181, R208). -/
def State.scrubDue (s : State) : Bool :=
  s.on Fld.ESP_CFG_SCRUB_EN && decide (s.esp.scrubbed + max 1 (s.rd Fld.ESP_CFG_SCRUB_INT) * 4000 ≤ s.tb.toNat)

/-- One word of each present bank is read; a correctable one is written back corrected, and the scrub steps on (R181). -/
def State.scrub (s : State) : State :=
  let w := s.esp.scrubAt * 8
  let s := ((List.range 64).filter s.bankReady).foldl (fun s b =>
    let r := s.checkWord (b * 0x100000 + w) none
    if r.1 = .corrected then r.2.writeBack (b * 0x100000 + w) else r.2) s
  { s with esp := { s.esp with scrubAt := (s.esp.scrubAt + 1) % 0x20000, scrubbed := s.tb.toNat } }

/-- SCRUB_READ: the scrub's reads, once they are due (R181). -/
def execScrubRead (s : State) : Host.Outcome State Fault Refusal := .next (s.unfrozen (fun s => if s.scrubDue then s.scrub else s))

/-- Bits of stored words, by word number, change of themselves (R177; DESIGN CHOICE, log entry 94). -/
def State.takeUpsets (s : State) (upsets : List (Fin 0x800000 × BitVec 72)) : State :=
  (upsets.filter (fun u => s.bankReady (bankOf (u.1 * 8)))).foldl (fun s u => s.upset (u.1 * 8) u.2) s

/-- The oldest write-back scheduled in bank `b` is made (R182). -/
def State.nextWriteBack (s : State) (b : Fin 64) : State :=
  match s.esp.writeBack.find? (fun w => decide (bankOf w = b)) with
  | none => s
  | some w => State.writeBack { s with esp := { s.esp with writeBack := s.esp.writeBack.filter (fun x => x != w) } } w

/-- ECC_WRITE_BACK: a bank has a free cycle for a scheduled write-back (R182). The command gives the bank, and the bits of the store that
have changed of themselves before that cycle (R177; DESIGN CHOICE, log entry 94). -/
def execEccWriteBack (c : Fin 64 × List (Fin 0x800000 × BitVec 72)) (s : State) : Host.Outcome State Fault Refusal :=
  .next (s.unfrozen (fun s => (s.takeUpsets c.2).nextWriteBack c.1))

/-! ## Patch blocks (R189 to R193, R637) -/

/-- The jobs of a context in queue order, those of products first. -/
def Ctx.jobs (x : Ctx) : List Job := x.prods.map (fun p => p.job) ++ x.queue

/-- The blocks that a context holds, oldest first. -/
def Ctx.blocks (x : Ctx) : List Block := x.jobs.filterMap (fun j => j.block)

/-- The units of a job's block (R189). -/
def Job.units (j : Job) : Nat := patchUnits j.dw 0 + patchUnits j.dw 1

/-- Where a block of `u` units goes in a patch area of `size` units: `none` while there is no space (R189). -/
def placeBlock (x : Ctx) (size u : Nat) : Option Nat :=
  match x.blocks with
  | [] => if u ≤ size then some 0 else none
  | o :: _ =>
    if x.alloc ≤ o.base then (if x.alloc + u ≤ o.base then some x.alloc else none)
    else if x.alloc + u ≤ size then some x.alloc
    else if u ≤ o.base then some 0
    else none

/-- The block units a context holds, with the unused tail (R210). -/
def usedUnits (x : Ctx) (size : Nat) : Nat :=
  match x.blocks with
  | [] => 0
  | o :: _ => if x.alloc ≤ o.base then size - o.base + x.alloc else x.alloc - o.base

/-- Whether a job still waits for its block: it has patches, and none is given. A job too large for its area waits too, and those
behind it wait with it until its product has completed at its start (R189, R190). -/
def Job.waits (j : Job) : Bool := j.block.isNone && decide (0 < j.units)

/-- Whether a product in flight and not aborted has a job that waits for its block. -/
def Product.waits (p : Product) : Bool := !p.ended && p.status.isNone && p.job.waits

/-- The first job of a list that `p` names gets block `b`. -/
def giveBlock (p : Job → Bool) (b : Block) : List Job → List Job
  | [] => []
  | j :: t => if p j then { j with block := some b } :: t else j :: giveBlock p b t

/-- The first product of a list that `p` names gets block `b` for its job. -/
def giveProdBlock (p : Product → Bool) (b : Block) : List Product → List Product
  | [] => []
  | x :: t => if p x then { x with job := { x.job with block := some b } } :: t else x :: giveProdBlock p b t

/-- Whether the products of a context hold a job that waits for its block. -/
def Ctx.prodWaits (x : Ctx) : Bool := x.prods.any Product.waits

/-- Whether a job of the context waits for its block, a product's job while it is not aborted. -/
def Ctx.anyWaits (x : Ctx) : Bool := x.prodWaits || x.queue.any Job.waits

/-- The units of the next block to be allocated. -/
def Ctx.nextUnits (x : Ctx) : Nat :=
  match x.prods.find? Product.waits, x.queue.find? Job.waits with
  | some p, _ => p.job.units
  | none, some j => j.units
  | none, none => 0

/-- Whether the DS domains that a block lies in are on and initialised (R637). -/
def State.areaReady (s : State) (c base units : Nat) : Bool :=
  let a := (s.patchBase c + base) * 64
  (List.range (bankOf (a + units * 64 - 1) - bankOf a + 1)).all (fun i =>
    s.domOn (bankDomain (bankOf a + i)) && !s.dsInit (bankOf a + i))

/-- BLOCK_ALLOCATE: the next block of context `n` is allocated, once space exists (R189, R637). -/
def execBlockAllocate (n : Fin 255) (s : State) : Host.Outcome State Fault Refusal :=
  .next (s.unfrozen (fun s =>
    let x := s.getCtx n
    let size := s.patchSize n
    if !x.anyWaits || !s.domOn .ds0 || s.dsInit 0 then s
    else
      let u := x.nextUnits
      match placeBlock x size u with
      | none => s
      | some base =>
        if !s.areaReady n base u then s
        else
          let b : Block := ⟨base, u, Fetch.reset, Fetch.reset, false⟩
          if x.prodWaits then
            s.setCtx n { x with prods := giveProdBlock Product.waits b x.prods, alloc := base + u }
          else s.setCtx n { x with queue := giveBlock Job.waits b x.queue, alloc := base + u }))

/-- Whether patch `i` of a job is fetched and not yet resident. -/
def Job.fetching (j : Job) (i : Nat) : Bool :=
  match j.block with
  | none => false
  | some b => layerOn j.dw (2 + i) && !(if i = 0 then b.p0 else b.p1).res && !b.dead

/-- The device address of the first byte of a job's patch `i` (R189). -/
def State.patchAddr (s : State) (c : Nat) (j : Job) (i : Nat) : Nat :=
  (s.patchBase c + (j.block.elim 0 (fun b => b.base)) + (if i = 0 then 0 else patchUnits j.dw 0)) * 64

/-- The job with its patches to be fetched again from their beginning. -/
def Job.refetch (j : Job) : Job := { j with block := j.block.map (fun b => { b with p0 := Fetch.reset, p1 := Fetch.reset }) }

/-- A fetch that is not complete begins again. -/
def Fetch.restart (f : Fetch) : Fetch := if f.res then f else Fetch.reset

/-- The job with its incomplete fetches to be made again. -/
def Job.restart (j : Job) : Job :=
  { j with block := j.block.map (fun b => { b with p0 := b.p0.restart, p1 := b.p1.restart }) }

/-- The job with its patches never fetched again. -/
def Job.forsake (j : Job) : Job := { j with block := j.block.map (fun b => { b with dead := true }) }

/-- How many blocks of queued jobs `p` names. -/
def State.countBlocks (s : State) (p : Nat → Job → Bool) : Nat :=
  s.liveCtxs.foldl (fun n c => n + ((s.getCtx c).queue.filter (fun j => j.block.isSome && p c j)).length) 0

/-- The held blocks of queued jobs that `again` names are fetched again, and counted; patches of products that have started are
fetched no more (R193, R637). -/
def State.refetchBlocks (s : State) (again : Nat → Job → Bool) (lost : Nat → Job → Bool) : State :=
  let n := s.countBlocks again
  let s := s.liveCtxs.foldl (fun s c =>
    let x := s.getCtx c
    s.setCtx c { x with
      queue := x.queue.map (fun j => if j.block.isSome && again c j then j.refetch else j)
      prods := x.prods.map (fun p => if lost c p.job then { p with job := p.job.forsake } else p) }) s
  s.wr Fld.BAR_CNT_REFETCH_COUNT (satAdd 32 (s.rd Fld.BAR_CNT_REFETCH_COUNT) n)

/-- A reset of the HOST domain: each patch fetch that was not complete begins again; those of products that have started are made no more,
as after DMA_RESTART (R193, R380). -/
def State.restartFetches (s : State) : State :=
  s.liveCtxs.foldl (fun s c =>
    let x := s.getCtx c
    s.setCtx c { x with
      queue := x.queue.map Job.restart
      prods := x.prods.map (fun p =>
        if (List.range 2).any (fun i => p.job.fetching i) then { p with job := p.job.restart.forsake } else p) }) s

/-- Whether a job's block reaches a bank of DS1 or DS0. -/
def State.blockIn (s : State) (ds1 : Bool) (c : Nat) (j : Job) : Bool :=
  match j.block with
  | none => false
  | some b =>
    let lo := bankOf ((s.patchBase c + b.base) * 64)
    let hi := bankOf ((s.patchBase c + b.base + b.units) * 64 - 1)
    if ds1 then decide (32 ≤ hi) else decide (lo < 32)

/-! ## Plates (R184 to R186) -/

/-- The four words of a plate descriptor in force. -/
def State.plateWords (s : State) (d : Nat) : List Word :=
  [s.getReg (Reg.PLD_W0 d), s.getReg (Reg.PLD_W1 d), s.getReg (Reg.PLD_W2 d), s.getReg (Reg.PLD_W3 d)]

/-- Fields of a plate descriptor's words. -/
def plValid (w : List Word) : Bool := bitOf (dwAt w 0) 31
def plWrap (w : List Word) : Bool := bitOf (dwAt w 0) 30
def plBase (w : List Word) : Nat := bitsOf (dwAt w 0) 19 0
def plLines (w : List Word) : Nat := bitsOf (dwAt w 1) 31 16
def plBpl (w : List Word) : Nat := bitsOf (dwAt w 1) 8 0
def plLine0 (w : List Word) : Nat := bitsOf (dwAt w 2) 31 16
def plFirst (w : List Word) : Nat := bitsOf (dwAt w 2) 15 0
def plCount (w : List Word) : Nat := bitsOf (dwAt w 3) 16 0

/-- The reason for which a descriptor in force fails its check, the lowest; 0 when it passes (R185). -/
def State.plateReason (s : State) (w : List Word) : Nat :=
  if plLines w = 0 then 1
  else if plBpl w = 0 ∨ 256 < plBpl w then 2
  else if plFirst w % 4 ≠ 0 ∨ plCount w % 4 ≠ 0 ∨ plCount w = 0 ∨ 65536 < plCount w ∨ 65536 < plFirst w + plCount w then 3
  else if plBpl w * 256 < plCount w then 4
  else if !s.storePresent (plBase w * 64) (plLines w * plBpl w * 64) then 5
  else if bitsOf (dwAt w 0) 29 20 ≠ 0 ∨ bitsOf (dwAt w 1) 15 9 ≠ 0 ∨ bitsOf (dwAt w 3) 31 17 ≠ 0 then 6
  else 0

/-- A write of the word at +0xC of descriptor `d`: the whole descriptor takes effect and is checked (R20, R185). -/
def State.writePlate (s : State) (m : Master) (d : Nat) (v : Word) : State :=
  let s := s.writeCode m (Reg.PLD_W3 d) v
  let w := s.plateWords d
  let r := s.plateReason w
  if plValid w ∧ r ≠ 0 then
    let s := s.wr (Fld.PLD_W0_VALID d) 0
    ((s.wr Fld.ESP_STAT_PLD_BAD 1).wr Fld.ESP_PLD_BAD_REASON r).wr Fld.ESP_PLD_BAD_NUM d
  else s

/-- PLATE_DESCRIPTOR_WRITE: a master writes the word at +0xC of plate descriptor `d`. -/
def execPlateDescriptorWrite (m : Master) (d : Fin 4096) (v : Word) (s : State) : Host.Outcome State Fault Refusal :=
  .next (s.unfrozen (fun s => s.accessBy m (Reg.PLD_W3 d) (fun s => s.writePlate m d v)))

end Sys2Proof.Machine
end

