-- ==== Sys2Proof/Machine/Compose.lean ====
section
/-! DEFINITION. Shears, Graft and the composition of a line (R194 to R240, spec/05_moraine_and_espalier.md,
spec/06_shears_and_graft.md). -/

namespace Sys2Proof.Machine

/-! ## Shears: scanning words, zones, mask sets (R212 to R223) -/

/-- SCAN_CONFIG_COMMIT: a master writes SHR_CTXn_ALIGN_R, and the three scanning words take effect together (R20, R212). -/
def execScanConfigCommit (m : Master) (n : Fin 255) (v : Word) (s : State) : Host.Outcome State Fault Refusal :=
  .next (s.unfrozen (fun s => s.accessBy m (Reg.SHR_CTX_ALIGN_R n) (fun s => s.writeCode m (Reg.SHR_CTX_ALIGN_R n) v)))

/-- A zone is skipped: it is counted and recorded (R223). -/
def State.zoneBad (s : State) (z reason ctx : Nat) : State :=
  let s := (s.bumpSat Fld.SHR_CNT_ZSKIP_COUNT).wr Fld.SHR_STAT_ZONE_BAD 1
  ((s.wr Fld.SHR_ZBAD_REASON reason).wr Fld.SHR_ZBAD_ZONE z).wr Fld.SHR_ZBAD_CTX ctx

/-- A write of a zone's word at +0x4: the zone takes effect, and reason 0x4 is judged (R223). -/
def State.writeZone (s : State) (m : Master) (z : Nat) (v : Word) : State :=
  let s := s.writeCode m (Reg.SHR_ZONE_B z) v
  let a := s.getReg (Reg.SHR_ZONE_A z)
  if bitOf a 31 ∧ (bitsOf a 23 16 = 0 ∨ bitsOf a 23 16 = 255) then s.zoneBad z 4 (bitsOf a 23 16) else s

/-- STITCH_ZONE_WRITE: a master writes SHR_ZONEz_B. -/
def execStitchZoneWrite (m : Master) (z : Fin 64) (v : Word) (s : State) : Host.Outcome State Fault Refusal :=
  .next (s.unfrozen (fun s => s.accessBy m (Reg.SHR_ZONE_B z) (fun s => s.writeZone m z v)))

/-- The reason for which a zone is not applied to a product of context `c`; 0 when it is (R223). -/
def State.zoneReason (s : State) (c : Nat) (a b : Word) : Nat :=
  let n := s.nranges c
  let ra := bitsOf a 15 12
  let rb := bitsOf a 11 8
  let w := bitsOf b 8 0
  let cnt := fun r => s.rd (Fld.CTX_RANGE_COUNT c r)
  if n ≤ ra ∨ n ≤ rb ∨ ra = rb then 1
  else if w = 0 ∨ 256 < w ∨ cnt ra < w ∨ cnt rb < w then 2
  else if bitsOf a 30 24 ≠ 0 ∨ bitsOf a 7 4 ≠ 0 ∨ bitsOf b 31 23 ≠ 0 ∨ bitsOf b 15 9 ≠ 0 then 3
  else 0

/-- The zones that a product of context `c` captures, in ascending number; each that fails its check is skipped (R212, R223). -/
def State.captureZones (s : State) (c : Nat) : List (Nat × Word × Word) × State :=
  (List.range 64).foldl (fun acc z =>
    let a := acc.2.getReg (Reg.SHR_ZONE_A z)
    let b := acc.2.getReg (Reg.SHR_ZONE_B z)
    if bitOf a 31 ∧ bitsOf a 23 16 = c ∧ c ≠ 0 then
      match acc.2.zoneReason c a b with
      | 0 => (acc.1 ++ [(z, a, b)], acc.2)
      | r => (acc.1, acc.2.zoneBad z r c)
    else acc) ([], s)

/-- A modulus field: 0 applies 1, above 64 applies 64 (R237, R238). -/
def modOf (m : Nat) : Nat := max 1 (min m 64)

/-- Bit `b` of entry `e` of pass `p` of mask set `set` (R219). -/
def State.maskBit (s : State) (set p e b : Nat) : Bool :=
  bitOf (s.getReg (Reg.SHR_MASK (set * 1024 + p * 128 + e * 2 + b / 32))) (b % 32)

/-- How many of the first `n` passes of a mask set have a bit set. -/
def State.maskCount (s : State) (set n e b : Nat) : Nat :=
  ((List.range n).filter (fun p => s.maskBit set p e b)).length

/-- A write of SHR_CHECK: GO starts a check of a set, and is ignored while one runs (R220, R237). -/
def State.writeCheck (s : State) (m : Master) (v : Word) : State :=
  let busy := s.on Fld.SHR_CHECK_BUSY
  let s := s.writeCode m Reg.SHR_CHECK v
  if !bitOf v 31 || busy then s
  else
    let s := s.wr Fld.SHR_CHECK_BUSY 1
    let set := s.rd Fld.SHR_CHECK_SET
    let n := s.rd Fld.SHR_CHECK_NPASS_M1 + 1
    let md := modOf (s.rd Fld.SHR_CHECK_MOD)
    { s with maskCheck := some (set, n, md,
      ((List.range (md * 64)).find? (fun i => decide (s.maskCount set n (i / 64) (i % 64) ≠ 1))).map
        (fun i => (i, s.maskCount set n (i / 64) (i % 64)))) }

/-- MASK_CHECK: a master writes SHR_CHECK with GO set. -/
def execMaskCheck (m : Master) (v : Word) (s : State) : Host.Outcome State Fault Refusal :=
  .next (s.unfrozen (fun s => s.accessBy m Reg.SHR_CHECK (fun s => s.writeCheck m (v ||| 0x80000000))))

/-- MASK_CHECK_DONE: the check completes, with the result found in the set's contents at its start (R220). -/
def execMaskCheckDone (s : State) : Host.Outcome State Fault Refusal :=
  .next (s.unfrozen (fun s =>
    match s.maskCheck with
    | none => s
    | some (_, _, _, r) =>
      let s := ({ s with maskCheck := none }).wr Fld.SHR_CHECK_BUSY 0
      match r with
      | none => s.wr Fld.SHR_CHECK_RESULT 1
      | some (i, n) =>
        ((s.wr Fld.SHR_CHECK_RESULT (if n = 0 then 2 else 3)).wr Fld.SHR_CHECK_ENTRY (i / 64)).wr Fld.SHR_CHECK_BIT (i % 64)))

/-! ## Graft: statuses and substitution entries (R224 to R227) -/

/-- The register of a nozzle's status, and its bit place (R224). -/
def mapReg (p n : Nat) : Nat := Reg.GRF_MAP (p * 256 + n / 16)
def mapFld (p n : Nat) : Fld := ⟨mapReg p n, 2 * (n % 16) + 1, 2 * (n % 16)⟩

/-- The status of nozzle `n` of port `p`: 0 OK, 1 WEAK, 2 DEAD, 3 RETIRED; 0 on an absent or retired port (R224). -/
def State.nozStatus (s : State) (p n : Nat) : Nat := if s.portPresent p then s.rd (mapFld p n) else 0

/-- The status of one nozzle is set; a port that is absent or retired ignores it (R224, R225). -/
def State.setNoz (s : State) (p n st : Nat) : State := if s.portPresent p then s.wr (mapFld p n) st else s

/-- GRF_NSET: a master writes GRF_NSET, which sets the status of one nozzle (R225). -/
def execGrfNset (m : Master) (v : Word) (s : State) : Host.Outcome State Fault Refusal :=
  .next (s.unfrozen (fun s => s.accessBy m Reg.GRF_NSET (fun s => s.setNoz (bitsOf v 19 16) (bitsOf v 11 0) (bitsOf v 31 30))))

/-- The four words of a substitution entry in force (R226). -/
def State.subWords (s : State) (e : Nat) : List Word :=
  [s.getReg (Reg.GRF_SUB_W0 e), s.getReg (Reg.GRF_SUB_W1 e), s.getReg (Reg.GRF_SUB_W2 e), s.getReg (Reg.GRF_SUB_W3 e)]

/-- A substitute of an entry (R226): its port, nozzle and tick offset, if enabled. `b` names substitute B. -/
def subOf (w : List Word) (b : Bool) : Option (Nat × Nat × Int) :=
  if b then (if bitOf (dwAt w 0) 28 then some (bitsOf (dwAt w 1) 15 12, bitsOf (dwAt w 1) 11 0, signedOf 24 (bitsOf (dwAt w 3) 23 0)) else none)
  else (if bitOf (dwAt w 0) 29 then some (bitsOf (dwAt w 1) 31 28, bitsOf (dwAt w 1) 27 16, signedOf 24 (bitsOf (dwAt w 2) 23 0)) else none)

/-- The dead nozzle that an entry names. -/
def deadOf (w : List Word) : Nat × Nat := (bitsOf (dwAt w 0) 19 16, bitsOf (dwAt w 0) 11 0)

/-- The numbers of the valid entries, ascending. -/
def State.validSubs (s : State) : List Nat :=
  (s.regs.filter (fun c => decide (Reg.GRF_SUB_W0 0 ≤ c.1) && decide (c.1 ≤ Reg.GRF_SUB_W0 8191) &&
      decide ((c.1 - Reg.GRF_SUB_W0 0) % 16 = 0) && bitOf c.2 31)).map (fun c => (c.1 - Reg.GRF_SUB_W0 0) / 16)

/-- The reason for which an entry in force fails its check, the lowest; 0 when it passes (R227). -/
def State.subReason (s : State) (e : Nat) (w : List Word) : Nat :=
  let d := deadOf w
  let a := subOf w false
  let b := subOf w true
  let same : Option (Nat × Nat × Int) → Bool := fun x => match x with | none => false | some y => decide ((y.1, y.2.1) = d)
  let gone : Option (Nat × Nat × Int) → Bool := fun x => match x with | none => false | some y => !s.portPresent y.1
  if a.isNone ∧ b.isNone then 1
  else if same a ∨ same b ∨ (a.isSome ∧ b.isSome ∧ a.map (fun y => (y.1, y.2.1)) = b.map (fun y => (y.1, y.2.1))) then 2
  else if !s.portPresent d.1 ∨ gone a ∨ gone b then 3
  else if s.validSubs.any (fun k => decide (k < e) && decide (deadOf (s.subWords k) = d)) then 4
  else if bitsOf (dwAt w 0) 27 20 ≠ 0 ∨ bitsOf (dwAt w 0) 15 12 ≠ 0 ∨ bitsOf (dwAt w 2) 31 24 ≠ 0 ∨ bitsOf (dwAt w 3) 31 24 ≠ 0 then 5
  else 0

/-- A write of the word at +0xC of entry `e`: the entry takes effect and is checked (R20, R227). -/
def State.writeSub (s : State) (m : Master) (e : Nat) (v : Word) : State :=
  let s := s.writeCode m (Reg.GRF_SUB_W3 e) v
  let w := s.subWords e
  let r := s.subReason e w
  if bitOf (dwAt w 0) 31 ∧ r ≠ 0 then
    let s := s.wr (Fld.GRF_SUB_W0_VALID e) 0
    ((s.wr Fld.GRF_STAT_BAD 1).wr Fld.GRF_BAD_REASON r).wr Fld.GRF_BAD_NUM e
  else s

/-- SUBSTITUTION_ENTRY_WRITE: a master writes the word at +0xC of substitution entry `e`. -/
def execSubstitutionEntryWrite (m : Master) (e : Fin 8192) (v : Word) (s : State) : Host.Outcome State Fault Refusal :=
  .next (s.unfrozen (fun s => s.accessBy m (Reg.GRF_SUB_W3 e) (fun s => s.writeSub m e v)))

/-! ## The levels of a product's nozzles (R187, R188, R195, R219, R221) -/

/-- The product line of the `k`-th line of a pass, and whether the pass is reverse (R214). -/
def Product.reverse (x : Product) : Bool :=
  bitOf (dwAt x.scan 0) 31 && bitOf (dwAt x.scan 0) 30 && decide (x.pass % 2 = 1)
def Product.lineAt (x : Product) (k : Nat) : Nat := if x.reverse then x.lines - 1 - k else k

/-- Where the level of nozzle `k` on line `i` of a layer stands: the byte's address and the bit place, or nowhere when the layer is
transparent there (R187, R188, R195). `l` is 0 base, 1 overlay, 2 patch 0, 3 patch 1. -/
def State.dotPlace (s : State) (c : Nat) (x : Product) (l i k : Nat) : Option (Nat × Nat) :=
  if !layerOn x.job.dw l then none
  else if l < 2 then
    match (x.plates.getD []).getD l none with
    | none => none
    | some w =>
      if i < plLine0 w ∨ k < plFirst w ∨ plFirst w + plCount w ≤ k then none
      else
        let j := i - plLine0 w
        if plLines w ≤ j ∧ ¬ plWrap w then none
        else some (plBase w * 64 + (j % plLines w) * plBpl w * 64 + (k - plFirst w) / 4, 2 * ((k - plFirst w) % 4))
  else
    let p := patchOf x.job.dw (l - 2)
    if i < p.line0 ∨ p.line0 + p.lines ≤ i ∨ k < p.noz ∨ p.noz + 4 * p.bpl ≤ k then none
    else some (s.patchAddr c x.job (l - 2) + (i - p.line0) * p.bpl + (k - p.noz) / 4, 2 * ((k - p.noz) % 4))

/-- The composed level of nozzle `k` on line `i` (R195, R196). -/
def State.composeLevel (s : State) (c : Nat) (x : Product) (i k : Nat) : Nat :=
  (List.range 4).foldl (fun out l =>
    match s.dotPlace c x l i k with
    | none => out
    | some (a, b) =>
      let v := (s.decodedByte a).toNat / 2 ^ b % 4
      if v = 0 then out
      else
        match layerOp x.job.dw l with
        | 0 => v
        | 1 => max v out
        | _ => out ||| v) 0

/-- The level after the pass mask (R219). -/
def State.passMask (s : State) (x : Product) (i k v : Nat) : Nat :=
  let w := dwAt x.scan 0
  if bitOf w 31 ∧ bitOf w 29 then
    if s.maskBit (bitsOf w 15 12) x.pass (i % modOf (bitsOf w 22 16)) (k % 64) then v else 0
  else v

/-- Bit `j` of entry `e` of stitch table `t` (R222). -/
def State.stitchBit (s : State) (t e j : Nat) : Bool := bitOf (s.getReg (Reg.SHR_STITCH (t * 512 + e * 8 + j / 32))) (j % 32)

/-- The range of a context that holds its nozzle index `k`, and the place in it (R101). -/
def rangeAt (k : Nat) : List (Nat × Nat × Nat) → Nat → Option (Nat × Nat)
  | [], _ => none
  | r :: t, n => if k < r.2.2 then some (n, k) else rangeAt (k - r.2.2) t (n + 1)

/-- The level after the product's stitch zones, in ascending number (R211, R221). -/
def State.stitch (s : State) (c : Nat) (x : Product) (i k v : Nat) : Nat :=
  match rangeAt k (s.ctxRanges c) 0 with
  | none => v
  | some (r, o) =>
    x.zones.foldl (fun v z =>
      let a := z.2.1
      let b := z.2.2
      let w := bitsOf b 8 0
      let e := i % modOf (bitsOf b 22 16)
      let t := bitsOf a 3 0
      let cnt := s.rd (Fld.CTX_RANGE_COUNT c r)
      let v := if r = bitsOf a 15 12 ∧ cnt ≤ o + w then (if s.stitchBit t e (o + w - cnt) then v else 0) else v
      if r = bitsOf a 11 8 ∧ o < w then (if s.stitchBit t e o then 0 else v) else v) v

/-- lvl(i, k): the level composed and passed by Shears; context 0 is exempt (R211, R231). -/
def State.shearsLevel (s : State) (c : Nat) (x : Product) (i k : Nat) : Nat :=
  let v := s.composeLevel c x i k
  if c = 0 then v else s.stitch c x i k (s.passMask x i k v)

/-! ## Substitution in a request (R228 to R235) -/

/-- The nozzle indices and port positions of a range of a context, in order. -/
def rangeNozzles (k0 r : Nat) (x : Nat × Nat × Nat) : List (Nat × Nat × Nat × Nat) :=
  (List.range x.2.2).map (fun o => (k0 + o, r, x.1, x.2.1 + o))

/-- Every nozzle of a context: its index, range, port and port position. -/
def ctxNozzleList : Nat → Nat → List (Nat × Nat × Nat) → List (Nat × Nat × Nat × Nat)
  | _, _, [] => []
  | k0, r, x :: t => rangeNozzles k0 r x ++ ctxNozzleList (k0 + x.2.2) (r + 1) t

/-- The nozzle index of a port's nozzle in a list of a context's nozzles, and its range. -/
def indexOf (l : List (Nat × Nat × Nat × Nat)) (p n : Nat) : Option (Nat × Nat) :=
  (l.find? (fun y => y.2.2.1 == p && y.2.2.2 == n)).map (fun y => (y.1, y.2.1))

/-- The line shift of a substitute for a product (R228). -/
def lineShift (x : Product) (off : Int) : Int := roundDiv off (max (dwAt x.set 1).toNat 1)

/-- Whether a substitute is usable for a request of context `c` (R229). -/
def State.usable (s : State) (nz : List (Nat × Nat × Nat × Nat)) (x : Product) (sub : Option (Nat × Nat × Int)) : Bool :=
  match sub with
  | none => false
  | some (p, n, off) =>
    (indexOf nz p n).isSome && decide (s.nozStatus p n ≤ 1) && decide ((lineShift x off).natAbs ≤ 15)

/-- chosen(E, j): which substitute takes the dot of dead line j: `some false` A, `some true` B (R230). -/
def State.chosenSub (s : State) (nz : List (Nat × Nat × Nat × Nat)) (x : Product) (w : List Word) (j : Nat) : Option Bool :=
  let ua := s.usable nz x (subOf w false)
  let ub := s.usable nz x (subOf w true)
  if bitOf (dwAt w 0) 30 ∧ j % 2 = 1 then (if ub then some true else if ua then some false else none)
  else if ua then some false else if ub then some true else none

/-- A redirection that a request asks for: the substitute's nozzle index, the dead line and the dead nozzle's index. -/
structure Pull where
  dst  : Nat
  line : Nat
  dead : Nat
  deriving DecidableEq, Repr

/-- The redirections of a request on line `m` for the ranges of a group, in ascending entry number, A before B (R231). -/
def State.pulls (s : State) (nz : List (Nat × Nat × Nat × Nat)) (x : Product) (g : Group) (m : Nat) : List Pull :=
  (s.validSubs).flatMap (fun e =>
    let w := s.subWords e
    let d := deadOf w
    match indexOf nz d.1 d.2 with
    | none => []
    | some (kd, _) =>
      if s.nozStatus d.1 d.2 < 2 then []
      else
        [false, true].filterMap (fun b =>
          match subOf w b with
          | none => none
          | some (p, n, off) =>
            match indexOf nz p n with
            | none => none
            | some (ks, r) =>
              let j := (m : Int) - lineShift x off
              if g.ranges.contains r ∧ 0 ≤ j ∧ j < x.lines ∧ s.chosenSub nz x w j.toNat = some b then some ⟨ks, j.toNat, kd⟩
              else none))

/-- Whether a dead nozzle's dot on line `m` has a substitute (R231). -/
def State.covered (s : State) (nz : List (Nat × Nat × Nat × Nat)) (x : Product) (p n m : Nat) : Bool :=
  match s.validSubs.find? (fun e => decide (deadOf (s.subWords e) = (p, n))) with
  | none => false
  | some e => (s.chosenSub nz x (s.subWords e) m).isSome

/-! ## One request (R183, R186, R192, R194 to R199) -/

/-- What a compose request comes to. -/
inductive Composed where
  /-- every port of the group gets a VOID entry, and the product is aborted with the status -/
  | void (status : Nat)
  /-- the levels by port and port position -/
  | levels (out : List (Nat × Nat × Nat))
  deriving DecidableEq, Repr

/-- The captured descriptors of a product's enabled plates (R186). -/
def State.capturePlates (s : State) (x : Product) : List (Option (List Word)) :=
  (List.range 2).map (fun l => if layerOn x.job.dw l then some (s.plateWords (plateOf x.job.dw l)) else none)

/-- Whether a captured descriptor stops the product (R186). -/
def plateStops (total : Nat) (w : Option (List Word)) : Bool :=
  match w with
  | none => false
  | some w => !plValid w || decide (total < plFirst w + plCount w)

/-- Whether patch `i` of a job is resident (R192). -/
def Job.resident (j : Job) (i : Nat) : Bool :=
  match j.block with
  | none => false
  | some b => (if i = 0 then b.p0 else b.p1).res

/-- Whether the request reads a line of patch `i` that its product has not checked before: its own line, or one that a pull reads
(R192, R231). -/
def readsPatch (x : Product) (m : Nat) (ps : List Pull) (i : Nat) : Bool :=
  let p := patchOf x.job.dw i
  layerOn x.job.dw (2 + i) && !x.patchSeen.contains i &&
  ((decide (p.line0 ≤ m) && decide (m < p.line0 + p.lines)) ||
   ps.any (fun q => decide (p.line0 ≤ q.line) && decide (q.line < p.line0 + p.lines) && decide (p.noz ≤ q.dead) && decide (q.dead < p.noz + 4 * p.bpl)))

/-- The words of the dot store that a request reads, ascending. -/
def State.requestWords (s : State) (c : Nat) (x : Product) (dots : List (Nat × Nat)) : List Nat :=
  distinct (dots.flatMap (fun d => (List.range 4).filterMap (fun l => (s.dotPlace c x l d.1 d.2).map (fun a => a.1 / 8 * 8))))

/-- Whether a request reads a patch in a bank that is retired, off or initialising: a patch not resident (R192; that ESP_CNT_PATCH counts
it too is DEDUCED, log entry 110). -/
def State.requestPatches (s : State) (c : Nat) (x : Product) (dots : List (Nat × Nat)) : Bool :=
  dots.any (fun d => [2, 3].any (fun l => (s.dotPlace c x l d.1 d.2).any (fun a => !s.bankReady (bankOf a.1))))

/-- The words are read and checked, each once; whether one is uncorrectable (R182, R183). -/
def State.readWords (s : State) (ws : List Nat) : Bool × State :=
  ws.foldl (fun acc w =>
    let r := acc.2.readWord w none
    (acc.1 || decide (r.1 = .bad), r.2)) (false, s)

/-- The levels of a group's nozzles on line `m`, after Shears and Graft, with Graft's counters. A dead nozzle's level
of 0 is no pulled level (R211, R231, R232, R235). -/
def State.graftLevels (s : State) (c : Nat) (x : Product) (nz : List (Nat × Nat × Nat × Nat)) (g : Group) (m : Nat) (ps : List Pull) :
    List (Nat × Nat × Nat) × State :=
  let own := nz.filter (fun y => g.ranges.contains y.2.1)
  let graft := s.on Fld.GRF_CFG_EN && decide (c ≠ 0)
  let base := own.map (fun y =>
    let v := s.shearsLevel c x m y.1
    (y, v, if graft && decide (2 ≤ s.nozStatus y.2.2.1 y.2.2.2) then 0 else v))
  if !graft then (base.map (fun b => (b.1.2.2.1, b.1.2.2.2, b.2.2)), s)
  else
    let lost := (base.filter (fun b => decide (b.2.1 ≠ 0) && decide (2 ≤ s.nozStatus b.1.2.2.1 b.1.2.2.2) &&
      !s.covered nz x b.1.2.2.1 b.1.2.2.2 m)).length
    let all := ps.filterMap (fun q =>
      let v := s.shearsLevel c x q.line q.dead
      if v = 0 then none else some (q.dst, min (v + 1) 3))
    let made := all.take 256
    let out := base.map (fun b =>
      (b.1.2.2.1, b.1.2.2.2, made.foldl (fun o q => if q.1 = b.1.1 then max o q.2 else o) b.2.2))
    let s := s.wr Fld.GRF_CNT_LOST_COUNT (satAdd 32 (s.rd Fld.GRF_CNT_LOST_COUNT) lost)
    let s := s.wr Fld.GRF_CNT_SUB_COUNT (wrapAdd 32 (s.rd Fld.GRF_CNT_SUB_COUNT) made.length)
    (out, s.wr Fld.GRF_CNT_OVF_COUNT (satAdd 32 (s.rd Fld.GRF_CNT_OVF_COUNT) (all.length - 256)))

/-- One compose request of a product: what it comes to, the product with its captures and checks, and the state. -/
def State.composeRequest (s : State) (k : LineKey) (x : Product) (g : Group) : Composed × Product × State :=
  let c := k.ctx
  let x := if x.plates.isSome then x else { x with plates := some (s.capturePlates x) }
  if !s.domOn .ds0 ∨ s.dsInit 0 then (.void Status.abortedUnderrun, x, s)
  else if (x.plates.getD []).any (plateStops (s.ctxNozzles c)) then (.void Status.abortedUnderrun, x, s)
  else
    let nz := ctxNozzleList 0 0 (s.ctxRanges c)
    let ps := if s.on Fld.GRF_CFG_EN && decide (c ≠ 0) then s.pulls nz x g k.line else []
    let seen := (List.range 2).filter (readsPatch x k.line ps)
    let x := { x with patchSeen := x.patchSeen ++ seen }
    if seen.any (fun i => !x.job.resident i) then (.void Status.abortedUnderrun, x, s.bumpSat Fld.ESP_CNT_PATCH_COUNT)
    else
      let dots := (nz.filter (fun y => g.ranges.contains y.2.1)).map (fun y => (k.line, y.1)) ++ ps.map (fun q => (q.line, q.dead))
      let ws := s.requestWords c x dots
      if ws.any (fun w => !s.bankReady (bankOf w)) then
        (.void Status.abortedUnderrun, x,
          if s.requestPatches c x dots then s.bumpSat Fld.ESP_CNT_PATCH_COUNT else s)
      else
        let r := s.readWords ws
        if r.1 then (.void Status.abortedFault, x, r.2)
        else
          let o := r.2.graftLevels c { x with pass := k.pass } nz g k.line ps
          (.levels o.1, x, o.2)

/-! ## The line FIFOs (R201) -/

/-- The entries taken in a port's FIFO. -/
def State.fifoLevel (s : State) (p : Nat) : Nat := ((s.getPort p).lines.filter (fun l => l.entry.isSome)).length

/-- An entry is written to a port's FIFO for the line order that waits for it; the high-water mark follows. -/
def State.writeEntry (s : State) (p : Nat) (k : LineKey) (e : Entry) : State :=
  let x := s.getPort p
  let s := s.setPort p { x with lines := x.lines.map (fun l => if l.key = k then { l with entry := some e } else l) }
  let s := s.wr (Fld.ESP_FIFO_HIGH p) (max (s.rd (Fld.ESP_FIFO_HIGH p)) (s.fifoLevel p))
  s.purgeVoids p

/-- An engine delivers an entry: it is written, or held while entries ahead of it wait or the FIFO has no free entry (R197, R201). An
entry whose line order has been dropped is discarded. -/
def State.deliverEntry (s : State) (p : Nat) (k : LineKey) (e : Entry) : State :=
  if !(s.getPort p).lines.any (fun l => decide (l.key = k)) then s
  else if s.esp.waiting.any (fun w => w.port == p) then
    { s with esp := { s.esp with waiting := s.esp.waiting ++ [⟨p, k, e⟩] } }
  else if s.fifoLevel p < 64 then s.writeEntry p k e
  else { s with esp := { s.esp with waiting := s.esp.waiting ++ [⟨p, k, e⟩] } }

/-- A request one of whose ports has no free entry makes its engine wait, and the wait is counted (R201). -/
def State.countFifoWait (s : State) (ports : List Nat) (k : LineKey) : State :=
  if ports.any (fun p => (s.getPort p).lines.any (fun l => decide (l.key = k)) && decide (64 ≤ s.fifoLevel p)) then
    s.bumpSat Fld.ESP_CNT_FIFO_COUNT
  else s

/-- The entry of a port from the levels of a request. -/
def entryOf (p : Nat) (out : List (Nat × Nat × Nat)) : Entry :=
  ⟨false, (out.filter (fun o => o.1 == p)).foldl (fun m o => Store.put (fun _ => 0) m o.2.1 o.2.2) []⟩

/-- How many engines hold entries that wait. -/
def State.enginesHeld (s : State) : Nat :=
  ((s.esp.waiting.map (fun w => w.key)).foldl (fun acc k => if acc.contains k then acc else k :: acc) ([] : List LineKey)).length

/-- COMPOSE: with the pause of a die throttle over (R471), a free engine takes the oldest compose request and composes its line (R197). -/
def execCompose (s : State) : Host.Outcome State Fault Refusal :=
  .next (s.unfrozen (fun s =>
    match s.esp.queue with
    | [] => s
    | k :: rest =>
      if 8 ≤ s.enginesHeld || s.diePaused s.esp.taken then s
      else
        let s := { s with esp := { s.esp with queue := rest, taken := some s.tb.toNat } }
        match s.findProd k.ctx k.prod with
        | none => s
        | some x =>
          match x.groups.find? (fun g => g.num == k.group) with
          | none => s
          | some g =>
            let ports := s.groupPorts k.ctx g
            let (r, x, s) := s.composeRequest k x g
            let s := (s.setProd k.ctx x).countFifoWait ports k
            match r with
            | .levels out => ports.foldl (fun s p => s.deliverEntry p k (entryOf p out)) s
            | .void st =>
              let s := ports.foldl (fun s p => s.deliverEntry p k ⟨true, []⟩) s
              (s.abortProd k.ctx k.prod .underrun st).endProds k.ctx))

/-- LINE_FIFO_ENTRY: port `p` has a free FIFO entry, and the engine that has waited longest for it writes its entry (R201). -/
def execLineFifoEntry (p : Fin 16) (s : State) : Host.Outcome State Fault Refusal :=
  .next (s.unfrozen (fun s =>
    match s.esp.waiting.find? (fun w => w.port == p.val) with
    | none => s
    | some w =>
      if s.fifoLevel p < 64 then
        let t := { s with esp := { s.esp with waiting := s.esp.waiting.filter (fun y => decide (y ≠ w)) } }
        (t.writeEntry p w.key w.entry).endProds w.key.ctx
      else s))

end Sys2Proof.Machine
end

