-- ==== Sys2Proof/Machine/Barrow.lean ====
section
/-! DEFINITION. Barrow: DMA descriptors, bursts, chains, completion, stop and halt (R358 to R381, spec/11_barrow_dma.md). -/

namespace Sys2Proof.Machine

/-! ## Results (R372) -/

/-- RESULT of a DR: a code and a byte count (R372). -/
def dmaResult (code bytes : Nat) : Nat := code * 2 ^ 56 + bytes % 2 ^ 56

/-! ## Channels -/

def State.barState (s : State) : Nat := s.rd Fld.BAR_STAT_STATE
def State.barRuns (s : State) : Bool := s.domOn .host && decide (s.barState = 0)
def State.chanStopped (s : State) (c : Nat) : Bool := s.on (Fld.BAR_CH_CTL_STOP c)
def State.onBar (s : State) (f : BarSt → BarSt) : State := { s with bar := f s.bar }

/-- A run joins those of its channel. -/
def State.addRun (s : State) (c : Nat) (r : DmaRun) : State :=
  let x := s.getChan32 c
  (s.setChan32 c { x with runs := x.runs ++ [{ r with id := s.bar.nextId }] }).onBar (fun b => { b with nextId := b.nextId + 1 })

def State.setRun (s : State) (c : Nat) (r : DmaRun) : State :=
  let x := s.getChan32 c
  s.setChan32 c { x with runs := x.runs.map (fun y => if y.id = r.id then r else y) }

def State.findRun (s : State) (c id : Nat) : Option DmaRun := (s.getChan32 c).runs.find? (fun r => r.id == id)

/-- A run that moves nothing and has a status and RESULT already (R366, R375). -/
def endedRun (d : Desc) (chained last : Bool) (status result : Nat) : DmaRun :=
  ⟨0, d, chained, last, 0, 0, 0, 0, [], none, false, 0, none, none, some (status, result)⟩

/-! ## Completion (R369, R371, R372) -/

/-- Whether a run has made every write it will make, and each has taken effect; after a halt its host writes are covered by no flush (R371,
R377). -/
def State.runSettled (s : State) (r : DmaRun) : Bool :=
  (r.stop.isSome || r.fail.isSome || decide (r.wr = r.total)) && !s.bar.writes.any (fun w => w.dev && w.id == r.id) &&
  !s.bar.reads.any (fun w => w.id == r.id) && (r.fail.isSome || r.hostTo.isNone || decide (r.safe = r.wr))

/-- The status and RESULT of a run that is over. -/
def State.runOutcome (s : State) (r : DmaRun) : Option (Nat × Nat) :=
  if r.done.isSome then r.done
  else if s.runSettled r then
    match r.fail, r.stop with
    | some cause, _ => some (Status.dmaError, dmaResult cause r.wr)
    | none, some st => some (st, dmaResult 0 r.put)
    | none, none => some (Status.ok, dmaResult 0 r.total)
  else none

/-- A channel leaves its chain: the ring LINK counts as completed (R90, R369). -/
def State.leaveChain (s : State) (c : Nat) : State :=
  let x := s.getChan32 c
  match x.chain with
  | none => s
  | some _ => (s.setChan32 c { x with chain := none }).settle (17 + c)

/-- The completion of a run (R79, R369): a chain descriptor does not settle a ring entry of its own. -/
def State.completeRun (s : State) (c : Nat) (r : DmaRun) (o : Nat × Nat) : State :=
  let s := s.bump (Fld.BAR_CH_DESC_COUNT c)
  let s := s.onBar (fun b => { b with writes := b.writes.filter (fun w => !(w.id == r.id && !w.dev)) })
  let s :=
    if r.chained then
      if bitOf (dwAt r.desc.dw 0) 30 && decide (o.1 = 0) then s
      else s.complete ⟨17 + c, o.1, r.desc.index, dwAt r.desc.dw 1, (resultDw o.2).1, (resultDw o.2).2, 0⟩
    else s.completeDesc (17 + c) r.desc o.1 o.2
  if r.last then s.leaveChain c else s

/-- The runs at the head of a channel that are over complete, in order (R89). -/
def State.flushRuns (c : Nat) : List DmaRun → State → State
  | [], s => s.setChan32 c { s.getChan32 c with runs := [] }
  | r :: t, s =>
    match s.runOutcome r with
    | none => s.setChan32 c { s.getChan32 c with runs := r :: t }
    | some o => State.flushRuns c t (s.completeRun c r o)

def State.settleChan (s : State) (c : Nat) : State := State.flushRuns c (s.getChan32 c).runs s

/-! ## Taking descriptors (R358, R369, R370, R375) -/

/-- A chain fetch goes out when the chain has nothing fetched and has not ended, and one of the tags of the descriptor fetches is free
(R359, R369). -/
def State.askChain (s : State) (c : Nat) : State :=
  let x := s.getChan32 c
  match x.chain with
  | none => s
  | some h =>
    if h.asked.isSome || h.ended || !h.fetched.isEmpty || !s.fetchTag then s
    else
      let s := s.setChan32 c { x with chain := some { h with asked := some s.bar.nextId } }
      (s.onBar (fun b => { b with
        reads := b.reads ++ [⟨c, b.nextId, .chain, false, h.next, 0, 64, s.tb.toNat⟩]
        nextId := b.nextId + 1 })).emit (.dmaRead h.next 64)

/-- Whether one of the read tags that patch path and channels share is free (R55, R359). -/
def State.readTag (s : State) : Bool :=
  decide ((s.bar.reads.filter (fun y => decide (y.kind ≠ .chain))).length < (if s.host.cfg.extTag then 240 else 16))

/-- A run has host writes that need a flush: its last write is issued, or the write slots are all taken (R359, R371; DEDUCED, log entry
108). -/
def State.needsFlush (s : State) (r : DmaRun) : Bool :=
  r.done.isNone && r.fail.isNone && !r.asked && decide (r.safe < r.wr) &&
  (decide (r.wr = r.total) || r.stop.isSome || decide (128 ≤ s.bar.writes.length))

/-- The flushing read goes out to the host address a run has written last (R371). -/
def State.askFlush (s : State) (c : Nat) (r : DmaRun) : State :=
  match r.hostTo with
  | none => s
  | some a =>
    if s.needsFlush r && s.readTag then
      let s := s.setRun c { r with asked := true }
      (s.onBar (fun x => { x with reads := x.reads ++ [⟨c, r.id, .flush, false, a, r.wr, 0, s.tb.toNat⟩] })).emit (.dmaRead a 0)
    else s

/-- The requests that need no grant go out as far as tags allow: flushing reads, and the fetches of chain descriptors (R359). -/
def State.serveBus (s : State) : State :=
  if s.barRuns && s.hostBus then
    (List.range 32).foldl (fun s c => ((s.getChan32 c).runs.foldl (fun s r => s.askFlush c r) s).askChain c) s
  else s

/-- The next descriptor of a channel: of its chain while it is in one, else of its ring; and whether it stands in a chain. -/
def State.nextDma (s : State) (c : Nat) : Option (Desc × Bool) :=
  match (s.getChan32 c).chain with
  | some h => if h.ended then none else h.fetched.head?.map (fun d => (d, true))
  | none => (s.nextDesc (17 + c)).map (fun d => (d, false))

/-- Whether a chain descriptor ends its chain (R369): END on any but a LINK, whose END continues it elsewhere. -/
def endsChain (d : Desc) : Bool := bitOf (dwAt d.dw 0) 28 && decide (d.opcode ≠ 3)

/-- Whether a device extent of the next descriptor of a channel failed its check at the fetch (R365). -/
def State.dmaBad (s : State) (c : Nat) (d : Desc) (chained : Bool) : Bool :=
  if chained then (s.getChan32 c).chain.any (fun h => h.bad) else (s.getRing (17 + c)).bad.contains d.index

/-- The doorbells that begin at or before the ring entry at index `i` are past; whether there was one. -/
def passMarks (i : Nat) (l : List Nat) : Bool × List Nat := if l.contains i then (true, (l.dropWhile (fun j => j ≠ i)).tail) else (false, l)

/-- The next descriptor is taken away. A ring descriptor at which a later doorbell begins restarts CHAIN_CNT (R370); one with END ends its
chain. -/
def State.takeDma (s : State) (c : Nat) (d : Desc) (chained : Bool) : State :=
  let x := s.getChan32 c
  if chained then
    s.setChan32 c { x with chain := x.chain.map (fun h => { h with fetched := h.fetched.tail, bad := false, ended := h.ended || endsChain d }) }
  else
    let s := s.popDesc (17 + c)
    let s := s.setRing (17 + c) { s.getRing (17 + c) with bad := (s.getRing (17 + c)).bad.filter (fun j => j ≠ d.index) }
    let m := passMarks d.index x.marks
    let s := s.setChan32 c { x with marks := m.2 }
    if m.1 then s.wr (Fld.BAR_CH_STAT_CHAIN_CNT c) 0 else s

/-- Whether a channel can take up a descriptor: every earlier one has issued its reads, and FENCE waits for their completion (R358). -/
def State.canTake (s : State) (c : Nat) (d : Desc) : Bool :=
  let runs := (s.getChan32 c).runs
  s.barRuns && (if bitOf (dwAt d.dw 0) 29 && decide (d.opcode = 1 ∨ d.opcode = 2) then runs.isEmpty
    else runs.all (fun r => r.done.isSome || r.stop.isSome || r.fail.isSome || decide (r.desc.opcode ≠ 1) || decide (r.rd = r.total)))

/-- The next descriptor of channel `c`, with an opcode that `ok` names, is taken up by `f`; under STOP it completes STOPPED (R375). -/
def State.withDma (s : State) (c : Nat) (ok : Nat → Bool) (f : State → Desc → Bool → Bool → State) : State :=
  match s.nextDma c with
  | none => s
  | some (d, chained) =>
    if !ok d.opcode || !s.canTake c d then s
    else
      let t := s.takeDma c d chained
      let t := if s.chanStopped c then t.addRun c (endedRun d chained (chained && endsChain d) Status.stopped 0)
        else f t d chained (s.dmaBad c d chained)
      (t.settleChan c).serveBus

/-- A COPY or FILL is taken up: refused, or begun (R366). -/
def State.takeMove (s : State) (c : Nat) (d : Desc) (chained bad : Bool) : State :=
  let last := chained && endsChain d
  let r := d.dmaReason bad
  if r ≠ 0 then s.addRun c (endedRun d chained last Status.descError (dmaResult r 0))
  else s.addRun c ⟨0, d, chained, last, d.dstSide.total, 0, 0, 0, [], none, false, 0, none, none, none⟩

/-- COPY: channel `c` takes up a COPY (R362). -/
def execCopy (c : Fin 32) (s : State) : Host.Outcome State Fault Refusal :=
  .next (s.unfrozen (fun s => s.withDma c (fun op => op == 1) (fun s d ch bad => s.takeMove c d ch bad)))

/-- FILL: channel `c` takes up a FILL (R364). -/
def execFill (c : Fin 32) (s : State) : Host.Outcome State Fault Refusal :=
  .next (s.unfrozen (fun s => s.withDma c (fun op => op == 2) (fun s d ch bad => s.takeMove c d ch bad)))

/-- A channel abandons its chain; a fetch of it that is outstanding brings nothing any more. -/
def State.cutChain (s : State) (c : Nat) : State :=
  let x := s.getChan32 c
  s.setChan32 c { x with chain := x.chain.map (fun h => { h with ended := true, fetched := [], asked := none }) }

/-- The completion that a ring LINK gets when its chain is given up (R370, R375). -/
def State.dropChain (s : State) (c : Nat) (link : Desc) (status : Nat) : State :=
  (s.cutChain c).addRun c (endedRun ⟨link.index, [dwAt link.dw 0 &&& ~~~0x40000000, dwAt link.dw 1]⟩ true true status 0)

/-- The bits of a LINK that are not reserved (R87, R369). -/
def linkReason (d : Desc) (chained : Bool) : Nat :=
  if d.wide 2 % 64 ≠ 0 then 5
  else if chained ∧ !bitOf (dwAt d.dw 0) 28 then 6
  else if d.reservedSet dmaLayout then 7
  else 0

/-- A LINK is taken up (R369, R370). -/
def State.takeLink (s : State) (c : Nat) (d : Desc) (chained : Bool) : State :=
  let x := s.getChan32 c
  let r := linkReason d chained
  let link := (x.chain.map (fun h => h.link)).getD d
  if r ≠ 0 then
    if chained ∧ r = 6 then (s.cutChain c).addRun c (endedRun d true true Status.descError (dmaResult r 0))
    else s.addRun c (endedRun d chained false Status.descError (dmaResult r 0))
  else if 1024 ≤ s.rd (Fld.BAR_CH_STAT_CHAIN_CNT c) then
    let s := if chained then s else s.setChan32 c { x with chain := some ⟨d, d.wide 2, none, [], false, true⟩ }
    (s.dropChain c link Status.chainLimit).wr (Fld.BAR_CH_STAT_CHAIN_CNT c) 0
  else
    let s := s.bump (Fld.BAR_CH_STAT_CHAIN_CNT c)
    s.setChan32 c { s.getChan32 c with chain := some ⟨link, d.wide 2, none, [], false, false⟩ }

/-- LINK: channel `c` takes up a LINK. -/
def execLink (c : Fin 32) (s : State) : Host.Outcome State Fault Refusal :=
  .next (s.unfrozen (fun s => s.withDma c (fun op => op == 3) (fun s d ch _ => s.takeLink c d ch)))

/-- The bits that a NOP's layout gives a field: in a DR, dw0 keeps the fields of R87. -/
def nopLayout (k : Nat) : List Nat := if 16 < k then [0xFFFC00FF, 0xFFFFFFFF] else commandLayout []

/-- A NOP, or a descriptor whose opcode is not defined for a DMA ring, on channel `c`. -/
def State.takeNop (s : State) (c : Nat) (d : Desc) (chained : Bool) : State :=
  let last := chained && endsChain d
  let st := if d.opcode ≠ 0 then Status.badOpcode else if d.reservedSet (nopLayout 17) then Status.descError else Status.ok
  s.addRun c (endedRun d chained last st (if st = Status.descError then dmaResult 7 0 else 0))

/-- NOP: the next descriptor of ring `k` completes OK when its opcode is 0x00, DESC_ERROR with a reserved bit set, and BAD_OPCODE when
its opcode is not defined for the ring (R78, R84). -/
def execNop (k : Fin 49) (s : State) : Host.Outcome State Fault Refusal :=
  .next (s.unfrozen (fun s =>
    if 16 < k.val then s.withDma (k.val - 17) (fun op => op == 0 || decide (3 < op)) (fun s d ch _ => s.takeNop (k.val - 17) d ch)
    else
      match s.nextDesc k with
      | none => s
      | some d =>
        if decide (k.val = 0) && !s.mpFree then s
        else if !opcodeDefined k d.opcode then (s.popDesc k).completeAny k d Status.badOpcode
        else if d.opcode = 0 then
          (s.popDesc k).completeAny k d (if d.reservedSet (nopLayout k) then Status.descError else Status.ok)
        else s))

/-! ## Halt (R376 to R381) -/

/-- A failure of Barrow, found with `n` reads outstanding, is reported, and Barrow halts when it is not already halting or halted (R376 to
R378). -/
def State.haltBarrow (s : State) (n cause : Nat) (dev : Bool) (addr : Nat) : State :=
  let s := s.report (if cause = 3 then 0x204 else 0x203) (BitVec.ofNat 32 cause)
  if s.barState ≠ 0 then s
  else
    let s := ((s.wr Fld.BAR_STAT_STATE 1).wr Fld.BAR_STAT_CAUSE cause).wrBit Fld.BAR_STAT_ERR_DEV dev
    let s := (s.wr64 Reg.BAR_ERR_ADDR_LO addr).bumpSat Fld.BAR_HALT_CNT_COUNT
    s.event 0x09 0 [BitVec.ofNat 32 (cause + (if dev then 2 ^ 8 else 0)), BitVec.ofNat 32 addr, BitVec.ofNat 32 (addr / 2 ^ 32),
      BitVec.ofNat 32 (n % 512)]

/-- Outstanding read `k` taken away. -/
def State.dropRead (s : State) (k : Nat) : State := s.onBar (fun b => { b with reads := b.reads.eraseIdx k })

/-- Outstanding read `k` ends and halts Barrow; the reads outstanding at the failure count it (R376, R378). -/
def State.failRead (s : State) (k cause : Nat) (b : BarRead) : State := (s.dropRead k).haltBarrow s.bar.reads.length cause b.dev b.addr

/-- Whether a run has issued any access. -/
def DmaRun.begun (r : DmaRun) : Bool := decide (r.rd ≠ 0) || decide (r.wr ≠ 0)

/-- Every descriptor that had issued an access ends DMA_ERROR, once its internal writes have their responses (R91, R372, R377). -/
def State.failRuns (s : State) : State :=
  let cause := s.rd Fld.BAR_STAT_CAUSE
  (List.range 32).foldl (fun s c =>
    let x := s.getChan32 c
    if x.runs.isEmpty ∧ x.chain.isNone then s
    else
      let s := s.setChan32 c { x with
        runs := x.runs.map (fun r => if r.done.isNone && r.fail.isNone && r.begun then { r with fail := some cause } else r)
        chain := x.chain.map (fun h => { h with asked := none }) }
      s.settleChan c) s

/-- Barrow runs again: chains are read on, and the patches of every job whose product has not started are fetched again; those of products
that have started and are not resident stay so (R193, R379). -/
def State.restartBarrow (s : State) : State :=
  let s := (s.wr Fld.BAR_STAT_STATE 0).wr Fld.BAR_STAT_RESTART_PEND 0
  (s.refetchBlocks (fun _ _ => true) (fun _ j => (List.range 2).any (fun i => j.fetching i))).serveBus

/-- HALTED_ENTERED: Barrow is halting and no read is outstanding (R377, R379). -/
def execHaltedEntered (s : State) : Host.Outcome State Fault Refusal :=
  .next (s.unfrozen (fun s =>
    if s.barState = 1 ∧ s.bar.reads.isEmpty then
      let s := (s.wr Fld.BAR_STAT_STATE 2).failRuns
      if s.on Fld.BAR_STAT_RESTART_PEND then s.restartBarrow else s
    else s))

/-- A write of DMA_RESTART (R379). -/
def State.dmaRestart (s : State) : State :=
  match s.barState with
  | 2 => s.restartBarrow
  | 1 => s.wr Fld.BAR_STAT_RESTART_PEND 1
  | _ => s

/-- DMA_RESTART: a master writes BAR_CTL. -/
def execDmaRestart (m : Master) (v : Word) (s : State) : Host.Outcome State Fault Refusal :=
  .next (s.unfrozen (fun s => s.accessBy m Reg.BAR_CTL (fun s => if bitOf v 0 then s.dmaRestart else s)))

/-! ## Bursts (R359 to R361) -/

/-- The length of a burst from stream byte `off` of a side: consecutive addresses, up to `n` more bytes, a limit, and for host memory no 4 KiB
boundary inside (R360). `k` bytes are already in it. -/
def burstMore (x : Side) (a off limit : Nat) : Nat → Nat → Nat
  | 0, k => k
  | n + 1, k =>
    if k < limit ∧ x.at_ (off + k) = a + k ∧ (x.dev ∨ k = 0 ∨ (a + k) % 4096 ≠ 0) then burstMore x a off limit n (k + 1) else k

/-- The limit of a burst: R360 with the fields of R55. -/
def State.burstLimit (s : State) (dev write : Bool) : Nat :=
  if dev then 512 else if write then s.host.cfg.mps else min 4096 s.host.cfg.mrrs

/-- The stream bytes from offset `off` on that have arrived without a gap, at most `n`, `k` being the chunks to look at. -/
def streamFrom (buf : List (Nat × List Byte)) : Nat → Nat → Nat → List Byte
  | 0, _, _ => []
  | k + 1, off, n =>
    if n = 0 then []
    else
      match buf.find? (fun c => decide (c.1 ≤ off) && decide (off < c.1 + c.2.length)) with
      | none => []
      | some c =>
        let l := (c.2.drop (off - c.1)).take n
        l ++ streamFrom buf k (off + l.length) (n - l.length)

/-- The stream bytes of a run from offset `off` on that have arrived, at most `n` (R363, R364). -/
def DmaRun.ready (r : DmaRun) (off n : Nat) : List Byte :=
  if r.desc.opcode = 2 then
    (List.range (min n (r.total - off))).map (fun i => BitVec.ofNat 8 (r.desc.wide 2 / 2 ^ (8 * ((off + i) % 8))))
  else streamFrom r.buf r.buf.length off n

/-- The buffer bytes that a channel occupies: reads outstanding, and data not yet written. -/
def State.bufferUse (s : State) (c : Nat) : Nat :=
  ((s.bar.reads.filter (fun r => r.chan == c && decide (r.kind = .data))).map (fun r => r.len)).foldl (· + ·) 0 +
  ((s.getChan32 c).runs.map (fun r => (r.buf.map (fun b => b.2.length)).foldl (· + ·) 0)).foldl (· + ·) 0

/-- QUOTA of a channel in bytes (R384). -/
def State.quotaBytes (s : State) (c : Nat) : Nat := max 1 (min 56 (s.rd (Fld.BAR_CH_CFG_QUOTA c))) * 4096

/-- The run of a channel whose next read comes next. -/
def State.readRun (s : State) (c : Nat) : Option DmaRun :=
  (s.getChan32 c).runs.find? (fun r => r.done.isNone && r.stop.isNone && decide (r.desc.opcode = 1) && decide (r.rd < r.total))

/-- The read burst that comes next on channel `c` (R360), and its run. -/
def State.nextRead (s : State) (c : Nat) : Option (DmaRun × BarRead) :=
  (s.readRun c).map (fun r =>
    let x := r.desc.srcSide
    let a := x.at_ r.rd
    let limit := min (s.burstLimit x.dev false) (r.total - r.rd)
    (r, ⟨c, r.id, .data, x.dev, a, r.rd, burstMore x a r.rd limit limit 0, s.tb.toNat⟩))

/-- Whether buffer space for `n` bytes more is left to channel `c` (R359). -/
def State.bufferRoom (s : State) (c n : Nat) : Bool :=
  decide (s.bufferUse c + n ≤ s.quotaBytes c) && decide (((List.range 32).map s.bufferUse).foldl (· + ·) 0 + n ≤ 224 * 1024)

/-- The read burst that channel `c` can issue now, and its run: it has a tag, and buffer space for its whole length (R359). -/
def State.readBurst (s : State) (c : Nat) : Option (DmaRun × BarRead) :=
  (s.nextRead c).filter (fun x =>
    (x.2.dev || s.hostBus) && s.readTag && s.bufferRoom c x.2.len && decide (x.2.len ≠ 0))

/-- The run of a channel that writes now: the first that has not issued all its writes (R358). -/
def State.writeRun (s : State) (c : Nat) : Option DmaRun :=
  (s.getChan32 c).runs.find? (fun r => r.done.isNone && r.stop.isNone && r.fail.isNone && decide (r.wr < r.total))

/-- Whether the buffer space of a channel is taken up by what has arrived, so that a burst cannot wait for more of its bytes. -/
def State.bufferFull (s : State) (c : Nat) : Bool :=
  !s.bar.reads.any (fun r => decide (r.kind = .data) && r.chan == c) && (s.nextRead c).any (fun x => !s.bufferRoom c x.2.len)

/-- The write burst that channel `c` can issue now, and its run: it has a write slot (R359), and all the bytes that merge into it have
arrived (R360); where the channel's buffer space is taken up, those that have (DESIGN CHOICE, log entry 108). -/
def State.writeBurst (s : State) (c : Nat) : Option (DmaRun × BarWrite) :=
  match s.writeRun c with
  | none => none
  | some r =>
    let x := r.desc.dstSide
    let a := x.at_ r.wr
    let limit := min (s.burstLimit x.dev true) (r.total - r.wr)
    let data := r.ready r.wr (burstMore x a r.wr limit limit 0)
    if (x.dev || s.hostBus) && decide (s.bar.writes.length < 128) && decide (data.length ≠ 0) &&
        (decide (data.length = burstMore x a r.wr limit limit 0) || s.bufferFull c) then
      some (r, ⟨c, r.id, x.dev, a, r.wr, data⟩) else none

/-! ## The patch path (R191, R359, R361) -/

/-- The fetch of patch `i` of a job's block. -/
def Job.fetch (j : Job) (i : Nat) : Fetch := j.block.elim Fetch.reset (fun b => if i = 0 then b.p0 else b.p1)

/-- The bytes of patch `i` of a job. -/
def patchBytes (dw : List Word) (i : Nat) : Nat := (patchOf dw i).bpl * (patchOf dw i).lines

/-- The patches that are to be fetched now, with context and job: no fetch is issued to a DS domain that is off or initialising (R637). -/
def State.patchList (s : State) : List (Nat × Job × Nat) :=
  s.liveCtxs.flatMap (fun c => (s.getCtx c).jobs.flatMap (fun j =>
    ((List.range 2).filter (fun i => j.fetching i && j.block.any (fun b => s.areaReady c b.base b.units))).map (fun i => (c, j, i))))

/-- Buffer bytes that the patch path occupies, of its 32 KiB (R359). -/
def State.patchUse (s : State) : Nat :=
  ((s.bar.reads.filter (fun r => decide (r.kind = .patch))).map (fun r => r.len)).foldl (· + ·) 0 +
  ((s.patchList.map (fun x => ((x.2.1.fetch x.2.2).buf.map (fun b => b.2.length)).foldl (· + ·) 0))).foldl (· + ·) 0

/-- The length of a burst of at most `limit` bytes at a host address, which crosses no 4 KiB boundary (R360). -/
def hostBurst (a limit : Nat) : Nat := min limit (4096 - a % 4096)

/-- The patch whose reads go on: one that has begun, else the first in the order of contexts and of their queues (DESIGN CHOICE, log entry
108). -/
def State.patchNext (s : State) : Option (Nat × Job × Nat) :=
  let l := s.patchList.filter (fun x => decide ((x.2.1.fetch x.2.2).rd < patchBytes x.2.1.dw x.2.2))
  match l.find? (fun x => decide ((x.2.1.fetch x.2.2).id ≠ 0)) with
  | some x => some x
  | none => l.head?

/-- The read burst that the patch path can issue now: context, job, patch, address and length. -/
def State.patchRead (s : State) : Option (Nat × Job × Nat × Nat × Nat) :=
  s.patchNext.bind (fun x =>
    let f := x.2.1.fetch x.2.2
    let a := ((patchOf x.2.1.dw x.2.2).addr + f.rd) % 2 ^ 64
    let n := hostBurst a (min (s.burstLimit false false) (patchBytes x.2.1.dw x.2.2 - f.rd))
    let tags := (s.bar.reads.filter (fun r => decide (r.kind = .patch))).length
    if s.hostBus && s.readTag && decide (tags < (if s.host.cfg.extTag then 64 else 8)) && decide (s.patchUse + n ≤ 32 * 1024) then
      some (x.1, x.2.1, x.2.2, a, n) else none)

/-- The write burst that the patch path can issue now: context, job, patch and bytes. -/
def State.patchWrite (s : State) : Option (Nat × Job × Nat × List Byte) :=
  if 128 ≤ s.bar.writes.length then none
  else
    (s.patchList.filterMap (fun x =>
      let f := x.2.1.fetch x.2.2
      let n := min 512 (patchBytes x.2.1.dw x.2.2 - f.wr)
      let l := streamFrom f.buf f.buf.length f.wr n
      if decide (n ≠ 0) && decide (l.length = n) then some (x.1, x.2.1, x.2.2, l) else none)).head?

/-- A job's fetch of patch `i` changed by `f`. -/
def Job.onFetch (i : Nat) (f : Fetch → Fetch) (j : Job) : Job :=
  { j with block := j.block.map (fun b => if i = 0 then { b with p0 := f b.p0 } else { b with p1 := f b.p1 }) }

/-- The jobs of a context that `p` names changed by `f`, in its queue and its products. -/
def State.mapJobs (s : State) (c : Nat) (p : Job → Bool) (f : Job → Job) : State :=
  let x := s.getCtx c
  s.setCtx c { x with
    queue := x.queue.map (fun j => if p j then f j else j)
    prods := x.prods.map (fun y => if p y.job then { y with job := f y.job } else y) }

/-- The fetch with a number changed by `f`, wherever its job is. -/
def State.onFetchId (s : State) (id : Nat) (f : Fetch → Fetch) : State :=
  s.liveCtxs.foldl (fun s c => (List.range 2).foldl (fun s i => s.mapJobs c (fun j => decide ((j.fetch i).id = id)) (Job.onFetch i f)) s) s

/-- The patch path issues a read burst; the first one of a fetch gives it its number. -/
def State.issuePatchRead (s : State) (x : Nat × Job × Nat × Nat × Nat) : State :=
  let f := x.2.1.fetch x.2.2.1
  let id := if f.id = 0 then s.bar.nextId else f.id
  let t := s.mapJobs x.1 (fun j => decide (j = x.2.1)) (Job.onFetch x.2.2.1 (fun f => { f with id := id, rd := f.rd + x.2.2.2.2 }))
  (t.onBar (fun b => { b with
    reads := b.reads ++ [⟨32, id, .patch, false, x.2.2.2.1, f.rd, x.2.2.2.2, s.tb.toNat⟩]
    nextId := b.nextId + 1 })).emit (.dmaRead x.2.2.2.1 x.2.2.2.2)

/-- What is left of a buffered stream from offset `off` on. -/
def restOf (off : Nat) (buf : List (Nat × List Byte)) : List (Nat × List Byte) :=
  buf.filterMap (fun c =>
    if c.1 + c.2.length ≤ off then none else if off ≤ c.1 then some c else some (off, c.2.drop (off - c.1)))

/-- The patch path issues a write burst. -/
def State.issuePatchWrite (s : State) (x : Nat × Job × Nat × List Byte) : State :=
  let f := x.2.1.fetch x.2.2.1
  let n := x.2.2.2.length
  let a := s.patchAddr x.1 x.2.1 x.2.2.1 + f.wr
  (s.onFetchId f.id (fun f => { f with wr := f.wr + n, buf := restOf (f.wr + n) f.buf })).onBar (fun b => { b with
    writes := b.writes ++ [⟨32, f.id, true, a, f.wr, x.2.2.2⟩] })

/-- A patch becomes resident once every write of its fetch has its response (R191). -/
def State.settleFetch (s : State) (id : Nat) : State :=
  if s.bar.writes.any (fun w => w.chan == 32 && w.id == id) then s
  else
    s.liveCtxs.foldl (fun s c => (List.range 2).foldl (fun s i =>
      s.mapJobs c (fun j => decide ((j.fetch i).id = id) && decide ((j.fetch i).wr = patchBytes j.dw i))
        (Job.onFetch i (fun f => { f with res := true }))) s) s

/-- WEIGHT of a channel (R384). -/
def State.weightOf (s : State) (c : Nat) : Nat := if s.rd (Fld.BAR_CH_CFG_WEIGHT c) = 0 then 16 else s.rd (Fld.BAR_CH_CFG_WEIGHT c)

/-- The channel of a level that is granted next among those that can issue, and its bursts in the turn (R361). -/
def State.grantIn (s : State) (key : Nat) (can : List Nat) : Option (Nat × Nat) :=
  let old := Store.get (fun _ => none) s.bar.grants key
  let next := fun (c : Nat) =>
    match (can.filter (fun x => decide (c < x))) ++ can with
    | [] => none
    | x :: _ => some (x, 1)
  match old with
  | none => can.head?.map (fun x => (x, 1))
  | some (c, n) => if can.contains c ∧ n < s.weightOf c then some (c, n + 1) else next c

/-- The channel granted next: the highest level that has something to issue, then weighted round-robin (R361). -/
def State.grant (s : State) (write : Bool) (can : List Nat) : Option (Nat × State) :=
  match (List.range 4).find? (fun l => can.any (fun c => decide (s.rd (Fld.BAR_CH_CFG_PRIO c) = l))) with
  | none => none
  | some l =>
    let key := (if write then 4 else 0) + l
    (s.grantIn key (can.filter (fun c => decide (s.rd (Fld.BAR_CH_CFG_PRIO c) = l)))).map (fun g =>
      (g.1, s.onBar (fun b => { b with grants := Store.put (fun _ => none) b.grants key (some g) })))

/-- Whether an access reaches a bank that has been retired or is absent (R7, R368). -/
def State.bankLost (s : State) (a n : Nat) : Bool := !s.storePresent a n

/-- An access of Barrow to a domain that is off or initialising is reported (R27, R179, R368). -/
def State.offReport (s : State) (a n : Nat) : State :=
  if (wordsOf a n).any (fun w => s.bankPresent (bankOf w) && !s.bankReady (bankOf w)) then
    s.reportInj 0x201 (BitVec.ofNat 32 a) none false false else s

/-- A run meets a bank that has been retired since its fetch: its remaining elements are not moved (R368). -/
def State.stopRun (s : State) (c : Nat) (r : DmaRun) : State :=
  (s.setRun c { r with stop := some Status.unitAbsent, buf := [] }).settleChan c

/-- A read burst is issued, or ends its descriptor UNIT_ABSENT (R360, R368). -/
def State.issueRead (s : State) (c : Nat) : State :=
  match s.readBurst c with
  | none => s
  | some (r, b) =>
    if b.dev && s.bankLost b.addr b.len then s.stopRun c r
    else
      let s := s.setRun c { r with rd := r.rd + b.len }
      let s := s.onBar (fun x => { x with reads := x.reads ++ [b] })
      if b.dev then s else s.emit (.dmaRead b.addr b.len)

/-- Bytes of a channel are written at their destination (R384). -/
def State.countBytes (s : State) (c n : Nat) : State :=
  s.wr64 (Reg.BAR_CH_BYTES_LO c) ((s.rd64 (Reg.BAR_CH_BYTES_LO c) + n) % 2 ^ 64)

/-- A write burst is issued, or ends its descriptor UNIT_ABSENT (R360, R368, R371). -/
def State.issueWrite (s : State) (c : Nat) : State :=
  match s.writeBurst c with
  | none => s
  | some (r, b) =>
    if b.dev && s.bankLost b.addr b.data.length then s.stopRun c r
    else
      let n := b.data.length
      let s := s.setRun c { r with
        wr := r.wr + n
        put := if b.dev then r.put else r.put + n
        buf := restOf (r.wr + n) r.buf
        hostTo := if b.dev then r.hostTo else some (b.addr + n - 1) }
      let s := s.onBar (fun x => { x with writes := x.writes ++ [b] })
      if b.dev then s else (s.emit (.dma b.addr b.data)).countBytes c n

/-- Whether path `k` of Barrow still pauses after its last burst, 0 the read engine, 1 the write engine, 2 the patch path (R471). -/
def State.pathPaused (s : State) (k : Nat) : Bool := s.diePaused (Store.get (fun _ => none) s.bar.bursts k)

/-- Path `k` has issued a burst. -/
def State.noteBurst (s : State) (k : Nat) : State :=
  s.onBar (fun b => { b with bursts := Store.put (fun _ => none) b.bursts k (some s.tb.toNat) })

/-- BURST_ISSUE: the read engine or the write engine grants and issues its next burst, the patch path before the channels (R359 to
R361); in a die throttle each waits DIE_PAUSE after its last (R471). -/
def execBurstIssue (write : Bool) (s : State) : Host.Outcome State Fault Refusal :=
  .next (s.unfrozen (fun s =>
    if !s.barRuns then s
    else
      let eng := if write then 1 else 0
      match (if s.pathPaused 2 then none else if write then s.patchWrite.map s.issuePatchWrite else s.patchRead.map s.issuePatchRead) with
      | some t => t.noteBurst 2
      | none =>
        if s.pathPaused eng then s.serveBus else
        let can := (List.range 32).filter (fun c => if write then (s.writeBurst c).isSome else (s.readBurst c).isSome)
        match s.grant write can with
        | none => s.serveBus
        | some (c, t) => ((if write then t.issueWrite c else t.issueRead c).noteBurst eng).serveBus))

/-! ## Returns (R371, R376) -/

/-- Data has returned for a read: it joins the stream of its run or its patch, or the chain; while Barrow halts it is discarded (R191, R363,
R369, R377). -/
def State.landRead (s : State) (r : BarRead) (data : List Byte) : State :=
  if s.barState ≠ 0 then s
  else
  let s := s.onBar (fun b => { b with used := true, fresh := [] })
  let got := (List.range r.len).map (fun i => data.getD i 0)
  match r.kind with
  | .data =>
    match s.findRun r.chan r.id with
    | none => s
    | some x =>
      if x.stop.isSome ∨ x.done.isSome ∨ x.fail.isSome then s.settleChan r.chan
      else s.setRun r.chan { x with buf := x.buf ++ [(r.off, got)] }
  | .patch => s.onFetchId r.id (fun f => { f with buf := f.buf ++ [(r.off, got)] })
  | .chain =>
    let x := s.getChan32 r.chan
    match x.chain.filter (fun h => decide (h.asked = some r.id)) with
    | none => s
    | some h =>
      let d : Desc := ⟨h.link.index, (List.range 16).map (fun i => bytesWord ((got.drop (4 * i)).take 4))⟩
      s.setChan32 r.chan { x with chain := some { h with
        asked := none, next := (h.next + 64) % 2 ^ 64, fetched := [d], bad := s.extentsBad d } }
  | .flush => s

/-- What a read of the dot store brings, and whether a word of it is uncorrectable (R182, R376). -/
def State.readStore (s : State) (a n : Nat) : List Byte × Bool × State :=
  let out := (List.range n).map (fun i => s.dotByte (a + i))
  let s := s.offReport a n
  let r := s.readWords ((wordsOf a n).filter (fun w => s.bankReady (bankOf w)))
  (out, r.1, r.2)

/-- A read of Moraine by a descriptor returns: with its bytes, halting Barrow where a word is uncorrectable, or ending the descriptor where
its bank has been retired meanwhile (R182, R368, R376). -/
def State.landStore (s : State) (k : Nat) (b : BarRead) : State :=
  if s.bankLost b.addr b.len then
    match (s.dropRead k).findRun b.chan b.id with
    | none => s.dropRead k
    | some r => if r.done.isSome ∨ r.stop.isSome then (s.dropRead k).settleChan b.chan else (s.dropRead k).stopRun b.chan r
  else
    let o := s.readStore b.addr b.len
    if o.2.1 then o.2.2.failRead k 4 b else (o.2.2.dropRead k).landRead b o.1

/-- READ_COMPLETION: outstanding read `k`, which is no flush, returns. A further failure while Barrow halts is reported and changes
nothing else (R376, R377). -/
def execReadCompletion (k : Nat) (r : ReadResult) (s : State) : Host.Outcome State Fault Refusal :=
  .next (s.unfrozen (fun s =>
    match s.bar.reads[k]? with
    | none => s
    | some b =>
      if b.kind = .flush then s
      else if b.dev then (s.landStore k b).serveBus
      else
        (State.injectAt 0x203 (fun s => s.failRead k 1 b)
          (fun s => match r with
            | .data bytes => (s.dropRead k).landRead b bytes
            | .error => s.failRead k 1 b
            | .poisoned => s.failRead k 2 b) s).serveBus))

/-- The internal write `k` among those outstanding takes effect, and counts as written unless its bank has been retired since its issue
(R7, R368, R371). Patch writes to a domain that is off are dropped and not reported (R637). -/
def State.landWrite (s : State) (k : Nat) (w : BarWrite) : State :=
  let n := w.data.length
  let gone := s.bankLost w.addr n
  let s := s.onBar (fun b => { b with writes := b.writes.eraseIdx k })
  if w.chan = 32 then (s.writeDots w.addr (w.data.map some) none).settleFetch w.id
  else
    let s := (s.offReport w.addr n).writeDots w.addr (w.data.map some) none
    match s.findRun w.chan w.id with
    | none => s
    | some r =>
      if gone then s.setRun w.chan { r with stop := some Status.unitAbsent, buf := [] }
      else (s.setRun w.chan { r with put := r.put + n }).countBytes w.chan n

/-- WRITE_RESPONSE: the internal write `k` among those outstanding receives its response (R371). -/
def execWriteResponse (k : Nat) (s : State) : Host.Outcome State Fault Refusal :=
  .next (s.unfrozen (fun s =>
    match s.bar.writes[k]? with
    | none => s
    | some w => if w.dev then ((s.landWrite k w).settleChan w.chan).serveBus else s))

/-- PATCH_RESIDENT: of the jobs of context `n` that still fetch their patch `i`, in queue order, the one at place `k` has had every write of
that fetch issued, and each has its response (R191). -/
def execPatchResident (n : Fin 255) (i : Fin 2) (k : Nat) (s : State) : Host.Outcome State Fault Refusal :=
  .next (s.unfrozen (fun s =>
    match ((s.getCtx n).jobs.filter (fun j => j.fetching i))[k]? with
    | none => s
    | some j =>
      let f := j.fetch i
      if decide (f.id = 0) || decide (f.wr ≠ patchBytes j.dw i) then s
      else
        ((s.bar.writes.filter (fun w => w.chan == 32 && w.id == f.id)).foldl (fun s w =>
          s.landWrite (s.bar.writes.findIdx (fun y => decide (y = w))) w) s).serveBus))

/-- The host writes of a run that a returned flush covers leave the write slots (R359). -/
def State.landFlush (s : State) (b : BarRead) : State :=
  match s.findRun b.chan b.id with
  | none => s
  | some x =>
    let s := s.onBar (fun y => { y with writes := y.writes.filter (fun w => !(w.id == b.id && !w.dev && decide (w.off < b.off))) })
    (s.setRun b.chan { x with asked := false, safe := b.off }).settleChan b.chan

/-- FLUSH_READ_COMPLETE: the flushing read `k` among the outstanding reads returns (R371, R376). -/
def execFlushReadComplete (k : Nat) (r : ReadResult) (s : State) : Host.Outcome State Fault Refusal :=
  .next (s.unfrozen (fun s =>
    match s.bar.reads[k]? with
    | none => s
    | some b =>
      if b.kind ≠ .flush then s
      else
        match r with
        | .data _ => if s.barState ≠ 0 then s.dropRead k else ((s.dropRead k).landFlush b).serveBus
        | .error => s.failRead k 1 b
        | .poisoned => s.failRead k 2 b))

/-- TMO in TB units: values below 50 apply 50 µs (R383). -/
def State.barTmo (s : State) : Nat := max 50 (s.rd Fld.BAR_CFG_TMO) * 4000

/-- READ_TIMEOUT: outstanding read `k` has had no completion within TMO (R376). -/
def execReadTimeout (k : Nat) (s : State) : Host.Outcome State Fault Refusal :=
  .next (s.unfrozen (fun s =>
    match s.bar.reads[k]? with
    | none => s
    | some b => if b.at_ + s.barTmo ≤ s.tb.toNat then s.failRead k 3 b else s))

/-! ## Stop (R375) -/

/-- STOP is set on a channel: what has issued nothing completes STOPPED, and a chain that the channel is in is given up, also while the
descriptor that ends it runs (R369, R375). -/
def State.stopChan (s : State) (c : Nat) : State :=
  let x := s.getChan32 c
  let s := s.setChan32 c { x with runs := (x.runs.filter (fun r => !(r.chained && r.done.isNone && !r.begun))).map (fun r =>
    if r.done.isNone && !r.begun then { r with done := some (Status.stopped, 0) } else { r with last := false }) }
  (match x.chain with
   | none => s
   | some h => s.dropChain c h.link Status.stopped).settleChan c

/-- A write of BAR_CHc_CTL. -/
def State.writeChanCtl (s : State) (m : Master) (c : Nat) (v : Word) : State :=
  let was := s.chanStopped c
  let s := s.writeCode m (Reg.BAR_CH_CTL c) v
  if bitOf v 0 && !was then s.stopChan c else s

/-- CHANNEL_STOP. -/
def execChannelStop (m : Master) (c : Fin 32) (v : Word) (s : State) : Host.Outcome State Fault Refusal :=
  .next (s.unfrozen (fun s => s.accessBy m (Reg.BAR_CH_CTL c) (fun s => s.writeChanCtl m c v)))

/-! ## Link loss and host reset (R376, R380) -/

/-- Whether a read or write of a channel or of the patch path waits to be issued (R376). -/
def State.barWaits (s : State) : Bool :=
  (List.range 32).any (fun c => (s.getChan32 c).runs.any (fun r => r.done.isNone) || (s.getChan32 c).chain.isSome) || !s.patchList.isEmpty

/-- The PCIe link has gone down: Barrow halts when a read or write of it is outstanding or waiting (R376). The failing address is that of
the oldest such request; with none issued it is a free value (DESIGN CHOICE, log entry 1). -/
def State.linkHalt (s : State) : State :=
  let n := s.bar.reads.length
  if s.barState = 2 then s
  else
  match s.bar.reads.head?, s.bar.writes.head? with
  | some r, _ => s.haltBarrow n 5 r.dev r.addr
  | none, some w => s.haltBarrow n 5 w.dev w.addr
  | none, none =>
    if s.barWaits then
      let (f, s) := s.draw
      s.haltBarrow n 5 false f.toNat
    else s

/-- A reset of the HOST domain: internal writes already issued take effect, nothing stays fetched, and patch fetches under way begin again
(R377, R380). -/
def State.resetBarrow (s : State) : State :=
  let s := s.bar.writes.foldl (fun s w =>
    if w.dev then
      let s := s.writeDots w.addr (w.data.map some) none
      if w.chan = 32 then (s.onBar (fun b => { b with writes := b.writes.filter (fun y => decide (y ≠ w)) })).settleFetch w.id else s
    else s) s
  let s := { s with bar := { BarSt.reset with used := s.bar.used, fresh := s.bar.fresh } }
  s.restartFetches

end Sys2Proof.Machine
end

