-- ==== Sys2Proof/Machine/PortOps.lean ====
section
/-! DEFINITION. What several rows share about a head port: its head register accesses, Rose's settings, its sense slots, and what
follows when it leaves READY (R244, R268, R280, R281, R294, R300, R306, R307, R324, R330). -/

namespace Sys2Proof.Machine

/-- Whether a pulse or a tickle is in progress on a port. -/
def State.driving (s : State) (p : Nat) : Bool :=
  (s.getPort p).pulse.isSome || (match (s.getPort p).sense.slot with
    | .tickle _ => true
    | _ => false)

/-- The strobes of a port fall now, and the pulse in progress has ended (R273, R281). -/
def State.lowStrobes (s : State) (p : Nat) : State :=
  let now := s.mirrorNow p
  let s := s.onPort p (fun x => { x with pulse := none, pulseEnd := if x.pulse.isSome then min x.pulseEnd now else x.pulseEnd })
  if s.portMode p = 2 then s else s.emit (.strobeLow p now)

/-- The pulse or tickle in progress is cut (R281, R310). -/
def State.stopPulse (s : State) (p : Nat) : State := if s.driving p then s.lowStrobes p else s
def State.onNeve (s : State) (p : Nat) (f : Neve → Neve) : State := s.onPort p (fun x => { x with neve := f x.neve })
def State.onSense (s : State) (p : Nat) (f : Sense → Sense) : State := s.onPort p (fun x => { x with sense := f x.sense })
def State.getSense (s : State) (p : Nat) : Sense := (s.getPort p).sense
def State.getNeve (s : State) (p : Nat) : Neve := (s.getPort p).neve

/-! ## Blocks and head register access (R256, R268) -/

/-- An INHIBIT block with a state (R256). -/
def State.inhibit (s : State) (p state : Nat) : State := s.emit (.block p 0x87 [state])

/-- The access at the front of the queue goes out as an HREG block, and BUSY follows the queue (R256, R268, R294). -/
def State.sendHreg (s : State) (p : Nat) : State :=
  match (s.getNeve p).hreg with
  | [] => s.wr (Fld.NV_HREG_CMD_BUSY p) 0
  | o :: _ =>
    (s.wr (Fld.NV_HREG_CMD_BUSY p) 1).emit (.block p 0x99 ((if o.write then 1 else 2) :: leBytes 2 o.addr ++ leBytes 4 o.data))

/-- Accesses join the queue; the first goes out when none is outstanding. -/
def State.queueHreg (s : State) (p : Nat) (ops : List HregOp) : State :=
  let q := (s.getNeve p).hreg
  let s := s.onNeve p (fun n => { n with hreg := q ++ ops })
  if q.isEmpty then s.sendHreg p else s

/-- The accesses of Rose and Crevasse are given up, but for one that is outstanding (R294). -/
def State.dropHreg (s : State) (p : Nat) (owner : HregOwner) : State :=
  s.onNeve p (fun n => { n with hreg := n.hreg.take 1 ++ (n.hreg.drop 1).filter (fun o => decide (o.owner ≠ owner)) })

/-- With the link down, an access of Rose or Crevasse ends; a master's waits for its timeout (R268). -/
def State.linkHreg (s : State) (p : Nat) : State :=
  let s := s.onNeve p (fun n => { n with hreg := n.hreg.filter (fun o => decide (o.owner = .master)) })
  s.wr (Fld.NV_HREG_CMD_BUSY p) (if (s.getNeve p).hreg.isEmpty then 0 else 1)

/-- Whether a head load is in progress (R306). -/
def State.loading (s : State) (p : Nat) : Bool := (s.getNeve p).hreg.any (fun o => decide (o.owner = .rose))

/-! ## The head load (R293, R294) -/

/-- The window ends in force, in 2 ns units from the pulse start (R293). -/
def State.headEnds (s : State) (p : Nat) : List Nat :=
  if s.forcedThermal p then (binEdges (s.forcedHeats p)).tail
  else ((s.forcedEnds p).take (s.forcedNwin p - 1)).map (fun e => e * 10) ++ [s.forcedLen p * 10]

/-- The head registers as Rose would write them, in the order of R293, COMMIT apart. A window that does not exist has no end to
write. -/
def State.headWords (s : State) (p : Nat) : List (Nat × Nat) :=
  let ends := s.headEnds p
  let m := s.forcedMasks p
  let th := s.forcedThermal p
  [(0x100, (if th then 0x100 else 0) + ends.length)] ++ (ends.zipIdx.map (fun e => (0x101 + e.2, e.1))) ++
  [(0x109, m.getD 0 0 + 2 ^ 8 * m.getD 1 0 + 2 ^ 16 * m.getD 2 0)] ++
  (if th then (0x10A, binSMin (s.forcedHeats p)) :: (List.range 33).map (fun i => (0x110 + i, s.roseScale p (s.recordInUse p) (128 * i))) else [])

/-- Rose begins to load the head: the registers in order, DSCALE only where it has changed since the last COMMIT, COMMIT last. -/
def State.startLoad (s : State) (p : Nat) : State :=
  let ws := s.headWords p
  let sent := (s.getNeve p).sent
  let dsc := fun (w : Nat × Nat) => decide (0x110 ≤ w.1) && decide (w.1 ≤ 0x130)
  let scales := ws.filter dsc
  let out := if scales.all sent.contains then ws.filter (fun w => !dsc w) else ws
  let s := s.dropHreg p .rose
  let s := s.onNeve p (fun n => { n with reload := false, wrote := [] })
  s.queueHreg p ((out ++ [((0x1FF : Nat), (1 : Nat))]).map (fun w => (⟨.rose, true, w.1, w.2⟩ : HregOp)))

/-! ## Rose's settings (R300, R306, R307) -/

/-- The bin that the port's thermistor calls for (R300): BASE and STEP as written. An end bin reaches without limit outward. -/
def State.chooseBin (s : State) (p : Nat) : Nat :=
  let x := s.getChan (40 + p)
  let old := (s.getPort p).bin
  if x.broken then 15
  else
    match x.value with
    | none => old
    | some t =>
      let base := signedOf 16 (s.rd (Fld.ROSE_TBIN_BASE p))
      let step : Nat := if s.rd (Fld.ROSE_TBIN_STEP p) = 0 then 16 else s.rd (Fld.ROSE_TBIN_STEP p)
      let c := (clampInt 0 15 ((t - base) / step)).toNat
      let lo := base + c * step
      if (c = 0 ∨ lo * 4 + step ≤ t * 4) ∧ (c = 15 ∨ t * 4 + step ≤ (lo + step) * 4) then c else old

/-- Between pulses the output of a READY port carries REST_CODE, also a new one (R297, R306). -/
def State.showRest (s : State) (p : Nat) : State :=
  if (s.getPort p).ramped && (s.getWave p).play.isNone && decide ((s.getWave p).code ≠ s.restCode p) then
    s.sendCodes p (s.mirrorNow p * 10) [s.restCode p]
  else s

/-- Rose judges the written settings of a port at a quiet point, and puts them in force when they are valid (R306, R307, R312). -/
def State.applyRose (s : State) (p : Nat) : State :=
  let old := (s.getPort p).bin
  let t := s.onPort p (fun x => { x with bin := s.chooseBin p })
  let e := t.roseErr p
  if e ≠ 0 then ((s.onPort p (fun x => { x with bin := old })).wr (Fld.ROSE_STAT_ERR p) e).wr (Fld.ROSE_STAT_VALID p) 0
  else
    let w : RoseForce := ⟨t.roseWritten p⟩
    let changed := decide ((s.getPort p).force ≠ some w) || decide ((t.getPort p).bin ≠ old)
    let t := (t.onPort p (fun x => { x with force := some w })).showRest p
    let t := ((t.wr (Fld.ROSE_STAT_ERR p) 0).wr (Fld.ROSE_STAT_VALID p) 1).wr (Fld.ROSE_STAT_BIN p) (t.getPort p).bin
    let t := if changed then t.bump (Fld.ROSE_CNT_QUIET_COUNT p) else t
    if t.portMode p = 2 ∧ t.linked p ∧ !(t.headWords p).all (t.getNeve p).sent.contains ∧ ¬ (t.loading p ∧ ¬ changed) ∧ ¬ (t.getNeve p).reload
    then t.startLoad p else t

/-- A port that is present, powered and not READY is always at a quiet point (R306). -/
def State.settleRose (s : State) (p : Nat) : State :=
  if s.portPresent p && s.domOn (.hpg (portGroup p)) && !s.portReady p then s.applyRose p else s

/-! ## Gates (R272, R276) -/

def State.getGate (s : State) (p g : Nat) : Gate := Store.get (fun _ => Gate.reset) (s.getPort p).gates g

/-- Whether a gate is active on a port. -/
def State.gated (s : State) (p : Nat) : Bool := (s.getPort p).gates.any (fun g => g.2.active)

/-- Whether a HEAD_OPEN gate is active on a port (R273). -/
def State.headOpen (s : State) (p : Nat) : Bool :=
  (s.getPort p).gates.any (fun g => g.2.active && decide (s.rd (Fld.PORT_GATE_ACT p g.1) = 1))

/-! ## Sensing (R320, R324, R330) -/

/-- Whether a CREVASSE_REF runs, on port `p` (R330). -/
def State.refRuns (s : State) (p : Nat) : Bool :=
  match s.walk with
  | some w => decide (w.port = p)
  | none => false

/-- L7 in 20 ns samples. -/
def State.l7 (s : State) (p : Nat) : Nat := s.rd (Fld.ROSE_WAVE_LEN_LEN p 7)

/-- Whether slot 7 of a port serves a tickle (R320). -/
def State.tickleOk (s : State) (p : Nat) : Bool := s.slotValid p 7 && decide (5 ≤ s.l7 p)

/-- CRV_Pp_STAT.STATE (R330). -/
def State.crvState (s : State) (p : Nat) : Nat :=
  if !s.on Fld.CRV_STAT_SEQ_OK then 1
  else if !s.on Fld.CRV_CFG_EN || !s.on (Fld.CRV_P_CFG_SENSE_EN p) then 2
  else if !s.portReady p then 3
  else if s.forcedThermal p then 4
  else if !s.tickleOk p then 5
  else if s.portMode p = 2 ∧ (s.getSense p).noHead then 6
  else if s.rd (Fld.CRV_P_REF_VALID p) = 0 then 7
  else if s.refRuns p then 8
  else if s.gated p then 9
  else 0

/-- TK_DLY and S_LEN in TB units (R324). -/
def State.tkDly (s : State) (p : Nat) : Nat := max 8 (s.rd (Fld.CRV_P_CFG_TK_DLY p)) * 40
def State.sLen (s : State) (p : Nat) : Nat := s.l7 p * 80 + s.rd (Fld.CRV_P_CFG_CAP_DLY p) * 40 + 12800 + 400

/-- G_REQ is computed afresh (R324). -/
def State.updateGreq (s : State) (p : Nat) : State := s.wr (Fld.CRV_P_GREQ_GREQ p) (max 24000 (s.tkDly p + s.sLen p))

/-- A CREVASSE_REF on port `p` is to stop, by a gate or a product (R336). -/
def State.haltWalk (s : State) (p : Nat) : State :=
  if s.refRuns p then { s with walk := s.walk.map (fun w => { w with halt := true }) } else s

/-- A slot in progress ends without a result, and CUT counts it (R327, R330). -/
def State.cutSlot (s : State) (p : Nat) : State :=
  if (s.getSense p).slot = .none then s
  else (s.onSense p (fun x => { x with slot := .none })).bumpSat (Fld.CRV_P_CNT_MISS_CUT p)

/-! ## Leaving READY (R244, R280, R281) -/

/-- Whether a product of context `c` has a line released, committed or still to come on port `p` (R280). -/
def State.lineOn (s : State) (c : Nat) (x : Product) (p : Nat) : Bool :=
  (s.getPort p).lines.any (fun l => l.key.ctx == c && l.key.prod == x.id) ||
  ((s.ctxPorts c).contains p &&
    (decide (x.pass + 1 < x.passes) || x.upg.isNone || x.groups.isEmpty ||
      x.groups.any (fun g => (s.groupPorts c g).contains p && decide (g.rel < x.lines))))

/-- A port leaves READY with its products and lines settled: its pulse or tickle is cut, a Névé head inhibited, and its output ramps to 0,
unless `keep` lets a pulse complete first (R281, R311). -/
def State.makeSafe (s : State) (keep : Bool) (p : Nat) : State :=
  let stays := keep && (s.getPort p).pulse.isSome
  let cut := s.driving p && !stays
  let s := ((if cut then s.lowStrobes p else s).cutSlot p).onPort p (fun x => { x with ramped := false, masks := none })
  let s := if stays then s else s.rampWave p 0 8
  let s := s.onSense p (fun x => { x with first := true })
  let s := (s.setReg (Reg.PORT_SP p) 0).setReg (Reg.PORT_SPACE p) 0
  if cut && decide (s.portMode p = 2) && s.linked p then s.inhibit p 1 else s

/-- What follows when port `p` leaves READY, `old` being the state before (R280, R281): every product with a line on it is
aborted, every line on it dropped, its sense slot cut, and its pulse too unless `keep`. -/
def State.leaveReady (old : State) (keep : Bool) (p : Nat) (s : State) : State :=
  let s := s.liveCtxs.foldl (fun s c => s.abortCtx c (fun x => old.lineOn c x p) (.portOnly p) Status.abortedFault) s
  (s.dropAt p (fun _ => true)).makeSafe keep p

/-- The entry ramp from 0 to REST_CODE begins (R311). -/
def State.startEntry (s : State) (p : Nat) : State :=
  (s.rampWave p (s.restCode p) 64).onWave p (fun w => { w with entry := some (s.mirrorNow p) })

/-- The entry ramp begins when every other condition of READY holds, and is undone when one fails (R311). -/
def State.watchEntry (s : State) (p : Nat) : State :=
  if s.portEligible p && !(s.getPort p).ramped && (s.getWave p).entry.isNone then s.startEntry p
  else if !s.portEligible p && (s.getWave p).entry.isSome then (s.rampWave p 0 8).onWave p (fun w => { w with entry := none })
  else s

/-- What follows for one port from a change of the state: it has left READY, its entry ramp begins or is undone, it is no longer sensed
(R330), or Rose is at a quiet point. -/
def State.watchPort (old : State) (keep : Bool) (s : State) (p : Nat) : State :=
  let s := if old.portReady p && !s.portReady p then State.leaveReady old keep p s
    else if (s.getPort p).ramped && !s.portEligible p then (s.rampWave p 0 8).onPort p (fun x => { x with ramped := false }) else s
  let s := if old.crvState p = 0 ∧ s.crvState p ≠ 0 then s.cutSlot p else s
  (s.settleRose p).watchEntry p

/-- What follows for every port from a change of the state from `old` to `s` (R242, R280, R306). `keep`: a pulse in progress completes
(R281). -/
def State.watchKeep (old : State) (keep : Bool) (s : State) : State :=
  ((List.range 16).foldl (State.watchPort old keep) s).endAll

def State.watch (old : State) (s : State) : State := State.watchKeep old false s

/-! ## Fatal reports of the firing path (R479) -/

/-- The bound contexts. -/
def State.boundCtxs (s : State) : List Nat := (List.range 255).filter (fun c => decide (s.ctxState c ≠ 0))

/-- The bound contexts that depend on a scope are FAULTED through it (R110). -/
def State.faultCtxs (s : State) (sc : Nat) : State :=
  (s.boundCtxs.filter (fun c => (s.ctxScopes c).contains sc)).foldl (fun s c => s.enterFaulted c 0x08 sc) s

/-- A firing-path source of class fatal reports: beside the report to AON its tine stops the contexts and the ports of its scope at once
(R479). -/
def State.reportFiring (s : State) (src : Nat) (synd : Word) (level : Bool) : State :=
  let t := if level then s.reportLevel src synd else s.report src synd
  match directScope src with
  | none => t
  | some sc => if s.scopeState sc ≠ 0 then t else State.watchKeep s true (t.faultCtxs sc)

end Sys2Proof.Machine
end

