-- ==== Sys2Proof/Machine/Crevasse.lean ====
section
/-! DEFINITION. Crevasse: sense slots, classification and reference capture (R319 to R336, spec/09_crevasse_nozzle_health.md). -/

namespace Sys2Proof.Machine

def State.crvIndex (s : State) (p : Nat) : Nat := s.rd (Fld.CRV_P_STAT_INDEX p)

/-- NOZ as the head counts (R322). -/
def State.headNoz (s : State) (p : Nat) : Nat := max 1 (s.rd (Fld.PORT_CFG_NOZ p))

/-- The mark of the next tickle (R322): 0 ADVANCE, 1 HOLD, 2 RESET. -/
def State.nextMark (s : State) (p : Nat) : Nat :=
  if (s.getSense p).first then 2
  else if (s.getSense p).hold then 1
  else if s.headNoz p ≤ s.crvIndex p + 1 then 2
  else 0

/-- The nozzle of a tickle with a mark. -/
def State.markNozzle (s : State) (p mark : Nat) : Nat :=
  match mark with
  | 0 => s.crvIndex p + 1
  | 1 => s.crvIndex p
  | _ => 0

/-- In mode C, a mark other than ADVANCE is given by writing SENSE_NEXT (R321). -/
def State.senseNext (s : State) (p mark : Nat) : State :=
  if s.portMode p = 2 ∧ mark ≠ 0 then
    (s.onSense p (fun x => { x with next := false })).queueHreg p [⟨.crevasse, true, 0x200, s.markNozzle p mark⟩]
  else s

/-- Whether a write of Crevasse to the head has not been answered (R321). -/
def State.sensePending (s : State) (p : Nat) : Bool := (s.getNeve p).hreg.any (fun o => decide (o.owner = .crevasse))

/-- A line or an idle slot waits for the buffer or for the previous result (R327, R328). -/
def State.countWait (s : State) (p : Nat) : State := s.bumpSat (Fld.CRV_P_CNT_SKIP_WAIT p)

/-- A slot is planned at T_tk; in mode C only once the previous result is ready, with SENSE_NEXT written first (R328). -/
def State.planSlot (s : State) (p ttk : Nat) : State :=
  if s.portMode p = 2 && !(s.getSense p).captures.isEmpty then s.countWait p
  else (s.onSense p (fun x => { x with slot := .planned ttk, len := s.sLen p })).senseNext p (s.nextMark p)

/-- The predicted next fire time after a line fired at `fire` (R325): of the next fire event held, else by the last interval. -/
def State.nextFire (s : State) (p fire : Nat) : Option Nat :=
  match (s.getPort p).lines.find? (fun l => l.arrived) with
  | some l => l.fire
  | none => (s.getPort p).prevFire.map (fun f => fire + (fire - f))

/-- What Crevasse does at the end of a main pulse (R325, R327). -/
def State.slotAfter (s : State) (p : Nat) (x : PulseNow) : State :=
  if s.crvState p ≠ 0 ∨ x.ctx = 0 then s
  else
    let full := decide (2 ≤ (s.getSense p).captures.length)
    let short := match s.nextFire p x.fire with
      | none => false
      | some f => decide (f < x.fire + x.len + s.rd (Fld.CRV_P_GREQ_GREQ p))
    let s := if full then s.countWait p else s
    let s := if short then s.bumpSat (Fld.CRV_P_CNT_SKIP_SHORT p) else s
    if full || short then s else s.planSlot p (x.fire + x.len + s.tkDly p)

/-- What a fire event does to a sense slot, whose S_LEN is that of its start (R327, R339). -/
def State.slotCollision (s : State) (p fire : Nat) : State :=
  let len := (s.getSense p).len
  match (s.getSense p).slot with
  | .none => s
  | .planned t =>
    if fire < t + len then (s.onSense p (fun x => { x with slot := .none })).bumpSat (Fld.CRV_P_CNT_SKIP_SHORT p) else s
  | .tickle t =>
    if fire < t + len then ((if s.portMode p = 2 then s else s.emit (.strobeLow p (s.mirrorNow p))).cutTickle p).cutSlot p else s
  | .capture t _ => if fire < t + len then s.cutSlot p else s

/-- The watchdog expects the echo of a strobe (R270); MISS_LIM 0 disables it (R271). -/
def State.expectEcho (s : State) (p t tag : Nat) : State :=
  if s.rd (Fld.PORT_WD_CFG_MISS_LIM p) = 0 then s
  else s.onPort p (fun x => { x with expects := x.expects ++ [⟨s.strobeAt p t, tag⟩] })

/-- The STROBE block of a line with a tag and a fire time, at the block boundary of R259. -/
def State.strobeBlock (s : State) (p tag t : Nat) : State :=
  s.emit (.block p 0x66 (tag :: leBytes 2 (s.strobeBlockDue p t).2))

/-- A tickle is driven with a mark at T_tk, INDEX follows, and slot 7 streams with its GAIN (R305, R320 to R323). -/
def State.driveTickle (s : State) (p mark ttk : Nat) : State :=
  let n := s.markNozzle p mark
  let s := s.wr (Fld.CRV_P_STAT_INDEX p) n
  let s := s.onSense p (fun x => { x with first := false })
  let s := s.startPlay p (some 7) (s.rd (Fld.ROSE_WAVE_CALG_GAIN p 7)) ttk (s.l7 p * 80) false
  let tag := (s.getPort p).lastTag
  let s := if s.portMode p = 2 then s.strobeBlock p tag ttk else s.emit (.tickle p mark ttk (s.l7 p))
  s.expectEcho p ttk tag

/-- Whether the mark of a tickle is still to be given to a Névé head: SENSE_NEXT has not been written with RESULT 0 (R321). -/
def State.markWaits (s : State) (p mark : Nat) : Bool :=
  decide (s.portMode p = 2) && (s.sensePending p || (decide (mark ≠ 0) && !(s.getSense p).next))

/-- TICKLE: the time has come for the tickle of the planned slot of port `p`. The slot is not started while the previous capture has no
result, or its write of SENSE_NEXT no RESULT 0, and WAIT counts it (R321, R323, R328). -/
def execTickle (p : Fin 16) (s : State) : Host.Outcome State Fault Refusal :=
  .next (s.unfrozen (fun s =>
    match (s.getSense p).slot with
    | .planned ttk =>
      if !s.strobeDue p ttk then s
      else if !(s.getSense p).captures.isEmpty || s.markWaits p (s.nextMark p) then
        (s.onSense p (fun x => { x with slot := .none })).countWait p
      else (s.driveTickle p (s.nextMark p) ttk).onSense p (fun x => { x with slot := .tickle ttk })
    | _ => s))

/-- The instant at which the capture of a tickle at `ttk` starts, in TB units: L7 + CAP_DLY of the slot after the strobe (R323, R324). -/
def State.captureAt (s : State) (p ttk : Nat) : Nat := (s.strobeAt p ttk + 9) / 10 + ((s.getSense p).len - 13200)

/-- CAPTURE_START: L7 + CAP_DLY have passed since the tickle's strobe. The capture starts on the next of the ADC's sample edges, which are
12.5 ns apart; where it lies is a free value (R323; DESIGN CHOICE, log entry 1). -/
def execCaptureStart (p : Fin 16) (s : State) : Host.Outcome State Fault Refusal :=
  .next (s.unfrozen (fun s =>
    match (s.getSense p).slot with
    | .tickle ttk =>
      if s.mirrorNow p < s.captureAt p ttk then s
      else
        let (f, t) := s.draw
        (t.playNow p).onSense p (fun x => { x with slot := .capture ttk (s.captureAt p ttk + f.toNat % 51) })
    | _ => s))

/-- The 256 samples of a capture: the 14-bit codes of the ADC, sign-extended (R319). -/
def capture256 (l : List (BitVec 14)) : List Int := (List.range 256).map (fun i => (l.getD i 0).toInt)

/-- CAPTURE_COMPLETE: the 3.2 µs of a capture have passed. It waits for the correlator, and CRV_Pp_N follows (R319, R325). -/
def execCaptureComplete (p : Fin 16) (samples : List (BitVec 14)) (s : State) : Host.Outcome State Fault Refusal :=
  .next (s.unfrozen (fun s =>
    match (s.getSense p).slot with
    | .capture _ tb =>
      if s.mirrorNow p < tb + 12800 then s
      else
      let x := s.getSense p
      let r := (x.strobed :: x.recent).take 64
      let k : Capture := ⟨s.crvIndex p, tb, capture256 samples⟩
      let s := s.onSense p (fun y => { y with slot := .none, captures := y.captures ++ [k], strobed := 0, recent := r })
      if r.length = 64 then s.wr (Fld.CRV_P_N_N p) (min 0xFFFF (roundDiv ((r.foldl (· + ·) 0 : Nat) * 256) 64).toNat) else s
    | _ => s))

/-! ## Classification (R331) -/

def sumInt (l : List Int) : Int := l.foldl (· + ·) 0
def dotInt (x y : List Int) : Int := sumInt (List.zipWith (· * ·) x y)

/-- The reference of class `c` of port `p` (R337). -/
def State.reference (s : State) (p c : Nat) : List Int :=
  (List.range 256).map (fun k => sampleOf (s.getReg (Reg.CRV_REF p ((c - 1) * 128 + k / 2))) k)

/-- The two 16-bit samples of a word. -/
def pairWord (x y : Int) : Word := BitVec.ofNat 32 (patternOf 16 x + 2 ^ 16 * patternOf 16 y)

/-- Consecutive registers from address `a` set to pairs of samples. -/
def State.setSamples (s : State) (a : Nat) (l : List Int) : State :=
  (List.range 128).foldl (fun s i => s.setReg (a + 4 * i) (pairWord (l.getD (2 * i) 0) (l.getD (2 * i + 1) 0))) s

/-- The class of a capture and its score: 0 unclassified, 1 OK, 2 WEAK, 3 AIR, 4 DRY, 5 DEAD (R331). -/
def State.classify (s : State) (p : Nat) (x : List Int) : Nat × Nat :=
  let m := roundDiv (sumInt x) 256
  let xs := x.map (fun v => v - m)
  let exx := dotInt xs xs
  let floor : Int := (s.getReg Reg.CRV_EFLOOR).toNat
  if floor ≠ 0 ∧ exx < floor then (5, 0)
  else
    let best := [1, 2, 3, 4, 5].foldl (fun (acc : Nat × Nat × Nat) c =>
      if !bitOf (s.getReg (Reg.CRV_P_REF p)) (c - 1) then acc
      else
        let r := s.reference p c
        let k := dotInt xs r
        let err := dotInt r r
        let sc : Nat := if k ≤ 0 ∨ exx = 0 then 0 else min 0xFFFF (65536 * k * k / (exx * err)).toNat
        if acc.2.1 < sc then (c, sc, min 0xFFFF (roundDiv (16384 * k) err).toNat) else acc) (0, 0, 0)
    if best.2.1 < s.rd Fld.CRV_CLS_MIN_SCORE then (0, best.2.1)
    else if best.1 = 1 ∧ best.2.2 < s.rd Fld.CRV_CLS_WEAK_GAIN then (2, best.2.1)
    else (best.1, best.2.1)

/-! ## Confirmation (R332, R333, R338) -/

/-- The class-map field of nozzle `n` of port `p`: its confirmed class, or its suspect bit. -/
def classFld (p n : Nat) : Fld := ⟨Reg.CRV_CLASS (p * 512 + n / 8), 4 * (n % 8) + 2, 4 * (n % 8)⟩
def suspectFld (p n : Nat) : Fld := ⟨Reg.CRV_CLASS (p * 512 + n / 8), 4 * (n % 8) + 3, 4 * (n % 8) + 3⟩

/-- The port's suspect becomes another, or none. -/
def State.setSuspect (s : State) (p : Nat) (n : Option Nat) : State :=
  let s := match (s.getSense p).susp with
    | none => s
    | some o => s.wr (suspectFld p o) 0
  let s := s.onSense p (fun x => { x with susp := n })
  match n with
  | none => s
  | some k => s.wr (suspectFld p k) 1

/-- The status that a class stands for (R331). -/
def classStatus (c : Nat) : Nat :=
  match c with
  | 1 => 0
  | 2 => 1
  | _ => 2

/-- A class is confirmed for a nozzle: the class map, the status map and the event (R332, R333). -/
def State.confirm (s : State) (p n c score tb : Nat) : State :=
  let old := s.rd (classFld p n)
  let before := s.nozStatus p n
  let held := decide (before = 3) || !s.on Fld.CRV_CFG_MAP_EN
  let s := s.wr (classFld p n) c
  let s := if held || decide (c = old) then s else s.setNoz p n (classStatus c)
  s.event 0x0D p [BitVec.ofNat 32 ((if held then 2 ^ 31 else 0) + before * 2 ^ 26 + s.nozStatus p n * 2 ^ 24 + old * 2 ^ 20 + c * 2 ^ 16 + n),
    BitVec.ofNat 32 score, BitVec.ofNat 32 tb, 0]

/-- The tail of on_result: the count decides between confirmation, giving up and another holding tickle. `tries` is a uint4 (R332). -/
def State.countResult (s : State) (p n score tb : Nat) : State :=
  let x := s.getSense p
  let tries := (x.tries + 1) % 16
  if x.cnt = 3 then (s.confirm p n x.pc score tb).setSuspect p none
  else if max 2 (s.rd Fld.CRV_CFG_HOLD_MAX) < tries then (s.onSense p (fun y => { y with tries := tries })).setSuspect p none
  else s.onSense p (fun y => { y with tries := tries, hold := true })

/-- on_result: the confirmation logic acts on a result (R332). -/
def State.onResult (s : State) (p n c score tb : Nat) : State :=
  let s := s.onSense p (fun x => { x with hold := false })
  let x := s.getSense p
  if c = 0 then
    let s := s.bumpSat (Fld.CRV_P_CNT_MISS_UNCL p)
    if x.susp = some n then s.countResult p n score tb else s
  else if x.susp = some n ∧ x.pc = c then
    (s.onSense p (fun y => { y with cnt := y.cnt + 1 })).countResult p n score tb
  else if c = s.rd (classFld p n) then (if x.susp = some n then s.setSuspect p none else s)
  else
    ((s.setSuspect p (some n)).onSense p (fun y => { y with pc := c, cnt := 1, tries := 0 })).countResult p n score tb

/-- CLASSIFY: the correlator takes the oldest waiting capture of port `p` (R331, R332). -/
def execClassify (p : Fin 16) (s : State) : Host.Outcome State Fault Refusal :=
  .next (s.unfrozen (fun s =>
    match (s.getSense p).captures with
    | [] => s
    | k :: rest =>
      let s := s.onSense p (fun x => { x with captures := rest })
      let s := (s.setSamples (Reg.CRV_LAST (p * 128)) k.samples).bump Fld.CRV_CNT_CORR_COUNT
      let s := s.bump (Fld.CRV_P_CNT_SENSE_COUNT p)
      let r := s.classify p k.samples
      s.onResult p k.nozzle r.1 r.2 k.tb))

/-- IDLE_PER of a port in TB units (R339). -/
def State.idlePer (s : State) (p : Nat) : Nat := max 8 (s.rd (Fld.CRV_P_CFG_IDLE_PER p)) * 4000

/-- Whether an idle slot of a port is due: no pulse has ended for five periods, and one has passed since the last idle slot (R326). -/
def State.idleDue (s : State) (p : Nat) : Bool :=
  decide ((s.getPort p).pulseEnd + 5 * s.idlePer p ≤ s.mirrorNow p) && decide ((s.getSense p).idleAt + s.idlePer p ≤ s.mirrorNow p)

/-- IDLE_SLOT: IDLE_PER µs have passed with port `p` idle. T_tk is Crevasse's own choice within the period, a free value (R326; DESIGN CHOICE,
log entry 1). -/
def execIdleSlot (p : Fin 16) (s : State) : Host.Outcome State Fault Refusal :=
  .next (s.unfrozen (fun s =>
    if s.on (Fld.CRV_P_CFG_IDLE_EN p) && decide (s.crvState p = 0) && (s.getPort p).lines.isEmpty && (s.getPort p).pulse.isNone
        && decide ((s.getSense p).slot = .none) && s.idleDue p then
      let s := s.onSense p (fun x => { x with idleAt := s.mirrorNow p })
      if 2 ≤ (s.getSense p).captures.length then s.countWait p
      else
        let (f, s) := s.draw
        s.planSlot p (s.mirrorNow p + f.toNat % s.idlePer p)
    else s))

/-! ## Reference capture (R335, R336) -/

/-- The walk ends with a status. -/
def State.endWalk (s : State) (w : Walk) (status : Nat) : State :=
  ({ s with walk := none }.wr Fld.CRV_STAT_REF_BUSY 0).endCommand w.desc status w.written

/-- The reference that a sum of captures comes to: the rounded mean of the captures less its own mean (R335). -/
def meanReference (n : Nat) (sum : List Int) : List Int :=
  let m := sum.map (fun v => roundDiv v (max n 1))
  let own := roundDiv (sumInt m) 256
  m.map (fun v => clampInt (-32768) 32767 (v - own))

/-- The classes of a walk whose last listed nozzle is `n`. -/
def Walk.lastOf (w : Walk) (n : Nat) : List Nat :=
  [1, 2, 3, 4, 5].filter (fun c => w.entries.contains (c, n) && w.entries.all (fun e => decide (e.1 ≠ c) || decide (e.2 ≤ n)))

/-- The references that are due after nozzle `n` of the final pass are written. -/
def State.writeReferences (s : State) (w : Walk) (n : Nat) : Walk × State :=
  (w.lastOf n).foldl (fun acc c =>
    match Store.get (fun _ => none) acc.1.sums c with
    | none => acc
    | some (k, sum) =>
      let s := acc.2.setSamples (Reg.CRV_REF w.port ((c - 1) * 128)) (meanReference k sum)
      ({ acc.1 with written := acc.1.written + 1 }, s.wr ⟨Reg.CRV_P_REF w.port, c - 1, c - 1⟩ 1)) (w, s)

/-- A capture joins the accumulators of the classes that list its nozzle. -/
def Walk.add (w : Walk) (n : Nat) (x : List Int) : Walk :=
  [1, 2, 3, 4, 5].foldl (fun w c =>
    if w.entries.contains (c, n) then
      let old := (Store.get (fun _ => none) w.sums c).getD (0, List.replicate 256 0)
      { w with sums := Store.put (fun _ => none) w.sums c (some (old.1 + 1, List.zipWith (· + ·) old.2 x)) }
    else w) w

/-- Whether a product of another context is in flight on port `p` (R134). -/
def State.printsOn (s : State) (p : Nat) : Bool :=
  s.liveCtxs.any (fun c => decide (c ≠ 0) && s.ctxOnPort c p && !(s.getCtx c).inflight.isEmpty)

/-- How a CREVASSE_REF ends before its next tickle: its port has been retired (R7), a product or a gate has stopped it (R134, R336), or its
head has refused SENSE_NEXT (DESIGN CHOICE, log entry 116). -/
def State.walkStop (s : State) (w : Walk) : Option Nat :=
  if !s.portPresent w.port then some Status.unitAbsent
  else if w.halt || s.printsOn w.port || s.gated w.port then some Status.busy
  else if decide (s.portMode w.port = 2) && (s.getSense w.port).noHead then some Status.ctxState
  else none

/-- One tickle of the walk with its capture, after which the references that are due are written (R335). The first tickle since READY is a
RESET: the pass goes on from nozzle 0 (R322; DESIGN CHOICE, log entry 116). -/
def State.walkTickle (s : State) (w : Walk) (samples : List (BitVec 14)) (mark : Nat) : State :=
  let p := w.port
  let n := if mark = 2 then 0 else w.next
  let now := s.mirrorNow p
  let s := s.driveTickle p mark now
  let w := { w.add n (capture256 samples) with after := now + 40000 }
  let final := decide (w.avg ≤ w.pass + 1)
  let (w, s) := if final then s.writeReferences w n else (w, s)
  if n + 1 < s.headNoz p then { s with walk := some { w with next := n + 1 } }
  else if final then s.endWalk w Status.ok
  else ({ s with walk := some { w with next := 0, pass := w.pass + 1 } }).senseNext p 2

/-- REF_WALK_TICKLE: 10 µs later, the walk drives its next tickle and sums its capture, or stops. It waits for its port to be READY, and
writes SENSE_NEXT again where that has not had RESULT 0 (R321, R335, R336; log entry 116). -/
def execRefWalkTickle (samples : List (BitVec 14)) (s : State) : Host.Outcome State Fault Refusal :=
  .next (s.unfrozen (fun s =>
    match s.walk with
    | none => s
    | some w =>
      let p := w.port
      let mark := if (s.getSense p).first || decide (w.next = 0) then 2 else 0
      match s.walkStop w with
      | some st => s.endWalk w st
      | none =>
        if s.mirrorNow p < w.after || !s.portReady p || s.sensePending p then s
        else if s.markWaits p mark then s.senseNext p mark
        else s.walkTickle w samples mark))

end Sys2Proof.Machine
end

