-- ==== Sys2Proof/Machine/Neve.lean ====
section
/-! DEFINITION. The Névé link: training, failure, head registers and telemetry (R254 to R268, R288, R294, R321,
spec/07_head_ports.md). -/

namespace Sys2Proof.Machine

/-! ## Training (R261 to R264) -/

def State.nvStage (s : State) (p : Nat) : Nat := s.rd (Fld.NV_STAT_STAGE p)

/-- NV_CFG.VMAX as it applies (R288). -/
def State.nvVmax (s : State) (p : Nat) : Nat := max 1 (min 2 (s.rd (Fld.NV_CFG_VMAX p)))

/-- The link of a port goes to a stage. Where its rate changes with it, block lock is lost and the mirror of the island calibrates afresh
(R139, R255). -/
def State.nvEnter (s : State) (p stage : Nat) : State :=
  let old := s.clockRate p
  let s := (s.wr (Fld.NV_STAT_STAGE p) stage).onNeve p (fun n => { n with same := 0, last := [] })
  if s.clockRate p = old then s else (s.wr (Fld.NV_STAT_LOCK p) 0).uncalibrate p

/-- A TRAIN block (R256). -/
def State.sendTrain (s : State) (p stage v vmin rates param1 : Nat) : State :=
  s.emit (.block p 0x2D [stage, v, vmin, rates, 0, 0, param1])

/-- Training begins at HELLO, at 2.5 Gb/s (R261). -/
def State.startTraining (s : State) (p : Nat) : State :=
  if s.portMode p ≠ 2 ∨ ¬ s.on (Fld.PORT_CFG_EN p) ∨ ¬ (s.getNeve p).seqOk then s
  else
    let s := (((s.nvEnter p 1).wr (Fld.NV_STAT_VER p) 0).wr (Fld.NV_STAT_RATE p) 0).linkHreg p
    let s := s.onNeve p (fun n => { n with trips := [], failed := false, retry := .none, reload := false })
    s.sendTrain p 0 (s.nvVmax p) 1 7 0

/-- A series of training begins with no rate excluded (R263). -/
def State.startSeries (s : State) (p : Nat) : State :=
  (s.onNeve p (fun n => { n with excl := 0, selFails := 0, retry := .none, failed := false })).startTraining p

/-- The NEVE_LINK event. -/
def State.neveEvent (s : State) (p : Nat) : State := s.event 0x14 p []

/-- Training fails into LINK_FAIL, with a retry after 1 s (R262, R263). -/
def State.linkFail (s : State) (p fail : Nat) : State :=
  let s := (s.nvEnter p 0).wr (Fld.NV_STAT_FAIL p) fail
  (s.onNeve p (fun n => { n with failed := true, retry := .series, excl := 0 })).neveEvent p

/-- An attempt fails, with a retry after 1 ms (R262 to R264); `excl` excludes the agreed rate. -/
def State.attemptFail (s : State) (p fail : Nat) (excl : Bool) : State :=
  let bit := if excl then 2 ^ (s.rd (Fld.NV_STAT_RATE p) - 1) else 0
  let s := (s.nvEnter p 0).wr (Fld.NV_STAT_FAIL p) fail
  s.onNeve p (fun n => { n with retry := .again, excl := n.excl ||| bit })

/-- The agreement of R262 from the head's HELLO bytes: LINK_FAIL, or SELECT. -/
def State.agree (s : State) (p : Nat) (b : List Nat) : State :=
  let hmax := b.getD 1 0
  let hmin := b.getD 2 0
  let v := min (s.nvVmax p) hmax
  let s := s.wr (Fld.NV_LAT_HEAD_LAT p) (b.getD 4 0 + 256 * b.getD 5 0)
  if v < max 1 hmin then s.linkFail p 2
  else
    let allowed := if v = 1 then 3 else 7
    let excl := (s.getNeve p).excl
    let m := (b.getD 3 0) &&& s.rd (Fld.NV_CFG_RATES p) &&& allowed &&& (7 - excl % 8)
    if m = 0 then s.linkFail p 3
    else
      let rate := if 4 ≤ m then 3 else if 2 ≤ m then 2 else 1
      let s := ((s.nvEnter p 2).wr (Fld.NV_STAT_VER p) v).wr (Fld.NV_STAT_RATE p) rate
      s.sendTrain p 1 v 1 (2 ^ (rate - 1)) 0

/-- SELECT has ended: 64 more blocks of it go out, both sides change to the agreed rate, and sixteen MEASURE blocks follow (R255, R261). -/
def State.startMeasure (s : State) (p : Nat) : State :=
  let s := (List.range 64).foldl (fun s _ => s.sendTrain p 1 (s.rd (Fld.NV_STAT_VER p)) 1 (2 ^ (s.rd (Fld.NV_STAT_RATE p) - 1)) 0) s
  let s := (s.nvEnter p 3).onNeve p (fun n => { n with selFails := 0, trips := [] })
  (List.range 16).foldl (fun s i => s.sendTrain p 2 (s.nvVmax p) 1 7 i) s

/-- The sixteen returns are in: LINK_LAT, and the range check (R264). `turn` is the TURN of the last return. -/
def State.endMeasure (s : State) (p turn : Nat) : State :=
  let rtts := (s.getNeve p).trips.filterMap (fun e => e.2.map (fun x => x.1))
  let lat := (roundDiv ((twiceMedian rtts : Nat) - 2 * (turn : Int)) 4).toNat
  let s := s.wr (Fld.NV_LAT_LINK_LAT p) lat
  let t := blockPs (s.rd (Fld.NV_STAT_RATE p))
  if s.clat p * 250 + 100000 < (lat + s.rd (Fld.NV_LAT_HEAD_LAT p)) * 250 + 2 * t then s.attemptFail p 4 true
  else (s.nvEnter p 4).sendTrain p 3 (s.nvVmax p) 1 7 0

/-- The link is LINKED: Rose loads the head, and Crevasse its tickle length (R261, R294, R321). -/
def State.linkUpPort (s : State) (p : Nat) : State :=
  let s := (s.wr (Fld.NV_STAT_STAGE p) 5).wr (Fld.NV_STAT_FAIL p) 0
  let s := (s.onNeve p (fun n => { n with sent := [], wrote := [], reload := false })).onSense p (fun x => { x with noHead := false })
  let s := if (s.getPort p).force.isSome then s.startLoad p else s
  s.queueHreg p [⟨.crevasse, true, 0x201, s.l7 p * 10⟩]

/-- How many identical blocks of a stage have come in a row, with this one. -/
def State.countTrain (s : State) (p : Nat) (b : List Nat) : Nat × State :=
  let n := s.getNeve p
  let k := if n.last = b then n.same + 1 else 1
  (k, s.onNeve p (fun n => { n with last := b, same := k }))

/-- A TRAIN block is received with bytes 1 to 7, and its round trip where it is a MEASURE return (R261, R264). A received block means
block lock. -/
def State.receiveTrain (s : State) (p : Nat) (b : List Nat) (rtt : Nat) : State :=
  let st := s.nvStage p
  if st = 0 ∨ 5 ≤ st then s
  else
    let s := s.wr (Fld.NV_STAT_LOCK p) 1
    if b.getD 0 0 + 1 ≠ st then s.onNeve p (fun n => { n with same := 0, last := [] })
    else
      match st with
      | 1 =>
        let r := s.countTrain p b
        if r.1 = 8 then r.2.agree p b else r.2
      | 2 =>
        if b.getD 1 0 = s.rd (Fld.NV_STAT_VER p) ∧ b.getD 3 0 = 2 ^ (s.rd (Fld.NV_STAT_RATE p) - 1) then
          let r := s.countTrain p [1]
          if r.1 = 8 then r.2.startMeasure p else r.2
        else s.onNeve p (fun n => { n with same := 0, last := [] })
      | 3 =>
        let turn := b.getD 4 0 + 256 * b.getD 5 0
        let i := b.getD 6 0
        if 15 < i then s
        else
          let s := s.onNeve p (fun n => { n with trips := Store.put (fun _ => none) n.trips i (some (rtt, turn)) })
          if (s.getNeve p).trips.length = 16 then s.endMeasure p turn else s
      | _ =>
        let r := s.countTrain p [3]
        if r.1 = 8 then r.2.linkUpPort p else r.2

/-- TRAIN: a training block is received. -/
def execTrain (p : Fin 16) (b : List Byte) (rtt : Nat) (s : State) : Host.Outcome State Fault Refusal :=
  .next (s.unfrozen (fun s => State.watch s (s.receiveTrain p ((List.range 7).map (fun i => (b.getD i 0).toNat)) rtt)))

/-- A training stage reaches its timeout (R261 to R263). -/
def State.trainTimeout (s : State) (p : Nat) : State :=
  match s.nvStage p with
  | 1 => s.linkFail p (if s.on (Fld.NV_STAT_LOCK p) then 5 else 1)
  | 2 =>
    let k := (s.getNeve p).selFails + 1
    let s := s.onNeve p (fun n => { n with selFails := k })
    if 3 ≤ k then s.linkFail p 5 else s.attemptFail p 5 false
  | 3 => s.attemptFail p 5 true
  | 4 => s.attemptFail p 5 true
  | _ => s

/-- TRAINING_TIMEOUT: 10 ms have passed in the stage. -/
def execTrainingTimeout (p : Fin 16) (s : State) : Host.Outcome State Fault Refusal :=
  .next (s.unfrozen (fun s => State.watch s (s.trainTimeout p)))

/-- TRAINING_RETRY: 1 ms has passed since a failed attempt or a loss of the link, or 1 s since LINK_FAIL (R262, R263, R265). -/
def execTrainingRetry (p : Fin 16) (s : State) : Host.Outcome State Fault Refusal :=
  .next (s.unfrozen (fun s => State.watch s (
    match (s.getNeve p).retry with
    | .none => s
    | .again => s.startTraining p
    | .series => if s.on (Fld.NV_CFG_AUTO_RETRAIN p) then s.startSeries p else s)))

/-- A write of NV_CFG: CLAT only while EN is clear; RETRAIN restarts training (R243, R261, R288). -/
def State.writeNvCfg (s : State) (m : Master) (p : Nat) (v : Word) : State :=
  let clat := s.rd (Fld.NV_CFG_CLAT p)
  let t := s.writeCode m (Reg.NV_CFG p) v
  let t := if s.on (Fld.PORT_CFG_EN p) then t.wr (Fld.NV_CFG_CLAT p) clat else t
  if bitOf v 30 then t.startSeries p else t

/-- RETRAIN: a master writes NV_CFG with RETRAIN set. -/
def execRetrain (m : Master) (p : Fin 16) (v : Word) (s : State) : Host.Outcome State Fault Refusal :=
  .next (s.unfrozen (fun s => State.watch s (s.accessBy m (Reg.NV_CFG p) (fun s => s.writeNvCfg m p (v ||| 0x40000000)))))

/-! ## Loss and errors (R265 to R267) -/

/-- A link that was LINKED is down: reported, counted, and trained again where AUTO_RETRAIN is set (R265). -/
def State.neveLost (s : State) (p : Nat) : State :=
  let s := s.report (0x060 + p) (s.getReg (Reg.NV_STAT p))
  let s := (((s.nvEnter p 0).wr (Fld.NV_STAT_LOCK p) 0).wr (Fld.NV_STAT_FAIL p) 6).linkHreg p
  let s := (s.bumpSat (Fld.NV_CNT2_DOWN p)).neveEvent p
  s.onNeve p (fun n => { n with retry := if s.on (Fld.NV_CFG_AUTO_RETRAIN p) then .again else .none })

/-- The invalid sync headers of a list: 0b00 and 0b11 (R254). -/
def badHeaders (hdrs : List (BitVec 2)) : Nat := (hdrs.filter (fun h => decide (h = 0 ∨ h = 3))).length

/-- A port receives the sync headers of one window of its block lock and of its BER monitor. The invalid ones are counted; sixteen of them
end block lock or signal a high error rate (R254, R265, R288; PRESUMED, Clause 49, log entry 114). -/
def State.takeHeaders (s : State) (p : Fin 16) (hdrs : List (BitVec 2)) : State :=
  s.unfrozen (fun s =>
    if s.portMode p ≠ 2 ∨ ¬ (s.getNeve p).seqOk ∨ ¬ s.on (Fld.PORT_CFG_EN p) then s
    else
      let t := s.wr (Fld.NV_CNT_SH_ERR p) (satAdd 16 (s.rd (Fld.NV_CNT_SH_ERR p)) (badHeaders hdrs))
      if badHeaders hdrs < 16 then t
      else if s.nvStage p = 5 then State.watch s (t.neveLost p)
      else t.wr (Fld.NV_STAT_LOCK p) 0)

/-- NEVE_DOWN: a window of sync headers, given with its port. -/
def execNeveDown (w : Fin 16 × List (BitVec 2)) (s : State) : Host.Outcome State Fault Refusal := .next (s.takeHeaders w.1 w.2)

/-- The product whose line was sent with a tag (R266). -/
def State.tagOwner (s : State) (p tag : Nat) : Option (Nat × Nat) := Store.get (fun _ => none) (s.getPort p).owners tag

/-- A LINE_ERR of a head, with its tag and reason: reported, counted, and the product that owns the line aborts (R266). -/
def State.lineError (s : State) (p tag reason : Nat) : State :=
  let s := (s.report (0x070 + p) (BitVec.ofNat 32 (tag + 256 * reason))).bumpSat (Fld.NV_CNT_LINE_ERR p)
  match s.tagOwner p tag with
  | none => s
  | some (c, id) => (s.abortProd c id (.portOnly p) Status.abortedFault).endProds c

/-- LINE_ERR: the head has not strobed the line with a tag. -/
def execLineErr (p : Fin 16) (tag reason : Byte) (s : State) : Host.Outcome State Fault Refusal :=
  .next (s.unfrozen (fun s =>
    if s.portMode p = 2 ∧ s.linked p then s.lineError p tag.toNat reason.toNat else s))

/-- TELEM: an item is stored; items 4 to 7 come only in version 2 (R262, R267). -/
def execTelem (p : Fin 16) (item : Fin 8) (v : BitVec 16) (s : State) : Host.Outcome State Fault Refusal :=
  .next (s.unfrozen (fun s =>
    if s.portMode p = 2 ∧ s.linked p ∧ (item.val < 4 ∨ s.rd (Fld.NV_STAT_VER p) = 2) then
      (s.wr (Fld.NV_TEL_VALUE p item) v.toNat).wr (Fld.NV_TEL_FRESH p item) 1
    else s))

/-- UNKNOWN_BLOCK: a control block of a type the port does not know (R256). -/
def execUnknownBlock (p : Fin 16) (s : State) : Host.Outcome State Fault Refusal :=
  .next (s.unfrozen (fun s => if s.portMode p = 2 && s.domOn (.hpg (portGroup p)) then s.bumpSat (Fld.NV_CNT2_UNKNOWN p) else s))

/-! ## Head registers (R268, R288, R294, R321) -/

/-- A write of NV_HREG_CMD: GO starts an access unless one is outstanding or the link is not LINKED. -/
def State.writeHregCmd (s : State) (m : Master) (p : Nat) (v : Word) : State :=
  let s := s.writeCode m (Reg.NV_HREG_CMD p) v
  if bitOf v 31 && s.portMode p = 2 && s.linked p && !s.on (Fld.NV_HREG_CMD_BUSY p) then
    s.queueHreg p [⟨.master, bitOf v 16, bitsOf v 15 0, (s.getReg (Reg.NV_HREG_DATA p)).toNat⟩]
  else s

/-- HREG_GO: a master writes NV_HREG_CMD with GO set. -/
def execHregGo (m : Master) (p : Fin 16) (v : Word) (s : State) : Host.Outcome State Fault Refusal :=
  .next (s.unfrozen (fun s => s.accessBy m (Reg.NV_HREG_CMD p) (fun s => s.writeHregCmd m p (v ||| 0x80000000))))

/-- The head registers written since the last COMMIT apply (R293). -/
def Neve.commit (n : Neve) : Neve :=
  { n with sent := n.wrote ++ n.sent.filter (fun w => n.wrote.all (fun x => decide (x.1 ≠ w.1))), wrote := [] }

/-- The outstanding access of a port has ended with a RESULT: 0 done, 1 timeout, 2 head error. -/
def State.endHreg (s : State) (p : Nat) (o : HregOp) (result : Nat) (data : Word) : State :=
  let s := s.onNeve p (fun n => { n with hreg := n.hreg.tail })
  let s :=
    match o.owner with
    | .master =>
      let s := s.wr (Fld.NV_HREG_CMD_RESULT p) result
      if result = 0 ∧ ¬ o.write then s.setReg (Reg.NV_HREG_DATA p) data else s
    | .rose =>
      if result = 0 then
        if o.addr = 0x1FF then (s.onNeve p Neve.commit).onPort p (fun x => { x with loadErr := false })
        else s.onNeve p (fun n => { n with wrote := (o.addr, o.data) :: n.wrote })
      else
        (s.onNeve p (fun n => { n with hreg := n.hreg.filter (fun y => decide (y.owner ≠ HregOwner.rose)), reload := true })).onPort p
          (fun x => { x with loadErr := true })
    | .crevasse =>
      if result = 0 then (if o.addr = 0x200 then s.onSense p (fun x => { x with next := true }) else s)
      else
        let s := s.onSense p (fun x => { x with noHead := x.noHead || decide (result = 2) })
        match (s.getSense p).slot with
        | .planned _ => (s.onSense p (fun x => { x with slot := .none })).countWait p
        | _ => s
  s.sendHreg p

/-- HREG_REPLY: the head answers the outstanding access with a code (R256); an answer of the other kind is no reply to it. -/
def execHregReply (p : Fin 16) (code : Byte) (data : Word) (s : State) : Host.Outcome State Fault Refusal :=
  .next (s.unfrozen (fun s =>
    match (s.getNeve p).hreg with
    | [] => s
    | o :: _ =>
      if s.portMode p ≠ 2 ∨ ¬ s.linked p then s
      else if code = 0xFF then
        let t := s.endHreg p o 2 0
        State.watch s (if o.owner = .rose then t.wr (Fld.ROSE_STAT_ERR p) 10 |>.wr (Fld.ROSE_STAT_VALID p) 0 else t)
      else if (o.write ∧ code = 0x81) ∨ (¬ o.write ∧ code = 0x82) then State.watch s (s.endHreg p o 0 data)
      else s))

/-- HREG_TIMEOUT: 100 µs have passed without a reply (R268). -/
def execHregTimeout (p : Fin 16) (s : State) : Host.Outcome State Fault Refusal :=
  .next (s.unfrozen (fun s =>
    match (s.getNeve p).hreg with
    | [] => s
    | o :: _ =>
      let t := s.endHreg p o 1 0
      State.watch s (if o.owner = .rose then t.wr (Fld.ROSE_STAT_ERR p) 10 |>.wr (Fld.ROSE_STAT_VALID p) 0 else t)))

/-- HEAD_LOAD_RETRY: 1 ms has passed since a failed head load, and the link is still LINKED (R294). -/
def execHeadLoadRetry (p : Fin 16) (s : State) : Host.Outcome State Fault Refusal :=
  .next (s.unfrozen (fun s => if (s.getNeve p).reload && s.portMode p = 2 && s.linked p then s.startLoad p else s))

end Sys2Proof.Machine
end

