-- ==== Sys2Proof/Machine/HeadPorts.lean ====
section
/-! DEFINITION. The head ports: enabling, shifting, latching, judging, strobing, the strobe watchdog and the gates (R242 to R253,
R270 to R281, R289 to R292, R302, R340, spec/07_head_ports.md). -/

namespace Sys2Proof.Machine

/-! ## Enabling (R242, R243, R279) -/

/-- The link of a port that is disabled stops: INHIBIT, then electrical idle (R279). -/
def State.stopLink (s : State) (p : Nat) : State :=
  if s.portMode p ≠ 2 then s
  else
    let s := if s.linked p then s.inhibit p 1 else s
    let s := (((s.nvEnter p 0).wr (Fld.NV_STAT_LOCK p) 0).wr (Fld.NV_STAT_VER p) 0).wr (Fld.NV_STAT_RATE p) 0
    ((s.linkHreg p).onNeve p (fun n => { n with failed := false, retry := .none })).emit (.idle p)

/-- A write of PORT_CFG: while EN is set only EN changes; setting it starts training in mode C (R243, R261, R279). A change to or from mode C
changes the clock of the island (R255). -/
def State.writePortCfg (s : State) (m : Master) (p : Nat) (v : Word) : State :=
  let t := if s.on (Fld.PORT_CFG_EN p) then s.wrBit (Fld.PORT_CFG_EN p) (bitOf v 31) else s.writeCode m (Reg.PORT_CFG p) v
  let t := if t.localPs p = s.localPs p then t else t.uncalibrate p
  if bitOf v 31 then (if s.on (Fld.PORT_CFG_EN p) then t else t.startSeries p)
  else if s.on (Fld.PORT_CFG_EN p) then t.stopLink p
  else t

/-- PORT_ENABLE: a master writes PORT_CFG with EN set. -/
def execPortEnable (m : Master) (p : Fin 16) (v : Word) (s : State) : Host.Outcome State Fault Refusal :=
  .next (s.unfrozen (fun s => State.watch s (s.accessBy m (Reg.PORT_CFG p) (fun s => s.writePortCfg m p (v ||| 0x80000000)))))

/-- PORT_DISABLE: a master writes PORT_CFG with EN clear. -/
def execPortDisable (m : Master) (p : Fin 16) (v : Word) (s : State) : Host.Outcome State Fault Refusal :=
  .next (s.unfrozen (fun s => State.watch s (s.accessBy m (Reg.PORT_CFG p) (fun s => s.writePortCfg m p (v &&& 0x7FFFFFFF)))))

/-- Whether 64 sample periods have passed since the entry ramp of a port began (R311). -/
def State.rampPast (s : State) (p : Nat) : Bool := (s.getWave p).entry.any (fun t => decide (t + 5120 ≤ s.mirrorNow p))

/-- Whether the entry ramp of a port has ended at the REST_CODE now in force. -/
def State.rampEnded (s : State) (p : Nat) : Bool := s.rampPast p && decide ((s.getWave p).code = s.restCode p)

/-- ENTRY_RAMP_DONE: the ramp to REST_CODE has ended with every other condition of READY holding: the port is READY, and computes S_p
and PORT_SPACE (R246, R311). A ramp that has not begun begins; one whose REST_CODE has changed goes on to the new one. -/
def execEntryRampDone (p : Fin 16) (s : State) : Host.Outcome State Fault Refusal :=
  .next (s.unfrozen (fun s =>
    if s.portEligible p && !(s.getPort p).ramped then
      if !s.rampEnded p then (if (s.getWave p).entry.isNone || s.rampPast p then s.startEntry p else s)
      else
        let s := s.onPort p (fun x => { x with ramped := true, wave := { x.wave with ramp := none, entry := none } })
        let s := (s.wr (Fld.PORT_SP_VALUE p) (patternOf 24 (s.portSp p))).wr (Fld.PORT_SPACE_VALUE p) (s.portSpace p)
        s.updateGreq p
    else s))

/-- A table frame: the masks on logical lane 0, bit 0 of the first one first, and the edges of LAT and STB1 (R291). -/
def State.sendTable (s : State) (p : Nat) : State :=
  let bit := bitPs (s.portMode p) (s.rd (Fld.PORT_CFG_RATE p))
  let bits := (s.forcedMasks p).flatMap (fun m => (List.range 8).map (fun i => m.testBit i))
  let lanes := (List.range (if s.portMode p = 1 then 8 else 16)).map (fun l => if s.laneOf p 0 = l then bits else List.replicate 24 false)
  let lat := 24 * bit + max (s.tSl p * 1600) bit
  let low := lat + s.tLatw p * 1600
  (s.onPort p (fun x => { x with masks := some (s.forcedMasks p), tableEnd := s.mirrorNow p + tbUp (s.tablePs p) })).emit
    (.table p lanes [24 * bit, lat, low, low + bit])

/-- QUIET_POINT: port `p` is READY with no line order, no pulse, no table frame and no head load: Rose puts its settings in force, and in
modes A and B sends a table frame where the head's masks differ or are unknown (R306). -/
def execQuietPoint (p : Fin 16) (s : State) : Host.Outcome State Fault Refusal :=
  .next (s.unfrozen (fun s =>
    if s.portReady p && (s.getPort p).lines.isEmpty && (s.getPort p).pulse.isNone && !s.loading p &&
        decide ((s.getPort p).tableEnd ≤ s.mirrorNow p) then
      let t := (s.applyRose p).updateGreq p
      let t :=
        if t.on (Fld.ROSE_STAT_VALID p) && decide (t.portMode p ≠ 2) && decide ((t.getPort p).masks ≠ some (t.forcedMasks p)) then
          t.sendTable p
        else t
      State.watch s t
    else s))

/-! ## Shifting (R245, R249, R250, R257) -/

/-- A port's entry as levels by nozzle. -/
def Entry.level (e : Entry) (n : Nat) : Nat := if e.void then 0 else Store.get (fun _ => 0) e.levels n

/-- The nozzles of logical lane `l`, first shifted first (R250). -/
def State.laneNozzles (s : State) (p lanes l : Nat) : List Nat :=
  let k := s.rd (Fld.PORT_CFG_NOZ p) / lanes
  let ns := (List.range k).map (fun q => if s.on (Fld.PORT_LAYOUT_BLOCKED p) then l * k + q else q * lanes + l)
  if s.on (Fld.PORT_LAYOUT_NOZ_DESC p) then ns.reverse else ns

/-- The bit stream of logical lane `l` (R250). -/
def State.laneBits (s : State) (p lanes l : Nat) (e : Entry) : List Bool :=
  let ns := s.laneNozzles p lanes l
  let hi := s.on (Fld.PORT_LAYOUT_HI_FIRST p)
  let first := fun n => (e.level n).testBit (if hi then 1 else 0)
  let second := fun n => (e.level n).testBit (if hi then 0 else 1)
  if s.on (Fld.PORT_LAYOUT_PLANES p) then ns.map first ++ ns.map second else ns.flatMap (fun n => [first n, second n])

/-- The bit streams by physical lane (R250). -/
def State.laneStreams (s : State) (p : Nat) (e : Entry) : List (List Bool) :=
  let lanes := if s.portMode p = 1 then 8 else 16
  (List.range lanes).map (fun phys =>
    match (List.range lanes).find? (fun l => decide (s.laneOf p l = phys)) with
    | none => []
    | some l => s.laneBits p lanes l e)

/-- The payload bytes of a line's frame (R187, R257). -/
def State.framePayload (s : State) (p : Nat) (e : Entry) : List Nat :=
  (List.range (s.rd (Fld.PORT_CFG_NOZ p) / 4)).map (fun q =>
    e.level (4 * q) + 4 * e.level (4 * q + 1) + 16 * e.level (4 * q + 2) + 64 * e.level (4 * q + 3))

/-- One bit of the CRC-32 of IEEE 802.3, least significant bit first (R257). -/
def crcBit (c : Nat) : Nat := if c % 2 = 1 then (c / 2) ^^^ 0xEDB88320 else c / 2

/-- One byte of the CRC. -/
def crcByte (c b : Nat) : Nat := crcBit (crcBit (crcBit (crcBit (crcBit (crcBit (crcBit (crcBit (c ^^^ b))))))))

/-- The CRC-32 of a list of bytes: initial value all ones, result complemented (R257, R533). -/
def crc32 (l : List Nat) : Nat := 0xFFFFFFFF - l.foldl crcByte 0xFFFFFFFF

/-- A line of a port replaced, found by its key. -/
def State.setLine (s : State) (p : Nat) (l : PLine) : State :=
  s.onPort p (fun x => { x with lines := x.lines.map (fun y => if y.key = l.key then l else y) })

/-- The line that a port may begin to shift at TB `now`: the first not yet shifted, when every line ahead of it has been latched for `gap`
TB units (R245). -/
def nextToShift (gap now : Nat) : List PLine → Option PLine
  | [] => none
  | l :: t =>
    match l.shift with
    | .waiting => some l
    | .shifting _ => none
    | .latched _ at_ => if at_ + gap ≤ now then nextToShift gap now t else none

/-- How long after a latch the next shift may begin: 3.2 ns after LAT falls, or at once after the LATCH block (R245, R253). -/
def State.shiftGap (s : State) (p : Nat) : Nat := if s.portMode p = 2 then 0 else 13

/-- The shift of a line begins: its bit streams, or its frame with a tag (R250, R257). -/
def State.beginShift (s : State) (p : Nat) (l : PLine) (e : Entry) : State :=
  let now := s.mirrorNow p
  if s.portMode p = 2 then
    let tag := (s.getPort p).tag
    let bytes := s.framePayload p e
    let own : Option (Nat × Nat) := some (l.key.ctx, l.key.prod)
    let s := s.setLine p { l with shift := .shifting now, tag := tag }
    let s := s.onPort p (fun x => { x with tag := (tag + 1) % 256, owners := Store.put (fun _ => none) x.owners tag own })
    s.emit (.frame p tag bytes (crc32 bytes))
  else (s.setLine p { l with shift := .shifting now }).emit (.shift p (s.laneStreams p e))

/-- The line of a port is freed without a strobe (R164, R247). -/
def State.freeLine (s : State) (p : Nat) (l : PLine) : State :=
  (s.onPort p (fun x => { x with lines := x.lines.filter (fun y => decide (y.key ≠ l.key)) })).purgeVoids p

/-- The decoder of the line FIFO checks a line, and the line is shifted. It finds an error only where an injection falls on the check: a
correctable one is corrected, of an uncorrectable one the line is not strobed and its product aborts (R482, R496). The syndrome is a
free value (DESIGN CHOICE, log entry 1). -/
def State.fifoShift (s : State) (p : Nat) (l : PLine) (e : Entry) : State :=
  if !s.injDue [0x090 + p, 0x0A0 + p] then s.beginShift p l e
  else if s.on Fld.RAKE_INJ_CTL_RAIL then (s.injRail.beginShift p l e).injFired false
  else
    let (f, s) := s.drawWord
    if s.rd Fld.RAKE_INJ_CTL_FLIP < 2 then ((s.reportInj (0x090 + p) f none true false).beginShift p l e).injFired false
    else
      ((((s.reportInj (0x0A0 + p) f none true false).freeLine p l).abortProd l.key.ctx l.key.prod .underrun Status.abortedFault).endProds
        l.key.ctx).injFired false

/-- LINE_SHIFT: the entry at the head of the port's FIFO is complete, the previous line is latched and no table frame is under way (R245,
R291). -/
def execLineShift (p : Fin 16) (s : State) : Host.Outcome State Fault Refusal :=
  .next (s.unfrozen (fun s =>
    if !s.portReady p || decide (s.mirrorNow p < (s.getPort p).tableEnd) then s
    else
      let s := s.purgeVoids p
      match nextToShift (s.shiftGap p) (s.mirrorNow p) (s.getPort p).lines with
      | none => s
      | some l =>
        match l.entry with
        | none => s
        | some e => if e.void then s else s.fifoShift p l e))

/-! ## Latching (R245, R302, R304) -/

/-- The nozzles of an entry with a non-zero level, below NOZ (R302). -/
def State.fillOf (s : State) (p : Nat) (e : Entry) : Nat :=
  ((List.range (s.rd (Fld.PORT_CFG_NOZ p))).filter (fun n => decide (e.level n ≠ 0))).length

/-- The instant of the latch of a line whose shift began at `start`, in TB units (R245). -/
def State.latchAt (s : State) (p start : Nat) : Nat :=
  let free := (s.getPort p).pulseEnd * 250 + s.tLh p * 1600
  if s.portMode p = 2 then
    tbUp (max (start * 250 + (s.rd (Fld.PORT_CFG_NOZ p) / 32 + 2) * blockPs (s.rd (Fld.NV_STAT_RATE p))) free)
  else
    let half := bitPs (s.portMode p) (s.rd (Fld.PORT_CFG_RATE p)) / 2
    tbUp (max (start * 250 + s.shiftPs p - half + s.tSl p * 1600) free + s.tLatw p * 1600)

/-- The CAL_EXTRAPOLATED event of a line outside its record's band, once for each product on the port (R304). -/
def State.extrapolated (s : State) (p : Nat) (l : PLine) (f : Nat) : State :=
  let r := s.recordInUse p
  if l.key.ctx = 0 ∨ (r.2.1 ≤ f ∧ f ≤ r.2.2) then s
  else
    match s.findProd l.key.ctx l.key.prod with
    | none => s
    | some x =>
      if x.xtrap.contains p then s
      else
        let s := (s.setProd l.key.ctx { x with xtrap := p :: x.xtrap }).bumpSat (Fld.ROSE_CNT_XTRAP_COUNT p)
        let slot := if s.forcedThermal p then 8 else s.forcedSlot p
        s.event 0x0A p [BitVec.ofNat 32 (slot * 2 ^ 16 + f), BitVec.ofNat 32 (r.2.2 * 2 ^ 16 + r.2.1), BitVec.ofNat 32 l.key.ctx,
          dwAt x.job.dw 2]

/-- LINE_LATCH: the shifted line is latched once the line before it has been strobed and its pulse has ended (R245). -/
def execLineLatch (p : Fin 16) (s : State) : Host.Outcome State Fault Refusal :=
  .next (s.unfrozen (fun s =>
    match (s.getPort p).lines with
    | [] => s
    | l :: _ =>
      match l.shift, l.entry with
      | .shifting start, some e =>
        if (s.getPort p).pulse.isSome || decide (s.mirrorNow p < s.latchAt p start) then s
        else
          let f := s.fillOf p e
          let t := s.setLine p { l with shift := .latched start (s.latchAt p start), fill := f, scale := s.roseScale p (s.recordInUse p) f }
          let t := t.wr (Fld.ROSE_STAT_LAST_FILL p) f
          let t := if s.portMode p = 2 then t.emit (.block p 0x55 [l.tag]) else t.emit (.latch p)
          (t.extrapolated p l f).purgeVoids p
      | _, _ => s))

/-! ## Fire events and judgement (R247) -/

/-- FIRE_EVENT: the fire event of the earliest line committed on port `p` and not yet arrived (R161, R247, R327). -/
def execFireEvent (p : Fin 16) (s : State) : Host.Outcome State Fault Refusal :=
  .next (s.unfrozen (fun s =>
    match (s.getPort p).lines.find? (fun l => l.fire.isSome && !l.arrived) with
    | none => s
    | some l => ((s.setLine p { l with arrived := true }).slotCollision p (l.fire.getD 0))))

/-- A line freed late: its product is aborted ABORTED_UNDERRUN, and a line that the port has not found in its FIFO is counted (R35, R198,
R247). -/
def State.lateLine (s : State) (p : Nat) (l : PLine) : State :=
  let s := if l.entry.isNone then s.bumpSat Fld.ESP_CNT_LATE_COUNT else s
  ((s.freeLine p l).abortProd l.key.ctx l.key.prod .underrun Status.abortedUnderrun).endProds l.key.ctx

/-- T − S_p of a line: its shift start (R246). -/
def State.shiftDue (s : State) (p : Nat) (l : PLine) : Int := l.fire.getD 0 - s.leadNow p

/-- Whether a line's shift began by T − S_p (R247). -/
def State.shiftedInTime (s : State) (p : Nat) (l : PLine) : Bool :=
  match l.shift with
  | .waiting => false
  | .shifting t => decide ((t : Int) ≤ s.shiftDue p l)
  | .latched t _ => decide ((t : Int) ≤ s.shiftDue p l)

/-- LINE_JUDGE: the first line whose fire event has arrived is judged, at the later of that and T − S_p (R247). -/
def execLineJudge (p : Fin 16) (s : State) : Host.Outcome State Fault Refusal :=
  .next (s.unfrozen (fun s =>
    match (s.getPort p).lines.find? (fun l => l.arrived && !l.judged) with
    | none => s
    | some l =>
      if (s.mirrorNow p : Int) < s.shiftDue p l then s
      else if s.shiftedInTime p l then s.setLine p { l with judged := true } else s.lateLine p l))

/-! ## Strobing (R164, R247, R259, R270, R290, R340) -/

/-- The nozzles of an entry below NOZ that carry a level. -/
def State.levelCount (s : State) (p : Nat) (e : Entry) (v : Nat) : Nat :=
  ((List.range (s.rd (Fld.PORT_CFG_NOZ p))).filter (fun n => decide (e.level n = v))).length

/-- A drop counter of 48 bits, up by `n` (R340, R341). -/
def State.addDrops (s : State) (lo : Nat) (n : Nat) : State := s.wr64 lo ((s.rd64 lo + n) % 2 ^ 48)

/-- The drops of a strobed line join the port's counters (R340). -/
def State.countDrops (s : State) (p : Nat) (e : Entry) : State :=
  ((s.addDrops (Reg.CONS_P_DROP1_LO p) (s.levelCount p e 1)).addDrops (Reg.CONS_P_DROP2_LO p) (s.levelCount p e 2)).addDrops
    (Reg.CONS_P_DROP3_LO p) (s.levelCount p e 3)

/-- The window starts of a line after the first, the last being its pulse end, in 2 ns units (R290, R296, R302). -/
def State.strobeEdges (s : State) (p scale : Nat) : List Nat :=
  if s.forcedThermal p then
    let e := (binEdges (s.forcedHeats p)).map (scaleEdge (binSMin (s.forcedHeats p)) scale)
    let e := (if s.portMode p = 2 then e else lengthen 5 e).map (fun x => min x (s.forcedMaxlen p))
    distinct e.tail
  else s.headEnds p

/-- The line at the front of a port is strobed. -/
def State.strobeLine (s : State) (p : Nat) (l : PLine) (e : Entry) (fire : Nat) : State :=
  let len := s.pulseLen p l.scale
  let at_ := (s.strobeAt p fire + 9) / 10
  let s := (s.bump (Fld.PORT_CNT_STROBE_COUNT p)).countDrops p e
  let s := if s.forcedThermal p && s.windowSaturates p l.scale then s.bumpSat (Fld.ROSE_CNT_SAT_COUNT p) else s
  let s := s.startPlay p (if s.forcedThermal p then none else some (s.forcedSlot p)) l.scale fire len true
  let pn : PulseNow := ⟨fire, len, l.key.ctx⟩
  let s := s.onPort p (fun x => { x with pulse := some pn, pulseEnd := at_ + len, prevFire := x.lastFire, lastFire := some fire, lastTag := l.tag })
  let s := s.onSense p (fun x => { x with strobed := x.strobed + 1 })
  let s := if s.portMode p = 2 then s.strobeBlock p l.tag fire
    else s.emit (.strobe p fire (s.strobeTap p fire) (s.strobeEdges p l.scale))
  ((s.expectEcho p fire l.tag).freeLine p l).endProds l.key.ctx

/-- Whether a latched line keeps T_LS before its strobe (R247). -/
def State.latchedInTime (s : State) (p : Nat) (l : PLine) (fire : Nat) : Bool :=
  match l.shift with
  | .latched _ t => decide (t * 10 + s.tLs p * 64 ≤ s.strobeAt p fire)
  | _ => false

/-- A parity error of the waveform RAM, which only a port that shapes its pulses reads: its byte offset is a free value, and the pulse in
progress ends (R310, R482; DESIGN CHOICE, log entry 1). -/
def State.waveParity (s : State) (p : Nat) : State :=
  if s.forcedThermal p then s
  else
    let (f, s) := s.drawWord
    ((s.report (0x080 + p) f).stopPulse p).rampWave p (s.restCode p) 8

/-- STROBE: the time has come for the strobe of the line at the front of port `p`, which has been judged. It is strobed, withheld by a gate,
or freed when its strobe could not keep T_LS; a head in SHUTDOWN strobes no further line (R167, R247, R259, R273, R274, R287, R470). -/
def execStrobe (p : Fin 16) (s : State) : Host.Outcome State Fault Refusal :=
  .next (s.unfrozen (fun s =>
    match (s.getPort p).lines with
    | [] => s
    | l :: _ =>
      match l.fire, l.entry with
      | some fire, some e =>
        if !l.judged || !s.strobeDue p fire || decide (s.rd (Fld.HK_CH_VAL_STATE (40 + p)) = 3) then s
        else if !s.latchedInTime p l fire then s.lateLine p l
        else if s.gated p then
          (((s.bumpSat (Fld.PORT_CNT_INHIB_COUNT p)).freeLine p l).abortProd l.key.ctx l.key.prod (.portOnly p) Status.abortedGate).endProds
            l.key.ctx
        else State.injectAt (0x080 + p) (fun s => (s.strobeLine p l e fire).waveParity p) (fun s => s.strobeLine p l e fire) s
      | _, _ => s))

/-- PULSE_END: STB1 falls, the stream returns to REST_CODE, and Crevasse may start a sense slot (R290, R297, R325). The output of a port that
has left READY meanwhile ramps to 0 (R281, R311). -/
def execPulseEnd (p : Fin 16) (s : State) : Host.Outcome State Fault Refusal :=
  .next (s.unfrozen (fun s =>
    match (s.getPort p).pulse with
    | none => s
    | some x =>
      if s.mirrorNow p < (s.getPort p).pulseEnd then s
      else
        let s := (s.onPort p (fun y => { y with pulse := none })).playNow p
        (if s.portReady p then s else s.rampWave p 0 8).slotAfter p x))

/-! ## The strobe watchdog (R270, R271) -/

def State.wdOn (s : State) (p : Nat) : Bool := decide (s.rd (Fld.PORT_WD_CFG_MISS_LIM p) ≠ 0)

/-- STROBE_WD reports a kind: 1 MISS_LIMIT, 2 SPURIOUS, 3 STUCK. -/
def State.wdReport (s : State) (p kind : Nat) : State :=
  let w := BitVec.ofNat 32 kind
  let s := s.reportFiring (0x040 + p) w (decide (kind = 3))
  s.event 0x13 p [w, BitVec.ofNat 32 (s.rd (Fld.PORT_WD_STAT_LAST p)), BitVec.ofNat 32 (s.rd (Fld.PORT_WD_STAT_CONSEC p)), 0]

/-- The ports whose echoes come as blocks: mode C with Névé version 2. -/
def State.echoBlocks (s : State) (p : Nat) : Bool := decide (s.portMode p = 2) && decide (s.rd (Fld.NV_STAT_VER p) = 2)

/-- A strobe has passed with a recorded delay or offset. -/
def State.wdPass (s : State) (p : Nat) (e : Expect) (last : Int) : State :=
  let s := s.onPort p (fun x => { x with expects := x.expects.filter (fun y => decide (y ≠ e)) })
  (s.wr (Fld.PORT_WD_STAT_LAST p) (patternOf 16 last)).wr (Fld.PORT_WD_STAT_CONSEC p) 0

/-- An echo that matches no expected strobe. -/
def State.wdSpurious (s : State) (p : Nat) : State := (s.bumpSat (Fld.PORT_WD_CNT_SPUR p)).wdReport p 2

/-- Whether an echo is of the port's kind: an edge, or a block. -/
def State.echoFits (s : State) (p : Nat) (e : Echo) : Bool :=
  match e with
  | .edge _ => !s.echoBlocks p
  | .block _ _ => s.echoBlocks p

/-- What an echo is: a pass, spurious or, an ECHO block with an expected tag and an OFFSET beyond WD_TOL, neither. -/
def State.judgeEcho (s : State) (p : Nat) (e : Echo) : State :=
  match e with
  | .edge t =>
    let d := fun (x : Expect) => (t.toNat * 10 : Int) - x.at_
    match (s.getPort p).expects.find? (fun x =>
        decide ((s.rd (Fld.PORT_WD_CFG_WD_MIN p) * 160 : Int) ≤ d x) && decide (d x ≤ (s.rd (Fld.PORT_WD_CFG_WD_MAX p) * 160 : Int))) with
    | some x => s.wdPass p x (roundDiv (d x) 10)
    | none => s.wdSpurious p
  | .block tag off =>
    match (s.getPort p).expects.find? (fun x => x.tag == tag.toNat) with
    | some x => if off.natAbs ≤ s.rd (Fld.PORT_WD_CFG_WD_TOL p) then s.wdPass p x off else s
    | none => s.wdSpurious p

/-- ECHO. -/
def execEcho (p : Fin 16) (e : Echo) (s : State) : Host.Outcome State Fault Refusal :=
  .next (s.unfrozen (fun s =>
    if !s.wdOn p || !s.portPresent p || !s.domOn (.hpg (portGroup p)) || !s.echoFits p e then s
    else State.injectAt (0x040 + p) (fun s => s.wdSpurious p) (fun s => s.judgeEcho p e) s))

/-- WATCHDOG_MISS: the window of the oldest expected echo has ended. -/
def execWatchdogMiss (p : Fin 16) (s : State) : Host.Outcome State Fault Refusal :=
  .next (s.unfrozen (fun s =>
    match (s.getPort p).expects with
    | [] => s
    | _ :: rest =>
      let s := s.onPort p (fun x => { x with expects := rest })
      if !s.wdOn p then s
      else
        State.injectAt (0x040 + p) (fun s => s.wdReport p 1)
          (fun s => if s.rd (Fld.PORT_WD_STAT_CONSEC p) = s.rd (Fld.PORT_WD_CFG_MISS_LIM p) then s.wdReport p 1 else s)
          ((s.bumpSat (Fld.PORT_WD_STAT_CONSEC p)).bumpSat (Fld.PORT_WD_CNT_MISS p))))

/-- ECHO_STUCK: ECHO has been high for 20 µs. -/
def execEchoStuck (p : Fin 16) (s : State) : Host.Outcome State Fault Refusal :=
  .next (s.unfrozen (fun s => if s.wdOn p && !s.echoBlocks p && s.portPresent p && s.domOn (.hpg (portGroup p)) then s.wdReport p 3 else s))

/-! ## Gates (R272 to R276) -/

/-- The bit of PORT_GSTAT of gate `g`. -/
def gstatFld (p g : Nat) : Fld :=
  if g < 32 then ⟨Reg.PORT_GSTAT_LO p, g, g⟩ else ⟨Reg.PORT_GSTAT_HI p, g - 32, g - 32⟩

/-- The products that a gate becoming active on port `p` aborts (R275). -/
def State.gateVictims (s : State) (p : Nat) : Nat :=
  ((s.liveCtxs.filter (fun c => s.ctxOnPort c p)).map (fun c => ((s.getCtx c).inflight.filter (fun x => x.status.isNone)).length)).foldl
    (· + ·) 0

/-- Every product in flight of every context on port `p` is aborted (R275). -/
def State.gateAbort (s : State) (p : Nat) : State :=
  (s.liveCtxs.filter (fun c => s.ctxOnPort c p)).foldl (fun s c => s.abortCtx c (fun _ => true) (.portOnly p) Status.abortedGate) s

/-- A HEAD_OPEN gate ends the pulse or tickle in progress, `busy` saying whether there is one, and in mode C inhibits the head (R273, R278,
R310). -/
def State.openHead (s : State) (busy : Bool) (p : Nat) : State :=
  let s := if busy then ((s.lowStrobes p).rampWave p (s.restCode p) 8).bumpSat (Fld.PORT_CNT_INHIB_COUNT p) else s
  if s.portMode p = 2 && s.linked p then s.inhibit p 1 else s

/-- What follows when the HEAD_OPEN action of a port begins or ends. -/
def State.headOpenEdge (old : State) (p : Nat) (s : State) : State :=
  if s.headOpen p && !old.headOpen p then s.openHead (old.driving p) p
  else if old.headOpen p && !s.headOpen p && decide (s.portMode p = 2) && s.linked p then s.inhibit p 0
  else s

/-- Gate `g` of port `p` becomes active or inactive: the status bit, the aborts and the GATE event (R275, R276). -/
def State.gateChange (s : State) (p g act : Nat) (on : Bool) : State :=
  let n := if on then s.gateVictims p else 0
  let s := s.wrBit (gstatFld p g) on
  let s := if on then ((s.gateAbort p).cutSlot p).haltWalk p else s
  s.event 0x15 g [BitVec.ofNat 32 (p + (if on then 2 ^ 8 else 0) + s.rd (Fld.PORT_GATE_LATCH p g) * 2 ^ 9 + act * 2 ^ 10),
    BitVec.ofNat 32 n, 0, 0]

/-- Gate `g` of port `p` judged afresh, with a filtered level (R272, R276). `act` is the action that an event of release names. -/
def State.judgeGate (s : State) (p g act : Nat) (level : Bool) : State :=
  let old := s.getGate p g
  let now := decide (s.rd (Fld.PORT_GATE_ACT p g) ≠ 0) && (decide (level ≠ s.on (Fld.PORT_GATE_POL p g)) || (s.on (Fld.PORT_GATE_LATCH p g) && old.active))
  let s := s.onPort p (fun x => { x with gates := Store.put (fun _ => Gate.reset) x.gates g ⟨level, now⟩ })
  if now = old.active then s else s.gateChange p g act now

/-- GATE_TRANSITION: gate input `g` has held a new level for the filter time of port `p` (R272). -/
def execGateTransition (p : Fin 16) (g : Fin 48) (level : Bool) (s : State) : Host.Outcome State Fault Refusal :=
  .next (s.unfrozen (fun s =>
    if s.portPresent p && s.domOn (.hpg (portGroup p)) then
      State.headOpenEdge s p (s.judgeGate p g (s.rd (Fld.PORT_GATE_ACT p g)) level)
    else s))

/-- The filter time of gate `g` on port `p`, in ns (R273, R289). -/
def State.gateFilter (s : State) (p g : Nat) : Nat :=
  let f := max 20 (s.rd (Fld.PORT_GATE_FILT p g) * 10)
  if s.rd (Fld.PORT_GATE_ACT p g) = 1 then min f 140 else f

/-- A write of PORT_GATEg with the time in ns for which a hold on a new level is under way, if one is (R289). -/
def State.writeGate (s : State) (m : Master) (p g : Nat) (v : Word) (held : Option Nat) : State :=
  let old := s.rd (Fld.PORT_GATE_ACT p g)
  let t := s.writeCode m (Reg.PORT_GATE p g) v
  let done := match held with
    | none => false
    | some h => decide (t.gateFilter p g ≤ h)
  let lv := (t.getGate p g).level
  let now := t.rd (Fld.PORT_GATE_ACT p g)
  State.headOpenEdge s p (t.judgeGate p g (if now = 0 then old else now) (if done then !lv else lv))

/-- PORT_GATE_WRITE. -/
def execPortGateWrite (m : Master) (p : Fin 16) (g : Fin 48) (v : Word) (held : Option Nat) (s : State) : Host.Outcome State Fault Refusal :=
  .next (s.unfrozen (fun s => s.accessBy m (Reg.PORT_GATE p g) (fun s => s.writeGate m p g v held)))

/-- A latched gate whose filtered input is inactive is released (R276). -/
def State.releaseGate (s : State) (p g : Nat) : State :=
  let x := s.getGate p g
  if x.active && decide (x.level = s.on (Fld.PORT_GATE_POL p g)) then
    let t := s.onPort p (fun y => { y with gates := Store.put (fun _ => Gate.reset) y.gates g { x with active := false } })
    State.headOpenEdge s p (t.gateChange p g (s.rd (Fld.PORT_GATE_ACT p g)) false)
  else s

/-- A write of PORT_GSTAT (R276, R289). -/
def State.writeGstat (s : State) (p : Nat) (hi : Bool) (v : Word) : State :=
  (List.range (if hi then 16 else 32)).foldl (fun s i => if bitOf v i then s.releaseGate p (if hi then 32 + i else i) else s) s

/-- GATE_RELEASE. -/
def execGateRelease (m : Master) (p : Fin 16) (hi : Bool) (v : Word) (s : State) : Host.Outcome State Fault Refusal :=
  .next (s.unfrozen (fun s => s.accessBy m (if hi then Reg.PORT_GSTAT_HI p else Reg.PORT_GSTAT_LO p) (fun s => s.writeGstat p hi v)))

end Sys2Proof.Machine
end

