-- ==== Sys2Proof/Machine/Freeze.lean ====
section
/-! DEFINITION. The start of a freeze (R585 to R589, spec/19_hoarfrost_freeze.md). -/

namespace Sys2Proof.Machine

/-! ## Islands (R24, R481, R482) -/

/-- The domain of an island, numbered as TINE_LOST numbers it; the last is SERVICE. -/
def islandDomain (i : Nat) : Domain :=
  if i = 1 then .mgmt
  else if i = 2 ∨ i = 3 then .host
  else if i = 4 then .ds0
  else if i = 5 ∨ i = 25 then .place
  else if 6 ≤ i ∧ i ≤ 21 then .hpg (portGroup (i - 6))
  else if i = 22 then .ring
  else if i = 23 then .motion
  else if i = 24 then .hk
  else .service

/-- Whether the island is stopped by Hoarfrost (R481, R586). -/
def State.islandStopped (s : State) (i : Nat) : Bool := bitOf (s.getReg Reg.HF_STAT) i

/-- Whether an island takes part in a freeze: its domain is on and its unit present (R586). -/
def State.islandTakesPart (s : State) (i : Nat) : Bool :=
  decide (1 ≤ i) && decide (i ≤ 26) && s.domOn (islandDomain i) &&
  (decide (i < 6) || decide (21 < i) || s.portPresent (i - 6))

/-- FROZEN sets when every island taking part has stopped (R586). -/
def State.settleFrozen (s : State) : State :=
  if s.hf.active && !s.on Fld.HF_STAT_FROZEN && (List.range 27).all (fun i => !s.islandTakesPart i || s.islandStopped i) then
    { s with hf := { s.hf with frozen := s.tb.toNat } }.wr Fld.HF_STAT_FROZEN 1
  else s

/-- The gates of an axis are low under pad control (R587). -/
def State.gatesLow (s : State) (a : Nat) : State :=
  let x := Store.get (fun _ => Axis.reset) s.axes a
  let s := if x.coilA.bridge = .off then s else s.emit (.gates a false s.tb.toNat 0)
  if x.coilB.bridge = .off then s else s.emit (.gates a true s.tb.toNat 0)

/-- A trigger: the freeze request goes to every island, and the pads come under pad control, which cuts every strobe in progress
and drives waveform code 0 at once (R311). While the controller is frozen it has no effect (R585 to R588). BYP_KEEP stops with
FRZ_BYPASS set (R589). -/
def State.freeze (s : State) (cause : Nat) : State :=
  if s.hf.active then s
  else
    let s := ((s.wr Fld.HF_STAT_CAUSE cause).wr64 Reg.HF_TB_LO s.tb.toNat).bumpSat Fld.HF_CNT_COUNT
    let s := (List.range 16).foldl (fun s p =>
      if s.portPresent p && s.domOn (.hpg (portGroup p)) then
        ((s.stopPulse p).forceWave p 0).onWave p (fun w => { w with entry := none })
      else s) s
    let s := (List.range 8).foldl (fun s a => s.gatesLow a) s
    let s := if s.on Fld.HF_CFG_FRZ_BYPASS then { s with keep := false } else s
    { s with hf := { s.hf with active := true } }.settleFrozen

/-- A write of HF_CTL: FREEZE with the right KEY is a trigger (R585). -/
def State.writeHfCtl (s : State) (v : Word) : State := if bitOf v 31 && decide (bitsOf v 15 0 = 0xC01D) then s.freeze 2 else s

end Sys2Proof.Machine
end

