-- ==== Sys2Proof/Machine/Tiller.lean ====
section
/-! DEFINITION. Tiller: set-points, the chopper, profiles, stops, stall detection, homing, groups and gearing (R425 to R454,
spec/13_tiller_motion.md). -/

namespace Sys2Proof.Machine

def State.getAxis (s : State) (a : Nat) : Axis := Store.get (fun _ => Axis.reset) s.axes a

/-! ## The bridges' gates (R426, R430) -/

/-- The gates of a coil's bridge, 1H, 1L, 2H, 2L from bit 3 down; `fast`: an off-phase has come to its fast decay, in which the opposite drive
pair is on (R426). -/
def Coil.gates (c : Coil) (fast : Bool) : BitVec 4 :=
  match c.bridge with
  | .drive p => if p then 0b1001 else 0b0110
  | .coast => if !fast then 0b0101 else if c.pos then 0b0110 else 0b1001
  | .slow => 0b0101
  | .off => 0

/-- T_COAST of an axis in TB units (R457), and how long of it the decay is slow (R430). -/
def State.coast (s : State) (a : Nat) : Nat := max 5 (min 200 (s.rd (Fld.AX_CHOP_T_COAST a))) * 400
def State.slowDecay (s : State) (a : Nat) : Nat := s.coast a * (16 - s.rd (Fld.AX_CHOP_FAST_FRAC a)) / 16

/-- T_DEAD of an axis in TB units (R457). -/
def State.deadTime (s : State) (a : Nat) : Nat := max 4 (s.rd (Fld.AX_CFG_T_DEAD a)) * 20

/-- The gates of a coil go from `g` to `h` at TB `t`: those not wanted turn off at once, and where the other gate of a half-bridge
of theirs is to turn on, the turn-on waits T_DEAD (R426). -/
def State.driveGates (s : State) (a : Nat) (coilB : Bool) (t : Nat) (g h : BitVec 4) : State :=
  let out := g &&& ~~~h
  let cross := ((out &&& 0b1010) >>> 1 ||| (out &&& 0b0101) <<< 1) &&& h
  if g = h then s
  else if cross = 0 then s.emit (.gates a coilB t h)
  else (s.emit (.gates a coilB t (g &&& h))).emit (.gates a coilB (t + s.deadTime a) h)

/-- A coil's bridge has come to another state: its gates, and in an off-phase those of its fast decay (R426, R430). -/
def State.showBridge (s : State) (a : Nat) (coilB : Bool) (old new : Coil) : State :=
  let now := s.tb.toNat
  if old.bridge = new.bridge then s
  else
    let s := s.driveGates a coilB now (old.gates (decide (old.at_ + s.slowDecay a ≤ now))) (new.gates false)
    if new.bridge = .coast ∧ s.slowDecay a < s.coast a then
      s.driveGates a coilB (now + s.slowDecay a) (new.gates false) (new.gates true)
    else s

/-- A coil that takes the place of `old`, with the TB at which its bridge came to its state. -/
def Coil.stamped (old new : Coil) (now : Nat) : Coil := { new with at_ := if old.bridge = new.bridge then old.at_ else now }

/-- An axis replaced; a bridge that has changed drives its gates. -/
def State.setAxis (s : State) (a : Nat) (x : Axis) : State :=
  let old := s.getAxis a
  let x := { x with coilA := old.coilA.stamped x.coilA s.tb.toNat, coilB := old.coilB.stamped x.coilB s.tb.toNat }
  ({ s with axes := Store.put (fun _ => Axis.reset) s.axes a x }.showBridge a false old.coilA x.coilA).showBridge a true old.coilB x.coilB

def State.onAxis (s : State) (a : Nat) (f : Axis → Axis) : State := s.setAxis a (f (s.getAxis a))

/-- AXa_STAT.STATE: 0 OFF, 1 STANDSTILL, 2 RESTING, 3 MOVING, 4 GEARED, 5 HOMING, 6 FROZEN (R458). -/
def State.axState (s : State) (a : Nat) : Nat := s.rd (Fld.AX_STAT_STATE a)

/-- XACT: the integer part of x, modulo 2^32 (R427). -/
def Axis.xact (x : Axis) : Int := signedOf 32 (patternOf 32 (x.x / 65536))

/-- The registers that show the set-point: XACT and ADDR (R428, R458). -/
def State.showAxis (s : State) (a : Nat) : State :=
  let n := patternOf 32 (s.getAxis a).xact
  let s := s.setReg (Reg.AX_XACT a) (BitVec.ofNat 32 n)
  s.wr (Fld.AX_MS_ADDR a) ((n + s.rd (Fld.AX_MS_MS_OFS a)) % 1024)

/-- VACT, signed Q8.24. -/
def State.vact (s : State) (a : Nat) : Int := signedOf 32 (s.getReg (Reg.AX_VACT a)).toNat
def State.setVact (s : State) (a : Nat) (v : Int) : State := s.setReg (Reg.AX_VACT a) (BitVec.ofNat 32 (patternOf 32 v))

/-! ## The chopper (R426, R428 to R431) -/

/-- The table entry in force of a coil; a stored -2,048 applies -2,047, and INV reverses coil B (R426, R428). -/
def State.coilEntry (s : State) (a : Nat) (coilB : Bool) : Int :=
  let k := s.rd (Fld.AX_MS_ADDR a)
  let e := max (-2047) (signedOf 12 (s.rd (if coilB then Fld.AX_TABLE_B a k else Fld.AX_TABLE_A a k)))
  if coilB && s.on (Fld.AX_CFG_INV a) then -e else e

/-- CUR, the current fraction in force; 0 applies 1 (R429). -/
def State.curNow (s : State) (a : Nat) : Nat :=
  let x := s.getAxis a
  max 1 (match x.cur with
    | .run => s.rd (Fld.AX_CUR_CUR_RUN a)
    | .rest => s.rd (Fld.AX_CUR_CUR_REST a)
    | .home => x.home.elim 0 (fun h => h.cur))

def Axis.coil (x : Axis) (coilB : Bool) : Coil := if coilB then x.coilB else x.coilA
def Axis.withCoil (x : Axis) (coilB : Bool) (c : Coil) : Axis := if coilB then { x with coilB := c } else { x with coilA := c }

/-- The bridge of a coil that chops an entry (R430). -/
def bridgeFor (e : Int) : Bridge := if e = 0 then .slow else .drive (decide (0 < e))

/-- A coil after its entry may have changed: a change of sign starts an on-phase in the new direction, or with `sense` turns the bridge
off to sense its back-EMF (R430, R440). -/
def Coil.step (c : Coil) (e : Int) (sense : Bool) : Coil :=
  let p := if e = 0 then c.pos else decide (0 < e)
  if c.bridge = .off then { c with pos := p }
  else if e = 0 then { c with bridge := .slow }
  else if p ≠ c.pos then
    if sense then { c with pos := p, bridge := .off, sense := true } else { c with pos := p, bridge := bridgeFor e }
  else if c.bridge = .slow then { c with bridge := bridgeFor e }
  else c

/-- Both coils of an axis after an update. -/
def State.rechop (s : State) (a : Nat) (moving : Bool) : State :=
  let sense := moving && decide (s.rd (Fld.AX_CFG_STALL_MODE a) = 1)
  s.onAxis a (fun x => { x with
    coilA := x.coilA.step (s.coilEntry a false) sense
    coilB := x.coilB.step (s.coilEntry a true) sense })

/-- The bridges of an axis turned on: each coil begins with an on-phase. -/
def State.bridgesOn (s : State) (a : Nat) : State :=
  let start := fun (c : Coil) (e : Int) =>
    if c.bridge = .off then { c with bridge := bridgeFor e, pos := if e = 0 then c.pos else decide (0 < e), sense := false } else c
  s.onAxis a (fun x => { x with
    coilA := start x.coilA (s.coilEntry a false)
    coilB := start x.coilB (s.coilEntry a true) })

/-- Every gate of an axis low (R426). -/
def State.bridgesOff (s : State) (a : Nat) : State :=
  s.onAxis a (fun x => { x with
    coilA := { x.coilA with bridge := .off, sense := false }
    coilB := { x.coilB with bridge := .off, sense := false } })

/-! ## Events and ends of motions (R437, R451, R453, R454) -/

/-- A MOTION event (R454). -/
def State.motionEvent (s : State) (a kind cause : Nat) (stopped : Bool) (vact : Int) (tag : Word) : State :=
  let s := s.wr (Fld.AX_STAT_LAST a) kind
  s.event 0x11 a [BitVec.ofNat 32 (kind + cause * 2 ^ 4 + s.rd (Fld.AX_STAT_POS_VALID a) * 2 ^ 8 + (if stopped then 2 ^ 9 else 0)),
    s.getReg (Reg.AX_XACT a), BitVec.ofNat 32 (patternOf 32 vact), tag]

/-- The axes that a MOVE or HOME names (R451, R452). -/
def moveAxes (d : Desc) : List Nat :=
  if d.opcode = 0x31 then (List.range 8).filter (fun a => bitOf (dwAt d.dw 2) a) else [d.fld 2 2 0]

/-- RESULT of a MOVE or HOME: the kind, and the XACT of the lowest named axis (R453). -/
def State.moveResult (s : State) (d : Desc) (kind : Nat) : Nat :=
  kind + (s.getReg (Reg.AX_XACT ((moveAxes d).headD 0))).toNat * 2 ^ 32

/-- A command that waits is told that the motion of axis `a` has ended; it completes with the last one, BUSY after a yield (R449,
R453). -/
def State.tellMove (s : State) (a kind : Nat) : State :=
  match s.mp.cmd with
  | none => s
  | some c =>
    if c.left.contains a then
      let left := c.left.filter (fun b => b ≠ a)
      if left.isEmpty then s.endCommand c.desc (if kind = 5 then Status.busy else Status.ok) (s.moveResult c.desc kind)
      else { s with mp := { s.mp with cmd := some { c with done := kind, left := left } } }
    else s

/-- The motion of an axis is over: what it held for it is cleared, and a command that waits is told. -/
def State.clearMotion (s : State) (a kind : Nat) : State :=
  let x := s.getAxis a
  let s := s.setAxis a { x with
    x := x.x / 65536 * 65536, v := 0, run := false, rev := false, ending := 0, tag := 0, wait := false, ports := 0,
    gear := none, group := none, home := none, low := 0, xtrap := false }
  let s := ((s.wr (Fld.AX_STAT_GROUP a) 0).wr (Fld.AX_STAT_DECEL a) 0).setVact a 0
  let s := s.showAxis a
  if x.wait then s.tellMove a kind else s

/-- An axis comes to standstill at CUR_RUN, or at once to rest where REST_DLY is 0 (R432). -/
def State.standstill (s : State) (a : Nat) : State :=
  let s := s.onAxis a (fun x => { x with stood := s.tb.toNat })
  if s.rd (Fld.AX_CFG_REST_DLY a) = 0 ∨ s.rd (Fld.HK_CH_VAL_STATE (24 + a)) = 2 then
    (s.wr (Fld.AX_STAT_STATE a) 2).onAxis a (fun x => { x with cur := .rest })
  else (s.wr (Fld.AX_STAT_STATE a) 1).onAxis a (fun x => { x with cur := .run })

/-- A motion ends at standstill, with an event of its kind. -/
def State.endMotion (s : State) (a kind : Nat) : State :=
  let x := s.getAxis a
  let s := s.setAxis a { x with x := x.x / 65536 * 65536 }
  let s := (s.showAxis a).motionEvent a kind 0 false (s.vact a) x.tag
  ((s.standstill a).clearMotion a kind).rechop a false

/-- One axis freezes: a stop request or a fault stop with its kind and cause; a homing ends HOME_FAIL (R437, R444). A stop request that follows
another stop within an update has no effect (R438). -/
def State.freezeOne (s : State) (kind cause : Nat) (stopped off : Bool) (a : Nat) : State :=
  if s.axState a = 0 ∨ (kind = 3 ∧ (s.getAxis a).froze) then s
  else
    let x := s.getAxis a
    let kind := if s.axState a = 5 then 9 else kind
    let v := s.vact a
    let s := s.setAxis a { x with x := x.x / 65536 * 65536, cur := .rest, froze := true }
    let s := ((s.showAxis a).wr (Fld.AX_STAT_POS_VALID a) 0).wr (Fld.AX_STAT_STATE a) (if s.on (Fld.AX_CFG_EN a) then 6 else 0)
    let s := if off || !s.on (Fld.AX_CFG_STOP_KEEP a) then s.bridgesOff a else s
    let s := s.motionEvent a kind (if kind = 9 then 0 else cause) stopped v x.tag
    (s.clearMotion a kind).rechop a false

/-- The axes of a group in motion, or the axis alone (R446). -/
def State.together (s : State) (a : Nat) : List Nat :=
  match (s.getAxis a).group with
  | none => [a]
  | some g => (List.range 8).filter (fun b => ((s.getAxis b).group.map (fun h => h.1)) = some g.1)

/-- A stop request or fault stop of an axis, and of every member of its group (R437, R446). -/
def State.freezeAxis (s : State) (a kind cause : Nat) (stopped off : Bool) : State :=
  (s.together a).foldl (State.freezeOne · kind cause stopped off ·) s

/-- A stop request (R437). -/
def State.stopAxis (s : State) (a : Nat) : State := s.freezeAxis a 3 0 false false
/-- A fault stop with its cause (R437, R454). -/
def State.faultAxis (s : State) (a cause : Nat) : State := s.freezeAxis a 7 cause false (decide (cause ∈ [1, 2, 3, 6, 7]))
/-- A fault stop of every axis. -/
def State.faultAxes (s : State) (cause : Nat) : State :=
  (List.range 8).foldl (fun s a => s.freezeOne 7 cause false (decide (cause ∈ [1, 2, 3, 6, 7])) a) s

/-! ## Profiles (R433, R434, R436) -/

/-- The profile registers of an axis, with a cruise speed. -/
def State.profile (s : State) (a : Nat) : Profile :=
  ⟨s.rd (Fld.AX_VLAUNCH_VALUE a), s.rd (Fld.AX_VKNEE_VALUE a), s.rd (Fld.AX_VCRUISE_VALUE a), s.rd (Fld.AX_VLAND_VALUE a),
   s.rd (Fld.AX_ALOW_VALUE a), s.rd (Fld.AX_AHIGH_VALUE a), s.rd (Fld.AX_DLOW_VALUE a), s.rd (Fld.AX_DHIGH_VALUE a)⟩

/-- Whether a profile is valid (R433). -/
def Profile.valid (p : Profile) : Bool :=
  decide (p.cruise ≠ 0) && decide (p.land ≠ 0) && decide (p.launch ≤ p.cruise) && decide (p.land ≤ p.cruise) &&
  decide (p.ahigh ≠ 0) && decide (p.dhigh ≠ 0) &&
  (decide (p.knee = 0) || (decide (p.knee < p.cruise) && decide (p.alow ≠ 0) && decide (p.dlow ≠ 0)))

def Profile.decel (p : Profile) (v : Nat) : Nat := if p.knee ≠ 0 ∧ v ≤ p.knee then p.dlow else p.dhigh

/-- The braking distance from a speed down to VLAND, in 2^-16 microsteps (R434). -/
def Profile.brake (p : Profile) (v : Nat) : Quot :=
  if v ≤ p.land then quotInt 0
  else if p.knee = 0 ∨ v ≤ p.knee then quotOf ((v * v : Nat) - (p.land * p.land : Nat)) (2 * p.decel v)
  else quotAdd (quotOf ((v * v : Nat) - (p.knee * p.knee : Nat)) (2 * p.dhigh))
    (quotOf ((p.knee * p.knee : Nat) - (p.land * p.land : Nat)) (2 * p.dlow))

/-- The distance to the target, in 2^-16 microsteps. -/
def Axis.dist (x : Axis) : Int := signedOf 48 (patternOf 48 (x.target * 65536 - x.x))
/-- The distance along the direction. -/
def Axis.ahead (x : Axis) : Int := if x.pos then x.dist else -x.dist
/-- x moved on by v, added at 16 fraction bits. -/
def Axis.moved (x : Axis) : Axis :=
  let d := roundDiv x.v 256
  { x with x := signedOf 48 (patternOf 48 (x.x + (if x.pos then d else -d))) }

/-- One update of a single axis, or of the leader of a group (R434): the axis after it, whether it brakes, and whether its motion has
ended, with true for arrival. -/
def Axis.advance (x : Axis) : Axis × Bool × Option Bool :=
  if !x.run then
    if x.dist = 0 then (x, false, some true)
    else ({ x with pos := decide (0 < x.dist), v := x.prof.launch, run := true }.moved, false, none)
  else if x.rev || quotLe (quotInt x.ahead) (quotAdd (x.prof.brake x.v) (quotOf x.v 256)) then
    let p := x.prof
    let v := if p.land < x.v then max (roundDiv (x.v * 256 - p.decel x.v) 256) p.land else (p.land : Int)
    let y := { x with v := v.toNat }
    if y.v = p.land ∧ x.rev then
      ({ y with v := 0, run := false, rev := false }, false, if x.ending = 1 then none else some false)
    else if y.v = p.land ∧ x.ahead * 256 ≤ y.v then ({ y with x := x.target * 65536, v := 0, run := false }, false, some true)
    else (y.moved, true, none)
  else if x.v < x.prof.cruise then
    let a := if x.prof.knee ≠ 0 ∧ x.v < x.prof.knee then x.prof.alow else x.prof.ahigh
    let v := min (roundDiv (x.v * 256 + a) 256) x.prof.cruise
    ({ x with v := v.toNat }.moved, false, none)
  else (x.moved, false, none)

/-- Whether a target of a moving axis needs a reversal (R434). -/
def Axis.mustReverse (x : Axis) : Bool := quotLt (quotInt x.ahead) (x.prof.brake x.v)

/-! ## Taking moves (R434, R435, R446, R447) -/

/-- The move of an axis is replaced: it writes SUPERSEDED, and its command is told (R435). -/
def State.supersede (s : State) (a : Nat) : State :=
  let x := s.getAxis a
  let s := s.motionEvent a 2 0 false (s.vact a) x.tag
  let s := if x.wait then s.tellMove a 2 else s
  s.onAxis a (fun x => { x with wait := false })

/-- A geared axis leaves gearing: its speed becomes v with its direction, and rev is set (R435, R437). -/
def State.ungear (s : State) (a : Nat) : State :=
  let v := s.vact a
  let s := s.onAxis a (fun x => { x with
    gear := none, v := v.natAbs, pos := decide (0 ≤ v), run := true, rev := true, prof := s.profile a })
  s.wr (Fld.AX_STAT_STATE a) 3

/-- The target in force, also in its register. -/
def State.setTarget (s : State) (a : Nat) (t : Int) : State :=
  (s.onAxis a (fun x => { x with target := t })).setReg (Reg.AX_XTGT a) (BitVec.ofNat 32 (patternOf 32 t))

/-- An axis leaves standstill for a state: CUR_RUN, the profile captured, its bridges on. -/
def State.leaveRest (s : State) (a st : Nat) : State :=
  let p := s.profile a
  let s := s.onAxis a (fun x => { x with prof := p, run := false, rev := false, v := 0, cur := .run, low := 0, xtrap := false })
  (s.wr (Fld.AX_STAT_STATE a) st).bridgesOn a

/-- Whether an axis stands: STANDSTILL, RESTING or FROZEN. -/
def State.stands (s : State) (a : Nat) : Bool := decide (s.axState a ∈ [1, 2, 6])

/-- The target of a move: its operand, or XACT and the operand with REL (R435). -/
def State.targetOf (s : State) (a : Nat) (rel : Bool) (t : Int) : Int :=
  signedOf 32 (patternOf 32 (if rel then (s.getAxis a).xact + t else t))

/-- A single-axis move is taken (R434, R435); answers whether it is complete at once, its distance being 0: at standstill, or
where the axis is yet to leave it. -/
def State.takeSingle (s : State) (a : Nat) (rel : Bool) (t : Int) (tag : Word) (wait : Bool) (ports : Nat) : Bool × State :=
  let t := s.targetOf a rel t
  let own := fun (x : Axis) => { x with ending := 1, tag := tag, wait := wait, ports := ports }
  if s.stands a then
    if t = (s.getAxis a).xact then (true, s)
    else (false, ((s.leaveRest a 3).setTarget a t).onAxis a own)
  else if s.axState a = 4 then (false, (((s.supersede a).ungear a).setTarget a t).onAxis a own)
  else if !(s.getAxis a).run && decide (t * 65536 = (s.getAxis a).x) then (true, (((s.supersede a).setTarget a t).standstill a).clearMotion a 1)
  else
    let s := ((s.supersede a).setTarget a t).onAxis a own
    (false, s.onAxis a (fun x => if x.run then { x with rev := x.mustReverse } else x))

/-- The leader of a group: the axis of the largest distance, the lowest number breaking a tie (R446). -/
def groupLeader (l : List (Nat × Int)) : Nat × Int :=
  l.foldl (fun b x => if b.2.natAbs < x.2.natAbs then x else b) (l.headD (0, 0))

/-- A group move is taken (R446); answers whether every distance is 0. -/
def State.takeGroup (s : State) (l : List (Nat × Int)) (rel : Bool) (tag : Word) (wait : Bool) (ports : Nat) : Bool × State :=
  let ts := l.map (fun x => (x.1, s.targetOf x.1 rel x.2))
  let ds := ts.map (fun x => (x.1, signedOf 32 (patternOf 32 (x.2 - (s.getAxis x.1).xact))))
  let lead := groupLeader ds
  if lead.2 = 0 then (true, s)
  else
    (false, ts.foldl (fun s x =>
      let st := (s.getAxis x.1).x
      let d := signedOf 32 (patternOf 32 (x.2 - (s.getAxis x.1).xact))
      let s := (s.leaveRest x.1 3).setTarget x.1 x.2
      let s := s.onAxis x.1 (fun y => { y with group := some (lead.1, st, d * 65536), ending := 1, tag := tag, wait := wait, ports := ports })
      s.wr (Fld.AX_STAT_GROUP x.1) 1) s)

/-- A POSITION move is taken, as a group where it names more than one axis. -/
def State.takeMoves (s : State) (l : List (Nat × Int)) (rel : Bool) (tag : Word) (wait : Bool) (ports : Nat) : Bool × State :=
  match l with
  | [(a, t)] => s.takeSingle a rel t tag wait ports
  | _ => s.takeGroup l rel tag wait ports

/-- Whether a POSITION move completes BUSY: an axis in a group or homing, or a group that names an axis that is moving (R435, R453). -/
def State.moveBusy (s : State) (l : List Nat) : Bool :=
  match l with
  | [a] => decide (s.axState a = 5) || (s.getAxis a).group.isSome
  | _ => l.any (fun a => !s.stands a)

/-- M, a count of a master encoder, as int32 (R447). -/
def State.encCount (s : State) (n : Nat) : Int := signedOf 32 (s.getReg (Reg.ENC_CNT n)).toNat

/-- The signed 32-bit difference of two counts. -/
def diff32 (x y : Int) : Int := signedOf 32 (patternOf 32 (x - y))

def signInt (x : Int) : Int := if x < 0 then -1 else if 0 < x then 1 else 0

/-! ## Soft stops (R437, R446, R449) -/

/-- An axis, or the leader of its group, brakes to a halt; the motion ends with a kind. A move that was taken from the CR in the
same update comes after the soft stop and stands (R438). -/
def State.softAxis (s : State) (a kind : Nat) : State :=
  if (s.getAxis a).took then s
  else match s.axState a with
  | 3 =>
    let lead := (s.getAxis a).group.elim a (fun g => g.1)
    if (s.getAxis lead).run then s.onAxis lead (fun x => { x with rev := true, ending := kind })
    else (s.together a).foldl (fun s b => s.endMotion b kind) s
  | 4 => (s.ungear a).onAxis a (fun x => { x with ending := kind })
  | 5 => if (s.getAxis a).run then s.onAxis a (fun x => { x with rev := true, ending := kind }) else s.endMotion a kind
  | _ => s

/-- A product of another context that starts on ports stops the maintenance moves that serve them (R449). -/
def State.yieldAxes (s : State) (ports : List Nat) : State :=
  (List.range 8).foldl (fun s a => if ports.any (fun p => (s.getAxis a).ports.testBit p) then s.softAxis a 5 else s) s

/-! ## Stall detection and homing (R440 to R444) -/

/-- CNT0 and XE0 are captured (R442). -/
def State.captureEnc (s : State) (a : Nat) : State :=
  let c := s.encCount (s.rd (Fld.AX_CFG_ENC a))
  s.onAxis a (fun x => { x with cnt0 := c, xe0 := x.xact })

/-- The position of an axis is set; MS_OFS keeps ADDR (R428, R444, R445). -/
def State.setPosition (s : State) (a : Nat) (p : Int) : State :=
  let addr := s.rd (Fld.AX_MS_ADDR a)
  let s := s.onAxis a (fun x => { x with x := p * 65536 })
  let s := s.wr (Fld.AX_MS_MS_OFS a) (patternOf 10 ((addr : Int) - p))
  (s.showAxis a).captureEnc a

/-- The end of a homing (R444). -/
def State.homeDone (s : State) (a : Nat) : State := (s.wr (Fld.AX_STAT_POS_VALID a) 1).endMotion a 8

/-- The stall that a homing has sought (R444). -/
def State.homeStall (s : State) (a : Nat) (h : Homing) : State :=
  let s := s.setPosition a h.goal
  let p := s.profile a
  let s := s.onAxis a (fun x => { x with v := 0, run := false, rev := false, cur := .run, prof := p, home := some { h with back := true } })
  let s := (s.setVact a 0).wr (Fld.AX_STAT_DECEL a) 0
  if h.backoff = 0 then s.homeDone a
  else s.setTarget a (signedOf 32 (patternOf 32 (if h.pos then h.goal - h.backoff else h.goal + h.backoff)))

/-- Whether the stall detection of a homing is armed: in its approach, after BLANK microsteps (R444). -/
def State.homeArmed (s : State) (a : Nat) (h : Homing) : Bool :=
  !h.back && decide (h.blank ≤ (diff32 (s.getAxis a).xact h.start).natAbs)

/-- A stall in a stall mode (R443, R444). -/
def State.stall (s : State) (a mode : Nat) : State :=
  let s := s.onAxis a (fun x => { x with low := 0 })
  match (s.getAxis a).home with
  | some h => if s.homeArmed a h then s.homeStall a h else s
  | none =>
    let s := (s.bumpSat (Fld.AX_CNT_STALLS a)).report (0x210 + a) (BitVec.ofNat 32 mode)
    if s.on (Fld.AX_CFG_STALL_STOP a) then s.freezeAxis a 6 mode true false
    else s.motionEvent a 6 mode false (s.vact a) (s.getAxis a).tag

/-- DEV of an axis (R442). -/
def State.devOf (s : State) (a : Nat) : Int :=
  let x := s.getAxis a
  let k := signedOf 32 (s.getReg (Reg.AX_KENC a)).toNat
  let n := diff32 (s.encCount (s.rd (Fld.AX_CFG_ENC a))) x.cnt0
  diff32 x.xact (x.xe0 + roundDiv (n * k) 65536)

/-- Stall detection by encoder, at each update (R442). -/
def State.checkDev (s : State) (a : Nat) : State :=
  if s.axState a = 0 ∨ s.rd (Fld.AX_CFG_STALL_MODE a) ≠ 2 then s
  else
    let d := s.devOf a
    let s := s.wr (Fld.AX_LOAD_DEV a) (patternOf 16 (clampInt (-32767) 32767 d))
    let far := decide (max 1 (s.rd (Fld.AX_STALL_WINDOW a)) < d.natAbs)
    let was := (s.getAxis a).strayed
    let s := s.onAxis a (fun x => { x with strayed := far })
    State.injectAt (0x210 + a) (fun s => s.stall a 2) (fun s => if far && (!was || (s.getAxis a).home.isSome) then s.stall a 2 else s) s

/-- The band of a speed: the highest-numbered whose LOAD_MIN is not 0 and whose V_BAND is at most it (R440). -/
def State.bandOf (s : State) (a v : Nat) : Option Nat :=
  [7, 6, 5, 4, 3, 2, 1, 0].find? (fun k => decide (s.rd (Fld.AX_BAND_MIN_LOAD_MIN a k) ≠ 0) && decide (s.rd (Fld.AX_BAND_V_V_BAND a k) ≤ v))

/-- T_SENSE of an axis in TB units (R457). -/
def State.senseTime (s : State) (a : Nat) : Nat := max 2 (s.rd (Fld.AX_STALL_T_SENSE a)) * 4000

/-- BEMF_SAMPLE: T_SENSE has passed, the chopper resumes, and LOAD is judged (R440, R441). LOAD at a speed of 0 is a free value (log
entry 1). -/
def execBemfSample (a : Fin 8) (coilB : Bool) (e : BitVec 12) (s : State) : Host.Outcome State Fault Refusal :=
  .next (s.unfrozen (fun s =>
    let c := (s.getAxis a).coil coilB
    if !(c.sense && s.past c.at_ (s.senseTime a)) then s
    else
      let en := s.coilEntry a coilB
      let s := s.onAxis a (fun x => x.withCoil coilB { c with sense := false, bridge := bridgeFor en })
      let k := s.rd (Fld.AX_BEMFK_BEMF_K a)
      let v := (s.vact a).natAbs
      if k = 0 then s
      else
        let (f, s) := s.draw
        let load := if v = 0 then f.toNat % 65536 else min 65535 (roundDiv (e.toInt.natAbs * 2 ^ 56) (k * v : Nat)).toNat
        let s := s.wr (Fld.AX_LOAD_LOAD a) load
        match s.bandOf a v with
        | none => s
        | some b =>
          let s := s.wr (Fld.AX_STAT_BAND a) b
          let x := s.getAxis a
          if s.injDue [0x210 + a] || decide (load < s.rd (Fld.AX_BAND_MIN_LOAD_MIN a b)) then
            State.injectAt (0x210 + a) (fun s => s.stall a 1) (fun s =>
              if s.rd (Fld.AX_BAND_MIN_LOAD_MIN a b) ≤ load then s.setAxis a { x with low := 0 }
              else if x.home.any (fun h => !s.homeArmed a h) then s
              else if max 1 (s.rd (Fld.AX_STALL_LOAD_RUN a)) ≤ x.low + 1 then s.stall a 1
              else s.setAxis a { x with low := x.low + 1 }) s
          else
            let s := s.setAxis a { x with low := 0 }
            let lo := s.rd (Fld.AX_BAND_CAL_CAL_LO a b)
            let hi := s.rd (Fld.AX_BAND_CAL_CAL_HI a b)
            if (load < lo ∨ hi < load) ∧ ¬ x.xtrap then
              let s := (s.onAxis a (fun x => { x with xtrap := true })).bumpSat (Fld.AX_CNT_XTRAP a)
              s.event 0x0A a [BitVec.ofNat 32 (2 ^ 31 + b * 2 ^ 16 + load), BitVec.ofNat 32 (hi * 2 ^ 16 + lo), 0, x.tag]
            else s))

/-! ## The chopper's phases (R430, R431) -/

/-- A bridge fault: its cause is 2 for OPEN and 3 for SHORT (R431, R454). -/
def State.bridgeFault (s : State) (a : Nat) (coilB short : Bool) : State :=
  let s := s.report (0x218 + a) (BitVec.ofNat 32 ((if coilB then 1 else 0) + (if short then 2 else 0)))
  s.faultAxis a (if short then 3 else 2)

/-- Whether the threshold of a coil is at least 1/16 of the full-scale reference: it is |entry| × CUR / (2,047 × 256) of that (R429, R431). -/
def State.coilCounts (s : State) (a : Nat) (coilB : Bool) : Bool :=
  decide (2047 * 256 ≤ (s.coilEntry a coilB).natAbs * s.curNow a * 16)

/-- How long an on-phase has lasted where it ends: T_ONLIM, or T_MASK at least, in TB units (R430, R457). -/
def State.onTime (s : State) (a : Nat) (how : PhaseEnd) : Nat :=
  match how with
  | .limit => (if s.rd (Fld.AX_CHOP_T_ONLIM a) = 0 then 50 else s.rd (Fld.AX_CHOP_T_ONLIM a)) * 4000
  | .trip => max 10 (s.rd (Fld.AX_CHOP_T_MASK a)) * 80
  | .atMask => max 10 (s.rd (Fld.AX_CHOP_T_MASK a)) * 80

/-- ON_PHASE_END: T_ONLIM has passed, or the comparator reads above the threshold, at the end of T_MASK or later (R430, R431). -/
def execOnPhaseEnd (a : Fin 8) (coilB : Bool) (how : PhaseEnd) (s : State) : Host.Outcome State Fault Refusal :=
  .next (s.unfrozen (fun s =>
    let c := (s.getAxis a).coil coilB
    match c.bridge with
    | .drive _ =>
      if !s.past c.at_ (s.onTime a how) then s
      else
      let counted := s.coilCounts a coilB
      let opens := if counted then (if how = .limit then c.opens + 1 else 0) else c.opens
      let shorts := if counted then (if how = .atMask then c.shorts + 1 else 0) else c.shorts
      let fault := decide (64 ≤ opens) || decide (64 ≤ shorts)
      let s := s.onAxis a (fun x => x.withCoil coilB { c with bridge := .coast, opens := if fault then 0 else opens, shorts := if fault then 0 else shorts })
      State.injectAt (0x218 + a) (fun s => s.bridgeFault a coilB (decide (64 ≤ shorts)))
        (fun s => if fault then s.bridgeFault a coilB (decide (64 ≤ shorts)) else s) s
    | _ => s))

/-- OFF_PHASE_END: T_COAST has passed and a new on-phase starts (R430). -/
def execOffPhaseEnd (a : Fin 8) (coilB : Bool) (s : State) : Host.Outcome State Fault Refusal :=
  .next (s.unfrozen (fun s =>
    let c := (s.getAxis a).coil coilB
    match c.bridge with
    | .coast =>
      if !s.past c.at_ (s.coast a) then s
      else
      let b := bridgeFor (s.coilEntry a coilB)
      s.onAxis a (fun x => x.withCoil coilB { c with bridge := b })
    | _ => s))

/-- REST_DELAY: REST_DLY has passed at standstill (R432). -/
def execRestDelay (a : Fin 8) (s : State) : Host.Outcome State Fault Refusal :=
  .next (s.unfrozen (fun s =>
    if s.axState a = 1 ∧ s.past (s.getAxis a).stood (s.rd (Fld.AX_CFG_REST_DLY a) * 4000000) then
      (s.wr (Fld.AX_STAT_STATE a) 2).onAxis a (fun x => { x with cur := .rest })
    else s))

/-! ## The update (R434, R438, R444, R446, R447) -/

/-- The motion of an axis after its update has ended: by arrival, or halted by a soft stop. -/
def State.motionOver (s : State) (a : Nat) (arrived : Bool) : State :=
  let x := s.getAxis a
  match x.home with
  | some h =>
    if !arrived then s.endMotion a x.ending
    else if h.back then s.homeDone a
    else (s.wr (Fld.AX_STAT_POS_VALID a) 0).endMotion a 9
  | none => (s.together a).foldl (fun s b => s.endMotion b (if arrived then 1 else x.ending)) s

/-- The members of a group follow their leader (R446). -/
def State.follow (s : State) (lead : Nat) (xl sl dl : Int) : State :=
  (List.range 8).foldl (fun s b =>
    match (s.getAxis b).group with
    | some (l, st, d) =>
      if l = lead ∧ b ≠ lead then
        let old := (s.getAxis b).x
        let num := d * (xl - sl)
        let q := if dl < 0 then roundDiv (-num) (-dl) else roundDiv num dl
        let s := (s.onAxis b (fun y => { y with x := st + q })).showAxis b
        (s.setVact b ((st + q - old) * 256)).rechop b true
      else s
    | none => s) s

/-- One update of an axis under R434, with its followers. DECEL stands from the first braking update until the axis halts (R436). -/
def State.stepProfile (s : State) (a : Nat) : State :=
  let (y, brakes, left) := (s.getAxis a).advance
  let s := ((s.setAxis a y).showAxis a).setVact a (if y.pos then y.v else -(y.v : Int))
  let s := s.wrBit (Fld.AX_STAT_DECEL a) (brakes || (s.on (Fld.AX_STAT_DECEL a) && y.run))
  let s := s.rechop a true
  let s := match y.group with
    | some (_, st, d) => s.follow a y.x st d
    | none => s
  match left with
  | none => s
  | some arrived => s.motionOver a arrived

/-- One update of a geared axis (R447). -/
def State.stepGear (s : State) (a : Nat) (g : Gearing) : State :=
  let m := s.encCount g.master
  let cross := !g.second && decide (g.side ≠ 0) && decide (signInt (diff32 m g.mpos) ≠ g.side)
  let g' := if cross then { g with x0 := g.x0 + g.r1 * diff32 g.mpos g.m0, m0 := g.mpos, second := true } else g
  let s := s.onAxis a (fun x => { x with gear := some g' })
  let s := if cross then s.motionEvent a 10 0 false (s.vact a) (s.getAxis a).tag else s
  let x := s.getAxis a
  let xn := g'.x0 + (if g'.second then g'.r2 else g'.r1) * diff32 m g'.m0
  let d := signedOf 48 (patternOf 48 (xn - x.x))
  let lost := fun (s : State) => (s.report (0x220 + a) (BitVec.ofNat 32 (patternOf 32 m))).faultAxis a 4
  State.injectAt (0x220 + a) lost (fun s =>
    if x.prof.cruise < d.natAbs * 256 then lost s
    else
      let s := (s.setAxis a { x with x := signedOf 48 (patternOf 48 xn) }).showAxis a
      (s.setVact a (d * 256)).rechop a true) s

/-- One update of an axis: a single axis, the leader of a group, a geared axis or a homing; at standstill its table entries are
read again (R428). -/
def State.stepAxis (s : State) (a : Nat) : State :=
  let x := s.getAxis a
  match s.axState a with
  | 3 => if x.group.all (fun g => decide (g.1 = a)) then s.stepProfile a else s
  | 4 => match x.gear with
    | some g => s.stepGear a g
    | none => s
  | 5 => s.stepProfile a
  | 0 => s
  | _ => s.rechop a false

/-- The next update of an axis begins (R438). -/
def State.nextUpdate (s : State) (a : Nat) : State := s.onAxis a (fun x => { x with froze := false, took := false })

/-- PROFILE_UPDATE: 1 µs has passed; stalls come before the profile step (R434, R438). -/
def execProfileUpdate (s : State) : Host.Outcome State Fault Refusal :=
  .next (s.unfrozen (fun s =>
    if s.domOn .motion && s.on Fld.TIL_STAT_SEQ_OK then
      let s := (List.range 8).foldl (fun s a => s.checkDev a) s
      (List.range 8).foldl (fun s a => (s.stepAxis a).nextUpdate a) s
    else s))

/-! ## Held moves (R448) -/

/-- A held move leaves every axis that holds it. -/
def State.unhold (s : State) (h : HeldMove) : State :=
  h.targets.foldl (fun s t =>
    if (s.getAxis t.1).held = some h then (s.onAxis t.1 (fun x => { x with held := none })).wr (Fld.AX_STAT_HELD t.1) 0 else s) s

/-- A waiting command whose axes are those of a held move completes. -/
def State.endHeld (s : State) (h : HeldMove) (status code : Nat) : State :=
  if h.wait then
    match s.mp.cmd with
    | some c => s.endCommand c.desc status code
    | none => s
  else s

/-- The pass-end signal of Shears for axis `a`: its held move is taken (R218, R448). Where a named axis has frozen in this update
the move is frozen with it, and one from the CR in the same update comes after it and replaces it (R438). -/
def State.passEnd (s : State) (a : Nat) : State :=
  match (s.getAxis a).held with
  | none => s
  | some h =>
    if !(s.domOn .motion && s.on (Fld.AX_CFG_PASS_EN a)) then s
    else
      let l := h.targets.map (fun t => t.1)
      let s := s.unhold h
      if l.any (fun b => (s.getAxis b).froze) then s.endHeld h Status.ok (s.rd (Fld.AX_STAT_LAST a))
      else if l.any (fun b => (s.getAxis b).took) then (s.motionEvent a 2 0 false (s.vact a) h.tag).endHeld h Status.ok 2
      else if l.any (fun b => s.axState b = 0) then s.endHeld h Status.busy 0x11
      else if s.moveBusy l then s.endHeld h Status.busy 0x12
      else
        let r := s.takeMoves h.targets h.rel h.tag h.wait h.ports
        if r.1 then
          match r.2.mp.cmd with
          | some c => r.2.endHeld h Status.ok (r.2.moveResult c.desc 1)
          | none => r.2
        else r.2

/-- A move is held by its axes; one held before is replaced (R448). -/
def State.holdMove (s : State) (h : HeldMove) : State :=
  h.targets.foldl (fun s t =>
    let s := match (s.getAxis t.1).held with
      | some o =>
        let s := (s.unhold o).motionEvent t.1 2 0 false (s.vact t.1) o.tag
        s.endHeld o Status.ok 2
      | none => s
    (s.onAxis t.1 (fun x => { x with held := some h })).wr (Fld.AX_STAT_HELD t.1) 1) s

/-! ## MOVE and HOME (R449 to R453) -/

/-- Why a MOVE or HOME for maintenance ports is refused (R449, R453). -/
def State.portsRefusal (s : State) (ports : Nat) : Option (Nat × Nat) :=
  let named := (List.range 16).filter (fun p => ports.testBit p)
  if named.isEmpty then none
  else if s.liveCtxs.any (fun c => decide (c ≠ 0) && !(s.getCtx c).inflight.isEmpty && named.any (fun p => s.ctxOnPort c p)) then
    some (Status.busy, 0x13)
  else if s.ctxState 0 ≠ 1 ∨ named.any (fun p => !(s.ctxPorts 0).contains p) then some (Status.ctxState, 0x14)
  else none

/-- The layout of a MOVE, by its MODE: what the mode does not read is not judged (R451). -/
def moveLayout (mode : Nat) : List Nat :=
  let all := 0xFFFFFFFF
  commandLayout ([0x73FF] ++ (if mode = 1 then List.replicate 8 all ++ [0xF, all, all, all, 0xFFFF]
    else if mode = 0 then List.replicate 12 all ++ [0xFFFF] else List.replicate 13 all))

/-- The operands of a POSITION move. -/
def moveTargets (d : Desc) : List (Nat × Int) := (moveAxes d).map (fun a => (a, signedOf 32 (dwAt d.dw (3 + a)).toNat))

/-- Why a MOVE is refused (R453). -/
def State.moveRefusal (s : State) (d : Desc) : Option (Nat × Nat) :=
  let l := moveAxes d
  let mode := d.fld 2 9 8
  let onPass := d.fld 2 13 13 = 1
  let rel := d.fld 2 14 14 = 1
  let off := !(s.domOn .motion && s.on Fld.TIL_STAT_SEQ_OK)
  let moves := fun (t : Nat × Int) => decide onPass || decide (s.targetOf t.1 rel t.2 ≠ (s.getAxis t.1).xact)
  if l.isEmpty ∨ mode = 3 ∨ d.reservedSet (moveLayout mode) then some (Status.descError, 0x01)
  else if !off && ((decide (mode = 0) && (moveTargets d).any (fun t => moves t && !(s.profile t.1).valid)) ||
      (decide (mode = 1) && l.any (fun a => !(s.profile a).valid))) then some (Status.descError, 0x02)
  else if mode = 1 ∧ (l.length ≠ 1 ∨ d.fld 2 12 12 = 1 ∨ onPass) then some (Status.descError, 0x03)
  else if off then some (Status.busy, 0x10)
  else if l.any (fun a => !s.on (Fld.AX_CFG_EN a)) then some (Status.busy, 0x11)
  else if (mode = 0 ∧ ¬ onPass ∧ s.moveBusy l) ∨ (mode = 1 ∧ l.any (fun a => decide (s.axState a = 5) || (s.getAxis a).group.isSome)) then
    some (Status.busy, 0x12)
  else if mode = 2 then none
  else s.portsRefusal (d.fld 15 15 0)

/-- The axes have taken a move of the CR in this update (R438). -/
def State.noteMoved (s : State) (l : List Nat) : State := l.foldl (fun s a => s.onAxis a (fun x => { x with took := true })) s

/-- Whether an axis has frozen in this update, so that a move taken in it is frozen with it (R438). -/
def State.anyFroze (s : State) (l : List Nat) : Bool := l.any (fun a => (s.getAxis a).froze)

/-- The common part of the MOVE commands (0x31): the row of a MODE runs `act`; a MOVE that has no valid mode or names no axis is refused
by each. -/
def State.moveCommand (s : State) (mode : Nat) (act : State → Desc → State) : State :=
  match s.nextCommand 0x31 with
  | none => s
  | some d =>
    if d.fld 2 9 8 ≠ mode ∧ d.fld 2 9 8 ≠ 3 then s
    else
      match s.moveRefusal d with
      | some r => s.finish d r.1 r.2
      | none => if s.mpMay 3 then act s d else s.finish d Status.busy 0

/-- A command waits until the motion of axes ends (R84, R453). -/
def State.waitMove (s : State) (d : Desc) (l : List Nat) : State :=
  s.beginCommand d (some 3) l

/-- MOVE_POSITION: MODE 0 (R435, R446, R448). -/
def execMovePosition (s : State) : Host.Outcome State Fault Refusal :=
  .next (s.unfrozen (fun s => s.moveCommand 0 (fun s d =>
    let rel := d.fld 2 14 14 = 1
    let wait := d.fld 2 12 12 = 1
    let l := moveAxes d
    let tag := dwAt d.dw 1
    let ports := d.fld 15 15 0
    if d.fld 2 13 13 = 1 then
      let s := s.holdMove ⟨moveTargets d, rel, tag, wait, ports⟩
      if wait then s.waitMove d l else s.finish d Status.ok (s.moveResult d 0)
    else
      if s.anyFroze l then s.finish d Status.ok (s.moveResult d (if wait then s.rd (Fld.AX_STAT_LAST (l.headD 0)) else 0)) else
      let r := s.takeMoves (moveTargets d) rel tag wait ports
      let r := (r.1, r.2.noteMoved l)
      if r.1 then r.2.finish d Status.ok (r.2.moveResult d 1)
      else if wait then r.2.waitMove d l
      else r.2.finish d Status.ok (r.2.moveResult d 0))))

/-- A gearing is taken (R447). -/
def State.takeGear (s : State) (a : Nat) (d : Desc) : State :=
  let s := if s.stands a then s.leaveRest a 4 else s.supersede a
  let n := d.fld 11 3 0
  let m := s.encCount n
  let mpos := signedOf 32 (dwAt d.dw 14).toNat
  let g : Gearing := ⟨n, (s.getAxis a).x, m, signedOf 32 (dwAt d.dw 12).toNat, signedOf 32 (dwAt d.dw 13).toNat, mpos,
    signInt (diff32 m mpos), decide (m = mpos)⟩
  let s := s.onAxis a (fun x => { x with
    gear := some g, run := false, rev := false, ending := 0, tag := dwAt d.dw 1, wait := false, ports := d.fld 15 15 0 })
  (s.wr (Fld.AX_STAT_DECEL a) 0).wr (Fld.AX_STAT_STATE a) 4

/-- MOVE_GEAR: MODE 1 (R447). -/
def execMoveGear (s : State) : Host.Outcome State Fault Refusal :=
  .next (s.unfrozen (fun s => s.moveCommand 1 (fun s d =>
    let s := if s.anyFroze (moveAxes d) then s else (s.takeGear ((moveAxes d).headD 0) d).noteMoved (moveAxes d)
    s.finish d Status.ok (s.moveResult d 0))))

/-- MOVE_SOFTSTOP: MODE 2 (R437). With WAIT the command waits for the axes that still move. -/
def execMoveSoftstop (s : State) : Host.Outcome State Fault Refusal :=
  .next (s.unfrozen (fun s => s.moveCommand 2 (fun s d =>
    let l := moveAxes d
    let s := l.foldl (fun s a => s.softAxis a 4) s
    let left := l.filter (fun a => decide (s.axState a ∈ [3, 4, 5]))
    if d.fld 2 12 12 = 1 ∧ left ≠ [] then
      (left.foldl (fun s a => s.onAxis a (fun x => { x with wait := true })) s).waitMove d left
    else s.finish d Status.ok (s.moveResult d 0))))

/-- Why a HOME is refused (R453). -/
def State.homeRefusal (s : State) (d : Desc) : Option (Nat × Nat) :=
  let a := d.fld 2 2 0
  let v := (dwAt d.dw 3).toNat
  let mode := s.rd (Fld.AX_CFG_STALL_MODE a)
  let off := !(s.domOn .motion && s.on Fld.TIL_STAT_SEQ_OK)
  let all := 0xFFFFFFFF
  if d.reservedSet (commandLayout ([0xFF1107, all, all, all, all, all] ++ List.replicate 7 0 ++ [0xFFFF])) then some (Status.descError, 0x01)
  else if !off && !(s.profile a).valid then some (Status.descError, 0x02)
  else if v = 0 ∨ dwAt d.dw 6 = 0 ∨ (!off ∧ (mode = 0 ∨ mode = 3 ∨ (mode = 1 ∧ s.bandOf a v = none))) then some (Status.descError, 0x04)
  else if off then some (Status.busy, 0x10)
  else if !s.on (Fld.AX_CFG_EN a) then some (Status.busy, 0x11)
  else if !s.stands a then some (Status.busy, 0x12)
  else s.portsRefusal (d.fld 15 15 0)

/-- A homing begins (R444). -/
def State.takeHome (s : State) (a : Nat) (d : Desc) : State :=
  let wait := d.fld 2 12 12 = 1
  let pos := d.fld 2 8 8 = 1
  let x0 := (s.getAxis a).xact
  let far := (dwAt d.dw 6).toNat
  let s := (s.leaveRest a 5).setTarget a (signedOf 32 (patternOf 32 (if pos then x0 + far else x0 - far)))
  s.onAxis a (fun x => { x with
    prof := { x.prof with cruise := (dwAt d.dw 3).toNat }, cur := .home, ending := 1, tag := dwAt d.dw 1, wait := wait, ports := d.fld 15 15 0,
    home := some ⟨false, pos, signedOf 32 (dwAt d.dw 4).toNat, (dwAt d.dw 5).toNat, (dwAt d.dw 7).toNat, x0, d.fld 2 23 16⟩ })

/-- HOME (0x32). -/
def execHome (s : State) : Host.Outcome State Fault Refusal :=
  .next (s.unfrozen (fun s =>
    match s.nextCommand 0x32 with
    | none => s
    | some d =>
      match s.homeRefusal d with
      | some r => s.finish d r.1 r.2
      | none =>
        if !s.mpMay 3 then s.finish d Status.busy 0
        else
          let a := d.fld 2 2 0
          if s.anyFroze [a] then s.finish d Status.ok (s.moveResult d (if d.fld 2 12 12 = 1 then 9 else 0)) else
          let s := (s.takeHome a d).noteMoved [a]
          if d.fld 2 12 12 = 1 then s.waitMove d [a] else s.finish d Status.ok (s.moveResult d 0)))

/-! ## Register writes (R436, R437, R442, R445, R456) -/

/-- A write of AXa_CFG: clearing EN is a fault stop, setting it brings the axis to standstill, and CNT0 and XE0 are captured (R432, R437,
R442). -/
def State.writeAxCfg (s : State) (m : Master) (a : Nat) (v : Word) : State :=
  let was := s.on (Fld.AX_CFG_EN a)
  let s := s.writeCode m (Reg.AX_CFG a) v
  let s :=
    if was && !s.on (Fld.AX_CFG_EN a) then s.faultAxis a 1
    else if !was && s.on (Fld.AX_CFG_EN a) then ((s.standstill a).showAxis a).bridgesOn a
    else s
  s.captureEnc a

/-- A write of AXa_DHIGH or AXa_DLOW; while the axis brakes, the deceleration in use becomes the larger (R436). -/
def State.writeDecel (s : State) (m : Master) (a : Nat) (high : Bool) (v : Word) : State :=
  let s := s.writeCode m (if high then Reg.AX_DHIGH a else Reg.AX_DLOW a) v
  if s.on (Fld.AX_STAT_DECEL a) then
    s.onAxis a (fun x => { x with prof := if high then { x.prof with dhigh := max x.prof.dhigh v.toNat }
      else { x.prof with dlow := max x.prof.dlow v.toNat } })
  else s

/-- A write of AXa_CTL: a stop request, a soft stop or the position set, in the order of R438 (R437, R445). -/
def State.writeAxCtl (s : State) (a : Nat) (v : Word) : State :=
  if bitOf v 31 then s.stopAxis a
  else
    let s := if bitOf v 30 then s.softAxis a 4 else s
    if bitOf v 29 ∧ s.stands a then
      (s.setPosition a (signedOf 32 (s.getReg (Reg.AX_XSET a)).toNat)).wr (Fld.AX_STAT_POS_VALID a) 1
    else s

/-- AXIS_STOP: a write of AXa_CTL with STOP set. -/
def execAxisStop (m : Master) (a : Fin 8) (v : Word) (s : State) : Host.Outcome State Fault Refusal :=
  .next (s.unfrozen (fun s => s.accessBy m (Reg.AX_CTL a) (fun s => s.writeAxCtl a (v ||| 0x80000000))))

/-- AXIS_SOFTSTOP: a write of AXa_CTL with SOFTSTOP set. -/
def execAxisSoftstop (m : Master) (a : Fin 8) (v : Word) (s : State) : Host.Outcome State Fault Refusal :=
  .next (s.unfrozen (fun s => s.accessBy m (Reg.AX_CTL a) (fun s => s.writeAxCtl a (v ||| 0x40000000))))

/-- SET_POS: a write of AXa_CTL with SET_POS set. -/
def execSetPos (m : Master) (a : Fin 8) (v : Word) (s : State) : Host.Outcome State Fault Refusal :=
  .next (s.unfrozen (fun s => s.accessBy m (Reg.AX_CTL a) (fun s => s.writeAxCtl a (v ||| 0x20000000))))

/-- A write of TIL_CTL (R437). -/
def State.writeTilCtl (s : State) (v : Word) : State :=
  if bitOf v 31 then (List.range 8).foldl (fun s a => s.freezeOne 3 0 false false a) s else s

/-- STOP_ALL: a write of TIL_CTL with STOP_ALL set. -/
def execStopAll (m : Master) (v : Word) (s : State) : Host.Outcome State Fault Refusal :=
  .next (s.unfrozen (fun s => s.accessBy m Reg.TIL_CTL (fun s => s.writeTilCtl (v ||| 0x80000000))))

end Sys2Proof.Machine
end

