-- ==== Sys2Proof/Machine/Rake.lean ====
section
/-! DEFINITION. Rake, its fault scopes, Thaw and the arming of an injection (R479 to R503, spec/15_rake_fault_handling.md). -/

namespace Sys2Proof.Machine

def State.onRake (s : State) (f : RakeSt → RakeSt) : State := { s with rake := f s.rake }

/-! ## Levels (R480, R481) -/

/-- Whether a level report that meets a description is asserted at AON. -/
def State.levelOn (s : State) (p : Level → Bool) : Bool := s.rake.levels.any p

/-- Whether the tine of an island is lost (R481). -/
def State.tineLost (s : State) (i : Nat) : Bool := s.levelOn (fun l => decide (l.src = 2) && decide (l.low = i) && !l.rail)

/-! ## Scopes (R489 to R493) -/

/-- The scope numbers of R489. -/
def scopeNumbers : List Nat :=
  0 :: (List.range 16).map (fun p => 0x100 + p) ++ (List.range 255).map (fun n => 0x200 + n)

/-- The Thaw configuration of a scope's class (R493). -/
def thawReg (sc : Nat) : Nat :=
  if sc = 0 then Reg.RAKE_THAW_DEV else if sc < 0x200 then Reg.RAKE_THAW_PORT else Reg.RAKE_THAW_CTX

/-- QUIET, LIMIT and WINDOW as they apply, QUIET and WINDOW in TB units (R493, R502). -/
def State.thawQuiet (s : State) (sc : Nat) : Nat := min (bitsOf (s.getReg (thawReg sc)) 9 0) 1000 * 4000000
def State.thawLimit (s : State) (sc : Nat) : Nat := bitsOf (s.getReg (thawReg sc)) 15 12
def State.thawWindow (s : State) (sc : Nat) : Nat := max (bitsOf (s.getReg (thawReg sc)) 31 16) 1 * 4000000000

/-- The recoveries of a scope within its WINDOW (R493). -/
def State.recoveries (s : State) (sc : Nat) : List Nat :=
  (Store.get (fun _ => []) s.rake.hist sc).filter (fun t => decide (s.tb.toNat ≤ t + s.thawWindow sc))

/-- Whether a scope is that of a retired port (R282), or of an absent one, which is no different (R3). -/
def State.scopeRetired (s : State) (sc : Nat) : Bool := decide (0x100 ≤ sc ∧ sc < 0x110) && !s.portPresent (sc - 0x100)

/-- Whether a scope is held (R493). -/
def State.scopeHeld (s : State) (sc : Nat) : Bool :=
  s.levelOn (fun l => decide (l.scope = sc)) || s.scopeRetired sc ||
  (decide (0x100 ≤ sc ∧ sc < 0x110) && decide (s.rd (Fld.HK_CH_VAL_STATE (40 + (sc - 0x100))) = 3))

/-- The quiet period of a scope counts from now (R493). -/
def State.restartQuiet (s : State) (sc : Nat) : State :=
  s.onRake (fun r => { r with quiet := Store.put (fun _ => 0) r.quiet sc s.tb.toNat })

/-- The FAULT_SCOPE event of a scope (R491). -/
def State.scopeEvent (s : State) (sc kind src : Nat) : State :=
  s.event 0x08 sc [BitVec.ofNat 32 kind, BitVec.ofNat 32 src, BitVec.ofNat 32 (s.rd (Fld.RAKE_SCOPE_RECOV_CNT sc)),
    BitVec.ofNat 32 (s.recoveries sc).length]

/-- A scope that is OK enters FAULT: its contexts are FAULTED, and for the device every axis makes a fault stop (R110, R490). -/
def State.faultScope (s : State) (sc kind src : Nat) : State :=
  if s.scopeState sc ≠ 0 then s
  else
    let s := (s.wr (Fld.RAKE_SCOPE_STATE sc) 1).scopeEvent sc kind src
    let s := s.faultCtxs sc
    if sc = 0 then s.faultAxes 5 else s

/-- A fatal report for a scope: it enters FAULT where it is OK, and its quiet period counts from now (R490, R493). -/
def State.onFatal (s : State) (sc src : Nat) : State := (s.faultScope sc 1 src).restartQuiet sc

/-- A scope returns to OK: every context for which it was the last leaves cause RAKE_SCOPE (R110, R494). -/
def State.scopeOk (s : State) (sc kind : Nat) : State :=
  let s := (s.wr (Fld.RAKE_SCOPE_STATE sc) 0).scopeEvent sc kind 0x3FF
  (s.boundCtxs.filter (fun c => (s.ctxScopes c).contains sc && !s.ctxScopeBad c)).foldl (fun s c => s.leaveFaulted c [0x08] 0x09 sc) s

/-! ## Reports (R484 to R488) -/

/-- The scope of a report of class fatal (R480, R482). -/
def Report.scope (r : Report) (cfg : Nat) : Nat :=
  if r.src = 2 then (if 6 ≤ r.synd.toNat ∧ r.synd.toNat ≤ 21 then 0x100 + (r.synd.toNat - 6) else 0)
  else if cfg = 0x3FF then 0 else cfg

/-- The class of a report: a broken wire is fatal, any other has its source's class or severity (R480, R484). -/
def State.reportClass (s : State) (r : Report) : Nat := if r.rail then 3 else s.rd (Fld.RAKE_SRC_CFG_SEV r.src)

/-- Whether a source is listed and its unit present (R482, R503). -/
def State.sourcePresent (s : State) (n : Nat) : Bool :=
  (sourceOf n).isSome &&
  (if 0x040 ≤ n ∧ n < 0x0B0 then s.portPresent (n % 16) else if 0x100 ≤ n ∧ n ≤ 0x1FE then s.ctxPresent (n - 0x100) else true)

/-- The high word of a report's syndrome (R482). -/
def Report.high (r : Report) : Nat :=
  r.mast + (if r.rail then 2 ^ 16 else 0) + (if r.inj then 2 ^ 17 else 0) + (if r.coinc then 2 ^ 18 else 0)

/-- The first-error latch takes a report, or records that a later one came: whether it was latched, and the state (R486). -/
def State.latchFirst (s : State) (r : Report) (cls : Nat) : Bool × State :=
  if s.on Fld.RAKE_FIRST_SRC_VALID then (false, s.wr Fld.RAKE_FIRST_SRC_OVF 1)
  else
    let s := ((s.wr Fld.RAKE_FIRST_SRC_SRC r.src).wr Fld.RAKE_FIRST_SRC_CLASS cls).wr Fld.RAKE_FIRST_SRC_VALID 1
    let s := s.wr64 Reg.RAKE_FIRST_TB_LO r.tb.toNat
    (true, (s.setReg Reg.RAKE_FIRST_SYND_LO r.synd).setReg Reg.RAKE_FIRST_SYND_HI (BitVec.ofNat 32 r.high))

/-- The counter of a class (R484). -/
def State.countClass (s : State) (cls : Nat) : State :=
  match cls with
  | 1 => s.bumpSat Fld.RAKE_CNT_CORR_COUNT
  | 2 => s.bumpSat Fld.RAKE_CNT_CONT_COUNT
  | 3 => s.bumpSat Fld.RAKE_CNT_FATAL_COUNT
  | _ => s

/-- ERR_N for a report: a pulse begins where its class pulses the pin and the pin is not low (R484, R488). -/
def State.pulseErrN (s : State) (cls : Nat) : State :=
  let pulses := decide (cls = 3) || (decide (cls = 2) && s.on Fld.RAKE_CFG_ERRN_CONT) || (decide (cls = 1) && s.on Fld.RAKE_CFG_ERRN_CORR)
  if pulses && !s.on Fld.RAKE_ERRN_LOW then (s.wr Fld.RAKE_ERRN_LOW 1).onRake (fun x => { x with pulse := some s.tb.toNat }) else s

/-- The RAKE_ERROR event of a report, or one more report without one: a source of class corrected writes at most one in each ms (R484,
R487). -/
def State.rakeEvent (s : State) (r : Report) (cls sc : Nat) (first : Bool) : State :=
  let missed := Store.get (fun _ => 0) s.rake.missed r.src
  let soon := match Store.get (fun _ => none) s.rake.lastEv r.src with
    | none => false
    | some t => decide (s.tb.toNat < t + 4000000)
  if cls = 0 ∨ (cls = 1 ∧ soon = true) then
    s.onRake (fun x => { x with missed := Store.put (fun _ => 0) x.missed r.src (satAdd 16 missed 1) })
  else
    let d0 := cls + (if r.rail then 2 ^ 8 else 0) + (if r.inj then 2 ^ 9 else 0) + (if r.coinc then 2 ^ 10 else 0) +
      (if first then 2 ^ 11 else 0) + r.mast * 2 ^ 16
    let s := s.event 0x07 r.src [BitVec.ofNat 32 d0, r.synd, BitVec.ofNat 32 (if cls = 3 then sc else 0xFFFF), BitVec.ofNat 32 missed]
    s.onRake (fun x => { x with
      missed := Store.put (fun _ => 0) x.missed r.src 0
      lastEv := Store.put (fun _ => none) x.lastEv r.src (some s.tb.toNat) })

/-- ACTIVE and RAIL of a source follow its level reports (R503). -/
def State.showSource (s : State) (n : Nat) : State :=
  (s.wrBit (Fld.RAKE_SRC_CNT_ACTIVE n) (s.levelOn (fun l => decide (l.src = n)))).wrBit (Fld.RAKE_SRC_CNT_RAIL n)
    (s.levelOn (fun l => decide (l.src = n) && l.rail))

/-- A level report begins at AON. -/
def State.beginLevel (s : State) (r : Report) (sc : Nat) : State :=
  if r.level then
    (s.onRake (fun x => { x with levels := x.levels ++ [⟨r.src, r.synd.toNat, r.rail, sc⟩] })).showSource r.src
  else s

/-- A report at AON: counted, latched, signalled, written as an event, and for class fatal in its scope (R484 to R490). -/
def State.takeReport (s : State) (r : Report) : State :=
  let cls := s.reportClass r
  let sc := r.scope (s.rd (Fld.RAKE_SRC_CFG_SCOPE r.src))
  let s := (s.bumpSat (Fld.RAKE_SRC_CNT_COUNT r.src)).countClass cls
  let x := if cls = 0 then (false, s) else s.latchFirst r cls
  let s := (x.2.pulseErrN cls).rakeEvent r cls sc x.1
  let s := s.beginLevel r sc
  if cls = 3 then s.onFatal sc r.src else s

/-- The first report of a list whose tine is not lost, with the list without it (R481, R486). -/
def firstReport (lost : Report → Bool) : List Report → Option (Report × List Report)
  | [] => none
  | r :: t => if lost r then (firstReport lost t).map (fun x => (x.1, r :: x.2)) else some (r, t)

/-- Whether a report has to wait: the tine of its island is lost (R481). -/
def State.reportWaits (s : State) (r : Report) : Bool := decide (r.src ≠ 2) && s.tineLost (sourceIsland r.src r.synd.toNat)

/-- The reports on their way to AON without the `i`-th; a completion behind it waits for one less (R92). -/
def State.popReport (s : State) (i : Nat) (rest : List Report) : State :=
  { s with
    rakeQ := rest
    host := { s.host with cqQueue := s.host.cqQueue.map (fun c => if i < c.after then { c with after := c.after - 1 } else c) } }

/-- CQ_ENTRY_WRITE: a waiting completion is written when the CQ has room and the link is up (R59, R76), the reports that arose before it
having been handled, so that their events precede it (R92). -/
def execCqEntryWrite (s : State) : Host.Outcome State Fault Refusal :=
  .next (s.unfrozen (fun s =>
    match s.host.cqQueue with
    | [] => s
    | c :: rest =>
      if s.entryRoom .cq && (s.rakeQ.take c.after).all s.reportWaits then
        { s with host := { s.host with cqQueue := rest } }.writeCqEntry c
      else s))

/-- RAKE_REPORT: the report that is next at AON is handled. One of an absent source, or of an absent unit, has no effect (R482). A fatal one
that latches first freezes the controller while ON_FATAL is set (R585). -/
def execRakeReport (s : State) : Host.Outcome State Fault Refusal :=
  .next (s.unfrozen (fun s =>
    match firstReport s.reportWaits s.rakeQ with
    | none => s
    | some (r, rest) =>
      let t := s.popReport (s.rakeQ.findIdx (fun r => !s.reportWaits r)) rest
      if s.sourcePresent r.src then
        let u := State.watchKeep s true (t.takeReport r)
        if !s.on Fld.RAKE_FIRST_SRC_VALID && u.on Fld.RAKE_FIRST_SRC_VALID && decide (u.rd Fld.RAKE_FIRST_SRC_CLASS = 3) &&
           s.on Fld.HF_CFG_ON_FATAL then u.freeze 3 else u
      else t))

/-! ## Level reports (R480, R481, R493) -/

/-- Whether the condition of a level report is over: no shutdown, the island's clock running or its domain off (R470, R472, R574). What
an echo or a report wire does is not in the state. -/
def State.levelOver (s : State) (l : Level) : Bool :=
  if l.rail then true
  else if l.src = 0 then decide (s.rd Fld.HK_STAT_DIE_STATE ≠ 3) && !s.pcr.dieShut
  else if 0x050 ≤ l.src ∧ l.src < 0x060 then decide (s.rd (Fld.HK_CH_VAL_STATE (40 + (l.src - 0x050))) ≠ 3)
  else if l.src = 2 then bitOf (s.getReg Reg.PCR_PLL_STAT) l.low || !s.domOn (islandDomain l.low)
  else true

/-- The first level report that matches ends: the hold of its scope ends with it (R493). -/
def State.endLevel (s : State) (p : Level → Bool) : State :=
  match s.rake.levels.find? p with
  | none => s
  | some l => (((s.onRake (fun x => { x with levels := x.levels.erase l })).showSource l.src).restartQuiet l.scope)

/-- LEVEL_REPORT_END: a level report ends at AON, its condition being over. -/
def execLevelReportEnd (src : Fin 1024) (low : Word) (rail : Bool) (s : State) : Host.Outcome State Fault Refusal :=
  .next (s.unfrozen (fun s => s.endLevel (fun l => decide (l.src = src) && decide (l.low = low.toNat) && decide (l.rail = rail) && s.levelOver l)))

/-- TINE_LOST: no heartbeat has arrived for 16 µs from an island whose domain is on and which is not stopped (R481). -/
def execTineLost (i : Fin 27) (s : State) : Host.Outcome State Fault Refusal :=
  .next (s.unfrozen (fun s =>
    if i.val ≠ 0 && s.domOn (islandDomain i) && !s.islandStopped i && !s.tineLost i &&
       !s.rakeQ.any (fun r => decide (r.src = 2) && decide (r.synd.toNat = i.val) && r.level) &&
       (decide (i.val < 6 ∨ 21 < i.val) || s.portPresent (i.val - 6)) then
      s.reportLevel 0x002 (BitVec.ofNat 32 i)
    else s))

/-! ## ERR_N and the latch (R486, R488) -/

/-- ERR_PW in TB units: 10 µs units, 0 applying 1, above 1,000 applying 1,000 (R502). -/
def State.errPulse (s : State) : Nat := max 1 (min 1000 (s.rd Fld.RAKE_CFG_ERR_PW)) * 40000

/-- ERR_N_PULSE_END: the pulse has lasted ERR_PW × 10 µs; the pin stays low when HOLD is set. -/
def execErrNPulseEnd (s : State) : Host.Outcome State Fault Refusal :=
  .next (
    if s.rake.pulse.any (fun t => s.past t s.errPulse) then
      (s.onRake (fun x => { x with pulse := none })).wrBit Fld.RAKE_ERRN_LOW (s.on Fld.RAKE_ERRN_HOLD)
    else s)

/-- A write of RAKE_ERRN (R488). -/
def State.writeErrN (s : State) (m : Master) (v : Word) : State :=
  let s := s.writeCode m Reg.RAKE_ERRN v
  if bitOf v 30 && s.rake.pulse.isNone then s.wr Fld.RAKE_ERRN_LOW 0 else s

/-- ERR_N_RELEASE: a write of RAKE_ERRN with RELEASE set. -/
def execErrNRelease (m : Master) (v : Word) (s : State) : Host.Outcome State Fault Refusal :=
  .next (s.unfrozen (fun s => s.accessBy m Reg.RAKE_ERRN (fun s => s.writeErrN m (v ||| 0x40000000))))

/-- A write of RAKE_CTL (R486). -/
def State.writeRakeCtl (s : State) (v : Word) : State :=
  if bitOf v 0 then (s.wr Fld.RAKE_FIRST_SRC_VALID 0).wr Fld.RAKE_FIRST_SRC_OVF 0 else s

/-- CLR_FIRST: a write of RAKE_CTL with CLR_FIRST set. -/
def execClrFirst (m : Master) (v : Word) (s : State) : Host.Outcome State Fault Refusal :=
  .next (s.unfrozen (fun s => s.accessBy m Reg.RAKE_CTL (fun s => s.writeRakeCtl (v ||| 1))))

/-! ## Actions on a scope (R492) -/

/-- CLEAR: a scope in FAULT or LATCHED returns to OK with an empty history. A level report still asserted puts it in FAULT again. -/
def State.clearScope (s : State) (sc : Nat) : State :=
  if s.scopeState sc = 0 ∨ s.scopeRetired sc then s
  else
    let s := (s.onRake (fun x => { x with hist := Store.put (fun _ => []) x.hist sc [] })).scopeOk sc 4
    match s.rake.levels.find? (fun l => decide (l.scope = sc)) with
    | none => s
    | some l => s.onFatal sc l.src

/-- FORCE: a scope that is OK enters FAULT, as by a fatal report. -/
def State.forceScope (s : State) (sc : Nat) : State :=
  if s.scopeState sc ≠ 0 ∨ s.scopeRetired sc then s else (s.faultScope sc 5 0x3FF).restartQuiet sc

/-- A write of RAKE_SCOPEs by its ACTION. A write without an action sets RECOV_CNT by its access code; one with an action leaves it
(R17, R492). -/
def State.writeScope (s : State) (m : Master) (sc : Nat) (v : Word) : State :=
  if !scopeNumbers.contains sc then s
  else
    match bitsOf v 31 30 with
    | 1 => s.clearScope sc
    | 2 => s.forceScope sc
    | _ => s.writeCode m (Reg.RAKE_SCOPE sc) v

/-- SCOPE_CLEAR: a write of RAKE_SCOPEs with ACTION CLEAR. -/
def execScopeClear (m : Master) (sc : Fin 1024) (s : State) : Host.Outcome State Fault Refusal :=
  .next (s.unfrozen (fun s => State.watchKeep s true (s.accessBy m (Reg.RAKE_SCOPE sc) (fun s => s.writeScope m sc 0x40000000))))

/-- SCOPE_FORCE: a write of RAKE_SCOPEs with ACTION FORCE. -/
def execScopeForce (m : Master) (sc : Fin 1024) (s : State) : Host.Outcome State Fault Refusal :=
  .next (s.unfrozen (fun s => State.watchKeep s true (s.accessBy m (Reg.RAKE_SCOPE sc) (fun s => s.writeScope m sc 0x80000000))))

/-! ## Thaw (R493) -/

/-- One ms tick of Thaw for one scope. -/
def State.thaw (s : State) (sc : Nat) : State :=
  if s.scopeState sc ≠ 1 || decide (s.thawQuiet sc = 0) || s.scopeHeld sc ||
     decide (s.tb.toNat < Store.get (fun _ => 0) s.rake.quiet sc + s.thawQuiet sc) then s
  else
    let l := s.recoveries sc
    let s := s.onRake (fun x => { x with hist := Store.put (fun _ => []) x.hist sc l })
    if s.thawLimit sc ≤ l.length then (s.wr (Fld.RAKE_SCOPE_STATE sc) 2).scopeEvent sc 3 0x3FF
    else
      let s := s.bumpSat (Fld.RAKE_SCOPE_RECOV_CNT sc)
      let s := s.onRake (fun x => { x with hist := Store.put (fun _ => []) x.hist sc (l ++ [s.tb.toNat]) })
      s.scopeOk sc 2

/-- THAW_TICK: each ms Thaw acts on every scope; not while the controller is frozen (R493, R586). -/
def execThawTick (s : State) : Host.Outcome State Fault Refusal :=
  .next (s.unfrozen (fun s => State.watchKeep s true (scopeNumbers.foldl (fun s sc => s.thaw sc) s)))

/-! ## Injection (R496, R502) -/

/-- A write of RAKE_INJ_CTL arms an injection, replaces it, or with MODE 0 or 3 ends it. -/
def State.writeInjCtl (s : State) (m : Master) (v : Word) : State :=
  let s := s.writeCode m Reg.RAKE_INJ_CTL v
  { s.wrBit Fld.RAKE_INJ_CTL_ARMED (decide (bitsOf v 31 30 = 1 ∨ bitsOf v 31 30 = 2)) with injLast := none }

/-- INJECTION_ARM. -/
def execInjectionArm (m : Master) (v : Word) (s : State) : Host.Outcome State Fault Refusal :=
  .next (s.unfrozen (fun s => s.accessBy m Reg.RAKE_INJ_CTL (fun s => s.writeInjCtl m v)))

end Sys2Proof.Machine
end

