-- ==== Sys2Proof/Machine/Housekeep.lean ====
section
/-! DEFINITION. The channels of housekeeping: what their registers show, their events, and a channel taken out of use (R463 to R466, R474,
R478, spec/14_thermal_supervision.md). -/

namespace Sys2Proof.Machine

/-- The STATE of a channel as its register shows it (R478): 0 NORMAL, 1 WARN, 2 THROTTLE, 3 SHUTDOWN. -/
def State.chanLevel (s : State) (c : Nat) : Nat := s.rd (Fld.HK_CH_VAL_STATE c)

/-- The state that act bits and the rate condition make; a RATE_ACT of 3 acts as 2 (R462). -/
def State.levelFor (s : State) (c : Nat) (x : HkChan) : Nat :=
  let top := if x.act.getD 2 false then 3 else if x.act.getD 1 false then 2 else if x.act.getD 0 false then 1 else 0
  max top (if x.ract then min 2 (s.rd (Fld.HK_CH_CFG_RATE_ACT c)) + 1 else 0)

/-- A THERMAL event of a channel (R474). -/
def State.thermalEvent (s : State) (c kind old : Nat) (d3 : Int) : State :=
  s.event 0x0B c [BitVec.ofNat 32 (kind + old * 2 ^ 4 + s.chanLevel c * 2 ^ 8 + s.rd (Fld.HK_CH_VAL_HOT c) * 2 ^ 12),
    BitVec.ofNat 32 (s.rd (Fld.HK_CH_VAL_VALUE c)), BitVec.ofNat 32 (s.rd (Fld.HK_CH_RAW_ROR c)), BitVec.ofNat 32 (patternOf 16 d3)]

/-- The registers of a channel show what it holds; VALUE reads 0 while it has no value in use (R464, R478). -/
def State.showChan (s : State) (c : Nat) (x : HkChan) (hot : Bool) : State :=
  let s := (s.setChan c x).wr (Fld.HK_CH_VAL_VALUE c) (patternOf 16 (x.value.getD 0))
  let s := ((s.wrBit (Fld.HK_CH_VAL_BROKEN c) x.broken).wrBit (Fld.HK_CH_VAL_SUBST c) x.subst).wrBit (Fld.HK_CH_VAL_RATE c) x.ract
  (s.wr (Fld.HK_CH_VAL_STATE c) (s.levelFor c x)).wrBit (Fld.HK_CH_VAL_HOT c) hot

/-- What follows for a head from a change of its channel's state: its throttle begins or ends, and the quiet period of its port's scope
counts from the end of a shutdown (R469, R470). -/
def State.headLeaves (s : State) (c old : Nat) : State :=
  let now := s.chanLevel c
  let s := if (old = 2) = (now = 2) then s else { s with throttle := Store.drop (fun k => decide (k / 256 + 40 = c)) s.throttle }
  if old = 3 ∧ now ≠ 3 then s.restartQuiet (0x100 + (c - 40)) else s

/-- A channel whose FITTED bit is clear is neither sampled for limits nor marked broken (R464): what it held is gone, and each condition
that ends so writes its event (R474). -/
def State.unfit (s : State) (c : Nat) : State :=
  let x := s.getChan c
  let old := s.chanLevel c
  let s := (s.showChan c HkChan.reset false).wr (Fld.HK_CH_RAW_ROR c) 0
  let s := if x.broken then s.thermalEvent c 4 old 0 else s
  let s := if x.subst then s.thermalEvent c 6 old 0 else s
  let s := if old = 0 then s else s.thermalEvent c 1 old 0
  let s := if x.ract then s.thermalEvent c 2 old 0 else s
  if 40 ≤ c then s.headLeaves c old else s

end Sys2Proof.Machine
end

