-- ==== Sys2Proof/Machine/Crypto.lean ====
section
/-! DEFINITION. The published algorithms that the spec names: SHA-256 and HMAC-SHA-256 (R346, R539), AES-256, its key wrap and
AES-256-GCM (R540). Bytes are numbers below 256, in the order in which a message holds them. -/

namespace Sys2Proof.Machine

/-! ## Bytes -/

/-- A number in big-endian order: `k` bytes. -/
def beBytes (k v : Nat) : List Nat := (List.range k).map (fun i => v / 2 ^ (8 * (k - 1 - i)) % 256)

/-- The number that bytes hold in big-endian order. -/
def beNat (l : List Nat) : Nat := l.foldl (fun n b => n * 256 + b % 256) 0

/-- Bytes `i` to `i + n - 1` of a list. -/
def sliceOf (l : List Nat) (i n : Nat) : List Nat := (l.drop i).take n

/-- A list in pieces of `n`, at most `k` of them. -/
def piecesOf (n : Nat) : Nat → List Nat → List (List Nat)
  | 0, _ => []
  | k + 1, l => if l.isEmpty then [] else l.take n :: piecesOf n k (l.drop n)

/-- Bytes combined by exclusive or. -/
def xorBytes (x y : List Nat) : List Nat := List.zipWith (fun a b => a ^^^ b) x y

/-! ## SHA-256 (FIPS 180-4) -/

def shaK0 : List Nat :=
  [0x428A2F98, 0x71374491, 0xB5C0FBCF, 0xE9B5DBA5, 0x3956C25B, 0x59F111F1, 0x923F82A4, 0xAB1C5ED5, 0xD807AA98,
   0x12835B01, 0x243185BE, 0x550C7DC3, 0x72BE5D74, 0x80DEB1FE, 0x9BDC06A7, 0xC19BF174]

def shaK1 : List Nat :=
  [0xE49B69C1, 0xEFBE4786, 0x0FC19DC6, 0x240CA1CC, 0x2DE92C6F, 0x4A7484AA, 0x5CB0A9DC, 0x76F988DA, 0x983E5152,
   0xA831C66D, 0xB00327C8, 0xBF597FC7, 0xC6E00BF3, 0xD5A79147, 0x06CA6351, 0x14292967]

def shaK2 : List Nat :=
  [0x27B70A85, 0x2E1B2138, 0x4D2C6DFC, 0x53380D13, 0x650A7354, 0x766A0ABB, 0x81C2C92E, 0x92722C85, 0xA2BFE8A1,
   0xA81A664B, 0xC24B8B70, 0xC76C51A3, 0xD192E819, 0xD6990624, 0xF40E3585, 0x106AA070]

def shaK3 : List Nat :=
  [0x19A4C116, 0x1E376C08, 0x2748774C, 0x34B0BCB5, 0x391C0CB3, 0x4ED8AA4A, 0x5B9CCA4F, 0x682E6FF3, 0x748F82EE,
   0x78A5636F, 0x84C87814, 0x8CC70208, 0x90BEFFFA, 0xA4506CEB, 0xBEF9A3F7, 0xC67178F2]

/-- The round constants. -/
def shaK : List Nat := shaK0 ++ shaK1 ++ shaK2 ++ shaK3

/-- The initial hash value. -/
def shaInit : List Word :=
  [0x6A09E667, 0xBB67AE85, 0x3C6EF372, 0xA54FF53A, 0x510E527F, 0x9B05688C, 0x1F83D9AB, 0x5BE0CD19]

/-- A message padded to whole blocks of 64 bytes. -/
def shaPad (m : List Nat) : List Nat :=
  m ++ [0x80] ++ List.replicate ((55 + 64 - m.length % 64) % 64) 0 ++ beBytes 8 (m.length * 8)

/-- One further word of the message schedule, kept with the newest word first. -/
def shaNext (w : List Word) : Word :=
  let a := w.getD 14 0
  let b := w.getD 1 0
  (b.rotateRight 17 ^^^ b.rotateRight 19 ^^^ (b >>> 10)) + w.getD 6 0 + (a.rotateRight 7 ^^^ a.rotateRight 18 ^^^ (a >>> 3)) + w.getD 15 0

/-- The schedule extended by `k` words. -/
def shaExtend : Nat → List Word → List Word
  | 0, w => w
  | k + 1, w => shaExtend k (shaNext w :: w)

/-- One round over the eight working variables. -/
def shaRound (v : List Word) (x : Word × Nat) : List Word :=
  match v with
  | [a, b, c, d, e, f, g, h] =>
    let t1 := h + (e.rotateRight 6 ^^^ e.rotateRight 11 ^^^ e.rotateRight 25) + ((e &&& f) ^^^ (~~~e &&& g)) + BitVec.ofNat 32 x.2 + x.1
    let t2 := (a.rotateRight 2 ^^^ a.rotateRight 13 ^^^ a.rotateRight 22) + ((a &&& b) ^^^ (a &&& c) ^^^ (b &&& c))
    [t1 + t2, a, b, c, d + t1, e, f, g]
  | _ => v

/-- One block of 64 bytes taken into the hash value. -/
def shaBlock (h : List Word) (blk : List Nat) : List Word :=
  let w := ((piecesOf 4 16 blk).map (fun b => BitVec.ofNat 32 (beNat b))).reverse
  let ws := (shaExtend 48 w).reverse
  List.zipWith (· + ·) h ((ws.zip shaK).foldl shaRound h)

/-- SHA-256 of a message. -/
def sha256 (m : List Nat) : List Nat :=
  let p := shaPad m
  ((piecesOf 64 (p.length / 64) p).foldl shaBlock shaInit).flatMap (fun w => beBytes 4 w.toNat)

/-- HMAC-SHA-256 of a message under a key of at most 64 bytes. -/
def hmac256 (key m : List Nat) : List Nat :=
  let k := key ++ List.replicate (64 - key.length) 0
  sha256 (k.map (fun b => b ^^^ 0x5C) ++ sha256 (k.map (fun b => b ^^^ 0x36) ++ m))

/-! ## AES-256 (FIPS 197) -/

/-- The substitution table as one number, entry `b` being its byte `b`. -/
def sboxNum : Nat :=
  0xC072A49CAFA2D4ADF04759FA7DC982CA76ABD7FE2B670130C56F6BF27B777C63 +
  0x75B227EBE28012079A059618C323C7041531D871F1E5A534CCF73F362693FDB7 * 2 ^ 256 +
  0xCF584C4A39BECB6A5BB1FC20ED00D153842FE329B3D63B52A05A6E1B1A2C8309 * 2 ^ 512 +
  0xD2F3FF1021DAB6BCF5389D928F40A351A89F3C507F02F94585334D43FBAAEFD0 * 2 ^ 768 +
  0xDB0B5EDE14B8EE4688902A22DC4F816073195D643D7EA7C41744975FEC130CCD * 2 ^ 1024 +
  0x08AE7A65EAF4566CA94ED58D6D37C8E779E4959162ACD3C25C2406490A3A32E0 * 2 ^ 1280 +
  0x9E1DC186B95735610EF6034866B53E708A8BBD4B1F74DDE8C6B4A61C2E2578BA * 2 ^ 1536 +
  0x16BB54B00F2D99416842E6BF0D89A18CDF2855CEE9871E9B948ED9691198F8E1 * 2 ^ 1792

/-- The inverse of the substitution table, in the same form. -/
def invSboxNum : Nat :=
  0xCBE9DEC444438E3487FF2F9B8239E37CFBD7F3819EA340BF38A53630D56A0952 +
  0x25D18B6D49A25B76B224D92866A12E084EC3FA420B954CEE3D23C2A632947B54 * 2 ^ 256 +
  0x849D8DA75746155EDAB9EDFD5048706C92B6655DCC5CA4D41698688664F6F872 * 2 ^ 512 +
  0x6B8A130103BDAFC1020F3FCA8F1E2CD00645B3B80558E4F70AD3BC8C00ABD890 * 2 ^ 768 +
  0x6EDF751CE837F9E28535ADE72274AC9673E6B4F0CECFF297EADC674F4111913A * 2 ^ 1024 +
  0xF45ACD78FEC0DB9A2079D2C64B3E56FC1BBE18AA0E62B76F89C5291D711AF147 * 2 ^ 1280 +
  0xEF9CC9939F7AE52D0D4AB519A97F51605FEC8027591012B131C7078833A8DD1F * 2 ^ 1536 +
  0x7D0C2155631469E126D677BA7E042B17619953833CBBEBC8B0F52AAE4D3BE0A0 * 2 ^ 1792

def subByte (b : Nat) : Nat := sboxNum / 2 ^ (8 * b) % 256
def invSubByte (b : Nat) : Nat := invSboxNum / 2 ^ (8 * b) % 256

/-- Multiplication by x in the field of AES, its polynomial being 0x11B. -/
def xtime (a : Nat) : Nat := (2 * a) ^^^ (a / 128 * 0x11B)

/-- Multiplication in the field of AES by a number below 16. -/
def gmul (a c : Nat) : Nat :=
  (c % 2 * a) ^^^ (c / 2 % 2 * xtime a) ^^^ (c / 4 % 2 * xtime (xtime a)) ^^^ (c / 8 % 2 * xtime (xtime (xtime a)))

/-- The next 8 words of the key schedule from the last 8, newest first. -/
def keyWords (rc : Nat) (prev : List (List Nat)) : List (List Nat) :=
  (List.range 8).foldl (fun ws i =>
    let last := ws.headD []
    let t := if i = 0 then xorBytes ((last.drop 1 ++ last.take 1).map subByte) [rc, 0, 0, 0]
      else if i = 4 then last.map subByte else last
    xorBytes (ws.getD 7 []) t :: ws) prev

/-- The 15 round keys of a 256-bit key. -/
def roundKeys (key : List Nat) : List (List Nat) :=
  let ws := ([1, 2, 4, 8, 16, 32, 64].foldl (fun ws rc => keyWords rc ws) (piecesOf 4 8 key).reverse).reverse
  (List.range 15).map (fun r => ((ws.drop (4 * r)).take 4).flatten)

/-- The rows of a state shifted: byte `i` of the result is byte `i + 4 (i mod 4) k` of the state. -/
def shiftRows (k : Nat) (s : List Nat) : List Nat := (List.range 16).map (fun i => s.getD ((i + 4 * (i % 4) * k) % 16) 0)

/-- The columns of a state multiplied by the circulant matrix of `c`. -/
def mixColumns (c : List Nat) (s : List Nat) : List Nat :=
  (List.range 16).map (fun i =>
    (List.range 4).foldl (fun x j => x ^^^ gmul (s.getD (4 * (i / 4) + j) 0) (c.getD ((j + 4 - i % 4) % 4) 0)) 0)

/-- One block of 16 bytes encrypted under round keys. -/
def aesEncrypt (rk : List (List Nat)) (b : List Nat) : List Nat :=
  let s := (List.range 13).foldl (fun s r =>
    xorBytes (mixColumns [2, 3, 1, 1] (shiftRows 1 (s.map subByte))) (rk.getD (r + 1) [])) (xorBytes b (rk.getD 0 []))
  xorBytes (shiftRows 1 (s.map subByte)) (rk.getD 14 [])

/-- One block of 16 bytes decrypted under round keys. -/
def aesDecrypt (rk : List (List Nat)) (b : List Nat) : List Nat :=
  let s := (List.range 13).foldl (fun s r =>
    mixColumns [14, 11, 13, 9] (xorBytes ((shiftRows 3 s).map invSubByte) (rk.getD (13 - r) []))) (xorBytes b (rk.getD 14 []))
  xorBytes ((shiftRows 3 s).map invSubByte) (rk.getD 0 [])

/-! ## The AES key wrap (NIST SP 800-38F) -/

/-- One step of the unwrapping of four semiblocks: `a` and the semiblocks, for step `t` (24 first). -/
def unwrapStep (rk : List (List Nat)) (x : List Nat × List (List Nat)) (t : Nat) : List Nat × List (List Nat) :=
  let i := (t - 1) % 4
  let b := aesDecrypt rk (xorBytes x.1 (beBytes 8 t) ++ x.2.getD i [])
  (b.take 8, x.2.set i (b.drop 8))

/-- A wrapped 256-bit key unwrapped, where its integrity check passes. -/
def keyUnwrap (key wrapped : List Nat) : Option (List Nat) :=
  let x := (List.range 24).foldl (fun x k => unwrapStep (roundKeys key) x (24 - k)) (wrapped.take 8, piecesOf 8 4 (wrapped.drop 8))
  if x.1 = List.replicate 8 0xA6 then some x.2.flatten else none

/-! ## AES-256-GCM (NIST SP 800-38D) -/

/-- `y` and `z` after one bit of a field multiplication: `v` is the multiple of y, `z` the sum so far. -/
def ghashBit (x : Nat) (s : Nat × Nat) (i : Nat) : Nat × Nat :=
  (if s.1 % 2 = 1 then (s.1 / 2) ^^^ (0xE1 * 2 ^ 120) else s.1 / 2, if x.testBit (127 - i) then s.2 ^^^ s.1 else s.2)

/-- Multiplication in the field of GCM. -/
def ghashMul (x y : Nat) : Nat := ((List.range 128).foldl (ghashBit x) (y, 0)).2

/-- Bytes padded with zeros to whole blocks of 16. -/
def pad16 (l : List Nat) : List Nat := l ++ List.replicate ((16 - l.length % 16) % 16) 0

/-- The hash of additional data and ciphertext under the hash key. -/
def ghash (h : Nat) (aad ct : List Nat) : Nat :=
  let m := pad16 aad ++ pad16 ct ++ beBytes 8 (aad.length * 8) ++ beBytes 8 (ct.length * 8)
  (piecesOf 16 (m.length / 16) m).foldl (fun y b => ghashMul (y ^^^ beNat b) h) 0

/-- The tag of a ciphertext under a key, with a 12-byte IV. -/
def gcmTag (key iv aad ct : List Nat) : List Nat :=
  let rk := roundKeys key
  xorBytes (aesEncrypt rk (iv ++ [0, 0, 0, 1])) (beBytes 16 (ghash (beNat (aesEncrypt rk (List.replicate 16 0))) aad ct))

/-- A ciphertext decrypted under a key, with a 12-byte IV. -/
def gcmOpen (key iv ct : List Nat) : List Nat :=
  let rk := roundKeys key
  ((piecesOf 16 (ct.length / 16 + 1) ct).zipIdx.map (fun b => xorBytes b.1 (aesEncrypt rk (iv ++ beBytes 4 (b.2 + 2))))).flatten

end Sys2Proof.Machine
end

