-- ==== Sys2Proof/Machine/Permafrost.lean ====
section
/-! DEFINITION. Permafrost: its array, the load, the programming engine and the margin scan (R504 to R530,
spec/16_permafrost_otp.md), and the temperature windows for writing (R473). -/

namespace Sys2Proof.Machine

def State.onOtp (s : State) (f : OtpSt → OtpSt) : State := { s with otp := f s.otp }

/-! ## The array (R504 to R509) -/

/-- A physical word at a margin: main words by number, spare word e at 1024 + e. -/
def State.otpRaw (s : State) (lenient : Bool) (i : Nat) : Nat := Store.get (fun _ => 0) (if lenient then s.otp.lenient else s.otp.strict) i

/-- The first and the last word of each region; the last is its CRC word (R505). -/
def otpRegions : List (Nat × Nat) :=
  [(0x000, 0x007), (0x008, 0x047), (0x048, 0x04F), (0x050, 0x05F), (0x060, 0x065), (0x080, 0x084), (0x100, 0x1FF), (0x200, 0x2FF)]

/-- The region that a word lies in; none for a reserved word, the lock word and the table. -/
def otpRegion (w : Nat) : Option Nat := otpRegions.findIdx? (fun r => decide (r.1 ≤ w) && decide (w ≤ r.2))

/-- The words of a region, the CRC word last. -/
def regionWords (r : Nat) : List Nat :=
  let x := otpRegions.getD r (0, 0)
  (List.range (x.2 + 1 - x.1)).map (fun i => x.1 + i)

/-- The three copies of an entry of the redirection table (R509). -/
def entryCopies (v : Nat) : List Nat := [v % 2 ^ 16, v / 2 ^ 16 % 2 ^ 16, v / 2 ^ 32 % 2 ^ 16]

/-- The TARGET of entry `e`, when the entry is in force: two identical copies with VALID set, at both margins. -/
def State.entryTarget (s : State) (e : Nat) : Option Nat :=
  let a := entryCopies (s.otpRaw false (0x3F0 + e))
  let b := entryCopies (s.otpRaw true (0x3F0 + e))
  (a.find? (fun v => decide (2 ^ 15 ≤ v) && decide (2 ≤ a.count v) && decide (2 ≤ b.count v))).map (fun v => v % 2 ^ 10)

/-- The physical word that stands for a main word: its spare where an entry in force names it, the lowest entry first (R509). -/
def State.otpIndex (s : State) (w : Nat) : Nat :=
  if 0x3EF ≤ w then w
  else
    match (List.range 16).find? (fun e => decide (s.entryTarget e = some w)) with
    | none => w
    | some e => 1024 + e

/-- A main word at a margin, redirection applied. -/
def State.otpWord (s : State) (lenient : Bool) (w : Nat) : Nat := s.otpRaw lenient (s.otpIndex w)

/-- The bits of a word that are marginal (R512). -/
def marginalBits (strict lenient : Nat) : Nat := lenient - (strict &&& lenient)

/-- Whether spare `e` is in use. -/
def State.spareUsed (s : State) (e : Nat) : Bool :=
  decide (s.otpRaw true (0x3F0 + e) ≠ 0) || decide (s.otpRaw true (1024 + e) ≠ 0)

/-- The CRC word that a list of data words calls for (R506). -/
def crcWordOf (ws : List Nat) : Nat :=
  let c := crc32 (ws.flatMap (fun w => leBytes 8 w))
  c + (2 ^ 32 - 1 - c) * 2 ^ 32

/-- The data words that a region's CRC covers: for region 4 only the header (R506). -/
def crcCover (r : Nat) : List Nat := if r = 4 then [0x060] else (regionWords r).dropLast

/-- The anti-rollback counter: the highest bit set in either copy at the lenient margin, plus one (R508). -/
def State.arbCounter (s : State) : Nat :=
  let n := (s.otpWord true 0x061 ||| s.otpWord true 0x063) + 2 ^ 64 * (s.otpWord true 0x062 ||| s.otpWord true 0x064)
  if n = 0 then 0 else Nat.log2 n + 1

/-! ## Judging a region (R512) -/

/-- What a load or a scan finds of a region: VALID, EMPTY, MARGINAL, CRC_FAIL, and the first word concerned. -/
structure Judged where
  valid : Bool
  empty : Bool
  marg  : Bool
  crc   : Bool
  word  : Nat
  deriving DecidableEq, Repr

/-- Whether a word has a marginal bit. -/
def State.wordMarginal (s : State) (w : Nat) : Bool := decide (marginalBits (s.otpWord false w) (s.otpWord true w) ≠ 0)

/-- The first counter word with a marginal bit, or whose copies differ (R512). -/
def State.counterOdd (s : State) : Option Nat :=
  [0x061, 0x062, 0x063, 0x064].find? (fun w =>
    s.wordMarginal w || (decide (w < 0x063) && decide (s.otpWord true w ≠ s.otpWord true (w + 2))))

/-- A region judged: the first row of R512 that applies; for region 4 the counter words apart. -/
def State.judgeRegion (s : State) (r : Nat) : Judged :=
  let ws := regionWords r
  let odd := if r = 4 then s.counterOdd else none
  let body := if r = 4 then [0x060, 0x065] else ws
  if ws.all (fun w => decide (s.otpWord true w = 0)) then ⟨false, true, false, false, 0x3FF⟩
  else
    match body.find? s.wordMarginal with
    | some w => ⟨false, false, true, false, w⟩
    | none =>
      let crcAt := (otpRegions.getD r (0, 0)).2
      if s.otpWord false crcAt ≠ crcWordOf ((crcCover r).map (s.otpWord false)) then ⟨false, false, odd.isSome, true, crcAt⟩
      else ⟨true, false, odd.isSome, false, odd.getD 0x3FF⟩

/-- The word of PF_REGr or PF_SCANr (R530). -/
def Judged.reg (j : Judged) (locked : Bool) : Word :=
  BitVec.ofNat 32 ((if j.valid then 2 ^ 31 else 0) + (if j.empty then 2 ^ 30 else 0) + (if locked then 2 ^ 29 else 0) +
    (if j.marg then 2 ^ 28 else 0) + (if j.crc then 2 ^ 27 else 0) + j.word)

/-- The permanent lock bits: set when any copy reads 1 at the lenient margin (R516). -/
def State.permLocks (s : State) : Nat :=
  let v := s.otpRaw true 0x3EF
  (v ||| v / 2 ^ 8 ||| v / 2 ^ 16) % 2 ^ 8

/-- The first entry of the table, not in force, that has a marginal bit (R514). -/
def State.tableOdd (s : State) : Option Nat :=
  ((List.range 16).find? (fun e => (s.entryTarget e).isNone &&
    decide (marginalBits (s.otpRaw false (0x3F0 + e)) (s.otpRaw true (0x3F0 + e)) ≠ 0))).map (fun e => 0x3F0 + e)

/-- Whether the lock word has a marginal bit. -/
def State.lockOdd (s : State) : Bool := decide (marginalBits (s.otpRaw false 0x3EF) (s.otpRaw true 0x3EF) ≠ 0)

/-! ## The load (R511 to R514) -/

/-- The words that a region puts in force: its strict read where it is VALID, else the defaults of R513. The counter words show their
lenient read in every row (R508). -/
def State.regionForce (s : State) (r : Nat) (j : Judged) : List (Nat × Nat) :=
  if r = 4 then
    (regionWords 4).map (fun w => (w, if 0x061 ≤ w ∧ w ≤ 0x064 then s.otpWord true w else if j.valid then s.otpWord false w else 0))
  else if j.valid then (regionWords r).map (fun w => (w, s.otpWord false w))
  else if r = 2 then [(0x048, 0x9600 * 2 ^ 32), (0x049, 0xFFFF)]
  else []

/-- A word in force (R529). -/
def State.inForce (s : State) (w : Nat) : Nat := Store.get (fun _ => 0) s.otp.inForce w

/-- The 256-bit key in four words from `w`, as 32 bytes. -/
def State.otpKey (s : State) (w : Nat) : List Nat := (List.range 4).flatMap (fun i => leBytes 8 (s.inForce (w + i)))

/-- Whether region `r` was VALID at the load. -/
def State.regionValid (s : State) (r : Nat) : Bool := s.on (Fld.PF_REG_VALID r)

/-- What the regions in force declare (R1, R507). -/
def State.loadUnits (s : State) : Units :=
  let x := s.inForce 0x048
  ⟨x / 2 ^ 32 % 2 ^ 16, BitVec.ofNat 16 x, x / 2 ^ 16 % 2 ^ 8, BitVec.ofNat 64 (s.inForce 0x049), s.inForce 0x000, s.inForce 0x200 % 2 ^ 6⟩

/-- A FUSE event (R514), written when the ER is enabled. -/
def State.fuseLate (s : State) (subject kind word : Nat) : State :=
  s.lateEvent 0x0F subject [BitVec.ofNat 32 kind, BitVec.ofNat 32 word]

/-- The registers and the events of one region at a load: for region 4 that of an odd counter word beside that of a CRC which fails (R512,
R514). -/
def State.loadRegion (s : State) (r : Nat) : State :=
  let j := s.judgeRegion r
  let s := s.setReg (Reg.PF_REG r) (j.reg (s.permLocks.testBit r))
  let s := (s.regionForce r j).foldl (fun s w => s.onOtp (fun o => { o with inForce := Store.put (fun _ => 0) o.inForce w.1 w.2 })) s
  let s := if j.crc then s.fuseLate r 2 j.word else s
  if j.marg then s.fuseLate r 1 (if j.crc then s.counterOdd.getD j.word else j.word) else s

/-- PERMAFROST_LOAD: every region is read and judged at both margins (R511). The request for VDD_CORE that the trim of region 1 makes is a
free value (R572; DESIGN CHOICE, log entry 1). -/
def State.loadPermafrost (s : State) : State :=
  let s := { s with late := [] }.onOtp (fun o => { o with inForce := [] })
  let s := (List.range 8).foldl (fun s r => s.loadRegion r) s
  let s := match s.tableOdd with
    | none => s
    | some w => s.fuseLate 8 1 w
  let s := if s.lockOdd then s.fuseLate 9 1 0x3EF else s
  let s := (s.wr Fld.PF_LOCK_PERM_LOCK s.permLocks).wr Fld.PF_LOCK_SET_LOCK s.permLocks
  let s := (s.wr Fld.PF_STAT_LOADED 1).wr Fld.PF_STAT_SPARES ((List.range 16).filter s.spareUsed).length
  let s := { s with units := s.loadUnits }
  if s.regionValid 1 then
    let (f, s) := s.draw
    s.wr Fld.PCR_AVS_REQ (f.toNat % 21)
  else s.wr Fld.PCR_AVS_REQ 20

/-! ## The windows for writing (R473, R519, R567) -/

/-- The values in use among the on-die sensors that are not too hot (R473). -/
def State.dieValues (s : State) : List Int :=
  (List.range 24).filterMap (fun c => if s.on (Fld.HK_CH_VAL_HOT c) || !s.fitted c then none else (s.getChan c).value)

/-- Whether every such value lies within bounds in 1/16 °C, and there is one (R473, R519). -/
def State.tempWithin (s : State) (lo hi : Int) : Bool :=
  !s.dieValues.isEmpty && s.dieValues.all (fun t => decide (lo ≤ t) && decide (t ≤ hi))

/-- Whether a supply warning is active (R567). -/
def State.warned (s : State) : Bool := decide (s.rd Fld.PCR_SUP_STAT_WARN ≠ 0)

/-- The window of R519: OTP programming and lock setting. -/
def State.otpWindow (s : State) : Bool :=
  s.on Fld.PF_STAT_VQPS_OK && s.otp.core && !s.warned && s.tempWithin 0 (85 * 16)

/-- The window for NOR writes (R473, R567). -/
def State.norWindow (s : State) : Bool := !s.warned && s.tempWithin (-20 * 16) (105 * 16)

/-- What the comparators find of VQPS and VDD_CORE (R519; DEDUCED, log entry 60). -/
def State.senseSupplies (s : State) (vqps core : Bool) : State :=
  (s.wrBit Fld.PF_STAT_VQPS_OK vqps).onOtp (fun o => { o with core := core })

/-! ## The programming engine (R519 to R521) -/

/-- Whether a counter word would get a bit with a clear bit below it in the same copy (R520). -/
def State.counterOrder (s : State) (w data : Nat) : Bool :=
  if 0x061 ≤ w ∧ w ≤ 0x064 then
    let base := if w % 2 = 1 then w else w - 1
    let d := if w = base then data else data * 2 ^ 64
    let v := (s.otpWord true base + 2 ^ 64 * s.otpWord true (base + 1)) ||| d
    decide (data ≠ 0) && decide (v % 2 ^ Nat.log2 d ≠ 2 ^ Nat.log2 d - 1)
  else false

/-- Whether the lock of a word's region refuses its programming; counter bits stay programmable (R516, R517). -/
def State.wordLocked (s : State) (w : Nat) : Bool :=
  match otpRegion w with
  | none => false
  | some r => (s.rd Fld.PF_LOCK_SET_LOCK).testBit r && !decide (0x061 ≤ w ∧ w ≤ 0x064)

/-- The RESULT with which the engine refuses a word, if it does, the lowest that applies: LOCKED 3, WINDOW 4, ADDR 5, ORDER 6 (R519, R520,
R636). -/
def State.wordRefused (s : State) (w data : Nat) : Option Nat :=
  if s.wordLocked w then some 3
  else if !s.otpWindow then some 4
  else if (otpRegion w).isNone then some 5
  else if s.counterOrder w data then some 6
  else none

/-- The word under way at the engine: BUSY is set until it completes. -/
def State.beginWord (s : State) (w data : Nat) (mp : Bool) : State :=
  (s.onOtp (fun o => { o with prog := some ⟨w, data, false, mp, none⟩ })).wr Fld.PF_PROG_CTL_BUSY 1

/-- A write of PF_PROG_CTL: ADDR is set, and GO programs it with PF_PROG_DATA; a GO while BUSY is ignored (R519). -/
def State.writeProgCtl (s : State) (m : Master) (v : Word) : State :=
    let busy := s.on Fld.PF_PROG_CTL_BUSY
    let s := s.writeCode m Reg.PF_PROG_CTL v
    if bitOf v 31 && !busy then
      match s.wordRefused (s.rd Fld.PF_PROG_CTL_ADDR) (s.rd64 Reg.PF_PROG_DATA_LO) with
      | some r => s.wr Fld.PF_PROG_CTL_RESULT r
      | none => s.beginWord (s.rd Fld.PF_PROG_CTL_ADDR) (s.rd64 Reg.PF_PROG_DATA_LO) false
    else s

/-- PROGRAM_WORD: a master writes PF_PROG_CTL with GO, the comparators finding VQPS and VDD_CORE in range or not. -/
def execProgramWord (m : Master) (v : Word) (vqps core : Bool) (s : State) : Host.Outcome State Fault Refusal :=
  .next (s.unfrozen (fun s => (s.senseSupplies vqps core).accessBy m Reg.PF_PROG_CTL (fun s => s.writeProgCtl m (v ||| 0x80000000))))

/-- A physical word reads `strict` and `lenient` from now on, bits once programmed staying (R504). -/
def State.putOtp (s : State) (i strict lenient : Nat) : State :=
  let a := s.otpRaw false i ||| strict
  let b := s.otpRaw true i ||| strict ||| lenient
  s.onOtp (fun o => { o with strict := Store.put (fun _ => 0) o.strict i a, lenient := Store.put (fun _ => 0) o.lenient i b })

/-- The word under way is verified, its pulses having left its data bits as `strict` and `lenient` show: RESULT and the state (R520,
R521). -/
def State.verifyWord (s : State) (x : OtpWord) (strict lenient : Nat) : Nat × State :=
  let cur := s.otpWord true x.addr
  let s := s.putOtp (s.otpIndex x.addr) (strict &&& x.data) (lenient &&& x.data)
  if x.data &&& s.otpWord false x.addr = x.data then (if x.cut then 4 else 0, s)
  else if x.cut then (4, s)
  else
    match (List.range 16).find? (fun e => !s.spareUsed e), otpRegion x.addr with
    | some e, some r =>
      let s := s.putOtp (1024 + e) (cur ||| x.data) (cur ||| x.data)
      let c := 2 ^ 15 + x.addr
      let s := s.putOtp (0x3F0 + e) (c + 2 ^ 16 * c + 2 ^ 32 * c) (c + 2 ^ 16 * c + 2 ^ 32 * c)
      let s := s.wr Fld.PF_STAT_SPARES ((List.range 16).filter s.spareUsed).length
      (1, s.event 0x0F r [3, BitVec.ofNat 32 x.addr])
    | _, r => (2, s.event 0x0F (r.getD 9) [4, BitVec.ofNat 32 x.addr])

/-- The pulse in progress is cut, and no further one is applied (R521). -/
def State.cutPulse (s : State) : State := s.onOtp (fun o => { o with prog := o.prog.map (fun x => { x with cut := true }) })

/-- PROGRAMMING_SUPPLY_LEFT_RANGE: VQPS or VDD_CORE leaves its programming range; a pulse in progress is cut. -/
def execProgrammingSupplyLeftRange (vqps : Bool) (s : State) : Host.Outcome State Fault Refusal :=
  .next (
    if vqps then (s.wr Fld.PF_STAT_VQPS_OK 0).cutPulse
    else (s.onOtp (fun o => { o with core := false })).cutPulse)

/-! ## Locks and the margin scan (R516, R525) -/

/-- LOCK_SET: a W1S write of PF_LOCK_SET. -/
def execLockSet (m : Master) (v : Word) (s : State) : Host.Outcome State Fault Refusal :=
  .next (s.unfrozen (fun s => s.accessBy m Reg.PF_LOCK_SET (fun s => s.writeCode m Reg.PF_LOCK_SET v)))

/-- A write of PF_CTL: SCAN starts a scan unless one runs (R525). -/
def State.writePfCtl (s : State) (v : Word) : State := if bitOf v 0 then s.wr Fld.PF_SCAN_STAT_BUSY 1 else s

/-- MARGIN_SCAN. -/
def execMarginScan (m : Master) (v : Word) (s : State) : Host.Outcome State Fault Refusal :=
  .next (s.unfrozen (fun s => s.accessBy m Reg.PF_CTL (fun s => s.writePfCtl (v ||| 1))))

/-- SCAN_COMPLETE: the scan reports as the load would, and changes no value in force. -/
def execScanComplete (s : State) : Host.Outcome State Fault Refusal :=
  .next (
    if !s.on Fld.PF_SCAN_STAT_BUSY then s
    else
      let s := (List.range 8).foldl (fun s r => s.setReg (Reg.PF_SCAN r) ((s.judgeRegion r).reg (s.permLocks.testBit r))) s
      let odd := s.lockOdd || (List.range 16).any (fun e =>
        decide (marginalBits (s.otpRaw false (0x3F0 + e)) (s.otpRaw true (0x3F0 + e)) ≠ 0))
      ((s.wrBit Fld.PF_SCAN_STAT_TABLE_MARG odd).wr Fld.PF_SCAN_STAT_BUSY 0).wr Fld.PF_SCAN_STAT_DONE 1)

end Sys2Proof.Machine
end

