-- ==== Sys2Proof/Machine/Nor.lean ====
section
/-! DEFINITION. The NOR flash: firmware slots, boot records and the settings store (R538 to R552,
spec/17_firmware_update.md). -/

namespace Sys2Proof.Machine

/-! ## The flash (R538) -/

/-- An erased byte of the flash. -/
def norErased (_ : Nat) : Byte := 0xFF

def State.norByte (s : State) (a : Nat) : Nat := (Store.get norErased s.nor a).toNat
def State.norBytes (s : State) (a n : Nat) : List Nat := (List.range n).map (fun i => s.norByte (a + i))

/-- A range of whole erase blocks is erased. -/
def State.norErase (s : State) (a n : Nat) : State := { s with nor := Store.drop (fun k => decide (a ≤ k) && decide (k < a + n)) s.nor }

/-- Bytes are programmed: a bit at 0 stays 0. -/
def State.norProgram (s : State) (a : Nat) (l : List Nat) : State :=
  { s with nor := l.zipIdx.foldl (fun m b =>
      Store.put norErased m (a + b.2) (BitVec.ofNat 8 (b.1 &&& (Store.get norErased m (a + b.2)).toNat))) s.nor }

/-- `k` free bytes (DESIGN CHOICE, log entry 1). -/
def State.drawBytes (s : State) : Nat → List Nat × State
  | 0 => ([], s)
  | k + 1 =>
    let (f, s) := s.draw
    let (l, s) := s.drawBytes k
    (f.toNat % 256 :: l, s)

/-- A programming of `n` bytes whose read-back fails: what the range holds then is free, and NOR_ERR is reported (R482, R535). -/
def State.norFail (s : State) (a n : Nat) : State :=
  let (l, s) := s.drawBytes n
  let m := l.zipIdx.foldl (fun m b => Store.put norErased m (a + b.2) (BitVec.ofNat 8 b.1)) s.nor
  { s with nor := m }.report 0x20B (BitVec.ofNat 32 a)

def slotBase (i : Nat) : Nat := if i = 0 then 0x0010_0000 else 0x0190_0000

/-- The header block of a slot is erased. -/
def State.eraseHeader (s : State) (i : Nat) : State :=
  { s.norErase (slotBase i) 0x10000 with svc := { s.svc with spoiled := none } }

/-- The header block of a slot that ABORT leaves invalid is erased, at once or, while a supply warning lets no erase start, later
(R542, R567). -/
def State.spoilSlot (s : State) (i : Nat) : State :=
  if s.warned then { s with svc := { s.svc with spoiled := some i } } else s.eraseHeader i

/-- An erase that waits is made when no supply warning is active any more (R567). -/
def State.dueErase (s : State) : State :=
  match s.svc.spoiled with
  | none => s
  | some i => if s.warned then s else s.eraseHeader i

/-- A command that programs the flash, `ok` telling whether the flash reads back; an injected error is a failed read-back (R496). -/
def State.programs (f : Bool → State → State) (ok : Bool) (s : State) : State := State.injectAt 0x20B (f false) (f ok) s.dueErase

/-- A command that programs the flash or waits for it: while the flash works nothing is read back. -/
def State.flashing (f : FlashAnswer → State → State) (r : FlashAnswer) (s : State) : State :=
  if r = .busy then f .busy s else State.injectAt 0x20B (f .failed) (f r) s

/-! ## Boot records (R544, R545) -/

/-- A boot record, its reserved bytes apart. -/
structure BootRec where
  seq      : Nat
  active   : Nat
  state    : Nat
  trials   : Nat
  prev     : Nat
  fmt      : Nat
  copy     : Nat
  prevCopy : Nat
  prevFmt  : Nat
  deriving DecidableEq, Repr

/-- ASCII "FXBR". -/
def recMagic : List Nat := [0x46, 0x58, 0x42, 0x52]

/-- The 32 bytes of a record (R544). -/
def BootRec.bytes (r : BootRec) : List Nat :=
  let b := recMagic ++ leBytes 4 r.seq ++ [r.active, r.state, r.trials, r.prev] ++ leBytes 2 r.fmt ++ [r.copy, r.prevCopy] ++
    leBytes 2 r.prevFmt ++ List.replicate 10 0
  b ++ leBytes 4 (crc32 b)

/-- The record that 32 bytes hold, if MAGIC and CRC check. -/
def recordOf (b : List Nat) : Option BootRec :=
  if sliceOf b 0 4 = recMagic ∧ leNat (sliceOf b 28 4) = crc32 (sliceOf b 0 28) then
    some ⟨leNat (sliceOf b 4 4), b.getD 8 0, b.getD 9 0, b.getD 10 0, b.getD 11 0, leNat (sliceOf b 12 2), b.getD 14 0, b.getD 15 0,
      leNat (sliceOf b 16 2)⟩
  else none

/-- The block of a record copy. -/
def recordBlock (c : Nat) : Nat := c * 0x10000

/-- The record in force, with the copy that holds it: the valid copy with the higher SEQ. -/
def State.bootRecord (s : State) : Option (Nat × BootRec) :=
  match recordOf (s.norBytes (recordBlock 0) 32), recordOf (s.norBytes (recordBlock 1) 32) with
  | some a, some b => if a.seq < b.seq then some (1, b) else some (0, a)
  | some a, none => some (0, a)
  | none, some b => some (1, b)
  | none, none => none

/-- A record is written into the copy that does not hold the one in force, with the next SEQ; the other copy is then erased (R545). -/
def State.writeRecord (s : State) (r : BootRec) : State :=
  let c := match s.bootRecord with
    | some x => (1 - x.1, (x.2.seq + 1) % 2 ^ 32)
    | none => (0, 1)
  let s := (s.norErase (recordBlock c.1) 0x10000).norProgram (recordBlock c.1) (BootRec.bytes { r with seq := c.2 })
  s.norErase (recordBlock (1 - c.1)) 0x10000

/-! ## Images (R538 to R541) -/

def slotPayload (i : Nat) : Nat := slotBase i + 0x10000

/-- The header that a slot holds; one whose header block waits to be erased holds none (R542, R567). -/
def State.slotHeader (s : State) (i : Nat) : List Nat :=
  if s.svc.spoiled = some i then List.replicate 512 0xFF else s.norBytes (slotBase i) 512

/-- A field of a header. -/
def hdrField (h : List Nat) (off n : Nat) : Nat := leNat (sliceOf h off n)
def hdrVersion (h : List Nat) : Nat := hdrField h 0x00C 4
def hdrArb (h : List Nat) : Nat := hdrField h 0x010 1
def hdrSections (h : List Nat) : Nat := hdrField h 0x011 1
def hdrFormat (h : List Nat) : Nat := hdrField h 0x012 2
def hdrPayload (h : List Nat) : Nat := hdrField h 0x014 4

/-- A section of an image: its number, type, offset, length and load address (R539). -/
structure Section where
  num  : Nat
  type : Nat
  off  : Nat
  len  : Nat
  load : Nat
  deriving DecidableEq, Repr

def hdrSection (h : List Nat) (i : Nat) : Section :=
  let b := 0x080 + 32 * i
  ⟨i, hdrField h b 1, hdrField h (b + 4) 4, hdrField h (b + 8) 4, hdrField h (b + 12) 4⟩

/-- The sections that a header declares. -/
def hdrTable (h : List Nat) : List Section := (List.range (hdrSections h)).map (hdrSection h)

/-- Whether every reserved byte of a header is 0 (R539). -/
def hdrReservedZero (h : List Nat) : Bool :=
  let zero := fun (a n : Nat) => (sliceOf h a n).all (fun b => decide (b = 0))
  zero 0x048 56 && zero 0x180 96 &&
  (List.range 8).all (fun i => if i < hdrSections h then zero (0x081 + 32 * i) 3 else zero (0x080 + 32 * i) 32)

/-- The bit of VARIANT_MASK of the controller's variant, by its Device ID (R1, R539). -/
def variantBit (device : Nat) : Nat := if device = 0x9616 then 0 else if device = 0x9608 then 1 else if device = 0x9604 then 2 else 32

/-- Whether two sections share a byte. -/
def sectionsMeet (x y : Section) : Bool := decide (x.off < y.off + y.len) && decide (y.off < x.off + x.len)

/-- The SIZE check of R541. -/
def hdrSizeBad (h : List Nat) : Bool :=
  let n := hdrPayload h
  let t := hdrTable h
  decide (n < 4096) || decide (25100288 < n) || decide (n % 4096 ≠ 0) || decide (hdrSections h < 4) || decide (8 < hdrSections h) ||
  t.any (fun x => decide (n < x.off + x.len) || decide (x.type = 0) || decide (6 < x.type) ||
    t.any (fun y => decide (x.num < y.num) && sectionsMeet x y) ||
    (decide (x.type ≤ 2) && (decide (x.load < 0x20000000) || decide (0x20200000 < x.load + x.len)))) ||
  [1, 3, 4, 5].any (fun k => decide ((t.filter (fun x => decide (x.type = k))).length ≠ 1))

/-- ASCII "FXIM". -/
def imageMagic : List Nat := [0x46, 0x58, 0x49, 0x4D]

/-- The per-image key of a header, where the unwrap under ROOT_KEY passes its check (R540). -/
def State.imageKey (s : State) (h : List Nat) : Option (List Nat) := keyUnwrap (s.otpKey 0x050) (sliceOf h 0x018 40)

/-- The code with which a header is refused, by the first check that fails (R541). -/
def State.headerRefusal (s : State) (h : List Nat) : Option Nat :=
  if !s.regionValid 3 then some 0x10
  else if sliceOf h 0 4 ≠ imageMagic then some 0x11
  else if hdrField h 0x004 2 ≠ 1 ∨ hdrField h 0x006 2 ≠ 0x200 ∨ !hdrReservedZero h then some 0x12
  else if hmac256 (s.otpKey 0x054) (sliceOf h 0 0x1E0) ≠ sliceOf h 0x1E0 32 then some 0x13
  else if !(hdrField h 0x008 4).testBit (variantBit s.units.deviceId) then some 0x14
  else if hdrArb h < s.arbCounter then some 0x15
  else if hdrSizeBad h then some 0x16
  else if (s.imageKey h).isNone then some 0x17
  else none

/-- Whether a slot holds a header that passes R541. -/
def State.imageValid (s : State) (i : Nat) : Bool := (s.headerRefusal (s.slotHeader i)).isNone

/-- The IV of section `i` (R540). -/
def sectionIv (h : List Nat) (i : Nat) : List Nat := sliceOf h 0x040 8 ++ leBytes 4 i

/-- The ciphertext of a section in a slot. -/
def State.sectionText (s : State) (slot : Nat) (x : Section) : List Nat := s.norBytes (slotPayload slot + x.off) x.len

/-- Whether the tag of a section in a slot passes. -/
def State.sectionPasses (s : State) (slot : Nat) (h key : List Nat) (x : Section) : Bool :=
  decide (gcmTag key (sectionIv h x.num) (sliceOf h 0 0x80) (s.sectionText slot x) = sliceOf h (0x080 + 32 * x.num + 16) 16)

/-- Whether every section that `which` names passes, in a slot, under a header. -/
def State.tagsPass (s : State) (slot : Nat) (h : List Nat) (which : Section → Bool) : Bool :=
  match s.imageKey h with
  | none => false
  | some key => ((hdrTable h).filter which).all (s.sectionPasses slot h key)

/-- Whether a slot passes at boot: at a controller start with every section, at an MP restart with those of the MP (R549). -/
def State.slotBoots (s : State) (slot : Nat) (start : Bool) : Bool :=
  s.imageValid slot && s.tagsPass slot (s.slotHeader slot) (fun x => start || decide (x.type ≤ 2))

/-- The sections of the MP are decrypted into its memory at their load addresses (R539, R540). -/
def State.loadMpMemory (s : State) (slot : Nat) : State :=
  let h := s.slotHeader slot
  match s.imageKey h with
  | none => s
  | some key =>
    ((hdrTable h).filter (fun x => decide (x.type ≤ 2))).foldl (fun s x =>
      let plain := gcmOpen key (sectionIv h x.num) (s.sectionText slot x)
      { s with mp := { s.mp with mem := plain.zipIdx.foldl (fun m b =>
          Store.put (fun _ => none) m (x.load - 0x20000000 + b.2) (some (BitVec.ofNat 8 b.1))) s.mp.mem } }) s

/-! ## The settings store (R551) -/

/-- An entry of the store. -/
structure Setting where
  key   : Nat
  fmt   : Nat
  seq   : Nat
  value : List Nat
  deriving DecidableEq, Repr

/-- The pages of a half, and the address of a page of half `h` of copy `c`. -/
def halfPages : Nat := 10240
def pageAddr (c h i : Nat) : Nat := 0x0310_0000 + c * 0x50_0000 + h * 0x28_0000 + i * 256

/-- The page of an entry. -/
def Setting.bytes (e : Setting) : List Nat :=
  let b := leBytes 2 0xA55E ++ leBytes 2 e.key ++ leBytes 2 e.value.length ++ leBytes 2 e.fmt ++ leBytes 4 e.seq ++ leBytes 4 0 ++
    e.value ++ List.replicate (236 - e.value.length) 0
  b ++ leBytes 4 (crc32 b)

/-- The entry that a page holds, if it is complete. -/
def settingOf (b : List Nat) : Option Setting :=
  if leNat (sliceOf b 0 2) = 0xA55E ∧ leNat (sliceOf b 252 4) = crc32 (sliceOf b 0 252) then
    some ⟨leNat (sliceOf b 2 2), leNat (sliceOf b 6 2), leNat (sliceOf b 8 4), sliceOf b 16 (min 236 (leNat (sliceOf b 4 2)))⟩
  else none

/-- Whether a page is erased, by the first byte of its MAGIC. -/
def State.pageBlank (s : State) (c h i : Nat) : Bool := decide (s.norByte (pageAddr c h i) = 0xFF)

/-- The half in use of a copy: the one whose first page is written, half 0 when none is. -/
def State.halfInUse (s : State) (c : Nat) : Nat := if s.pageBlank c 0 0 && !s.pageBlank c 1 0 then 1 else 0

/-- The pages written of a half, from page `i` with `k` to look at. -/
def State.pagesFrom (s : State) (c h : Nat) : Nat → Nat → Nat
  | 0, i => i
  | k + 1, i => if s.pageBlank c h i then i else s.pagesFrom c h k (i + 1)

/-- The complete entries of a copy, oldest first. -/
def State.settingsOf (s : State) (c : Nat) : List Setting :=
  let h := s.halfInUse c
  (List.range (s.pagesFrom c h halfPages 0)).filterMap (fun i => settingOf (s.norBytes (pageAddr c h i) 256))

/-- The entry of a list that stands for a key: the one with the highest SEQ. -/
def standing (l : List Setting) (key : Nat) : Option Setting :=
  (l.filter (fun e => decide (e.key = key))).foldl (fun b e =>
    match b with
    | none => some e
    | some x => if x.seq < e.seq then some e else some x) none

/-- The standing entries of a list, one for each key that is not deleted. -/
def standingAll (l : List Setting) : List Setting :=
  l.filter (fun e => decide (standing l e.key = some e) && decide (e.value ≠ []))

/-- The settings copy and format in force (R544). -/
def State.settingsCopy (s : State) : Nat := (s.bootRecord.map (fun x => x.2.copy)).getD 0
def State.settingsFmt (s : State) : Nat := (s.bootRecord.map (fun x => x.2.fmt)).getD 0

/-- The value that stands for a key in a copy; none where the key is not found or deleted. -/
def State.settingIn (s : State) (c key : Nat) : Option (List Nat) :=
  match standing (s.settingsOf c) key with
  | some e => if e.value = [] then none else some e.value
  | none => none

/-- SETTINGS_COMPACTION: a full half is copied, its standing entries only, into the other half, and erased (R551). -/
def State.compact (s : State) (c : Nat) : State :=
  let h := s.halfInUse c
  let keep := standingAll (s.settingsOf c)
  let s := keep.zipIdx.foldl (fun s e => s.norProgram (pageAddr c (1 - h) e.2) e.1.bytes) s
  s.norErase (pageAddr c h 0) 0x280000

/-- A copy with an erased page in its half in use: a full half is compacted first (R551). -/
def State.withPage (s : State) (c : Nat) : State :=
  if s.pagesFrom c (s.halfInUse c) halfPages 0 = halfPages then s.compact c else s

/-- The page that the next entry of a copy goes to. -/
def State.nextPage (s : State) (c : Nat) : Nat := pageAddr c (s.halfInUse c) (s.pagesFrom c (s.halfInUse c) halfPages 0)

/-- An entry is written to a copy, after a compaction where its half is full (R551). -/
def State.writeSetting (s : State) (c key fmt : Nat) (value : List Nat) : State :=
  let s := s.withPage c
  let seq := (s.settingsOf c).foldl (fun n e => max n e.seq) 0 + 1
  s.norProgram (s.nextPage c) (Setting.bytes ⟨key, fmt, seq, value⟩)

/-- An entry is programmed in the copy in force; where its read-back fails, what its page holds is free and NOR_ERR is reported. -/
def State.putSetting (s : State) (key : Nat) (value : List Nat) (ok : Bool) : State :=
  if ok then s.writeSetting s.settingsCopy key s.settingsFmt value
  else (s.withPage s.settingsCopy).norFail ((s.withPage s.settingsCopy).nextPage s.settingsCopy) 256

/-- The key of the migration mark among the MP's own settings (R552; DESIGN CHOICE, log entry 61). -/
def migrationKey : Nat := 0xF020

/-- MIGRATION: the copy of the image on trial is erased, the standing entries of the old copy are converted into it under the image's
MIGRATE section, and the mark is written last (R552). The values that this section gives are free (DESIGN CHOICE, log entry 1); without such a
section the values stay. -/
def State.migrate (s : State) (slot : Nat) (r : BootRec) : State :=
  let has := (hdrTable (s.slotHeader slot)).any (fun x => decide (x.type = 6))
  let old := standingAll (s.settingsOf r.prevCopy)
  let s := s.norErase (pageAddr r.copy 0 0) 0x500000
  let s := old.foldl (fun s e =>
    if has && decide (e.key ≠ migrationKey) then
      let (v, s) := s.drawBytes e.value.length
      s.writeSetting r.copy e.key r.fmt v
    else if e.key = migrationKey then s else s.writeSetting r.copy e.key r.fmt e.value) s
  s.writeSetting r.copy migrationKey r.fmt [1]

end Sys2Proof.Machine
end

