-- ==== Sys2Proof/Machine/Consumables.lean ====
section
/-! DEFINITION. Consumable identity and usage accounting (R340 to R357, spec/10_consumable_accounting.md). -/

namespace Sys2Proof.Machine

def State.getCons (s : State) (p : Nat) : ConsSt := Store.get (fun _ => ConsSt.reset) s.consum p
def State.setCons (s : State) (p : Nat) (x : ConsSt) : State :=
  { s with consum := Store.put (fun _ => ConsSt.reset) s.consum p x }

/-! ## The ink estimate (R342, R343) -/

/-- The drop counters of a port, levels 1 to 3. -/
def State.drops (s : State) (p : Nat) : List Nat :=
  [s.rd64 (Reg.CONS_P_DROP1_LO p), s.rd64 (Reg.CONS_P_DROP2_LO p), s.rd64 (Reg.CONS_P_DROP3_LO p)]

def State.volumes (s : State) (p : Nat) : List Nat :=
  [s.rd (Fld.CONS_P_VOL1_VOL p), s.rd (Fld.CONS_P_VOL2_VOL p), s.rd (Fld.CONS_P_VOL3_VOL p)]

def State.ink (s : State) (p : Nat) : Nat := s.rd64 (Reg.CONS_P_INK_LO p)

/-- The increases of three counters modulo 2^48. -/
def increases (now seen : List Nat) : List Nat := List.zipWith (fun a b => (a + 2 ^ 48 - b % 2 ^ 48) % 2 ^ 48) now seen

/-- One reading of a port: whole nanolitres of the residue move to INK, which saturates (R342). -/
def State.readInk (s : State) (p : Nat) : State :=
  if s.portPresent p && s.domOn (.hpg (portGroup p)) then
    let x := s.getCons p
    let now := s.drops p
    let r := x.residue + (List.zipWith (fun a b => a * b) (increases now x.seen) (s.volumes p)).sum
    (s.setCons p { x with residue := r % 1000000, seen := now }).wr64 (Reg.CONS_P_INK_LO p) (satAdd 64 (s.ink p) (r / 1000000))
  else s

/-- INK_READING: once a second the MP reads the drop counters of every present port. -/
def execInkReading (s : State) : Host.Outcome State Fault Refusal :=
  .next (s.unfrozen (fun s => if s.mp.running then (List.range 16).foldl (fun s p => s.readInk p) s else s))

/-! ## Messages (R346) -/

/-- The key of a device. -/
def State.deviceKey (s : State) (uid : List Nat) : List Nat := hmac256 (s.otpKey 0x080) ([0x46, 0x58, 0x43, 0x4B] ++ uid)

/-- A tag over an ASCII label and fields. -/
def State.deviceTag (s : State) (uid : List Nat) (label : Nat) (rest : List Nat) : List Nat :=
  hmac256 (s.deviceKey uid) ([label] ++ uid ++ rest)

/-! ## Operations (R348 to R353) -/

def State.authOf (s : State) (p : Nat) : Nat := s.rd (Fld.CONS_P_STAT_AUTH p)

/-- The RESULT of a command (R354). -/
def consResult (ok : Bool) (auth reason : Nat) : Nat := (if ok then 1 else 0) + auth * 2 + reason * 2 ^ 8

/-- The AUTH in which an operation ends with a REASON (R349 to R351). -/
def authAfter (rec_ : Bool) (reason : Nat) : Nat :=
  if rec_ then (if reason = 5 ∨ reason = 6 then 2 else 1)
  else if reason = 0 then 1 else if reason = 2 then 3 else 2

/-- The CONS_AUTH_FAIL event (R351). -/
def State.consEvent (s : State) (p : Nat) (rec_ : Bool) (reason : Nat) (uid : List Nat) : State :=
  if reason = 0 then s
  else s.event 0x0E p [BitVec.ofNat 32 (reason + (if rec_ then 2 ^ 8 else 0)), BitVec.ofNat 32 (leNat (sliceOf uid 0 4)),
    BitVec.ofNat 32 (leNat (sliceOf uid 4 4))]

/-- An operation ends: AUTH, REASON, the event, and the command that asked for it. -/
def State.endBus (s : State) (p : Nat) (x : BusOp) (reason : Nat) : State :=
  let auth := authAfter x.record reason
  let s := (s.setCons p { s.getCons p with op := none })
  let s := (s.wr (Fld.CONS_P_STAT_AUTH p) auth).wr (Fld.CONS_P_STAT_REASON p) reason
  let s := s.consEvent p x.record reason x.uid
  match x.desc with
  | none => s
  | some d => s.endCommand d Status.ok (consResult (decide (reason = 0)) auth reason)

/-- An operation is given up: PENDING becomes the state before it (R353). -/
def State.dropBus (s : State) (p : Nat) : State :=
  match (s.getCons p).op with
  | none => s
  | some _ => (s.wr (Fld.CONS_P_STAT_AUTH p) (s.getCons p).prior).setCons p { s.getCons p with op := none }

/-- The operation of a port that has been retired is given up, and its command completes UNIT_ABSENT (R7, R354). -/
def State.absentBus (s : State) (p : Nat) (x : BusOp) : State :=
  match x.desc with
  | none => s.dropBus p
  | some d => (s.dropBus p).endCommand d Status.unitAbsent 0

/-- Bytes written to the device at ADDR from a register pointer, in Fast-mode where FM is set (R344). -/
def State.busWrite (s : State) (p ptr : Nat) (l : List Nat) : State :=
  s.emit (.bus p (s.rd (Fld.CONS_P_CFG_ADDR p)) (s.on (Fld.CONS_P_CFG_FM p)) ptr l)

/-- A challenge, never reused and so free (R346), and its command. -/
def State.challenge (s : State) (p cmd : Nat) (x : BusOp) : State :=
  let c := s.drawBytes 16
  let s := (c.2.busWrite p 0x10 c.1).busWrite p 0x70 [cmd]
  s.setCons p { s.getCons p with op := some { x with chal := c.1, polls := 0 } }

/-- An operation begins: AUTH shows PENDING and the state before it is kept (R349, R353). -/
def State.beginBus (s : State) (p : Nat) (x : BusOp) : State :=
  let s := s.setCons p { s.getCons p with op := some x, prior := s.authOf p, due := false }
  let s := s.wr (Fld.CONS_P_STAT_AUTH p) 4
  match x.desc with
  | none => s
  | some d => s.beginCommand d none []

/-- An authentication of a port begins (R348). -/
def State.beginAuth (s : State) (p : Nat) (d : Option Desc) (dev : BusAnswer) : State :=
  let x : BusOp := ⟨false, 1, [], [], [], 0, d⟩
  let s := s.beginBus p x
  if !s.regionValid 5 then s.endBus p x 1
  else match dev with
    | .noAck => s.endBus p x 2
    | .busError => s.endBus p x 3
    | .device uid version =>
      let u := (uid.take 8).map (fun b => b.toNat)
      let x := { x with uid := u }
      let s := s.wr64 (Reg.CONS_P_UID_LO p) (leNat u)
      if version ≠ 1 then s.endBus p x 7 else s.challenge p 1 x

/-- The RECORD that a write carries (R345, R352). -/
def State.recordImage (s : State) (p : Nat) : List Nat :=
  let x := s.getCons p
  leBytes 4 (x.baseSeq + x.count + 1) ++ leBytes 8 (patternOf 64 (((x.baseUse + s.ink p : Nat) : Int) - x.inkBase)) ++ leBytes 4 0

/-- A record write begins: RECORD, RTAG and the commit in one sequence (R352). -/
def State.beginRecord (s : State) (p : Nat) (d : Option Desc) (dev : BusAnswer) : State :=
  let c := s.getCons p
  let img := s.recordImage p
  let x : BusOp := ⟨true, 3, c.uid, [], img, 0, d⟩
  let s := s.beginBus p x
  match dev with
  | .noAck => s.endBus p x 2
  | .busError => s.endBus p x 3
  | .device _ _ =>
    let s := (s.busWrite p 0x40 (img ++ s.deviceTag c.uid 0x57 img)).busWrite p 0x70 [2]
    s.setCons p { s.getCons p with since := some s.tb.toNat, lastInk := s.ink p }

/-- Whether 10 s have passed since the last commit (R352). -/
def State.spaced (s : State) (p : Nat) : Bool :=
  match (s.getCons p).since with
  | none => true
  | some t => decide (t + 40000000000 ≤ s.tb.toNat)

/-- A tag of 32 bytes that is right; every check of a tag compares all of them (R346). -/
def tagRight (got want : List Nat) : Bool := decide (got = want)

/-- The device has answered the first challenge with RESP, or the second with RECORD and RTAG, or has committed (R348, R352). -/
def State.busDone (s : State) (p : Nat) (x : BusOp) (data : List Nat) : State :=
  if x.phase = 1 then
    if tagRight (data.take 32) (s.deviceTag x.uid 0x41 x.chal) then s.challenge p 3 { x with phase := 2 } else s.endBus p x 5
  else if x.phase = 2 then
    let r := data.take 16
    if tagRight (sliceOf data 16 32) (s.deviceTag x.uid 0x52 (x.chal ++ r)) then
      let s := s.setCons p { s.getCons p with
        uid := x.uid, baseSeq := leNat (sliceOf r 0 4), baseUse := leNat (sliceOf r 4 8), inkBase := s.ink p, count := 0,
        lastInk := s.ink p }
      s.endBus p x 0
    else s.endBus p x 5
  else
    let s := s.setReg (Reg.CONS_P_SEQ p) (BitVec.ofNat 32 (leNat (sliceOf x.image 0 4)))
    (s.setCons p { s.getCons p with count := (s.getCons p).count + 1 }).endBus p x 0

/-- IDENTITY_STATUS_POLL: 1 ms has passed, and the MP polls the device's STATUS; the fiftieth poll that finds it busy ends the
operation. -/
def execIdentityStatusPoll (p : Fin 16) (r : PollAnswer) (s : State) : Host.Outcome State Fault Refusal :=
  .next (s.unfrozen (fun s =>
    match (s.getCons p).op with
    | none => s
    | some x =>
      if !s.mp.running then s
      else if !s.portPresent p then s.absentBus p x
      else match r with
        | .noAck => s.endBus p x 2
        | .busError => s.endBus p x 3
        | .status v data =>
          if v = 1 then s.busDone p x (data.map (fun b => b.toNat))
          else if v = 2 then s.endBus p x 6
          else if 50 ≤ x.polls + 1 then s.endBus p x 4
          else s.setCons p { s.getCons p with op := some { x with polls := x.polls + 1 } }))

/-- CLOCK_STRETCH_TIMEOUT: the device has stretched the clock beyond 25 ms, which ends the transfer (R344). -/
def execClockStretchTimeout (p : Fin 16) (s : State) : Host.Outcome State Fault Refusal :=
  .next (s.unfrozen (fun s =>
    match (s.getCons p).op with
    | none => s
    | some x => if !s.mp.running then s else if s.portPresent p then s.endBus p x 3 else s.absentBus p x))

/-! ## Commands (R348, R352, R354) -/

/-- CONS_AUTH: the command at the front of the CR, or the authentication that a boot owes a port with AUTO set. It waits while an
operation runs on the port. -/
def execConsAuth (auto : Option (Fin 16)) (dev : BusAnswer) (s : State) : Host.Outcome State Fault Refusal :=
  .next (s.unfrozen (fun s =>
    match auto with
    | some p =>
      let c := s.getCons p
      if s.mp.running && c.due && c.op.isNone then
        (if s.portPresent p then s.beginAuth p none dev else s.setCons p { c with due := false })
      else s
    | none =>
      match s.nextCommand 0x58 with
      | none => s
      | some d =>
        let p := d.fld 2 3 0
        if d.reservedSet (commandLayout [0xF]) then s.finish d Status.descError 1
        else if !s.portPresent p then s.finish d Status.unitAbsent 0
        else if (s.getCons p).op.isSome then s
        else s.beginAuth p (some d) dev))

/-- CONS_RECORD: refused NOT_AUTH where AUTH is not PASSED; else it waits for the operation that runs and for the spacing of 10 s. -/
def execConsRecord (dev : BusAnswer) (s : State) : Host.Outcome State Fault Refusal :=
  .next (s.unfrozen (fun s =>
    match s.nextCommand 0x59 with
    | none => s
    | some d =>
      let p := d.fld 2 3 0
      if d.reservedSet (commandLayout [0xF]) then s.finish d Status.descError 1
      else if !s.portPresent p then s.finish d Status.unitAbsent 0
      else if (s.getCons p).op.isSome then s
      else if s.authOf p ≠ 1 then
        let s := (s.wr (Fld.CONS_P_STAT_REASON p) 8).consEvent p true 8 (leBytes 8 (s.rd64 (Reg.CONS_P_UID_LO p)))
        s.finish d Status.ok (consResult false (s.authOf p) 8)
      else if s.spaced p then s.beginRecord p (some d) dev else s))

/-- Whether REC_INT seconds have passed since the last commit; values below 10 apply 10 (R352, R357). -/
def State.recordTime (s : State) (p : Nat) : Bool :=
  match (s.getCons p).since with
  | none => true
  | some t => decide (t + max 10 (s.rd Fld.CONS_CFG_REC_INT) * 4000000000 ≤ s.tb.toNat)

/-- RECORD_DUE: REC_INT seconds have passed since the last commit, and the ink has changed since the last record. -/
def execRecordDue (p : Fin 16) (dev : BusAnswer) (s : State) : Host.Outcome State Fault Refusal :=
  .next (s.unfrozen (fun s =>
    let c := s.getCons p
    if s.mp.running && s.portPresent p && decide (s.authOf p = 1) && c.op.isNone && decide (s.ink p ≠ c.lastInk) && s.recordTime p then
      s.beginRecord p none dev
    else s))

/-- Once the MP runs again, the 10 s count anew; at a controller start, ports with AUTO set await their authentication (R348, R353). -/
def State.consBoot (start : Bool) (s : State) (p : Nat) : State :=
  s.setCons p { s.getCons p with
    since := (s.getCons p).since.map (fun _ => s.tb.toNat)
    due := if start then s.portPresent p && s.on (Fld.CONS_P_CFG_AUTO p) else (s.getCons p).due }

end Sys2Proof.Machine
end

