-- ==== Sys2Proof/Machine/Session.lean ====
section
/-! DEFINITION. The loader's session and its end, and the UPDATE event (R532, R536, R555, spec/17_firmware_update.md). -/

namespace Sys2Proof.Machine

def State.onSvc (s : State) (f : SvcSt → SvcSt) : State := { s with svc := f s.svc }

/-- The active slot (R544). -/
def State.activeSlot (s : State) : Nat := (s.bootRecord.map (fun x => x.2.active)).getD 0
def State.otherSlot (s : State) : Nat := 1 - s.activeSlot

/-- The version of a slot, 0 when it is invalid (R559). -/
def State.slotVersion (s : State) (i : Nat) : Nat := if s.imageValid i then hdrVersion (s.slotHeader i) else 0

/-- The data of an UPDATE event: its kind, STATUS and source, the version and the slot concerned (R555). -/
def State.updateData (s : State) (kind status src version slot : Nat) : List Word :=
  [BitVec.ofNat 32 (kind + status * 2 ^ 8 + src * 2 ^ 16), BitVec.ofNat 32 version,
   BitVec.ofNat 32 ((s.bootRecord.map (fun x => x.2.trials)).getD 0 + slot * 2 ^ 8 + s.arbCounter * 2 ^ 16)]

def State.updateEvent (s : State) (kind status src version slot : Nat) : State :=
  s.event 0x12 0 (s.updateData kind status src version slot)

/-- An UPDATE event of a boot (R555). -/
def State.updateLate (s : State) (kind version slot : Nat) : State := s.lateEvent 0x12 0 (s.updateData kind 0 0 version slot)

/-- The MP acquires the token of flash writes for the session that opens, unless it holds it, with a TAG that is a free value (R50,
R536; DESIGN CHOICE, log entry 1). -/
def State.openSession (s : State) (x : Session) : State :=
  let s := s.onSvc (fun v => { v with session := some x })
  if s.domOn .host && decide (s.holder 2 = 0) then s.draw.2.setToken 2 (masterCode .mp) (s.draw.1.truncate 16) else s

/-- The lock is free, and the token that the MP acquired with it is released unless a command in execution acts under it (R50, R536). -/
def State.closeSession (s : State) : State :=
  let s := s.onSvc (fun v => { v with session := none })
  if s.mp.cmd.any (fun c => decide (c.token = some 2)) then s else s.releaseToken .mp 2

/-- The session ends as ABORT: the lock is free, and a slot loaded or verified in it is left invalid (R536, R542). -/
def State.endSession (s : State) : State :=
  match s.svc.session with
  | none => s
  | some x =>
    let s := s.closeSession
    let v := hdrVersion x.header
    let s := if x.phase = 3 then s.spoilSlot s.otherSlot else s
    s.updateEvent 8 0 x.src v s.otherSlot

/-- The session of a tunnel session ends, if it is the one open (R532). -/
def State.endTunnel (s : State) (peer num : Nat) : State :=
  match s.svc.session with
  | none => s
  | some x => if x.src = 0x40 + peer ∧ x.tunnel = num then s.endSession else s

end Sys2Proof.Machine
end

