-- ==== Sys2Proof/Machine/TchitricRing.lean ====
section
/-! DEFINITION. The Tchitric ring: links, frames, roster, version and ring time (R385 to R404, R417 to R420, R424,
spec/12_tchitric_line_ring.md). -/

namespace Sys2Proof.Machine

def State.onRing (s : State) (f : RingSt → RingSt) : State := { s with ring := f s.ring }

/-- A RING_TOPOLOGY event (R424): the subject, the kind, the neighbour, station or VRX entry concerned, and the PHY of a port. -/
def State.topology (s : State) (subject kind who : Nat) : State :=
  let phy := if subject < 2 then s.rd (Fld.RING_P_STAT_PHY subject) else 0
  s.event 0x10 subject [BitVec.ofNat 32 (kind + who % 64 * 2 ^ 8 + phy * 2 ^ 16 + s.ringVersion * 2 ^ 20),
    s.getReg Reg.RING_ROSTER_LO, s.getReg Reg.RING_ROSTER_HI, BitVec.ofNat 32 (s.rd Fld.RING_VER_EPOCH)]

/-! ## Roster, leader and time master (R388, R398, R400) -/

/-- The roster: the stations heard, and the station's own address while JOIN is set (R398). -/
def State.roster (s : State) : List Nat :=
  (List.range 64).filter (fun a => (s.getRsrc a).member || (s.ringJoined && decide (a = s.ringAddr)))

/-- VMAX as it applies (R422). -/
def State.vmax (s : State) : Nat := max 1 (s.rd Fld.RING_CFG_VMAX)
/-- LVER of a port (R388). -/
def State.lver (s : State) (p : Nat) : Nat := min s.vmax (s.getRport p).nbrMax
/-- VCAP (R388). -/
def State.vcap (s : State) : Nat :=
  match s.rportUp 0, s.rportUp 1 with
  | true, true => min (s.lver 0) (s.lver 1)
  | true, false => s.lver 0
  | false, true => s.lver 1
  | false, false => s.vmax

/-- The leader: the lowest address of the roster whose HELLO is not marked DUP (R398). -/
def State.ringLeader (s : State) : Option Nat :=
  s.roster.find? (fun a => if s.ringJoined ∧ a = s.ringAddr then !s.on Fld.RING_STAT_DUP else !(s.getRsrc a).dup)

/-- The time master: the lowest address of the roster that advertises PTP master (R400). -/
def State.timeMaster (s : State) : Option Nat :=
  s.roster.find? (fun a => if s.ringJoined ∧ a = s.ringAddr then s.on Fld.RING_PTP_CFG_MASTER else (s.getRsrc a).master)

/-- The time master as RING_PTP_STAT shows it. -/
def State.shownMaster (s : State) : Option Nat :=
  if s.on Fld.RING_PTP_STAT_GM_VALID then some (s.rd Fld.RING_PTP_STAT_GM) else none

/-- A change of the time master: LOCKED clears, and the next Sync takes RING_OFS whole; the master itself has RING_OFS 0 and is always
LOCKED (R403). -/
def State.newMaster (s : State) : State :=
  let g := s.timeMaster
  let me := decide (g = some s.ringAddr) && s.ringJoined
  let s := (s.wr Fld.RING_PTP_STAT_GM (g.getD 0)).wrBit Fld.RING_PTP_STAT_GM_VALID g.isSome
  let s := (s.wrBit Fld.RING_PTP_STAT_MASTER_ACT me).wrBit Fld.RING_PTP_STAT_LOCKED me
  let s := if me then s.wr64 Reg.RING_OFS_LO 0 else s
  s.onRing (fun r => { r with goodSync := 0, ofsTaken := false, syncs := [], syncUsed := none, lastSync := s.tb.toNat })

/-- The registers that show the roster, the leader, VCAP, LVER and the time master, brought up to date. A change of the roster makes the
leader's next proposal due 50 ms later (R399). -/
def State.refreshRing (s : State) : State :=
  if !s.domOn .ring then s
  else
    let l := s.roster
    let bits := l.foldl (fun n a => n + 2 ^ a) 0
    let s := if s.rd64 Reg.RING_ROSTER_LO = bits then s else s.onRing (fun r => { r with due := s.tb.toNat + 200000000 })
    let s := (s.wr64 Reg.RING_ROSTER_LO bits).wr Fld.RING_STAT_NSTA l.length
    let s := (s.wr Fld.RING_STAT_LEADER (s.ringLeader.getD 0)).wr Fld.RING_VER_VCAP s.vcap
    let s := if s.rportUp 0 then s.wr (Fld.RING_P_STAT_LVER 0) (s.lver 0) else s
    let s := if s.rportUp 1 then s.wr (Fld.RING_P_STAT_LVER 1) (s.lver 1) else s
    if s.timeMaster = s.shownMaster ∧ (s.on Fld.RING_PTP_STAT_MASTER_ACT ↔ (s.ringJoined ∧ s.timeMaster = some s.ringAddr)) then s
    else s.newMaster

/-! ## The bypass switch (R417) -/

/-- BYP_KEEP runs while JOIN is set, the domain is on and its heartbeat is seen; each start and stop is an event (R417). -/
def State.settleKeep (s : State) : State :=
  let want := s.domOn .ring && s.ringJoined && s.beat
  if want = s.keep then s
  else { s with keep := want }.topology 2 (if want then 10 else 11) 0

/-- HEARTBEAT_LOSS: AON has seen no heartbeat for 50 µs (R417). -/
def execHeartbeatLoss (s : State) : Host.Outcome State Fault Refusal :=
  .next (s.unfrozen (fun s => { s with beat := false }.settleKeep))

/-! ## Virtual encoders (R409) -/

/-- Whether VRX entry `k` is lost: with EN set, while RVER is below 2, or until a sample ends the loss (R409). -/
def State.vencLost (s : State) (k : Nat) : Bool :=
  s.on (Fld.RING_VRX_EN k) && (decide (s.ringVersion < 2) || s.ring.vlost.contains k)

/-- The loss of a virtual encoder (R409). -/
def State.loseVenc (s : State) (k : Nat) : State :=
  let s := s.onRing (fun r => { r with vlost := insertOnce k r.vlost })
  let s := ((s.report 0x007 (BitVec.ofNat 32 k)).topology 2 9 k).stillTracker (16 + k)
  s.liveCtxs.foldl (fun s c =>
    if s.ctxState c ≠ 0 ∧ s.posSrc c = 16 + k then s.abortCtx c (fun _ => true) .overspeed Status.abortedFault else s) s

/-- Whether VRX entry `k` receives: EN is set and RVER is 2 or more (R409). -/
def State.vrxActive (s : State) (k : Nat) : Bool := s.on (Fld.RING_VRX_EN k) && decide (2 ≤ s.ringVersion)

/-- VRX entry `k` begins to wait for a sample (R409). -/
def State.awaitVenc (s : State) (k : Nat) : State := s.onRing (fun r => { r with vrxAt := Store.put (fun _ => 0) r.vrxAt k s.tb.toNat })

/-- The entries that a step has made lost have their losses; an entry without EN is not lost; one that the step has made active waits for its
first sample from now on (DEDUCED, log entry 119). -/
def State.settleVrx (old : State) (s : State) : State :=
  (List.range 8).foldl (fun s k =>
    let s := if s.vrxActive k && !old.vrxActive k then s.awaitVenc k else s
    if !s.on (Fld.RING_VRX_EN k) then s.onRing (fun r => { r with vlost := r.vlost.filter (fun j => j ≠ k) })
    else if s.vencLost k && !old.vencLost k then s.loseVenc k
    else s) s

/-- TMO of VRX entry `k` in TB units: 100 µs units, 0 applying 1 (R423). -/
def State.vrxTmo (s : State) (k : Nat) : Nat := max 1 (s.rd (Fld.RING_VRX_TMO k)) * 400000

/-- VENC_LOST: no sample has arrived for TMO × 100 µs (R409). -/
def execVencLost (k : Fin 8) (s : State) : Host.Outcome State Fault Refusal :=
  .next (s.unfrozen (fun s =>
    if s.domOn .ring && s.vrxActive k && !s.vencLost k && s.past (Store.get (fun _ => 0) s.ring.vrxAt k) (s.vrxTmo k) then s.loseVenc k
    else s))

/-! ## Joining and leaving (R391, R398, R399, R417) -/

/-- Every busy mailbox completes with a RESULT (R398, R415). -/
def State.endMailbox (s : State) (m result : Nat) : State :=
  let s := s.onRing (fun r => { r with mbx := Store.put (fun _ => none) r.mbx m none })
  (s.wr (Fld.RING_MBX_CMD_RESULT m) result).wr (Fld.RING_MBX_CMD_BUSY m) 0

def State.endMailboxes (s : State) (result : Nat) : State :=
  (List.range 4).foldl (fun s m => if s.on (Fld.RING_MBX_CMD_BUSY m) then s.endMailbox m result else s) s

/-- A master's write of RING_CFG (R422): ADDR is written only while JOIN is clear. Setting JOIN draws a JOIN_ID and starts at version 1;
clearing it ends DUP. -/
def State.writeRingCfg (s : State) (m : Master) (v : Word) : State :=
  let old := s
  let v := if s.ringJoined then v &&& ~~~0x3F00 ||| (s.getReg Reg.RING_CFG &&& 0x3F00) else v
  let s := s.writeCode m Reg.RING_CFG v
  let s :=
    if s.ringJoined && !old.ringJoined then
      let (f, s) := s.draw
      (s.onRing (fun r => { r with joinId := f.toNat % 65536 })).wr Fld.RING_VER_RVER 1
    else if !s.ringJoined && old.ringJoined then s.wr Fld.RING_STAT_DUP 0
    else s
  (State.settleVrx old s.refreshRing).settleKeep

/-- JOIN: a write of RING_CFG. -/
def execJoin (m : Master) (v : Word) (s : State) : Host.Outcome State Fault Refusal :=
  .next (s.unfrozen (fun s => s.accessBy m Reg.RING_CFG (fun s => s.writeRingCfg m v)))

/-! ## Links (R387, R388) -/

/-- A port's link goes down: Rake and the ER are told, and the trials restart from the top (R387). -/
def State.rportDown (s : State) (p : Nat) : State :=
  let x := s.getRport p
  if s.rportUp p then
    let nbr := s.rd (Fld.RING_P_STAT_NBR p)
    let s := (s.report 0x205 (BitVec.ofNat 32 p)).topology p 2 nbr
    let s := (s.setReg (Reg.RING_P_STAT p) 0).wr Fld.RING_STAT_LOOPBACK 0
    let s := s.setRport p { RingPort.reset with began := s.tb.toNat, reqNo := x.reqNo, own := x.own }
    s.refreshRing
  else s.setRport p { x with trial := 0, began := s.tb.toNat, crit := [], bulk := [] }

/-- RING_LINK_DOWN: a port loses lock, or sees no neighbour HELLO for 3 ms (R387). -/
def execRingLinkDown (p : Fin 2) (s : State) : Host.Outcome State Fault Refusal :=
  .next (s.unfrozen (fun s => if s.domOn .ring then s.rportDown p else s))

/-- PHY_TRIAL_EXPIRY: 250 ms without link, so the next PHY is tried (R387). -/
def execPhyTrialExpiry (p : Fin 2) (s : State) : Host.Outcome State Fault Refusal :=
  .next (s.unfrozen (fun s =>
    let x := s.getRport p
    if s.rportRuns p && !s.rportUp p && s.past x.began 1000000000 then
      s.setRport p { x with trial := (x.trial + 1) % (s.phyOrder p).length, began := s.tb.toNat, crit := [], bulk := [] }
    else s))

/-- A master's write of RING_Pp_CFG (R387, R423): a port taken out of use goes down, and one taken into use begins its trials. -/
def State.writeRportCfg (s : State) (m : Master) (p : Nat) (v : Word) : State :=
  let was := s.on (Fld.RING_P_CFG_EN p)
  let s := s.writeCode m (Reg.RING_P_CFG p) v
  if s.on (Fld.RING_P_CFG_EN p) then
    if was then s else s.setRport p { s.getRport p with trial := 0, began := s.tb.toNat }
  else s.rportDown p

/-- The RING domain comes on: RING_CFG.ADDR is that of customer region B, AON sees the island's heartbeat again, and the trials of
both ports begin (R387, R417, R422). -/
def State.startStation (s : State) : State :=
  let s := { (s.wr Fld.RING_CFG_ADDR s.units.ringAddr) with beat := true }
  let s := (s.setRport 0 { s.getRport 0 with began := s.tb.toNat }).setRport 1 { s.getRport 1 with began := s.tb.toNat }
  s.settleKeep

/-! ## HELLO (R387, R398) -/

/-- The station's own HELLO of a scope (R396). -/
def State.ownHello (s : State) (scope : Nat) : RingMsg :=
  .hello scope s.vmax 1 s.vcap s.ringVersion (s.on Fld.RING_PTP_CFG_MASTER) s.ringLocked (s.on Fld.RING_STAT_DUP)
    (s.rd Fld.RING_VER_EPOCH) s.units.serial

/-- Within 35 ms of the present, in TB units. -/
def State.fresh35 (s : State) (t : Option Nat) : Bool :=
  match t with
  | none => false
  | some t => decide (s.tb.toNat ≤ t + 140000000)

/-- A Pdelay_Req leaves on a port (R401). -/
def State.askDelay (s : State) (p : Nat) : State :=
  if s.rportUp p && s.ringJoined && !s.on Fld.RING_STAT_DUP then
    let x := s.getRport p
    let n := x.reqNo
    let s := s.setRport p { x with reqNo := (n + 1) % 65536, req := none, resp := none }
    s.ringSendOne p (.ptp ⟨.pdelayReq, s.rd Fld.RING_PTP_CFG_DOMAIN, n, 0, 0⟩)
  else s

/-- A neighbour HELLO at port `p`: it names the neighbour, shows a loop-back, and brings the link of a port on trial up (R387, R388,
R398, R418); a link that comes up shows that the reference runs (DEDUCED, log entry 122). -/
def State.hearNeighbour (s : State) (p src vmax serial : Nat) : State :=
  let s := s.setRport p { s.getRport p with nbrMax := vmax }
  let mine := decide (src = s.ringAddr) && decide (serial = s.units.serial)
  let s :=
    if mine && !s.on Fld.RING_STAT_LOOPBACK then (s.wr Fld.RING_STAT_LOOPBACK 1).topology p 8 src
    else s.wrBit Fld.RING_STAT_LOOPBACK mine
  if s.rportUp p then (s.wr (Fld.RING_P_STAT_NBR p) src).refreshRing
  else
    let phy := (s.phyOrder p).getD (s.getRport p).trial 0
    let s := ((s.wr (Fld.RING_P_STAT_NBR p) src).wr (Fld.RING_P_STAT_PHY p) (phy + 1)).wr (Fld.RING_P_STAT_LINK p) 1
    let s := s.wr Fld.PCR_PLL_STAT_RING_REF_OK 1
    let s := s.refreshRing.topology p 1 src
    (s.ringSendAny 0xFF (s.ownHello 1)).askDelay p

/-- A ring HELLO of the station's own address: its own shows whether the ring is closed, another station's sets DUP (R397, R398). -/
def State.hearSelf (s : State) (p serial : Nat) : State :=
  if serial = s.units.serial then
    let s := s.setRport p { s.getRport p with own := some s.tb.toNat }
    if s.fresh35 (s.getRport 0).own && s.fresh35 (s.getRport 1).own && !s.on Fld.RING_STAT_CLOSED then
      (s.wr Fld.RING_STAT_CLOSED 1).topology 2 3 0
    else s
  else if s.ringJoined && !s.on Fld.RING_STAT_DUP then
    ((s.wr Fld.RING_STAT_DUP 1).endMailboxes 3).refreshRing.topology 2 7 s.ringAddr
  else s

/-- A ring HELLO of another station: it is in the roster (R398). -/
def State.hearStation (s : State) (src : Nat) (master dup : Bool) : State :=
  if 63 < src then s
  else
    let x := s.getRsrc src
    let s := (s.setRsrc src { x with member := true, master := master, dup := dup, heard := s.tb.toNat }).refreshRing
    if x.member then s else s.topology 2 5 src

/-- The oldest frame admitted, if its message is one that `p` names, taken from the inbox. -/
def State.takeFrame (s : State) (p : RingMsg → Bool) : Option (Admitted × State) :=
  match s.ring.inbox with
  | [] => none
  | a :: t => if p a.frame.msg then some (a, s.onRing (fun r => { r with inbox := t })) else none

/-- HELLO: the oldest admitted frame is a HELLO. -/
def execHello (s : State) : Host.Outcome State Fault Refusal :=
  .next (s.unfrozen (fun s =>
    match s.takeFrame (fun m => match m with | .hello .. => true | _ => false) with
    | none => s
    | some (a, s) =>
      match a.frame.msg with
      | .hello scope vmax _ _ _ master _ dup _ serial =>
        if scope = 0 then s.hearNeighbour a.port a.frame.src vmax serial
        else if a.frame.src = s.ringAddr then s.hearSelf a.port serial
        else s.hearStation a.frame.src master dup
      | _ => s))

/-- HELLO_TIMER: 1 ms has passed, and with `ring` 10 ms, so the neighbour HELLO, and the ring HELLO, is sent (R391, R398). -/
def execHelloTimer (ring : Bool) (s : State) : Host.Outcome State Fault Refusal :=
  .next (s.unfrozen (fun s =>
    let s := if s.rportRuns 0 then s.ringSendOne 0 (s.ownHello 0) else s
    let s := if s.rportRuns 1 then s.ringSendOne 1 (s.ownHello 0) else s
    if ring then s.ringSendAny 0xFF (s.ownHello 1) else s))

/-- ROSTER_EXPIRY: no ring HELLO of a station for 35 ms, so it leaves the roster with its window, and the tokens of its tunnel are freed
(R49, R393, R398). -/
def execRosterExpiry (st : Fin 64) (s : State) : Host.Outcome State Fault Refusal :=
  .next (s.unfrozen (fun s =>
    if s.domOn .ring && (s.getRsrc st).member && s.past (s.getRsrc st).heard 140000000 then
      let s := (s.setRsrc st RingSrc.reset).refreshRing.topology 2 5 st
      s.freeTokensOf (.tunnel st)
    else s))

/-- RING_OPENED: the own ring HELLO has not returned on both ports for 35 ms (R397, R424). -/
def execRingOpened (s : State) : Host.Outcome State Fault Refusal :=
  .next (s.unfrozen (fun s =>
    if s.domOn .ring && s.on Fld.RING_STAT_CLOSED && !(s.fresh35 (s.getRport 0).own && s.fresh35 (s.getRport 1).own) then
      let s := (s.setRport 0 { s.getRport 0 with own := none }).setRport 1 { s.getRport 1 with own := none }
      (s.wr Fld.RING_STAT_CLOSED 0).topology 2 4 0
    else s))

/-! ## Frames (R389 to R395) -/

/-- Whether a message passes no duplicate discard: neighbour messages (R391), the copies of a PROPOSE (R393), and those of a Sync and its
Follow_Up, between which R403 chooses. -/
def msgExempt : RingMsg → Bool
  | .hello scope .. => decide (scope = 0)
  | .versionAgree phase .. => decide (phase ≠ 3)
  | .ptp _ => true
  | _ => false

/-- The least version at which a message is delivered; 0 where its type is unknown (R395). -/
def msgVersion : RingMsg → Nat
  | .venc _ => 2
  | .service .. => 2
  | .reject _ vote .. => if vote = 0 then 3 else 1
  | .other .. => 0
  | _ => 1

/-- Whether the window of a frame's source admits it, and the window with it delivered (R393). SEQ runs modulo 2^16. -/
def RingSrc.takes (x : RingSrc) (f : RingFrame) : Option RingSrc :=
  if x.joinId ≠ some f.joinId then some { x with joinId := some f.joinId, high := f.seq, seen := [f.seq] }
  else
    let ahead := (f.seq + 65536 - x.high) % 65536
    let back := (x.high + 65536 - f.seq) % 65536
    if 0 < ahead ∧ ahead < 32768 then
      some { x with high := f.seq, seen := f.seq :: x.seen.filter (fun q => decide ((f.seq + 65536 - q) % 65536 < 64)) }
    else if back < 64 ∧ ¬ x.seen.contains f.seq then some { x with seen := f.seq :: x.seen }
    else none

/-- The UNCORR flag and the note that a forwarded Sync takes when it arrives at port `p` (R402). -/
def State.passPtp (s : State) (p : Nat) (f : RingFrame) : RingFrame × State :=
  match f.msg with
  | .ptp m =>
    if m.kind = .sync ∨ m.kind = .followUp then
      if !s.on (Fld.RING_P_STAT_DELAY_OK p) then ({ f with uncorr := true }, s)
      else if m.kind = .sync then
        let x := s.getRport (1 - p)
        (f, s.setRport (1 - p) { x with syncs := x.syncs.filter (fun y => y.src ≠ f.src) ++ [⟨f.src, m.seqId, s.tb.toNat, none⟩] })
      else (f, s)
    else (f, s)
  | _ => (f, s)

/-- Whether a frame that arrived at port `p` may go on out of the other port (R391, R392). -/
def State.mayForward (s : State) (p : Nat) (f : RingFrame) : Bool :=
  s.ringJoined && decide (f.src ≠ s.ringAddr) && decide (f.dst ≠ s.ringAddr) && decide (1 < f.hops) && s.rportUp (1 - p)

/-- A frame is forwarded with HOPS one less; a PROPOSE goes on only once it has been processed (R392, R399). -/
def State.forward (s : State) (p : Nat) (f : RingFrame) : State :=
  let propose := match f.msg with
    | .versionAgree phase .. => decide (phase = 1)
    | _ => false
  if s.mayForward p f && !propose then
    let r := s.passPtp p f
    r.2.queueFrame (1 - p) { r.1 with hops := f.hops - 1 }
  else s

/-- Whether an MGMT message is a request. -/
def isRequest : RingMsg → Bool
  | .mgmt op .. => decide (op = 0x01) || decide (op = 0x02)
  | _ => false

/-- A frame joins those admitted. A request beyond 16 held is answered ERROR with STATUS BUSY (R414). -/
def State.admitFrame (s : State) (p : Nat) (f : RingFrame) : State :=
  let s' := s.onRing (fun r => { r with inbox := r.inbox ++ [⟨p, s.tb.toNat, f⟩] })
  match f.msg with
  | .mgmt _ tag _ _ addr _ =>
    if isRequest f.msg ∧ 16 ≤ (s.ring.inbox.filter (fun a => isRequest a.frame.msg)).length then
      s.ringSend f.src (.mgmt 0xFF tag 0 1 addr [])
    else s'
  | _ => s'

/-- A frame is passed to the station's own units where R392 and R393 say so. Of its own frames a station hears HELLO and
VERSION_AGREE. -/
def State.deliver (s : State) (p : Nat) (f : RingFrame) : State :=
  if f.dst ≠ 0xFF ∧ f.dst ≠ s.ringAddr then s
  else if msgVersion f.msg = 0 ∨ s.ringVersion < msgVersion f.msg then s
  else if f.src = s.ringAddr then
    match f.msg with
    | .hello .. => s.admitFrame p f
    | .versionAgree .. => s.admitFrame p f
    | _ => s
  else if msgExempt f.msg then s.admitFrame p f
  else
    match (s.getRsrc f.src).takes f with
    | none => s
    | some x => (s.setRsrc f.src x).admitFrame p f

/-- RING_FRAME: a frame arrives at port `p`; a faulty one, or a pause frame, is discarded and counted (R386, R389, R392). -/
def execRingFrame (p : Fin 2) (fault : FrameFault) (f : RingFrame) (s : State) : Host.Outcome State Fault Refusal :=
  .next (s.unfrozen (fun s =>
    if !s.rportRuns p then s
    else
      let s := s.bump (Fld.RING_P_CNT_RX_COUNT p)
      match fault with
      | .fcs => s.bumpSat (Fld.RING_P_CNT_ERR_COUNT p)
      | .length => s.bumpSat (Fld.RING_P_CNT_ERR_COUNT p)
      | .address => s.bumpSat (Fld.RING_P_CNT_DROP_COUNT p)
      | .etherType => s.bumpSat (Fld.RING_P_CNT_DROP_COUNT p)
      | .pause => s.bumpSat (Fld.RING_P_CNT_DROP_COUNT p)
      | .none => (s.forward p f).deliver p f))

/-! ## The ring version (R399) -/

/-- A COMMIT comes into force: RVER and EPOCH; the leader writes an event when RVER changes; what a lower version ends, ends (R399,
R409, R416). -/
def State.applyVersion (s : State) (v epoch : Nat) : State :=
  let old := s
  let s := (s.wr Fld.RING_VER_RVER v).wr Fld.RING_VER_EPOCH epoch
  let s := s.onRing (fun r => { r with commit := none, epoch := epoch, sessions := if v < 2 then [] else r.sessions })
  let s := if v < 2 then old.ring.sessions.foldl (fun s x => s.endTunnel x.peer x.num) s else s
  let s := State.settleVrx old s
  let s := if v < 3 then s.liveCtxs.foldl (fun s c => s.settleProds c) s else s
  if old.ringVersion ≠ v ∧ s.ringJoined ∧ s.ringLeader = some s.ringAddr then s.topology 2 6 s.ringAddr else s

/-- A COMMIT is received or sent: in force at ACT, or at once when the station is not LOCKED (R399). -/
def State.onCommit (s : State) (v epoch act : Nat) : State :=
  if s.ringLocked then s.onRing (fun r => { r with commit := some (v, epoch, act) }) else s.applyVersion v epoch

/-- The leader judges the copies returned: COMMIT when they include the roster, else it tries again 1 s later (R399). -/
def State.judgeProposal (s : State) : State :=
  match s.ring.proposal with
  | none => s
  | some q =>
    let s := s.onRing (fun r => { r with proposal := none })
    let vr := q.copies.foldl (fun n c => min n c.1) s.vcap
    if s.roster.all (fun a => q.copies.any (fun c => c.2.testBit a)) then
      let act := (s.toRing s.tb.toNat + 80000000) % 2 ^ 64
      (s.ringSend 0xFF (.versionAgree 3 vr q.epoch s.ringAddr 0 act)).onCommit vr q.epoch act
    else s.onRing (fun r => { r with due := s.tb.toNat + 4000000000 })

/-- VERSION_PROPOSE: the leader begins an agreement, when one is due: 50 ms after the last change of the roster, 1 s after a try that failed,
and else every 10 s (R399). -/
def execVersionPropose (s : State) : Host.Outcome State Fault Refusal :=
  .next (s.unfrozen (fun s =>
    if s.domOn .ring && s.ringJoined && decide (s.ringLeader = some s.ringAddr) && s.past s.ring.due 0 then
      let e := (s.ring.epoch + 1) % 65536
      let s := s.onRing (fun r => { r with epoch := e, due := s.tb.toNat + 40000000000, proposal := some ⟨e, s.tb.toNat, []⟩ })
      s.ringSend 0xFF (.versionAgree 1 s.vcap e s.ringAddr (2 ^ s.ringAddr) 0)
    else s))

/-- The leader notes a copy of its own proposal; with both it judges (R399). -/
def State.noteCopy (s : State) (v mask epoch : Nat) : State :=
  match s.ring.proposal with
  | none => s
  | some q =>
    if q.epoch ≠ epoch then s
    else
      let s := s.onRing (fun r => { r with proposal := some { q with copies := q.copies ++ [(v, mask)] } })
      if 2 ≤ q.copies.length + 1 then s.judgeProposal else s

/-- A station's part in another's PROPOSE: its own capability and address join, and the copy goes on, or back as RETURN (R399). -/
def State.passProposal (s : State) (a : Admitted) (v epoch leader mask : Nat) : State :=
  let m := RingMsg.versionAgree 1 (min v s.vcap) epoch leader (mask ||| 2 ^ s.ringAddr) 0
  if !s.ringJoined then s
  else if s.rportUp (1 - a.port) then
    if 1 < a.frame.hops then s.queueFrame (1 - a.port) { a.frame with hops := a.frame.hops - 1, msg := m } else s
  else
    let m := RingMsg.versionAgree 2 (min v s.vcap) epoch leader (mask ||| 2 ^ s.ringAddr) 0
    s.queueFrame a.port { a.frame with hops := 64, west := !a.frame.west, msg := m }

/-- VERSION_AGREE: the oldest admitted frame is one (R399). -/
def execVersionAgree (s : State) : Host.Outcome State Fault Refusal :=
  .next (s.unfrozen (fun s =>
    match s.takeFrame (fun m => match m with | .versionAgree .. => true | _ => false) with
    | none => s
    | some (a, s) =>
      match a.frame.msg with
      | .versionAgree phase v epoch leader mask act =>
        if phase = 3 then (if a.frame.src = s.ringAddr then s else s.onCommit v epoch act)
        else if a.frame.src = s.ringAddr then s.noteCopy v mask epoch
        else if phase = 1 then s.passProposal a v epoch leader mask
        else s
      | _ => s))

/-- VERSION_COLLECT_TIMEOUT: 100 ms after a PROPOSE the leader judges what has returned (R399). -/
def execVersionCollectTimeout (s : State) : Host.Outcome State Fault Refusal :=
  .next (s.unfrozen (fun s => if s.domOn .ring && s.ring.proposal.any (fun q => s.past q.sent 400000000) then s.judgeProposal else s))

/-- VERSION_ACT: ACT of a COMMIT is reached (R399). -/
def execVersionAct (s : State) : Host.Outcome State Fault Refusal :=
  .next (s.unfrozen (fun s =>
    match s.ring.commit with
    | none => s
    | some (v, epoch, act) => if s.domOn .ring ∧ act ≤ s.toRing s.tb.toNat then s.applyVersion v epoch else s))

/-! ## Ring time (R400 to R403) -/

/-- SYNC_TIMER: the time master sends a Sync; its Follow_Up, the next message, follows it on each port (R400). -/
def execSyncTimer (s : State) : Host.Outcome State Fault Refusal :=
  .next (s.unfrozen (fun s =>
    if s.domOn .ring && s.on Fld.RING_PTP_STAT_MASTER_ACT then
      let n := s.ring.syncSeq
      let s := s.ringSend 0xFF (.ptp ⟨.sync, s.rd Fld.RING_PTP_CFG_DOMAIN, n, 0, 0⟩)
      s.onRing (fun r => { r with syncSeq := (n + 1) % 65536, seq := (r.seq + 1) % 65536 })
    else s))

/-- PEER_DELAY_TIMER: an up port measures its link delay (R401). -/
def execPeerDelayTimer (p : Fin 2) (s : State) : Host.Outcome State Fault Refusal :=
  .next (s.unfrozen (fun s => if s.domOn .ring then s.askDelay p else s))

/-- A PTP time in 2^-16 ns: the timestamp and the correctionField. -/
def ptpTime (m : PtpMsg) : Int := m.stamp * 2 ^ 16 + m.corr

/-- A measured link delay, in 2^-16 ns, joins the last four, whose mean is the link delay in TB units, Q24.8 (R401, R423). -/
def State.noteDelay (s : State) (p : Nat) (d : Int) : State :=
  let x := s.getRport p
  let l := (patternOf 32 (roundDiv d 64) :: x.delays).take 4
  let s := s.setRport p { x with delays := l, req := none, resp := none }
  let s := s.wr (Fld.RING_P_DELAY_DELAY p) (roundDiv (l.foldl (· + ·) 0 : Nat) l.length).toNat
  s.wr (Fld.RING_P_STAT_DELAY_OK p) 1

/-- The servo sets TB_INC to a value within the range of R137; which one, the spec leaves open (DESIGN CHOICE, log entry 1). -/
def State.servo (s : State) : State :=
  let (f, s) := s.draw
  s.setReg Reg.PCR_TB_INC (BitVec.ofNat 32 (tbIncLow + f.toNat % (tbIncHigh + 1 - tbIncLow)))

/-- RING_OFS follows a Sync whose residual is known, and LOCKED with it (R403). Units are TB. -/
def State.useSync (s : State) (ring : Int) (at_ : Nat) : State :=
  let res := ring - at_ - s.ringOfs
  let first := !s.ring.ofsTaken
  let step := if first then res else clampInt (-4) 4 res
  let r := if first then 0 else res
  let s := s.wr64 Reg.RING_OFS_LO (patternOf 64 (s.ringOfs + step))
  let good := if r.natAbs ≤ 400 then s.ring.goodSync + 1 else 0
  let s := s.onRing (fun q => { q with ofsTaken := true, goodSync := min good 16, lastSync := s.tb.toNat })
  let s := if 1600 < r.natAbs then s.wr Fld.RING_PTP_STAT_LOCKED 0 else if 16 ≤ good then s.wr Fld.RING_PTP_STAT_LOCKED 1 else s
  s.servo

/-- Whether a copy of a Sync is the one to use: it has crossed fewer links than any other, or as many and came in on RING_E (R403). -/
def SyncSeen.best (l : List SyncSeen) (x : SyncSeen) : Bool :=
  l.all (fun y => decide (y.seqId ≠ x.seqId) || decide (y = x) || decide (x.links < y.links) ||
    (decide (x.links = y.links) && decide (x.port = 0)))

/-- A Sync or Follow_Up of the time master at a station that follows it (R403). -/
def State.followMaster (s : State) (a : Admitted) (m : PtpMsg) : State :=
  if s.on Fld.RING_PTP_STAT_MASTER_ACT || decide (s.shownMaster ≠ some a.frame.src) || a.frame.uncorr ||
      decide (m.domain ≠ s.rd Fld.RING_PTP_CFG_DOMAIN) || !s.on (Fld.RING_P_STAT_DELAY_OK a.port) then s
  else if m.kind = .sync then
    let x : SyncSeen := ⟨a.port, 64 - a.frame.hops, m.seqId, a.at_, m.corr⟩
    s.onRing (fun r => { r with syncs := r.syncs.filter (fun y => decide (y.seqId = m.seqId) && decide (y.port ≠ a.port)) ++ [x] })
  else
    match s.ring.syncs.find? (fun y => y.port == a.port && y.seqId == m.seqId) with
    | none => s
    | some x =>
      if !SyncSeen.best s.ring.syncs x || decide (s.ring.syncUsed = some m.seqId) then s
      else
        let d : Int := s.rd (Fld.RING_P_DELAY_DELAY a.port)
        let s := s.onRing (fun r => { r with syncUsed := some m.seqId })
        s.useSync (roundDiv (ptpTime m + x.corr + d * 2 ^ 6) (2 ^ 14)) x.at_

/-- PTP: the oldest admitted frame is a PTP message (R401, R403). -/
def execPtp (s : State) : Host.Outcome State Fault Refusal :=
  .next (s.unfrozen (fun s =>
    match s.takeFrame (fun m => match m with | .ptp _ => true | _ => false) with
    | none => s
    | some (a, s) =>
      match a.frame.msg with
      | .ptp m =>
        let x := s.getRport a.port
        match m.kind with
        | .sync => s.followMaster a m
        | .followUp => s.followMaster a m
        | .pdelayReq =>
          if s.ringJoined && !s.on Fld.RING_STAT_DUP then
            let t := ptpStamp (s.toRing a.at_)
            let s := s.ringSendOne a.port (.ptp ⟨.pdelayResp, m.domain, m.seqId, t.2, t.1⟩)
            s.onRing (fun r => { r with seq := (r.seq + 1) % 65536 })
          else s
        | .pdelayResp =>
          if x.req.any (fun q => decide (q.1 = m.seqId)) then s.setRport a.port { x with resp := some (ptpTime m, a.at_) } else s
        | .pdelayRespFollowUp =>
          match x.req, x.resp with
          | some (n, t1), some (t2, t4) =>
            if n = m.seqId then s.noteDelay a.port (roundDiv (((t4 : Int) - t1) * 2 ^ 14 - (ptpTime m - t2)) 2) else s
          | _, _ => s
        | .other _ => s
      | _ => s))

/-- SYNCS_MISSING: 4 consecutive Syncs, one every 62.5 ms, are missing (R403). -/
def execSyncsMissing (s : State) : Host.Outcome State Fault Refusal :=
  .next (s.unfrozen (fun s =>
    if s.domOn .ring && !s.on Fld.RING_PTP_STAT_MASTER_ACT && s.past s.ring.lastSync 1000000000 then
      (s.wr Fld.RING_PTP_STAT_LOCKED 0).onRing (fun r => { r with goodSync := 0 })
    else s))

end Sys2Proof.Machine
end

