-- ==== Sys2Proof/Machine/RingServices.lean ====
section
/-! DEFINITION. The line services of the ring: print-go relays, virtual encoders, tracking, reject relays and votes (R405 to R413,
R424, spec/12_tchitric_line_ring.md). -/

namespace Sys2Proof.Machine

/-- Whether the time a frame carries is valid at this station (R405). -/
def State.timeValid (s : State) (f : RingFrame) : Bool := !f.unsync && s.ringLocked

/-! ## Print-go relays (R406) -/

/-- An accepted edge reaches the contexts bound to a print-go source that `want` names, never context 0 (R113, R133, R146, R406). -/
def State.edgeTo (s : State) (want : Nat → Bool) (t : Nat) : State :=
  (List.range 255).foldl (fun s c =>
    if c ≠ 0 ∧ s.ctxState c ≠ 0 ∧ want c then s.setCtx c { s.getCtx c with edges := (s.getCtx c).edges ++ [t] } else s) s

/-- PGO_SRC of a context (R100). -/
def State.pgoSrc (s : State) (c : Nat) : Nat := s.rd (Fld.CTX_BINDING_PGO_SRC c)

/-- An accepted edge of input PGOn of a polarity is relayed by every PTX entry that names it (R406). -/
def State.relayEdge (s : State) (n pol t : Nat) : State :=
  (List.range 8).foldl (fun s i =>
    if s.domOn .ring ∧ s.on (Fld.RING_PTX_EN i) ∧ s.rd (Fld.RING_PTX_PGO i) = n ∧ s.rd (Fld.RING_PTX_POL i) = pol then
      let c := (Store.get (fun _ => 0) s.ring.pgoCount i + 1) % 65536
      let s := s.onRing (fun r => { r with pgoCount := Store.put (fun _ => 0) r.pgoCount i c })
      s.ringSend 0xFF (.pgo i pol c (s.toRing t))
    else s) s

/-- The edge of a PGO message at VPGOk: a gap in COUNT is counted, and an edge that does not lie after the last one is discarded
(R406). -/
def State.vpgoEdge (s : State) (k count t : Nat) : State :=
  let s := match Store.get (fun _ => none) s.ring.prxCount k with
    | none => s
    | some c => if 1 < (count + 65536 - c) % 65536 then s.bumpSat Fld.RING_CNT_GAP_COUNT else s
  let s := s.onRing (fun r => { r with prxCount := Store.put (fun _ => none) r.prxCount k (some count) })
  if (Store.get (fun _ => none) s.ring.prxLast k).any (fun l => decide (t ≤ l)) then s.bumpSat Fld.RING_CNT_DISC_COUNT
  else (s.onRing (fun r => { r with prxLast := Store.put (fun _ => none) r.prxLast k (some t) })).edgeTo
    (fun c => decide (s.pgoSrc c = 32 + k)) t

/-- PGO: the oldest admitted frame is a PGO message (R405, R406). -/
def execPgo (s : State) : Host.Outcome State Fault Refusal :=
  .next (s.unfrozen (fun s =>
    match s.takeFrame (fun m => match m with | .pgo .. => true | _ => false) with
    | none => s
    | some (a, s) =>
      match a.frame.msg with
      | .pgo relay _ count time =>
        if !s.timeValid a.frame then s.bumpSat Fld.RING_CNT_DISC_COUNT
        else (List.range 8).foldl (fun s k =>
          if s.on (Fld.RING_PRX_EN k) ∧ s.rd (Fld.RING_PRX_SRC k) = a.frame.src ∧ s.rd (Fld.RING_PRX_ID k) = relay then
            s.vpgoEdge k count (s.fromRing time)
          else s) s
      | _ => s))

/-! ## Virtual encoders (R408, R409) -/

/-- The sample of VTX entry `i`: the position and time of its encoder's last accepted edge (R408). -/
def State.vtxSample (s : State) (i : Nat) : Nat × Nat × Nat :=
  let tr := s.getTracker (s.rd (Fld.RING_VTX_ENC i))
  (i, patternOf 48 tr.pe, s.toRing tr.te)

/-- Whether VTX entry `i` falls due: it publishes, and PER µs, at least 10, have passed since it last did (R408, R423). -/
def State.vtxDue (s : State) (i : Nat) : Bool :=
  s.on (Fld.RING_VTX_EN i) && s.on (Fld.ENC_CFG_EN (s.rd (Fld.RING_VTX_ENC i))) &&
  (Store.get (fun _ => none) s.ring.vtxAt i).all (fun t => s.past t (max 10 (s.rd (Fld.RING_VTX_PER i)) * 4000))

/-- VENC_PUBLISH: those VTX entries of `due` that fall due at one instant share a message (R408). -/
def execVencPublish (due : BitVec 8) (s : State) : Host.Outcome State Fault Refusal :=
  .next (s.unfrozen (fun s =>
    let l := (List.range 8).filter (fun i => due.getLsbD i && s.vtxDue i)
    if s.domOn .ring ∧ s.domOn .place ∧ 2 ≤ s.ringVersion ∧ l ≠ [] then
      (s.ringSend 0xFF (.venc (l.map s.vtxSample))).onRing (fun r => { r with
        vtxAt := l.foldl (fun m i => Store.put (fun _ => none) m i (some s.tb.toNat)) r.vtxAt })
    else s))

/-- A sample reaches tracker 16 + k as a measurement, and ends a loss (R149, R409). -/
def State.vencSample (s : State) (k pos t : Nat) : State :=
  let s := (s.onRing (fun r => { r with vlost := r.vlost.filter (fun j => j ≠ k) })).awaitVenc k
  let x := s.getTracker (16 + k)
  let p := signedOf 48 pos
  if s.domOn .place then s.setTracker (16 + k) { x with meas := some (p, t), pe := p, te := t } else s

/-- VENC: the oldest admitted frame is a VENC message (R405, R409). -/
def execVenc (s : State) : Host.Outcome State Fault Refusal :=
  .next (s.unfrozen (fun s =>
    match s.takeFrame (fun m => match m with | .venc _ => true | _ => false) with
    | none => s
    | some (a, s) =>
      match a.frame.msg with
      | .venc l =>
        if !s.timeValid a.frame then s.bumpSat Fld.RING_CNT_DISC_COUNT
        else l.foldl (fun s x => (List.range 8).foldl (fun s k =>
          if s.vrxActive k ∧ s.rd (Fld.RING_VRX_SRC k) = a.frame.src ∧ s.rd (Fld.RING_VRX_ID k) = x.1 then
            s.vencSample k x.2.1 (s.fromRing x.2.2)
          else s) s) s
      | _ => s))

/-! ## Tracking (R410, R424) -/

/-- The track log's next entry is written (R410, R424). -/
def State.logTrack (s : State) (src ctx kind status : Nat) (reject valid : Bool) (seq pos t : Nat) : State :=
  let e := s.rd Fld.RING_TRK_WR_NEXT
  let time := if valid then t else 0
  let w := [(if valid then 2 ^ 31 else 0) + src % 64 * 2 ^ 24 + ctx * 2 ^ 16 + status * 2 ^ 8 + (if reject then 4 else 0) + kind % 4,
    seq, seq / 2 ^ 32 % 65536, pos, pos / 2 ^ 32 % 65536, time, time / 2 ^ 32, 0]
  let s := (List.range 8).foldl (fun s i => s.setReg (Reg.RING_TRK (8 * e + i)) (BitVec.ofNat 32 (w.getD i 0))) s
  (s.wr Fld.RING_TRK_WR_NEXT ((e + 1) % 256)).bump Fld.RING_TRK_WR_TOTAL

/-- TRACK: the oldest admitted frame is a TRACK message (R410). -/
def execTrack (s : State) : Host.Outcome State Fault Refusal :=
  .next (s.unfrozen (fun s =>
    match s.takeFrame (fun m => match m with | .track .. => true | _ => false) with
    | none => s
    | some (a, s) =>
      match a.frame.msg with
      | .track ctx kind status reject seq pos time =>
        s.logTrack a.frame.src ctx kind status reject (s.timeValid a.frame) seq pos (s.fromRing time)
      | _ => s))

/-! ## Reject relays and votes (R411, R413) -/

def State.getRelay (s : State) (i : Nat) : List Pulse := Store.get (fun _ => []) s.ring.relays i
def State.setRelay (s : State) (i : Nat) (l : List Pulse) : State :=
  s.onRing (fun r => { r with relays := Store.put (fun _ => []) r.relays i l })

/-- Whether relay entry `i` matches a reject of a station's context (R411, R423). -/
def State.relayMatches (s : State) (i src ctx : Nat) : Bool :=
  s.on (Fld.RING_RRLY_A_EN i) && decide (s.rd (Fld.RING_RRLY_A_POS_SRC i) ≤ 23) && decide (s.rd (Fld.RING_RRLY_A_SRC i) = src) &&
  (s.on (Fld.RING_RRLY_A_ANYCTX i) || decide (s.rd (Fld.RING_RRLY_A_CTX i) = ctx))

/-- A relay entry's pulse for a reject at local time `t`, or with no valid time (R411). -/
def State.relayPulse (s : State) (i : Nat) (t : Option Nat) : State :=
  let src := s.rd (Fld.RING_RRLY_A_POS_SRC i)
  let dir := s.on (Fld.RING_RRLY_A_DIR i)
  let ref := match t with
    | none => 0
    | some t => s.fwdOf src dir t
  let p : Pulse := ⟨src, dir, pos48 (ref + s.rd (Fld.RING_RRLY_DELAY_DELAY i)), s.rd (Fld.RING_RRLY_A_REJ_OUT i),
    max 1 (s.rd (Fld.RING_RRLY_WIDTH_WIDTH i))⟩
  if t.isNone || decide (travel (s.fwdOf src dir s.dibNow) p.pos ≤ 0) || decide (64 ≤ (s.getRelay i).length) then
    (s.drivePulse p).bumpSat Fld.RING_CNT_RLATE_COUNT
  else s.setRelay i (s.getRelay i ++ [p])

/-- Whether a vote entry collects now: EN set and a context that is one (R413, R423). -/
def State.voteInUse (s : State) (v : Nat) : Bool :=
  s.on (Fld.RING_VOTE_A_EN v) && decide (1 ≤ s.rd (Fld.RING_VOTE_A_CTX v)) && decide (s.rd (Fld.RING_VOTE_A_CTX v) ≤ 254)

/-- A vote is kept, in place of an earlier one of its station on its SEQ, and of the oldest when the store is full (R413). -/
def State.keepVote (s : State) (v : Vote) : State :=
  let l := s.ring.votes.filter (fun x => !(x.station == v.station && x.seq == v.seq))
  if 1024 ≤ l.length then
    (s.onRing (fun r => { r with votes := l.tail ++ [v] })).bumpSat Fld.RING_CNT_VOVF_COUNT
  else s.onRing (fun r => { r with votes := l ++ [v] })

/-- REJECT: the oldest admitted frame is a REJECT message (R405, R411, R413). -/
def execReject (s : State) : Host.Outcome State Fault Refusal :=
  .next (s.unfrozen (fun s =>
    match s.takeFrame (fun m => match m with | .reject .. => true | _ => false) with
    | none => s
    | some (a, s) =>
      match a.frame.msg with
      | .reject ctx vote _ seq _ time =>
        let src := a.frame.src
        let t := if s.timeValid a.frame then some (s.fromRing time) else none
        let s := if vote = 1 then
            (List.range 16).foldl (fun s i => if s.relayMatches i src ctx then s.relayPulse i t else s) s
          else s
        if s.ringVersion = 3 ∧ (List.range 16).any (fun v => s.voteInUse v && (s.voters v).contains src) then
          let s := s.keepVote ⟨src, seq, decide (vote = 1), s.tb.toNat⟩
          s.liveCtxs.foldl (fun s c => s.settleProds c) s
        else s
      | _ => s))

/-- VOTE_DEADLINE: DEADLINE µs have passed since the edge of a product of context `n` (R413). -/
def execVoteDeadline (n : Fin 255) (s : State) : Host.Outcome State Fault Refusal := .next (s.unfrozen (fun s => s.settleProds n))

/-- VOTE_EXPIRY: the oldest vote has been kept for 10 s (R413). -/
def execVoteExpiry (s : State) : Host.Outcome State Fault Refusal :=
  .next (s.unfrozen (fun s =>
    if (s.ring.votes.head?).any (fun v => s.past v.at_ 40000000000) then s.onRing (fun r => { r with votes := r.votes.tail }) else s))

end Sys2Proof.Machine
end

