-- ==== Sys2Proof/Machine/RegRead.lean ====
section
/-! DEFINITION. What a master reads at an address: the registers that show the state of a unit, the snapshots of wide values, the MP
memory window and the dot store (R15 to R22, R27, R33, R40 to R43). -/

namespace Sys2Proof.Machine

/-! ## Fields that show a unit's state -/

/-- The number of an address in a family of registers, if it is one of its first `n`. -/
def idxOf (f : Nat → Nat) (n a : Nat) : Option Nat :=
  let i := (a - f 0) / (f 1 - f 0)
  if f 0 ≤ a ∧ i < n ∧ f i = a then some i else none

/-- A word with a field shown as `v`. -/
def shown (w : Word) (f : Fld) (v : Nat) : Word := withBits w f.hi f.lo v
def shownBit (w : Word) (f : Fld) (b : Bool) : Word := shown w f (if b then 1 else 0)

/-- Host interface: R46, R64, R65. -/
def State.viewHost (s : State) (m : Master) (a : Nat) (w : Word) : Word :=
  if a = Reg.HOST_ID then shown (resetWord a) Fld.HOST_ID_DEVICE s.units.deviceId
  else if a = Reg.HOST_STAT then
    shownBit (shown (shown w Fld.HOST_STAT_SPEED s.host.speed) Fld.HOST_STAT_WIDTH s.host.width) Fld.HOST_STAT_MP_RUN s.mp.running
  else if a = Reg.HOST_WHOAMI then lowWord (masterCode m)
  else w

/-- Contexts: R96, R97. -/
def State.viewCtx (s : State) (c a : Nat) (w : Word) : Word :=
  if a = Reg.CTX_ID c then shown (resetWord a) (Fld.CTX_ID_PRESENT c) 1
  else if a = Reg.CTX_STATE c then
    shown (shown w (Fld.CTX_STATE_QDEPTH c) (s.getCtx c).queue.length) (Fld.CTX_STATE_INFLIGHT c) (s.getCtx c).inflight.length
  else w

/-- Whether tracker `n` is active (R148). -/
def State.trackerActive (s : State) (n : Nat) : Bool :=
  if n < 16 then s.on (Fld.ENC_CFG_EN n) else s.on (Fld.RING_VRX_EN (n - 16)) && !s.vencLost (n - 16)

/-- Dibber: R169, R174. -/
def State.viewDib (s : State) (a : Nat) (w : Word) : Word :=
  if a = Reg.DIB_TB_LO then lowWord s.dibNow
  else if a = Reg.DIB_TB_HI then highWord s.dibNow
  else match idxOf Reg.TRK_STAT 24 a with
    | some n => shownBit w (Fld.TRK_STAT_ACTIVE n) (s.trackerActive n)
    | none => w

/-- The present banks as a number (R209). -/
def State.bankMap (s : State) : Nat := ((List.range 64).map (fun b => if s.bankPresent b then 2 ^ b else 0)).sum

/-- Espalier: R208 to R210. -/
def State.viewEsp (s : State) (a : Nat) (w : Word) : Word :=
  if a = Reg.ESP_CQ then shown w Fld.ESP_CQ_LEVEL s.esp.queue.length
  else if a = Reg.MOR_BANKS_LO then lowWord s.bankMap
  else if a = Reg.MOR_BANKS_HI then highWord s.bankMap
  else match idxOf Reg.ESP_FIFO 16 a, idxOf Reg.ESP_PA_USED 255 a, idxOf Reg.ESP_PA_STAT 255 a with
    | some p, _, _ => shown w (Fld.ESP_FIFO_LEVEL p) (s.fifoLevel p)
    | _, some c, _ => shown w (Fld.ESP_PA_USED_UNITS c) (usedUnits (s.getCtx c) (s.patchSize c))
    | _, _, some c =>
      let jobs := (s.getCtx c).jobs
      let w := shown w (Fld.ESP_PA_STAT_BLOCKS c) (s.getCtx c).blocks.length
      let w := shown w (Fld.ESP_PA_STAT_WAITING c) ((s.getCtx c).queue.filter Job.waits).length
      shown w (Fld.ESP_PA_STAT_FETCHING c) (jobs.filter (fun j => j.fetching 0 || j.fetching 1)).length
    | _, _, _ => w

/-- Shears: the pass of the context's oldest product in flight. Once every row group has committed the last line of a pass, the current
pass is the next, not armed until R215 arms it; pass 0 counts as armed (R215, R238; DEDUCED, log entry 111). -/
def State.viewShr (s : State) (a : Nat) (w : Word) : Word :=
  match idxOf Reg.SHR_CTX_PSTAT 255 a with
  | none => w
  | some c =>
    match (s.getCtx c).inflight with
    | [] => w
    | x :: _ =>
      shownBit (shown w (Fld.SHR_CTX_PSTAT_PASS c) (if x.armed then x.pass else x.pass + 1)) (Fld.SHR_CTX_PSTAT_ARMED c) x.armed

/-- Graft: the nozzles of a port that the status map gives DEAD and RETIRED (R240). -/
def State.viewGrf (s : State) (a : Nat) (w : Word) : Word :=
  match idxOf Reg.GRF_DEAD 16 a with
  | none =>
    match idxOf Reg.GRF_MAP 4096 a with
    | some i => if s.portPresent (i / 256) then w else 0
    | none => w
  | some p =>
    let st := (List.range 4096).map (s.nozStatus p)
    shown (shown w (Fld.GRF_DEAD_DEAD p) (st.count 2)) (Fld.GRF_DEAD_RETIRED p) (st.count 3)

/-- Head ports and Rose: R242, R285, R288, R318. -/
def State.viewPort (s : State) (p off a : Nat) (w : Word) : Word :=
  if a = Reg.PORT_ID p then shown (resetWord a) (Fld.PORT_ID_PRESENT p) 1
  else if a = Reg.PORT_STAT p then
    let w := shown (shown w (Fld.PORT_STAT_ERR p) (if s.on (Fld.PORT_CFG_EN p) then s.portErr p else 0)) (Fld.PORT_STAT_STATE p) (s.portState p)
    shownBit (shownBit (shownBit w (Fld.PORT_STAT_MIRROR_CAL p) (s.getMirror p).cal) (Fld.PORT_STAT_GATED p) (s.gated p))
      (Fld.PORT_STAT_READY p) (s.portReady p)
  else if a = Reg.ROSE_PMIN p then shown w (Fld.ROSE_PMIN_PMIN p) (if s.portReady p then s.portMin p else 0)
  else if a = Reg.ROSE_STAT p then
    shownBit w (Fld.ROSE_STAT_PEND p)
      (s.portReady p && decide (((s.getPort p).force.map (fun f => f.words)) ≠ some (s.roseWritten p)))
  else if nvOffset off && decide (s.portMode p ≠ 2) then 0
  else match idxOf (Reg.ROSE_WAVE_LEN p) 8 a with
    | some k => shownBit w (Fld.ROSE_WAVE_LEN_VALID p k) (s.slotValid p k)
    | none => w

/-- Crevasse: R330, R339. -/
def State.viewCrv (s : State) (a : Nat) (w : Word) : Word :=
  match idxOf Reg.CRV_P_STAT 16 a, idxOf Reg.CRV_P_GREQ 16 a with
  | some p, _ => shown w (Fld.CRV_P_STAT_STATE p) (s.crvState p)
  | _, some p => if s.crvState p = 0 then w else 0
  | _, _ => w

/-- The state of a DMA channel: 0 IDLE, 1 ACTIVE, 2 IN_CHAIN, 3 STOPPING, 4 STOPPED, 5 HALTED (R384). -/
def State.chanState (s : State) (c : Nat) : Nat :=
  let x := s.getChan32 c
  if s.barState = 2 then 5
  else if s.chanStopped c then (if x.runs.isEmpty then 4 else 3)
  else if x.chain.isSome then 2
  else if x.runs.isEmpty then 0 else 1

/-- Barrow: R383, R384. -/
def State.viewBar (s : State) (a : Nat) (w : Word) : Word :=
  if a = Reg.BAR_OUT then shown (shown w Fld.BAR_OUT_READS s.bar.reads.length) Fld.BAR_OUT_WRITES s.bar.writes.length
  else match idxOf Reg.BAR_CH_STAT 32 a with
    | some c => shown w (Fld.BAR_CH_STAT_STATE c) (s.chanState c)
    | none => w

/-- The ring: R405, R417, R422. -/
def State.viewRing (s : State) (a : Nat) (w : Word) : Word :=
  if a = Reg.RING_STAT then shownBit w Fld.RING_STAT_KEEP s.keep
  else if a = Reg.RING_RTIME_LO then lowWord (s.toRing s.tb.toNat)
  else if a = Reg.RING_RTIME_HI then highWord (s.toRing s.tb.toNat)
  else w

/-- Housekeeping: FITTED of the thermistor of an absent port reads 0 (R478). -/
def State.viewHk (s : State) (a : Nat) (w : Word) : Word :=
  match idxOf Reg.HK_CH_CFG 96 a with
  | some c => shownBit w (Fld.HK_CH_CFG_FITTED c) (s.fitted c)
  | none => w

/-- Rake: R482, R493, R503. -/
def State.viewRake (s : State) (a : Nat) (w : Word) : Word :=
  match idxOf Reg.RAKE_SRC_CFG 1024 a, idxOf Reg.RAKE_SCOPE 1024 a with
  | some n, _ => shownBit w (Fld.RAKE_SRC_CFG_PRESENT n) (s.sourcePresent n)
  | _, some sc =>
    if scopeNumbers.contains sc then
      shown (shownBit w (Fld.RAKE_SCOPE_HELD sc) (s.scopeHeld sc)) (Fld.RAKE_SCOPE_WINCNT sc) (s.recoveries sc).length
    else 0
  | _, _ => w

/-- Permafrost: the window, and the words in force; regions 3 and 5 read 0 (R507, R519, R529). -/
def State.viewPf (s : State) (a : Nat) (w : Word) : Word :=
  if a = Reg.PF_STAT then shownBit w Fld.PF_STAT_WIN_OK s.otpWindow
  else match idxOf Reg.PF_WORD 2048 a with
    | none => w
    | some i =>
      if otpRegion (i / 2) = some 3 ∨ otpRegion (i / 2) = some 5 then 0
      else if i % 2 = 0 then lowWord (s.inForce (i / 2)) else highWord (s.inForce (i / 2))

/-- Whether the loader has filled the service registers since the controller start: the MP has booted, or serves in rescue. -/
def State.serviceLive (s : State) : Bool := decide (4 ≤ s.rd Fld.PCR_STAT_START)

/-- The service block: R531, R541, R544, R548, R559. -/
def State.viewSvc (s : State) (a : Nat) (w : Word) : Word :=
  let act := s.activeSlot
  let rec_ := s.bootRecord.map (fun x => x.2)
  if a = Reg.SVC_STAT then
    let w := shownBit w Fld.SVC_STAT_RESCUE s.mp.rescue
    shown (shown w Fld.SVC_STAT_SOURCE ((s.svc.session.map (fun x => x.src)).getD 0)) Fld.SVC_STAT_PHASE
      ((s.svc.session.map (fun x => x.phase)).getD 0)
  else if a = Reg.SVC_SESSION then lowWord ((s.svc.session.map (fun x => x.num)).getD 0)
  else if !s.serviceLive then w
  else if a = Reg.SVC_BOOT then
    let w := shown (shown w Fld.SVC_BOOT_FMT s.settingsFmt) Fld.SVC_BOOT_ACTIVE act
    let w := shownBit w Fld.SVC_BOOT_INACT_VALID (s.imageValid (1 - act))
    shownBit (shown w Fld.SVC_BOOT_TRIALS ((rec_.map (fun r => r.trials)).getD 0)) Fld.SVC_BOOT_TRIAL
      (decide ((rec_.map (fun r => r.state)) = some 2))
  else if a = Reg.SVC_VER_ACT then lowWord (s.slotVersion act)
  else if a = Reg.SVC_VER_INACT then lowWord (s.slotVersion (1 - act))
  else if a = Reg.SVC_ARB then
    let w := shown w Fld.SVC_ARB_COUNTER s.arbCounter
    shownBit (shown w Fld.SVC_ARB_TARGET (if s.imageValid act then hdrArb (s.slotHeader act) else 0)) Fld.SVC_ARB_PENDING s.svc.arbDue
  else w

/-- PCR: R584. -/
def State.viewPcr (s : State) (a : Nat) (w : Word) : Word :=
  if a = Reg.PCR_STAT then shownBit w Fld.PCR_STAT_LONG s.longWarning
  else if a = Reg.PCR_MP_LOAD then shown w Fld.PCR_MP_LOAD_CR_DEPTH
    (min 255 (entriesFrom (s.ringSize 0) (s.cons 0) (s.prod 0) + (s.getRing 0).fetched.length))
  else if a = Reg.PCR_TB_LO then lowWord s.tb.toNat
  else if a = Reg.PCR_TB_HI then highWord s.tb.toNat
  else w

/-- The word that a register shows to a master. -/
def State.viewReg (s : State) (m : Master) (b : BlockName) (copy off a : Nat) : Word :=
  let w := s.getReg a
  match b with
  | .host => s.viewHost m a w
  | .ctx => s.viewCtx copy a w
  | .dib => s.viewDib a w
  | .esp => s.viewEsp a w
  | .shr => s.viewShr a w
  | .grf => s.viewGrf a w
  | .port => s.viewPort copy off a w
  | .crv => s.viewCrv a w
  | .cons => if a = Reg.CONS_STAT then shownBit w Fld.CONS_STAT_KEY_OK (s.regionValid 5) else w
  | .bar => s.viewBar a w
  | .ring => s.viewRing a w
  | .hk => s.viewHk a w
  | .rake => s.viewRake a w
  | .pf => s.viewPf a w
  | .svc => s.viewSvc a w
  | .pcr => s.viewPcr a w
  | .db => match idxOf Reg.DOORBELL 49 a with
    | some k => s.getReg (Reg.HOST_RPROD k)
    | none => w
  | .wram => w
  | .buf => w
  | .til => w
  | .hf => w

/-! ## Reads -/

/-- The upper words whose snapshot a read of the word at `a` takes (R19, R149). A descriptor of Espalier, Graft or Shears is no number: a
read of any word of it returns the word in force (R20, R185, R212). -/
def snapTargets (b : BlockName) (a : Nat) : List Nat :=
  match idxOf Reg.TRK_POS_LO 24 a, idxOf Reg.TRK_TREF_LO 24 a with
  | some n, _ => [Reg.TRK_POS_HI n, Reg.TRK_VEL n, Reg.TRK_ACC n, Reg.TRK_TREF_LO n, Reg.TRK_TREF_HI n]
  | _, some _ => []
  | _, _ =>
    match rowOf a with
    | none => []
    | some r => if r.wlen = 2 ∧ r.wide = 0 ∧ b ≠ .shr then [a + 4] else []

/-- A master's snapshot of an address. -/
def State.snap (s : State) (m : Master) (a : Nat) : Option Word := Store.get (fun _ => none) s.snaps (masterKey m a)

/-- A read of a low word takes the snapshots of its upper words (R19). -/
def State.takeSnaps (s : State) (m : Master) (b : BlockName) (copy : Nat) (base a : Nat) : State :=
  (snapTargets b a).foldl (fun t x => { t with
    snaps := Store.put (fun _ => none) t.snaps (masterKey m x) (some (s.viewReg m b copy (x - base) x)) }) s


/-- A read that clears FRESH of NV_TELi (R267). -/
def State.readClears (s : State) (b : BlockName) (copy a : Nat) : State :=
  match b with
  | .port => match idxOf (Reg.NV_TEL copy) 8 a with
    | some i => s.wr (Fld.NV_TEL_FRESH copy i) 0
    | none => s
  | _ => s

/-- The MP keeps PCR_MP_LOAD current while it runs: its load, in percent, is a free value, and PEAK the highest since written (R582, R584;
DESIGN CHOICE, log entry 1). -/
def State.measureLoad (s : State) : State :=
  if s.mp.running then
    let n := s.draw.1.toNat % 101
    (s.draw.2.wr Fld.PCR_MP_LOAD_LOAD n).wr Fld.PCR_MP_LOAD_PEAK (max n (s.rd Fld.PCR_MP_LOAD_PEAK))
  else s

/-- A master's read of the register word at an aligned address in a block that accepts it. A word of Barrow's buffer through which data
has passed since a master wrote it is a free value (R42). A master that has read the low word of a wide RW number reads its upper word as
it was then, though R20 gives the word in force: R19 is followed (DESIGN CHOICE, log entry 97). -/
def State.readOpen (s : State) (m : Master) (b : BlockName) (copy off a : Nat) : Word × State :=
  if b = .buf ∧ s.bar.used ∧ !s.bar.fresh.contains a then s.drawWord
  else match s.snap m a with
    | some w => (w, s)
    | none =>
      let s := if a = Reg.PCR_MP_LOAD then s.measureLoad else s
      (s.viewReg m b copy off a, (s.takeSnaps m b copy (a - off) a).readClears b copy a)

/-- The 512 KiB window on the MP memory (R41). -/
def inWindow (a : Nat) : Bool := decide (0x04A80000 ≤ a) && decide (a < 0x04B00000)
def State.windowAddr (s : State) (a : Nat) : Nat := s.rd Fld.SVC_MPWIN_PAGE * 0x80000 + (a - 0x04A80000)

/-- A byte of the MP memory: what the boot loaded or a master wrote, else a free value (DESIGN CHOICE, log entry 1). -/
def State.mpByte (s : State) (a : Nat) : Nat × State :=
  match Store.get (fun _ => none) s.mp.mem a with
  | some b => (b.toNat, s)
  | none => (s.draw.1.toNat % 256, s.draw.2)

/-- One more byte of a word of the MP memory, the `i`-th from its low end. -/
def State.mpNext (a : Nat) (x : Nat × State) (i : Nat) : Nat × State :=
  let y := x.2.mpByte (a + i)
  (x.1 + y.1 * 256 ^ i, y.2)

/-- Four bytes of the MP memory as a word. -/
def State.mpWord (s : State) (a : Nat) : Word × State :=
  let x := [0, 1, 2, 3].foldl (State.mpNext a) (0, s)
  (lowWord x.1, x.2)

/-- Whether the MP memory window answers: its reads return 0 during an MP restart (R37). -/
def State.windowOpen (s : State) : Bool := s.mp.running || s.mp.rescue

/-- An access that reads what `readReg` reads, without the checks of injections. -/
def State.readChecked (s : State) (m : Master) (a : Nat) : Word × State :=
  if inWindow a then
    if !s.domOn .mgmt then (0, s.reportBy 0x201 (lowWord a) m)
    else if s.windowOpen then s.mpWord (s.windowAddr a) else (0, s)
  else match s.reach a with
    | .open b c off => s.readOpen m b c off a
    | .absent _ _ off => (if off = 0 then resetWord a else 0, s)
    | .held => (resetWord a, s)
    | .off => (0, s.reportBy 0x201 (lowWord a) m)
    | .unmapped => (0, s.reportBy 0x200 (lowWord a) m)

/-- A master's read of one aligned word of the register space, and of the MP memory window (R4, R15, R22, R27, R41). A read that an
injected error of the crossbar falls on returns 0 (R496). -/
def State.readReg (s : State) (m : Master) (a : Nat) : Word × State :=
  let drop := (s.injDue [0x200] || s.injDue [0x201]) && !s.on Fld.RAKE_INJ_CTL_RAIL && !(s.readChecked m a).2.reported s.rakeQ.length (s.rd Fld.RAKE_INJ_CTL_SRC)
  (if drop then 0 else (s.readChecked m a).1, s.busCheck m a (fun s => (s.readChecked m a).2))

/-- Aligned words of the register space read one after another (R33). -/
def State.readRegs (s : State) (m : Master) : List Nat → List (Nat × Word) × State
  | [] => ([], s)
  | a :: t =>
    let x := s.readReg m a
    let y := State.readRegs x.2 m t
    ((a, x.1) :: y.1, y.2)

/-- A list in pieces of four, with the offset of each. -/
def fours : Nat → Nat → List Byte → List (Nat × Word)
  | 0, _, _ => []
  | n + 1, a, l => if l.isEmpty then [] else (a, bytesWord (l.take 4)) :: fours n (a + 4) (l.drop 4)

/-- A master's read of `len` bytes at a device address: of the dot store byte by byte, up to 512 of them (R34); of the register space
by whole aligned words (R15, R33). -/
def State.readMem (s : State) (m : Master) (a len : Nat) : List (Nat × Word) × State :=
  if a < 0x4000000 then
    let n := min (min len 512) (0x4000000 - a)
    let x := s.readDots a n (some m)
    (fours 128 a x.1, x.2)
  else s.readRegs m ((List.range ((a + max len 1 - 1) / 4 - a / 4 + 1)).map (fun i => (a / 4 + i) * 4))

/-- REGISTER_READ: a master reads `len` bytes, and the answers go outward in ascending order of address. -/
def execRegisterRead (m : Master) (a : BusAddr) (len : Nat) (s : State) : Host.Outcome State Fault Refusal :=
  .next (s.unfrozen (fun s =>
    let x := s.readMem m (deviceAddr a) len
    x.1.foldl (fun s r => s.emit (.read m r.1 r.2)) x.2))

/-! ## What a command reads for its operands -/

/-- Bytes that a master reads at a device address, 512 at a time. -/
def State.readBytes (m : Master) : Nat → Nat → Nat → State → List Byte × State
  | 0, _, _, s => ([], s)
  | k + 1, a, n, s =>
    if n = 0 then ([], s)
    else
      let x := s.readMem m a (min n 512)
      let y := State.readBytes m k (a + 512) (n - 512) x.2
      ((x.1.flatMap (fun r => wordBytes r.2)).take (min n 512) ++ y.1, y.2)

/-- What the MP has read of the source of a command: the bytes so far, and whether they are all, the read failed, or more is to come
(R71). -/
inductive FedState where
  | whole | failed | more
  deriving DecidableEq, Repr

structure Fed where
  bytes : List Nat
  state : FedState
  deriving DecidableEq, Repr

/-- The `n` bytes at a command's SRC (R313 to R315, R450, R522): at a device address, read in one step; or of host memory, of which
`pre` has arrived before. -/
def State.feed (s : State) (dev : Bool) (a n : Nat) (pre : List Nat) (src : HostRead) : Fed × State :=
  if dev then
    let x := State.readBytes .mp (n / 512 + 1) a n s
    (⟨x.1.map (fun b => b.toNat), .whole⟩, x.2)
  else if !s.hostBus then (⟨pre, .failed⟩, s)
  else
    let got := (pre ++ src.bytes.map (fun b => b.toNat)).take n
    (⟨got, if src.failed then .failed else if got.length = n then .whole else .more⟩, s)

end Sys2Proof.Machine
end

