-- ==== Sys2Proof/Machine/Tunnel.lean ====
section
/-! DEFINITION. The service tunnel of the Tchitric ring (R416, R531, spec/12_tchitric_line_ring.md). -/

namespace Sys2Proof.Machine

/-- The tunnel session with a peer station under a number. -/
def State.findTunnel (s : State) (peer num : Nat) : Option TunnelSession :=
  s.ring.sessions.find? (fun x => decide (x.peer = peer) && decide (x.num = num))

def State.setTunnel (s : State) (x : TunnelSession) : State :=
  s.onRing (fun r => { r with sessions := r.sessions.map (fun y => if y.peer = x.peer ∧ y.num = x.num then x else y) })

def State.dropTunnel (s : State) (peer num : Nat) : State :=
  s.onRing (fun r => { r with sessions := r.sessions.filter (fun y => !(decide (y.peer = peer) && decide (y.num = num))) })

/-- A tunnel session closes: what waits in it is dropped, and the loader session that came by it ends (R416, R532). -/
def State.closeTunnel (s : State) (peer num : Nat) : State :=
  match s.findTunnel peer num with
  | none => s
  | some _ => (s.dropTunnel peer num).endTunnel peer num

/-- An ACK of a segment (R396, R416). -/
def State.ackSegment (s : State) (peer num sseq : Nat) : State := s.ringSend peer (.service num 1 0 sseq [])

/-- The segments that wait are sent while fewer than four are unacknowledged (R416). -/
def State.pumpTunnel : Nat → Nat → Nat → State → State
  | 0, _, _, s => s
  | k + 1, peer, num, s =>
    match s.findTunnel peer num with
    | none => s
    | some x =>
      match x.waiting with
      | [] => s
      | d :: t =>
        if 4 ≤ x.unacked.length then s
        else
          let s := s.setTunnel { x with
            waiting := t
            next := (x.next + 1) % 65536
            unacked := x.unacked ++ [⟨x.next, d, 0, s.tb.toNat⟩] }
          State.pumpTunnel k peer num (s.ringSend peer (.service num 0 x.next x.expect d))

/-- Bytes in segments of up to 1,024 (R416). -/
def segments : Nat → List Byte → List (List Byte)
  | 0, _ => []
  | k + 1, l => if l.isEmpty then [] else l.take 1024 :: segments k (l.drop 1024)

/-- Bytes for the peer of a tunnel session. -/
def State.sendTunnel (s : State) (peer num : Nat) (l : List Byte) : State :=
  match s.findTunnel peer num with
  | none => s
  | some x => State.pumpTunnel 8 peer num (s.setTunnel { x with waiting := x.waiting ++ segments 8 l })

/-- Whether the loader serves: the MP runs, or the ROM loader does (R37, R550). -/
def State.loaderRuns (s : State) : Bool := s.windowOpen

/-- The segments not yet acknowledged after an ACK of `ack`: it acknowledges that segment and those before it (DEDUCED, log entry 63). -/
def afterAck (ack : Nat) (l : List Segment) : List Segment :=
  if l.any (fun y => decide (y.sseq = ack)) then (l.dropWhile (fun y => decide (y.sseq ≠ ack))).tail else l

/-- A segment delivered from a station (R416). A station whose MP is restarting sends no ACK, so the segment comes again. -/
def State.onService (s : State) (peer num kind sseq ack : Nat) (data : List Byte) : State :=
  if s.ringVersion < 2 then s
  else
    match kind, s.findTunnel peer num with
    | 1, some x => State.pumpTunnel 8 peer num (s.setTunnel { x with unacked := afterAck ack x.unacked })
    | 1, none => s
    | 2, some _ => if s.loaderRuns then s.ackSegment peer num sseq else s
    | 2, none =>
      if s.loaderRuns then
        (s.onRing (fun r => { r with sessions := r.sessions ++ [⟨peer, num, 0, (sseq + 1) % 65536, [], [], []⟩] })).ackSegment peer num sseq
      else s
    | 3, _ => if s.loaderRuns then (s.closeTunnel peer num).ackSegment peer num sseq else s
    | 0, some x =>
      if !s.loaderRuns then s
      else if sseq = x.expect then
        (s.setTunnel { x with
          expect := (x.expect + 1) % 65536
          stream := x.stream ++ data.map (fun b => b.toNat) }).ackSegment peer num sseq
      else if (sseq + 1) % 65536 = x.expect then s.ackSegment peer num sseq
      else s
    | _, _ => s

/-- SERVICE: the oldest admitted frame is a segment of the service tunnel. -/
def execService (s : State) : Host.Outcome State Fault Refusal :=
  .next (s.unfrozen (fun s =>
    match s.takeFrame (fun m => match m with | .service .. => true | _ => false) with
    | none => s
    | some (a, s) =>
      match a.frame.msg with
      | .service num kind sseq ack data => s.onService a.frame.src num kind sseq ack (data.take 1024)
      | _ => s))

/-- SEGMENT_RETRANSMIT: 20 ms have passed without an ACK of the oldest segment of a session; after 8 repeats the session closes. -/
def execSegmentRetransmit (station : Fin 64) (session : Byte) (s : State) : Host.Outcome State Fault Refusal :=
  .next (s.unfrozen (fun s =>
    match s.findTunnel station session.toNat with
    | none => s
    | some x =>
      match x.unacked with
      | [] => s
      | y :: t =>
        if !s.past y.sent 80000000 then s
        else if 8 ≤ y.repeats then s.closeTunnel station session.toNat
        else
          (s.setTunnel { x with unacked := { y with repeats := y.repeats + 1, sent := s.tb.toNat } :: t }).ringSend station
            (.service session.toNat 0 y.sseq x.expect y.data)))

end Sys2Proof.Machine
end

