-- ==== Sys2Proof/Machine/Loader.lean ====
section
/-! DEFINITION. The firmware loader and the Buriober service protocol (R531 to R548, spec/17_firmware_update.md). -/

namespace Sys2Proof.Machine

/-! ## Frames (R533) -/

/-- A request as the loader takes it: its source identity, the tunnel session it came by, OP, SESSION, SEQ and payload. -/
structure Req where
  src     : Nat
  tunnel  : Nat
  op      : Nat
  session : Nat
  seq     : Nat
  body    : List Nat
  deriving DecidableEq, Repr

/-- Whether a payload has the length that an OP calls for; CHUNK judges its own (R534, R535). -/
def bodyFits (op n : Nat) : Bool :=
  if op = 2 then decide (n = 512) else if op = 3 then decide (n ≤ 4100) else decide (n = 0)

/-- What a byte stream begins with: part of a frame, a bad frame, or a frame with the rest of the stream. -/
inductive Parsed where
  | short
  | bad
  | frame (op session seq : Nat) (body rest : List Nat)
  deriving DecidableEq, Repr

/-- The first frame of a byte stream (R533). -/
def parseFrame (l : List Nat) : Parsed :=
  let len := leNat (sliceOf l 2 2)
  if l = [] then .short
  else if l.getD 0 0 ≠ 0xB7 then .bad
  else if l.length < 4 then .short
  else if l.getD 1 0 = 0 ∨ 8 < l.getD 1 0 ∨ !bodyFits (l.getD 1 0) len then .bad
  else if l.length < 16 + len then .short
  else if leNat (sliceOf l 12 4) ≠ crc32 (l.take 12 ++ sliceOf l 16 len) then .bad
  else .frame (l.getD 1 0) (leNat (sliceOf l 4 4)) (leNat (sliceOf l 8 4)) (sliceOf l 16 len) (l.drop (16 + len))

/-- A reply frame: OP + 0x80, and a payload that begins with STATUS and three zero bytes. -/
def replyFrame (op session seq status : Nat) (data : List Nat) : List Nat :=
  let body := [status, 0, 0, 0] ++ data
  let h := [0xB7, (op + 0x80) % 256] ++ leBytes 2 body.length ++ leBytes 4 session ++ leBytes 4 seq
  h ++ leBytes 4 (crc32 (h ++ body)) ++ body

/-- A reply goes back by the transport of its request. -/
def State.reply (s : State) (q : Req) (status : Nat) (data : List Nat) : State :=
  let f := replyFrame q.op q.session q.seq status data
  if q.src = 3 then s.emit (.usb f) else s.sendTunnel (q.src - 0x40) q.tunnel (f.map (fun b => BitVec.ofNat 8 b))

/-- A frame reaches the service port: it is configured, at one of its two speeds (R531; DESIGN CHOICE, log entry 64). -/
def State.usbSeen (s : State) : State :=
  if s.on Fld.SVC_STAT_USB_CFG then s
  else
    let x := s.draw
    (x.2.wr Fld.SVC_STAT_USB_CFG 1).wr Fld.SVC_STAT_HS (x.1.toNat % 2)

/-- The request of an OP that the loader takes now, with the state that has taken it; none while the loader is paused, or where the
stream holds no such frame. -/
def State.takeReq (s : State) (op : Nat) : LoaderReq → Option (Req × State)
  | .usb session seq body =>
    if s.loaderRuns && s.domOn .service then
      some (⟨3, 0, op, session.toNat, seq.toNat, body.map (fun b => b.toNat)⟩, s.usbSeen)
    else none
  | .tunnel st num =>
    match s.findTunnel st num.toNat with
    | none => none
    | some x =>
      match parseFrame x.stream with
      | .frame o session seq body rest =>
        if s.loaderRuns && decide (o = op) then
          some (⟨0x40 + st, num.toNat, op, session, seq, body⟩, s.setTunnel { x with stream := rest })
        else none
      | _ => none

/-- A request of an OP is answered; one whose payload does not fit its OP is a bad frame (R533, R534). -/
def State.serveLoader (s : State) (op : Nat) (q : LoaderReq) (f : State → Req → State) : State :=
  match s.takeReq op q with
  | none => s
  | some (r, s) => if bodyFits op r.body.length then f s r else s.reply r 0x05 []

/-- A request in the open session of its source; any other is answered NO_SESSION (R535). The session's 60 s count from it (R536). -/
def State.inSession (s : State) (r : Req) (f : State → Session → State) : State :=
  match s.svc.session with
  | none => s.reply r 0x02 []
  | some x =>
    if x.src = r.src ∧ x.num = r.session then
      let x := { x with last := s.tb.toNat }
      f (s.onSvc (fun v => { v with session := some x })) x
    else s.reply r 0x02 []

def State.setSession (s : State) (x : Session) : State := s.onSvc (fun v => { v with session := some x })

/-! ## Sessions (R536, R537) -/

/-- SESSION_OPEN. -/
def execSessionOpen (q : LoaderReq) (s : State) : Host.Outcome State Fault Refusal :=
  .next (s.unfrozen (fun s => s.serveLoader 1 q (fun s r =>
    let held := s.svc.session.any (fun x => decide (x.src ≠ r.src))
    if held || !s.mpMay 2 then s.reply r 0x01 []
    else if r.session = 0 then s.reply r 0x02 []
    else
      let s := (s.endSession).openSession ⟨r.src, r.tunnel, r.session, s.tb.toNat, 1, [], 0, none, []⟩
      (s.updateEvent 1 0 r.src 0 0).reply r 0x00 [])))

/-- The 32 bytes of a STATUS reply (R537). -/
def State.statusData (s : State) : List Nat :=
  let act := s.activeSlot
  let x := s.svc.session
  let phase := (x.map (fun y => y.phase)).getD 0
  let trial := decide ((s.bootRecord.map (fun y => y.2.state)) = some 2)
  [phase, if s.mp.rescue then 1 else 0, (x.map (fun y => y.src)).getD 0, act + (if trial then 128 else 0),
   (s.bootRecord.map (fun y => y.2.trials)).getD 0, s.arbCounter, 0, 0] ++
  leBytes 4 (s.slotVersion act) ++ leBytes 4 (s.slotVersion (1 - act)) ++ leBytes 4 ((x.map (fun y => y.next)).getD 0) ++
  leBytes 4 (if phase = 2 then hdrPayload ((x.map (fun y => y.header)).getD []) else 0) ++ leBytes 2 s.settingsFmt ++ List.replicate 6 0

/-- STATUS: in the session of its source, or outside one with SESSION 0. -/
def execStatus (q : LoaderReq) (s : State) : Host.Outcome State Fault Refusal :=
  .next (s.unfrozen (fun s => s.serveLoader 8 q (fun s r =>
    if r.session = 0 then s.reply r 0x00 s.statusData else s.inSession r (fun s _ => s.reply r 0x00 s.statusData))))

/-- ABORT. -/
def execAbort (q : LoaderReq) (s : State) : Host.Outcome State Fault Refusal :=
  .next (s.unfrozen (fun s => s.serveLoader 7 q (fun s r => s.inSession r (fun s _ => s.endSession.reply r 0x00 []))))

/-- SESSION_TIMEOUT: 60 s have passed without a request in the session. -/
def execSessionTimeout (s : State) : Host.Outcome State Fault Refusal :=
  .next (s.unfrozen (fun s =>
    if s.loaderRuns && s.svc.session.any (fun x => decide (x.last + 240000000000 ≤ s.tb.toNat)) then s.endSession else s))

/-- A USB bus reset or detach ends a service-port session and frees the service port's tokens (R49, R532). -/
def State.usbDetach (s : State) : State :=
  let s := (s.wr Fld.SVC_STAT_USB_CFG 0).wr Fld.SVC_STAT_HS 0
  let s := if s.svc.session.any (fun x => decide (x.src = 3)) then s.endSession else s
  s.freeTokensOf .service

/-- USB_BUS_RESET. -/
def execUsbBusReset (s : State) : Host.Outcome State Fault Refusal := .next (s.unfrozen (fun s => if s.domOn .service then s.usbDetach else s))

/-- Bytes of a bad frame that are missing, as free values (DESIGN CHOICE, log entry 1). -/
def State.fillBytes (s : State) (l : List Nat) (n : Nat) : List Nat × State :=
  let x := s.drawBytes (n - l.length)
  (l ++ x.1, x.2)

/-- A bad frame is answered BAD_FRAME, with OP, SESSION and SEQ as its bytes give them. -/
def State.answerBad (s : State) (src num : Nat) (l : List Nat) : State :=
  let x := s.fillBytes (l.take 16) 16
  x.2.reply ⟨src, num, x.1.getD 1 0, leNat (sliceOf x.1 4 4), leNat (sliceOf x.1 8 4), []⟩ 0x05 []

/-- BAD_FRAME: a frame that is not well formed is answered, and closes a tunnel session (R533). -/
def execBadFrame (q : LoaderJunk) (s : State) : Host.Outcome State Fault Refusal :=
  .next (s.unfrozen (fun s =>
    match q with
    | .usb bytes =>
      let l := bytes.map (fun b => b.toNat)
      let good := match parseFrame l with
        | .frame _ _ _ _ rest => rest.isEmpty
        | _ => false
      if s.loaderRuns && s.domOn .service && !good then s.usbSeen.answerBad 3 0 l else s
    | .tunnel st num =>
      match s.findTunnel st num.toNat with
      | none => s
      | some x =>
        if s.loaderRuns && decide (parseFrame x.stream = .bad) then
          (s.answerBad (0x40 + st) num.toNat x.stream).closeTunnel st num.toNat
        else s))

/-! ## Loading and verification (R541 to R543) -/

/-- HEADER: checked, and accepted with the header block of the inactive slot erased; `ok` tells whether the erase reads back. -/
def execHeader (q : LoaderReq) (ok : Bool) (s : State) : Host.Outcome State Fault Refusal :=
  .next (s.unfrozen (State.programs (fun ok s => s.serveLoader 2 q (fun s r => s.inSession r (fun s x =>
    if x.phase ≠ 1 then s.reply r 0x03 []
    else if !s.norWindow then s.reply r 0x06 []
    else match s.headerRefusal r.body with
      | some c => (s.updateEvent 2 c r.src (hdrVersion r.body) s.otherSlot).reply r c []
      | none =>
        let slot := s.otherSlot
        if ok then
          ((s.eraseHeader slot).setSession { x with phase := 2, header := r.body, next := 0, lastIx := none, erased := [] }).reply
            r 0x00 []
        else (s.norFail (slotBase slot) 512).reply r 0x07 []))) ok))

/-- A chunk is written to the slot, its block erased first where this session has not (R542). -/
def State.putChunk (s : State) (x : Session) (i : Nat) (data : List Nat) : State × Session :=
  let slot := s.otherSlot
  let b := i / 16
  let fresh := !x.erased.contains b
  let s := if fresh then s.norErase (slotPayload slot + b * 0x10000) 0x10000 else s
  (s.norProgram (slotPayload slot + i * 0x1000) data, if fresh then { x with erased := x.erased ++ [b] } else x)

/-- CHUNK: the next one is programmed, the last one accepted is answered again; `ok` tells whether the flash reads back. -/
def execChunk (q : LoaderReq) (ok : Bool) (s : State) : Host.Outcome State Fault Refusal :=
  .next (s.unfrozen (State.programs (fun ok s => s.serveLoader 3 q (fun s r => s.inSession r (fun s x =>
    let i := leNat (r.body.take 4)
    let ix := r.body.take 4
    if x.phase ≠ 2 then s.reply r 0x03 ix
    else if r.body.length ≠ 4100 then s.reply r 0x04 ix
    else if x.lastIx = some i then s.reply r 0x00 ix
    else if i ≠ x.next ∨ hdrPayload x.header / 4096 ≤ i then s.reply r 0x04 ix
    else if !s.norWindow then s.reply r 0x06 ix
    else
      let y := s.putChunk x i (r.body.drop 4)
      if ok then (y.1.setSession { y.2 with next := i + 1, lastIx := some i }).reply r 0x00 ix
      else ((y.1.norFail (slotPayload s.otherSlot + i * 0x1000) 4096).setSession y.2).reply r 0x07 ix))) ok))

/-- The slot is verified. -/
def State.verified (s : State) (r : Req) (x : Session) (h : List Nat) : State :=
  ((s.setSession { x with phase := 3, header := h }).updateEvent 3 0 r.src (hdrVersion h) s.otherSlot).reply r 0x00 []

/-- VERIFY: every tag of the inactive slot is checked; after a load the header is then programmed (R543). -/
def execVerify (q : LoaderReq) (ok : Bool) (s : State) : Host.Outcome State Fault Refusal :=
  .next (s.unfrozen (State.programs (fun ok s => s.serveLoader 4 q (fun s r => s.inSession r (fun s x =>
    let slot := s.otherSlot
    if x.phase = 1 then
      let h := s.slotHeader slot
      match s.headerRefusal h with
      | some c => s.reply r c []
      | none => if s.tagsPass slot h (fun _ => true) then s.verified r x h else s.reply r 0x20 []
    else if x.phase ≠ 2 ∨ x.next * 4096 ≠ hdrPayload x.header then s.reply r 0x03 []
    else if !s.tagsPass slot x.header (fun _ => true) then (s.setSession { x with phase := 1 }).reply r 0x20 []
    else if !s.norWindow then s.reply r 0x06 []
    else if ok then (s.norProgram (slotBase slot) x.header).verified r x x.header
    else (s.norFail (slotBase slot) 512).reply r 0x07 []))) ok))

/-! ## Confirmation and the anti-rollback counter (R548) -/

/-- The words of an advance from counter value `c` to `t`: the new bits of copy A, then of copy B (R508, R548). -/
def arbWords (c t : Nat) : List (Nat × Nat) :=
  let bits := 2 ^ t - 2 ^ c
  ([(0x061, bits % 2 ^ 64), (0x062, bits / 2 ^ 64), (0x063, bits % 2 ^ 64), (0x064, bits / 2 ^ 64)]).filter (fun x => decide (x.2 ≠ 0))

/-- The words of an advance are programmed, their bits reading as `outs` gives them. -/
def State.putArb (s : State) : List (Nat × Nat) → List Pulsed → State
  | [], _ => s
  | w :: t, outs =>
    let o := (outs.head?).getD ⟨BitVec.allOnes 64, BitVec.allOnes 64⟩
    State.putArb (s.verifyWord ⟨w.1, w.2, false, true, none⟩ o.strict.toNat o.lenient.toNat).2 t outs.tail

/-- The advance of the counter to the ARB of the active image; a try that leaves it short, as while the window is closed or token 1 is held,
waits for the next, and the first says so (R548). -/
def State.advanceArb (s : State) (outs : List Pulsed) : State :=
  let target := hdrArb (s.slotHeader s.activeSlot)
  let v := s.slotVersion s.activeSlot
  if target ≤ s.arbCounter then s.onSvc (fun x => { x with arbDue := false, arbTold := false })
  else
    let s := if s.otpWindow && s.mpMay 1 && s.otp.prog.isNone then s.putArb (arbWords s.arbCounter target) outs else s
    if target ≤ s.arbCounter then
      (s.onSvc (fun x => { x with arbDue := false, arbTold := false })).updateEvent 10 0 0 v s.activeSlot
    else
      let told := s.svc.arbTold
      let s := s.onSvc (fun x => { x with arbDue := true, arbTold := true, arbAt := some s.tb.toNat })
      if told then s else s.updateEvent 11 0 0 v s.activeSlot

/-- The image on trial is confirmed: its record is written, the old settings copy erased and the counter advanced. -/
def State.confirmImage (s : State) (rec_ : BootRec) (src : Nat) (outs : List Pulsed) : State :=
  let s := s.writeRecord { rec_ with state := 1, trials := 0, prev := 0xFF, prevCopy := 0xFF }
  let s := s.updateEvent 6 0 src (s.slotVersion s.activeSlot) s.activeSlot
  let s := if rec_.prevCopy ≠ rec_.copy ∧ rec_.prevCopy < 2 then s.norErase (pageAddr rec_.prevCopy 0 0) 0x500000 else s
  s.advanceArb outs

/-- CONFIRM. `ok` tells whether the record reads back; VQPS and VDD_CORE are as the comparators find them. -/
def execConfirm (q : LoaderReq) (ok vqps core : Bool) (outs : List Pulsed) (s : State) : Host.Outcome State Fault Refusal :=
  .next (s.unfrozen (State.programs (fun ok s => s.serveLoader 6 q (fun s r => s.inSession r (fun s x =>
    match s.bootRecord with
    | none => s.reply r (if x.phase ≠ 1 then 0x03 else 0x21) [s.arbCounter]
    | some (c, rec_) =>
      if x.phase ≠ 1 then s.reply r 0x03 [s.arbCounter]
      else if !s.norWindow then s.reply r 0x06 [s.arbCounter]
      else if rec_.state ≠ 2 then s.reply r 0x21 [s.arbCounter]
      else if !ok then (s.norFail (recordBlock (1 - c)) 32).reply r 0x07 [s.arbCounter]
      else
        let s := (s.senseSupplies vqps core).confirmImage rec_ r.src outs
        s.reply r 0x00 [s.arbCounter]))) ok))

/-- ARB_RETRY: 60 s have passed, or a start has come, with an advance that waits. -/
def execArbRetry (vqps core : Bool) (outs : List Pulsed) (s : State) : Host.Outcome State Fault Refusal :=
  .next (s.unfrozen (fun s =>
    if s.mp.running && s.svc.arbDue && s.svc.arbAt.all (fun t => s.past t 240000000000) then (s.senseSupplies vqps core).advanceArb outs else s))

/-! ## The settings commands (R553) -/

/-- The entry of a SETTINGS_WRITE, its source having come, as the flash answers. -/
def State.finishSetting (s : State) (c : MpCmd) (bytes : List Nat) (flash : FlashAnswer) : State :=
  match flash with
  | .busy => s.holdFlash c 2 bytes
  | .done => (s.putSetting (c.desc.fld 2 15 0) bytes true).endCommand c.desc Status.ok 1
  | .failed => (s.putSetting (c.desc.fld 2 15 0) bytes false).endCommand c.desc Status.descError 5

/-- SETTINGS_WRITE: an entry is written to the settings copy in force, at once or when the flash has done. -/
def execSettingsWrite (src : HostRead) (flash : FlashAnswer) (s : State) : Host.Outcome State Fault Refusal :=
  .next (s.unfrozen (State.flashing (fun flash s =>
    match s.loadCommand 0x60 with
    | none => s
    | some c =>
      let d := c.desc
      let key := d.fld 2 15 0
      if c.left = flashWorks then s.finishSetting c c.fed flash
      else if d.reservedSet (commandLayout [0x80FFFFFF, 0, 0xFFFFFFFF, 0xFFFFFFFF]) || decide (key = 0) || decide (key = 0xFFFF) ||
          decide (236 < d.fld 2 23 16) then s.endCommand d Status.descError 1
      else
        let x := s.feed (bitOf (dwAt d.dw 2) 31) (d.wide 4) (d.fld 2 23 16) c.fed src
        match x.1.state with
        | .failed => x.2.endCommand d Status.descError 5
        | .more => x.2.holdCommand c none x.1.bytes
        | .whole =>
          if !x.2.mpMay 2 then x.2.endCommand d Status.busy 0
          else if !x.2.norWindow then x.2.endCommand d Status.window 0
          else x.2.finishSetting c x.1.bytes flash) flash))

end Sys2Proof.Machine
end

