-- ==== Sys2Proof/Machine/Restart.lean ====
section
/-! DEFINITION. What a restart of the MP stops at once (R37, R38, R49, R83, R353, R532). -/

namespace Sys2Proof.Machine

/-- The commands that a restart interrupts stay to be completed RESTARTED; what waits for them no longer does. -/
def State.unwait (s : State) : State :=
  (List.range 8).foldl (fun s a => s.onAxis a (fun x => { x with
    wait := false
    held := x.held.map (fun h => { h with wait := false }) })) s

/-- The command in execution, with the count of the effect that stands. -/
def State.cmdDone (s : State) (n : Nat) : State :=
  { s with mp := { s.mp with cmd := s.mp.cmd.map (fun c => { c with done := n }) } }

/-- A reference capture under way ends: the references written stand (R83, R335). -/
def State.stopWalk (s : State) : State :=
  match s.walk with
  | none => s
  | some w => ({ s with walk := none }.wr Fld.CRV_STAT_REF_BUSY 0).cmdDone w.written

/-- A HOME in execution stops its axis and POS_VALID clears (R83). -/
def State.stopHome (s : State) : State :=
  match s.mp.cmd with
  | none => s
  | some c =>
    if c.desc.opcode = 0x32 then (s.stopAxis (c.desc.fld 2 2 0)).wr (Fld.AX_STAT_POS_VALID (c.desc.fld 2 2 0)) 0 else s

/-- An identity operation is abandoned. A record whose commit was under way may have been written or not: a free value says which for
its command (R83, R353; DESIGN CHOICE, log entry 1). -/
def State.stopBus (s : State) (p : Nat) : State :=
  match (s.getCons p).op with
  | none => s
  | some x =>
    let s := s.dropBus p
    if x.desc.isSome && x.record && decide (x.phase = 3) then
      let (f, s) := s.draw
      s.cmdDone (f.toNat % 2)
    else s

/-- The key of the retirements (R564). -/
def retireKey : Nat := 0xF010

/-- The retirements in force, as the entry holds them (DESIGN CHOICE, log entry 61). -/
def State.retiredBytes (s : State) : List Nat :=
  leBytes 2 (s.rd Fld.PCR_RET_PORT_RET) ++
  (List.range 8).flatMap (fun w => leBytes 4 (s.getReg (Reg.PCR_RET_CTX w)).toNat) ++
  leBytes 8 (s.rd64 Reg.PCR_RET_BANK_LO)

/-- The entry of the retirements is programmed, `ok` telling whether its page reads back. -/
def State.recordRetired (s : State) (ok : Bool) : State :=
  (s.putSetting retireKey s.retiredBytes ok).onSvc (fun x => { x with recorded := ok, recAt := s.tb.toNat })

/-- The flash was programming an entry for a command: a free value says whether it is complete or absent (R83, R551; DESIGN CHOICE, log
entry 1). -/
def State.stopFlash (s : State) : State :=
  match s.mp.cmd with
  | none => s
  | some c =>
    if c.left ≠ flashWorks ∨ c.desc.opcode ≠ 0x60 ∧ c.desc.opcode ≠ 0x71 then s
    else
      let (f, s) := s.draw
      if f.toNat % 2 = 0 then (if c.desc.opcode = 0x71 then s.onSvc (fun x => { x with recorded := false, recAt := s.tb.toNat }) else s)
      else (if c.desc.opcode = 0x60 then s.putSetting (c.desc.fld 2 15 0) c.fed true else s.recordRetired true).cmdDone 1

/-- MP_RESTART with its cause: 1 ACTIVATE, 2 watchdog, 3 software (R82). The session of the loader ends, the tokens of the MP are
freed, and a command in execution waits to be completed RESTARTED (R38, R49, R532). -/
def State.mpRestart (s : State) (cause : Nat) : State :=
  if !s.windowOpen then s
  else
    let s := ((s.freeTokensOf .mp).endSession.stopWalk.unwait).stopHome.stopFlash
    let s := (List.range 16).foldl (fun s p => s.stopBus p) s
    let s := { s with mp := { s.mp with running := false, rescue := false } }
    let s := s.onOtp (fun o => { o with prog := o.prog.map (fun w => { w with mp := false }) })
    s.event 0x05 0 [BitVec.ofNat 32 cause]

/-- MP_WATCHDOG: TMO ms have passed since the last FEED while EN is set: the MP restarts with MP_WDOG reported, whose syndrome,
the program counter of the MP, is a free value (R482, R581; DESIGN CHOICE, log entry 1). -/
def execMpWatchdog (s : State) : Host.Outcome State Fault Refusal :=
  .next (s.unfrozen (fun s =>
    let tmo := max 1 (min 1000 (s.rd Fld.PCR_WDOG_TMO))
    if s.on Fld.PCR_WDOG_EN && s.windowOpen && decide (s.pcr.fed + tmo * 4000000 ≤ s.tb.toNat) then
      let (f, t) := { s with pcr := { s.pcr with fed := s.tb.toNat } }.drawWord
      State.watch s ((t.report 0x208 f).mpRestart 2)
    else s))

/-- WATCHDOG_FEED: a write of PCR_WDOG with FEED set restarts the timeout (R581). -/
def State.writeWdog (s : State) (m : Master) (v : Word) : State :=
  let s := s.writeCode m Reg.PCR_WDOG v
  if bitOf v 30 then { s with pcr := { s.pcr with fed := s.tb.toNat } } else s

/-- WATCHDOG_FEED. -/
def execWatchdogFeed (m : Master) (v : Word) (s : State) : Host.Outcome State Fault Refusal :=
  .next (s.unfrozen (fun s => s.accessBy m Reg.PCR_WDOG (fun s => s.writeWdog m (v ||| 0x40000000))))

/-- TRIAL_TIMEOUT: TRIAL_TMO minutes have passed without a CONFIRM: the MP restarts itself with cause 3 (R547). -/
def execTrialTimeout (s : State) : Host.Outcome State Fault Refusal :=
  .next (s.unfrozen (fun s =>
    match s.bootRecord with
    | none => s
    | some (_, r) =>
      let tmo := s.rd Fld.SVC_UPD_CFG_TRIAL_TMO
      if s.mp.running && decide (r.state = 2) && decide (tmo ≠ 0) && decide (s.svc.trialAt + tmo * 240000000000 ≤ s.tb.toNat) then
        State.watch s (s.mpRestart 3)
      else s))

end Sys2Proof.Machine
end

