-- ==== Sys2Proof/Machine/Domains.lean ====
section
/-! DEFINITION. Power domains, their switching and resets, and retirement (R4, R7, R24, R179, R199, R282, R560 to R564, R637,
spec/18_power_clocks_reset.md). -/

namespace Sys2Proof.Machine

/-! ## What lies in a domain (R24, R560) -/

/-- The domains in the order of their codes (R560). -/
def domains : List Domain :=
  [.aon, .mgmt, .service, .host, .ring, .ds0, .ds1, .place, .hpg 0, .hpg 1, .hpg 2, .hpg 3, .motion, .hk]

/-- The domain of a code. -/
def domainOf (code : Nat) : Domain := domains.getD code .aon

/-- Whether a register lies in a domain. -/
def inDomain (d : Domain) (a : Nat) : Bool :=
  match dropPort a with
  | some p => decide (d = .hpg (portGroup p))
  | none =>
    match blockOf a with
    | none => false
    | some (b, c, _) => decide (blockDomain b.dom c = d)

/-- Every register of a domain at its reset value, its snapshots and staged words gone. -/
def State.resetRegs (s : State) (d : Domain) : State :=
  { s with
    regs := Store.drop (inDomain d) s.regs
    snaps := Store.drop (fun k => inDomain d (k % 2 ^ 28)) s.snaps
    staged := Store.drop (fun k => inDomain d (k % 2 ^ 28)) s.staged }

/-- The islands of a domain (R24, R482). -/
def domainIslands (d : Domain) : List Nat := (List.range 27).filter (fun i => decide (0 < i) && decide (islandDomain i = d))

/-- The PLLs of a domain show lock or not (R574). -/
def State.setLocked (s : State) (d : Domain) (b : Bool) : State :=
  (domainIslands d).foldl (fun s i => s.wrBit ⟨Reg.PCR_PLL_STAT, i, i⟩ b) s

/-- The head ports of a power group. -/
def groupPorts4 (g : Fin 4) : List Nat := (List.range 4).map (fun i => 4 * g.val + i)

/-- Whether a unit of a domain is present and not retired (R560, R564). -/
def State.domainUsed (s : State) (d : Domain) : Bool :=
  match d with
  | .hpg g => (groupPorts4 g).any s.portPresent
  | .ds1 => (List.range 32).any (fun b => s.bankPresent (32 + b))
  | .aon => true
  | .mgmt => true
  | .host => true
  | .ds0 => true
  | .place => true
  | .ring => true
  | .motion => true
  | .hk => true
  | .service => true

/-! ## The end of a supply warning (R565, R566, R570) -/

/-- A SUPPLY_WARN event (R570). -/
def State.supplyEvent (s : State) (k kind dur : Nat) : State :=
  s.event 0x0C k [BitVec.ofNat 32 kind, BitVec.ofNat 32 dur, BitVec.ofNat 32 (s.rd (Fld.PCR_SUP_CNT_WARN k))]

/-- The warning of supply `k` ends. -/
def State.endWarning (s : State) (k : Nat) : State :=
  match Store.get (fun _ => none) s.pcr.warnAt k with
  | none => s
  | some t =>
    let s := { s with pcr := { s.pcr with
      warnAt := Store.put (fun _ => none) s.pcr.warnAt k none
      long := s.pcr.long.filter (fun j => j ≠ k) } }
    let s := s.wr ⟨Reg.PCR_SUP_STAT, k, k⟩ 0
    let s := if s.warned then s else s.wr Fld.PCR_SUP_STAT_LONG 0
    s.supplyEvent k 3 (min 0xFFFFFFFF ((s.tb.toNat - t + 3999) / 4000))

/-! ## What is lost with a domain (R561) -/

/-- A reset of the HOST domain: rings, tokens and MSI-X table return to reset; the jobs print on without completions; Barrow holds nothing
fetched (R62, R380). `link` tells whether the PCIe link stays up. -/
def State.hostReset (s : State) (link : Bool) : State :=
  let s := s.liveCtxs.foldl (fun s c =>
    let x := s.getCtx c
    s.setCtx c { x with
      queue := x.queue.map (fun j => { j with orphan := true })
      prods := x.prods.map (fun p => { p with job := { p.job with orphan := true } }) }) s
  let s := { s with mp := { s.mp with cmd := s.mp.cmd.map (fun (c : MpCmd) =>
    if orphanMark ≤ c.desc.index then c else { c with desc := { c.desc with index := c.desc.index + orphanMark } }) } }
  let s := (s.resetRegs .host).resetBarrow
  { s with host := { HostSt.reset with
    perstLow := s.host.perstLow
    speed := if link then s.host.speed else 0
    width := if link then s.host.width else 0 } }

/-- The jobs of a context whose blocks `p` names have them changed by `f`; those of products by `g`, and their patches are checked
again (R192, R637). -/
def State.mapBlocks (s : State) (p : Nat → Job → Bool) (f g : Block → Option Block) : State :=
  s.liveCtxs.foldl (fun s c =>
    let x := s.getCtx c
    let on := fun (h : Block → Option Block) (j : Job) => if p c j then { j with block := j.block.bind h } else j
    s.setCtx c { x with
      queue := x.queue.map (on f)
      prods := x.prods.map (fun y => { y with job := on g y.job, patchSeen := if p c y.job then [] else y.patchSeen }) }) s

/-- The bytes of the dot store that `p` names lose what they held. -/
def State.dropBytes (s : State) (p : Nat → Bool) : State := { s with mem := Store.drop p s.mem }

/-- DS0 is lost: its products in flight are aborted, Espalier's state and every block are given up (R199, R637). -/
def State.loseDs0 (s : State) (power : Bool) : State :=
  let s := s.liveCtxs.foldl (fun s c => s.abortCtx c (fun _ => true) .underrun Status.abortedUnderrun) s
  let s := s.mapBlocks (fun _ _ => true) (fun _ => none) (fun _ => none)
  let s := s.liveCtxs.foldl (fun s c => s.setCtx c { s.getCtx c with alloc := 0 }) s
  let e := s.esp
  let ds0 := if power then 0 else s.rd Fld.ESP_STAT_DS0_INIT
  let ds1 := s.rd Fld.ESP_STAT_DS1_INIT
  let s := { ((s.resetRegs .ds0).wr Fld.ESP_STAT_DS0_INIT ds0).wr Fld.ESP_STAT_DS1_INIT ds1 with
    esp := { EspSt.reset with
      bad := if power then Store.drop (fun w => decide (bankOf w < 32)) e.bad else e.bad
      writeBack := e.writeBack.filter (fun w => decide (32 ≤ bankOf w)) } }
  if power then s.dropBytes (fun a => decide (bankOf a < 32)) else s

/-- DS1 is lost: blocks in its banks stay, their patches not resident; those of queued jobs are fetched again, at once after a reset and
else once it is initialised (R637). -/
def State.loseDs1 (s : State) (power : Bool) : State :=
  if power then
    let s := s.mapBlocks (s.blockIn true) (fun b => some { b with p0 := Fetch.reset, p1 := Fetch.reset })
      (fun b => some { b with p0 := Fetch.reset, p1 := Fetch.reset, dead := true })
    { s.dropBytes (fun a => decide (32 ≤ bankOf a)) with
      esp := { s.esp with
        bad := Store.drop (fun w => decide (32 ≤ bankOf w)) s.esp.bad
        writeBack := s.esp.writeBack.filter (fun w => decide (bankOf w < 32)) } }
  else
    let s := s.mapBlocks (s.blockIn true) some (fun b => some { b with p0 := Fetch.reset, p1 := Fetch.reset, dead := true })
    s.refetchBlocks (s.blockIn true) (fun _ _ => false)

/-- PLACE is lost: every context is UNBOUND, jobs and products end without completions or pulses, the ports leave READY with
every line dropped and every pulse cut (R281), and the outputs are released (R561). -/
def State.losePlace (s : State) : State :=
  let s := match s.walk with
    | none => s
    | some w => s.endWalk w Status.unitAbsent
  let s := s.liveCtxs.foldl (fun s c =>
    let x := s.getCtx c
    (x.queue ++ x.prods.map (fun p => p.job)).foldl (fun s j => if j.orphan then s else s.settle j.ring) s) s
  let s := { s with ctxs := [] }
  let s := (List.range 16).foldl (fun s p =>
    let s := s.dropAt p (fun _ => true)
    (if s.portReady p then s.makeSafe false p else s).onPort p (fun x => { x with sense := Sense.reset })) s
  let s := s.resetRegs .place
  { s with
    trackers := [], encoders := [], mirrors := Store.put (fun _ => Mirror.reset) s.mirrors 16 Mirror.reset
    portFire := [], rangeFire := [], throttle := [], rejActive := [], maskCheck := none
    ring := { s.ring with relays := [] }
    esp := { s.esp with queue := [], waiting := [] } }

/-- The ports of a power group are lost (R242, R280, R341). `old` is the state before the domain was isolated. -/
def State.loseGroup (old s : State) (g : Fin 4) : State :=
  let s := (State.watch old s).resetRegs (.hpg g)
  (groupPorts4 g).foldl (fun s p =>
    let s := s.setPort p { Port.reset with sense := s.getSense p }
    let s := { s with mirrors := Store.put (fun _ => Mirror.reset) s.mirrors p Mirror.reset }
    s.setCons p { s.getCons p with seen := [0, 0, 0] }) s

/-- RING is lost: the station leaves the ring, its tunnels close, and tokens of the tunnels are freed (R49, R416, R417, R532). -/
def State.loseRing (s : State) : State :=
  let s := match s.svc.session with
    | none => s
    | some x => if x.src = 3 then s else s.endSession
  let members := (List.range 64).filter (fun a => (s.getRsrc a).member)
  let s := { s.resetRegs .ring with ring := RingSt.reset }
  let s := s.wr Fld.RING_CFG_ADDR s.units.ringAddr
  let s := members.foldl (fun s a => s.freeTokensOf (.tunnel (Fin.ofNat 64 a))) s
  let s := (List.range 8).foldl (fun s k => s.stillTracker (16 + k)) s
  (s.liveCtxs.foldl (fun s c => s.settleProds c) s).settleKeep

/-- MOTION is lost: every axis is OFF with POS_VALID clear; a command that waits for a motion completes with kind 7 (R439). -/
def State.loseMotion (s : State) : State :=
  let s := (List.range 8).foldl (fun s a =>
    let s := match (s.getAxis a).held with
      | none => s
      | some h => (s.unhold h).endHeld h Status.ok 7
    s.clearMotion a 7) s
  let s := (List.range 8).foldl (fun s a => s.bridgesOff a) s
  { s.resetRegs .motion with axes := [] }

/-- SERVICE is lost: a session of the service port ends and its tokens are freed (R49, R532). -/
def State.loseService (s : State) : State :=
  let s := match s.svc.session with
    | none => s
    | some x => if x.src = 3 then s.endSession else s
  (s.freeTokensOf .service).resetRegs .service

/-- MGMT is lost: the MP restarts, and with the power the consumables block, what the MP held of it and the MP's memory are gone. An MP
restart by a reset of the domain keeps the consumables block (R18, R37, R41, R343, R561, R576). -/
def State.loseMgmt (s : State) (power : Bool) : State :=
  let s := s.mpRestart 3
  if power then { s.resetRegs .mgmt with consum := [], mp := { s.mp with mem := [] } } else s

/-- What is lost with a domain that has been isolated; `old` is the state before. `power`: its power is switched off too. -/
def State.loseDomain (old : State) (power : Bool) (d : Domain) (s : State) : State :=
  match d with
  | .aon => s
  | .mgmt => s.loseMgmt power
  | .service => s.loseService
  | .host => s.hostReset false
  | .ring => s.loseRing
  | .ds0 => s.loseDs0 power
  | .ds1 => s.loseDs1 power
  | .place => s.losePlace
  | .hpg g => State.loseGroup old s g
  | .motion => s.loseMotion
  | .hk => { s.resetRegs .hk with hk := [], round := RoundSt.reset }

/-! ## Switching (R561, R562) -/

/-- The sense point of VDD_SRAM of a DS domain (R565). -/
def domainSupply (d : Domain) : Option Nat :=
  match d with
  | .ds0 => some 4
  | .ds1 => some 5
  | _ => none

/-- The bit of a domain in PCR_DOM_CTL. -/
def domCtl (d : Domain) : Fld := ⟨Reg.PCR_DOM_CTL, domCode d, domCode d⟩

/-- A present domain is switched off: isolated at once, its units' state lost. -/
def State.switchOff (s : State) (d : Domain) : State :=
  let s := if s.rd (domField d) = 3 then s else s.wr (domCtl d) 0
  if s.rd (domField d) = 0 ∨ s.rd (domField d) = 3 then s
  else
    let old := s
    let s := (s.wr (domField d) 0).setLocked d false
    let s := (domainSupply d).elim s (fun k => s.endWarning k)
    State.watch old (State.loseDomain old true d s)

/-- A domain reaches ON with its PLLs locked; a DS domain begins its initialisation (R179, R562, R574). -/
def State.reachOn (s : State) (d : Domain) : State :=
  let s := (s.wr (domField d) 2).setLocked d true
  match d with
  | .ds0 => s.wr Fld.ESP_STAT_DS0_INIT 1
  | .ds1 => s.wr Fld.ESP_STAT_DS1_INIT 1
  | .ring => s.startStation
  | _ => s

/-- A present domain that is OFF is switched on: it is POWERING until it is powered and locked (R562). After a die shutdown
nothing is switched on (R472). -/
def State.switchOn (s : State) (d : Domain) : State :=
  if s.rd (domField d) = 3 ∨ s.pcr.dieShut then s
  else
    let s := s.wr (domCtl d) 1
    if s.rd (domField d) = 0 then s.wr (domField d) 1 else s

/-- A domain that is ON is reset: an off and on without the power switch; Moraine banks are not initialised (R561). -/
def State.resetDomain (s : State) (d : Domain) : State :=
  if d = .aon ∨ s.rd (domField d) ≠ 2 then s
  else
    let old := s
    let s := State.loseDomain old false d (s.wr (domField d) 0)
    let s := s.wr (domField d) 2
    State.watch old (if d = .ring then s.startStation else s)

/-- The domains in the order in which one write takes effect on them: PLACE, whose loss ends products without completions (R561), then the
ports and then DS0, as R283 ranks the aborts of one cycle. -/
def switchOrder : List Domain :=
  [.aon, .mgmt, .service, .host, .ring, .place, .hpg 0, .hpg 1, .hpg 2, .hpg 3, .ds0, .ds1, .motion, .hk]

/-- A write of PCR_DOM_CTL: one that would switch AON or HK off, or an absent domain on, has no effect there (R561). -/
def State.writeDomCtl (s : State) (v : Word) : State :=
  switchOrder.foldl (fun s d =>
    if bitOf v (domCode d) then s.switchOn d
    else if d = .aon ∨ d = .hk then s
    else s.switchOff d) s

/-- DOMAIN_CTL_WRITE. -/
def execDomainCtlWrite (m : Master) (v : Word) (s : State) : Host.Outcome State Fault Refusal :=
  .next (s.unfrozen (fun s => s.accessBy m Reg.PCR_DOM_CTL (fun s => s.writeDomCtl v)))

/-- A write of PCR_DOM_RST. -/
def State.writeDomRst (s : State) (v : Word) : State :=
  switchOrder.foldl (fun s d => if bitOf v (domCode d) then s.resetDomain d else s) s

/-- DOMAIN_RESET. -/
def execDomainReset (m : Master) (v : Word) (s : State) : Host.Outcome State Fault Refusal :=
  .next (s.unfrozen (fun s => s.accessBy m Reg.PCR_DOM_RST (fun s => s.writeDomRst v)))

/-! ## Sequencers (R27, R39, R562) -/

/-- Whether a domain holds a sequencer that is not loaded. -/
def State.needsSequencer (s : State) (d : Domain) : Bool :=
  match d with
  | .place => !s.on Fld.CRV_STAT_SEQ_OK
  | .motion => !s.on Fld.TIL_STAT_SEQ_OK
  | .hpg g => (groupPorts4 g).any (fun p => s.portPresent p && !(s.getNeve p).seqOk)
  | _ => false

/-- A port's link sequencer is loaded: with EN set in mode C its training begins (R261, R562). -/
def State.loadLink (s : State) (p : Nat) : State :=
  if s.portPresent p && !(s.getNeve p).seqOk then
    let s := s.onNeve p (fun n => { n with seqOk := true })
    if s.portMode p = 2 ∧ s.on (Fld.PORT_CFG_EN p) then s.startSeries p else s
  else s

/-- The sequencers of a domain that is ON are loaded, and their units leave reset (R549, R562). -/
def State.loadSequencer (s : State) (d : Domain) : State :=
  if !s.domOn d then s
  else
    match d with
    | .place => s.wr Fld.CRV_STAT_SEQ_OK 1
    | .motion => s.wr Fld.TIL_STAT_SEQ_OK 1
    | .hpg g => (groupPorts4 g).foldl (fun s p => s.loadLink p) s
    | _ => s

/-! ## DOMAIN_POWER (R563) -/

/-- Whether a domain has reached ON in the sense of DOMAIN_POWER: initialised, and its sequencer loaded. -/
def State.domainReady (s : State) (d : Domain) : Bool :=
  decide (s.rd (domField d) = 2) && !s.needsSequencer d &&
  (match d with
   | .ds0 => !s.on Fld.ESP_STAT_DS0_INIT
   | .ds1 => !s.on Fld.ESP_STAT_DS1_INIT
   | _ => true)

/-- A DOMAIN_POWER in execution that names domain `d` completes where `p` holds, with the state that it finds: UNIT_ABSENT where every unit of
its domain has been retired meanwhile (R7, R563). -/
def State.endPower (s : State) (p : State → Domain → Bool) : State :=
  match s.mp.cmd with
  | none => s
  | some c =>
    let d := domainOf (c.desc.fld 2 3 0)
    if s.mp.running && decide (c.desc.opcode = 0x70) && p s d then
      s.endCommand c.desc (if s.domainUsed d then Status.ok else Status.unitAbsent) (s.rd (domField d))
    else s

/-- DOMAIN_POWERED: a domain being switched on is powered and locked, no warning being active: it is ON (R562). -/
def execDomainPowered (d : Fin 14) (s : State) : Host.Outcome State Fault Refusal :=
  .next (s.unfrozen (fun s =>
    if s.rd (domField (domainOf d)) = 1 ∧ ¬ s.warned then
      State.watch s ((s.reachOn (domainOf d)).endPower (fun s d => s.domainReady d))
    else s))

/-- DOMAIN_OFF: a domain that has been isolated reaches OFF; a DOMAIN_POWER that waits for it completes (R562, R563). -/
def execDomainOff (d : Fin 14) (s : State) : Host.Outcome State Fault Refusal :=
  .next (s.unfrozen (fun s => s.endPower (fun s x => decide (x = domainOf d) && decide (s.rd (domField x) = 0))))

/-- SEQUENCER_RELOAD: the MP, while it runs, reloads the sequencers of a domain that is ON (R562). -/
def execSequencerReload (d : Fin 14) (s : State) : Host.Outcome State Fault Refusal :=
  .next (s.unfrozen (fun s =>
    if s.mp.running && s.needsSequencer (domainOf d) && s.domOn (domainOf d) then
      State.watch s ((s.loadSequencer (domainOf d)).endPower (fun s d => s.domainReady d))
    else s))

/-- DS_INIT_COMPLETE: the zero initialisation of DS0 or DS1 has ended. The blocks held in DS1 are fetched again, those of DS0 having
been given up with its allocation state (R179, R637). -/
def execDsInitComplete (ds1 : Bool) (s : State) : Host.Outcome State Fault Refusal :=
  .next (s.unfrozen (fun s =>
    if ds1 then
      if s.on Fld.ESP_STAT_DS1_INIT && s.domOn .ds1 then
        ((s.wr Fld.ESP_STAT_DS1_INIT 0).refetchBlocks (s.blockIn true) (s.blockIn true)).endPower (fun s d => s.domainReady d)
      else s
    else if s.on Fld.ESP_STAT_DS0_INIT && s.domOn .ds0 then
      (s.wr Fld.ESP_STAT_DS0_INIT 0).endPower (fun s d => s.domainReady d)
    else s))

/-- Whether some product other than an ended one is in flight. -/
def State.anyInflight (s : State) : Bool := s.liveCtxs.any (fun c => !(s.getCtx c).inflight.isEmpty)

/-- Why a DOMAIN_POWER that would change a domain is refused for its use (R563). -/
def State.powerRefusal (s : State) (d : Domain) : Option (Nat × Nat) :=
  match d with
  | .place => if s.boundCtxs.any (fun c => decide (c ≠ 0)) then some (Status.ctxState, 0x10) else none
  | .hpg g =>
    if s.boundCtxs.any (fun c => (s.ctxPorts c).any (fun p => decide (portGroup p = g))) then some (Status.ctxState, 0x10) else none
  | .ds0 => if s.anyInflight then some (Status.busy, 0x11) else none
  | .ds1 => if s.anyInflight then some (Status.busy, 0x11) else none
  | .motion =>
    if (List.range 8).any (fun a => decide (s.axState a ∈ [3, 4, 5])) then some (Status.busy, 0x12) else none
  | _ => none

/-- A DOMAIN_POWER waits for its domain. -/
def State.waitPower (s : State) (d : Desc) : State := s.beginCommand d (some 7) []

/-- DOMAIN_POWER (0x70): the use of a domain is checked and it is switched on or off (R563). -/
def execDomainPower (s : State) : Host.Outcome State Fault Refusal :=
  .next (s.unfrozen (fun s =>
    match s.nextCommand 0x70 with
    | none => s
    | some c =>
      let code := c.fld 2 3 0
      let want := bitOf (dwAt c.dw 2) 8
      let d := domainOf code
      if 14 ≤ code ∨ c.reservedSet (commandLayout [0x10F]) then s.finish c Status.descError 0x01
      else if !want && decide (d = .aon ∨ d = .hk ∨ d = .mgmt) then s.finish c Status.descError 0x02
      else if s.rd (domField d) = 3 ∨ !s.domainUsed d then s.finish c Status.unitAbsent 0
      else
        let off := s.rd (domField d) = 0
        match (if want ∨ off then none else s.powerRefusal d) with
        | some r => s.finish c r.1 r.2
        | none =>
          if !s.mpMay 7 then s.finish c Status.busy 0
          else if want then
            if s.domainReady d ∨ d = .aon then s.finish c Status.ok 2
            else (s.switchOn d).waitPower c
          else if off then s.finish c Status.ok 0
          else
            let s := match d with
              | .hpg g => (groupPorts4 g).foldl (fun (t : State) p => t.readInk p) s
              | _ => s
            (s.waitPower c).switchOff d))

/-! ## Retirement (R7, R180, R282, R564) -/

/-- A domain whose units are all absent or retired is switched off. -/
def State.dropUnused (s : State) (d : Domain) : State := if s.domainUsed d then s else s.switchOff d

/-- A present port is retired: it is disabled, its scope is put in FAULT, and its group switched off when it was the last (R282, R564). -/
def State.retirePort (s : State) (p : Nat) : State :=
  if !s.portPresent p then s.wr ⟨Reg.PCR_RET_PORT, p, p⟩ 1
  else
    let old := s
    let s := if s.domOn (.hpg (portGroup p)) then (s.stopLink p).wr (Fld.PORT_CFG_EN p) 0 else s
    let s := s.wr ⟨Reg.PCR_RET_PORT, p, p⟩ 1
    let sc := 0x100 + p
    let s := if s.scopeState sc = 2 then (s.wr (Fld.RAKE_SCOPE_STATE sc) 1).scopeEvent sc 5 0x3FF else s.faultScope sc 5 0x3FF
    let s := if s.domOn .hk then s.unfit (40 + p) else s
    (State.watch old s).dropUnused (.hpg (portGroup p))

/-- A present context is retired: its products complete ABORTED_FAULT, its queued jobs CANCELLED, and its ranges and patch area are
released (R564). -/
def State.retireCtx (s : State) (c : Nat) : State :=
  let bit : Fld := ⟨Reg.PCR_RET_CTX (c / 32), c % 32, c % 32⟩
  if !s.ctxPresent c then s.wr bit 1
  else
    let s := s.abortCtx c (fun _ => true) .faulted Status.abortedFault
    let s := (s.cancelQueue c).releaseCtx c
    (s.wr (Fld.CTX_STATE_STATE c) 0).wr bit 1

/-- A present bank is retired; DS1 is switched off with its last (R180, R564). -/
def State.retireBank (s : State) (b : Nat) : State :=
  let bit : Fld := ⟨if b < 32 then Reg.PCR_RET_BANK_LO else Reg.PCR_RET_BANK_HI, b % 32, b % 32⟩
  if !s.bankPresent b then s.wr bit 1
  else if b < 32 then s.wr bit 1
  else (s.wr bit 1).dropUnused .ds1

/-- A write of PCR_RET_PORT. -/
def State.writeRetPort (s : State) (v : Word) : State :=
  (List.range 16).foldl (fun s p => if bitOf v p then s.retirePort p else s) s

/-- A write of PCR_RET_CTXw; context 0, and the bit that names no context, take no effect. -/
def State.writeRetCtx (s : State) (w : Nat) (v : Word) : State :=
  (List.range 32).foldl (fun s i =>
    if bitOf v i && decide (1 ≤ 32 * w + i) && decide (32 * w + i ≤ 254) then s.retireCtx (32 * w + i) else s) s

/-- A write of PCR_RET_BANK_LO or _HI. -/
def State.writeRetBank (s : State) (hi : Bool) (v : Word) : State :=
  (List.range 32).foldl (fun s i => if bitOf v i then s.retireBank (if hi then 32 + i else i) else s) s

/-- The retirements of an entry are applied (R564, R578). -/
def State.applyRetired (s : State) (l : List Nat) : State :=
  let s := s.writeRetPort (BitVec.ofNat 32 (leNat (sliceOf l 0 2)))
  let s := (List.range 8).foldl (fun s w => s.writeRetCtx w (BitVec.ofNat 32 (leNat (sliceOf l (2 + 4 * w) 4)))) s
  let s := s.writeRetBank false (BitVec.ofNat 32 (leNat (sliceOf l 34 4)))
  s.writeRetBank true (BitVec.ofNat 32 (leNat (sliceOf l 38 4)))

/-- The entry of a UNIT_RETIRE as the flash answers: RESULT[0] is set once it is complete (R564). -/
def State.recordEntry (s : State) (c : MpCmd) (flash : FlashAnswer) : State :=
  match flash with
  | .busy => s.holdFlash c 7 []
  | .done => (s.recordRetired true).endCommand c.desc Status.ok 1
  | .failed => (s.recordRetired false).endCommand c.desc Status.ok 0

/-- A unit is retired, by its kind: a port, a context or a bank. -/
def State.retireUnit (s : State) (kind n : Nat) : State :=
  if kind = 0 then s.retirePort n else if kind = 1 then s.retireCtx n else s.retireBank n

/-- Whether a kind and number name no unit that can be retired. -/
def retireBad (kind n : Nat) : Bool :=
  decide (kind = 3) || (decide (kind = 0) && decide (16 ≤ n)) || (decide (kind = 1) && decide (n = 0 ∨ 255 ≤ n)) ||
  (decide (kind = 2) && decide (64 ≤ n))

/-- UNIT_RETIRE (0x71): a port, context or bank is retired, and the retirement recorded, at once or when the flash has done. With the NOR
window closed it completes unrecorded (R564). -/
def execUnitRetire (flash : FlashAnswer) (s : State) : Host.Outcome State Fault Refusal :=
  .next (s.unfrozen (State.flashing (fun flash s =>
    match s.loadCommand 0x71 with
    | none => s
    | some c =>
      let kind := c.desc.fld 2 1 0
      let n := c.desc.fld 2 15 8
      if c.left = flashWorks then s.recordEntry c flash
      else if retireBad kind n || c.desc.reservedSet (commandLayout [0xFF03]) then s.endCommand c.desc Status.descError 0x01
      else if !(if kind = 0 then s.portPresent n else if kind = 1 then s.ctxPresent n else s.bankPresent n) then
        s.endCommand c.desc Status.unitAbsent 0
      else if !s.mpMay 7 then s.endCommand c.desc Status.busy 0
      else
        let t := State.watch s (s.retireUnit kind n)
        if t.norWindow then t.recordEntry c flash
        else (t.onSvc (fun x => { x with recorded := false, recAt := t.tb.toNat })).endCommand c.desc Status.ok 0) flash))

/-- RETIREMENT_RETRY: 60 s have passed with retirements that are not recorded; with the NOR window open their entry is tried again
(R564). -/
def execRetirementRetry (ok : Bool) (s : State) : Host.Outcome State Fault Refusal :=
  .next (s.unfrozen (State.programs (fun ok s =>
    if s.mp.running && !s.svc.recorded && s.past s.svc.recAt 240000000000 then
      if s.norWindow then s.recordRetired ok else s.onSvc (fun x => { x with recAt := s.tb.toNat })
    else s) ok))

end Sys2Proof.Machine
end

