-- ==== Sys2Proof/Machine/OtpCommands.lean ====
section
/-! DEFINITION. The commands that program Permafrost, and the end of a word at its engine (R520 to R526,
spec/16_permafrost_otp.md). -/

namespace Sys2Proof.Machine

/-- A word of a command as its list holds it: address and data; or, at an address from 0x1000, the CRC word of a region. -/
def otpItem (w data : Nat) : Nat := w * 2 ^ 64 + data % 2 ^ 64
def otpItemWord (x : Nat) : Nat := x / 2 ^ 64
def otpItemData (x : Nat) : Nat := x % 2 ^ 64

/-- The CRC word of a region, and what the region's strict read makes it (R506, R522). -/
def crcAddr (r : Nat) : Nat := (regionWords r).getLast?.getD 0
def State.crcData (s : State) (r : Nat) : Nat := crcWordOf ((crcCover r).map (s.otpWord false))

/-- The address and data of an item now. -/
def State.otpStep (s : State) (x : Nat) : Nat × Nat :=
  if otpItemWord x < 0x1000 then (otpItemWord x, otpItemData x)
  else (crcAddr (otpItemWord x - 0x1000), s.crcData (otpItemWord x - 0x1000))

/-- The array as it stands once the words of a list are programmed. -/
def State.afterWords (s : State) (l : List Nat) : State :=
  l.foldl (fun s x => s.putOtp (s.otpIndex (otpItemWord x)) (otpItemData x) (otpItemData x)) s

/-- Whether a word of a list breaks the counter order, each judged with those before it programmed (R520; DEDUCED, log entry 62). -/
def State.listOrder (s : State) : List Nat → Bool
  | [] => false
  | x :: t => s.counterOrder (otpItemWord x) (otpItemData x) || State.listOrder (s.afterWords [x]) t

/-- Whether CRC_AUTO cannot follow the words: they span two regions, or the CRC word holds a bit that the CRC lacks (R523). -/
def State.crcAutoBad (s : State) (l : List Nat) : Bool :=
  let rs := l.map (fun x => otpRegion (otpItemWord x))
  match rs.getLast?.getD none with
  | none => true
  | some r =>
    let t := s.afterWords l
    rs.any (fun q => decide (q ≠ some r)) ||
    decide ((t.otpWord false (crcAddr r) ||| t.otpWord true (crcAddr r)) &&& t.crcData r ≠
      (t.otpWord false (crcAddr r) ||| t.otpWord true (crcAddr r)))

/-- The bits of OTP_PROGRAM's layout (R522). -/
def otpLayout : List Nat := commandLayout [0xC00003FF, 0x7FF, 0xFFFFFFF8, 0xFFFFFFFF]

/-- The addresses of a command's words. -/
def otpAddrs (d : Desc) : List Nat := (List.range (d.fld 3 10 0)).map (fun i => d.fld 2 9 0 + i)

/-- Whether the command names no word, too many, or one that cannot be programmed (R520, R523). -/
def otpShapeBad (d : Desc) : Bool :=
  d.reservedSet otpLayout || decide (d.fld 3 10 0 = 0) || decide (1024 < d.fld 3 10 0) ||
  (otpAddrs d).any (fun w => (otpRegion w).isNone)

/-- The MP starts the next word of its command, or ends the command where the engine refuses it (R520, R522). -/
def State.nextOtp (s : State) : State :=
  if !s.mp.running || s.otp.prog.isSome then s
  else
    match s.mp.cmd with
    | none => s
    | some c =>
      if c.desc.opcode ≠ 0x50 ∧ c.desc.opcode ≠ 0x51 then s
      else
        match c.left with
        | [] => s
        | x :: _ =>
          let y := s.otpStep x
          match (if y.1 = 0x3EF then (if s.otpWindow then none else some 4) else s.wordRefused y.1 y.2) with
          | none => s.beginWord y.1 y.2 true
          | some 4 => (s.wr Fld.PF_PROG_CTL_RESULT 4).endCommand c.desc Status.window c.done
          | some 3 => (s.wr Fld.PF_PROG_CTL_RESULT 3).endCommand c.desc Status.descError 2
          | some r => (s.wr Fld.PF_PROG_CTL_RESULT r).endCommand c.desc Status.descError (if r = 6 then 3 else 1)

/-- The words of an OTP_PROGRAM are checked, and the first is started: from then on the command is in execution under token 1 (R522,
R523). -/
def State.beginOtp (s : State) (d : Desc) (bytes : List Nat) : State :=
  let l := (otpAddrs d).zipIdx.map (fun w => otpItem w.1 (leNat (sliceOf bytes (8 * w.2) 8)))
  let auto := bitOf (dwAt d.dw 2) 30
  if s.listOrder l then s.endCommand d Status.descError 3
  else if auto && s.crcAutoBad l then s.endCommand d Status.descError 4
  else if !s.otpWindow then s.endCommand d Status.window 0
  else if !s.mpMay 1 then s.endCommand d Status.busy 0
  else (s.beginCommand d (some 1) (if auto then l ++ [otpItem (0x1000 + (otpRegion (d.fld 2 9 0)).getD 0) 0] else l)).nextOtp

/-- OTP_PROGRAM: the MP checks every word, then programs them in order (R522, R523). -/
def execOtpProgram (src : HostRead) (vqps core : Bool) (s : State) : Host.Outcome State Fault Refusal :=
  .next (s.unfrozen (fun s =>
    match (if s.mp.cmd.any (fun c => !c.left.isEmpty) then none else s.loadCommand 0x50) with
    | none => s
    | some c =>
      let d := c.desc
      let s := s.senseSupplies vqps core
      if otpShapeBad d then s.endCommand d Status.descError 1
      else if (otpAddrs d).any s.wordLocked then s.endCommand d Status.descError 2
      else
        let x := s.feed (bitOf (dwAt d.dw 2) 31) (d.wide 4) (8 * d.fld 3 10 0) c.fed src
        match x.1.state with
        | .failed => x.2.endCommand d Status.descError 5
        | .more => x.2.holdCommand c none x.1.bytes
        | .whole => x.2.beginOtp d x.1.bytes))

/-- The locks that an OTP_LOCK names, set in PF_LOCK_SET. -/
def State.setLocks (s : State) (mask : Nat) : State := s.wr Fld.PF_LOCK_SET_LOCK (s.rd Fld.PF_LOCK_SET_LOCK ||| mask)

/-- OTP_LOCK: sets locks, until the next load or, programmed in the lock word, for good (R524). -/
def execOtpLock (vqps core : Bool) (s : State) : Host.Outcome State Fault Refusal :=
  .next (s.unfrozen (fun s =>
    match s.nextCommand 0x51 with
    | none => s
    | some d =>
      let s := s.senseSupplies vqps core
      let mask := d.fld 2 7 0
      if d.reservedSet (commandLayout [0x1FF]) then s.finish d Status.descError 1
      else if !s.otpWindow then s.finish d Status.window 0
      else if !s.mpMay 1 then s.finish d Status.busy 0
      else if !bitOf (dwAt d.dw 2) 8 then (s.setLocks mask).finish d Status.ok 1
      else
        (s.beginCommand d (some 1) [otpItem 0x3EF (mask + mask * 2 ^ 8 + mask * 2 ^ 16)]).nextOtp))

/-- The lock word of an OTP_LOCK has been programmed with a RESULT of the engine (R524). -/
def State.endLock (s : State) (d : Desc) (r : Nat) : State :=
  let mask := d.fld 2 7 0
  if s.permLocks &&& mask = mask then (s.setLocks mask).endCommand d (if r = 4 then Status.window else Status.ok) 1
  else s.endCommand d (if r = 4 then Status.window else Status.descError) 0

/-- The MP's word has ended with a RESULT: the command counts it and goes on, or ends (R522). -/
def State.wordEnded (s : State) (r : Nat) : State :=
  match s.mp.cmd with
  | none => s
  | some c =>
    if !s.mp.running then s
    else if c.desc.opcode = 0x51 then s.endLock c.desc r
    else if r = 2 then s.endCommand c.desc Status.descError c.done
    else if r = 4 then s.endCommand c.desc Status.window c.done
    else
      let done := c.done + 1 + (if r = 1 then 2 ^ 16 else 0)
      if c.left.tail.isEmpty then s.endCommand c.desc Status.ok done
      else { s with mp := { s.mp with cmd := some { c with done := done, left := c.left.tail } } }.nextOtp

/-- A word has completed during a freeze: the MP goes on with its command once the clocks resume (R588, R595). -/
def State.resumeOtp (s : State) : State :=
  match s.otp.prog.bind (fun x => x.ended) with
  | none => s.nextOtp
  | some r => (s.onOtp (fun o => { o with prog := none })).wordEnded r

/-- PROGRAM_WORD_DONE: the pulses of the word under way have ended, and its data bits read as given at the strict and at the lenient
margin; it is verified (R520, R521), in a freeze too (R588). The engine waits while a scan runs (R525). -/
def execProgramWordDone (strict lenient : BitVec 64) (s : State) : Host.Outcome State Fault Refusal :=
  .next (
    match s.otp.prog with
    | none => s
    | some x =>
      if x.ended.isSome || s.on Fld.PF_SCAN_STAT_BUSY then s
      else
        let y := s.verifyWord x strict.toNat lenient.toNat
        let t := ((y.2.onOtp (fun o => { o with prog := none })).wr Fld.PF_PROG_CTL_BUSY 0).wr Fld.PF_PROG_CTL_RESULT y.1
        if !t.hf.active then (if x.mp then t.wordEnded y.1 else t.nextOtp)
        else if x.mp then t.onOtp (fun o => { o with prog := some { x with ended := some y.1 } })
        else t)

end Sys2Proof.Machine
end

