-- ==== Sys2Proof/Machine/Boot.lean ====
section
/-! DEFINITION. The boot of the MP and rescue mode (R38, R60, R83, R545 to R552, R564, R578, spec/17_firmware_update.md,
spec/18_power_clocks_reset.md). -/

namespace Sys2Proof.Machine

/-! ## Commands that a restart interrupted (R38, R83) -/

/-- The RESULT of a command that completes RESTARTED: the effect that stands. -/
def State.restartResult (s : State) (c : MpCmd) : Nat :=
  let op := c.desc.opcode
  if op = 0x50 then
    c.done % 65536 + (c.left.filter (fun x =>
      let y := s.otpStep x
      decide (y.2 &&& s.otpWord false y.1 = y.2))).length
  else if op = 0x51 then (if s.permLocks &&& c.desc.fld 2 7 0 = c.desc.fld 2 7 0 then 1 else 0)
  else if op = 0x40 ∨ op = 0x59 ∨ op = 0x60 ∨ op = 0x71 then c.done
  else if op = 0x70 then s.rd (domField (domainOf (c.desc.fld 2 3 0)))
  else 0

/-- The command that a restart interrupted completes RESTARTED once the MP runs (R38). -/
def State.endRestarted (s : State) : State :=
  match s.mp.cmd with
  | none => s
  | some c => s.endCommand c.desc Status.restarted (s.restartResult c)

/-! ## The thermistor tables (R461, R578) -/

/-- The key of a thermistor table among the MP's own settings (R551; DESIGN CHOICE, log entry 61). -/
def tableKey (t : Nat) : Nat := 0xF000 + t

/-- The boot ROM writes the thermistor tables from a settings copy; a table without an entry stays. -/
def State.writeTables (s : State) : State :=
  let c := s.settingsCopy
  (List.range 4).foldl (fun s t =>
    match s.settingIn c (tableKey t) with
    | none => s
    | some l => (List.range 33).foldl (fun s i => s.wr (Fld.HK_TTAB_T t i) (leNat (sliceOf l (2 * i) 2))) s) s

/-- The MP, or the ROM in rescue mode, clears CFG_RETRY (R60, R550). -/
def State.clearRetry (s : State) : State := if s.domOn .host then s.wr Fld.HOST_STAT_CFG_RETRY 0 else s

/-! ## Rescue mode (R550) -/

/-- The commands fetched from the CR complete BUSY, as every later one does. -/
def State.refuseCommands (s : State) : State :=
  let s := match s.mp.cmd with
    | none => s
    | some c => s.endCommand c.desc Status.busy 0xFE
  (s.getRing 0).fetched.foldl (fun s d => s.finish d Status.busy 0xFE) s

/-- Rescue mode: no image runs, and the ROM loader serves. -/
def State.rescueMode (s : State) : State :=
  let s := { s with mp := { s.mp with rescue := true } }.updateLate 9 0 s.activeSlot
  (s.clearRetry.wr Fld.PCR_STAT_START 5).refuseCommands

/-! ## The boot (R545 to R549, R552) -/

/-- With no record in force, one is written for slot 0 when that slot passes (R545). A trial is counted, or falls back (R547). -/
def State.countTrial (s : State) (start : Bool) : State :=
  match s.bootRecord with
  | none =>
    if s.slotBoots 0 start then s.writeRecord ⟨0, 0, 1, 0, 0xFF, hdrFormat (s.slotHeader 0), 0, 0xFF, 0⟩ else s
  | some (_, r) =>
    if r.state ≠ 2 then s
    else if 3 ≤ r.trials ∨ !s.slotBoots r.active start then
      let s := s.writeRecord { r with
        active := r.prev, state := 1, trials := 0, prev := 0xFF, fmt := r.prevFmt, copy := r.prevCopy, prevCopy := 0xFF }
      s.updateLate 7 (s.slotVersion r.prev) r.prev
    else
      let s := s.writeRecord { r with trials := r.trials + 1 }
      s.updateLate 5 (s.slotVersion r.active) r.active

/-- The settings are migrated at the first trial boot whose copy differs from the old one and holds no mark (R552). -/
def State.migrateOnce (s : State) (r : BootRec) : State :=
  if r.state = 2 ∧ r.copy ≠ r.prevCopy ∧ r.prevCopy < 2 ∧ (s.settingIn r.copy migrationKey).isNone then
    (s.migrate r.active r).updateLate 12 (s.slotVersion r.active) r.active
  else s

/-- The retirements recorded are applied at a controller start (R564). -/
def State.applyRecorded (s : State) : State :=
  match s.settingIn s.settingsCopy retireKey with
  | none => s
  | some l => s.applyRetired l

/-- The sequencers of every domain are loaded at a controller start (R39, R549). -/
def State.loadSequencers (s : State) : State := domains.foldl (fun s d => s.loadSequencer d) s

/-- An image runs: at a controller start its sequencers are loaded and the recorded retirements applied; then CFG_RETRY clears. -/
def State.runImage (s : State) (r : BootRec) (start : Bool) : State :=
  let s := { s with mp := { s.mp with running := true, rescue := false } }.loadMpMemory r.active
  let s := s.migrateOnce r
  let s := s.onSvc (fun x => { x with
    trialAt := s.tb.toNat
    arbDue := decide (r.state = 1) && decide (s.arbCounter < hdrArb (s.slotHeader r.active))
    arbTold := false
    arbAt := none })
  let s := if start then s.loadSequencers.applyRecorded else s
  let s := (List.range 16).foldl (fun s p => State.consBoot start s p) s
  let s := { s with pcr := { s.pcr with fed := s.tb.toNat } }
  (s.clearRetry.wr Fld.PCR_STAT_START 4).endRestarted

/-- A boot of the MP, at a controller start or after a restart. -/
def State.bootMp (s : State) (start : Bool) : State :=
  let s := if start then s.writeTables else s
  let s := s.countTrial start
  match s.bootRecord with
  | none => s.rescueMode
  | some (_, r) => if s.slotBoots r.active start then s.runImage r start else s.rescueMode

/-- Whether the boot programs the flash: a record to write, or a trial to count (R545, R547). -/
def State.bootWrites (s : State) : Bool :=
  match s.bootRecord with
  | none => true
  | some (_, r) => decide (r.state = 2)

/-- MP_BOOT: the boot ROM boots the MP after a restart. The boot of a controller start is part of that start (R547). A boot that programs the
flash waits while a supply warning is active (R567). -/
def execMpBoot (s : State) : Host.Outcome State Fault Refusal :=
  .next (s.unfrozen (fun s =>
    if s.domOn .mgmt && !s.windowOpen && s.pcr.start.isNone && !(s.warned && s.bootWrites) then State.watch s (s.bootMp false) else s))

end Sys2Proof.Machine
end

