-- ==== Sys2Proof/Machine/Power.lean ====
section
/-! DEFINITION. Supplies, clocks, resets and the controller start (R565 to R578, spec/18_power_clocks_reset.md), and ACTIVATE (R546). -/

namespace Sys2Proof.Machine

/-! ## Supply warnings (R565 to R568) -/

/-- Whether a supply has a warning level, and its sense point is not ignored (R565). -/
def State.supplySeen (s : State) (k : Nat) : Bool :=
  decide (k ≠ 11) && (decide (k ≠ 4) || s.domOn .ds0) && (decide (k ≠ 5) || s.domOn .ds1)

/-- A warning begins: it is counted and written, and the programming engine cuts its pulse (R521, R567). -/
def State.beginWarning (s : State) (k : Nat) : State :=
  let s := { s with pcr := { s.pcr with warnAt := Store.put (fun _ => none) s.pcr.warnAt k (some s.tb.toNat) } }
  let s := (s.wr ⟨Reg.PCR_SUP_STAT, k, k⟩ 1).bumpSat (Fld.PCR_SUP_CNT_WARN k)
  s.cutPulse.supplyEvent k 1 0

/-- SUPPLY_WARN_BEGIN: supply `k` has stayed below its warning level for 0.5 µs. -/
def execSupplyWarnBegin (k : Fin 13) (s : State) : Host.Outcome State Fault Refusal :=
  .next (if s.supplySeen k && (Store.get (fun _ => none) s.pcr.warnAt k).isNone then s.beginWarning k else s)

/-- SUPPLY_WARN_END: supply `k` has stayed above its warning level plus 10 mV for 10 µs. -/
def execSupplyWarnEnd (k : Fin 13) (s : State) : Host.Outcome State Fault Refusal :=
  .next (if s.hf.active then s.endWarning k else State.watch s (s.endWarning k))

/-- A warning becomes long: every port is held in WAIT, and every bound context enters FAULTED with cause SUPPLY (R568). In a freeze it is
counted only (R588). -/
def State.longWarn (s : State) (k : Nat) : State :=
  let old := s
  let s := { s with pcr := { s.pcr with long := k :: s.pcr.long } }
  let s := ((s.wr Fld.PCR_SUP_STAT_LONG 1).bumpSat (Fld.PCR_SUP_CNT_LONG k)).supplyEvent k 2 0
  if s.hf.active then s
  else State.watch old (s.boundCtxs.foldl (fun s c => s.enterFaulted c 0x0A 0) s)

/-- LONG_WARNING: the warning of supply `k` has lasted 2 ms. -/
def execLongWarning (k : Fin 13) (s : State) : Host.Outcome State Fault Refusal :=
  .next (
    match Store.get (fun _ => none) s.pcr.warnAt k with
    | none => s
    | some t => if !s.pcr.long.contains k.val && decide (t + 8000000 ≤ s.tb.toNat) then s.longWarn k else s)

/-- AVS_STEP: every 10 µs the code moves one step toward REQ, once Permafrost has loaded; a REQ above 20 applies 20 (R572). -/
def execAvsStep (s : State) : Host.Outcome State Fault Refusal :=
  .next (
    let want := min 20 (s.rd Fld.PCR_AVS_REQ)
    let code := s.rd Fld.PCR_AVS_CODE
    let t := { s with pcr := { s.pcr with avsAt := s.tb.toNat } }
    if !s.on Fld.PF_STAT_LOADED || !s.past s.pcr.avsAt 40000 then s
    else if code < want then t.wr Fld.PCR_AVS_CODE (code + 1)
    else if want < code then t.wr Fld.PCR_AVS_CODE (code - 1)
    else s)

/-! ## Clocks (R573 to R575) -/

/-- TB_INC_WRITE. -/
def execTbIncWrite (m : Master) (v : Word) (s : State) : Host.Outcome State Fault Refusal :=
  .next (s.unfrozen (fun s => s.accessBy m Reg.PCR_TB_INC (fun s => s.writeTbInc m v)))

/-- RING_REFCLK_LOSS: both ring links go down (R387, R573). -/
def execRingRefclkLoss (s : State) : Host.Outcome State Fault Refusal :=
  .next (s.unfrozen (fun s =>
    let s := s.wr Fld.PCR_PLL_STAT_RING_REF_OK 0
    if s.domOn .ring then (s.rportDown 0).rportDown 1 else s))

/-- The mirror of an island's TB, if it has one (R138, R482). -/
def islandMirror (i : Nat) : Option Nat := if i = 5 then some 16 else if 6 ≤ i ∧ i ≤ 21 then some (i - 6) else none

/-- PLL_LOCK_LOSS: the PLL of a powered island loses lock; its clock is gated and its mirror is no longer calibrated (R139, R574). -/
def execPllLockLoss (i : Fin 27) (s : State) : Host.Outcome State Fault Refusal :=
  .next (s.unfrozen (fun s =>
    if i.val ≠ 0 ∧ s.domOn (islandDomain i) ∧ bitOf (s.getReg Reg.PCR_PLL_STAT) i then
      let t := s.wr ⟨Reg.PCR_PLL_STAT, i, i⟩ 0
      State.watch s ((islandMirror i).elim t (fun k => t.uncalibrate k))
    else s))

/-- PLL_RELOCK: the PLL has locked again and the island's clock is released (R574). -/
def execPllRelock (i : Fin 27) (s : State) : Host.Outcome State Fault Refusal :=
  .next (s.unfrozen (fun s =>
    if i.val ≠ 0 ∧ s.domOn (islandDomain i) then s.wr ⟨Reg.PCR_PLL_STAT, i, i⟩ 1 else s))

/-! ## Resets (R576, R577) -/

/-- The bits of a register that only a power-on reset resets (R17). -/
def keptBits (a : Nat) : Word := (rowOf a).elim 0 (fun r => BitVec.ofNat 32 r.rs)

/-- The registers after a warm reset: their RS fields stay, all else returns to reset (R18, R576). -/
def keepRs (m : Store Word) : Store Word :=
  m.foldl (fun t e => Store.put resetWord t e.1 ((e.2 &&& keptBits e.1) ||| (resetWord e.1 &&& ~~~keptBits e.1))) []

/-- A word that a reset interrupts is left as its pulses left it: free among its data bits (R521, R576; DESIGN CHOICE, log entry 1). -/
def State.abandonWord (s : State) : State :=
  match s.otp.prog with
  | none => s
  | some x =>
    if x.ended.isSome then s.onOtp (fun o => { o with prog := none })
    else
    let (f, s) := s.draw
    let (g, s) := s.draw
    (s.putOtp (s.otpIndex x.addr) (f.toNat &&& x.data) (g.toNat &&& x.data)).onOtp (fun o => { o with prog := none })

/-- What every reset of the whole controller leaves: the world outside it, the flash and the array stay. -/
def State.resetAll (s : State) : State :=
  let s := s.abandonWord
  { State.reset with
    pending := s.pending, out := s.out, free := s.free, otp := { s.otp with inForce := [] }, nor := s.nor
    host := { HostSt.reset with perstLow := s.host.perstLow }
    hf := { HfSt.reset with pinLow := s.hf.pinLow }, tap := s.tap }

/-- A warm reset of every domain by the sources named; the controller start that follows is due (R576). A die shutdown ends only with
RESET_N or a power cycle. -/
def State.warmReset (s : State) (src : Nat) (sup : Option Nat) : State :=
  if s.pcr.dieShut ∧ src ≠ 30 then s
  else
    let t := s.resetAll
    { t with
      regs := keepRs s.regs, tb := s.tb, tbFrac := s.tbFrac
      pcr := { State.reset.pcr with
        start := some (insertOnce src ((s.pcr.start).getD []))
        supply := sup.getD s.pcr.supply
        dieShut := s.pcr.dieShut
        refLost := decide (src = 28) || (s.pcr.refLost && decide (src ≠ 28)) } }

/-- A power-on reset: everything is reset, the TAP too, and TB is cleared. -/
def State.powerReset (s : State) : State := { s.resetAll with tap := TapSt.reset }

/-- POWER_ON_RESET. -/
def execPowerOnReset (s : State) : Host.Outcome State Fault Refusal := .next s.powerReset

/-- RESET_N: low for at least 1 µs. -/
def execResetN (s : State) : Host.Outcome State Fault Refusal := .next (s.warmReset 30 none)

/-- SUPPLY_RESET: supply `k` has stayed below its reset level for 2 µs: VDD_AON makes a power-on reset, VQPS none, every other a SUPPLY
reset (R565, R569). -/
def execSupplyReset (k : Fin 13) (s : State) : Host.Outcome State Fault Refusal :=
  .next (
    if k.val = 12 then s.powerReset
    else if s.supplySeen k then s.warmReset 29 (some k)
    else s)

/-- REFCLK25_LOSS: a CLOCK reset, held while the reference is lost; TB does not advance (R573). -/
def execRefclk25Loss (s : State) : Host.Outcome State Fault Refusal := .next (s.warmReset 28 none)

/-- A write of PCR_RST: with CHIP set and KEY 0x7E57, a CHIP reset (R576). -/
def State.writeRst (s : State) (v : Word) : State := if bitOf v 31 && decide (bitsOf v 15 0 = 0x7E57) then s.warmReset 27 none else s

/-- CHIP_RESET. -/
def execChipReset (m : Master) (v : Word) (s : State) : Host.Outcome State Fault Refusal :=
  .next (s.unfrozen (fun s => s.accessBy m Reg.PCR_RST (fun s => s.writeRst (v ||| 0x80000000))))

/-! ## The controller start (R511, R577, R578) -/

/-- Whether a domain is present: at least one of its units is (R560). -/
def Units.has (u : Units) (d : Domain) : Bool :=
  match d with
  | .hpg g => (groupPorts4 g).any (fun p => u.ports.getLsbD p)
  | .ds1 => (List.range 32).any (fun b => u.banks.getLsbD (32 + b))
  | _ => true

/-- The reset record (R577). -/
def State.recordStart (s : State) (srcs : List Nat) : State :=
  let s := srcs.foldl (fun s i => s.wr ⟨Reg.PCR_RST_CAUSE, i, i⟩ 1) s
  let s := if srcs.contains 29 then s.wr Fld.PCR_RST_CAUSE_SUP s.pcr.supply else s
  (if s.pcr.dieShut then s.wr Fld.PCR_RST_CAUSE_DIE_SHUT 1 else s).bump Fld.PCR_RST_CAUSE_STARTS

/-- Every present domain is switched on; one that is not present is ABSENT (R560). -/
def State.startDomains (s : State) : State :=
  domains.foldl (fun s d => if s.units.has d then (s.wr (domCtl d) 1).reachOn d else (s.wr (domCtl d) 0).wr (domField d) 3) s

/-- The controller start that is due after a reset: the record, Permafrost's load, the domains, and the boot of the MP. -/
def State.startController (s : State) (srcs : List Nat) : State :=
  let s := s.recordStart srcs
  let s := { s with
    pcr := { s.pcr with start := none, dieShut := false, refLost := false, fed := s.tb.toNat, avsAt := s.tb.toNat }
    tap := { s.tap with drive := 0 } }
  let s := s.loadPermafrost.startDomains
  let s := ((s.wr Fld.PCR_STAT_REFCLK_OK 1).wr Fld.PCR_PLL_STAT_PCIE_REF_OK 1).wr Fld.PCR_PLL_STAT_RING_REF_OK 1
  s.bootMp true

/-- CONTROLLER_START: the start that is due; while a supply warning is active its domains wait, and the start with them (R562, R578), as they do
in a freeze (R588). -/
def execControllerStart (s : State) : Host.Outcome State Fault Refusal :=
  .next (
    match s.pcr.start with
    | none => s
    | some srcs => if s.warned || s.hf.active then s else State.watch s (s.startController srcs))

/-! ## ACTIVATE (R546, R550) -/

/-- The record that ACTIVATE writes for the verified slot: on trial, or in rescue mode CONFIRMED. -/
def State.activateRecord (s : State) (h : List Nat) : BootRec :=
  let old := s.settingsCopy
  let copy := if hdrFormat h = s.settingsFmt then old else 1 - old
  if s.mp.rescue then ⟨0, s.otherSlot, 1, 0, 0xFF, hdrFormat h, copy, 0xFF, 0⟩
  else ⟨0, s.otherSlot, 2, 0, s.activeSlot, hdrFormat h, copy, old, s.settingsFmt⟩

/-- ACTIVATE: the record is written, the reply sent, and the MP restarts with cause 1; in rescue mode the controller starts anew. `ok` tells
whether the record reads back. -/
def execActivate (q : LoaderReq) (ok : Bool) (s : State) : Host.Outcome State Fault Refusal :=
  .next (s.unfrozen (State.programs (fun ok s => State.watch s (s.serveLoader 5 q (fun s r => s.inSession r (fun s x =>
    if x.phase ≠ 3 then s.reply r 0x03 []
    else if !s.norWindow then s.reply r 0x06 []
    else if (s.bootRecord.map (fun y => y.2.state)) = some 2 then s.reply r 0x21 []
    else if !ok then (s.norFail (recordBlock (s.bootRecord.elim 0 (fun y => 1 - y.1))) 32).reply r 0x07 []
    else
      let rescue := s.mp.rescue
      let slot := s.otherSlot
      let s := s.writeRecord (s.activateRecord x.header)
      let s := (s.updateEvent 4 0 r.src (hdrVersion x.header) slot).reply r 0x00 []
      let s := s.closeSession
      if rescue then s.warmReset 27 none else s.mpRestart 1)))) ok))

end Sys2Proof.Machine
end

