-- ==== Sys2Proof/Machine/PrintGo.lean ====
section
/-! DEFINITION. Print-go edges at the contexts, the start of products, timeouts and reject pulses (R108 to R118, R123, R127 to R132,
R146, R217, R449, R469). -/

namespace Sys2Proof.Machine

/-- The filter time of print-go input `n` in ns (R146, R173). -/
def State.pgoFilter (s : State) (n : Nat) : Nat := max 2 (s.rd (Fld.PGO_CFG_FILT n)) * 10

/-- PGO_ACCEPT: print-go input `n` has a level since a transition at TB `t`, which is accepted once the filter time has passed (R146, R173,
R406). -/
def execPgoAccept (n : Fin 32) (level : Bool) (t : BitVec 64) (s : State) : Host.Outcome State Fault Refusal :=
  .next (s.unfrozen (fun s =>
    if !s.domOn .place || decide (s.on (Fld.PGO_STAT_LEVEL n) = level) || !s.filtered t (s.pgoFilter n) then s
    else
      let s := ((s.wrBit (Fld.PGO_STAT_LEVEL n) level).bump (Fld.PGO_STAT_EDGES n)).wr64 (Reg.PGO_TB_LO n) t.toNat
      let s := s.edgeTo (fun c => decide (s.pgoSrc c = n) && decide (s.on (Fld.CTX_BINDING_PGO_EDGE c) = !level)) t.toNat
      s.relayEdge n (if level then 0 else 1) t.toNat))

/-- The TRACK message of an edge (R410). -/
def State.trackEdge (s : State) (c seq : Nat) (u : Int) (t : Nat) : State :=
  if ctxBit Reg.RING_TSEND s c then s.ringSend 0xFF (.track c 1 0 false seq (patternOf 48 u) (s.toRing t)) else s

/-- An accepted edge that finds the queue empty (R116, R410). -/
def State.noJobEdge (s : State) (c : Nat) (u : Int) (t : Nat) : State :=
  let s := (s.bumpSat (Fld.CTX_CNT_NOJOB_COUNT c)).trackEdge c noSeq u t
  let s := if s.on (Fld.CTX_REJ_NOJOB_SKIP c) then s.bumpSat (Fld.CTX_SKIP_COUNT c) else s
  s.rejectNoJob c u t

/-- The head job of a context's queue, taken from it. -/
def State.takeJob (s : State) (c : Nat) : Option Job × State :=
  match (s.getCtx c).queue with
  | [] => (none, s)
  | j :: q => (some j, s.setCtx c { s.getCtx c with queue := q })

/-- The port throttle of an accepted edge: every throttled port's count advances, and the ports whose count was 0 call for a skip
(R469). -/
def State.throttled (s : State) (c : Nat) : List Nat × State :=
  (s.ctxPorts c).foldl (fun acc p =>
    if acc.2.rd (Fld.HK_CH_VAL_STATE (40 + p)) ≠ 2 then acc
    else
      let k := p * 256 + c
      let n := Store.get (fun _ => 0) acc.2.throttle k
      let div := max 1 (acc.2.rd (Fld.HK_HEAD_THR_THR_DIV p))
      let s := { acc.2 with throttle := Store.put (fun _ => 0) acc.2.throttle k ((n + 1) % div) }
      if n = 0 then (acc.1 ++ [p], s.bumpSat (Fld.HK_HEAD_THR_SKIPPED p)) else (acc.1, s)) ([], s)

/-- Whether an enabled patch of a job does not fit LINES of the set now in force (R114 step 3). -/
def State.patchPast (s : State) (c : Nat) (dw : List Word) : Bool :=
  (List.range 2).any (fun i => layerOn dw (2 + i) && decide (s.rd (Fld.CTX_LINES_LINES c) < (patchOf dw i).line0 + (patchOf dw i).lines))

/-- Whether a product or job is in scanning mode. -/
def Product.scans (x : Product) : Bool := bitOf (dwAt x.scan 0) 31

/-- Whether an accepted edge finds the products in flight full: two, or one of them or the next in scanning mode (R115, R217). -/
def State.flightFull (s : State) (c : Nat) : Bool :=
  let l := (s.getCtx c).inflight
  decide (2 ≤ l.length) || (!l.isEmpty && (s.on (Fld.SHR_CTX_SCAN_SCAN_EN c) || l.any Product.scans))

/-- Why a product that starts is aborted at its start, as status: a port that is not READY or a lost position source, a gate, a job that
never gets a block, a saturated velocity (R153, R190, R275, R280, R409). -/
def State.startAbort (s : State) (c : Nat) (j : Job) : Option Nat :=
  let ports := s.ctxPorts c
  let src := s.posSrc c
  if ports.any (fun p => !s.portReady p) || (decide (16 ≤ src) && s.vencLost (src - 16)) then some Status.abortedFault
  else if ports.any s.gated then some Status.abortedGate
  else if s.patchSize c < j.units then some Status.abortedUnderrun
  else if s.on (Fld.TRK_STAT_VSAT src) then some Status.abortedOverspeed
  else none

/-- A product starts: it captures its set, its scanning words and its zones (R108, R114, R212), maintenance on its ports yields (R449), and
what stands against it aborts it. -/
def State.startProduct (s : State) (c : Nat) (j : Job) (t : Nat) (u : Int) : State :=
  let s := s.trackEdge c j.seqNum u t
  let r := s.captureZones c
  let s := r.2
  let x := { s.newProduct c j t u with zones := r.1 }
  let s := s.addProd c x
  let s := if s.ctxState c = 2 then s else s.ctxMove c 2 0 0
  let s := (s.ctxPorts c).foldl (fun s p => s.haltWalk p) (s.yieldAxes (s.ctxPorts c))
  match s.startAbort c j with
  | none => s
  | some st => (s.abortProd c x.id .overspeed st).endProds c

/-- `throttled` on an edge of a context in state `st`: on a FAULTED context (5) it changes no register. -/
def State.throttledIn (s : State) (st c : Nat) : List Nat × State :=
  let skip := s.throttled c
  (skip.1, if st = 5 then { skip.2 with regs := s.regs } else skip.2)

/-- An accepted edge at forward position `u` (R109, R113 to R117, R127, R469). One that is throttled and also finds two products in flight
is SKIPPED_THERMAL (DESIGN CHOICE, log entry 103). -/
def State.acceptEdge (s : State) (c t : Nat) (u : Int) : State :=
  let st := s.ctxState c
  let s := s.bump (Fld.CTX_CNT_EDGE_COUNT c)
  let s := s.setCtx c { s.getCtx c with toRef := some u }
  let head := (s.getCtx c).queue.head?
  let s := if s.on (Fld.CTX_HO_STAT_COMMIT_PEND c) then s.handOver c head else s
  let skip := s.throttledIn st c
  let r := skip.2.takeJob c
  match r.1 with
  | none => r.2.noJobEdge c u t
  | some j =>
    let s := r.2
    if st = 5 then s.endJob c j Status.abortedFault t u
    else if !skip.1.isEmpty then s.endJob c j Status.skippedThermal t u
    else if s.flightFull c || s.patchPast c j.dw then s.endJob c j Status.cancelled t u
    else s.startProduct c j t u

/-- PRINT_GO_EDGE: the oldest edge on its way to context `n` reaches it (R113). -/
def execPrintGoEdge (n : Fin 255) (s : State) : Host.Outcome State Fault Refusal :=
  .next (s.unfrozen (fun s =>
    let c := n.val
    match (s.getCtx c).edges with
    | [] => s
    | t :: rest =>
      let s := s.setCtx c { s.getCtx c with edges := rest }
      let u := s.fwdAt c t
      let lock := s.rd (Fld.CTX_LOCKOUT_LOCKOUT c)
      if lock ≠ 0 ∧ (s.getCtx c).lastEdge.any (fun e => decide (travel e u < lock)) then s.bumpSat (Fld.CTX_CNT_LOCKED_COUNT c)
      else
        let s := s.setCtx c { s.getCtx c with lastEdge := some u }
        if s.ctxState c ∈ [1, 2, 5] then s.acceptEdge c t u
        else (s.bumpSat (Fld.CTX_CNT_IGNORED_COUNT c)).rejectNoJob c u t))

/-- PRINT_GO_TIMEOUT: forward travel has reached TIMEOUT with a job at the head (R117). -/
def execPrintGoTimeout (n : Fin 255) (s : State) : Host.Outcome State Fault Refusal :=
  .next (s.unfrozen (fun s =>
    let c := n.val
    let lim := s.rd (Fld.CTX_TIMEOUT_TIMEOUT c)
    match (s.getCtx c).toRef with
    | none => s
    | some r =>
      if lim ≠ 0 ∧ s.ctxState c ∈ [1, 2, 5] ∧ (lim : Int) ≤ travel r (s.fwdNow c) then
        let u := pos48 (r + lim)
        let q := s.takeJob c
        match q.1 with
        | none => s
        | some j => (q.2.setCtx c { q.2.getCtx c with toRef := some u }).endJob c j Status.noProduct s.dibNow u
      else s))

/-- Whether the forward position has reached that of a scheduled pulse (R128). -/
def State.pulseDue (s : State) (p : Pulse) : Bool := decide (travel (s.fwdOf p.src p.dir s.dibNow) p.pos ≤ 0)

/-- REJECT_PULSE: the scheduled pulses of a context or a relay entry whose position is reached are driven (R128, R411). -/
def execRejectPulse (o : PulseOwner) (s : State) : Host.Outcome State Fault Refusal :=
  .next (s.unfrozen (fun s =>
    let l := match o with
      | .context n => (s.getCtx n).pulses
      | .relay i => s.getRelay i
    let due := l.filter s.pulseDue
    let rest := l.filter (fun p => !s.pulseDue p)
    let s := due.foldl (fun s p => s.drivePulse p) s
    match o with
    | .context n => s.setCtx n { s.getCtx n with pulses := rest }
    | .relay i => s.setRelay i rest))

/-- REJECT_PULSE_END: the width of the pulse at place `k` of those active has passed (R130, R131). -/
def execRejectPulseEnd (k : Nat) (s : State) : Host.Outcome State Fault Refusal :=
  .next (s.unfrozen (fun s => { s with rejActive := s.rejActive.eraseIdx k }))

end Sys2Proof.Machine
end

