-- ==== Sys2Proof/Machine/Thermal.lean ====
section
/-! DEFINITION. The housekeeping round: samples, limits, substitution, and what they act on (R459 to R474,
spec/14_thermal_supervision.md). -/

namespace Sys2Proof.Machine

/-! ## Conversion (R461) -/

/-- Entry `i` of thermistor table `t`. -/
def State.tableEntry (s : State) (t i : Nat) : Int := signedOf 16 (s.rd (Fld.HK_TTAB_T t i))

/-- Whether a table is valid: strictly monotonic. -/
def State.tableValid (s : State) (t : Nat) : Bool :=
  (List.range 32).all (fun i => decide (s.tableEntry t i < s.tableEntry t (i + 1))) ||
  (List.range 32).all (fun i => decide (s.tableEntry t (i + 1) < s.tableEntry t i))

/-- The value of a sample: a thermistor's by its table, a self-check channel's its code, a reserved supply's 0, and every other as the
trim of region 1, which no register shows, converts it (DESIGN CHOICE, log entry 65). -/
def State.convert (s : State) (c code : Nat) (conv : Int) : Int :=
  if 24 ≤ c ∧ c < 56 then interpolate (s.tableEntry (s.rd (Fld.HK_CH_CFG_TAB c))) code
  else if 88 ≤ c then code
  else if 69 ≤ c ∧ c < 72 then 0
  else conv

/-! ## Neighbours (R465, R466) -/

/-- The class of a temperature channel: 0 on-die, 1 bridge, 2 board, 3 head. -/
def chanClass (c : Nat) : Nat := if c < 24 then 0 else if c < 32 then 1 else if c < 40 then 2 else 3

/-- The cross-check group of a channel, 0 for none; 16 to 31 written to a bridge or board channel act as 0 (R478). -/
def State.chanGroup (s : State) (c : Nat) : Nat :=
  if c < 24 then 16 + c / 3
  else if c < 40 then (if 16 ≤ s.rd (Fld.HK_CH_CFG_GROUP c) then 0 else s.rd (Fld.HK_CH_CFG_GROUP c))
  else 0

/-- The own readings of a channel's neighbours. -/
def State.neighbours (s : State) (c : Nat) : List Int :=
  if s.chanGroup c = 0 then []
  else (List.range 40).filterMap (fun i =>
    if i ≠ c ∧ chanClass i = chanClass c ∧ s.chanGroup i = s.chanGroup c ∧ s.fitted i ∧ ¬ (s.getChan i).subst then (s.getChan i).own
    else none)

def insertInt (x : Int) : List Int → List Int
  | [] => [x]
  | y :: t => if x ≤ y then x :: y :: t else y :: insertInt x t

/-- The median of readings; for an even count the mean of the two middle ones, rounded (R12, R465). -/
def median (l : List Int) : Int :=
  let a := l.foldl (fun acc x => insertInt x acc) []
  let n := a.length
  if n % 2 = 1 then a.getD (n / 2) 0 else roundDiv (a.getD (n / 2 - 1) 0 + a.getD (n / 2) 0) 2

/-- The reference of a channel: with at least two neighbours, the median of their readings. -/
def State.chanRef (s : State) (c : Nat) : Option Int :=
  let l := s.neighbours c
  if l.length < 2 then none else some (median l)

/-- The highest value in use among the valid channels of a class. -/
def State.classMax (s : State) (c : Nat) : Option Int :=
  (List.range 40).foldl (fun m i =>
    if i ≠ c ∧ chanClass i = chanClass c ∧ s.fitted i ∧ ¬ (s.getChan i).broken then
      match m, (s.getChan i).value with
      | none, v => v
      | some a, none => some a
      | some a, some b => some (max a b)
    else m) none

/-- The value in use of a broken channel, none where it is too hot; a head thermistor always is (R466). -/
def State.brokenValue (s : State) (c : Nat) (ref : Option Int) : Option Int :=
  if chanClass c = 3 then none
  else match ref with
    | some v => some v
    | none => s.classMax c

/-! ## Limits (R462, R463) -/

def sat3 (n : Nat) : Nat := min 3 (n + 1)

/-- The levels WARN, THROTTLE and SHUTDOWN of a channel; SHUTDOWN of the on-die sensors is fixed at 125 °C. -/
def State.chanLimit (s : State) (c k : Nat) : Int :=
  if k = 0 then signedOf 16 (s.rd (Fld.HK_CH_LIM0_WARN c))
  else if k = 1 then signedOf 16 (s.rd (Fld.HK_CH_LIM0_THROTTLE c))
  else if c < 24 then 125 * 16
  else signedOf 16 (s.rd (Fld.HK_CH_LIM1_SHUTDOWN c))

/-- HYST in 1/16 °C. -/
def State.hyst (s : State) (c : Nat) : Int := (max 2 (s.rd (Fld.HK_CH_LIM1_HYST c)) * 16 : Nat)

/-- One level of a channel at a sample of value `t`. -/
def State.dwellLevel (s : State) (c : Nat) (t : Int) (x : HkChan) (k : Nat) : HkChan :=
  let up := if s.chanLimit c k < t then sat3 (x.up.getD k 0) else 0
  let dn := if t < s.chanLimit c k - s.hyst c then sat3 (x.dn.getD k 0) else 0
  { x with
    up := x.up.set k up
    dn := x.dn.set k dn
    act := if up = 3 then x.act.set k true else if dn = 3 then x.act.set k false else x.act }

/-- The rate of rise at a sample, with the state; 0 until 4 samples exist. One beyond 16 bits is a free value, the spec stating none (log
entry 1). -/
def State.rateOf (s : State) (t : Int) (past : List Int) : Int × State :=
  match past[3]? with
  | none => (0, s)
  | some t4 =>
    let r := (t - t4) * 25
    if -32768 ≤ r ∧ r ≤ 32767 then (r, s)
    else
      let (f, s) := s.draw
      (signedOf 16 f.toNat, s)

/-- The rate condition at a rate. -/
def rateStep (rl ror : Int) (x : HkChan) : HkChan :=
  let rup := if rl ≠ 0 ∧ rl < ror then sat3 x.rup else 0
  let rdn := if rl ≠ 0 ∧ rl < ror then 0 else if rl = 0 ∨ 2 * ror ≤ rl then sat3 x.rdn else 0
  { x with rup := rup, rdn := rdn, ract := if rup = 3 then true else if rdn = 3 then false else x.ract }

/-- A channel's limits at a sample of the value in use `t`. -/
def State.dwell (s : State) (c : Nat) (t : Int) (x : HkChan) : HkChan × State :=
  let x := [0, 1, 2].foldl (fun y k => s.dwellLevel c t y k) x
  let r := s.rateOf t x.past
  let x := rateStep ((s.rd (Fld.HK_CH_LIM1_RATE_LIM c) * 16 : Nat) : Int) r.1 x
  ({ x with past := (t :: x.past).take 4 }, r.2.wr (Fld.HK_CH_RAW_ROR c) (patternOf 16 r.1))

/-! ## Actions (R468 to R472) -/

/-- The die state: the highest among the on-die sensors and the board channels with DIE_TIE set. -/
def State.dieLevel (s : State) : Nat :=
  (List.range 40).foldl (fun m i =>
    if (i < 24 ∨ (32 ≤ i ∧ s.on (Fld.HK_CH_CFG_DIE_TIE i))) ∧ s.fitted i then max m (s.chanLevel i) else m) 0

/-- The domains that a die shutdown switches off at once (R283, R472). -/
def shutDomains : List Domain := switchOrder.filter (fun d => decide (d ≠ .aon) && decide (d ≠ .mgmt) && decide (d ≠ .hk))

/-- A die shutdown: reported, the ports safe, the axes stopped, the domains off (R472). -/
def State.dieShutdown (s : State) (c : Nat) : State :=
  let s := s.reportLevel 0x000 (BitVec.ofNat 32 c)
  let s := (List.range 16).foldl (fun s p =>
    let cut := s.driving p && decide (s.portMode p = 2) && s.linked p
    let s := s.stopPulse p
    if cut then s.inhibit p 1 else s) s
  let s := s.faultAxes 7
  let s := shutDomains.foldl (fun s d => s.switchOff d) s
  { s with pcr := { s.pcr with dieShut := true } }

/-- The die state follows its channels; `c` is the channel that has changed it. -/
def State.dieUpdate (s : State) (c : Nat) : State :=
  let old := s.rd Fld.HK_STAT_DIE_STATE
  let now := s.dieLevel
  let s := s.wr Fld.HK_STAT_DIE_STATE now
  if now = 3 ∧ old ≠ 3 then s.dieShutdown c else s

/-- TMAX and TMIN (R473). -/
def State.showDie (s : State) : State :=
  match s.dieValues with
  | [] => s
  | v :: l => (s.wr Fld.HK_DIE_TMAX (patternOf 16 (l.foldl max v))).wr Fld.HK_DIE_TMIN (patternOf 16 (l.foldl min v))

/-- What a channel's change of state does, `old` being the state before. -/
def State.actOn (s : State) (c old : Nat) : State :=
  let now := s.chanLevel c
  if now = old then s
  else if 40 ≤ c then
    let s := s.headLeaves c old
    if now = 3 then s.reportLevel (0x050 + (c - 40)) (BitVec.ofNat 32 c) else s
  else if 24 ≤ c ∧ c < 32 then
    if now = 3 then s.faultAxis (c - 24) 6
    else if now = 2 ∧ s.axState (c - 24) = 1 then s.standstill (c - 24)
    else s
  else s

/-- A channel's new state shown, its events written and its actions taken: `kinds` are the events beside STATE and RATE, `d3` the
reading, `ref` the reference. -/
def State.settleTemp (s : State) (c : Nat) (x : HkChan) (hot : Bool) (kinds : List Nat) (d3 : Int) (ref : Int) : State :=
  let old := s.chanLevel c
  let was := (s.getChan c).ract
  let s := s.showChan c x hot
  let kinds := kinds ++ (if s.chanLevel c = old then [] else [1]) ++ (if x.ract = was then [] else [2])
  let s := kinds.foldl (fun s k => s.thermalEvent c k old (if k = 5 ∨ k = 6 then ref else d3)) s
  let s := s.actOn c old
  if c < 40 then (if c < 24 then s.showDie else s).dieUpdate c else s

/-! ## A sample (R462 to R466) -/

/-- Whether a sample is a fault (R464). -/
def State.sampleFault (s : State) (c code : Nat) (v : Int) (x : HkChan) : Bool :=
  decide (code = 0 ∨ code = 0xFFF) ||
  (decide (24 ≤ c) && !s.tableValid (s.rd (Fld.HK_CH_CFG_TAB c))) ||
  decide (v < -55 * 16 ∨ 175 * 16 < v) ||
  (match x.value with
   | none => false
   | some u => decide (640 < v - u ∨ 640 < u - v))

/-- The runs of faulted and good samples, with the kind of the event where the channel breaks or is repaired. -/
def breakStep (fault : Bool) (v : Int) (x : HkChan) : HkChan × List Nat :=
  if fault then
    let bad := sat3 x.bad
    let y := { x with own := none, bad := bad, good := 0 }
    if bad = 3 ∧ ¬ x.broken then ({ y with broken := true }, [3]) else (y, [])
  else
    let good := sat3 x.good
    let y := { x with own := some v, good := good, bad := 0 }
    if good = 3 ∧ x.broken then
      ({ y with broken := false, up := [0, 0, 0], dn := [0, 0, 0], rup := 0, rdn := 0, past := [] }, [4])
    else (y, [])

/-- The cross-check against the reference, with the kind of the event where SUBST begins or ends (R465). -/
def substStep (ref : Option Int) (x : HkChan) : HkChan × List Nat :=
  match ref, x.own with
  | none, _ => if x.subst then ({ x with subst := false, far := 0, near := 0 }, [6]) else ({ x with far := 0, near := 0 }, [])
  | some _, none => (x, [])
  | some r, some v =>
    if 192 < v - r ∨ 192 < r - v then
      let y := { x with far := sat3 x.far, near := 0 }
      if y.far = 3 ∧ ¬ x.subst then ({ y with subst := true }, [5]) else (y, [])
    else
      let y := { x with near := sat3 x.near, far := 0 }
      if y.near = 3 ∧ x.subst then ({ y with subst := false }, [6]) else (y, [])

/-- A sample of a fitted temperature channel. -/
def State.sampleTemp (s : State) (c code : Nat) (v : Int) : State :=
  let x := s.getChan c
  let hot := s.on (Fld.HK_CH_VAL_HOT c)
  let b := breakStep (s.sampleFault c code v x) v x
  let ref := s.chanRef c
  let t := substStep ref b.1
  let x := t.1
  let kinds := b.2 ++ t.2
  let value := if x.broken then s.brokenValue c ref
    else if x.subst then ref
    else match x.own with
      | some u => some u
      | none => x.value
  let x := { x with value := value }
  if x.broken && (hot || value.isNone) then
    s.settleTemp c { x with act := [true, true, true] } true kinds v (ref.getD 0)
  else
    match value with
    | none => s.settleTemp c x false kinds v (ref.getD 0)
    | some u =>
      let d := s.dwell c u x
      d.2.settleTemp c d.1 false kinds v (ref.getD 0)

/-- Every fitted temperature channel is BROKEN after ten invalid rounds (R467). -/
def State.breakAll (s : State) : State :=
  let l := (List.range 56).filter (fun c => s.fitted c && !(s.getChan c).broken)
  let s := l.foldl (fun s c => s.setChan c { s.getChan c with own := none, broken := true, bad := 3, good := 0 }) s
  l.foldl (fun s c =>
    s.settleTemp c { s.getChan c with value := none, act := [true, true, true] } true [3] ((s.getChan c).value.getD 0) 0) s

/-- The round ends with channel 95 (R459, R467). -/
def State.endRound (s : State) : State :=
  let bad := s.round.bad
  let s := (s.bump Fld.HK_CNT_ROUND_COUNT).wrBit Fld.HK_STAT_INVALID bad
  if !bad then { s with round := { s.round with runs := 0 } }
  else
    let runs := min 10 (s.round.runs + 1)
    let first := decide (s.round.runs = 9)
    let s := { s with round := { s.round with bad := false, runs := runs } }.bumpSat Fld.HK_CNT_INVALID_COUNT
    if first then (s.thermalEvent 88 7 0 0).breakAll else s

/-- A sample of a round that is valid. -/
def State.sampleChan (s : State) (c code : Nat) (conv : Int) : State :=
  let v := s.convert c code conv
  let s := s.wr (Fld.HK_CH_RAW_CODE c) code
  if 56 ≤ c then (s.setChan c { s.getChan c with value := some v }).wr (Fld.HK_CH_VAL_VALUE c) (patternOf 16 v)
  else if s.fitted c then s.sampleTemp c code v
  else s

/-- A sample with the comparators of the die and of the heads checked: an injected error is a shutdown (R496). -/
def State.checkedSample (s : State) (c code : Nat) (conv : Int) : State :=
  if s.fitted c && decide (c < 56) then
    if 40 ≤ c then
      State.injectAt (0x050 + (c - 40)) (fun s => (s.sampleChan c code conv).report (0x050 + (c - 40)) (BitVec.ofNat 32 c))
        (fun s => s.sampleChan c code conv) s
    else if c < 24 ∨ (32 ≤ c ∧ s.on (Fld.HK_CH_CFG_DIE_TIE c)) then
      State.injectAt 0x000 (fun s => (s.sampleChan c code conv).dieShutdown c) (fun s => s.sampleChan c code conv) s
    else s.sampleChan c code conv
  else s.sampleChan c code conv

/-- Whether channel `c` falls due: it is the next of the round, c × 104 µs after its start; a round starts 10 ms after the last (R459). -/
def State.sampleDue (s : State) (c : Nat) : Bool :=
  decide (c = s.round.next) && s.round.at_.all (fun t => s.past t (if c = 0 then 40000000 else c * 416000))

/-- The round goes on to the channel after `c`. -/
def State.nextSample (s : State) (c : Nat) : State :=
  { s with round := { s.round with next := (c + 1) % 96, at_ := if c = 0 then some s.tb.toNat else s.round.at_ } }

/-- CHANNEL_SAMPLE: the round samples channel `c`. `conv` is the value that the trim gives where it converts, `valid` whether the round is
valid: one whose self-check channels read outside their windows updates nothing (R467; DESIGN CHOICE, log entries 65 and 66). -/
def execChannelSample (c : Fin 96) (code : BitVec 12) (conv : Int) (valid : Bool) (s : State) : Host.Outcome State Fault Refusal :=
  .next (s.unfrozen (fun s =>
    if !(s.domOn .hk && s.sampleDue c) then s
    else
      let s := s.nextSample c
      let t := if valid then s.checkedSample c code.toNat conv else { s with round := { s.round with bad := true } }
      State.watchKeep s true (if c.val = 95 then t.endRound else t)))

/-- DIE_SHUTDOWN_FINAL: no NOR page program is under way any more, and MGMT and HK are switched off together (R472). -/
def execDieShutdownFinal (s : State) : Host.Outcome State Fault Refusal :=
  .next (s.unfrozen (fun s => if s.pcr.dieShut && s.pcr.start.isNone then (s.switchOff .mgmt).switchOff .hk else s))

end Sys2Proof.Machine
end

