-- ==== Sys2Proof/Machine/RegWrite.lean ====
section
/-! DEFINITION. What a master's write at an address does: the effect of the register's access code, and what its unit does on the write
(R15 to R22, R27, R33, R40 to R43). -/

namespace Sys2Proof.Machine

/-- A write by the access codes that leaves the bits of `keep` as they stand. -/
def State.writeKeeping (s : State) (m : Master) (a : Nat) (keep v : Word) : State :=
  s.writeCode m a ((v &&& ~~~keep) ||| (s.getReg a &&& keep))

/-! ## Host interface (spec/02_host_rings_and_doorbells.md) -/

/-- The pending bits of the MSI-X array whose vectors are no longer masked are sent (R63, R73). -/
def State.payMsix (s : State) : State :=
  if s.host.cfg.msixEn && !s.host.cfg.msixMask then
    (List.range 64).foldl (fun s v =>
      let bit : Fld := ⟨Reg.HOST_MSIX_PBA (v / 32), v % 32, v % 32⟩
      if s.on bit && !bitOf (s.getReg (Reg.HOST_MSIX_TABLE (4 * v + 3))) 0 then (s.wr bit 0).emit (s.msixMessage v) else s) s
  else s

/-- A RESUME whose re-read is not given by the command: what it brings is a free value (R71; DESIGN CHOICE, log entry 1). -/
def State.resumeFree (s : State) (k : Nat) : State :=
  let x := s.draw
  x.2.resumeRing k (if x.1.getLsbD 32 then .error else .data [x.1.truncate 32])

/-- A write in the host interface block (R63). -/
def State.writeHost (s : State) (m : Master) (a : Nat) (v : Word) : State :=
  if a = Reg.HOST_CTL then s.writeHostCtl m v
  else match idxOf Reg.OWN 32 a, idxOf Reg.HOST_MSIX_TABLE 256 a with
    | some n, _ => s.writeToken m n v
    | _, some _ => (s.writeCode m a v).payMsix
    | _, _ =>
    match idxOf Reg.HOST_RCTL 51 a, idxOf Reg.HOST_RCONS 51 a, idxOf Reg.HOST_RSTAT 51 a with
    | some k, _, _ => s.writeRctl k v
    | _, some k, _ => if 49 ≤ k then s.writeRcons k v else s
    | _, _, some k => if bitOf v 31 then s.resumeFree k else s
    | _, _, _ =>
      match idxOf Reg.HOST_RBASE_LO 51 a, idxOf Reg.HOST_RBASE_HI 51 a with
      | some k, _ => s.writeRbase m k a v
      | _, some k => s.writeRbase m k a v
      | _, _ => s.writeCode m a v

/-! ## Barrow (spec/11_barrow_dma.md) -/

/-- Chunks of bytes in flight, the first at place `i` of the buffer, with the four bytes from place `k` on replaced by `l`. -/
def overlay (k : Nat) (l : List Byte) : Nat → List (Nat × List Byte) → List (Nat × List Byte)
  | _, [] => []
  | i, p :: t =>
    (p.1, (p.2.zipIdx).map (fun y => if k ≤ i + y.2 ∧ i + y.2 < k + 4 then l.getD (i + y.2 - k) y.1 else y.1)) ::
      overlay k l (i + p.2.length) t

/-- How many bytes chunks hold. -/
def chunkBytes (l : List (Nat × List Byte)) : Nat := (l.map (fun p => p.2.length)).foldl (· + ·) 0

/-- The bytes in flight of a channel's runs, the first at place `i`, with the four from place `k` on replaced by `l`. -/
def patchRuns (k : Nat) (l : List Byte) : Nat → List DmaRun → List DmaRun
  | _, [] => []
  | i, r :: t => { r with buf := overlay k l i r.buf } :: patchRuns k l (i + chunkBytes r.buf) t

/-- The bytes in flight of a patch fetch, the first at place `i`, with the four from place `k` on replaced by `l`. -/
def State.patchFetch (s : State) (k : Nat) (l : List Byte) (i : Nat) (x : Nat × Job × Nat) : State :=
  s.onFetchId (x.2.1.fetch x.2.2).id (fun f => { f with buf := overlay k l i f.buf })

/-- The bytes in flight of a channel, the first at a place of the buffer, with the four from place `k` on replaced by `l`, and the place that
follows. -/
def State.patchChan (k : Nat) (l : List Byte) (y : State × Nat) (c : Nat) : State × Nat :=
  let ch := y.1.getChan32 c
  (y.1.setChan32 c { ch with runs := patchRuns k l y.2 ch.runs }, y.2 + (ch.runs.map (fun r => chunkBytes r.buf)).foldl (· + ·) 0)

/-- The same of the patch path. -/
def State.patchPath (k : Nat) (l : List Byte) (y : State × Nat) (x : Nat × Job × Nat) : State × Nat :=
  (y.1.patchFetch k l y.2 x, y.2 + chunkBytes (x.2.1.fetch x.2.2).buf)

/-- A master's write of a word of the shared buffer: while data has passed through it, the word may hold data in flight of a channel or of
the patch path, and the place of the word in that data is a free value (R42; DESIGN CHOICE, log entry 1). -/
def State.writeBuffer (s : State) (m : Master) (a : Nat) (v : Word) : State :=
  let s := s.writeCode m a v
  if !s.bar.used then s
  else
    let x := s.draw
    let k := x.1.toNat
    let l := wordBytes v
    let s := x.2.onBar (fun b => { b with fresh := if b.fresh.contains a then b.fresh else a :: b.fresh })
    let y := (List.range 32).foldl (State.patchChan k l) (s, 0)
    (y.1.patchList.foldl (State.patchPath k l) y).1

/-! ## The other blocks -/

/-- A write of ENCn_CFG: INV and SHIFT only while EN is clear; clearing EN takes the tracker to STILL at once (R171). -/
def State.writeEncCfg (s : State) (m : Master) (n : Nat) (v : Word) : State :=
  let was := s.on (Fld.ENC_CFG_EN n)
  let s := s.writeKeeping m (Reg.ENC_CFG n) (if was then 0x47000000 else 0) v
  if was && !s.on (Fld.ENC_CFG_EN n) then s.stillTracker n else s

/-- A write in Dibber's block (R169 to R176). -/
def State.writeDib (s : State) (m : Master) (a : Nat) (v : Word) : State :=
  match idxOf Reg.ENC_CFG 16 a with
  | some n => s.writeEncCfg m n v
  | none => s.writeCode m a v

/-- A write in Espalier's block: a plate descriptor takes effect with its last word (R185). -/
def State.writeEsp (s : State) (m : Master) (a : Nat) (v : Word) : State :=
  match idxOf Reg.PLD_W3 4096 a with
  | some d => s.writePlate m d v
  | none => s.writeCode m a v

/-- A write in Shears' block (R212, R220, R223). -/
def State.writeShr (s : State) (m : Master) (a : Nat) (v : Word) : State :=
  if a = Reg.SHR_CHECK then s.writeCheck m v
  else match idxOf Reg.SHR_ZONE_B 64 a with
    | some z => s.writeZone m z v
    | none => s.writeCode m a v

/-- A write in Graft's block; the map of an absent or retired port takes nothing (R224, R225, R227). -/
def State.writeGrf (s : State) (m : Master) (a : Nat) (v : Word) : State :=
  if a = Reg.GRF_NSET then s.setNoz (bitsOf v 19 16) (bitsOf v 11 0) (bitsOf v 31 30)
  else match idxOf Reg.GRF_SUB_W3 8192 a, idxOf Reg.GRF_MAP 4096 a with
    | some e, _ => s.writeSub m e v
    | _, some i => if s.portPresent (i / 256) then s.writeCode m a v else s
    | _, _ => s.writeCode m a v

/-- A write in a head port's block (R243, R261, R268, R276, R288, R289). -/
def State.writePort (s : State) (m : Master) (p a : Nat) (v : Word) : State :=
  if a = Reg.PORT_CFG p then s.writePortCfg m p v
  else if a = Reg.NV_CFG p then s.writeNvCfg m p v
  else if a = Reg.NV_HREG_CMD p then s.writeHregCmd m p v
  else if a = Reg.PORT_GSTAT_LO p then s.writeGstat p false v
  else if a = Reg.PORT_GSTAT_HI p then s.writeGstat p true v
  else if a ∈ [Reg.PORT_LAYOUT p, Reg.PORT_LANEMAP_LO p, Reg.PORT_LANEMAP_HI p, Reg.PORT_TIM0 p, Reg.PORT_TIM1 p] then
    if s.on (Fld.PORT_CFG_EN p) then s else s.writeCode m a v
  else match idxOf (Reg.PORT_GATE p) 48 a with
    | some g => s.writeGate m p g v none
    | none => s.writeCode m a v

/-- A write in Crevasse's block: GREQ follows the port's delays (R162, R324). -/
def State.writeCrv (s : State) (m : Master) (a : Nat) (v : Word) : State :=
  match idxOf Reg.CRV_P_CFG 16 a with
  | some p => (s.writeCode m a v).updateGreq p
  | none => s.writeCode m a v

/-- A write in Barrow's block (R375, R379). -/
def State.writeBar (s : State) (m : Master) (a : Nat) (v : Word) : State :=
  if a = Reg.BAR_CTL then (if bitOf v 0 then s.dmaRestart else s)
  else match idxOf Reg.BAR_CH_CTL 32 a with
    | some c => s.writeChanCtl m c v
    | none => s.writeCode m a v

/-- A mailbox's access is sent, or ends at once (R415). The station's own address has its request joined to those it holds. -/
def State.sendMailbox (s : State) (b : Nat) : State :=
  let dst := s.rd (Fld.RING_MBX_CMD_DST b)
  let count := s.rd (Fld.RING_MBX_CMD_COUNT b)
  let addr := 4 * s.rd (Fld.RING_MBX_ADDR_ADDR b)
  let write := s.on (Fld.RING_MBX_CMD_WRITE b)
  let tag := s.ring.tag
  let data := if write then (List.range count).map (fun i => s.getReg (Reg.RING_MBX_DATA b i)) else []
  let msg : RingMsg := .mgmt (if write then 0x02 else 0x01) tag count 0 addr data
  if count = 0 ∨ 64 < count then s.endMailbox b 5
  else if !s.ringJoined || s.on Fld.RING_STAT_DUP || !(s.rportUp 0 || s.rportUp 1) then s.endMailbox b 3
  else if dst ≠ s.ringAddr ∧ ¬ s.roster.contains dst then s.endMailbox b 4
  else
    let t := (s.onRing (fun r => { r with tag := (tag + 1) % 256, mbx := Store.put (fun _ => none) r.mbx b (some (dst, tag, s.tb.toNat)) })).wr
      (Fld.RING_MBX_CMD_BUSY b) 1
    if dst = s.ringAddr then
      if 16 ≤ (s.ring.inbox.filter (fun a => isRequest a.frame.msg)).length then
        (t.wr (Fld.RING_MBX_CMD_STATUS b) 1).endMailbox b 2
      else t.onRing (fun r => { r with inbox := r.inbox ++ [⟨0, s.tb.toNat, s.ownFrame 64 dst 0 false msg⟩] })
    else t.ringSend dst msg

/-- A write of RING_MBXm_CMD: while BUSY is set a further GO is ignored, and only the RW fields are written (R415). -/
def State.writeMailbox (s : State) (m : Master) (b : Nat) (v : Word) : State :=
  let busy := s.on (Fld.RING_MBX_CMD_BUSY b)
  let s := s.writeCode m (Reg.RING_MBX_CMD b) v
  if bitOf v 31 && !busy then (s.wr (Fld.RING_MBX_CMD_STATUS b) 0).sendMailbox b
  else s

/-- MAILBOX_GO: a write of RING_MBXm_CMD with GO set. -/
def execMailboxGo (m : Master) (b : Fin 4) (v : Word) (s : State) : Host.Outcome State Fault Refusal :=
  .next (s.unfrozen (fun s => s.accessBy m (Reg.RING_MBX_CMD b) (fun s => s.writeMailbox m b (v ||| 0x80000000))))

/-- A write in the ring's block (R387, R400, R409, R415, R422). A vote that a change of its entry completes is completed (R413). -/
def State.writeRing (s : State) (m : Master) (a : Nat) (v : Word) : State :=
  if a = Reg.RING_CFG then s.writeRingCfg m v
  else if a = Reg.RING_PTP_CFG then (s.writeCode m a v).refreshRing
  else match idxOf Reg.RING_P_CFG 2 a, idxOf Reg.RING_MBX_CMD 4 a, idxOf Reg.RING_VRX 8 a with
    | some p, _, _ => s.writeRportCfg m p v
    | _, some b, _ => s.writeMailbox m b v
    | _, _, some _ => State.settleVrx s (s.writeCode m a v)
    | _, _, _ =>
      let s := s.writeCode m a v
      if Reg.RING_VOTE_A 0 ≤ a ∧ a < Reg.RING_VOTE_A 16 then s.liveCtxs.foldl (fun s c => s.settleProds c) s else s

/-- A write in Tiller's block (R436, R437, R442, R445). -/
def State.writeTil (s : State) (m : Master) (a : Nat) (v : Word) : State :=
  if a = Reg.TIL_CTL then s.writeTilCtl v
  else match idxOf Reg.AX_CFG 8 a, idxOf Reg.AX_DHIGH 8 a, idxOf Reg.AX_DLOW 8 a, idxOf Reg.AX_CTL 8 a with
    | some x, _, _, _ => s.writeAxCfg m x v
    | _, some x, _, _ => s.writeDecel m x true v
    | _, _, some x, _ => s.writeDecel m x false v
    | _, _, _, some x => s.writeAxCtl x v
    | _, _, _, _ => s.writeCode m a v

/-- The bits of a channel's CFG that a write leaves: DIE_TIE but for the board channels, TAB for those without a table, GROUP of on-die
sensors and thermistors, FITTED of an absent port's thermistor (R478). -/
def State.chanKeep (s : State) (c : Nat) : Word :=
  (if 32 ≤ c ∧ c < 40 then 0 else 0x10000000) ||| (if 24 ≤ c ∧ c < 56 then 0 else 0x300) ||| (if 24 ≤ c ∧ c < 40 then 0 else 0x1F) |||
  (if 40 ≤ c ∧ c < 56 ∧ !s.portPresent (c - 40) then 0x80000000 else 0)

/-- A write in the housekeeping block (R464, R471, R478). -/
def State.writeHk (s : State) (m : Master) (a : Nat) (v : Word) : State :=
  match idxOf Reg.HK_CH_LIM0 96 a, idxOf Reg.HK_CH_LIM1 96 a, idxOf Reg.HK_CH_CFG 96 a with
  | some c, _, _ => if c < 56 then s.writeCode m a v else s
  | _, some c, _ => if c < 56 then s.writeKeeping m a (if c < 24 then 0xFFFF0000 else 0) v else s
  | _, _, some c =>
    if 56 ≤ c then s
    else
      let was := s.fitted c
      let s := s.writeKeeping m a (s.chanKeep c) v
      let s := if was && !s.fitted c then s.unfit c else s
      if c < 40 then s.dieUpdate c else s
  | _, _, _ => s.writeCode m a v

/-- A write in Rake's block: SEV only of a source whose severity is programmable (R485, R486, R488, R492, R496). -/
def State.writeRake (s : State) (m : Master) (a : Nat) (v : Word) : State :=
  if a = Reg.RAKE_CTL then s.writeRakeCtl v
  else if a = Reg.RAKE_ERRN then s.writeErrN m v
  else if a = Reg.RAKE_INJ_CTL then s.writeInjCtl m v
  else match idxOf Reg.RAKE_SRC_CFG 1024 a, idxOf Reg.RAKE_SCOPE 1024 a with
    | some n, _ => if s.on (Fld.RAKE_SRC_CFG_PROG n) then s.writeCode m a v else s
    | _, some sc => s.writeScope m sc v
    | _, _ => s.writeCode m a v

/-- A write in Permafrost's block (R516, R519, R525). -/
def State.writePf (s : State) (m : Master) (a : Nat) (v : Word) : State :=
  if a = Reg.PF_PROG_CTL then s.writeProgCtl m v
  else if a = Reg.PF_CTL then s.writePfCtl v
  else s.writeCode m a v

/-- A write in PCR's block (R561, R564, R575, R576, R581). -/
def State.writePcr (s : State) (m : Master) (a : Nat) (v : Word) : State :=
  if a = Reg.PCR_RST then s.writeRst v
  else if a = Reg.PCR_DOM_CTL then s.writeDomCtl v
  else if a = Reg.PCR_DOM_RST then s.writeDomRst v
  else if a = Reg.PCR_WDOG then s.writeWdog m v
  else if a = Reg.PCR_TB_INC then s.writeTbInc m v
  else if a = Reg.PCR_RET_PORT then s.writeRetPort v
  else if a = Reg.PCR_RET_BANK_LO then s.writeRetBank false v
  else if a = Reg.PCR_RET_BANK_HI then s.writeRetBank true v
  else match idxOf Reg.PCR_RET_CTX 8 a with
    | some w => s.writeRetCtx w v
    | none => s.writeCode m a v

/-- A master's write of a register word in a block that accepts it. -/
def State.writeOpen (s : State) (m : Master) (b : BlockName) (copy a : Nat) (v : Word) : State :=
  match b with
  | .host => s.writeHost m a v
  | .db => match idxOf Reg.DOORBELL 49 a with
    | some k => s.ringDoorbell k v
    | none => s
  | .ctx => if a = Reg.CTX_COMMIT copy then s.writeCommit copy v else s.writeCode m a v
  | .dib => s.writeDib m a v
  | .esp => s.writeEsp m a v
  | .shr => s.writeShr m a v
  | .grf => s.writeGrf m a v
  | .port => s.writePort m copy a v
  | .wram => (s.playNow copy).writeCode m a v
  | .crv => s.writeCrv m a v
  | .cons => s.writeCode m a v
  | .bar => s.writeBar m a v
  | .buf => s.writeBuffer m a v
  | .ring => s.writeRing m a v
  | .til => s.writeTil m a v
  | .hk => s.writeHk m a v
  | .rake => s.writeRake m a v
  | .pf => s.writePf m a v
  | .svc => s.writeCode m a v
  | .pcr => s.writePcr m a v
  | .hf => if a = Reg.HF_CTL then s.writeHfCtl v else s.writeCode m a v

/-! ## Writes -/

/-- Bytes written in the MP memory (R41). -/
def State.writeMpBytes (s : State) (a : Nat) (part : List (Option Byte)) : State :=
  { s with mp := { s.mp with mem := part.zipIdx.foldl (fun l x =>
    match x.1 with
    | none => l
    | some b => Store.put (fun _ => none) l (a + x.2) (some b)) s.mp.mem } }

/-- An access to the MP memory window: in an off domain it is reported, and during an MP restart it has no effect (R27, R37, R41). -/
def State.accessWindow (s : State) (m : Master) (a : Nat) (part : List (Option Byte)) : State :=
  if !s.domOn .mgmt then s.reportBy 0x201 (lowWord a) m
  else if s.windowOpen then s.writeMpBytes (s.windowAddr a) part
  else s

/-- A master's write of one aligned word of the register space, and of the MP memory window (R4, R15, R22, R27, R37, R41). -/
def State.writeReg (s : State) (m : Master) (a : Nat) (v : Word) : State :=
  if inWindow a then s.busCheck m a (fun s => s.accessWindow m a ((wordBytes v).map some))
  else s.busCheck m a (fun s => match s.reach a with
    | .open b c _ => s.writeOpen m b c a v
    | .absent _ _ _ => s
    | .held => s
    | .off => s.reportBy 0x201 (lowWord a) m
    | .unmapped => s.reportBy 0x200 (lowWord a) m)

/-- A master's write of the bytes that are given of an aligned word: a narrower write of a register has no effect (R15), though what it
meets is reported (R22, R27). -/
def State.writePart (s : State) (m : Master) (a : Nat) (part : List (Option Byte)) : State :=
  if part.all Option.isSome then s.writeReg m a (bytesWord (part.filterMap id))
  else if inWindow a then s.busCheck m a (fun s => s.accessWindow m a part)
  else s.accessBy m a (fun s => s)

/-- A master's write of bytes at a device address: of the dot store, 512 at a time (R34); of the register space word by word, in ascending
order (R15, R33). -/
def State.writeMem (s : State) (m : Master) (a : Nat) (l : List Byte) : State :=
  if l.isEmpty then s
  else if a < 0x4000000 then s.writeDots a ((l.take 512).map some) (some m)
  else (List.range ((a + l.length - 1) / 4 - a / 4 + 1)).foldl (fun s i =>
    s.writePart m ((a / 4 + i) * 4) (partAt a l ((a / 4 + i) * 4))) s

/-- REGISTER_WRITE: a master writes `len` bytes, the first of those of `words`, at an address. -/
def execRegisterWrite (m : Master) (a : BusAddr) (len : Nat) (words : List Word) (s : State) : Host.Outcome State Fault Refusal :=
  .next (s.unfrozen (fun s => State.watch s (s.writeMem m (deviceAddr a) ((words.flatMap wordBytes).take len))))

end Sys2Proof.Machine
end

