-- ==== Sys2Proof/Machine/HostLink.lean ====
section
/-! DEFINITION. The PCIe endpoint: host resets, the link, and the configuration space (R52 to R62,
spec/02_host_rings_and_doorbells.md). -/

namespace Sys2Proof.Machine

/-! ## Host resets (R62, R588) -/

/-- A reset of the HOST domain by PERST_N or by a Function Level Reset. During a freeze it is held. -/
def State.resetHost (s : State) (link : Bool) : State :=
  if s.hf.active then { s with hf := { s.hf with perst := true } }
  else if s.domOn .host then s.hostReset link
  else s

/-- PERST_N: the pin falls, which resets the HOST domain, or rises. -/
def execPerstN (low : Bool) (s : State) : Host.Outcome State Fault Refusal :=
  .next (
    let t := { s with host := { s.host with perstLow := low } }
    if low && !s.host.perstLow then t.resetHost false else t)

/-- FUNCTION_LEVEL_RESET: as PERST_N, with the link staying up. -/
def execFunctionLevelReset (s : State) : Host.Outcome State Fault Refusal := .next (s.resetHost true)

/-! ## The link (R52, R59, R65) -/

/-- The codes of a rate and of a width in HOST_STAT. -/
def speedCode : LinkSpeed → Nat
  | .gt2_5 => 1
  | .gt5 => 2
  | .gt8 => 3
  | .gt16 => 4
  | .gt32 => 5

def widthCode : LinkWidth → Nat
  | .x1 => 1
  | .x2 => 2
  | .x4 => 4
  | .x8 => 8

/-- The link has trained at a rate and width; lower than those of a training before, it writes LINK_CHANGE (R59, R82). -/
def State.trained (s : State) (was : Nat × Nat) (speed width : Nat) : State :=
  let s := { s with host := { s.host with speed := speed, width := width } }
  if speed < was.1 ∨ width < was.2 then s.event 0x04 0 [BitVec.ofNat 32 (speed * 2 ^ 12 + width * 2 ^ 8)] else s

/-- Whether the endpoint can hold a link: its domain is on and PERST_N is high. -/
def State.linkPossible (s : State) : Bool := s.domOn .host && !s.host.perstLow

/-- PCIE_LINK_CHANGE: the link, being up, retrains at a rate and width. -/
def execPcieLinkChange (speed : LinkSpeed) (width : LinkWidth) (s : State) : Host.Outcome State Fault Refusal :=
  .next (s.unfrozen (fun s => if s.linkPossible && s.linkUp then s.trained (s.host.speed, s.host.width) (speedCode speed) (widthCode width) else s))

/-- The link goes down: what it trained at is kept for the comparison of R59, and Barrow halts where R376 says so. -/
def State.linkDown (s : State) : State :=
  if s.linkUp then
    { s with host := { s.host with was := (s.host.speed, s.host.width), speed := 0, width := 0 } }.linkHalt
  else s

/-- PCIE_LINK_DOWN. -/
def execPcieLinkDown (s : State) : Host.Outcome State Fault Refusal := .next (s.unfrozen (fun s => if s.domOn .host then s.linkDown else s))

/-- PCIE_LINK_UP: the link completes training. -/
def execPcieLinkUp (speed : LinkSpeed) (width : LinkWidth) (s : State) : Host.Outcome State Fault Refusal :=
  .next (s.unfrozen (fun s => if s.linkPossible && !s.linkUp then s.trained s.host.was (speedCode speed) (widthCode width) else s))

/-! ## The configuration space (R43, R53 to R55, R60, R73) -/

/-- A field of the configuration state is set. -/
def State.setCfg (s : State) (f : CfgSpace → CfgSpace) : State := { s with host := { s.host with cfg := f s.host.cfg } }

/-- The revision: 0x11 for stepping B1 and 0x00 under the defaults; the spec gives no other (R53, R507, R513; DESIGN CHOICE, log entry 1). -/
def State.revision (s : State) : Nat × State :=
  if s.inForce 1 % 256 = 0xB1 then (0x11, s)
  else if s.inForce 1 % 256 = 0 then (0, s)
  else (s.draw.1.toNat % 256, s.draw.2)

/-- The word at an offset of the configuration space; what the spec does not place is a free value (DESIGN CHOICE, log entry 1). -/
def State.readConfig (s : State) (off : Nat) : Word × State :=
  if off = 0x00 then (BitVec.ofNat 32 (s.units.deviceId * 2 ^ 16 + 0x1E7C), s)
  else if off = 0x08 then let r := s.revision; (BitVec.ofNat 32 (0x11800000 + r.1), r.2)
  else if off = 0x0C then let x := s.drawWord; (x.1 &&& 0xFF00FFFF, x.2)
  else if off = 0x10 then (BitVec.ofNat 32 s.host.cfg.bar0, s)
  else if off = 0x18 then (BitVec.ofNat 32 s.host.cfg.bar2, s)
  else if off = 0x20 then (BitVec.ofNat 32 (s.host.cfg.bar4 % 2 ^ 32 + 4), s)
  else if off = 0x24 then (BitVec.ofNat 32 (s.host.cfg.bar4 / 2 ^ 32), s)
  else if off = 0x2C then (if s.regionValid 6 then BitVec.ofNat 32 (s.inForce 0x100) else 0x00001E7C, s)
  else s.drawWord

/-- A doubleword of a capability of the function: the bits that the spec gives, and their values (R52, R54, R55, R73). Their places in the
capability's structure are those of the PCI Express Base Specification (PRESUMED, log entry 88). -/
def State.capabilityWord (s : State) (c : Capability) (word : Nat) : Nat × Nat :=
  let cfg := s.host.cfg
  match c, word with
  | .power, 0 => (0x060000FF, 0x00000001)
  | .power, 1 => (0x3, if cfg.d3hot then 3 else 0)
  | .express, 0 => (0x00F000FF, 0x00000010)
  | .express, 1 => (0x10000027, 0x10000022)
  | .express, 2 => (0x71E0, (if cfg.extTag then 2 ^ 8 else 0) + (cfg.mps / 256) * 2 ^ 5 + (Nat.log2 (cfg.mrrs / 128)) * 2 ^ 12)
  | .express, 3 => (0xFFF, 0x85)
  | .express, 4 => (0x3FF0000, s.host.speed * 2 ^ 16 + s.host.width * 2 ^ 20)
  | .msix, 0 => (0xC7FF00FF, 0x003F0011 + (if cfg.msixEn then 2 ^ 31 else 0) + (if cfg.msixMask then 2 ^ 30 else 0))
  | .msix, 1 => (0xFFFFFFFF, 0x8000)
  | .msix, 2 => (0xFFFFFFFF, 0x8800)
  | .aer, 0 => (0xFFFF, 0x0001)
  | .serial, 0 => (0xFFFF, 0x0003)
  | .serial, 1 => (0xFFFFFFFF, s.units.serial % 2 ^ 32)
  | .serial, 2 => (0xFFFFFFFF, s.units.serial / 2 ^ 32 % 2 ^ 32)
  | _, _ => (0, 0)

/-- What a configuration write sets. A base takes the bits above the size of its BAR (R43); Max_Payload_Size is at most 512 bytes
(R55). -/
def State.writeConfig (s : State) : ConfigReq → State
  | .read _ => s
  | .capability _ _ => s
  | .d3hot on => s.setCfg (fun c => { c with d3hot := on })
  | .maxPayload k => s.setCfg (fun c => { c with mps := 128 * 2 ^ k.val })
  | .maxReadRequest k => s.setCfg (fun c => { c with mrrs := 128 * 2 ^ k.val })
  | .extendedTag on => s.setCfg (fun c => { c with extTag := on })
  | .msix en mask => (s.setCfg (fun c => { c with msixEn := en, msixMask := mask })).payMsix
  | .bar k base =>
    match k.val with
    | 0 => s.setCfg (fun c => { c with bar0 := base % 2 ^ 32 / 2 ^ 16 * 2 ^ 16 })
    | 1 => s.setCfg (fun c => { c with bar2 := base % 2 ^ 32 / 2 ^ 12 * 2 ^ 12 })
    | _ => s.setCfg (fun c => { c with bar4 := base % 2 ^ 64 / 2 ^ 28 * 2 ^ 28 })
  | .other _ _ => s

/-- CONFIGURATION_REQUEST: a request over the link, answered with CRS while CFG_RETRY is set (R60). -/
def execConfigurationRequest (req : ConfigReq) (s : State) : Host.Outcome State Fault Refusal :=
  .next (s.unfrozen (fun s =>
    if !s.linkPossible || !s.linkUp then s
    else if s.on Fld.HOST_STAT_CFG_RETRY then s.emit (.cfg true 0)
    else
      match req with
      | .read off => let x := s.readConfig off; x.2.emit (.cfg false x.1)
      | .capability c word =>
        let f := s.drawWord
        let x := s.capabilityWord c word
        f.2.emit (.cfg false ((f.1 &&& ~~~(BitVec.ofNat 32 x.1)) ||| BitVec.ofNat 32 x.2))
      | r => (s.writeConfig r).emit (.cfg false 0)))

end Sys2Proof.Machine
end

