-- ==== Sys2Proof/Machine/Hoarfrost.lean ====
section
/-! DEFINITION. A freeze and its release (R585 to R595, spec/19_hoarfrost_freeze.md). -/

namespace Sys2Proof.Machine

/-! ## Triggers and stopping (R585, R586) -/

/-- FREEZE_PIN: FREEZE_N has been low for 40 ns. -/
def execFreezePin (s : State) : Host.Outcome State Fault Refusal :=
  .next ({ s with hf := { s.hf with pinLow := true } }.freeze 1)

/-- FREEZE_REGISTER: a master writes HF_CTL. -/
def execFreezeRegister (m : Master) (v : Word) (s : State) : Host.Outcome State Fault Refusal :=
  .next (s.unfrozen (fun s => s.accessBy m Reg.HF_CTL (fun s => s.writeHfCtl v)))

/-- ISLAND_STOPPED: an island that takes part stops its clock; FROZEN sets with the last. -/
def execIslandStopped (i : Fin 27) (s : State) : Host.Outcome State Fault Refusal :=
  .next (if s.hf.active && s.islandTakesPart i then (s.wr ⟨Reg.HF_STAT, i, i⟩ 1).settleFrozen else s)

/-! ## Release (R594, R595) -/

/-- A time of the past moved by the length of a freeze. -/
def laterBy (d : Nat) (t : Option Nat) : Option Nat := t.map (fun t => t + d)

/-- The values of a store changed one by one. -/
def storeMap {α : Type} (f : α → α) (m : Store α) : Store α := m.map (fun x => (x.1, f x.2))

/-- The ring's time-outs and intervals start later (R595). -/
def RingSt.later (r : RingSt) (d : Nat) : RingSt :=
  { r with
    ports := storeMap (fun x => { x with began := x.began + d, own := laterBy d x.own }) r.ports
    srcs := storeMap (fun x => { x with heard := x.heard + d }) r.srcs
    due := r.due + d
    proposal := r.proposal.map (fun x => { x with sent := x.sent + d })
    lastSync := r.lastSync + d
    vtxAt := storeMap (laterBy d) r.vtxAt
    vrxAt := storeMap (fun t => t + d) r.vrxAt
    votes := r.votes.map (fun v => { v with at_ := v.at_ + d })
    mbx := storeMap (fun w => w.map (fun w => (w.1, w.2.1, w.2.2 + d))) r.mbx
    sessions := r.sessions.map (fun x => { x with unacked := x.unacked.map (fun y => { y with sent := y.sent + d }) }) }

/-- The time taken by a freeze counts toward no time-out, quiet period, watchdog or interval that State holds by the TB of its start
(R595). Which time-outs are those measured by TB, that run on, the spec does not say: those of a TB mirror, of a supply warning and of
RING_SYNC time do (DESIGN CHOICE, log entry 121). -/
def State.skipTime (s : State) (d : Nat) : State :=
  { s with
    host := { s.host with rings := storeMap (fun x => { x with since := x.since + d }) s.host.rings }
    bar := { s.bar with reads := s.bar.reads.map (fun x => { x with at_ := x.at_ + d }), bursts := storeMap (laterBy d) s.bar.bursts }
    esp := { s.esp with scrubbed := s.esp.scrubbed + d, taken := laterBy d s.esp.taken }
    axes := storeMap (fun x => { x with stood := x.stood + d }) s.axes
    ring := s.ring.later d
    rake := { s.rake with
      quiet := storeMap (fun t => t + d) s.rake.quiet
      hist := storeMap (fun l => l.map (fun t => t + d)) s.rake.hist
      lastEv := storeMap (laterBy d) s.rake.lastEv }
    injLast := laterBy d s.injLast
    round := { s.round with at_ := laterBy d s.round.at_ }
    pcr := { s.pcr with fed := s.pcr.fed + d }
    svc := { s.svc with
      trialAt := s.svc.trialAt + d
      arbAt := laterBy d s.svc.arbAt
      recAt := s.svc.recAt + d
      session := s.svc.session.map (fun x => { x with last := x.last + d }) }
    consum := storeMap (fun x => { x with since := laterBy d x.since }) s.consum }

/-- The gates of an axis are those of its bridges again (R594). -/
def State.gatesBack (s : State) (a : Nat) : State :=
  let x := s.getAxis a
  let now := s.tb.toNat
  let s := s.driveGates a false now 0 (x.coilA.gates (decide (x.coilA.at_ + s.slowDecay a ≤ now)))
  s.driveGates a true now 0 (x.coilB.gates (decide (x.coilB.at_ + s.slowDecay a ≤ now)))

/-- An axis that was moving is FROZEN with its bridges OFF and POS_VALID clear; a command that waits for it completes with the kind of a
fault stop (R439). -/
def State.thawAxis (s : State) (a : Nat) : State :=
  if s.axState a ∈ [3, 4, 5] then
    let s := s.onAxis a (fun x => { x with x := x.x / 65536 * 65536, cur := .rest })
    let s := ((s.showAxis a).wr (Fld.AX_STAT_POS_VALID a) 0).wr (Fld.AX_STAT_STATE a) 6
    ((s.bridgesOff a).clearMotion a 7).rechop a false
  else s.gatesBack a

/-- A port that was READY is not: its Névé link is down, and it waits for its mirror (R265, R595). -/
def State.thawPort (s : State) (p : Nat) : State :=
  let s := if s.portMode p = 2 ∧ s.nvStage p = 5 then s.neveLost p else s
  let s := s.cutSlot p
  if (s.getPort p).ramped then State.leaveReady s false p s else s

/-- What the units do when the clocks resume (R595); a session of the loader ends, whatever its source. A PERST_N or Function Level Reset that
was held comes first (R588). -/
def State.resumeUnits (s : State) (perst : Bool) : State :=
  let s := if perst && s.domOn .host then s.hostReset false else s.linkDown
  let s := (List.range 17).foldl (fun s i => s.uncalibrate i) s
  let s := (List.range 16).foldl (fun s p => if s.portPresent p && s.domOn (.hpg (portGroup p)) then s.thawPort p else s) s
  let s := s.boundCtxs.foldl (fun s c => s.enterFaulted c 0x0B 0) s
  let s := if s.pcr.long.isEmpty then s else s.boundCtxs.foldl (fun s c => s.enterFaulted c 0x0A 0) s
  let s := if s.domOn .place then (List.range 24).foldl (fun s n => s.stillTracker n) s else s
  let s := if s.domOn .motion then (List.range 8).foldl (fun s a => s.thawAxis a) s else s
  let s := (if s.domOn .service then s.usbDetach else s).endSession
  let s := if s.domOn .ring then (s.rportDown 0).rportDown 1 else s
  s.settleKeep.resumeOtp

/-- The controller is released, unless FREEZE_N is low (R594). -/
def State.release (s : State) : State :=
  if !s.hf.active || s.hf.pinLow then s
  else
    let perst := s.hf.perst
    let start := s.rd64 Reg.HF_TB_LO
    let s := (s.wr Fld.HF_STAT_FROZEN 0).wr Fld.HF_STAT_STOPPED 0
    let s := { s with hf := { s.hf with active := false, perst := false }, tap := { s.tap with drive := 0 } }
    let old := s
    State.watch old ((s.skipTime (s.tb.toNat - start)).resumeUnits perst)

/-- FREEZE_RELEASE_PIN: FREEZE_N returns high, which releases a freeze that it began. -/
def execFreezeReleasePin (s : State) : Host.Outcome State Fault Refusal :=
  .next (
    let t := { s with hf := { s.hf with pinLow := false } }
    if s.rd Fld.HF_STAT_CAUSE = 1 then t.release else t)

/-- RELEASE_TIMEOUT: REL_TMO ms have passed since FROZEN set, when REL_TMO is not 0. -/
def execReleaseTimeout (s : State) : Host.Outcome State Fault Refusal :=
  .next (
    let tmo := s.rd Fld.HF_CFG_REL_TMO
    if s.on Fld.HF_STAT_FROZEN && decide (tmo ≠ 0) && decide (s.hf.frozen + tmo * 4000000 ≤ s.tb.toNat) then s.release else s)

end Sys2Proof.Machine
end

