-- ==== Sys2Proof/Machine/Jtag.lean ====
section
/-! DEFINITION. The TAP: Hoarfrost's instructions and the public ones (R590 to R594, spec/19_hoarfrost_freeze.md; R626 to R628,
spec/20_pins_electrical_package.md). -/

namespace Sys2Proof.Machine

/-- The bits of a number, the least significant first. -/
def bitsFrom (n v : Nat) : List Bool := (List.range n).map (fun i => v.testBit i)

/-- What the instruction register captures, and shifts out while an instruction is loaded (R626). -/
def irCapture : Nat := 0x01

/-- An instruction is loaded, and its data register shifts out; no instruction but EXTEST, HIGHZ and CLAMP drives the pins. -/
def State.shiftOut (s : State) (ir drive : Nat) (bits : List Bool) : State :=
  ({ s with tap := { s.tap with ir := ir, drive := drive } }.emit (.tdo (bitsFrom 8 irCapture))).emit (.tdo bits)

/-! ## Read-out (R590 to R593) -/

/-- HF_SEL: the chain of an island is selected. -/
def execHfSel (n : BitVec 8) (s : State) : Host.Outcome State Fault Refusal :=
  .next (
    let t := s.shiftOut 0x30 0 (bitsFrom 8 s.tap.sel)
    { t with tap := { t.tap with sel := n.toNat } })

/-- The island of a register, numbered as R586 numbers islands; 0 is AON, which has no chain. -/
def blockIsland (b : BlockName) (copy : Nat) : Nat :=
  match b with
  | .host => 2
  | .db => 2
  | .ctx => 5
  | .dib => 5
  | .esp => 4
  | .shr => 5
  | .grf => 5
  | .port => 6 + copy
  | .wram => 6 + copy
  | .crv => 25
  | .cons => 1
  | .bar => 3
  | .buf => 3
  | .ring => 22
  | .til => 23
  | .hk => 24
  | .rake => 0
  | .pf => 0
  | .svc => 26
  | .pcr => 0
  | .hf => 0

/-- Whether an address lies in a storage array, which a test port reads and no chain holds (R593). -/
def inArray (a : Nat) : Bool :=
  (decide (Reg.PLD_W0 0 ≤ a) && decide (a ≤ Reg.PLD_W3 4095)) || (decide (Reg.GRF_MAP 0 ≤ a) && decide (a ≤ Reg.GRF_MAP 4095)) ||
  (decide (Reg.GRF_SUB_W0 0 ≤ a) && decide (a ≤ Reg.GRF_SUB_W3 8191)) ||
  (decide (0x4300000 ≤ a) && decide (a < 0x4400000)) || (decide (0x4440000 ≤ a) && decide (a < 0x4480000))

/-- The island that holds the register at an address: a drop counter lies in its port's (R356). -/
def islandOf (a : Nat) : Option Nat :=
  (blockOf a).map (fun x => match dropPort a with
    | some p => 6 + p
    | none => blockIsland x.1.name x.2.1)

/-- The addresses of an island's registers, ascending. -/
def islandRegs (i : Nat) : List Nat :=
  ((List.range 0x400000).map (fun k => 0x4000000 + 4 * k)).filter (fun a => decide (islandOf a = some i) && (rowOf a).isSome && !inArray a)

/-- The word of a register in a chain, as its register map lays it out. -/
def State.chainWord (s : State) (a : Nat) : Word :=
  match blockOf a with
  | none => 0
  | some (b, c, off) => s.viewReg .mp b.name c off a

/-- The header of a chain (R591). -/
def chainHeader (i : Nat) (frozen : Bool) (len : Nat) : List Bool := bitsFrom 64 (len + (if frozen then 2 ^ 55 else 0) + i * 2 ^ 56)

/-- The internal flip-flops of an island: as many free bits as the stepping has, which the spec does not state (R591; DESIGN
CHOICE, log entry 1). -/
def State.flipFlops (s : State) : List Bool × State :=
  let n := s.draw.1.toNat % 2 ^ 24
  let s := s.draw.2
  ((List.range n).map (fun i => (Config.freeWord (s.free + i)).getLsbD 0), { s with free := s.free + n })

/-- The chain of an island: header, registers and flip-flops; the header alone while the island is not stopped (R591). -/
def State.islandChain (s : State) (i : Nat) : List Bool × State :=
  if s.islandStopped i then
    let regs := (islandRegs i).flatMap (fun a => bitsFrom 32 (s.chainWord a).toNat)
    let x := s.flipFlops
    (chainHeader i true (regs.length + x.1.length) ++ regs ++ x.1, x.2)
  else (chainHeader i false 0, s)

/-- The AON status chain (R592). -/
def State.aonChain (s : State) : List Bool :=
  chainHeader 0 (s.on Fld.HF_STAT_FROZEN) 448 ++
  ([Reg.HF_ID, Reg.HF_CFG, Reg.HF_STAT, Reg.HF_TB_LO, Reg.HF_TB_HI, Reg.HF_CNT, Reg.RAKE_FIRST_SRC, Reg.RAKE_FIRST_TB_LO,
    Reg.RAKE_FIRST_TB_HI, Reg.RAKE_FIRST_SYND_LO, Reg.RAKE_FIRST_SYND_HI, Reg.PCR_STAT, Reg.PCR_SUP_STAT, Reg.PCR_RST_CAUSE]).flatMap
      (fun a => bitsFrom 32 (s.chainWord a).toNat)

/-- HF_READ: the selected chain shifts out, in whole; 27 to 255 select none. -/
def execHfRead (s : State) : Host.Outcome State Fault Refusal :=
  .next (
    if s.tap.sel = 0 then s.shiftOut 0x31 0 s.aonChain
    else if s.tap.sel ≤ 26 then
      let x := s.islandChain s.tap.sel
      x.2.shiftOut 0x31 0 x.1
    else s.shiftOut 0x31 0 [])

/-- The word of a stopped island's storage array at an address, as stored: one of the shared buffer through which data has passed since it
was written is a free value (R593; DESIGN CHOICE, log entry 1). -/
def State.arrayWord (s : State) (a : Nat) : Word × State :=
  if a < 0x4000000 then
    if s.islandStopped 4 && s.bankPresent (bankOf a) && s.domOn (bankDomain (bankOf a)) then
      (bytesWord ((List.range 4).map (fun i => s.readByte (a + i))), s)
    else (0, s)
  else if 0x20000000 ≤ a ∧ a < 0x20200000 then (if s.islandStopped 1 then s.mpWord (a - 0x20000000) else (0, s))
  else if inArray a && (islandOf a).any (fun i => s.islandStopped i) then
    if 0x4440000 ≤ a ∧ a < 0x4480000 ∧ s.bar.used ∧ !s.bar.fresh.contains (a / 4 * 4) then s.drawWord else (s.getReg a, s)
  else (0, s)

/-- HF_MEM: Capture brings the word at the address taken before, and Update takes a new one. -/
def execHfMem (a : BitVec 32) (s : State) : Host.Outcome State Fault Refusal :=
  .next (
    let x := s.arrayWord (s.tap.mem / 4 * 4)
    let t := x.2.shiftOut 0x32 0 (bitsFrom 32 x.1.toNat)
    { t with tap := { t.tap with mem := a.toNat } })

/-- The data register of HF_CTL at Capture: FROZEN in bit 7, CAUSE in bits [6:4]. -/
def State.hfCtlBits (s : State) : List Bool := bitsFrom 8 (s.rd Fld.HF_STAT_CAUSE * 16 + s.rd Fld.HF_STAT_FROZEN * 128)

/-- HF_CTL_FREEZE: Update with FREEZE set. -/
def execHfCtlFreeze (s : State) : Host.Outcome State Fault Refusal := .next ((s.shiftOut 0x33 0 s.hfCtlBits).freeze 4)

/-- HF_CTL_RELEASE: Update with RELEASE set. -/
def execHfCtlRelease (s : State) : Host.Outcome State Fault Refusal := .next (s.shiftOut 0x33 0 s.hfCtlBits).release

/-! ## The public instructions (R626 to R628) -/

/-- TAP_RESET: IDCODE is selected, and the pins are the units' again. -/
def execTapReset (s : State) : Host.Outcome State Fault Refusal := .next { s with tap := TapSt.reset }

/-- IDCODE: version, DEVICE_ID, Kamuc's identity, and 1. -/
def execIdcode (s : State) : Host.Outcome State Fault Refusal :=
  .next (s.shiftOut 0x01 0 (bitsFrom 32 (1 * 2 ^ 28 + s.units.deviceId * 2 ^ 12 + 0x5E3 * 2 + 1)))

/-- SAMPLE_PRELOAD: the pins are sampled and shift out, and the cells are loaded. -/
def execSamplePreload (pins cells : List Bool) (s : State) : Host.Outcome State Fault Refusal :=
  .next (
    let t := s.shiftOut 0x02 0 pins
    { t with tap := { t.tap with scan := cells } })

/-- Whether an instruction that drives the pins takes effect: RESET_N is low, or the controller is frozen (R627). -/
def State.mayDrive (s : State) : Bool := s.on Fld.HF_STAT_FROZEN || (s.pcr.start.getD []).contains 30

/-- BYPASS: one bit, which captures 0. -/
def State.bypass (s : State) (ir : Nat) : State := s.shiftOut ir 0 [false]

/-- EXTEST: the cells drive the pins, or the instruction acts as BYPASS. -/
def execExtest (pins cells : List Bool) (s : State) : Host.Outcome State Fault Refusal :=
  .next (
    if s.mayDrive then
      let t := s.shiftOut 0x03 3 pins
      { t with tap := { t.tap with scan := cells } }
    else s.bypass 0x03)

/-- HIGHZ: the outputs are in high impedance, or the instruction acts as BYPASS. -/
def execHighz (s : State) : Host.Outcome State Fault Refusal :=
  .next (if s.mayDrive then s.shiftOut 0x04 4 [false] else s.bypass 0x04)

/-- CLAMP: the cells clamp the outputs, or the instruction acts as BYPASS. -/
def execClamp (s : State) : Host.Outcome State Fault Refusal :=
  .next (if s.mayDrive then s.shiftOut 0x05 5 [false] else s.bypass 0x05)

/-- BYPASS. -/
def execBypass (s : State) : Host.Outcome State Fault Refusal := .next (s.bypass 0xFF)

end Sys2Proof.Machine
end

