-- ==== Sys2Proof/Machine/Loads.lean ====
section
/-! DEFINITION. The commands that load tables, configurations and references, and the read of a setting (R313 to R316, R334 to R336, R450,
R553). -/

namespace Sys2Proof.Machine

/-! ## Rose (R313 to R316, spec/08_rose_pulse_shaping.md) -/

/-- The first steps of a Rose command: the port it names, and its refusal where a reserved bit is set or the port is absent, also one
retired since the command began (R7). A reserved bit has no code of R316. -/
def State.roseCommand (s : State) (op : Nat) (layout : List Nat) (act : State → MpCmd → Nat → State) : State :=
  match s.loadCommand op with
  | none => s
  | some c =>
    if c.desc.reservedSet (commandLayout layout) then s.endCommand c.desc Status.descError 0
    else if !s.portPresent (c.desc.fld 2 3 0) then s.endCommand c.desc Status.unitAbsent 0
    else act s c (c.desc.fld 2 3 0)

/-- Whether the MP may go on with a command under token `n`: it has begun, or no other master holds the token (R50). -/
def State.mayLoad (s : State) (n : Nat) : Bool := s.mp.cmd.isSome || s.mpMay n

/-- The registers of a port are written: where its domain is off the access is reported and has no effect (R27). -/
def State.onPortRegs (s : State) (p a : Nat) (f : State → State) : State :=
  if s.domOn (.hpg (portGroup p)) then f s else s.reportBy 0x201 (BitVec.ofNat 32 a) .mp

/-- The samples of a slot, from bytes two each; an odd one leaves the other half of its word. -/
def State.putSamples (s : State) (p w : Nat) (l : List Nat) : State :=
  (List.range ((l.length / 2 + 1) / 2)).foldl (fun s i =>
    let a := Reg.WAVE_RAM p (w * 1024 + i)
    let lo := leNat (sliceOf l (4 * i) 2)
    let hi := if l.length / 2 ≤ 2 * i + 1 then bitsOf (s.getReg a) 31 16 else leNat (sliceOf l (4 * i + 2) 2)
    s.setReg a (BitVec.ofNat 32 (lo + 2 ^ 16 * hi))) s

/-- The ends END0 to END6 that a WAVE_LOAD gives. -/
def waveEnds (d : Desc) : List Nat :=
  [d.fld 6 11 0, d.fld 6 27 16, d.fld 7 11 0, d.fld 7 27 16, d.fld 8 11 0, d.fld 8 27 16, d.fld 9 11 0]

/-- The slot registers that a WAVE_LOAD gives, LOADING clear. -/
def State.putSlot (s : State) (p w : Nat) (d : Desc) : State :=
  let s := s.setReg (Reg.ROSE_WAVE_LEN p w) (BitVec.ofNat 32 (d.fld 10 3 0 * 2 ^ 16 + d.fld 3 11 0))
  let s := (s.setReg (Reg.ROSE_WAVE_END01 p w) (dwAt d.dw 6)).setReg (Reg.ROSE_WAVE_END23 p w) (dwAt d.dw 7)
  let s := (s.setReg (Reg.ROSE_WAVE_END45 p w) (dwAt d.dw 8)).setReg (Reg.ROSE_WAVE_END6 p w) (dwAt d.dw 9)
  let s := s.setReg (Reg.ROSE_WAVE_MASK p w) (BitVec.ofNat 32 (d.fld 10 31 8))
  (s.setReg (Reg.ROSE_WAVE_CALG p w) (dwAt d.dw 11)).setReg (Reg.ROSE_WAVE_CALF p w) (dwAt d.dw 12)

/-- The samples that have arrived are written, the slot being LOADING (R313). -/
def State.loadSlot (s : State) (p w : Nat) (l : List Nat) : State :=
  s.onPortRegs p (Reg.WAVE_RAM p (w * 1024)) (fun s => ((s.playNow p).wr (Fld.ROSE_WAVE_LEN_LOADING p w) 1).putSamples p w l)

/-- Whether a slot is the active slot of a READY port (R295, R313). -/
def State.slotInUse (s : State) (p w : Nat) : Bool := s.portReady p && decide (s.forcedSlot p = w)

/-- The source read of a WAVE_LOAD has failed: the slot stays LOADING unless it is in use, and how many of the samples that arrived last
were written is a free value (R313, R316; DESIGN CHOICE, log entry 1). -/
def State.failLoad (s : State) (c : MpCmd) (p w : Nat) (l : List Nat) : State :=
  let begun := s.mp.cmd.isSome
  if !begun && (s.slotInUse p w || !s.mpMay 4) then s.endCommand c.desc Status.descError 5
  else
    let f := s.draw
    let n := c.fed.length / 2 + f.1.toNat % ((l.length - c.fed.length) / 2 + 1)
    (f.2.loadSlot p w (l.take (2 * n))).endCommand c.desc Status.descError 5

/-- WAVE_LOAD (0x20): one slot of a port, whose samples come in one or more steps. -/
def execWaveLoad (src : HostRead) (s : State) : Host.Outcome State Fault Refusal :=
  .next (s.unfrozen (fun s => State.watch s (s.roseCommand 0x20 [0x70F, 0x10FFF, 0xFFFFFFFF, 0xFFFFFFFF, 0xFFF0FFF, 0xFFF0FFF, 0xFFF0FFF, 0xFFF, 0xFFFFFF0F, 0xFFFF,
      0x1FFF1FFF] (fun s c p =>
    let d := c.desc
    let w := d.fld 2 10 8
    let len := d.fld 3 11 0
    if len = 0 ∨ 2048 < len then s.endCommand d Status.descError 1
    else if !windowsOk (d.fld 10 3 0) len (waveEnds d) then s.endCommand d Status.descError 2
    else if !recordOk (d.fld 12 12 0) (d.fld 12 28 16) then s.endCommand d Status.descError 3
    else
      let x := s.feed (bitOf (dwAt d.dw 3) 16) (d.wide 4) (2 * len) c.fed src
      match x.1.state with
      | .failed => x.2.failLoad c p w x.1.bytes
      | got =>
        if s.mp.cmd.isNone && x.2.slotInUse p w then x.2.endCommand d Status.busy 0x10
        else if !x.2.mayLoad 4 then x.2.endCommand d Status.busy 0
        else
          let t := x.2.loadSlot p w x.1.bytes
          if got = .more then t.holdCommand c (some 4) x.1.bytes
          else (t.onPortRegs p (Reg.WAVE_RAM p (w * 1024)) (fun s => s.putSlot p w d)).endCommand d Status.ok 0))))

/-- The heats of bin `b` in a table of 48 words, four bytes each. -/
def tableHeats (l : List Nat) (b : Nat) : List Heat :=
  (List.range 3).map (fun i => heatOf (BitVec.ofNat 32 (leNat (sliceOf l (4 * (3 * b + i)) 4))))

/-- The first bin of a table with the lowest error of R299, with that error (R314, R636). -/
def firstBadBin (mode maxlen : Nat) (l : List Nat) : Option (Nat × Nat) :=
  ([6, 7, 8].filterMap (fun k => ((List.range 16).find? (fun b => decide (binError mode maxlen (tableHeats l b) = k))).map (fun b => (b, k)))).head?

/-- MAXLEN in force on a port: what a quiet point last put in force, or what is written while none has (R306, R314). -/
def State.maxlenNow (s : State) (p : Nat) : Nat :=
  if (s.getPort p).force.isSome then s.forcedMaxlen p else s.rd (Fld.ROSE_THERM_MAXLEN p)

/-- The thermal table and record of a port are those of a THERMAL_LOAD. -/
def State.putThermal (s : State) (p : Nat) (d : Desc) (l : List Nat) : State :=
  s.onPortRegs p (Reg.ROSE_TH p 0 0) (fun s =>
    let s := (List.range 48).foldl (fun s i =>
      s.setReg (Reg.ROSE_TH p (i / 3) (i % 3)) (BitVec.ofNat 32 (leNat (sliceOf l (4 * i) 4)))) s
    (s.setReg (Reg.ROSE_TCALG p) (dwAt d.dw 6)).setReg (Reg.ROSE_TCALF p) (dwAt d.dw 7))

/-- THERMAL_LOAD (0x21): the thermal table and record of a port, which become the ones in force in the final step. -/
def execThermalLoad (src : HostRead) (s : State) : Host.Outcome State Fault Refusal :=
  .next (s.unfrozen (fun s => State.watch s (s.roseCommand 0x21 [0xF, 0x10000, 0xFFFFFFFF, 0xFFFFFFFF, 0xFFFF, 0x1FFF1FFF] (fun s c p =>
    let d := c.desc
    if !recordOk (d.fld 7 12 0) (d.fld 7 28 16) then s.endCommand d Status.descError 3
    else
      let x := s.feed (bitOf (dwAt d.dw 3) 16) (d.wide 4) 192 c.fed src
      match x.1.state with
      | .failed => x.2.endCommand d Status.descError 5
      | .more => x.2.holdCommand c none x.1.bytes
      | .whole =>
        match firstBadBin (x.2.portMode p) (x.2.maxlenNow p) x.1.bytes with
        | some (b, k) => x.2.endCommand d Status.descError (b * 256 + k)
        | none =>
          if !x.2.mpMay 4 then x.2.endCommand d Status.busy 0
          else (x.2.putThermal p d x.1.bytes).endCommand d Status.ok 0))))

/-- DROOP_LOAD (0x22): the droop table of a port, unchecked. -/
def execDroopLoad (src : HostRead) (s : State) : Host.Outcome State Fault Refusal :=
  .next (s.unfrozen (fun s => s.roseCommand 0x22 [0xF, 0x10000, 0xFFFFFFFF, 0xFFFFFFFF] (fun s c p =>
    let d := c.desc
    let x := s.feed (bitOf (dwAt d.dw 3) 16) (d.wide 4) 66 c.fed src
    match x.1.state with
    | .failed => x.2.endCommand d Status.descError 5
    | .more => x.2.holdCommand c none x.1.bytes
    | .whole =>
      if !x.2.mpMay 4 then x.2.endCommand d Status.busy 0
      else
        (x.2.onPortRegs p (Reg.ROSE_DROOP p 0) (fun s =>
          (List.range 33).foldl (fun s i => s.wr (Fld.ROSE_DROOP_D p i) (leNat (sliceOf x.1.bytes (2 * i) 2))) s)).endCommand d Status.ok 0)))

/-! ## Crevasse (R334 to R336, spec/09_crevasse_nozzle_health.md) -/

/-- The list of a CREVASSE_REF as class and nozzle; none where an entry is not one. -/
def refEntries (noz : Nat) (l : List Nat) (n : Nat) : Option (List (Nat × Nat)) :=
  (List.range n).foldr (fun i acc =>
    let e := leNat (sliceOf l (2 * i) 2)
    if e / 2 ^ 13 = 0 ∨ 5 < e / 2 ^ 13 ∨ e / 2 ^ 12 % 2 = 1 ∨ noz ≤ e % 2 ^ 12 then none
    else acc.map (fun t => (e / 2 ^ 13, e % 2 ^ 12) :: t)) (some [])

/-- The refusals of a CREVASSE_REF after its list has come, in the order of R336: status and RESULT. -/
def State.refRefusal (s : State) (p : Nat) : Option (Nat × Nat) :=
  if s.ctxState 0 ≠ 1 ∨ ¬ s.ctxOnPort 0 p then some (Status.ctxState, 0)
  else if !s.on Fld.CRV_STAT_SEQ_OK || !s.portReady p || s.forcedThermal p || !s.tickleOk p ||
      (decide (s.portMode p = 2) && (s.getSense p).noHead) then some (Status.ctxState, 2)
  else if s.printsOn p || !s.mpMay 5 then some (Status.busy, 0)
  else none

/-- The walk of a CREVASSE_REF begins: from now on the command is in execution under token 5. -/
def State.beginWalk (s : State) (d : Desc) (p : Nat) (l : List (Nat × Nat)) : State :=
  let t := s.beginCommand d (some 5) []
  ({ t with walk := some ⟨d, p, d.fld 3 23 16, l, 0, 0, [], 0, false, s.mirrorNow p⟩ }.wr Fld.CRV_STAT_REF_BUSY 1).senseNext p 2

/-- CREVASSE_REF (0x40): a walk over the head begins, or is refused in the order of R336. -/
def execCrevasseRef (list : HostRead) (s : State) : Host.Outcome State Fault Refusal :=
  .next (s.unfrozen (fun s => State.watch s (
    match (if s.walk.isSome then none else s.loadCommand 0x40) with
    | none => s
    | some c =>
      let d := c.desc
      let p := d.fld 2 3 0
      let n := d.fld 3 12 0
      if !s.portPresent p then s.endCommand d Status.unitAbsent 0
      else if d.reservedSet (commandLayout [0xF, 0x80FF1FFF, 0xFFFFFFFF, 0xFFFFFFFF]) || decide (n = 0) || decide (4096 < n) ||
          decide (d.fld 3 23 16 = 0) then s.endCommand d Status.descError 1
      else
        let x := s.feed (bitOf (dwAt d.dw 3) 31) (d.wide 4) (2 * n) c.fed list
        match x.1.state with
        | .failed => x.2.endCommand d Status.descError 5
        | .more => x.2.holdCommand c none x.1.bytes
        | .whole =>
          match refEntries (x.2.rd (Fld.PORT_CFG_NOZ p)) x.1.bytes n with
          | none => x.2.endCommand d Status.descError 1
          | some l =>
            match x.2.refRefusal p with
            | some r => x.2.endCommand d r.1 r.2
            | none => x.2.beginWalk d p l)))

/-! ## Tiller (R450, R453, spec/13_tiller_motion.md) -/

/-- The words of an axis image that an AXIS_CONFIG writes: all but those at +0x0C and +0x3C (R450). -/
def imageWords : List Nat := (List.range 15).filter (fun i => i ≠ 3)

/-- The profile of an axis image. -/
def imageProfile (l : List Nat) : Profile :=
  let w := fun i => leNat (sliceOf l (4 * i) 4)
  ⟨w 4, w 5, w 6, w 7, w 8, w 9, w 11, w 10⟩

/-- AXIS_CONFIG (0x30): an image of an axis's registers is read whole, checked, and written in one update. -/
def execAxisConfig (src : HostRead) (s : State) : Host.Outcome State Fault Refusal :=
  .next (s.unfrozen (fun s =>
    match s.loadCommand 0x30 with
    | none => s
    | some c =>
      let d := c.desc
      let a := d.fld 2 2 0
      if d.reservedSet (commandLayout [7, 0x10000, 0xFFFFFFFC, 0xFFFFFFFF]) then s.endCommand d Status.descError 1
      else
        let x := s.feed (bitOf (dwAt d.dw 3) 16) (d.wide 4) 64 c.fed src
        match x.1.state with
        | .failed => x.2.endCommand d Status.descError 5
        | .more => x.2.holdCommand c none x.1.bytes
        | .whole =>
          if !(imageProfile x.1.bytes).valid then x.2.endCommand d Status.descError 2
          else if !(x.2.domOn .motion && x.2.on Fld.TIL_STAT_SEQ_OK) then x.2.endCommand d Status.busy 0x10
          else if !x.2.mpMay 3 then x.2.endCommand d Status.busy 0
          else
            (imageWords.foldl (fun s i =>
              s.writeReg .mp (Reg.AX_CFG a + 4 * i) (BitVec.ofNat 32 (leNat (sliceOf x.1.bytes (4 * i) 4)))) x.2).endCommand d Status.ok 0))

/-! ## Settings (R553, spec/17_firmware_update.md) -/

/-- SETTINGS_READ (0x61): the standing value of a key is written where the command says; `ok` tells whether the host takes it. -/
def execSettingsRead (ok : Bool) (s : State) : Host.Outcome State Fault Refusal :=
  .next (s.unfrozen (fun s => State.watch s (
    match s.nextCommand 0x61 with
    | none => s
    | some d =>
      let key := d.fld 2 15 0
      if d.reservedSet (commandLayout [0x8000FFFF, 0, 0xFFFFFFFF, 0xFFFFFFFF]) || decide (key = 0) || decide (key = 0xFFFF) then
        s.finish d Status.descError 1
      else
        match s.settingIn s.settingsCopy key with
        | none => s.finish d Status.ok 0
        | some v =>
          let b := v.map (fun x => BitVec.ofNat 8 x)
          let done := 1 + 256 * v.length
          if bitOf (dwAt d.dw 2) 31 then (s.writeMem .mp (d.wide 4) b).finish d Status.ok done
          else if ok && s.hostBus then (s.emit (.dma (d.wide 4) b)).finish d Status.ok done
          else s.finish d Status.descError 5)))

end Sys2Proof.Machine
end

