-- ==== Sys2Proof/Machine/Mgmt.lean ====
section
/-! DEFINITION. The management tunnel of the ring: requests, replies and the time-out of a mailbox (R414, R415,
spec/12_tchitric_line_ring.md). -/

namespace Sys2Proof.Machine

/-- A reply goes to the station that asked; the station's own goes the same path inside it (R415). -/
def State.sendReply (s : State) (dst : Nat) (m : RingMsg) : State :=
  if dst = s.ringAddr then s.onRing (fun r => { r with inbox := r.inbox ++ [⟨0, s.tb.toNat, s.ownFrame 64 dst 0 false m⟩] })
  else s.ringSend dst m

/-- Whether a request is malformed (R414). -/
def mgmtBad (count addr : Nat) : Bool :=
  decide (count = 0) || decide (64 < count) || decide (addr % 4 ≠ 0) || decide (0x0FFFFFFF < addr)

/-- A request of station `src` is executed as master 0x40 + `src`, and answered with the same TAG (R28, R29, R33, R414). -/
def State.serveMgmt (s : State) (src op tag count addr : Nat) (data : List Word) : State :=
  if mgmtBad count addr then s.sendReply src (.mgmt 0xFF tag count 2 addr [])
  else if op = 0x01 then
    let x := s.readMem (.tunnel (Fin.ofNat 64 src)) addr (4 * count)
    x.2.sendReply src (.mgmt 0x81 tag count 0 addr (x.1.map (fun r => r.2)))
  else (State.watch s (s.writeMem (.tunnel (Fin.ofNat 64 src)) addr ((data.take count).flatMap wordBytes))).sendReply src (.mgmt 0x82 tag count 0 addr [])

/-- The mailbox that waits for a reply of a station with a TAG (R415). -/
def State.mailboxOf (s : State) (src tag : Nat) : Option Nat :=
  (List.range 4).find? (fun b => (Store.get (fun _ => none) s.ring.mbx b).any (fun w => w.1 == src && w.2.1 == tag))

/-- A reply ends its mailbox: the data of a read, and STATUS of an error (R415, R423). One that no mailbox waits for is discarded. -/
def State.takeReply (s : State) (src op tag status : Nat) (data : List Word) : State :=
  match s.mailboxOf src tag with
  | none => s
  | some b =>
    if op = 0xFF then (s.wr (Fld.RING_MBX_CMD_STATUS b) status).endMailbox b 2
    else
      let s := if op = 0x81 then
          ((data.take 64).zipIdx).foldl (fun s x => s.setReg (Reg.RING_MBX_DATA b x.2) x.1) s
        else s
      s.endMailbox b 0

/-- MGMT: the oldest admitted frame is a management message: a request is executed, a reply ends a mailbox. -/
def execMgmt (s : State) : Host.Outcome State Fault Refusal :=
  .next (s.unfrozen (fun s =>
    match s.takeFrame (fun m => match m with | .mgmt .. => true | _ => false) with
    | none => s
    | some (a, s) =>
      match a.frame.msg with
      | .mgmt op tag count status addr data =>
        if isRequest a.frame.msg then s.serveMgmt a.frame.src op tag count addr data
        else if op = 0x81 ∨ op = 0x82 ∨ op = 0xFF then s.takeReply a.frame.src op tag status data
        else s
      | _ => s))

/-- MBX_TMO in TB units: ms, 0 applying 1 (R422). -/
def State.mbxTmo (s : State) : Nat := max 1 (s.rd Fld.RING_CFG_MBX_TMO) * 4000000

/-- MAILBOX_TIMEOUT: MBX_TMO ms have passed without a reply (R415). -/
def execMailboxTimeout (b : Fin 4) (s : State) : Host.Outcome State Fault Refusal :=
  .next (s.unfrozen (fun s =>
    if s.domOn .ring && (Store.get (fun _ => none) s.ring.mbx b).any (fun w => s.past w.2.2 s.mbxTmo) then s.endMailbox b 1 else s))

end Sys2Proof.Machine
end

