-- ==== Sys2Proof/Machine/Schedule.lean ====
section
/-! DEFINITION. The source stage and the context stage of Dibber, and the TB mirrors (R138 to R140, R149 to R166, R214 to R218). -/

namespace Sys2Proof.Machine

/-! ## Mirrors (R138 to R140) -/

/-- Every product in flight with a line released or committed on port `p` (R140). -/
def State.slipPort (s : State) (p : Nat) : State :=
  s.liveCtxs.foldl (fun s c =>
    s.abortCtx c (fun x => (s.getPort p).lines.any (fun l => l.key.ctx == c && l.key.prod == x.id)) .overspeed Status.abortedFault) s

/-- Every product in flight of every context that `which` names is aborted with a status, its committed lines firing. -/
def State.abortAll (s : State) (which : Nat → Bool) (status : Nat) : State :=
  s.liveCtxs.foldl (fun s c => if which c then s.abortCtx c (fun _ => true) .overspeed status else s) s

/-- What a synchronisation finds at mirror `i`, in units of 2^-24: the mirror's offset, and what its crossing of `cross` TB units took beyond
the calibrated latency (R138). -/
def State.syncFound (s : State) (i cross : Nat) : Int := (s.getMirror i).off + ((cross : Int) - (s.getMirror i).lat) * 2 ^ 24

/-- A slip of mirror `i`, found `off` TB units from the master: it takes the master's value, and the products that R140 names abort. -/
def State.slip (s : State) (i : Nat) (off : Int) : State :=
  let s := s.setMirror i { s.getMirror i with off := 0, left := 0, inc := s.tbInc }
  let s := s.report 0x003 (BitVec.ofNat 32 (i + patternOf 16 off * 2 ^ 16))
  if i = 16 then s.abortAll (fun _ => true) Status.abortedFault else s.slipPort i

/-- TB_SYNC: mirror `i` is synchronised, by a value that took `cross` TB units to reach it: it adopts TB_INC, and corrects the offset found,
or beyond 4 units slips (R138, R140). -/
def execTbSync (i : Fin 17) (cross : Nat) (s : State) : Host.Outcome State Fault Refusal :=
  .next (s.unfrozen (fun s =>
    let e := s.syncFound i cross
    if !s.clockRuns i || !(s.getMirror i).cal then s
    else State.injectAt 0x003 (fun s => s.slip i (roundDiv e (2 ^ 24)))
      (fun s => if e.natAbs ≤ 4 * 2 ^ 24 then s.setMirror i { s.getMirror i with left := e, inc := s.tbInc }
        else s.slip i (roundDiv e (2 ^ 24))) s))

/-- Mirror `i`, whose clock runs, has measured its 256 round trips, in TB units. Half their median is its crossing latency, and the mirror
stands at the master's value with its increment (R139; DEDUCED, log entry 115). -/
def State.calibrate (s : State) (i : Fin 17) (trips : List Nat) : State :=
  s.unfrozen (fun s =>
    if s.clockRuns i then
      State.watch s (s.setMirror i { Mirror.reset with inc := s.tbInc, lat := (roundDiv (twiceMedian trips : Nat) 4).toNat, cal := true })
    else s)

/-- MIRROR_CALIBRATED: a mirror, given with the round trips it has measured, completes its calibration. -/
def execMirrorCalibrated (c : Fin 17 × List Nat) (s : State) : Host.Outcome State Fault Refusal := .next (s.calibrate c.1 c.2)

/-! ## The source stage (R149, R150, R153) -/

/-- A velocity of tracker `n` that saturates: reported when it was not saturated before, and every product bound to the source aborts
(R153). -/
def State.saturated (s : State) (n : Nat) (was : Bool) : State :=
  let s := if was then s else s.report 0x006 (BitVec.ofNat 32 n)
  s.abortAll (fun c => decide (s.ctxState c ≠ 0) && decide (s.posSrc c = n)) Status.abortedOverspeed

/-- TRACKER_VISIT: tracker `n` takes its latest unused measurement, once it lies MIN_DT after the one before (R149, R150, R153). -/
def execTrackerVisit (n : Fin 24) (s : State) : Host.Outcome State Fault Refusal :=
  .next (s.unfrozen (fun s =>
    let tr := s.getTracker n
    match tr.meas with
    | none => s
    | some (p, t) =>
      if !s.domOn .place || tr.used.any (fun u => decide (t < u + s.minDt n)) then s
      else
        let was := s.on (Fld.TRK_STAT_VSAT n)
        State.injectAt 0x006 (fun s => ((s.trackUpdate n p t).wr (Fld.TRK_STAT_VSAT n) 1).saturated n false)
          (fun s => if (s.trackUpdate n p t).on (Fld.TRK_STAT_VSAT n) then (s.trackUpdate n p t).saturated n was else s.trackUpdate n p t) s))

/-! ## The context stage: the view of one visit (R155, R156, R214) -/

/-- What a visit works with: Tv, and in a product's coordinate the base, to which positions are relative, the prediction at Tv, and the
position predicted a look-ahead later (R159). -/
structure Visit where
  tv    : Nat
  base  : Int
  p     : Predicted
  ahead : Quot
  deriving DecidableEq, Repr

/-- The visit as a product sees it: in −u for a reverse pass (R214). -/
def Visit.for (w : Visit) (reverse : Bool) : Visit :=
  if reverse then { w with base := -w.base, p := ⟨quotNeg w.p.x, quotNeg w.p.v, quotNeg w.p.a, w.p.clamp⟩, ahead := quotNeg w.ahead } else w

/-- The velocity predicted at Tv, Q16.16, and the acceleration, Q8.24 (R135, R156). -/
def Visit.velocity (w : Visit) : Int := saturate 32 (quotRound (quotMul w.p.v (quotInt (2 ^ 16))))
def Visit.accel (w : Visit) : Int := saturate 32 (quotRound (quotMul w.p.a (quotInt (2 ^ 24))))

/-- Forward travel: the velocity predicted at Tv is above 0 (R165). It is judged as the Q16.16 value that solve uses. -/
def Visit.forward (w : Visit) : Bool := decide (0 < w.velocity)

/-- A target less the position predicted at Tv, in whole ticks (R136, R156). -/
def Visit.distance (w : Visit) (u : Int) : Int := pos48 (u - w.base - quotRound w.p.x)

/-- What solve answers (R156). -/
inductive Crossing where
  | never
  | crossed
  | at_ (t : Int)
  deriving DecidableEq, Repr

/-- solve of R156, each value rounded to its format and held to its range: d in whole ticks, vq in Q16.16, aq in Q8.24, and t0, g and t1 in
Q32.32 µs (R135). -/
def Visit.solve (w : Visit) (u : Int) : Crossing :=
  let v := w.velocity
  let a := w.accel
  let d := w.distance u
  if v ≤ 0 then .never
  else if d ≤ 0 then .crossed
  else
    let t0 := saturate 64 (roundDiv (d * 2 ^ 48) v)
    let g := saturate 64 (v * 2 ^ 16 + roundDiv (a * t0) (2 ^ 24))
    let t1 :=
      if g * 2 ≤ v * 2 ^ 16 then t0
      else
        let surplus := quotSub (quotAdd (quotOf (v * t0) (2 ^ 48)) (quotOf (a * t0 * t0) (2 ^ 89))) (quotInt d)
        saturate 64 (t0 - quotRound (quotMul (quotDiv surplus (quotOf g (2 ^ 32))) (quotInt (2 ^ 32))))
    .at_ (w.tv + min (roundDiv (t1 * 4000) (2 ^ 32)) (4000 * 2 ^ 32))

/-! ## Targets and row groups (R155, R214) -/

/-- The row groups of a captured set over a number of ranges: ranges of equal ROWOFF, numbered by the lowest (R155). -/
def rowGroups (set : List Word) (n : Nat) : List Group :=
  let off := fun r => bitsOf (dwAt set (8 + r)) 23 0
  let heads := (List.range n).filter (fun r => !(List.range r).any (fun q => decide (off q = off r)))
  heads.map (fun r => ⟨r, (List.range n).filter (fun q => decide (off q = off r)), 0, 0, none, false⟩)

/-- The alignment offset of a product's pass (R213, R214). -/
def Product.align (x : Product) : Int :=
  if x.scans then signedOf 32 (dwAt x.scan (if x.reverse then 2 else 1)).toNat else 0

/-- The target of the `k`-th line of a pass in a row group, in the pass's coordinate (R155, R214). -/
def Product.target (x : Product) (g : Group) (k : Nat) : Int :=
  let u := x.upg.getD 0 + signedOf 32 (dwAt x.set 2).toNat + (x.lineAt k : Int) * (dwAt x.set 1).toNat +
    signedOf 24 (bitsOf (dwAt x.set (8 + g.num)) 23 0) + x.align
  if x.reverse then -u else u

/-- Whether lines of a product may be released and committed: in flight, not aborted, its edge position known, its pass armed. -/
def Product.live (x : Product) : Bool := !x.ended && x.status.isNone && x.upg.isSome && x.armed

def Group.setIn (g : Group) (l : List Group) : List Group := l.map (fun h => if h.num = g.num then g else h)

/-- A row group of a product of a context, replaced. -/
def State.setGroup (s : State) (c id : Nat) (g : Group) : State :=
  match s.findProd c id with
  | none => s
  | some x => s.setProd c { x with groups := g.setIn x.groups }

/-! ## Step 1: edge positions (R155) and arming (R215) -/

/-- U_pg of each product not yet visited (R155). -/
def State.placeEdges (s : State) (c : Nat) : State :=
  let n := s.nranges c
  (s.getCtx c).prods.foldl (fun s x =>
    if x.upg.isNone && !x.ended then s.setProd c { x with upg := some (s.fwdAt c x.tpg), groups := rowGroups x.set n } else s) s

/-- The next pass of a scanning product is armed once its first targets all lie ahead (R215). -/
def State.armPass (s : State) (c : Nat) (w : Visit) : State :=
  (s.getCtx c).prods.foldl (fun s x =>
    if x.ended || x.status.isSome || x.armed || x.upg.isNone then s
    else
      let y := { x with pass := x.pass + 1, armed := true, stretched := [],
                        groups := x.groups.map (fun g => { g with rel := 0, com := 0, time := none, held := false }) }
      let v := w.for y.reverse
      if y.groups.all (fun g => decide (0 < v.distance (y.target g 0))) then s.setProd c y else s) s

/-! ## Step 2: release (R159, R160, R194, R197) -/

/-- The line of a context that is released next: the unreleased line of the lowest target within the look-ahead, a crossed one among them,
then of the lower product, then of the lower row group. -/
def State.nextRelease (s : State) (c : Nat) (w : Visit) : Option (Product × Group) :=
  let cand := ((s.getCtx c).prods.filter Product.live).flatMap (fun x =>
    let v := w.for x.reverse
    if !v.forward then []
    else
      (x.groups.filter (fun g => decide (g.rel < x.lines))).filterMap (fun g =>
        let d := v.distance (x.target g g.rel)
        if decide (d ≤ 0) || quotLe (quotInt (d + quotRound v.p.x)) v.ahead then some (d, x, g) else none))
  match cand with
  | [] => none
  | y :: t => some (t.foldl (fun b z => if z.1 < b.1 then z else b) y).2

/-- A line is released: its compose request and its line orders (R159, R160, R194). -/
def State.releaseLine (s : State) (c : Nat) (x : Product) (g : Group) : State :=
  let k : LineKey := ⟨c, x.id, x.pass, x.lineAt g.rel, g.num⟩
  let s := s.setGroup c x.id { g with rel := g.rel + 1 }
  let s := (s.groupPorts c g).foldl (fun s p =>
    s.onPort p (fun q => { q with lines := q.lines ++ [⟨k, none, none, false, .waiting, false, 0, 0, 0⟩] })) s
  let s := { s with esp := { s.esp with queue := s.esp.queue ++ [k] } }
  s.wr Fld.ESP_CQ_HIGH (max (s.rd Fld.ESP_CQ_HIGH) s.esp.queue.length)

/-- Up to `n` lines are released; a full compose queue defers the rest to a later visit (R159, R197). -/
def State.releaseLines (c : Nat) (w : Visit) : Nat → State → State
  | 0, s => s
  | n + 1, s =>
    match s.nextRelease c w with
    | none => s
    | some (x, g) =>
      if 512 ≤ s.esp.queue.length then s.bumpSat Fld.ESP_CNT_DEFER_COUNT
      else State.releaseLines c w n (s.releaseLine c x g)

/-! ## Steps 3 and 4: solve and commit (R159, R160, R162, R163) -/

/-- A fire time by R162, with whether one of its last two terms binds it. -/
def State.fireTime (s : State) (c : Nat) (x : Product) (g : Group) (tv : Nat) (tc : Int) : Nat × Bool :=
  let minp := bitsOf (dwAt x.set 3) 23 0
  let terms := g.ranges.flatMap (fun r =>
    let p := s.rangePort c r
    let prev := (Store.get (fun _ => none) s.rangeFire (c * 16 + r)).elim 0 (fun t => t + max minp (s.portMin p))
    let port := (Store.get (fun _ => none) s.portFire p).elim 0 (fun t => t + s.portSpace p)
    [prev, port])
  let early : Int := terms.foldl (fun (m : Int) (t : Nat) => max m (t : Int)) tc
  let last : Int := max (x.tpg + 8000) (tv + 400)
  ((max early last).toNat, decide (early ≤ last))

/-- Candidates in order of stored fire time, those of equal time as they stood. -/
def byTime (l : List (Nat × Nat × Option Nat)) : List (Nat × Nat × Option Nat) :=
  l.foldl (fun acc y =>
    acc.takeWhile (fun z => decide (z.2.2.getD 0 ≤ y.2.2.getD 0)) ++ [y] ++ acc.dropWhile (fun z => decide (z.2.2.getD 0 ≤ y.2.2.getD 0))) []

/-- The candidates of a visit, for each row group the earliest uncommitted released line, in the order of R159: those never solved, then
the others by stored fire time. -/
def State.candidates (s : State) (c : Nat) (w : Visit) : List (Nat × Nat × Option Nat) :=
  let cand := ((s.getCtx c).prods.filter Product.live).flatMap (fun x =>
    if (w.for x.reverse).forward then (x.groups.filter (fun g => decide (g.com < g.rel))).map (fun g => (x.id, g.num, g.time)) else [])
  cand.filter (fun y => y.2.2.isNone) ++ byTime (cand.filter (fun y => y.2.2.isSome))

/-- Whether an earlier released line is uncommitted on a port of a line (R160). -/
def State.blocked (s : State) (c : Nat) (g : Group) (k : LineKey) : Bool :=
  (s.groupPorts c g).any (fun p => ((s.getPort p).lines.takeWhile (fun l => decide (l.key ≠ k))).any (fun l => l.fire.isNone))

/-- The end of a pass: counted, and signalled to the carriage axis of the product's configuration. A product that does not scan has one
pass (R213, R218). -/
def State.endPass (s : State) (x : Product) : State :=
  (s.bump Fld.SHR_CNT_PASS_COUNT).passEnd (bitsOf (dwAt x.scan 0) 2 0)

/-- A line is committed with its fire time on each of its ports (R159, R162). -/
def State.commitLine (s : State) (c : Nat) (x : Product) (g : Group) (k : LineKey) (t : Nat) : State :=
  let s := (s.groupPorts c g).foldl (fun s p =>
    let s := s.onPort p (fun q => { q with lines := q.lines.map (fun l => if l.key = k then { l with fire := some t } else l) })
    { s with portFire := Store.put (fun _ => none) s.portFire p (some t) }) s
  let s := g.ranges.foldl (fun s r =>
    { s with rangeFire := Store.put (fun _ => none) s.rangeFire (c * 16 + r) (some t) }) s
  let s := s.setGroup c x.id { g with com := g.com + 1, time := none, held := false }
  match s.findProd c x.id with
  | none => s
  | some y =>
    if y.passDone then
      (if y.pass + 1 < y.passes then s.setProd c { y with armed := false } else s).endPass y
    else s

/-- A line that is stretched is counted once for its product line; the one that would exceed OVR_LINES aborts the product (R163). -/
def State.stretch (s : State) (c : Nat) (x : Product) (line : Nat) : Bool × State :=
  if x.stretched.contains line then (false, s)
  else
    let s := (s.bump (Fld.DIB_CTX_OVR_OVR c)).setProd c { x with stretched := line :: x.stretched, ovr := x.ovr + 1 }
    (decide (bitsOf (dwAt x.set 3) 31 24 < x.ovr + 1), s)

/-- One candidate is solved: its line stores the crossing time, which for a crossed line is Tv (R156, R159, R162). -/
def State.solveOne (s : State) (c : Nat) (w : Visit) (id num : Nat) : State :=
  match s.findProd c id with
  | none => s
  | some x =>
    match x.groups.find? (fun g => g.num == num) with
    | none => s
    | some g =>
      match (w.for x.reverse).solve (x.target g g.com) with
      | .never => s
      | .crossed => s.setGroup c id { g with time := some w.tv }
      | .at_ t => s.setGroup c id { g with time := some t.toNat }

/-- A candidate with a stored time is committed when it is due, or held behind an earlier line of a port (R159, R160, R162, R163). -/
def State.commitOne (s : State) (c : Nat) (w : Visit) (id num : Nat) : State :=
  match s.findProd c id with
  | none => s
  | some x =>
    match x.groups.find? (fun g => g.num == num) with
    | none => s
    | some g =>
      match g.time with
      | none => s
      | some tc =>
        let f := s.fireTime c x g w.tv tc
        let k : LineKey := ⟨c, id, x.pass, x.lineAt g.com, g.num⟩
        if !x.live || !(g.held || decide (f.1 ≤ w.tv + 4800)) then s
        else if s.blocked c g k then
          if g.held then s else (s.bump Fld.DIB_HOLD_COUNT).setGroup c id { g with held := true }
        else if f.1 ≤ tc then s.commitLine c x g k f.1
        else
          let s := if f.2 then s.bumpSat (Fld.DIB_CTX_STAT_LATE c) else s
          match s.findProd c id with
          | none => s
          | some x =>
            let q := s.stretch c x k.line
            if q.1 then (q.2.abortProd c id .overspeed Status.abortedOverspeed).endProds c
            else
              match q.2.findProd c id with
              | none => q.2
              | some x => q.2.commitLine c x g k f.1

/-! ## The slots (R157, R158) -/

/-- The look-ahead of a context (R159, R170). -/
def State.lookAhead (s : State) (c : Nat) : Nat :=
  (s.ctxPorts c).foldl (fun m p => max m (s.rd (Fld.DIB_LOOK_LOOKAHEAD p))) 8000

/-- The visit of a context (R159). Step 4 takes the candidates by the times that step 3 has left stored, over all of them (DESIGN CHOICE, log
entry 109). -/
def State.visit (s : State) (c : Nat) : State :=
  let tv := s.dibNow
  let p := s.predictFwd c tv
  let s := s.wrBit (Fld.TRK_STAT_CLAMP (s.posSrc c)) p.clamp
  let w : Visit := ⟨tv, s.fwdBase c, p, (s.predictFwd c (tv + s.lookAhead c)).x⟩
  let s := (s.placeEdges c).armPass c w
  let s := State.releaseLines c w 8 s
  let s := ((s.candidates c w).take 4).foldl (fun s y => s.solveOne c w y.1 y.2.1) s
  (byTime (s.candidates c w)).foldl (fun s y => s.commitOne c w y.1 y.2.1) s

/-- The earliest stored fire time of a released, uncommitted line of a context. -/
def State.nextTime (s : State) (c : Nat) : Option Nat :=
  let l := ((s.getCtx c).prods.filter Product.live).flatMap (fun x =>
    (x.groups.filter (fun g => decide (g.com < g.rel))).filterMap (fun g => g.time))
  match l with
  | [] => none
  | t :: r => some (r.foldl min t)

/-- The urgent context that a free slot goes to (R158). -/
def State.urgent (s : State) : Option Nat :=
  let tv := s.dibNow
  let l := (s.liveCtxs.filterMap (fun c => (s.nextTime c).map (fun t => (t, c)))).filter (fun y => decide (y.1 ≤ tv + 16000))
  match l with
  | [] => none
  | y :: r => some (r.foldl (fun b z => if z.1 < b.1 then z else b) y).2

/-- Whether a slot's owner has no use for it (R158). -/
def State.slotFree (s : State) (c : Nat) : Bool :=
  decide (c = 255) || !s.ctxPresent c || decide (s.ctxState c = 0) || (s.getCtx c).inflight.isEmpty

/-- The checks of a visit: the two copies of the solver at the slot, and the parity of the context's state, whose word offset is a free
value (R482, R496; DESIGN CHOICE, log entry 1). Neither finds an error but an injected one. -/
def State.checkedVisit (s : State) (slot c : Nat) : State :=
  State.injectAt 0x001 (fun s => (s.reportFiring 0x001 (BitVec.ofNat 32 slot) false).visit c)
    (State.injectAt (0x100 + c) (fun s => (s.drawWord.2.reportFiring (0x100 + c) s.drawWord.1 false).visit c) (fun s => s.visit c)) s

/-- CONTEXT_VISIT: a slot of the context stage passes (R157 to R159). -/
def execContextVisit (slot : Fin 256) (s : State) : Host.Outcome State Fault Refusal :=
  .next (s.unfrozen (fun s =>
    if !s.domOn .place then s
    else if !s.slotFree slot then s.checkedVisit slot slot
    else
      match s.urgent with
      | none => s
      | some c => (s.bump Fld.DIB_URGENT_COUNT).checkedVisit slot c))

end Sys2Proof.Machine
end

