-- ==== Sys2Proof/Machine/Dispatch.lean ====
section
/-! DEFINITION. One arm per command: a direct call of its meaning, or its refusal by name while it has none. -/

namespace Sys2Proof.Machine

def exec (i : Instr) (s : State) : Host.Outcome State Fault Refusal :=
  match i with
  | .registerWrite m a len words => Sys2Proof.Machine.execRegisterWrite m a len words s
  | .doorbell m r v => Sys2Proof.Machine.execDoorbell m r v s
  | .hostRconsWrite m q v => Sys2Proof.Machine.execHostRconsWrite m q v s
  | .ringEnable m k v => Sys2Proof.Machine.execRingEnable m k v s
  | .ringDisable m k v => Sys2Proof.Machine.execRingDisable m k v s
  | .ringResume m k d => Sys2Proof.Machine.execRingResume m k d s
  | .ringDrained k => Sys2Proof.Machine.execRingDrained k s
  | .cfgDone m v => Sys2Proof.Machine.execCfgDone m v s
  | .cfgRetryTimeout => Sys2Proof.Machine.execCfgRetryTimeout s
  | .perstN low => Sys2Proof.Machine.execPerstN low s
  | .functionLevelReset => Sys2Proof.Machine.execFunctionLevelReset s
  | .pcieLinkChange speed width => Sys2Proof.Machine.execPcieLinkChange speed width s
  | .pcieLinkDown => Sys2Proof.Machine.execPcieLinkDown s
  | .descriptorFetch k d => Sys2Proof.Machine.execDescriptorFetch k d s
  | .phaseRetry k d => Sys2Proof.Machine.execPhaseRetry k d s
  | .cqEntryWrite => Sys2Proof.Machine.execCqEntryWrite s
  | .erOverflow => Sys2Proof.Machine.execErOverflow s
  | .coalesceTimeout k => Sys2Proof.Machine.execCoalesceTimeout k s
  | .tokenAcquire m n tag => Sys2Proof.Machine.execTokenAcquire m n tag s
  | .tokenRelease m n => Sys2Proof.Machine.execTokenRelease m n s
  | .tokenForce m n tag => Sys2Proof.Machine.execTokenForce m n tag s
  | .tokenTagWrite m n tag => Sys2Proof.Machine.execTokenTagWrite m n tag s
  | .nop k => Sys2Proof.Machine.execNop k s
  | .jobFetch r => Sys2Proof.Machine.execJobFetch r s
  | .jobEnterQueue r => Sys2Proof.Machine.execJobEnterQueue r s
  | .ctxBind => Sys2Proof.Machine.execCtxBind s
  | .ctxUnbind => Sys2Proof.Machine.execCtxUnbind s
  | .halt => Sys2Proof.Machine.execHalt s
  | .resume => Sys2Proof.Machine.execResume s
  | .flush => Sys2Proof.Machine.execFlush s
  | .recover => Sys2Proof.Machine.execRecover s
  | .commit m n => Sys2Proof.Machine.execCommit m n s
  | .cancel m n => Sys2Proof.Machine.execCancel m n s
  | .immediate m n => Sys2Proof.Machine.execImmediate m n s
  | .pgoAccept n level t => Sys2Proof.Machine.execPgoAccept n level t s
  | .printGoEdge n => Sys2Proof.Machine.execPrintGoEdge n s
  | .printGoTimeout n => Sys2Proof.Machine.execPrintGoTimeout n s
  | .rejectPulse o => Sys2Proof.Machine.execRejectPulse o s
  | .rejectPulseEnd k => Sys2Proof.Machine.execRejectPulseEnd k s
  | .encoderEdge n a b t => Sys2Proof.Machine.execEncoderEdge n a b t s
  | .zEdge e => Sys2Proof.Machine.execZEdge e s
  | .trackerVisit n => Sys2Proof.Machine.execTrackerVisit n s
  | .trackerStill n => Sys2Proof.Machine.execTrackerStill n s
  | .contextVisit slot => Sys2Proof.Machine.execContextVisit slot s
  | .tbSync k cross => Sys2Proof.Machine.execTbSync k cross s
  | .mirrorCalibrated c => Sys2Proof.Machine.execMirrorCalibrated c s
  | .moraineWrite m a data => Sys2Proof.Machine.execMoraineWrite m a data s
  | .scrubRead => Sys2Proof.Machine.execScrubRead s
  | .eccWriteBack c => Sys2Proof.Machine.execEccWriteBack c s
  | .dsInitComplete ds1 => Sys2Proof.Machine.execDsInitComplete ds1 s
  | .plateDescriptorWrite m d v => Sys2Proof.Machine.execPlateDescriptorWrite m d v s
  | .blockAllocate n => Sys2Proof.Machine.execBlockAllocate n s
  | .patchResident n k j => Sys2Proof.Machine.execPatchResident n k j s
  | .compose => Sys2Proof.Machine.execCompose s
  | .lineFifoEntry p => Sys2Proof.Machine.execLineFifoEntry p s
  | .scanConfigCommit m n v => Sys2Proof.Machine.execScanConfigCommit m n v s
  | .stitchZoneWrite m z v => Sys2Proof.Machine.execStitchZoneWrite m z v s
  | .maskCheck m v => Sys2Proof.Machine.execMaskCheck m v s
  | .maskCheckDone => Sys2Proof.Machine.execMaskCheckDone s
  | .substitutionEntryWrite m e v => Sys2Proof.Machine.execSubstitutionEntryWrite m e v s
  | .grfNset m v => Sys2Proof.Machine.execGrfNset m v s
  | .portEnable m p v => Sys2Proof.Machine.execPortEnable m p v s
  | .portDisable m p v => Sys2Proof.Machine.execPortDisable m p v s
  | .fireEvent p => Sys2Proof.Machine.execFireEvent p s
  | .lineShift p => Sys2Proof.Machine.execLineShift p s
  | .lineLatch p => Sys2Proof.Machine.execLineLatch p s
  | .lineJudge p => Sys2Proof.Machine.execLineJudge p s
  | .strobe p => Sys2Proof.Machine.execStrobe p s
  | .pulseEnd p => Sys2Proof.Machine.execPulseEnd p s
  | .quietPoint p => Sys2Proof.Machine.execQuietPoint p s
  | .headLoadRetry p => Sys2Proof.Machine.execHeadLoadRetry p s
  | .entryRampDone p => Sys2Proof.Machine.execEntryRampDone p s
  | .retrain m p v => Sys2Proof.Machine.execRetrain m p v s
  | .train p b rtt => Sys2Proof.Machine.execTrain p b rtt s
  | .trainingTimeout p => Sys2Proof.Machine.execTrainingTimeout p s
  | .trainingRetry p => Sys2Proof.Machine.execTrainingRetry p s
  | .neveDown w => Sys2Proof.Machine.execNeveDown w s
  | .lineErr p tag reason => Sys2Proof.Machine.execLineErr p tag reason s
  | .telem p item v => Sys2Proof.Machine.execTelem p item v s
  | .unknownBlock p => Sys2Proof.Machine.execUnknownBlock p s
  | .hregGo m p v => Sys2Proof.Machine.execHregGo m p v s
  | .hregReply p code data => Sys2Proof.Machine.execHregReply p code data s
  | .hregTimeout p => Sys2Proof.Machine.execHregTimeout p s
  | .echo p e => Sys2Proof.Machine.execEcho p e s
  | .watchdogMiss p => Sys2Proof.Machine.execWatchdogMiss p s
  | .echoStuck p => Sys2Proof.Machine.execEchoStuck p s
  | .gateTransition p g level => Sys2Proof.Machine.execGateTransition p g level s
  | .gateRelease m p hi v => Sys2Proof.Machine.execGateRelease m p hi v s
  | .portGateWrite m p g v held => Sys2Proof.Machine.execPortGateWrite m p g v held s
  | .waveLoad src => Sys2Proof.Machine.execWaveLoad src s
  | .thermalLoad src => Sys2Proof.Machine.execThermalLoad src s
  | .droopLoad src => Sys2Proof.Machine.execDroopLoad src s
  | .tickle p => Sys2Proof.Machine.execTickle p s
  | .captureStart p => Sys2Proof.Machine.execCaptureStart p s
  | .captureComplete p samples => Sys2Proof.Machine.execCaptureComplete p samples s
  | .classify p => Sys2Proof.Machine.execClassify p s
  | .idleSlot p => Sys2Proof.Machine.execIdleSlot p s
  | .crevasseRef list => Sys2Proof.Machine.execCrevasseRef list s
  | .refWalkTickle samples => Sys2Proof.Machine.execRefWalkTickle samples s
  | .inkReading => Sys2Proof.Machine.execInkReading s
  | .consAuth auto dev => Sys2Proof.Machine.execConsAuth auto dev s
  | .consRecord dev => Sys2Proof.Machine.execConsRecord dev s
  | .recordDue p dev => Sys2Proof.Machine.execRecordDue p dev s
  | .identityStatusPoll p r => Sys2Proof.Machine.execIdentityStatusPoll p r s
  | .copy c => Sys2Proof.Machine.execCopy c s
  | .fill c => Sys2Proof.Machine.execFill c s
  | .link c => Sys2Proof.Machine.execLink c s
  | .burstIssue write => Sys2Proof.Machine.execBurstIssue write s
  | .readCompletion k r => Sys2Proof.Machine.execReadCompletion k r s
  | .writeResponse k => Sys2Proof.Machine.execWriteResponse k s
  | .flushReadComplete k r => Sys2Proof.Machine.execFlushReadComplete k r s
  | .readTimeout k => Sys2Proof.Machine.execReadTimeout k s
  | .haltedEntered => Sys2Proof.Machine.execHaltedEntered s
  | .dmaRestart m v => Sys2Proof.Machine.execDmaRestart m v s
  | .channelStop m c v => Sys2Proof.Machine.execChannelStop m c v s
  | .join m v => Sys2Proof.Machine.execJoin m v s
  | .phyTrialExpiry p => Sys2Proof.Machine.execPhyTrialExpiry p s
  | .ringLinkDown p => Sys2Proof.Machine.execRingLinkDown p s
  | .ringFrame p fault f => Sys2Proof.Machine.execRingFrame p fault f s
  | .hello => Sys2Proof.Machine.execHello s
  | .helloTimer ring => Sys2Proof.Machine.execHelloTimer ring s
  | .rosterExpiry st => Sys2Proof.Machine.execRosterExpiry st s
  | .versionPropose => Sys2Proof.Machine.execVersionPropose s
  | .versionAgree => Sys2Proof.Machine.execVersionAgree s
  | .versionCollectTimeout => Sys2Proof.Machine.execVersionCollectTimeout s
  | .versionAct => Sys2Proof.Machine.execVersionAct s
  | .syncTimer => Sys2Proof.Machine.execSyncTimer s
  | .peerDelayTimer p => Sys2Proof.Machine.execPeerDelayTimer p s
  | .ptp => Sys2Proof.Machine.execPtp s
  | .pgo => Sys2Proof.Machine.execPgo s
  | .vencPublish due => Sys2Proof.Machine.execVencPublish due s
  | .venc => Sys2Proof.Machine.execVenc s
  | .vencLost k => Sys2Proof.Machine.execVencLost k s
  | .track => Sys2Proof.Machine.execTrack s
  | .reject => Sys2Proof.Machine.execReject s
  | .voteDeadline n => Sys2Proof.Machine.execVoteDeadline n s
  | .mgmt => Sys2Proof.Machine.execMgmt s
  | .mailboxGo m b v => Sys2Proof.Machine.execMailboxGo m b v s
  | .mailboxTimeout b => Sys2Proof.Machine.execMailboxTimeout b s
  | .service => Sys2Proof.Machine.execService s
  | .segmentRetransmit station session => Sys2Proof.Machine.execSegmentRetransmit station session s
  | .heartbeatLoss => Sys2Proof.Machine.execHeartbeatLoss s
  | .axisConfig src => Sys2Proof.Machine.execAxisConfig src s
  | .movePosition => Sys2Proof.Machine.execMovePosition s
  | .moveGear => Sys2Proof.Machine.execMoveGear s
  | .moveSoftstop => Sys2Proof.Machine.execMoveSoftstop s
  | .home => Sys2Proof.Machine.execHome s
  | .profileUpdate => Sys2Proof.Machine.execProfileUpdate s
  | .onPhaseEnd a coilB how => Sys2Proof.Machine.execOnPhaseEnd a coilB how s
  | .offPhaseEnd a coilB => Sys2Proof.Machine.execOffPhaseEnd a coilB s
  | .restDelay a => Sys2Proof.Machine.execRestDelay a s
  | .axisStop m a v => Sys2Proof.Machine.execAxisStop m a v s
  | .axisSoftstop m a v => Sys2Proof.Machine.execAxisSoftstop m a v s
  | .stopAll m v => Sys2Proof.Machine.execStopAll m v s
  | .setPos m a v => Sys2Proof.Machine.execSetPos m a v s
  | .bemfSample a coilB e => Sys2Proof.Machine.execBemfSample a coilB e s
  | .channelSample c code conv valid => Sys2Proof.Machine.execChannelSample c code conv valid s
  | .dieShutdownFinal => Sys2Proof.Machine.execDieShutdownFinal s
  | .rakeReport => Sys2Proof.Machine.execRakeReport s
  | .levelReportEnd src low rail => Sys2Proof.Machine.execLevelReportEnd src low rail s
  | .tineLost k => Sys2Proof.Machine.execTineLost k s
  | .errNPulseEnd => Sys2Proof.Machine.execErrNPulseEnd s
  | .errNRelease m v => Sys2Proof.Machine.execErrNRelease m v s
  | .clrFirst m v => Sys2Proof.Machine.execClrFirst m v s
  | .scopeClear m sc => Sys2Proof.Machine.execScopeClear m sc s
  | .scopeForce m sc => Sys2Proof.Machine.execScopeForce m sc s
  | .thawTick => Sys2Proof.Machine.execThawTick s
  | .injectionArm m v => Sys2Proof.Machine.execInjectionArm m v s
  | .programWord m v vqps core => Sys2Proof.Machine.execProgramWord m v vqps core s
  | .programWordDone strict lenient => Sys2Proof.Machine.execProgramWordDone strict lenient s
  | .marginScan m v => Sys2Proof.Machine.execMarginScan m v s
  | .scanComplete => Sys2Proof.Machine.execScanComplete s
  | .lockSet m v => Sys2Proof.Machine.execLockSet m v s
  | .otpProgram src vqps core => Sys2Proof.Machine.execOtpProgram src vqps core s
  | .otpLock vqps core => Sys2Proof.Machine.execOtpLock vqps core s
  | .sessionOpen q => Sys2Proof.Machine.execSessionOpen q s
  | .header q ok => Sys2Proof.Machine.execHeader q ok s
  | .chunk q ok => Sys2Proof.Machine.execChunk q ok s
  | .verify q ok => Sys2Proof.Machine.execVerify q ok s
  | .activate q ok => Sys2Proof.Machine.execActivate q ok s
  | .confirm q ok vqps core outs => Sys2Proof.Machine.execConfirm q ok vqps core outs s
  | .abort q => Sys2Proof.Machine.execAbort q s
  | .status q => Sys2Proof.Machine.execStatus q s
  | .badFrame q => Sys2Proof.Machine.execBadFrame q s
  | .sessionTimeout => Sys2Proof.Machine.execSessionTimeout s
  | .usbBusReset => Sys2Proof.Machine.execUsbBusReset s
  | .mpBoot => Sys2Proof.Machine.execMpBoot s
  | .trialTimeout => Sys2Proof.Machine.execTrialTimeout s
  | .arbRetry vqps core outs => Sys2Proof.Machine.execArbRetry vqps core outs s
  | .settingsWrite src flash => Sys2Proof.Machine.execSettingsWrite src flash s
  | .settingsRead ok => Sys2Proof.Machine.execSettingsRead ok s
  | .domainPower => Sys2Proof.Machine.execDomainPower s
  | .unitRetire flash => Sys2Proof.Machine.execUnitRetire flash s
  | .retirementRetry ok => Sys2Proof.Machine.execRetirementRetry ok s
  | .domainCtlWrite m v => Sys2Proof.Machine.execDomainCtlWrite m v s
  | .domainReset m v => Sys2Proof.Machine.execDomainReset m v s
  | .domainPowered d => Sys2Proof.Machine.execDomainPowered d s
  | .domainOff d => Sys2Proof.Machine.execDomainOff d s
  | .sequencerReload d => Sys2Proof.Machine.execSequencerReload d s
  | .supplyWarnBegin k => Sys2Proof.Machine.execSupplyWarnBegin k s
  | .supplyWarnEnd k => Sys2Proof.Machine.execSupplyWarnEnd k s
  | .longWarning k => Sys2Proof.Machine.execLongWarning k s
  | .supplyReset k => Sys2Proof.Machine.execSupplyReset k s
  | .powerOnReset => Sys2Proof.Machine.execPowerOnReset s
  | .resetN => Sys2Proof.Machine.execResetN s
  | .chipReset m v => Sys2Proof.Machine.execChipReset m v s
  | .refclk25Loss => Sys2Proof.Machine.execRefclk25Loss s
  | .ringRefclkLoss => Sys2Proof.Machine.execRingRefclkLoss s
  | .pllLockLoss k => Sys2Proof.Machine.execPllLockLoss k s
  | .pllRelock k => Sys2Proof.Machine.execPllRelock k s
  | .tbIncWrite m v => Sys2Proof.Machine.execTbIncWrite m v s
  | .avsStep => Sys2Proof.Machine.execAvsStep s
  | .controllerStart => Sys2Proof.Machine.execControllerStart s
  | .mpWatchdog => Sys2Proof.Machine.execMpWatchdog s
  | .watchdogFeed m v => Sys2Proof.Machine.execWatchdogFeed m v s
  | .freezePin => Sys2Proof.Machine.execFreezePin s
  | .freezeRegister m v => Sys2Proof.Machine.execFreezeRegister m v s
  | .islandStopped k => Sys2Proof.Machine.execIslandStopped k s
  | .freezeReleasePin => Sys2Proof.Machine.execFreezeReleasePin s
  | .releaseTimeout => Sys2Proof.Machine.execReleaseTimeout s
  | .hfSel n => Sys2Proof.Machine.execHfSel n s
  | .hfRead => Sys2Proof.Machine.execHfRead s
  | .hfMem a => Sys2Proof.Machine.execHfMem a s
  | .hfCtlFreeze => Sys2Proof.Machine.execHfCtlFreeze s
  | .hfCtlRelease => Sys2Proof.Machine.execHfCtlRelease s
  | .tapReset => Sys2Proof.Machine.execTapReset s
  | .idcode => Sys2Proof.Machine.execIdcode s
  | .samplePreload pins cells => Sys2Proof.Machine.execSamplePreload pins cells s
  | .extest pins cells => Sys2Proof.Machine.execExtest pins cells s
  | .highz => Sys2Proof.Machine.execHighz s
  | .clamp => Sys2Proof.Machine.execClamp s
  | .bypass => Sys2Proof.Machine.execBypass s
  | .registerRead m a len => Sys2Proof.Machine.execRegisterRead m a len s
  | .configurationRequest req => Sys2Proof.Machine.execConfigurationRequest req s
  | .pcieLinkUp speed width => Sys2Proof.Machine.execPcieLinkUp speed width s
  | .syncsMissing => Sys2Proof.Machine.execSyncsMissing s
  | .ringOpened => Sys2Proof.Machine.execRingOpened s
  | .voteExpiry => Sys2Proof.Machine.execVoteExpiry s
  | .programmingSupplyLeftRange vqps => Sys2Proof.Machine.execProgrammingSupplyLeftRange vqps s
  | .clockStretchTimeout p => Sys2Proof.Machine.execClockStretchTimeout p s

end Sys2Proof.Machine
end

