-- ==== Sys2Proof/Machine/Inject.lean ====
section
/-! DEFINITION. The idle cycle: what passes with the clock, and the checkers that work all the time, on which an injection can fall in any
cycle (R137, R394, R496, spec/15_rake_fault_handling.md). -/

namespace Sys2Proof.Machine

/-! ## Injections at checkers that work all the time (R496, R497) -/

/-- A lost heartbeat found by injection: of which island is a free value, an island that takes part in nothing not counting (R481, R482;
DESIGN CHOICE, log entry 1). -/
def State.injTine (s : State) : State :=
  let (f, s) := s.draw
  let i := 1 + f.toNat % 26
  if s.islandTakesPart i then s.report 0x002 (BitVec.ofNat 32 i) else s

/-- A virtual encoder's timeout found by injection: the lowest entry that is enabled and not lost (R409). -/
def State.injVenc (s : State) : State :=
  if !s.domOn .ring then s
  else
    match (List.range 8).find? (fun k => s.on (Fld.RING_VRX_EN k) && !s.vencLost k) with
    | none => s
    | some k => s.loseVenc k

/-- A link of a head found down (R265). -/
def State.injNeve (s : State) (p : Nat) : State := if s.portMode p = 2 ∧ s.nvStage p = 5 then State.watch s (s.neveLost p) else s

/-- A line of a head found in error: its tag and reason are free values (R266; DESIGN CHOICE, log entry 1). -/
def State.injLine (s : State) (p : Nat) : State :=
  if s.portMode p = 2 ∧ s.linked p then
    let (f, s) := s.draw
    s.lineError p (f.toNat % 256) (f.toNat / 256 % 256)
  else s

/-- A read of Barrow found to have no completion (R376). -/
def State.injBarrow (s : State) : State :=
  match s.bar.reads with
  | [] => s
  | b :: _ => s.failRead 0 3 b

/-- A ring link found down: the lower port whose link is up (R387). -/
def State.injRing (s : State) : State :=
  if !s.domOn .ring then s
  else if s.rportUp 0 then s.rportDown 0
  else if s.rportUp 1 then s.rportDown 1
  else s

/-- An error of the PCIe port, which only its report shows: the AER status word is a free value (R482; DESIGN CHOICE, log entry 1). -/
def State.injPcie (s : State) (src : Nat) : State :=
  if s.linkUp && s.domOn .host then
    let (f, s) := s.drawWord
    s.report src f
  else s

/-- The watchdog of the MP found expired (R482, R581). -/
def State.injWatchdog (s : State) : State :=
  if s.on Fld.PCR_WDOG_EN && s.windowOpen then
    let (f, t) := { s with pcr := { s.pcr with fed := s.tb.toNat } }.drawWord
    State.watch s ((t.report 0x208 f).mpRestart 2)
  else s

/-- A word of the MP memory found in error, at an address that is a free value: an uncorrectable one restarts the MP, with the cause of
a watchdog restart (R82, R482; DESIGN CHOICE, log entry 1). -/
def State.injMpMemory (s : State) (src : Nat) : State :=
  if s.windowOpen then
    let (f, t) := s.drawWord
    let t := t.report src f
    if src = 0x20A then State.watch s (t.mpRestart 2) else t
  else s

/-- The source whose error an injection makes at the source `src`: the two of the MP memory follow FLIP (R496). -/
def State.injSource (s : State) (src : Nat) : Nat :=
  if src = 0x209 ∨ src = 0x20A then (if s.rd Fld.RAKE_INJ_CTL_FLIP < 2 then 0x209 else 0x20A) else src

/-- What an error at a checker that works all the time does. -/
def State.injIdle (s : State) (src : Nat) : State :=
  if src = 0x002 then s.injTine
  else if src = 0x007 then s.injVenc
  else if 0x060 ≤ src ∧ src < 0x070 then s.injNeve (src - 0x060)
  else if 0x070 ≤ src ∧ src < 0x080 then s.injLine (src - 0x070)
  else if src = 0x204 then s.injBarrow
  else if src = 0x205 then s.injRing
  else if src = 0x206 ∨ src = 0x207 then s.injPcie src
  else if src = 0x208 then s.injWatchdog
  else if src = 0x209 ∨ src = 0x20A then s.injMpMemory src
  else s

/-- One cycle of the checkers that work all the time. They find nothing but an injected error; the commands of the table say what they
really find. -/
def State.idleChecks (s : State) : State :=
  let src := s.rd Fld.RAKE_INJ_CTL_SRC
  if !s.injDue [src] then s
  else
    let k := s.injSource src
    if !(s.injIdle k).reported s.rakeQ.length k then s
    else if s.on Fld.RAKE_INJ_CTL_RAIL then s.injRail.injFired false
    else ((s.injIdle k).markInj s.rakeQ.length k false).injFired false

/-- One cycle of REFCLK25 with no command waiting. -/
def State.idleCycle (s : State) : State :=
  if s.pcr.refLost || s.hf.active then s.idle else s.idle.idleChecks

end Sys2Proof.Machine
end

