-- ==== Sys2Proof/Machine/Pads.lean ====
section
/-! DEFINITION. The balls that show what State holds: reject outputs, interrupt and error balls, the bypass switch, the voltage request and the
service port (R66, R130, R417, R488, R531, R572, R587, R610, R613). -/

namespace Sys2Proof.Machine

/-- Whether the pads are in their held state: from a reset of the whole controller until its start, and under pad control in a freeze (R571,
R587, R610). -/
def State.padsHeld (s : State) : Bool := s.hf.active || s.pcr.start.isSome

/-- Whether ball REJk is high: an active pulse drives it, unless its pad is held low (R130, R131, R587). -/
def State.rejBall (s : State) (k : Nat) : Bool := !s.padsHeld && s.rejActive.any (fun x => decide (x.1 = k))

/-- Whether INT_N is driven low (R66, R587). -/
def State.intBallLow (s : State) : Bool := !s.padsHeld && s.intnLow

/-- Whether ERR_N is driven low; it stays under AON control in a freeze (R488, R587). -/
def State.errBallLow (s : State) : Bool := s.on Fld.RAKE_ERRN_LOW

/-- Whether BYP_KEEP carries its square wave; it stays under AON control in a freeze (R417, R587, R589). -/
def State.keepRuns (s : State) : Bool := s.keep

/-- The level of ball AVS_VIDk: a bit of the code, 20 until Permafrost has loaded (R572, R610). -/
def State.vidBall (s : State) (k : Nat) : Bool := if s.on Fld.PF_STAT_LOADED then (s.rd Fld.PCR_AVS_CODE).testBit k else Nat.testBit 20 k

/-- Whether the service port shows its pull-up: its domain is on and its pads are not held (R531, R587). -/
def State.usbAttached (s : State) : Bool := s.domOn .service && !s.padsHeld

/-- Whether the balls of a port's block are driven at all; those of an absent or retired port are in high impedance (R613). -/
def State.blockDriven (s : State) (p : Nat) : Bool := s.portPresent p

end Sys2Proof.Machine
end

