-- ==== Sys2Proof/Safety.lean ====
section
/-! DEFINITION. What counts as a safe state and a safe run of the controller. -/

namespace Sys2Proof.Machine

/-- The sparse memories are in canonical form: the dot store, the flash, the MP memory and the register words. -/
def State.canonical (s : State) : Prop :=
  memWf s.mem ∧ Store.wf norErased s.nor = true ∧ Store.wf (fun _ => none) s.mp.mem = true ∧ Store.wf resetWord s.regs = true

/-- A step goes on: it ends in a next state, not in a fault or a refusal. -/
def goesOn (o : Host.Outcome State Fault Refusal) : Prop := ∃ t, o = .next t

/-- The outward log only grows: what has gone outward is never taken back. -/
def State.sentBefore (s t : State) : Prop := ∃ l, t.out = s.out ++ l

/-- The contexts that hold anything carry numbers of a context field (R85, R96). -/
def State.numbered (s : State) : Prop := ∀ e ∈ s.ctxs, e.1 < 256

/-! ## The terms of the statements -/

/-- The islands run and no injection is armed: what a command does is its own effect (R496, R586). -/
def State.calm (s : State) : Prop := s.hf.active = false ∧ s.on Fld.RAKE_INJ_CTL_ARMED = false

/-- An access at address `a` reaches a block that accepts it (R4, R22, R27). -/
def State.reaches (s : State) (a : Nat) : Prop := ∃ b c off, s.reach a = .open b c off

/-- Every register word outside `as` is the same in `t`. -/
def State.regsBut (s t : State) (as : List Nat) : Prop := ∀ a, a ∉ as → t.getReg a = s.getReg a

/-- Nothing but register words differs. -/
def State.onlyRegs (s t : State) : Prop := t = { s with regs := t.regs }

/-- Nothing but register words and the state of rings differs. -/
def State.onlyRings (s t : State) : Prop := t = { s with regs := t.regs, host := { s.host with rings := t.host.rings } }

/-- The words that entries, completions and interrupts change: the ER's and CQ's producers, the pending bits, the counts of losses. -/
def noticeWords : List Nat :=
  [Reg.HOST_RPROD 49, Reg.HOST_RPROD 50, Reg.HOST_IPEND0, Reg.HOST_IPEND1, Reg.HOST_MSIX_PBA 0, Reg.HOST_MSIX_PBA 1, Reg.HOST_CQ_LOST,
   Reg.HOST_ER_LOST]

/-- `t` is `s` after notices to the host alone: events, completions and interrupts (R73, R76). -/
structure Told (s t : State) : Prop where
  words : s.regsBut t noticeWords
  rest  : t = { s with regs := t.regs, out := t.out,
                       host := { s.host with rings := t.host.rings, cqQueue := t.host.cqQueue, erOwed := t.host.erOwed } }

/-- Ring group `k` shows an error, told to the host (R71): its ERR alone has changed. -/
structure RingFault (s t : State) (k err : Nat) : Prop where
  err   : t.rd (Fld.HOST_RSTAT_ERR k) = err
  state : t.rd (Fld.HOST_RSTAT_STATE k) = s.rd (Fld.HOST_RSTAT_STATE k)
  words : s.regsBut t (Reg.HOST_RSTAT k :: noticeWords)
  rest  : t = { s with regs := t.regs, out := t.out,
                       host := { s.host with rings := t.host.rings, erOwed := t.host.erOwed } }

/-- The completion of a descriptor of the CR or a DR waits as the last of the internal queue (R76, R79); a QUIET one with status OK writes
none (R78). -/
def State.answered (s t : State) (k : Nat) (d : Desc) (status result : Nat) : Prop :=
  (bitOf (dwAt d.dw 0) 30 = true ∧ status = 0 → t.host.cqQueue = s.host.cqQueue) ∧
  (bitOf (dwAt d.dw 0) 30 = false ∨ status ≠ 0 →
    ∃ n, t.host.cqQueue = s.host.cqQueue ++ [⟨k, status, d.index, dwAt d.dw 1, (resultDw result).1, (resultDw result).2, n⟩])

/-- The internal queue of completions has a place free (R76). -/
def State.cqRoom (s : State) : Prop := s.host.cqQueue.length < 512

/-- A MOVE or HOME of the CR has been taken for the axes `l`: with WAIT it is in execution until their motions end, else it is complete (R453). -/
def State.moveTaken (s t : State) (d : Desc) (l : List Nat) : Prop :=
  (d.fld 2 12 12 = 1 → t.mp.cmd.map (fun c => (c.desc, c.left)) = some (d, l) ∧ t.host.cqQueue = s.host.cqQueue) ∧
  (d.fld 2 12 12 = 0 → s.answered t 0 d 0 (s.moveResult d 0))

/-- Tiller updates its axes, none of them watched by its encoder, and no axis but `a` moves (R434, R438, R442). -/
def State.alone (s : State) (a : Nat) : Prop :=
  s.calm ∧ s.domOn .motion = true ∧ s.on Fld.TIL_STAT_SEQ_OK = true ∧ (∀ c < 8, s.rd (Fld.AX_CFG_STALL_MODE c) ≠ 2) ∧
  ∀ c < 8, c ≠ a → s.axState c ∉ [3, 4, 5]

/-- Axis `a` has frozen with a kind: in FROZEN where it is enabled, else OFF, without a valid position or a motion, its bridges off unless it
keeps them on a stop (R437). -/
structure Froze (s t : State) (a kind : Nat) (off : Bool) : Prop where
  state : t.axState a = (if s.on (Fld.AX_CFG_EN a) then 6 else 0)
  pos   : t.on (Fld.AX_STAT_POS_VALID a) = false
  last  : t.rd (Fld.AX_STAT_LAST a) = (if s.axState a = 5 then 9 else kind)
  still : t.vact a = 0 ∧ (t.getAxis a).run = false ∧ (t.getAxis a).gear = none ∧ (t.getAxis a).group = none ∧ (t.getAxis a).home = none
  gates : off = true ∨ s.on (Fld.AX_CFG_STOP_KEEP a) = false → (t.getAxis a).coilA.bridge = .off ∧ (t.getAxis a).coilB.bridge = .off

/-- The motion of axis `a` has ended at standstill with a kind (R432, R454). -/
structure CameToRest (s t : State) (a kind : Nat) : Prop where
  state : t.axState a = (if s.rd (Fld.AX_CFG_REST_DLY a) = 0 ∨ s.rd (Fld.HK_CH_VAL_STATE (24 + a)) = 2 then 2 else 1)
  last  : t.rd (Fld.AX_STAT_LAST a) = kind
  still : t.vact a = 0 ∧ (t.getAxis a).run = false ∧ (t.getAxis a).gear = none ∧ (t.getAxis a).group = none ∧ (t.getAxis a).home = none

/-- A registration of a ring that may start: a size of R71 and a base that is not 0. -/
def State.startable (s : State) (k size : Nat) : Prop := 4 ≤ size ∧ size ≤ 16 ∧ s.rd64 (Reg.HOST_RBASE_LO k) ≠ 0

/-- The command ring has the descriptor `d` next, with an index of a ring, the MP is free for it, and a completion has its place (R37, R69,
R76, R84). -/
def State.commanded (s : State) (op : Nat) (d : Desc) : Prop :=
  s.calm ∧ s.nextCommand op = some d ∧ s.cqRoom ∧ d.index < orphanMark

/-- A MOVE of a MODE is next and passes the checks of R453, and the MP may use the token of Tiller (R50, R451). -/
def State.moves (s : State) (d : Desc) (mode : Nat) : Prop :=
  s.commanded 0x31 d ∧ d.fld 2 9 8 = mode ∧ s.moveRefusal d = none ∧ s.mpMay 3 = true

/-- A command of an opcode that reads a source goes on: `c` is the next of the CR or in execution, with an index of a ring, and a completion has
its place (R38, R69, R76, R83). -/
def State.carries (s : State) (op : Nat) (c : MpCmd) : Prop :=
  s.calm ∧ s.loadCommand op = some c ∧ s.cqRoom ∧ c.desc.index < orphanMark

/-- An authentication of port `p` begins: that which a boot owes to a port with AUTO set, or that of a command (R348, R354). -/
def State.authBegins (s : State) (auto : Option (Fin 16)) (p : Fin 16) (d : Option Desc) : Prop :=
  s.calm ∧ s.portPresent p = true ∧ (s.getCons p).op = none ∧
  match auto, d with
  | some q, none => q = p ∧ s.mp.running = true ∧ (s.getCons p).due = true
  | none, some d => s.commanded 0x58 d ∧ d.fld 2 3 0 = p ∧ d.reservedSet (commandLayout [0xF]) = false
  | _, _ => False

/-- An operation on the identity bus of port `p` has ended with a REASON and an AUTH, and with it its command (R351, R354). -/
structure BusEnded (s t : State) (p : Nat) (d : Option Desc) (why state : Nat) : Prop where
  auth   : t.authOf p = state
  reason : t.rd (Fld.CONS_P_STAT_REASON p) = why
  op     : (t.getCons p).op = none
  done   : ∀ x, d = some x → t.mp.cmd = none ∧ s.answered t 0 x 0 (consResult (decide (why = 0)) state why)

/-- Channel `c`, with nothing in execution and in no chain, has the ring descriptor `d` next and can take it up (R358). -/
def State.dmaReady (s : State) (c : Nat) (d : Desc) : Prop :=
  s.nextDma c = some (d, false) ∧ s.canTake c d = true ∧ (s.getChan32 c).runs = []

/-- The bytes of a host read reach the device: the link answers and no error comes (R71). -/
def State.fed (s : State) (src : HostRead) (n : Nat) : Prop := s.hostBus = true ∧ src.failed = false ∧ n ≤ src.bytes.length

/-- The request of an OP of the loader (R534). -/
def loaderCommand (op : Nat) (q : LoaderReq) (ok vqps core : Bool) (outs : List Pulsed) : Instr :=
  if op = 1 then .sessionOpen q else if op = 2 then .header q ok else if op = 3 then .chunk q ok else if op = 4 then .verify q ok
  else if op = 5 then .activate q ok else if op = 6 then .confirm q ok vqps core outs else if op = 7 then .abort q else .status q

/-- The loader has a request of an OP, of the length that the OP calls for, next from a source; `u` has taken it (R533, R534). No erase of the
flash that waits for the end of a supply warning can be made now, where the OP may change the flash (R567). -/
def State.requested (s : State) (op : Nat) (q : LoaderReq) (r : Req) (u : State) : Prop :=
  s.calm ∧ s.takeReq op q = some (r, u) ∧ bodyFits op r.body.length = true ∧ (2 ≤ op ∧ op ≤ 6 → s.dueErase = s)

/-- The request is one in the open session of its source (R535). -/
def State.session (s : State) (r : Req) (x : Session) : Prop := s.svc.session = some x ∧ x.src = r.src ∧ x.num = r.session

/-- The reply to a request goes back by its transport: on the service port it is the last that went outward; on a tunnel session it is the last
of the bytes sent or waiting there (R416, R533). -/
def State.replied (t : State) (r : Req) (code : Nat) (data : List Nat) : Prop :=
  (r.src = 3 → t.out.getLast? = some (.usb (replyFrame r.op r.session r.seq code data))) ∧
  (r.src ≠ 3 → ∀ x, t.findTunnel (r.src - 0x40) r.tunnel = some x →
    (replyFrame r.op r.session r.seq code data).map (fun b => BitVec.ofNat 8 b) <:+ (x.unacked.map (fun y => y.data) ++ x.waiting).flatten)

/-- A warm reset by a source, and the controller start that it makes due (R17, R137, R576). -/
structure Warmed (s t : State) (src : Nat) : Prop where
  due   : ∃ l, t.pcr.start = some l ∧ src ∈ l
  words : ∀ a, t.getReg a = (s.getReg a &&& keptBits a) ||| (resetWord a &&& ~~~keptBits a)
  time  : t.tb = s.tb ∧ t.tbFrac = s.tbFrac
  flash : t.nor = s.nor
  queue : t.pending = s.pending ∧ t.out = s.out
  otp   : t.otp.prog = none ∧ t.otp.inForce = []
  rest  : t = { State.reset with
    regs := t.regs, pending := t.pending, out := t.out, nor := t.nor, tb := t.tb, tbFrac := t.tbFrac, free := t.free, otp := t.otp, pcr := t.pcr
    host := { HostSt.reset with perstLow := s.host.perstLow }, hf := { HfSt.reset with pinLow := s.hf.pinLow }, tap := s.tap }

/-- TYPE of a ring message (R395); 0 where it is unknown. -/
def msgType : RingMsg → Nat
  | .hello .. => 1
  | .versionAgree .. => 2
  | .track .. => 3
  | .pgo .. => 4
  | .venc .. => 5
  | .reject .. => 6
  | .mgmt .. => 7
  | .service .. => 8
  | .ptp .. => 9
  | .other .. => 0

/-- TYPE of the oldest frame admitted. -/
def State.nextType (s : State) : Option Nat := s.ring.inbox.head?.map (fun a => msgType a.frame.msg)

/-- The state that has taken the oldest frame admitted and leaves `rest` in the inbox. -/
def State.took (s : State) (rest : List Admitted) : State := s.onRing (fun r => { r with inbox := rest })

/-- What a write access leaves that does not reach a register: nothing changes where the unit is absent, retired or held in reset; an access to a
domain that is off, or to an address in no block, is reported with its master (R4, R22, R27). -/
def State.turned (s : State) (m : Master) (a : Nat) (u : State) : Prop :=
  ((s.reach a = .held ∨ ∃ b c off, s.reach a = .absent b c off) ∧ u = s) ∨
  (s.reach a = .off ∧ u = s.reportBy 0x201 (BitVec.ofNat 32 a) m) ∨
  (s.reach a = .unmapped ∧ u = s.reportBy 0x200 (BitVec.ofNat 32 a) m)

/-- The master and the register of a command that is a write of one register. The commands that the ports and the scopes watch are left to
`watchedTarget`. -/
def writeTarget : Instr → Option (Master × Nat)
  | .dmaRestart m _ => some (m, Reg.BAR_CTL)
  | .channelStop m c _ => some (m, Reg.BAR_CH_CTL c)
  | .scanConfigCommit m n _ => some (m, Reg.SHR_CTX_ALIGN_R n)
  | .stitchZoneWrite m z _ => some (m, Reg.SHR_ZONE_B z)
  | .maskCheck m _ => some (m, Reg.SHR_CHECK)
  | .grfNset m _ => some (m, Reg.GRF_NSET)
  | .substitutionEntryWrite m e _ => some (m, Reg.GRF_SUB_W3 e)
  | .commit m n => some (m, Reg.CTX_COMMIT n)
  | .cancel m n => some (m, Reg.CTX_COMMIT n)
  | .immediate m n => some (m, Reg.CTX_COMMIT n)
  | .domainCtlWrite m _ => some (m, Reg.PCR_DOM_CTL)
  | .domainReset m _ => some (m, Reg.PCR_DOM_RST)
  | .portGateWrite m p g _ _ => some (m, Reg.PORT_GATE p g)
  | .gateRelease m p hi _ => some (m, if hi then Reg.PORT_GSTAT_HI p else Reg.PORT_GSTAT_LO p)
  | .freezeRegister m _ => some (m, Reg.HF_CTL)
  | .plateDescriptorWrite m d _ => some (m, Reg.PLD_W3 d)
  | .hregGo m p _ => some (m, Reg.NV_HREG_CMD p)
  | .lockSet m _ => some (m, Reg.PF_LOCK_SET)
  | .marginScan m _ => some (m, Reg.PF_CTL)
  | .tbIncWrite m _ => some (m, Reg.PCR_TB_INC)
  | .chipReset m _ => some (m, Reg.PCR_RST)
  | .errNRelease m _ => some (m, Reg.RAKE_ERRN)
  | .clrFirst m _ => some (m, Reg.RAKE_CTL)
  | .injectionArm m _ => some (m, Reg.RAKE_INJ_CTL)
  | .mailboxGo m b _ => some (m, Reg.RING_MBX_CMD b)
  | .watchdogFeed m _ => some (m, Reg.PCR_WDOG)
  | .ringEnable m k _ => some (m, Reg.HOST_RCTL k)
  | .ringDisable m k _ => some (m, Reg.HOST_RCTL k)
  | .doorbell m r _ => some (m, Reg.DOORBELL r)
  | .hostRconsWrite m q _ => some (m, Reg.HOST_RCONS (entryGroup q))
  | .ringResume m k _ => some (m, Reg.HOST_RSTAT k)
  | .cfgDone m _ => some (m, Reg.HOST_CTL)
  | .join m _ => some (m, Reg.RING_CFG)
  | .axisStop m a _ => some (m, Reg.AX_CTL a)
  | .axisSoftstop m a _ => some (m, Reg.AX_CTL a)
  | .setPos m a _ => some (m, Reg.AX_CTL a)
  | .stopAll m _ => some (m, Reg.TIL_CTL)
  | .tokenAcquire m n _ => some (m, Reg.OWN n)
  | .tokenRelease m n => some (m, Reg.OWN n)
  | .tokenForce m n _ => some (m, Reg.OWN n)
  | .tokenTagWrite m n _ => some (m, Reg.OWN n)
  | _ => none

/-- The same for the writes after which each port looks whether it is still ready (R268). -/
def watchedTarget : Instr → Option (Master × Nat)
  | .portEnable m p _ => some (m, Reg.PORT_CFG p)
  | .portDisable m p _ => some (m, Reg.PORT_CFG p)
  | .retrain m p _ => some (m, Reg.NV_CFG p)
  | _ => none

/-- Whether a command takes effect while Hoarfrost holds the clocks of the islands: resets, supplies, the OTP engine, the levels of the
encoders, and what ends a freeze or works over JTAG (R586 to R594). -/
def runsFrozen : Instr → Bool
  | .perstN _ => true
  | .functionLevelReset => true
  | .supplyWarnBegin _ => true
  | .supplyWarnEnd _ => true
  | .longWarning _ => true
  | .supplyReset _ => true
  | .powerOnReset => true
  | .resetN => true
  | .refclk25Loss => true
  | .errNPulseEnd => true
  | .avsStep => true
  | .programWordDone _ _ => true
  | .scanComplete => true
  | .programmingSupplyLeftRange _ => true
  | .encoderEdge _ _ _ _ => true
  | .freezePin => true
  | .islandStopped _ => true
  | .freezeReleasePin => true
  | .releaseTimeout => true
  | .hfSel _ => true
  | .hfRead => true
  | .hfMem _ => true
  | .hfCtlFreeze => true
  | .hfCtlRelease => true
  | .tapReset => true
  | .idcode => true
  | .samplePreload _ _ => true
  | .extest _ _ => true
  | .highz => true
  | .clamp => true
  | .bypass => true
  | .controllerStart => true
  | _ => false

end Sys2Proof.Machine
end

