-- ==== Sys2Proof/Certificates/Slice0/Obligations.lean ====
section
/-! DEFINITION. The statements for the provers. -/

open Sys2Proof Sys2Proof.Machine

/-- One step takes the command at the front of the queue and answers what it does on the queue's rest; an empty queue lets one cycle
pass, which is the model's choice (DESIGN CHOICE, log entry 4). -/
def Obligations.StepRunsFrontCommand : Prop :=
  (∀ (s : State) (c : Instr) (rest : List Instr), s.pending = c :: rest → step s = exec c { s with pending := rest }) ∧
  (∀ s : State, s.pending = [] → step s = .next s.idleCycle)

/-- Every command ends in a next state, in every state: none faults and none is refused. -/
def Obligations.EveryCommandGoesOn : Prop :=
  ∀ (c : Instr) (s : State), goesOn (exec c s)

/-- Ring setup (R71, R72): ENABLE starts a DISABLED ring at INDEX 0, PHASE 1, and is refused with ERR 1 for a size beyond R71 and ERR 2
for a base of 0, the lower code first; of a ring that drains it is held. While ENABLE is set another size is SETUP_LOCKED. Clearing
ENABLE drains the ring; a drained ring is DISABLED, or starts again when an ENABLE was held. -/
def Obligations.RingSetup : Prop :=
  (∀ (m : Master) (k : Fin 51) (v : Word) (s : State), s.calm → s.reaches (Reg.HOST_RCTL k) →
    s.on (Fld.HOST_RCTL_ENABLE k) = false → s.rd (Fld.HOST_RSTAT_STATE k) = 0 → s.startable k (bitsOf v 4 0) →
    ∃ t, exec (.ringEnable m k v) s = .next t ∧ t.on (Fld.HOST_RCTL_ENABLE k) = true ∧ t.rd (Fld.HOST_RSTAT_STATE k) = 1 ∧
      t.rd (Fld.HOST_RSTAT_ERR k) = 0 ∧ t.getReg (Reg.HOST_RCONS k) = 0x10000 ∧
      t.rd (Fld.HOST_RCTL_SIZE_LOG2 k) = bitsOf v 4 0 ∧ t.rd (Fld.HOST_RCTL_VEC k) = bitsOf v 21 16 ∧
      t.rd (Fld.HOST_RCTL_COAL_N k) = bitsOf v 15 8 ∧ t.late = (if k.val = 50 then [] else s.late) ∧
      (k.val ≠ 50 ∨ s.late = [] → t.getReg (Reg.HOST_RPROD k) = 0x10000 ∧
        s.regsBut t [Reg.HOST_RCTL k, Reg.HOST_RSTAT k, Reg.HOST_RPROD k, Reg.HOST_RCONS k] ∧
        t = { s with regs := t.regs, bar := t.bar, host := { s.host with rings := t.host.rings } }) ∧
      (16 < k.val ∧ k.val < 49 → (t.getChan32 (k.val - 17)).marks = []) ∧ (k.val ≤ 16 → t.bar = s.bar)) ∧
  (∀ (m : Master) (k : Fin 51) (v : Word) (s : State), s.calm → s.reaches (Reg.HOST_RCTL k) →
    s.on (Fld.HOST_RCTL_ENABLE k) = false → s.rd (Fld.HOST_RSTAT_STATE k) = 0 → ¬ s.startable k (bitsOf v 4 0) →
    ∃ t, exec (.ringEnable m k v) s = .next t ∧ t.on (Fld.HOST_RCTL_ENABLE k) = false ∧ t.rd (Fld.HOST_RSTAT_STATE k) = 0 ∧
      t.rd (Fld.HOST_RSTAT_ERR k) = (if bitsOf v 4 0 < 4 ∨ 16 < bitsOf v 4 0 then 1 else 2) ∧
      s.regsBut t (Reg.HOST_RCTL k :: Reg.HOST_RSTAT k :: noticeWords)) ∧
  (∀ (m : Master) (k : Fin 51) (v : Word) (s : State), s.calm → s.reaches (Reg.HOST_RCTL k) →
    s.on (Fld.HOST_RCTL_ENABLE k) = false → s.rd (Fld.HOST_RSTAT_STATE k) ≠ 0 →
    ∃ t, exec (.ringEnable m k v) s = .next t ∧ (t.getRing k).enableHeld = true ∧ t.on (Fld.HOST_RCTL_ENABLE k) = false ∧
      t.rd (Fld.HOST_RCTL_SIZE_LOG2 k) = bitsOf v 4 0 ∧ s.regsBut t [Reg.HOST_RCTL k] ∧ s.onlyRings t) ∧
  (∀ (m : Master) (k : Fin 51) (v : Word) (s : State), s.calm → s.reaches (Reg.HOST_RCTL k) → s.on (Fld.HOST_RCTL_ENABLE k) = true →
    ∃ t, exec (.ringEnable m k v) s = .next t ∧ t.on (Fld.HOST_RCTL_ENABLE k) = true ∧
      (bitsOf v 4 0 = s.rd (Fld.HOST_RCTL_SIZE_LOG2 k) → t.rd (Fld.HOST_RCTL_VEC k) = bitsOf v 21 16 ∧
        t.rd (Fld.HOST_RCTL_COAL_N k) = bitsOf v 15 8 ∧ s.regsBut t [Reg.HOST_RCTL k] ∧ s.onlyRegs t) ∧
      (bitsOf v 4 0 ≠ s.rd (Fld.HOST_RCTL_SIZE_LOG2 k) → RingFault s t k 7)) ∧
  (∀ (m : Master) (k : Fin 51) (v : Word) (s : State), s.calm → s.reaches (Reg.HOST_RCTL k) → s.on (Fld.HOST_RCTL_ENABLE k) = true →
    bitsOf v 4 0 = s.rd (Fld.HOST_RCTL_SIZE_LOG2 k) →
    ∃ t, exec (.ringDisable m k v) s = .next t ∧ t.on (Fld.HOST_RCTL_ENABLE k) = false ∧ t.rd (Fld.HOST_RSTAT_STATE k) = 2 ∧
      t.rd (Fld.HOST_RCTL_VEC k) = bitsOf v 21 16 ∧ t.rd (Fld.HOST_RCTL_COAL_N k) = bitsOf v 15 8 ∧
      (t.getRing k).enableHeld = false ∧ s.regsBut t [Reg.HOST_RCTL k, Reg.HOST_RSTAT k] ∧ s.onlyRings t) ∧
  (∀ (m : Master) (k : Fin 51) (v : Word) (s : State), s.calm → s.reaches (Reg.HOST_RCTL k) → s.on (Fld.HOST_RCTL_ENABLE k) = true →
    bitsOf v 4 0 ≠ s.rd (Fld.HOST_RCTL_SIZE_LOG2 k) → ∃ t, exec (.ringDisable m k v) s = .next t ∧ RingFault s t k 7) ∧
  (∀ (m : Master) (k : Fin 51) (v : Word) (s : State), s.calm → s.reaches (Reg.HOST_RCTL k) → s.on (Fld.HOST_RCTL_ENABLE k) = false →
    ∃ t, exec (.ringDisable m k v) s = .next t ∧ (t.getRing k).enableHeld = false ∧ t.on (Fld.HOST_RCTL_ENABLE k) = false ∧
      t.rd (Fld.HOST_RCTL_SIZE_LOG2 k) = bitsOf v 4 0 ∧ s.regsBut t [Reg.HOST_RCTL k] ∧ s.onlyRings t) ∧
  (∀ (k : Fin 51) (s : State), s.calm → s.rd (Fld.HOST_RSTAT_STATE k) = 2 → (s.getRing k).outstanding = 0 →
    (s.getRing k).enableHeld = false →
    ∃ t, exec (.ringDrained k) s = .next t ∧ t.rd (Fld.HOST_RSTAT_STATE k) = 0 ∧ s.regsBut t [Reg.HOST_RSTAT k] ∧ s.onlyRegs t) ∧
  (∀ (k : Fin 51) (s : State), s.calm → s.rd (Fld.HOST_RSTAT_STATE k) = 2 → (s.getRing k).outstanding = 0 →
    (s.getRing k).enableHeld = true → s.startable k (s.rd (Fld.HOST_RCTL_SIZE_LOG2 k)) → k.val ≠ 50 ∨ s.late = [] →
    ∃ t, exec (.ringDrained k) s = .next t ∧ t.rd (Fld.HOST_RSTAT_STATE k) = 1 ∧ t.on (Fld.HOST_RCTL_ENABLE k) = true ∧
      t.getReg (Reg.HOST_RPROD k) = 0x10000 ∧ t.getReg (Reg.HOST_RCONS k) = 0x10000 ∧ (t.getRing k).enableHeld = false ∧
      s.regsBut t [Reg.HOST_RCTL k, Reg.HOST_RSTAT k, Reg.HOST_RPROD k, Reg.HOST_RCONS k]) ∧
  (∀ (k : Fin 51) (s : State), s.calm → s.rd (Fld.HOST_RSTAT_STATE k) ≠ 2 ∨ (s.getRing k).outstanding ≠ 0 →
    exec (.ringDrained k) s = .next s)

/-- Doorbells and consumer positions (R74, R77): an accepted write sets the position and nothing else of the register space. A doorbell
that moves a DMA ring's producer begins at the position before it (R370). A doorbell outside R74 is DB_RANGE, also of a ring whose ENABLE
is clear (R636), one of such a ring inside R74 is DB_DISABLED, and a consumer position outside R74 is DB_RANGE; each is ignored (R71,
R74). That a position past the producer is judged along the ring is the model's reading (DEDUCED, log entry 6). -/
def Obligations.PositionsAndDoorbells : Prop :=
  (∀ (m : Master) (r : Fin 49) (v : Word) (s : State), s.calm → s.reaches (Reg.DOORBELL r) → s.on (Fld.HOST_RCTL_ENABLE r) = true →
    bitsOf v 15 0 < s.ringSize r → entriesFrom (s.ringSize r) (s.cons r) (linearOf (s.ringSize r) v) ≤ s.ringSize r →
    ∃ t, exec (.doorbell m r v) s = .next t ∧ t.getReg (Reg.HOST_RPROD r) = v &&& 0x1FFFF ∧
      s.regsBut t [Reg.HOST_RPROD r] ∧ t = { s with regs := t.regs, bar := { s.bar with chans := t.bar.chans } } ∧
      (r.val ≤ 16 → t.bar = s.bar) ∧
      (16 < r.val → (t.getChan32 (r.val - 17)).marks = (s.getChan32 (r.val - 17)).marks ++
        (if s.getReg (Reg.HOST_RPROD r) = v &&& 0x1FFFF then [] else [bitsOf (s.getReg (Reg.HOST_RPROD r)) 15 0]))) ∧
  (∀ (m : Master) (q : EntryRing) (v : Word) (s : State), s.calm → s.reaches (Reg.HOST_RCONS (entryGroup q)) →
    bitsOf v 15 0 < s.ringSize (entryGroup q) →
    entriesFrom (s.ringSize (entryGroup q)) (linearOf (s.ringSize (entryGroup q)) v) (s.prod (entryGroup q)) ≤ s.ringSize (entryGroup q) →
    entriesFrom (s.ringSize (entryGroup q)) (s.cons (entryGroup q)) (linearOf (s.ringSize (entryGroup q)) v)
      ≤ entriesFrom (s.ringSize (entryGroup q)) (s.cons (entryGroup q)) (s.prod (entryGroup q)) →
    ∃ t, exec (.hostRconsWrite m q v) s = .next t ∧ t.getReg (Reg.HOST_RCONS (entryGroup q)) = v &&& 0x1FFFF ∧
      s.regsBut t [Reg.HOST_RCONS (entryGroup q)] ∧ s.onlyRegs t) ∧
  (∀ (m : Master) (r : Fin 49) (v : Word) (s : State), s.calm → s.reaches (Reg.DOORBELL r) →
    (s.ringSize r ≤ bitsOf v 15 0 ∨ s.ringSize r < entriesFrom (s.ringSize r) (s.cons r) (linearOf (s.ringSize r) v)) →
    ∃ t, exec (.doorbell m r v) s = .next t ∧ RingFault s t r 3 ∧ t.getReg (Reg.HOST_RPROD r) = s.getReg (Reg.HOST_RPROD r)) ∧
  (∀ (m : Master) (r : Fin 49) (v : Word) (s : State), s.calm → s.reaches (Reg.DOORBELL r) → s.on (Fld.HOST_RCTL_ENABLE r) = false →
    bitsOf v 15 0 < s.ringSize r → entriesFrom (s.ringSize r) (s.cons r) (linearOf (s.ringSize r) v) ≤ s.ringSize r →
    ∃ t, exec (.doorbell m r v) s = .next t ∧ RingFault s t r 4 ∧ t.getReg (Reg.HOST_RPROD r) = s.getReg (Reg.HOST_RPROD r)) ∧
  (∀ (m : Master) (q : EntryRing) (v : Word) (s : State), s.calm → s.reaches (Reg.HOST_RCONS (entryGroup q)) →
    (s.ringSize (entryGroup q) ≤ bitsOf v 15 0 ∨
      s.ringSize (entryGroup q) < entriesFrom (s.ringSize (entryGroup q)) (linearOf (s.ringSize (entryGroup q)) v) (s.prod (entryGroup q)) ∨
      entriesFrom (s.ringSize (entryGroup q)) (s.cons (entryGroup q)) (s.prod (entryGroup q))
        < entriesFrom (s.ringSize (entryGroup q)) (s.cons (entryGroup q)) (linearOf (s.ringSize (entryGroup q)) v)) →
    ∃ t, exec (.hostRconsWrite m q v) s = .next t ∧ RingFault s t (entryGroup q) 3 ∧
      t.getReg (Reg.HOST_RCONS (entryGroup q)) = s.getReg (Reg.HOST_RCONS (entryGroup q)))

/-- Fetching (R75): a descriptor with the phase of its position is taken and the consumer advances; in rescue mode one of the CR
completes BUSY at once (R550). One with another phase is read again, and after the fourth further read the ring is STOPPED with ERR =
PHASE; a failed fetch stops it with FETCH_ERROR and a report (R71). RESUME reads the descriptor of a STOPPED ring again: with its phase
the ring is ACTIVE, else it stays STOPPED (R72). -/
def Obligations.DescriptorFetching : Prop :=
  (∀ (k : Fin 49) (dw : List Word) (s : State), s.calm → s.fetches k = true → (s.getRing k).retries = 0 →
    (k.val = 0 → s.mp.rescue = false) → bitOf (dwAt dw 0) 31 = s.consPhase k →
    ∃ t, exec (.descriptorFetch k (.data dw)) s = .next t ∧ t.getReg (Reg.HOST_RCONS k) = positionOf (s.ringSize k) (s.cons k + 1) ∧
      (t.getRing k).fetched = (s.getRing k).fetched ++ [⟨bitsOf (s.getReg (Reg.HOST_RCONS k)) 15 0, dw⟩] ∧
      (t.getRing k).outstanding = (s.getRing k).outstanding + 1 ∧ s.regsBut t [Reg.HOST_RCONS k] ∧
      t = { s with regs := t.regs, host := { s.host with rings := t.host.rings, fetchNo := s.host.fetchNo + 1 } }) ∧
  (∀ (dw : List Word) (s : State), s.calm → s.fetches 0 = true → (s.getRing 0).retries = 0 → s.mp.rescue = true → s.cqRoom →
    bitOf (dwAt dw 0) 31 = s.consPhase 0 →
    ∃ t, exec (.descriptorFetch 0 (.data dw)) s = .next t ∧ t.getReg (Reg.HOST_RCONS 0) = positionOf (s.ringSize 0) (s.cons 0 + 1) ∧
      (t.getRing 0).fetched = (s.getRing 0).fetched ∧
      s.answered t 0 ⟨bitsOf (s.getReg (Reg.HOST_RCONS 0)) 15 0, dw⟩ 0x12 0xFE) ∧
  (∀ (k : Fin 49) (dw : List Word) (s : State), s.calm → s.fetches k = true → (s.getRing k).retries = 0 →
    bitOf (dwAt dw 0) 31 ≠ s.consPhase k →
    ∃ t, exec (.descriptorFetch k (.data dw)) s = .next t ∧ (t.getRing k).retries = 1 ∧
      t = { s with host := { s.host with rings := t.host.rings } }) ∧
  (∀ (k : Fin 49) (s : State), s.calm → s.fetches k = true → (s.getRing k).retries = 0 →
    ∃ t, exec (.descriptorFetch k .error) s = .next t ∧ t.rd (Fld.HOST_RSTAT_STATE k) = 3 ∧ t.rd (Fld.HOST_RSTAT_ERR k) = 6 ∧
      (t.rakeQ.map (fun r => r.src)) = (s.rakeQ.map (fun r => r.src)) ++ [0x202] ∧ s.regsBut t (Reg.HOST_RSTAT k :: noticeWords)) ∧
  (∀ (k : Fin 49) (dw : List Word) (s : State), s.calm → s.fetches k = true → (s.getRing k).retries ≠ 0 →
    (k.val = 0 → s.mp.rescue = false) → bitOf (dwAt dw 0) 31 = s.consPhase k →
    ∃ t, exec (.phaseRetry k (.data dw)) s = .next t ∧ t.getReg (Reg.HOST_RCONS k) = positionOf (s.ringSize k) (s.cons k + 1) ∧
      (t.getRing k).retries = 0 ∧ (t.getRing k).outstanding = (s.getRing k).outstanding + 1 ∧
      (t.getRing k).fetched = (s.getRing k).fetched ++ [⟨bitsOf (s.getReg (Reg.HOST_RCONS k)) 15 0, dw⟩] ∧ s.regsBut t [Reg.HOST_RCONS k]) ∧
  (∀ (k : Fin 49) (dw : List Word) (s : State), s.calm → s.fetches k = true → (s.getRing k).retries ≠ 0 → (s.getRing k).retries < 4 →
    bitOf (dwAt dw 0) 31 ≠ s.consPhase k →
    ∃ t, exec (.phaseRetry k (.data dw)) s = .next t ∧ (t.getRing k).retries = (s.getRing k).retries + 1 ∧
      t = { s with host := { s.host with rings := t.host.rings } }) ∧
  (∀ (k : Fin 49) (dw : List Word) (s : State), s.calm → s.fetches k = true → 4 ≤ (s.getRing k).retries →
    bitOf (dwAt dw 0) 31 ≠ s.consPhase k →
    ∃ t, exec (.phaseRetry k (.data dw)) s = .next t ∧ t.rd (Fld.HOST_RSTAT_STATE k) = 3 ∧ t.rd (Fld.HOST_RSTAT_ERR k) = 5 ∧
      (t.getRing k).retries = 0 ∧ t.getReg (Reg.HOST_RCONS k) = s.getReg (Reg.HOST_RCONS k) ∧
      s.regsBut t (Reg.HOST_RSTAT k :: noticeWords)) ∧
  (∀ (k : Fin 49) (s : State), s.calm → s.fetches k = true → (s.getRing k).retries ≠ 0 →
    ∃ t, exec (.phaseRetry k .error) s = .next t ∧ t.rd (Fld.HOST_RSTAT_STATE k) = 3 ∧ t.rd (Fld.HOST_RSTAT_ERR k) = 6 ∧
      (t.rakeQ.map (fun r => r.src)) = (s.rakeQ.map (fun r => r.src)) ++ [0x202] ∧ s.regsBut t (Reg.HOST_RSTAT k :: noticeWords)) ∧
  (∀ (m : Master) (k : Fin 51) (dw : List Word) (s : State), s.calm → s.reaches (Reg.HOST_RSTAT k) → s.rd (Fld.HOST_RSTAT_STATE k) = 3 →
    bitOf (dwAt dw 0) 31 = s.consPhase k →
    ∃ t, exec (.ringResume m k (.data dw)) s = .next t ∧ t.rd (Fld.HOST_RSTAT_STATE k) = 1 ∧
      t.rd (Fld.HOST_RSTAT_ERR k) = s.rd (Fld.HOST_RSTAT_ERR k) ∧ s.regsBut t [Reg.HOST_RSTAT k] ∧ s.onlyRegs t) ∧
  (∀ (m : Master) (k : Fin 51) (dw : List Word) (s : State), s.calm → s.reaches (Reg.HOST_RSTAT k) → s.rd (Fld.HOST_RSTAT_STATE k) = 3 →
    bitOf (dwAt dw 0) 31 ≠ s.consPhase k →
    ∃ t, exec (.ringResume m k (.data dw)) s = .next t ∧ RingFault s t k (s.rd (Fld.HOST_RSTAT_ERR k))) ∧
  (∀ (m : Master) (k : Fin 51) (s : State), s.calm → s.reaches (Reg.HOST_RSTAT k) → s.rd (Fld.HOST_RSTAT_STATE k) = 3 →
    ∃ t, exec (.ringResume m k .error) s = .next t ∧ t.rd (Fld.HOST_RSTAT_STATE k) = 3 ∧ t.rd (Fld.HOST_RSTAT_ERR k) = 6 ∧
      (t.rakeQ.map (fun r => r.src)) = (s.rakeQ.map (fun r => r.src)) ++ [0x202]) ∧
  (∀ (m : Master) (k : Fin 51) (d : Fetched) (s : State), s.calm → s.reaches (Reg.HOST_RSTAT k) → s.rd (Fld.HOST_RSTAT_STATE k) ≠ 3 →
    exec (.ringResume m k d) s = .next s)

/-- Entries (R73, R76, R79, R92): a waiting completion is written at the CQ's producer once the CQ has room and the reports before it are
handled, and stays waiting until then; an owed ER_OVERFLOW event is written once the ER has room, unless it is suppressed (R67); COAL_T
after the first unsignalled entry, at least 1 µs, the ring's vector sets its pending bit. -/
def Obligations.EntriesAndInterrupts : Prop :=
  (∀ (s : State) (c : Completion) (rest : List Completion), s.calm → s.host.cqQueue = c :: rest → s.entryRoom .cq = true →
    (s.rakeQ.take c.after).all s.reportWaits = true →
    ∃ t, exec .cqEntryWrite s = .next t ∧ t.host.cqQueue = rest ∧
      t.getReg (Reg.HOST_RPROD 49) = positionOf (s.ringSize 49) (s.prod 49 + 1) ∧
      (∃ addr dw l, t.out = s.out ++ .cq addr dw :: l ∧ dw.getD 1 0 = c.tag ∧ dw.getD 2 0 = c.dw2 ∧ dw.getD 3 0 = c.dw3 ∧
        dw.getD 0 0 = BitVec.ofNat 32 ((if bitOf (positionOf (s.ringSize 49) (s.prod 49)) 16 then 0x80000000 else 0) +
          c.ring * 2 ^ 24 + c.status * 2 ^ 16 + c.index)) ∧ Told s t) ∧
  (∀ (s : State) (c : Completion) (rest : List Completion), s.calm → s.host.cqQueue = c :: rest →
    s.entryRoom .cq = false ∨ (s.rakeQ.take c.after).all s.reportWaits = false → exec .cqEntryWrite s = .next s) ∧
  (∀ s : State, s.calm → s.host.erOwed = true → s.entryRoom .er = true → s.evMasked 0x03 = false →
    ∃ t, exec .erOverflow s = .next t ∧ t.host.erOwed = false ∧ t.getReg (Reg.HOST_RPROD 50) = positionOf (s.ringSize 50) (s.prod 50 + 1) ∧
      (∃ addr dw l, t.out = s.out ++ .er addr dw :: l ∧ dw.getD 4 0 = s.getReg Reg.HOST_ER_LOST) ∧ Told s t) ∧
  (∀ s : State, s.calm → s.host.erOwed = true → s.entryRoom .er = true → s.evMasked 0x03 = true →
    ∃ t, exec .erOverflow s = .next t ∧ t = { s with host := { s.host with erOwed := false } }) ∧
  (∀ s : State, s.calm → s.host.erOwed = false ∨ s.entryRoom .er = false → exec .erOverflow s = .next s) ∧
  (∀ (k : Fin 51) (s : State), s.calm → (s.getRing k).unsignalled ≠ 0 →
    (s.getRing k).since + max 1 (s.rd (Fld.HOST_RIRQ_COAL_T k)) * 4000 ≤ s.tb.toNat →
    ∃ t, exec (.coalesceTimeout k) s = .next t ∧ (t.getRing k).unsignalled = 0 ∧
      bitOf (t.getReg (ipendReg (s.rd (Fld.HOST_RCTL_VEC k)))) (s.rd (Fld.HOST_RCTL_VEC k) % 32) = true ∧ Told s t) ∧
  (∀ (k : Fin 51) (s : State), s.calm → (s.getRing k).unsignalled = 0 ∨
    s.tb.toNat < (s.getRing k).since + max 1 (s.rd (Fld.HOST_RIRQ_COAL_T k)) * 4000 → exec (.coalesceTimeout k) s = .next s)

/-- CFG_RETRY (R60, R66): CFG_DONE clears it; after 900 ms the hardware clears it and sets MP_LATE; while it is set a configuration
request is answered with a retry status, and afterwards every request is executed and answered: writes set D3hot, the payload and read
request sizes, extended tags, MSI-X and the bases (R43, R54, R55, R73), and the serial number reads from the identity region (R54). -/
def Obligations.ConfigurationRetry : Prop :=
  (∀ (m : Master) (v : Word) (s : State), s.calm → s.reaches Reg.HOST_CTL →
    ∃ t, exec (.cfgDone m v) s = .next t ∧ t.on Fld.HOST_STAT_CFG_RETRY = false ∧ t.on Fld.HOST_CTL_INTN_EN = bitOf v 1 ∧
      s.regsBut t [Reg.HOST_CTL, Reg.HOST_STAT] ∧ s.onlyRegs t) ∧
  (∀ s : State, s.calm → s.on Fld.HOST_STAT_CFG_RETRY = true → s.domOn .host = true → s.host.perstLow = false →
    ∃ t, exec .cfgRetryTimeout s = .next t ∧ t.on Fld.HOST_STAT_CFG_RETRY = false ∧ t.on Fld.HOST_STAT_MP_LATE = true ∧
      s.regsBut t [Reg.HOST_STAT] ∧ s.onlyRegs t) ∧
  (∀ s : State, s.calm → s.on Fld.HOST_STAT_CFG_RETRY = false ∨ s.domOn .host = false ∨ s.host.perstLow = true →
    exec .cfgRetryTimeout s = .next s) ∧
  (∀ (req : ConfigReq) (s : State), s.calm → s.linkPossible = true → s.linkUp = true → s.on Fld.HOST_STAT_CFG_RETRY = true →
    ∃ t, exec (.configurationRequest req) s = .next t ∧ t = s.emit (.cfg true 0)) ∧
  (∀ (req : ConfigReq) (s : State), s.calm → s.linkPossible = true → s.linkUp = true → s.on Fld.HOST_STAT_CFG_RETRY = false →
    ∃ t v, exec (.configurationRequest req) s = .next t ∧ t.out.getLast? = some (.cfg false v) ∧
      t = { s with regs := t.regs, out := t.out, free := t.free, host := { s.host with cfg := t.host.cfg } }) ∧
  (∀ (b : Bool) (s : State), s.calm → s.linkPossible = true → s.linkUp = true → s.on Fld.HOST_STAT_CFG_RETRY = false →
    ∃ t, exec (.configurationRequest (.d3hot b)) s = .next t ∧ t.host.cfg = { s.host.cfg with d3hot := b } ∧ t.out = s.out ++ [.cfg false 0] ∧
      t = { s with out := t.out, host := { s.host with cfg := t.host.cfg } }) ∧
  (∀ (k : Fin 3) (s : State), s.calm → s.linkPossible = true → s.linkUp = true → s.on Fld.HOST_STAT_CFG_RETRY = false →
    ∃ t, exec (.configurationRequest (.maxPayload k)) s = .next t ∧ t.host.cfg = { s.host.cfg with mps := 128 * 2 ^ k.val } ∧
      t.out = s.out ++ [.cfg false 0]) ∧
  (∀ (k : Fin 6) (s : State), s.calm → s.linkPossible = true → s.linkUp = true → s.on Fld.HOST_STAT_CFG_RETRY = false →
    ∃ t, exec (.configurationRequest (.maxReadRequest k)) s = .next t ∧ t.host.cfg = { s.host.cfg with mrrs := 128 * 2 ^ k.val } ∧
      t.out = s.out ++ [.cfg false 0]) ∧
  (∀ (b : Bool) (s : State), s.calm → s.linkPossible = true → s.linkUp = true → s.on Fld.HOST_STAT_CFG_RETRY = false →
    ∃ t, exec (.configurationRequest (.extendedTag b)) s = .next t ∧ t.host.cfg = { s.host.cfg with extTag := b } ∧
      t.out = s.out ++ [.cfg false 0]) ∧
  (∀ (b c : Bool) (s : State), s.calm → s.linkPossible = true → s.linkUp = true → s.on Fld.HOST_STAT_CFG_RETRY = false →
    ∃ t, exec (.configurationRequest (.msix b c)) s = .next t ∧ t.host.cfg = { s.host.cfg with msixEn := b, msixMask := c } ∧
      s.regsBut t [Reg.HOST_MSIX_PBA 0, Reg.HOST_MSIX_PBA 1]) ∧
  (∀ s : State, s.calm → s.linkPossible = true → s.linkUp = true → s.on Fld.HOST_STAT_CFG_RETRY = false →
    ∃ t u, exec (.configurationRequest (.capability .serial 1)) s = .next t ∧
      exec (.configurationRequest (.capability .serial 2)) s = .next u ∧
      t.out = s.out ++ [.cfg false (BitVec.ofNat 32 s.units.serial)] ∧ u.out = s.out ++ [.cfg false (BitVec.ofNat 32 (s.units.serial / 2 ^ 32))]) ∧
  (∀ (req : ConfigReq) (s : State), s.calm → s.linkPossible = false ∨ s.linkUp = false → exec (.configurationRequest req) s = .next s)

/-- The PCIe link (R52, R59, R65, R376): training gives it its rate and width, and nothing but a notice follows; a loss takes both, and
halts Barrow with cause 5 when it runs with a read or write of it outstanding. A link that cannot be, is up already or is not up stays as
it is. PERST_N and a Function Level Reset reset the HOST domain only (R62): its registers return to reset, every ring is DISABLED at
INDEX 0, PHASE 1, every token is free, no completion waits, and no register outside HOST changes. PERST_N does so at its fall alone;
during a freeze either is held (R588), and with the HOST domain off nothing is reset. -/
def Obligations.LinkAndHostReset : Prop :=
  (∀ (sp : LinkSpeed) (w : LinkWidth) (s : State), s.calm → s.linkPossible = true → s.linkUp = false →
    ∃ t, exec (.pcieLinkUp sp w) s = .next t ∧ t.host.speed = speedCode sp ∧ t.host.width = widthCode w ∧ t.linkUp = true ∧
      Told { s with host := { s.host with speed := speedCode sp, width := widthCode w } } t) ∧
  (∀ (sp : LinkSpeed) (w : LinkWidth) (s : State), s.calm → s.linkPossible = false ∨ s.linkUp = true →
    exec (.pcieLinkUp sp w) s = .next s) ∧
  (∀ (sp : LinkSpeed) (w : LinkWidth) (s : State), s.calm → s.linkPossible = true → s.linkUp = true →
    ∃ t, exec (.pcieLinkChange sp w) s = .next t ∧ t.host.speed = speedCode sp ∧ t.host.width = widthCode w ∧ t.linkUp = true ∧
      Told { s with host := { s.host with speed := speedCode sp, width := widthCode w } } t) ∧
  (∀ (sp : LinkSpeed) (w : LinkWidth) (s : State), s.calm → s.linkPossible = false ∨ s.linkUp = false →
    exec (.pcieLinkChange sp w) s = .next s) ∧
  (∀ s : State, s.calm → s.domOn .host = true → s.linkUp = true →
    ∃ t, exec .pcieLinkDown s = .next t ∧ t.linkUp = false ∧ t.host.width = 0 ∧ t.host.was = (s.host.speed, s.host.width) ∧
      (s.bar.reads = [] → s.bar.writes = [] → s.barWaits = false →
        t = { s with host := { s.host with was := (s.host.speed, s.host.width), speed := 0, width := 0 } }) ∧
      (∀ r, s.bar.reads.head? = some r → s.barState = 0 → t.barState = 1 ∧ t.rd Fld.BAR_STAT_CAUSE = 5 ∧
        t.on Fld.BAR_STAT_ERR_DEV = r.dev ∧ t.rd64 Reg.BAR_ERR_ADDR_LO = r.addr % 2 ^ 64)) ∧
  (∀ s : State, s.calm → s.domOn .host = false ∨ s.linkUp = false → exec .pcieLinkDown s = .next s) ∧
  (∀ s : State, s.hf.active = false → s.domOn .host = true → s.host.perstLow = false →
    ∃ t, exec (.perstN true) s = .next t ∧ t.host.cqQueue = [] ∧ t.linkUp = false ∧ t.host.perstLow = true ∧
      (∀ n : Fin 32, t.holder n = 0) ∧
      (∀ k : Fin 51, t.rd (Fld.HOST_RSTAT_STATE k) = 0 ∧ t.getReg (Reg.HOST_RPROD k) = 0x10000 ∧ t.getReg (Reg.HOST_RCONS k) = 0x10000) ∧
      (∀ a, t.getReg a = if inDomain .host a then resetWord a else s.getReg a) ∧ t.ports = s.ports ∧ t.tb = s.tb) ∧
  (∀ s : State, s.hf.active = true ∨ s.domOn .host = false ∨ s.host.perstLow = true →
    ∃ t, exec (.perstN true) s = .next t ∧ t.host = { s.host with perstLow := true } ∧
      t.hf.perst = (s.hf.perst || (s.hf.active && !s.host.perstLow)) ∧ t = { s with host := t.host, hf := t.hf }) ∧
  (∀ s : State, ∃ t, exec (.perstN false) s = .next t ∧ t = { s with host := { s.host with perstLow := false } }) ∧
  (∀ s : State, s.hf.active = false → s.domOn .host = true →
    ∃ t, exec .functionLevelReset s = .next t ∧ t.host.cqQueue = [] ∧ t.host.speed = s.host.speed ∧ t.host.width = s.host.width ∧
      (∀ n : Fin 32, t.holder n = 0) ∧
      (∀ k : Fin 51, t.rd (Fld.HOST_RSTAT_STATE k) = 0 ∧ t.getReg (Reg.HOST_RPROD k) = 0x10000 ∧ t.getReg (Reg.HOST_RCONS k) = 0x10000) ∧
      (∀ a, t.getReg a = if inDomain .host a then resetWord a else s.getReg a) ∧ t.ports = s.ports ∧ t.tb = s.tb) ∧
  (∀ s : State, s.hf.active = true ∨ s.domOn .host = false →
    ∃ t, exec .functionLevelReset s = .next t ∧ t.hf.perst = (s.hf.perst || s.hf.active) ∧ t = { s with hf := t.hf })

/-- The OWN tokens (R47, R49): each action on the token it names, for the writing master; no other register changes but those of a
notice. -/
def Obligations.Tokens : Prop :=
  (∀ n : Fin 32, Reg.OWN n = 0x4D0F000 + 4 * n ∧ State.reset.getReg (Reg.OWN n) = 0 ∧ Fld.OWN_HOLDER n = ⟨Reg.OWN n, 23, 16⟩ ∧
    Fld.OWN_TAG n = ⟨Reg.OWN n, 15, 0⟩) ∧
  (∀ (m : Master) (n : Fin 32) (tag : BitVec 16) (s : State), s.calm → s.reaches (Reg.OWN n) →
    ∃ t, exec (.tokenAcquire m n tag) s = .next t ∧
      (s.holder n = 0 → t.holder n = masterCode m ∧ t.rd (Fld.OWN_TAG n) = tag.toNat) ∧ (s.holder n ≠ 0 → t = s) ∧
      s.regsBut t [Reg.OWN n] ∧ t.getReg (Reg.OWN n) >>> 24 = s.getReg (Reg.OWN n) >>> 24 ∧ s.onlyRegs t) ∧
  (∀ (m : Master) (n : Fin 32) (s : State), s.calm → s.reaches (Reg.OWN n) →
    ∃ t, exec (.tokenRelease m n) s = .next t ∧
      (s.holder n = masterCode m → t.holder n = 0 ∧ t.rd (Fld.OWN_TAG n) = 0) ∧ (s.holder n ≠ masterCode m → t = s) ∧
      s.regsBut t [Reg.OWN n] ∧ t.getReg (Reg.OWN n) >>> 24 = s.getReg (Reg.OWN n) >>> 24 ∧ s.onlyRegs t) ∧
  (∀ (m : Master) (n : Fin 32) (tag : BitVec 16) (s : State), s.calm → s.reaches (Reg.OWN n) →
    ∃ t, exec (.tokenForce m n tag) s = .next t ∧ t.holder n = masterCode m ∧ t.rd (Fld.OWN_TAG n) = tag.toNat ∧
      (s.holder n ≠ 0 → s.holder n ≠ masterCode m → bitOf (t.getReg Reg.OWN_STAT) n = true) ∧
      (s.holder n = 0 ∨ s.holder n = masterCode m → s.onlyRegs t) ∧
      t.getReg (Reg.OWN n) >>> 24 = s.getReg (Reg.OWN n) >>> 24 ∧ s.regsBut t (Reg.OWN n :: Reg.OWN_STAT :: noticeWords)) ∧
  (∀ (m : Master) (n : Fin 32) (tag : BitVec 16) (s : State), s.calm → s.reaches (Reg.OWN n) →
    ∃ t, exec (.tokenTagWrite m n tag) s = .next t ∧ t.holder n = s.holder n ∧
      (s.holder n = masterCode m → t.rd (Fld.OWN_TAG n) = tag.toNat) ∧ (s.holder n ≠ masterCode m → t = s) ∧
      s.regsBut t [Reg.OWN n] ∧ t.getReg (Reg.OWN n) >>> 24 = s.getReg (Reg.OWN n) >>> 24 ∧ s.onlyRegs t)

/-- NOP (R78, R84): at its turn it completes OK, on the CR, a job ring or a DMA channel; with a reserved bit set it completes DESC_ERROR,
and an opcode that its ring does not define completes BAD_OPCODE; on the CR and a job ring nothing but the ring and its notices changes. -/
def Obligations.NopAndBadOpcode : Prop :=
  (∀ (k : Fin 49) (d : Desc) (s : State), s.calm → k.val ≤ 16 → (k.val = 0 → s.mpFree = true) →
    s.nextDesc k = some d → d.opcode = 0 → s.cqRoom →
    ∃ t, exec (.nop k) s = .next t ∧ (t.getRing k).fetched = (s.getRing k).fetched.tail ∧ Told s t ∧
      (k.val = 0 → s.answered t 0 d (if d.reservedSet (nopLayout k) then 0x10 else 0) 0) ∧
      (1 ≤ k.val → ∃ c, t.host.cqQueue = s.host.cqQueue ++ [c] ∧ c.ring = k.val ∧ c.index = d.index ∧
        c.status = (if d.reservedSet (nopLayout k) then 0x10 else 0) ∧ c.tag = dwAt d.dw 1)) ∧
  (∀ (k : Fin 49) (d : Desc) (s : State), s.calm → k.val ≤ 16 → (k.val = 0 → s.mpFree = true) →
    s.nextDesc k = some d → opcodeDefined k d.opcode = false → s.cqRoom →
    ∃ t c, exec (.nop k) s = .next t ∧ t.host.cqQueue = s.host.cqQueue ++ [c] ∧ c.ring = k.val ∧ c.status = 0x14 ∧ c.index = d.index ∧
      c.tag = dwAt d.dw 1 ∧ (t.getRing k).fetched = (s.getRing k).fetched.tail ∧ Told s t) ∧
  (∀ (c : Fin 32) (d : Desc) (s : State), s.calm → s.dmaReady c d → s.chanStopped c = false → d.opcode = 0 → s.cqRoom →
    ∃ t, exec (.nop ⟨17 + c.val, by omega⟩) s = .next t ∧
      s.answered t (17 + c.val) d (if d.reservedSet (nopLayout 17) then 0x10 else 0) (if d.reservedSet (nopLayout 17) then dmaResult 7 0 else 0)) ∧
  (∀ (c : Fin 32) (d : Desc) (s : State), s.calm → s.dmaReady c d → 3 < d.opcode → s.cqRoom →
    ∃ t, exec (.nop ⟨17 + c.val, by omega⟩) s = .next t ∧ s.answered t (17 + c.val) d (if s.chanStopped c then 0x18 else 0x14) 0)

/-- Jobs (R86, R89, R116): at the front of its ring a job is checked: without fault it is presented to its queue, of an absent context or
of context 0 it completes UNIT_ABSENT, of an unbound one CTX_STATE, and one that R86 refuses DESC_ERROR. A presented job enters its queue
once there is room, its WAIT condition is met and no job of the context fetched before it is held elsewhere; until then it stays; a skip
of NOJOB_SKIP cancels it there. -/
def Obligations.JobAcceptance : Prop :=
  (∀ (r : Fin 16) (d : Desc) (s : State), s.calm → s.nextDesc (r.val + 1) = some d → d.opcode = 1 → (s.getRing (r.val + 1)).checked = false →
    d.fld 0 15 8 ≠ 0 → s.ctxPresent (d.fld 0 15 8) = true → s.ctxState (d.fld 0 15 8) ≠ 0 → s.jobBad (d.fld 0 15 8) d = false →
    ∃ t, exec (.jobFetch r) s = .next t ∧ (t.getRing (r.val + 1)).checked = true ∧
      (t.getRing (r.val + 1)).fetched = (s.getRing (r.val + 1)).fetched ∧ t = { s with host := { s.host with rings := t.host.rings } }) ∧
  (∀ (r : Fin 16) (d : Desc) (s : State), s.calm → s.nextDesc (r.val + 1) = some d → d.opcode = 1 → (s.getRing (r.val + 1)).checked = false →
    s.cqRoom → d.fld 0 15 8 = 0 ∨ s.ctxPresent (d.fld 0 15 8) = false →
    ∃ t c, exec (.jobFetch r) s = .next t ∧ t.host.cqQueue = s.host.cqQueue ++ [c] ∧ c.status = 0x11 ∧ c.index = d.index ∧
      c.ring = r.val + 1 ∧ (t.getRing (r.val + 1)).fetched = (s.getRing (r.val + 1)).fetched.tail ∧ Told s t) ∧
  (∀ (r : Fin 16) (d : Desc) (s : State), s.calm → s.nextDesc (r.val + 1) = some d → d.opcode = 1 → (s.getRing (r.val + 1)).checked = false →
    s.cqRoom → d.fld 0 15 8 ≠ 0 → s.ctxPresent (d.fld 0 15 8) = true →
    s.ctxState (d.fld 0 15 8) = 0 ∨ s.jobBad (d.fld 0 15 8) d = true →
    ∃ t c, exec (.jobFetch r) s = .next t ∧ t.host.cqQueue = s.host.cqQueue ++ [c] ∧
      c.status = (if s.ctxState (d.fld 0 15 8) = 0 then 0x15 else 0x10) ∧ c.index = d.index ∧
      c.ring = r.val + 1 ∧ (t.getRing (r.val + 1)).fetched = (s.getRing (r.val + 1)).fetched.tail ∧ Told s t) ∧
  (∀ (r : Fin 16) (d : Desc) (s : State), s.calm → s.nextDesc (r.val + 1) = some d → (s.getRing (r.val + 1)).checked = true →
    s.ctxPresent (d.fld 0 15 8) = true → s.ctxState (d.fld 0 15 8) ≠ 0 → (s.getCtx (d.fld 0 15 8)).queue.length < 8 → s.waitMet d = true →
    s.earlierJob (r.val + 1) (d.fld 0 15 8) = false → s.rd (Fld.CTX_SKIP_COUNT (d.fld 0 15 8)) = 0 →
    ∃ t, exec (.jobEnterQueue r) s = .next t ∧
      (t.getCtx (d.fld 0 15 8)).queue = (s.getCtx (d.fld 0 15 8)).queue ++ [⟨r.val + 1, d.index, false, d.dw, none⟩] ∧
      (t.getRing (r.val + 1)).fetched = (s.getRing (r.val + 1)).fetched.tail ∧ (t.getRing (r.val + 1)).checked = false ∧
      t = { s with ctxs := t.ctxs, host := { s.host with rings := t.host.rings } }) ∧
  (∀ (r : Fin 16) (d : Desc) (s : State), s.calm → s.nextDesc (r.val + 1) = some d → (s.getRing (r.val + 1)).checked = true →
    s.ctxPresent (d.fld 0 15 8) = true → s.ctxState (d.fld 0 15 8) ≠ 0 → (s.getCtx (d.fld 0 15 8)).queue.length < 8 → s.waitMet d = true →
    s.earlierJob (r.val + 1) (d.fld 0 15 8) = false → s.rd (Fld.CTX_SKIP_COUNT (d.fld 0 15 8)) ≠ 0 →
    (s.getCtx (d.fld 0 15 8)).prods = [] → s.cqRoom →
    ∃ t c, exec (.jobEnterQueue r) s = .next t ∧
      t.rd (Fld.CTX_SKIP_COUNT (d.fld 0 15 8)) = s.rd (Fld.CTX_SKIP_COUNT (d.fld 0 15 8)) - 1 ∧
      (t.getCtx (d.fld 0 15 8)).queue = (s.getCtx (d.fld 0 15 8)).queue ∧ t.host.cqQueue = s.host.cqQueue ++ [c] ∧ c.status = 0x08 ∧
      c.index = d.index ∧ c.ring = r.val + 1) ∧
  (∀ (r : Fin 16) (d : Desc) (s : State), s.calm → s.nextDesc (r.val + 1) = some d → (s.getRing (r.val + 1)).checked = true →
    s.ctxPresent (d.fld 0 15 8) = true → s.ctxState (d.fld 0 15 8) ≠ 0 →
    8 ≤ (s.getCtx (d.fld 0 15 8)).queue.length ∨ s.waitMet d = false ∨ s.earlierJob (r.val + 1) (d.fld 0 15 8) = true →
    exec (.jobEnterQueue r) s = .next s)

/-- CTX_BIND (R103, R104): a command that passes every check puts the sources, the patch area, the ranges and the shadow set in force,
sets ARMED with cause BIND and completes OK; where the device's scope stands in FAULT or a long supply warning stands the context is
FAULTED at once (R110). One that fails a check completes with the status and RESULT of the first that fails, and one on context 0 under
another master's token BUSY (R50); neither changes anything else. CTX_UNBIND (R105): in ARMED, HALTED or FAULTED with no product in
flight the queue is emptied, the ranges, sources and patch area are released and the context is UNBOUND; in any other state the command
completes CTX_STATE, and of an absent context UNIT_ABSENT. -/
def Obligations.ContextBinding : Prop :=
  (∀ (d : Desc) (s : State), s.commanded 0x10 d → s.bindRefusal d = none → s.mpMayCtx (d.fld 2 7 0) = true →
    ∃ t, exec .ctxBind s = .next t ∧
      ((∀ sc < 1024, s.scopeState sc = 0) → s.longWarning = false → t.ctxState (d.fld 2 7 0) = 1 ∧ t.rd (Fld.CTX_STATE_CAUSE (d.fld 2 7 0)) = 1) ∧
      (s.scopeState 0 ≠ 0 ∨ s.longWarning = true → t.ctxState (d.fld 2 7 0) = 5) ∧
      t.getReg (Reg.CTX_BINDING (d.fld 2 7 0)) = (dwAt d.dw 3 &&& 0x1F033F1F) ||| (if d.fld 2 7 0 = 0 then 0x80000000 else 0) ∧
      t.rd (Fld.CTX_PATCH_BASE_BASE (d.fld 2 7 0)) = d.fld 4 19 0 ∧ t.rd (Fld.CTX_PATCH_SIZE_SIZE (d.fld 2 7 0)) = d.fld 5 20 0 ∧
      (∀ r < d.fld 3 28 24, t.getReg (Reg.CTX_RANGE (d.fld 2 7 0) r) = s.getReg (Reg.CTX_STG_RANGE (d.fld 2 7 0) r)) ∧
      (∀ i < 8, t.getReg (Reg.CTX_LINES (d.fld 2 7 0) + 4 * i) = s.getReg (Reg.CTX_SH_LINES (d.fld 2 7 0) + 4 * i)) ∧
      (∀ r < 16, t.getReg (Reg.CTX_ROWOFF (d.fld 2 7 0) r) = s.getReg (Reg.CTX_SH_ROWOFF (d.fld 2 7 0) r)) ∧
      t.on (Fld.CTX_HO_STAT_COMMIT_PEND (d.fld 2 7 0)) = false ∧
      (∀ c < 255, c ≠ d.fld 2 7 0 → t.ctxState c = s.ctxState c ∧ t.getCtx c = s.getCtx c) ∧
      ((s.getCtx (d.fld 2 7 0)).prods = [] → s.answered t 0 d 0 0)) ∧
  (∀ (d : Desc) (r : Nat × Nat) (s : State), s.commanded 0x10 d → s.bindRefusal d = some r →
    ∃ t, exec .ctxBind s = .next t ∧ s.answered t 0 d r.1 r.2 ∧ Told s t) ∧
  (∀ (d : Desc) (s : State), s.commanded 0x10 d → s.bindRefusal d = none → s.mpMayCtx (d.fld 2 7 0) = false →
    ∃ t, exec .ctxBind s = .next t ∧ s.answered t 0 d 0x12 0 ∧ Told s t) ∧
  (∀ (d : Desc) (s : State), s.commanded 0x11 d → d.reservedSet (commandLayout [0xFF]) = false → s.ctxPresent (d.fld 2 7 0) = true →
    s.ctxState (d.fld 2 7 0) ∈ [1, 4, 5] → (s.getCtx (d.fld 2 7 0)).inflight = [] → s.mpMayCtx (d.fld 2 7 0) = true →
    ∃ t, exec .ctxUnbind s = .next t ∧ t.ctxState (d.fld 2 7 0) = 0 ∧ t.rd (Fld.CTX_STATE_CAUSE (d.fld 2 7 0)) = 2 ∧
      t.getReg (Reg.CTX_BINDING (d.fld 2 7 0)) = 0 ∧ t.getReg (Reg.CTX_PATCH_SIZE (d.fld 2 7 0)) = 0 ∧
      (∀ r < 16, t.getReg (Reg.CTX_RANGE (d.fld 2 7 0) r) = 0) ∧ (t.getCtx (d.fld 2 7 0)).causes = [] ∧
      (t.getCtx (d.fld 2 7 0)).queue = [] ∧ ((s.getCtx (d.fld 2 7 0)).queue = [] → s.answered t 0 d 0 0)) ∧
  (∀ (d : Desc) (s : State), s.commanded 0x11 d → d.reservedSet (commandLayout [0xFF]) = false → s.ctxPresent (d.fld 2 7 0) = true →
    (s.ctxState (d.fld 2 7 0) ∉ [1, 4, 5] ∨ (s.getCtx (d.fld 2 7 0)).inflight ≠ []) →
    ∃ t, exec .ctxUnbind s = .next t ∧ s.answered t 0 d 0x15 0 ∧ Told s t) ∧
  (∀ (d : Desc) (s : State), s.commanded 0x11 d → d.reservedSet (commandLayout [0xFF]) = true ∨ s.ctxPresent (d.fld 2 7 0) = false →
    ∃ t, exec .ctxUnbind s = .next t ∧ s.answered t 0 d (if d.reservedSet (commandLayout [0xFF]) then 0x10 else 0x11) 0 ∧ Told s t)

/-- CTX_CONTROL (R112): HALT, RESUME, FLUSH and RECOVER in every state: their effect in those that allow them, CTX_STATE in those that do
not; an absent context completes UNIT_ABSENT, and an action that is not defined DESC_ERROR, also of an absent context (DESIGN CHOICE, log
entry 102). A recovery while a long warning stands is FAULTED again (R568). -/
def Obligations.ContextControl : Prop :=
  (∀ (d : Desc) (s : State), s.commanded 0x12 d → d.reservedSet (commandLayout [0xFFFF]) = false → s.ctxPresent (d.fld 2 7 0) = true →
    s.mpMayCtx (d.fld 2 7 0) = true →
    (d.fld 2 15 8 = 1 → ∃ t, exec .halt s = .next t ∧ s.regsBut t (Reg.CTX_STATE (d.fld 2 7 0) :: noticeWords) ∧
      s.answered t 0 d (if s.ctxState (d.fld 2 7 0) = 0 then 0x15 else 0) 0 ∧
      t.ctxState (d.fld 2 7 0) = (if s.ctxState (d.fld 2 7 0) = 1 then 4 else if s.ctxState (d.fld 2 7 0) = 2 then 3 else s.ctxState (d.fld 2 7 0)) ∧
      t.on (Fld.CTX_STATE_HALT_PEND (d.fld 2 7 0)) =
        (s.on (Fld.CTX_STATE_HALT_PEND (d.fld 2 7 0)) || decide (s.ctxState (d.fld 2 7 0) = 5))) ∧
    (d.fld 2 15 8 = 2 → ∃ t, exec .resume s = .next t ∧ s.regsBut t (Reg.CTX_STATE (d.fld 2 7 0) :: noticeWords) ∧
      s.answered t 0 d (if s.ctxState (d.fld 2 7 0) = 0 ∨ s.ctxState (d.fld 2 7 0) = 3 then 0x15 else 0) 0 ∧
      t.ctxState (d.fld 2 7 0) = (if s.ctxState (d.fld 2 7 0) = 4 then 1 else s.ctxState (d.fld 2 7 0)) ∧
      t.on (Fld.CTX_STATE_HALT_PEND (d.fld 2 7 0)) =
        (s.on (Fld.CTX_STATE_HALT_PEND (d.fld 2 7 0)) && !decide (s.ctxState (d.fld 2 7 0) = 5))) ∧
    (d.fld 2 15 8 = 3 → (s.ctxState (d.fld 2 7 0) = 4 ∨ s.ctxState (d.fld 2 7 0) = 5) →
      ∃ t, exec .flush s = .next t ∧ (t.getCtx (d.fld 2 7 0)).queue = [] ∧ t.ctxState (d.fld 2 7 0) = s.ctxState (d.fld 2 7 0) ∧
        ((s.getCtx (d.fld 2 7 0)).queue = [] → s.answered t 0 d 0 0)) ∧
    (d.fld 2 15 8 = 3 → s.ctxState (d.fld 2 7 0) ≠ 4 → s.ctxState (d.fld 2 7 0) ≠ 5 →
      ∃ t, exec .flush s = .next t ∧ s.answered t 0 d 0x15 0 ∧ Told s t) ∧
    (d.fld 2 15 8 = 4 → s.ctxState (d.fld 2 7 0) = 5 → (s.getCtx (d.fld 2 7 0)).causes ≠ [] →
      (∀ k ∈ (s.getCtx (d.fld 2 7 0)).causes, k = 0x0A ∨ k = 0x0B) →
      ∃ t, exec .recover s = .next t ∧
        (s.longWarning = false → (t.getCtx (d.fld 2 7 0)).causes = [] ∧ s.answered t 0 d 0 0 ∧
          t.ctxState (d.fld 2 7 0) = if s.on (Fld.CTX_STATE_HALT_PEND (d.fld 2 7 0)) then 4 else 1) ∧
        (s.longWarning = true → (t.getCtx (d.fld 2 7 0)).causes = [0x0A] ∧ t.ctxState (d.fld 2 7 0) = 5)) ∧
    (d.fld 2 15 8 = 4 → s.ctxState (d.fld 2 7 0) ≠ 5 → ∃ t, exec .recover s = .next t ∧ s.answered t 0 d 0x15 0 ∧ Told s t)) ∧
  (∀ (d : Desc) (i : Instr) (s : State), s.commanded 0x12 d → d.reservedSet (commandLayout [0xFFFF]) = true ∨ d.fld 2 15 8 = 0 ∨ 4 < d.fld 2 15 8 →
    i ∈ [Instr.halt, .resume, .flush, .recover] → ∃ t, exec i s = .next t ∧ s.answered t 0 d 0x10 0 ∧ Told s t) ∧
  (∀ (d : Desc) (s : State), s.commanded 0x12 d → d.reservedSet (commandLayout [0xFFFF]) = false → s.ctxPresent (d.fld 2 7 0) = false →
    (d.fld 2 15 8 = 1 → ∃ t, exec .halt s = .next t ∧ s.answered t 0 d 0x11 0 ∧ Told s t) ∧
    (d.fld 2 15 8 = 2 → ∃ t, exec .resume s = .next t ∧ s.answered t 0 d 0x11 0 ∧ Told s t) ∧
    (d.fld 2 15 8 = 3 → ∃ t, exec .flush s = .next t ∧ s.answered t 0 d 0x11 0 ∧ Told s t) ∧
    (d.fld 2 15 8 = 4 → ∃ t, exec .recover s = .next t ∧ s.answered t 0 d 0x11 0 ∧ Told s t))

/-- CTX_COMMIT (R120, R124): COMMIT pends a valid shadow set and marks an invalid one BAD, leaving COMMIT_PEND as it was; CANCEL ends the
pending; IMMEDIATE hands over in HALTED, an invalid set setting BAD instead, and is refused elsewhere. -/
def Obligations.ContextCommit : Prop :=
  ∀ (m : Master) (n : Fin 255) (s : State), s.calm → s.reaches (Reg.CTX_COMMIT n) →
    (∃ t, exec (.commit m n) s = .next t ∧ s.regsBut t [Reg.CTX_HO_STAT n] ∧ s.onlyRegs t ∧
      t.on (Fld.CTX_HO_STAT_COMMIT_PEND n) = (s.on (Fld.CTX_HO_STAT_COMMIT_PEND n) || !s.shadowBad n) ∧
      t.on (Fld.CTX_HO_STAT_BAD n) = (s.on (Fld.CTX_HO_STAT_BAD n) || s.shadowBad n)) ∧
    (∃ t, exec (.cancel m n) s = .next t ∧ t.on (Fld.CTX_HO_STAT_COMMIT_PEND n) = false ∧ s.regsBut t [Reg.CTX_HO_STAT n] ∧ s.onlyRegs t) ∧
    (s.ctxState n = 4 → s.shadowBad n = false →
      ∃ t, exec (.immediate m n) s = .next t ∧ s.onlyRegs t ∧
        (∀ i < 8, t.getReg (Reg.CTX_LINES n + 4 * i) = s.getReg (Reg.CTX_SH_LINES n + 4 * i)) ∧
        (∀ r < 16, t.getReg (Reg.CTX_ROWOFF n r) = s.getReg (Reg.CTX_SH_ROWOFF n r)) ∧ t.on (Fld.CTX_HO_STAT_COMMIT_PEND n) = false ∧
        t.rd (Fld.CTX_HO_STAT_HO_CNT n) = (s.rd (Fld.CTX_HO_STAT_HO_CNT n) + 1) % 2 ^ 16 ∧ t.on (Fld.CTX_HO_SEQ_HI_VALID n) = false) ∧
    (s.ctxState n = 4 → s.shadowBad n = true →
      ∃ t, exec (.immediate m n) s = .next t ∧ t.on (Fld.CTX_HO_STAT_BAD n) = true ∧ t.on (Fld.CTX_HO_STAT_COMMIT_PEND n) = false ∧
        s.regsBut t [Reg.CTX_HO_STAT n] ∧ s.onlyRegs t) ∧
    (s.ctxState n ≠ 4 →
      ∃ t, exec (.immediate m n) s = .next t ∧ t.on (Fld.CTX_HO_STAT_REFUSED n) = true ∧ s.regsBut t [Reg.CTX_HO_STAT n] ∧ s.onlyRegs t)

/-- Barrow takes up descriptors in ring order (R358, R362, R364 to R366, R369, R370, R375): a valid COPY or FILL becomes a run that has
moved nothing, in a chain also the one that ends it, a bad one completes DESC_ERROR with its reason, a LINK enters its chain and asks for
its first descriptors, one too many completes CHAIN_LIMIT, and under STOP everything completes STOPPED. -/
def Obligations.DmaDescriptors : Prop :=
  (∀ (c : Fin 32) (d : Desc) (s : State), s.calm → s.dmaReady c d →
    (d.opcode = 1 → s.chanStopped c = false → d.dmaReason (s.dmaBad c d false) = 0 →
      ∃ t r, exec (.copy c) s = .next t ∧ (t.getChan32 c).runs = [r] ∧ r.desc = d ∧ r.rd = 0 ∧ r.wr = 0 ∧ r.total = d.dstSide.total ∧
        t.host.cqQueue = s.host.cqQueue) ∧
    (d.opcode = 2 → s.chanStopped c = false → d.dmaReason (s.dmaBad c d false) = 0 →
      ∃ t r, exec (.fill c) s = .next t ∧ (t.getChan32 c).runs = [r] ∧ r.desc = d ∧ r.wr = 0 ∧ r.total = d.dstSide.total ∧
        t.host.cqQueue = s.host.cqQueue) ∧
    (d.opcode = 1 → s.chanStopped c = false → d.dmaReason (s.dmaBad c d false) ≠ 0 → s.cqRoom →
      ∃ t, exec (.copy c) s = .next t ∧ s.answered t (17 + c.val) d 0x10 (dmaResult (d.dmaReason (s.dmaBad c d false)) 0)) ∧
    (d.opcode = 2 → s.chanStopped c = false → d.dmaReason (s.dmaBad c d false) ≠ 0 → s.cqRoom →
      ∃ t, exec (.fill c) s = .next t ∧ s.answered t (17 + c.val) d 0x10 (dmaResult (d.dmaReason (s.dmaBad c d false)) 0)) ∧
    (d.opcode = 3 → s.chanStopped c = false → linkReason d false = 0 →
      (s.getChan32 c).marks.contains d.index = true ∨ s.rd (Fld.BAR_CH_STAT_CHAIN_CNT c) < 1024 →
      ∃ t h, exec (.link c) s = .next t ∧ (t.getChan32 c).chain = some h ∧ h.link = d ∧ h.next = d.wide 2 ∧ h.fetched = [] ∧
        h.ended = false ∧ t.rd (Fld.BAR_CH_STAT_CHAIN_CNT c) =
          (if (s.getChan32 c).marks.contains d.index then 0 else s.rd (Fld.BAR_CH_STAT_CHAIN_CNT c)) + 1 ∧
        (s.hostBus = true → s.fetchTag = true → (∀ e < 32, e ≠ c.val → (s.getChan32 e).runs = [] ∧ (s.getChan32 e).chain = none) →
          h.asked = some s.bar.nextId ∧ t.bar.reads = s.bar.reads ++ [⟨c, s.bar.nextId, .chain, false, d.wide 2, 0, 64, s.tb.toNat⟩] ∧
          t.out = s.out ++ [.dmaRead (d.wide 2) 64])) ∧
    (d.opcode = 3 → s.chanStopped c = false → linkReason d false = 0 → (s.getChan32 c).marks.contains d.index = false →
      1024 ≤ s.rd (Fld.BAR_CH_STAT_CHAIN_CNT c) → s.cqRoom →
      ∃ t, exec (.link c) s = .next t ∧ t.rd (Fld.BAR_CH_STAT_CHAIN_CNT c) = 0 ∧ (t.getChan32 c).chain = none ∧
        s.answered t (17 + c.val) d 0x19 0) ∧
    (d.opcode = 3 → s.chanStopped c = false → linkReason d false ≠ 0 → s.cqRoom →
      ∃ t, exec (.link c) s = .next t ∧ s.answered t (17 + c.val) d 0x10 (dmaResult (linkReason d false) 0)) ∧
    (s.chanStopped c = true → s.cqRoom →
      (d.opcode = 1 → ∃ t, exec (.copy c) s = .next t ∧ s.answered t (17 + c.val) d 0x18 0) ∧
      (d.opcode = 2 → ∃ t, exec (.fill c) s = .next t ∧ s.answered t (17 + c.val) d 0x18 0) ∧
      (d.opcode = 3 → ∃ t, exec (.link c) s = .next t ∧ s.answered t (17 + c.val) d 0x18 0))) ∧
  (∀ (c : Fin 32) (d : Desc) (s : State), s.calm → s.nextDma c = some (d, true) → s.canTake c d = true → (s.getChan32 c).runs = [] →
    s.chanStopped c = false →
    (d.opcode = 1 → d.dmaReason (s.dmaBad c d true) = 0 →
      ∃ t r, exec (.copy c) s = .next t ∧ (t.getChan32 c).runs = [r] ∧ r.desc = d ∧ r.rd = 0 ∧ r.chained = true ∧ r.last = endsChain d) ∧
    (d.opcode = 2 → d.dmaReason (s.dmaBad c d true) = 0 →
      ∃ t r, exec (.fill c) s = .next t ∧ (t.getChan32 c).runs = [r] ∧ r.desc = d ∧ r.wr = 0 ∧ r.chained = true ∧ r.last = endsChain d))

/-- Barrow's bursts and their returns (R191, R359 to R363, R369, R371): the patch path's burst goes before the channels'; a granted burst
joins the outstanding accesses and goes outward when it is the host's; returned data joins its stream or its chain; a write that takes
effect is counted in bytes; the flushing read completes a descriptor with a host destination; a bus that does not run issues nothing.
Barrow's halt (R375 to R379): a read that brings an error, poisoned data or an uncorrectable word, or nothing within TMO, halts it with
its cause, the failing address, a count and a report; before TMO nothing happens. With no read outstanding it is HALTED; a restart brings
it back to RUNNING, at once or when it enters HALTED. STOP completes what has issued nothing. -/
def Obligations.DmaBurstsAndHalt : Prop :=
  (∀ (s u : State) (c : Nat) (r : DmaRun) (b : BarRead), s.calm → s.barRuns = true → s.patchRead = none ∨ s.pathPaused 2 = true →
    s.pathPaused 0 = false →
    s.grant false ((List.range 32).filter (fun c => (s.readBurst c).isSome)) = some (c, u) → u.readBurst c = some (r, b) →
    (b.dev && s.bankLost b.addr b.len) = false →
    ∃ t l, exec (.burstIssue false) s = .next t ∧ t.bar.reads = s.bar.reads ++ b :: l ∧
      (b.dev = false → ∃ o, t.out = s.out ++ .dmaRead b.addr b.len :: o)) ∧
  (∀ (s u : State) (c : Nat) (r : DmaRun) (b : BarWrite), s.calm → s.barRuns = true → s.patchWrite = none ∨ s.pathPaused 2 = true →
    s.pathPaused 1 = false →
    s.grant true ((List.range 32).filter (fun c => (s.writeBurst c).isSome)) = some (c, u) → u.writeBurst c = some (r, b) →
    (b.dev && s.bankLost b.addr b.data.length) = false →
    ∃ t, exec (.burstIssue true) s = .next t ∧ t.bar.writes = s.bar.writes ++ [b] ∧
      (b.dev = false → ∃ o, t.out = s.out ++ .dma b.addr b.data :: o)) ∧
  (∀ (s : State) (x : Nat × Job × Nat × Nat × Nat), s.calm → s.barRuns = true → s.pathPaused 2 = false → s.patchRead = some x →
    ∃ t b, exec (.burstIssue false) s = .next t ∧ t.bar.reads = s.bar.reads ++ [b] ∧ b.chan = 32 ∧ b.kind = .patch ∧
      b.addr = x.2.2.2.1 ∧ b.len = x.2.2.2.2 ∧ t.out = s.out ++ [.dmaRead b.addr b.len]) ∧
  (∀ (s : State) (x : Nat × Job × Nat × List Byte), s.calm → s.barRuns = true → s.pathPaused 2 = false → s.patchWrite = some x →
    ∃ t b, exec (.burstIssue true) s = .next t ∧ t.bar.writes = s.bar.writes ++ [b] ∧ b.chan = 32 ∧ b.dev = true ∧ b.data = x.2.2.2) ∧
  (∀ (w : Bool) (s : State), s.calm → s.barRuns = false → exec (.burstIssue w) s = .next s) ∧
  (∀ (k : Nat) (bytes : List Byte) (b : BarRead) (x : DmaRun) (s : State), s.calm → s.bar.reads[k]? = some b → b.kind = .data →
    b.dev = false → s.barState = 0 → s.findRun b.chan b.id = some x → x.stop = none → x.done = none → x.fail = none →
    ∃ t, exec (.readCompletion k (.data bytes)) s = .next t ∧ s.bar.reads.eraseIdx k <+: t.bar.reads ∧
      (∃ y ∈ (t.getChan32 b.chan).runs, y.id = b.id ∧ y.buf = x.buf ++ [(b.off, (List.range b.len).map (fun i => bytes.getD i 0))]) ∧
      t = { s with bar := t.bar, out := t.out }) ∧
  (∀ (k : Nat) (v : ReadResult) (b : BarRead) (x : DmaRun) (s : State), s.calm → s.bar.reads[k]? = some b → b.kind = .data →
    b.dev = true → s.barState = 0 → s.bankLost b.addr b.len = false → s.esp.bad = [] → (∀ k < 64, s.bankReady k = true) →
    s.findRun b.chan b.id = some x → x.stop = none → x.done = none → x.fail = none →
    ∃ t, exec (.readCompletion k v) s = .next t ∧
      (∃ y ∈ (t.getChan32 b.chan).runs, y.id = b.id ∧
        y.buf = x.buf ++ [(b.off, (List.range b.len).map (fun i => s.readByte (b.addr + i)))])) ∧
  (∀ (k : Nat) (bytes : List Byte) (b : BarRead) (h : Chain) (s : State), s.calm → s.bar.reads[k]? = some b → b.kind = .chain →
    b.dev = false → s.barState = 0 → (s.getChan32 b.chan).chain = some h → h.asked = some b.id →
    ∃ t g d, exec (.readCompletion k (.data bytes)) s = .next t ∧ (t.getChan32 b.chan).chain = some g ∧ g.fetched = [d] ∧
      d.index = h.link.index ∧ g.next = (h.next + 64) % 2 ^ 64 ∧ g.asked = none) ∧
  (∀ (k : Nat) (w : BarWrite) (x : DmaRun) (s : State), s.calm → s.bar.writes[k]? = some w → w.dev = true → w.chan < 32 →
    s.findRun w.chan w.id = some x → s.bankLost w.addr w.data.length = false →
    ∃ t, exec (.writeResponse k) s = .next t ∧
      t.rd64 (Reg.BAR_CH_BYTES_LO w.chan) = (s.rd64 (Reg.BAR_CH_BYTES_LO w.chan) + w.data.length) % 2 ^ 64 ∧
      (s.esp.bad = [] → (∀ k < 64, s.bankReady k = true) → ∀ i v, w.data[i]? = some v → t.readByte (w.addr + i) = v)) ∧
  (∀ (k : Nat) (bytes : List Byte) (b : BarRead) (x : DmaRun) (s : State), s.calm → s.bar.reads = [b] → k = 0 → b.kind = .flush →
    s.barState = 0 → (s.getChan32 b.chan).runs = [x] → x.id = b.id → x.stop = none → x.done = none → x.fail = none → x.wr = x.total →
    b.off = x.wr → x.chained = false → x.last = false → s.bar.writes.any (fun w => w.dev && w.id == x.id) = false → s.cqRoom →
    ∃ t, exec (.flushReadComplete k (.data bytes)) s = .next t ∧ (t.getChan32 b.chan).runs = [] ∧
      s.answered t (17 + b.chan) x.desc 0 (dmaResult 0 x.total)) ∧
  (∀ (k : Nat) (b : BarRead) (s : State), s.calm → s.bar.reads[k]? = some b → s.barState = 0 → b.at_ + s.barTmo ≤ s.tb.toNat →
    ∃ t, exec (.readTimeout k) s = .next t ∧ t.barState = 1 ∧ t.rd Fld.BAR_STAT_CAUSE = 3 ∧ t.on Fld.BAR_STAT_ERR_DEV = b.dev ∧
      t.rd64 Reg.BAR_ERR_ADDR_LO = b.addr % 2 ^ 64 ∧ t.bar.reads = s.bar.reads.eraseIdx k ∧
      t.rakeQ.map (fun r => r.src) = s.rakeQ.map (fun r => r.src) ++ [0x204] ∧
      s.regsBut t ([Reg.BAR_STAT, Reg.BAR_ERR_ADDR_LO, Reg.BAR_ERR_ADDR_LO + 4, Reg.BAR_HALT_CNT] ++ noticeWords)) ∧
  (∀ (k : Nat) (b : BarRead) (s : State), s.calm → s.bar.reads[k]? = some b → s.tb.toNat < b.at_ + s.barTmo →
    exec (.readTimeout k) s = .next s) ∧
  (∀ (k : Nat) (b : BarRead) (p : Bool) (s : State), s.calm → s.bar.reads[k]? = some b → b.kind ≠ .flush → b.dev = false → s.barState = 0 →
    ∃ t, exec (.readCompletion k (if p then .poisoned else .error)) s = .next t ∧ t.barState = 1 ∧
      t.rd Fld.BAR_STAT_CAUSE = (if p then 2 else 1) ∧ t.rd64 Reg.BAR_ERR_ADDR_LO = b.addr % 2 ^ 64 ∧
      t.rakeQ.map (fun r => r.src) = s.rakeQ.map (fun r => r.src) ++ [0x203]) ∧
  (∀ (k : Nat) (b : BarRead) (p : Bool) (s : State), s.calm → s.bar.reads[k]? = some b → b.kind = .flush → s.barState = 0 →
    ∃ t, exec (.flushReadComplete k (if p then .poisoned else .error)) s = .next t ∧ t.barState = 1 ∧
      t.rd Fld.BAR_STAT_CAUSE = (if p then 2 else 1) ∧
      t.rakeQ.map (fun r => r.src) = s.rakeQ.map (fun r => r.src) ++ [0x203]) ∧
  (∀ (k : Nat) (b : BarRead) (v : ReadResult) (s : State), s.calm → s.bar.reads[k]? = some b → b.kind ≠ .flush → b.dev = true →
    s.barState = 0 → s.bankLost b.addr b.len = false → (s.readStore b.addr b.len).2.1 = true →
    ∃ t, exec (.readCompletion k v) s = .next t ∧ t.barState = 1 ∧ t.rd Fld.BAR_STAT_CAUSE = 4 ∧ t.on Fld.BAR_STAT_ERR_DEV = true) ∧
  (∀ s : State, s.calm → s.barState = 1 → s.bar.reads = [] →
    ∃ t, exec .haltedEntered s = .next t ∧ t.barState = (if s.on Fld.BAR_STAT_RESTART_PEND then 0 else 2)) ∧
  (∀ s : State, s.calm → s.barState ≠ 1 ∨ s.bar.reads ≠ [] → exec .haltedEntered s = .next s) ∧
  (∀ (m : Master) (v : Word) (s : State), s.calm → s.reaches Reg.BAR_CTL →
    ∃ t, exec (.dmaRestart m v) s = .next t ∧ (bitOf v 0 = true → s.barState = 2 → t.barState = 0) ∧
      (bitOf v 0 = true → s.barState = 1 → t.on Fld.BAR_STAT_RESTART_PEND = true ∧ s.regsBut t [Reg.BAR_STAT] ∧ s.onlyRegs t) ∧
      (bitOf v 0 = false ∨ s.barState = 0 → t = s)) ∧
  (∀ (m : Master) (c : Fin 32) (v : Word) (s : State), s.calm → s.reaches (Reg.BAR_CH_CTL c) →
    ∃ t, exec (.channelStop m c v) s = .next t ∧ t.chanStopped c = bitOf v 0 ∧
      ((s.getChan32 c).runs = [] ∧ (s.getChan32 c).chain = none → s.regsBut t [Reg.BAR_CH_CTL c]) ∧
      (∀ r, (s.getChan32 c).runs = [r] → (s.getChan32 c).chain = none → r.begun = false → r.done = none → r.chained = false → r.last = false →
        bitOf v 0 = true → s.chanStopped c = false → s.cqRoom →
        s.answered t (17 + c.val) r.desc 0x18 0))

/-- Print-go inputs and edges (R109, R113 to R117, R146, R469): a transition that has held for the filter time sets LEVEL, counts, is
timestamped and reaches the contexts that it drives; a shorter one is discarded. At a context an edge within LOCKOUT is counted LOCKED,
one in a state that takes none IGNORED, one with an empty queue NOJOB; one that finds a job starts its product, completes it
ABORTED_FAULT while FAULTED, and CANCELLED when two products are in flight; the timeout completes the head job NO_PRODUCT. Reject pulses
(R128, R130, R131, R411): the scheduled pulses of a context or of a relay entry whose position is reached are driven and leave the
schedule, and a driven pulse ends; nothing else changes. -/
def Obligations.PrintGoAndRejects : Prop :=
  (∀ (n : Fin 32) (level : Bool) (tb : BitVec 64) (s : State), s.calm → s.domOn .place = true → s.on (Fld.PGO_STAT_LEVEL n) = !level →
    s.filtered tb (s.pgoFilter n) = true →
    ∃ t, exec (.pgoAccept n level tb) s = .next t ∧ t.on (Fld.PGO_STAT_LEVEL n) = level ∧
      t.rd (Fld.PGO_STAT_EDGES n) = (s.rd (Fld.PGO_STAT_EDGES n) + 1) % 2 ^ 16 ∧ t.rd64 (Reg.PGO_TB_LO n) = tb.toNat ∧
      (∀ c < 255, (t.getCtx c).edges = (s.getCtx c).edges ++
        (if c ≠ 0 ∧ s.ctxState c ≠ 0 ∧ s.pgoSrc c = n.val ∧ s.on (Fld.CTX_BINDING_PGO_EDGE c) = !level then [tb.toNat] else []))) ∧
  (∀ (n : Fin 32) (level : Bool) (tb : BitVec 64) (s : State), s.calm → s.domOn .place = false ∨ s.on (Fld.PGO_STAT_LEVEL n) = level ∨
    s.filtered tb (s.pgoFilter n) = false → exec (.pgoAccept n level tb) s = .next s) ∧
  (∀ (n : Fin 255) (e : Nat) (l : List Nat) (u : Int) (s : State), s.calm → (s.getCtx n).edges = e :: l → (s.getCtx n).lastEdge = some u →
    s.rd (Fld.CTX_LOCKOUT_LOCKOUT n) ≠ 0 → travel u (s.fwdAt n e) < s.rd (Fld.CTX_LOCKOUT_LOCKOUT n) →
    ∃ t, exec (.printGoEdge n) s = .next t ∧ t.rd (Fld.CTX_CNT_LOCKED_COUNT n) = min (s.rd (Fld.CTX_CNT_LOCKED_COUNT n) + 1) (2 ^ 32 - 1) ∧
      (t.getCtx n).edges = l ∧ (t.getCtx n).queue = (s.getCtx n).queue ∧ (t.getCtx n).prods = (s.getCtx n).prods ∧
      s.regsBut t [(Fld.CTX_CNT_LOCKED_COUNT n).addr] ∧ t = { s with regs := t.regs, ctxs := t.ctxs }) ∧
  (∀ (n : Fin 255) (e : Nat) (l : List Nat) (s : State), s.calm → (s.getCtx n).edges = e :: l →
    (s.rd (Fld.CTX_LOCKOUT_LOCKOUT n) = 0 ∨ ∀ u, (s.getCtx n).lastEdge = some u → s.rd (Fld.CTX_LOCKOUT_LOCKOUT n) ≤ travel u (s.fwdAt n e)) →
    s.ctxState n ∉ [1, 2, 5] →
    ∃ t, exec (.printGoEdge n) s = .next t ∧ t.rd (Fld.CTX_CNT_IGNORED_COUNT n) = min (s.rd (Fld.CTX_CNT_IGNORED_COUNT n) + 1) (2 ^ 32 - 1) ∧
      (t.getCtx n).edges = l ∧ (t.getCtx n).lastEdge = some (s.fwdAt n e) ∧ (t.getCtx n).queue = (s.getCtx n).queue) ∧
  (∀ (n : Fin 255) (e : Nat) (l : List Nat) (s : State), s.calm → (s.getCtx n).edges = e :: l → (s.getCtx n).lastEdge = none →
    s.ctxState n ∈ [1, 2, 5] → s.on (Fld.CTX_HO_STAT_COMMIT_PEND n) = false → (s.getCtx n).queue = [] →
    ∃ t, exec (.printGoEdge n) s = .next t ∧ t.rd (Fld.CTX_CNT_EDGE_COUNT n) = (s.rd (Fld.CTX_CNT_EDGE_COUNT n) + 1) % 2 ^ 32 ∧
      t.rd (Fld.CTX_CNT_NOJOB_COUNT n) = min (s.rd (Fld.CTX_CNT_NOJOB_COUNT n) + 1) (2 ^ 32 - 1) ∧ t.ctxState n = s.ctxState n ∧
      (t.getCtx n).prods = (s.getCtx n).prods) ∧
  (∀ (n : Fin 255) (e : Nat) (l : List Nat) (j : Job) (q : List Job) (s : State), s.calm → (s.getCtx n).edges = e :: l →
    (s.getCtx n).lastEdge = none → s.ctxState n = 1 → s.on (Fld.CTX_HO_STAT_COMMIT_PEND n) = false → (s.getCtx n).queue = j :: q →
    (s.getCtx n).prods = [] → s.patchPast n j.dw = false → s.startAbort n j = none →
    (∀ p ∈ s.ctxPorts n, s.rd (Fld.HK_CH_VAL_STATE (40 + p)) ≠ 2) →
    ∃ t x, exec (.printGoEdge n) s = .next t ∧ (t.getCtx n).prods = [x] ∧ x.job = j ∧ x.tpg = e ∧ x.refPos = s.fwdAt n e ∧
      x.set = s.activeSet n ∧ (t.getCtx n).queue = q ∧ t.ctxState n = 2) ∧
  (∀ (n : Fin 255) (e : Nat) (l : List Nat) (j : Job) (q : List Job) (s : State), s.calm → (s.getCtx n).edges = e :: l →
    (s.getCtx n).lastEdge = none → s.ctxState n = 5 → s.on (Fld.CTX_HO_STAT_COMMIT_PEND n) = false → (s.getCtx n).queue = j :: q →
    (s.getCtx n).prods = [] → j.orphan = false → s.cqRoom →
    ∃ t c, exec (.printGoEdge n) s = .next t ∧ (t.getCtx n).queue = q ∧ (t.getCtx n).prods = [] ∧ t.host.cqQueue = s.host.cqQueue ++ [c] ∧
      c.status = 0x07 ∧ c.ring = j.ring ∧ c.index = j.index) ∧
  (∀ (n : Fin 255) (e : Nat) (l : List Nat) (j : Job) (q : List Job) (s : State), s.calm → (s.getCtx n).edges = e :: l →
    (s.getCtx n).lastEdge = none → s.ctxState n = 2 → s.on (Fld.CTX_HO_STAT_COMMIT_PEND n) = false → (s.getCtx n).queue = j :: q →
    (∀ p ∈ s.ctxPorts n, s.rd (Fld.HK_CH_VAL_STATE (40 + p)) ≠ 2) → 2 ≤ (s.getCtx n).inflight.length →
    ∃ t x, exec (.printGoEdge n) s = .next t ∧ (t.getCtx n).queue = q ∧ (t.getCtx n).prods.getLast? = some x ∧ x.job = j ∧ x.ended = true ∧
      x.status = some 0x08 ∧ x.reject = true) ∧
  (∀ (n : Fin 255) (r : Int) (j : Job) (q : List Job) (s : State), s.calm → (s.getCtx n).toRef = some r →
    s.rd (Fld.CTX_TIMEOUT_TIMEOUT n) ≠ 0 → s.ctxState n ∈ [1, 2, 5] →
    (s.rd (Fld.CTX_TIMEOUT_TIMEOUT n) : Int) ≤ travel r (s.fwdNow n) → (s.getCtx n).queue = j :: q → (s.getCtx n).prods = [] →
    j.orphan = false → s.cqRoom →
    ∃ t c, exec (.printGoTimeout n) s = .next t ∧ (t.getCtx n).queue = q ∧ t.host.cqQueue = s.host.cqQueue ++ [c] ∧ c.status = 0x06 ∧
      c.ring = j.ring ∧ c.index = j.index ∧ (t.getCtx n).toRef = some (pos48 (r + s.rd (Fld.CTX_TIMEOUT_TIMEOUT n)))) ∧
  (∀ (n : Fin 255) (s : State), s.calm →
    ∃ t, exec (.rejectPulse (.context n)) s = .next t ∧
      t.rejActive = s.rejActive ++ ((s.getCtx n).pulses.filter s.pulseDue).map (fun p => (p.out, p.width)) ∧
      (t.getCtx n).pulses = (s.getCtx n).pulses.filter (fun p => !s.pulseDue p) ∧ (t.getCtx n).queue = (s.getCtx n).queue ∧
      t = { s with rejActive := t.rejActive, ctxs := t.ctxs }) ∧
  (∀ (i : Fin 16) (s : State), s.calm →
    ∃ t, exec (.rejectPulse (.relay i)) s = .next t ∧
      t.rejActive = s.rejActive ++ ((s.getRelay i).filter s.pulseDue).map (fun p => (p.out, p.width)) ∧
      t.getRelay i = (s.getRelay i).filter (fun p => !s.pulseDue p) ∧ t = { s with rejActive := t.rejActive, ring := t.ring }) ∧
  (∀ (k : Nat) (s : State), s.calm → ∃ t, exec (.rejectPulseEnd k) s = .next t ∧ t = { s with rejActive := s.rejActive.eraseIdx k })

/-- Encoders (R141 to R144, R171, R595): a level that has held for the filter time counts one with its timestamp; two levels at once are
a phase error, reported, and count two in the direction of travel; with EN clear, or in a freeze, the levels alone follow; a rising Z
edge that does not come ZCPR edges after the one before is counted and reported. Which input leads is the model's choice (DESIGN CHOICE,
log entry 7). The trackers (R149, R150, R152): the first measurement after STILL sets the position with no velocity; the second sets the
velocity; later ones correct both; none within MIN_DT of the one before is taken, nor any of a tracker without a new one. No edge for the
STILL time stops the tracker, and not before. -/
def Obligations.EncodersAndTrackers : Prop :=
  (∀ (n : Fin 16) (a b : Bool) (tb : BitVec 64) (s : State), s.calm → s.domOn .place = true → s.on (Fld.ENC_CFG_EN n) = true →
    s.filtered tb (s.encFilter n) = true →
    (quadStep (s.getEncoder n).a (s.getEncoder n).b a b = 1 ∨ quadStep (s.getEncoder n).a (s.getEncoder n).b a b = -1) →
    ∃ t, exec (.encoderEdge n a b tb) s = .next t ∧ t.rd64 (Reg.ENC_LAST_LO n) = tb.toNat ∧
      t.getReg (Reg.ENC_CNT n) = BitVec.ofNat 32 (patternOf 32 ((s.getReg (Reg.ENC_CNT n)).toNat +
        (if s.on (Fld.ENC_CFG_INV n) then -quadStep (s.getEncoder n).a (s.getEncoder n).b a b
          else quadStep (s.getEncoder n).a (s.getEncoder n).b a b))) ∧
      (t.getTracker n).te = tb.toNat ∧ (t.getTracker n).meas = some ((t.getTracker n).pe, tb.toNat) ∧
      (t.getEncoder n).a = a ∧ (t.getEncoder n).b = b ∧
      s.regsBut t [Reg.ENC_CNT n, Reg.ENC_LAST_LO n, Reg.ENC_LAST_LO n + 4] ∧
      t = { s with regs := t.regs, encoders := t.encoders, trackers := t.trackers }) ∧
  (∀ (n : Fin 16) (a b : Bool) (tb : BitVec 64) (s : State), s.calm → s.domOn .place = true → s.on (Fld.ENC_CFG_EN n) = true →
    s.filtered tb (s.encFilter n) = true → quadStep (s.getEncoder n).a (s.getEncoder n).b a b = 2 →
    ∃ t, exec (.encoderEdge n a b tb) s = .next t ∧
      t.rd (Fld.ENC_ERR_PHASE_ERR n) = min (s.rd (Fld.ENC_ERR_PHASE_ERR n) + 1) (2 ^ 16 - 1) ∧
      t.getReg (Reg.ENC_CNT n) = BitVec.ofNat 32 (patternOf 32 ((s.getReg (Reg.ENC_CNT n)).toNat +
        (if s.trkVel n = 0 then 0 else if 0 < s.trkVel n then 2 else -2))) ∧
      t.rakeQ.map (fun r => r.src) = s.rakeQ.map (fun r => r.src) ++ [0x004] ∧
      s.regsBut t [Reg.ENC_ERR n, Reg.ENC_CNT n, Reg.ENC_LAST_LO n, Reg.ENC_LAST_LO n + 4]) ∧
  (∀ (n : Fin 16) (a b : Bool) (tb : BitVec 64) (s : State), s.domOn .place = true → s.filtered tb (s.encFilter n) = true →
    s.on (Fld.ENC_CFG_EN n) = false ∨ s.hf.active = true ∨ quadStep (s.getEncoder n).a (s.getEncoder n).b a b = 0 →
    ∃ t, exec (.encoderEdge n a b tb) s = .next t ∧ (t.getEncoder n).a = a ∧ (t.getEncoder n).b = b ∧ t = { s with encoders := t.encoders }) ∧
  (∀ (n : Fin 16) (a b : Bool) (tb : BitVec 64) (s : State), s.domOn .place = false ∨ s.filtered tb (s.encFilter n) = false →
    exec (.encoderEdge n a b tb) s = .next s) ∧
  (∀ (n : Fin 16) (tb : BitVec 64) (z : Nat) (s : State), s.calm → s.domOn .place = true → s.filtered tb (s.encFilter n) = true →
    (s.getEncoder n).zLast = some z → s.rd (Fld.ENC_CFG_Z_MODE n) = 1 → s.getReg (Reg.ENC_ZCPR n) ≠ 0 →
    (signedOf 32 (patternOf 32 (((s.getReg (Reg.ENC_CNT n)).toNat : Int) - z))).natAbs ≠ (s.getReg (Reg.ENC_ZCPR n)).toNat →
    ∃ t, exec (.zEdge (n, tb)) s = .next t ∧ t.rd (Fld.ENC_ERR_Z_ERR n) = min (s.rd (Fld.ENC_ERR_Z_ERR n) + 1) (2 ^ 16 - 1) ∧
      (t.getEncoder n).zLast = some (s.getReg (Reg.ENC_CNT n)).toNat ∧
      t.rakeQ.map (fun r => r.src) = s.rakeQ.map (fun r => r.src) ++ [0x005] ∧ s.regsBut t [Reg.ENC_ERR n]) ∧
  (∀ (n : Fin 16) (tb : BitVec 64) (s : State), s.calm → s.domOn .place = true → s.filtered tb (s.encFilter n) = true →
    (s.getEncoder n).zLast = none ∨ s.rd (Fld.ENC_CFG_Z_MODE n) ≠ 1 ∨ s.getReg (Reg.ENC_ZCPR n) = 0 ∨
      (∃ z, (s.getEncoder n).zLast = some z ∧
        (signedOf 32 (patternOf 32 (((s.getReg (Reg.ENC_CNT n)).toNat : Int) - z))).natAbs = (s.getReg (Reg.ENC_ZCPR n)).toNat) →
    ∃ t, exec (.zEdge (n, tb)) s = .next t ∧ (t.getEncoder n).zLast = some (s.getReg (Reg.ENC_CNT n)).toNat ∧
      (t.getEncoder n).a = (s.getEncoder n).a ∧ (t.getEncoder n).b = (s.getEncoder n).b ∧ t = { s with encoders := t.encoders }) ∧
  (∀ (n : Fin 24) (p : Int) (tm : Nat) (s : State), s.calm → s.domOn .place = true → (s.getTracker n).meas = some (p, tm) →
    (∀ u, (s.getTracker n).used = some u → u + s.minDt n ≤ tm) → (s.getTracker n).mode = .still →
    ∃ t, exec (.trackerVisit n) s = .next t ∧ t.rd64 (Reg.TRK_POS_LO n) = patternOf 48 p ∧ t.trkVel n = 0 ∧ t.trkAcc n = 0 ∧
      t.trkRef n = tm % 2 ^ 64 ∧ t.on (Fld.TRK_STAT_STILL n) = false ∧ (t.getTracker n).mode = .start ∧ (t.getTracker n).meas = none ∧
      (t.getTracker n).used = some tm ∧
      s.regsBut t [Reg.TRK_POS_LO n, Reg.TRK_POS_LO n + 4, Reg.TRK_VEL n, Reg.TRK_ACC n, Reg.TRK_TREF_LO n, Reg.TRK_TREF_LO n + 4, Reg.TRK_STAT n] ∧
      t = { s with regs := t.regs, trackers := t.trackers }) ∧
  (∀ (n : Fin 24) (p : Int) (tm : Nat) (s : State), s.calm → s.domOn .place = true → (s.getTracker n).meas = some (p, tm) →
    (∀ u, (s.getTracker n).used = some u → u + s.minDt n ≤ tm) → (s.getTracker n).mode = .start →
    (roundDiv (pos48 (p - s.trkPos n) * 2 ^ 48) (max (usQ32 tm (s.trkRef n)) 1)).natAbs < 2 ^ 31 →
    ∃ t, exec (.trackerVisit n) s = .next t ∧ t.rd64 (Reg.TRK_POS_LO n) = patternOf 48 p ∧
      t.trkVel n = roundDiv (pos48 (p - s.trkPos n) * 2 ^ 48) (max (usQ32 tm (s.trkRef n)) 1) ∧ t.trkAcc n = 0 ∧
      t.on (Fld.TRK_STAT_VSAT n) = false ∧ (t.getTracker n).mode = .track) ∧
  (∀ (n : Fin 24) (p : Int) (tm : Nat) (s : State), s.calm → s.domOn .place = true → (s.getTracker n).meas = some (p, tm) →
    (∀ u, (s.getTracker n).used = some u → u + s.minDt n ≤ tm) → (s.getTracker n).mode = .track →
    ∃ t, exec (.trackerVisit n) s = .next t ∧ t.trkRef n = tm % 2 ^ 64 ∧ (t.getTracker n).mode = .track ∧ (t.getTracker n).meas = none ∧
      (t.getTracker n).used = some tm ∧
      (s.rd (Fld.TRK_GAIN_ALPHA n) = 0 → s.rd (Fld.TRK_GAIN_BETA n) = 0 → s.rd (Fld.TRK_CFG_GAMMA n) = 0 → s.trkVel n = 0 → s.trkAcc n = 0 →
        t.trkPos n = s.trkPos n ∧ t.trkVel n = 0 ∧ t.trkAcc n = 0)) ∧
  (∀ (n : Fin 24) (s : State), s.calm → s.domOn .place = false ∨
    (∀ p ∈ (s.getTracker n).meas, (s.getTracker n).used.isSome ∧ ∀ u ∈ (s.getTracker n).used, p.2 < u + s.minDt n) →
    exec (.trackerVisit n) s = .next s) ∧
  (∀ (n : Fin 24) (s : State), s.calm → s.domOn .place = true → (s.getTracker n).te + s.stillTime n ≤ s.dibNow →
    ∃ t, exec (.trackerStill n) s = .next t ∧ t.trkVel n = 0 ∧ t.trkAcc n = 0 ∧ t.on (Fld.TRK_STAT_STILL n) = true ∧
      (t.getTracker n).mode = .still ∧ t.trkPos n = s.trkPos n ∧ s.regsBut t [Reg.TRK_VEL n, Reg.TRK_ACC n, Reg.TRK_STAT n]) ∧
  (∀ (n : Fin 24) (s : State), s.calm → s.domOn .place = false ∨ s.dibNow < (s.getTracker n).te + s.stillTime n →
    exec (.trackerStill n) s = .next s)

/-- The time base (R137 to R140, R575): an idle cycle of REFCLK25 advances TB by TB_INC, held to its range; a synchronisation of a mirror
within 4 units has its offset corrected, by at most one unit in 16 of its cycles, and one beyond is a slip, reported, after which the
mirror reads the master's value; both adopt TB_INC and keep the calibration. A calibration, which takes the median of the round trips,
starts it there. A mirror whose clock stands does neither. How the shares of a cycle add up is the model's reading (DEDUCED, log entry
115). -/
def Obligations.TimeBase : Prop :=
  (∀ s : State, s.pending = [] → s.calm → s.pcr.refLost = false →
    ∃ t, step s = .next t ∧ t.tb.toNat * 2 ^ 24 + t.tbFrac.toNat = (s.tb.toNat * 2 ^ 24 + s.tbFrac.toNat + s.tbInc) % 2 ^ 88) ∧
  (∀ (m : Master) (v : Word) (s : State), s.calm → s.reaches Reg.PCR_TB_INC →
    ∃ t, exec (.tbIncWrite m v) s = .next t ∧ t.getReg Reg.PCR_TB_INC = BitVec.ofNat 32 (max 0x9FF7CED9 (min 0xA0083127 v.toNat)) ∧ tbIncLow ≤ t.tbInc ∧ t.tbInc ≤ tbIncHigh ∧
      s.regsBut t [Reg.PCR_TB_INC] ∧ s.onlyRegs t) ∧
  (∀ (k : Fin 17) (cross : Nat) (s : State), s.calm → s.clockRuns k = true → (s.getMirror k).cal = true →
    (s.syncFound k cross).natAbs ≤ 4 * 2 ^ 24 →
    ∃ t, exec (.tbSync k cross) s = .next t ∧ t.getMirror k = { s.getMirror k with left := s.syncFound k cross, inc := s.tbInc } ∧
      t = { s with mirrors := t.mirrors }) ∧
  (∀ (k : Fin 17) (cross : Nat) (s : State), s.calm → s.clockRuns k = true → (s.getMirror k).cal = true →
    4 * 2 ^ 24 < (s.syncFound k cross).natAbs →
    ∃ t r l, exec (.tbSync k cross) s = .next t ∧ t.getMirror k = { s.getMirror k with off := 0, left := 0, inc := s.tbInc } ∧
      t.rakeQ = s.rakeQ ++ r :: l ∧ r.src = 0x003 ∧ (s.ctxs = [] → l = [] ∧ s.regsBut t [])) ∧
  (∀ (k : Fin 17) (cross : Nat) (s : State), s.calm → s.clockRuns k = false ∨ (s.getMirror k).cal = false →
    exec (.tbSync k cross) s = .next s) ∧
  (∀ (k : Fin 17) (trips : List Nat) (s : State), s.calm → s.clockRuns k = true →
    ∃ t, exec (.mirrorCalibrated (k, trips)) s = .next t ∧ t.tb = s.tb ∧
      t.getMirror k = { Mirror.reset with inc := s.tbInc, lat := (roundDiv (twiceMedian trips : Nat) 4).toNat, cal := true }) ∧
  (∀ (k : Fin 17) (trips : List Nat) (s : State), s.calm → s.clockRuns k = false → exec (.mirrorCalibrated (k, trips)) s = .next s) ∧
  (∀ (x : Mirror) (ps inc : Nat), (x.advance ps inc).off + inc + (x.left - (x.advance ps inc).left) = x.off + x.inc ∧
    (x.left - (x.advance ps inc).left).natAbs ≤ 2 ^ 24 * ((x.cyc + (x.ph + 40000) / max ps 1) / 16))

/-- The context stage (R155, R157, R158, R165): the visit of a context leaves no product in flight without its edge position and touches
no other context; of one that stands still it places the edge of a new product and releases no line. A free slot with no urgent context
passes without effect, and one with an urgent context visits that and is counted. Fire times (R162): the time of a committed line is no
earlier than its solved crossing, than 2 µs after the edge, than 100 ns after the visit, than the previous line of each of its ranges
plus the larger of MIN_PERIOD and the port's minimum, and than the previous line of each of its ports plus that port's spacing. -/
def Obligations.ContextStageAndFireTimes : Prop :=
  (∀ (slot : Fin 256) (s : State), s.calm → s.domOn .place = true → s.slotFree slot = false →
    ∃ t, exec (.contextVisit slot) s = .next t ∧ (∀ y ∈ (t.getCtx slot).prods, y.ended = false → y.upg.isSome = true) ∧
      (∀ c < 256, c ≠ slot.val → t.getCtx c = s.getCtx c) ∧ t.tb = s.tb ∧ t.mem = s.mem) ∧
  (∀ (slot : Fin 256) (x : Product) (s : State), s.calm → s.domOn .place = true → s.slotFree slot = false → (s.getCtx slot).prods = [x] →
    x.upg = none → x.ended = false → x.status = none → x.armed = true → x.reverse = false →
    (⟨s.dibNow, s.fwdBase slot, s.predictFwd slot s.dibNow, quotInt 0⟩ : Visit).forward = false →
    ∃ t y, exec (.contextVisit slot) s = .next t ∧ (t.getCtx slot).prods = [y] ∧ y.upg = some (s.fwdAt slot x.tpg) ∧
      y.groups = rowGroups x.set (s.nranges slot) ∧ y.job = x.job ∧ t.ports = s.ports ∧ t.esp = s.esp ∧
      s.regsBut t [Reg.TRK_STAT (s.posSrc slot)]) ∧
  (∀ (slot : Fin 256) (c : Nat) (s : State), s.calm → s.domOn .place = true → s.slotFree slot = true → s.urgent = some c →
    ∃ t, exec (.contextVisit slot) s = .next t ∧ t.rd Fld.DIB_URGENT_COUNT = (s.rd Fld.DIB_URGENT_COUNT + 1) % 2 ^ 32) ∧
  (∀ (slot : Fin 256) (s : State), s.calm → s.slotFree slot = true → s.urgent = none → exec (.contextVisit slot) s = .next s) ∧
  (∀ (s : State) (c : Nat) (x : Product) (g : Group) (tv : Nat) (tc : Int),
    tc ≤ (s.fireTime c x g tv tc).1 ∧ x.tpg + 8000 ≤ (s.fireTime c x g tv tc).1 ∧ tv + 400 ≤ (s.fireTime c x g tv tc).1 ∧
    (∀ r ∈ g.ranges, ∀ f, Store.get (fun _ => none) s.rangeFire (c * 16 + r) = some f →
      f + max (bitsOf (dwAt x.set 3) 23 0) (s.portMin (s.rangePort c r)) ≤ (s.fireTime c x g tv tc).1) ∧
    (∀ r ∈ g.ranges, ∀ f, Store.get (fun _ => none) s.portFire (s.rangePort c r) = some f →
      f + s.portSpace (s.rangePort c r) ≤ (s.fireTime c x g tv tc).1))

/-- Writes of Moraine (R22, R34, R177, R179): the bytes enabled are stored where the word is sound and its bank answers, and no byte
outside the access reads otherwise; a write to a bank that is off or initialising is dropped and reported; an address beyond the store
has no effect. Scrub and write-back (R177, R181, R182): bits that change of themselves leave a word corrected for one and bad for two;
once SCRUB_INT has passed the scrub visits one word of each bank and writes a correctable one back as the decoder gives it, and so does a
write-back. -/
def Obligations.DotStore : Prop :=
  (∀ (m : Master) (a : BusAddr) (data : List (Option Byte)) (s : State), s.calm → deviceAddr a < 0x4000000 →
    ∃ t, exec (.moraineWrite m a data) s = .next t ∧
      (∀ b, b < deviceAddr a ∨ deviceAddr a + min 512 data.length ≤ b → t.decodedByte b = s.decodedByte b)) ∧
  (∀ (m : Master) (a : BusAddr) (data : List (Option Byte)) (s : State), s.calm → deviceAddr a + data.length ≤ 0x4000000 →
    0 < data.length → data.length ≤ 512 → s.esp.bad = [] → (∀ k < 64, s.bankReady k = true) →
    ∃ t, exec (.moraineWrite m a data) s = .next t ∧
      (∀ k x, data[k]? = some (some x) → t.readByte (deviceAddr a + k) = x) ∧
      (∀ k, data[k]? = some none → t.readByte (deviceAddr a + k) = s.readByte (deviceAddr a + k)) ∧ s.regsBut t []) ∧
  (∀ (m : Master) (a : BusAddr) (data : List (Option Byte)) (s : State), s.calm → deviceAddr a < 0x4000000 → 0 < data.length →
    (∀ k < 64, s.bankPresent k = true) → (∀ k < 64, s.bankReady k = false) →
    ∃ t, exec (.moraineWrite m a data) s = .next t ∧ t.rakeQ.map (fun r => r.src) = s.rakeQ.map (fun r => r.src) ++ [0x201] ∧
      t = { s with rakeQ := t.rakeQ }) ∧
  (∀ (m : Master) (a : BusAddr) (data : List (Option Byte)) (s : State), s.calm → 0x4000000 ≤ deviceAddr a →
    exec (.moraineWrite m a data) s = .next s) ∧
  (∀ s : State, s.calm → s.scrubDue = true →
    ∃ t, exec .scrubRead s = .next t ∧ t.esp.scrubAt = (s.esp.scrubAt + 1) % 0x20000 ∧ t.esp.scrubbed = s.tb.toNat ∧
      (∀ b < 64, s.bankReady b = true → ∀ x, s.badWord (b * 0x100000 + s.esp.scrubAt * 8) = some x → x.look = .corrected →
        t.badWord (b * 0x100000 + s.esp.scrubAt * 8) = none ∧ t.storedWord (b * 0x100000 + s.esp.scrubAt * 8) = x.data)) ∧
  (∀ s : State, s.calm → s.scrubDue = false → exec .scrubRead s = .next s) ∧
  (∀ (b : Fin 64) (w : Fin 0x800000) (f : BitVec 72) (s : State), s.calm → (∀ w ∈ s.esp.writeBack, bankOf w ≠ b.val) →
    s.bankReady (bankOf (w * 8)) = true → s.badWord (w * 8) = none → onesOf f = 1 ∨ onesOf f = 2 →
    ∃ t x, exec (.eccWriteBack (b, [(w, f)])) s = .next t ∧ t.badWord (w * 8) = some x ∧ t.storedWord (w * 8) = s.storedWord (w * 8) ^^^ f.truncate 64 ∧
      (onesOf f = 1 → x.look = .corrected ∧ x.data = s.storedWord (w * 8)) ∧ (onesOf f = 2 → x.look = .bad)) ∧
  (∀ (b : Fin 64) (w : Nat) (s : State), s.calm → s.esp.writeBack.find? (fun w => decide (bankOf w = b)) = some w →
    ∃ t, exec (.eccWriteBack (b, [])) s = .next t ∧ t.badWord w = none ∧ t.esp.writeBack = s.esp.writeBack.filter (fun x => x != w) ∧
      (∀ x, s.badWord w = some x → t.storedWord w = x.data) ∧ (s.badWord w = none → t.mem = s.mem) ∧
      (∀ x, x ≠ w → t.badWord x = s.badWord x) ∧ t = { s with esp := t.esp, mem := t.mem }) ∧
  (∀ (b : Fin 64) (s : State), s.calm → (∀ w ∈ s.esp.writeBack, bankOf w ≠ b.val) → exec (.eccWriteBack (b, [])) s = .next s)

/-- Patch blocks (R189, R191): the next job that waits, of a product first, gets its block once there is space in ready banks, and the
allocation point moves past it; until then it waits. The last responses of a fetch make its patch resident. -/
def Obligations.PatchBlocks : Prop :=
  (∀ (n : Fin 255) (base : Nat) (s : State), s.calm → s.domOn .ds0 = true → s.dsInit 0 = false → (s.getCtx n).anyWaits = true →
    placeBlock (s.getCtx n) (s.patchSize n) (s.getCtx n).nextUnits = some base →
    s.areaReady n base (s.getCtx n).nextUnits = true →
    ∃ t, exec (.blockAllocate n) s = .next t ∧ (t.getCtx n).alloc = base + (s.getCtx n).nextUnits ∧ t = { s with ctxs := t.ctxs } ∧
      ((s.getCtx n).prodWaits = false → (t.getCtx n).prods = (s.getCtx n).prods ∧ (t.getCtx n).queue =
        giveBlock Job.waits ⟨base, (s.getCtx n).nextUnits, Fetch.reset, Fetch.reset, false⟩ (s.getCtx n).queue) ∧
      ((s.getCtx n).prodWaits = true → (t.getCtx n).queue = (s.getCtx n).queue ∧ (t.getCtx n).prods =
        giveProdBlock Product.waits ⟨base, (s.getCtx n).nextUnits, Fetch.reset, Fetch.reset, false⟩ (s.getCtx n).prods)) ∧
  (∀ (n : Fin 255) (s : State), s.calm → s.domOn .ds0 = false ∨ s.dsInit 0 = true ∨ (s.getCtx n).anyWaits = false ∨
    placeBlock (s.getCtx n) (s.patchSize n) (s.getCtx n).nextUnits = none → exec (.blockAllocate n) s = .next s) ∧
  (∀ (n : Fin 255) (k : Fin 2) (o : Nat) (j : Job) (w : BarWrite) (s : State), s.calm →
    ((s.getCtx n).jobs.filter (fun j => j.fetching k))[o]? = some j → (j.fetch k).id ≠ 0 → (j.fetch k).wr = patchBytes j.dw k →
    s.bar.writes = [w] → w.chan = 32 → w.id = (j.fetch k).id → s.esp.bad = [] → (∀ k < 64, s.bankReady k = true) →
    ∃ t, exec (.patchResident n k o) s = .next t ∧ t.bar.writes = [] ∧
      (∀ y ∈ (t.getCtx n).jobs, (y.fetch k).id = (j.fetch k).id → (y.fetch k).wr = patchBytes y.dw k → (y.fetch k).res = true) ∧
      (t.getCtx n).jobs.map (fun y => y.dw) = (s.getCtx n).jobs.map (fun y => y.dw) ∧
      (∀ i v, w.data[i]? = some v → t.readByte (w.addr + i) = v) ∧
      (∀ x, x < w.addr ∨ w.addr + w.data.length ≤ x → t.readByte x = s.readByte x)) ∧
  (∀ (n : Fin 255) (k : Fin 2) (o : Nat) (s : State), s.calm →
    (∀ j, ((s.getCtx n).jobs.filter (fun j => j.fetching k))[o]? = some j → (j.fetch k).id = 0 ∨ (j.fetch k).wr ≠ patchBytes j.dw k) →
    exec (.patchResident n k o) s = .next s)

/-- Descriptors that are checked when they take effect (R185, R227, R636): one with VALID set that fails its check has VALID cleared and
is recorded with the lowest reason; one that passes, or has VALID clear, stands as written. Shears and Graft (R212, R220, R223 to R225):
the scanning words take effect together, those not staged as they stood; a zone of context 0 or 255 is counted and recorded; a mask check
runs over the contents of its set at its start and answers, and while it runs a further GO writes the fields only; GRF_NSET sets the
status of one nozzle alone, and of an absent port none. -/
def Obligations.CompositionSettings : Prop :=
  (∀ (m : Master) (d : Fin 4096) (v : Word) (s u : State), s.calm → s.reaches (Reg.PLD_W3 d) → u = s.writeCode m (Reg.PLD_W3 d) v →
    ∃ t, exec (.plateDescriptorWrite m d v) s = .next t ∧
      (plValid (u.plateWords d) = false ∨ u.plateReason (u.plateWords d) = 0 → t = u) ∧
      (plValid (u.plateWords d) = true → u.plateReason (u.plateWords d) ≠ 0 →
        t.on (Fld.PLD_W0_VALID d) = false ∧ t.on Fld.ESP_STAT_PLD_BAD = true ∧
        t.rd Fld.ESP_PLD_BAD_REASON = u.plateReason (u.plateWords d) ∧ t.rd Fld.ESP_PLD_BAD_NUM = d.val ∧
        u.regsBut t [Reg.PLD_W0 d, Fld.ESP_STAT_PLD_BAD.addr, Fld.ESP_PLD_BAD_REASON.addr])) ∧
  (∀ (m : Master) (e : Fin 8192) (v : Word) (s u : State), s.calm → s.reaches (Reg.GRF_SUB_W3 e) → u = s.writeCode m (Reg.GRF_SUB_W3 e) v →
    ∃ t, exec (.substitutionEntryWrite m e v) s = .next t ∧
      (bitOf (u.getReg (Reg.GRF_SUB_W0 e)) 31 = false ∨ u.subReason e (u.subWords e) = 0 → t = u) ∧
      (bitOf (u.getReg (Reg.GRF_SUB_W0 e)) 31 = true → u.subReason e (u.subWords e) ≠ 0 →
        t.on (Fld.GRF_SUB_W0_VALID e) = false ∧ t.on Fld.GRF_STAT_BAD = true ∧
        t.rd Fld.GRF_BAD_REASON = u.subReason e (u.subWords e) ∧ t.rd Fld.GRF_BAD_NUM = e.val)) ∧
  (∀ (m : Master) (n : Fin 255) (v : Word) (s : State), s.calm → s.reaches (Reg.SHR_CTX_ALIGN_R n) →
    ∃ t, exec (.scanConfigCommit m n v) s = .next t ∧ t.getReg (Reg.SHR_CTX_ALIGN_R n) = v ∧
      (∀ b, Store.get (fun _ => none) s.staged (masterKey m (Reg.SHR_CTX_ALIGN_F n)) = some b → t.getReg (Reg.SHR_CTX_ALIGN_F n) = b) ∧
      (∀ a, Store.get (fun _ => none) s.staged (masterKey m (Reg.SHR_CTX_SCAN n)) = some a →
        t.on (Fld.SHR_CTX_SCAN_SCAN_EN n) = bitOf a 31 ∧ t.rd (Fld.SHR_CTX_SCAN_NPASS_M1 n) = bitsOf a 26 24) ∧
      (Store.get (fun _ => none) s.staged (masterKey m (Reg.SHR_CTX_ALIGN_F n)) = none →
        t.getReg (Reg.SHR_CTX_ALIGN_F n) = s.getReg (Reg.SHR_CTX_ALIGN_F n)) ∧
      (Store.get (fun _ => none) s.staged (masterKey m (Reg.SHR_CTX_SCAN n)) = none →
        t.getReg (Reg.SHR_CTX_SCAN n) = s.getReg (Reg.SHR_CTX_SCAN n)) ∧
      s.regsBut t [Reg.SHR_CTX_SCAN n, Reg.SHR_CTX_ALIGN_F n, Reg.SHR_CTX_ALIGN_R n] ∧ s.onlyRegs t) ∧
  (∀ (m : Master) (z : Fin 64) (v : Word) (s u : State), s.calm → s.reaches (Reg.SHR_ZONE_B z) → u = s.writeCode m (Reg.SHR_ZONE_B z) v →
    ∃ t, exec (.stitchZoneWrite m z v) s = .next t ∧
      (u.on (Fld.SHR_ZONE_A_EN z) = true → (u.rd (Fld.SHR_ZONE_A_CTX z) = 0 ∨ u.rd (Fld.SHR_ZONE_A_CTX z) = 255) →
        t.rd Fld.SHR_ZBAD_REASON = 4 ∧ t.rd Fld.SHR_ZBAD_ZONE = z.val ∧ t.rd Fld.SHR_ZBAD_CTX = u.rd (Fld.SHR_ZONE_A_CTX z) ∧
        t.on Fld.SHR_STAT_ZONE_BAD = true ∧ t.rd Fld.SHR_CNT_ZSKIP_COUNT = min (u.rd Fld.SHR_CNT_ZSKIP_COUNT + 1) (2 ^ 32 - 1) ∧
        t.on (Fld.SHR_ZONE_A_EN z) = true) ∧
      (u.on (Fld.SHR_ZONE_A_EN z) = false ∨ (u.rd (Fld.SHR_ZONE_A_CTX z) ≠ 0 ∧ u.rd (Fld.SHR_ZONE_A_CTX z) ≠ 255) → t = u)) ∧
  (∀ (m : Master) (v : Word) (s : State), s.calm → s.reaches Reg.SHR_CHECK → s.on Fld.SHR_CHECK_BUSY = false →
    ∃ t, exec (.maskCheck m v) s = .next t ∧ t.on Fld.SHR_CHECK_BUSY = true ∧ t.rd Fld.SHR_CHECK_SET = bitsOf v 3 0 ∧
      t.maskCheck.map (fun c => (c.1, c.2.1, c.2.2.1)) =
        some (bitsOf v 3 0, t.rd Fld.SHR_CHECK_NPASS_M1 + 1, modOf (t.rd Fld.SHR_CHECK_MOD)) ∧
      (t.maskCheck.bind (fun c => c.2.2.2) = none ↔ ∀ i < modOf (t.rd Fld.SHR_CHECK_MOD) * 64,
        s.maskCount (bitsOf v 3 0) (t.rd Fld.SHR_CHECK_NPASS_M1 + 1) (i / 64) (i % 64) = 1) ∧ s.regsBut t [Reg.SHR_CHECK]) ∧
  (∀ (m : Master) (v : Word) (s : State), s.calm → s.reaches Reg.SHR_CHECK → s.on Fld.SHR_CHECK_BUSY = true →
    ∃ t, exec (.maskCheck m v) s = .next t ∧ t.on Fld.SHR_CHECK_BUSY = true ∧ t.rd Fld.SHR_CHECK_SET = bitsOf v 3 0 ∧
      s.regsBut t [Reg.SHR_CHECK] ∧ s.onlyRegs t) ∧
  (∀ (a b c : Nat) (r : Option (Nat × Nat)) (s : State), s.calm → s.maskCheck = some (a, b, c, r) →
    ∃ t, exec .maskCheckDone s = .next t ∧ t.on Fld.SHR_CHECK_BUSY = false ∧ t.maskCheck = none ∧
      t.rd Fld.SHR_CHECK_RESULT = (match r with | none => 1 | some (_, n) => if n = 0 then 2 else 3) ∧
      (∀ i n, r = some (i, n) → i < 4096 → t.rd Fld.SHR_CHECK_ENTRY = i / 64 ∧ t.rd Fld.SHR_CHECK_BIT = i % 64) ∧
      s.regsBut t [Reg.SHR_CHECK] ∧ t = { s with regs := t.regs, maskCheck := none }) ∧
  (∀ s : State, s.calm → s.maskCheck = none → exec .maskCheckDone s = .next s) ∧
  (∀ (m : Master) (v : Word) (s : State), s.calm → s.reaches Reg.GRF_NSET → s.portPresent (bitsOf v 19 16) = true →
    ∃ t, exec (.grfNset m v) s = .next t ∧ t.nozStatus (bitsOf v 19 16) (bitsOf v 11 0) = bitsOf v 31 30 ∧
      (∀ p n, p < 16 → n < 4096 → (p, n) ≠ (bitsOf v 19 16, bitsOf v 11 0) → t.nozStatus p n = s.nozStatus p n) ∧ s.onlyRegs t) ∧
  (∀ (m : Master) (v : Word) (s : State), s.calm → s.reaches Reg.GRF_NSET → s.portPresent (bitsOf v 19 16) = false →
    exec (.grfNset m v) s = .next s)

/-- Composition (R194 to R197, R201, R471): a free engine takes the oldest request, outside the pause of a die throttle, and the port's
line order gets the composed entry when nothing waits before it and its FIFO has room; an entry that waits is written when a FIFO entry
is free; a composed level is a number from 0 to 3. -/
def Obligations.Composition : Prop :=
  (∀ (k : LineKey) (rest : List LineKey) (x y : Product) (g : Group) (p : Nat) (out : List (Nat × Nat × Nat)) (l : PLine) (s u : State),
    s.calm → s.esp.queue = k :: rest → s.enginesHeld < 8 → s.diePaused s.esp.taken = false → s.findProd k.ctx k.prod = some x →
    x.groups.find? (fun h => h.num == k.group) = some g → s.groupPorts k.ctx g = [p] →
    State.composeRequest { s with esp := { s.esp with queue := rest, taken := some s.tb.toNat } } k x g = (.levels out, y, u) →
    (s.getPort p).lines = [l] → l.key = k → l.entry = none → s.esp.waiting = [] →
    ∃ t, exec .compose s = .next t ∧ t.esp.queue = rest ∧ (t.getPort p).lines = [{ l with entry := some (entryOf p out) }]) ∧
  (∀ s : State, s.calm → s.esp.queue = [] ∨ 8 ≤ s.enginesHeld ∨ s.diePaused s.esp.taken = true → exec .compose s = .next s) ∧
  (∀ (p : Fin 16) (w : WaitEntry) (l : PLine) (s : State), s.calm → s.esp.waiting = [w] → w.port = p.val → (s.getPort p).lines = [l] →
    l.key = w.key → l.entry = none → w.entry.void = false →
    ∃ t, exec (.lineFifoEntry p) s = .next t ∧ t.esp.waiting = [] ∧ (t.getPort p).lines = [{ l with entry := some w.entry }]) ∧
  (∀ (p : Fin 16) (s : State), s.calm → (∀ w ∈ s.esp.waiting, w.port ≠ p.val) ∨ 64 ≤ s.fifoLevel p → exec (.lineFifoEntry p) s = .next s) ∧
  (∀ (s : State) (c : Nat) (x : Product) (i k : Nat), s.composeLevel c x i k ≤ 3)

/-- Enabling a port (R242, R243, R246, R279 to R281, R311). A write with EN set while EN is clear takes every field, and in mode C begins
a series of training; while EN is set a write changes EN alone; clearing it stops a mode C link, with INHIBIT STATE 1 where it is LINKED.
A change of the island's clock leaves its mirror uncalibrated (R139, R255). The entry ramp begins when every other condition of READY
holds; when 64 samples have passed and the output has the REST_CODE in force, the port is READY with its S_p, PORT_SPACE and G_REQ (a
negative S_p in two's complement, log entry 118). A port that leaves READY drops every line, and its pulse too unless that may complete.
What else follows from a change of the state is `State.watch`, which takes each port through `State.watchPort`. -/
def Obligations.PortReadiness : Prop :=
  (∀ (m : Master) (p : Fin 16) (v : Word) (s : State), s.calm → s.reaches (Reg.PORT_CFG p) → s.on (Fld.PORT_CFG_EN p) = false →
    ∃ u, exec (.portEnable m p v) s = .next (State.watch s u) ∧
      u.getReg (Reg.PORT_CFG p) = (s.getReg (Reg.PORT_CFG p) &&& 0x718FE000) ||| ((v ||| 0x80000000) &&& 0x8E701FFF) ∧
      (u.portMode p = 2 ∧ (s.getPort p).neve.seqOk = true → u.nvStage p = 1 ∧ (u.getPort p).neve.excl = 0 ∧
        u.out = s.out ++ [.block p 0x2D [0, u.nvVmax p, 1, 7, 0, 0, 0]]) ∧
      (u.portMode p = 2 ∧ (s.getPort p).neve.seqOk = false → s.regsBut u [Reg.PORT_CFG p] ∧
        u = { s with regs := u.regs, ports := u.ports, mirrors := u.mirrors }) ∧
      (u.portMode p ≠ 2 → s.regsBut u [Reg.PORT_CFG p] ∧ u = { s with regs := u.regs, mirrors := u.mirrors }) ∧
      (u.localPs p ≠ s.localPs p → (u.getMirror p).cal = false)) ∧
  (∀ (m : Master) (p : Fin 16) (v : Word) (s : State), s.calm → s.reaches (Reg.PORT_CFG p) → s.on (Fld.PORT_CFG_EN p) = true →
    ∃ u, exec (.portEnable m p v) s = .next (State.watch s u) ∧ s.regsBut u [] ∧ s.onlyRegs u) ∧
  (∀ (m : Master) (p : Fin 16) (v : Word) (s : State), s.calm → s.reaches (Reg.PORT_CFG p) → s.on (Fld.PORT_CFG_EN p) = true →
    ∃ u, exec (.portDisable m p v) s = .next (State.watch s u) ∧ u.getReg (Reg.PORT_CFG p) = s.getReg (Reg.PORT_CFG p) &&& 0x7FFFFFFF ∧
      (s.portMode p ≠ 2 → s.regsBut u [Reg.PORT_CFG p] ∧ s.onlyRegs u) ∧
      (s.portMode p = 2 → u.nvStage p = 0 ∧ u.on (Fld.NV_STAT_LOCK p) = false ∧ (u.getPort p).neve.failed = false ∧
        (u.getPort p).neve.retry = .none ∧ s.regsBut u [Reg.PORT_CFG p, Reg.NV_STAT p, Reg.NV_HREG_CMD p] ∧
        u.out = s.out ++ (if s.linked p then [.block p 0x87 [1]] else []) ++ [.idle p])) ∧
  (∀ (m : Master) (p : Fin 16) (v : Word) (s : State), s.calm → s.reaches (Reg.PORT_CFG p) → s.on (Fld.PORT_CFG_EN p) = false →
    ∃ u, exec (.portDisable m p v) s = .next (State.watch s u) ∧ u.getReg (Reg.PORT_CFG p) = (s.getReg (Reg.PORT_CFG p) &&& 0x718FE000) ||| (v &&& 0x0E701FFF) ∧
      s.regsBut u [Reg.PORT_CFG p] ∧ u = { s with regs := u.regs, mirrors := u.mirrors } ∧
      (u.localPs p ≠ s.localPs p → (u.getMirror p).cal = false)) ∧
  (∀ (p : Fin 16) (s : State), s.calm → s.portEligible p = true → (s.getPort p).ramped = false → s.rampEnded p = true →
    ∃ t, exec (.entryRampDone p) s = .next t ∧ t.portReady p = true ∧ t.rd (Fld.PORT_SP_VALUE p) = patternOf 24 (s.portSp p) ∧
      t.rd (Fld.PORT_SPACE_VALUE p) = s.portSpace p % 2 ^ 24 ∧
      t.rd (Fld.CRV_P_GREQ_GREQ p) = max 24000 (s.tkDly p + s.sLen p) % 2 ^ 24 ∧
      s.regsBut t [Reg.PORT_SP p, Reg.PORT_SPACE p, Reg.CRV_P_GREQ p] ∧ t = { s with regs := t.regs, ports := t.ports }) ∧
  (∀ (p : Fin 16) (s : State), s.calm → s.portEligible p = true → (s.getPort p).ramped = false → s.rampEnded p = false →
    (s.getWave p).entry = none ∨ s.rampPast p = true →
    ∃ t, exec (.entryRampDone p) s = .next t ∧ (t.getWave p).entry = some (s.mirrorNow p) ∧ (t.getPort p).ramped = false ∧
      (t.getWave p).code = s.restCode p ∧ s.regsBut t [Reg.ROSE_CNT_SAT p] ∧ t = { s with regs := t.regs, ports := t.ports, out := t.out }) ∧
  (∀ (p : Fin 16) (s : State), s.calm → (s.portEligible p = false ∨ (s.getPort p).ramped = true ∨
      ((s.getWave p).entry.isSome ∧ s.rampPast p = false)) →
    exec (.entryRampDone p) s = .next s) ∧
  (∀ (p : Fin 16) (keep : Bool) (s u t : State), s.portReady p = true → u.portReady p = false → t = State.watchPort s keep u p →
    (t.getPort p).lines = [] ∧ (t.getPort p).ramped = false ∧ t.rd (Fld.PORT_SP_VALUE p) = 0 ∧ t.rd (Fld.PORT_SPACE_VALUE p) = 0 ∧
    (keep = false → (t.getPort p).pulse = none))

/-- A quiet point (R291, R297, R306, R307, R312): Rose's written settings come into force when they are valid, REST_CODE is shown, and in
modes A and B a table frame goes out where the head's masks differ or are unknown, its 24 bits on the physical lane of logical lane 0;
settings that are not valid leave those in force, and Rose is not VALID. With a line order, a pulse, a head load or a table frame under
way, and on a port that is not READY, it is no quiet point. Shifting and latching (R198, R245, R250, R257, R291, R302). Of the lines that
voided ones before them leave, the next whose predecessors are latched long enough is sent lane by lane, or in mode C as a frame with the
port's next tag and the CRC of its payload, once its entry is complete; not while a table frame is under way, nor on a port that is not
READY. The line at the front is latched at the instant of R245, with no pulse in progress, and takes its fill and scale. -/
def Obligations.QuietPointsAndShift : Prop :=
  (∀ (p : Fin 16) (b : Nat) (s u : State), s.calm → s.portReady p = true → (s.getPort p).lines = [] → (s.getPort p).pulse = none →
    s.loading p = false → (s.getPort p).tableEnd ≤ s.mirrorNow p → u = s.onPort p (fun x => { x with bin := s.chooseBin p }) →
    b = bitPs (s.portMode p) (s.rd (Fld.PORT_CFG_RATE p)) →
    ∃ w, exec (.quietPoint p) s = .next (State.watch s w) ∧
      (u.roseErr p = 0 → (w.getPort p).force = some ⟨s.roseWritten p⟩ ∧ w.on (Fld.ROSE_STAT_VALID p) = true ∧
        w.rd (Fld.ROSE_STAT_ERR p) = 0 ∧ (w.getPort p).bin = s.chooseBin p ∧ w.rd (Fld.ROSE_STAT_BIN p) = s.chooseBin p % 16 ∧
        (((s.getPort p).force ≠ some ⟨s.roseWritten p⟩ ∨ s.chooseBin p ≠ (s.getPort p).bin) →
          w.rd (Fld.ROSE_CNT_QUIET_COUNT p) = (s.rd (Fld.ROSE_CNT_QUIET_COUNT p) + 1) % 2 ^ 32)) ∧
      (u.roseErr p ≠ 0 → (w.getPort p).force = (s.getPort p).force ∧ (w.getPort p).bin = (s.getPort p).bin ∧
        w.on (Fld.ROSE_STAT_VALID p) = false ∧ w.rd (Fld.ROSE_STAT_ERR p) = u.roseErr p ∧ w.out = s.out) ∧
      (u.roseErr p = 0 → s.portMode p ≠ 2 → (w.getPort p).masks = some (w.forcedMasks p) ∧
        w.out = s.out ++
          (if (s.getWave p).play = none ∧ (s.getWave p).code ≠ w.restCode p then [.wave p (s.mirrorNow p * 10) [w.restCode p]] else []) ++
          (if (s.getPort p).masks = some (w.forcedMasks p) then [] else
            [.table p ((List.range (if s.portMode p = 1 then 8 else 16)).map (fun l =>
                if s.laneOf p 0 = l then (w.forcedMasks p).flatMap (fun m => (List.range 8).map (fun i => m.testBit i))
                else List.replicate 24 false))
              [24 * b, 24 * b + max (s.tSl p * 1600) b, 24 * b + max (s.tSl p * 1600) b + s.tLatw p * 1600,
                24 * b + max (s.tSl p * 1600) b + s.tLatw p * 1600 + b]]))) ∧
  (∀ (p : Fin 16) (s : State), s.calm → (s.portReady p = false ∨ (s.getPort p).lines ≠ [] ∨ (s.getPort p).pulse ≠ none ∨
      s.loading p = true ∨ s.mirrorNow p < (s.getPort p).tableEnd) →
    exec (.quietPoint p) s = .next s) ∧
  (∀ (p : Fin 16) (l : PLine) (e : Entry) (s u : State), s.calm → s.portReady p = true → (s.getPort p).tableEnd ≤ s.mirrorNow p →
    u = s.purgeVoids p → nextToShift (s.shiftGap p) (s.mirrorNow p) (u.getPort p).lines = some l → l.entry = some e → e.void = false →
    s.portMode p ≠ 2 →
    ∃ t, exec (.lineShift p) s = .next t ∧ t.out = s.out ++ [.shift p (s.laneStreams p e)] ∧
      (t.getPort p).lines = (u.getPort p).lines.map (fun y => if y.key = l.key then { l with shift := .shifting (s.mirrorNow p) } else y) ∧
      t = { u with out := t.out, ports := t.ports }) ∧
  (∀ (p : Fin 16) (l : PLine) (e : Entry) (s u : State), s.calm → s.portReady p = true → (s.getPort p).tableEnd ≤ s.mirrorNow p →
    u = s.purgeVoids p → nextToShift (s.shiftGap p) (s.mirrorNow p) (u.getPort p).lines = some l → l.entry = some e → e.void = false →
    s.portMode p = 2 →
    ∃ t, exec (.lineShift p) s = .next t ∧
      t.out = s.out ++ [.frame p (s.getPort p).tag (s.framePayload p e) (crc32 (s.framePayload p e))] ∧
      (t.getPort p).lines = (u.getPort p).lines.map
        (fun y => if y.key = l.key then { l with shift := .shifting (s.mirrorNow p), tag := (s.getPort p).tag } else y) ∧
      (t.getPort p).tag = ((s.getPort p).tag + 1) % 256 ∧
      Store.get (fun _ => none) (t.getPort p).owners (s.getPort p).tag = some (l.key.ctx, l.key.prod) ∧
      t = { u with out := t.out, ports := t.ports }) ∧
  (∀ (p : Fin 16) (s : State), s.calm → (s.portReady p = false ∨ s.mirrorNow p < (s.getPort p).tableEnd) →
    exec (.lineShift p) s = .next s) ∧
  (∀ (p : Fin 16) (s u : State), s.calm → s.portReady p = true → (s.getPort p).tableEnd ≤ s.mirrorNow p → u = s.purgeVoids p →
    (nextToShift (s.shiftGap p) (s.mirrorNow p) (u.getPort p).lines).bind PLine.entry = none →
    exec (.lineShift p) s = .next u) ∧
  (∀ (p : Fin 16) (s u : State) (k : Nat), u = s.purgeVoids p →
    k = (((s.getPort p).lines.dropWhile PLine.latched).takeWhile PLine.void).length →
    (u.getPort p).lines = (s.getPort p).lines.takeWhile PLine.latched ++ ((s.getPort p).lines.dropWhile PLine.latched).drop k ∧
    u.rd (Fld.PORT_CNT_VOID_COUNT p) = (s.rd (Fld.PORT_CNT_VOID_COUNT p) + k) % 2 ^ 32 ∧ s.regsBut u [Reg.PORT_CNT_VOID p]) ∧
  (∀ (p : Fin 16) (l : PLine) (rest : List PLine) (e : Entry) (start : Nat) (s : State), s.calm → (s.getPort p).lines = l :: rest →
    l.shift = .shifting start → l.entry = some e → (s.getPort p).pulse = none → s.latchAt p start ≤ s.mirrorNow p →
    ∃ t, exec (.lineLatch p) s = .next t ∧ t.rd (Fld.ROSE_STAT_LAST_FILL p) = s.fillOf p e ∧
      (t.getPort p).lines.head? = some { l with
        shift := .latched start (s.latchAt p start)
        fill := s.fillOf p e
        scale := s.roseScale p (s.recordInUse p) (s.fillOf p e) } ∧
      (t.out.drop s.out.length).head? = some (if s.portMode p = 2 then .block p 0x55 [l.tag] else .latch p)) ∧
  (∀ (p : Fin 16) (l : PLine) (rest : List PLine) (start : Nat) (s : State), s.calm → (s.getPort p).lines = l :: rest →
    l.shift = .shifting start → ((s.getPort p).pulse ≠ none ∨ s.mirrorNow p < s.latchAt p start) →
    exec (.lineLatch p) s = .next s) ∧
  (∀ (p : Fin 16) (s : State), s.calm → (s.getPort p).lines.head?.all (fun l => match l.shift, l.entry with
      | .shifting _, some _ => false
      | _, _ => true) = true →
    exec (.lineLatch p) s = .next s)

/-- Judging and strobing (R167, R198, R245, R247, R253, R259, R273, R274, R290, R327, R340, R470). A fire event marks its line, and ends
a sense slot that it cannot clear; at the later of its arrival and T − S_p a line whose shift has begun in time stays and another is
freed, its product ABORTED_UNDERRUN; when the time of its strobe has come a judged line is strobed with its drops counted, withheld by a
gate, freed where T_LS is not kept, or stays where its head is in SHUTDOWN; at its end the pulse is over. Contexts carry numbers of 8
bits. -/
def Obligations.JudgeAndStrobe : Prop :=
  (∀ (p : Fin 16) (l : PLine) (s : State), s.calm → (s.getPort p).lines.find? (fun l => l.fire.isSome && !l.arrived) = some l →
    ∃ t, exec (.fireEvent p) s = .next t ∧
      (t.getPort p).lines = (s.getPort p).lines.map (fun y => if y.key = l.key then { l with arrived := true } else y) ∧
      ((s.getPort p).sense.slot = .none → t = { s with ports := t.ports }) ∧
      (∀ ttk, (s.getPort p).sense.slot = .planned ttk → l.fire.getD 0 < ttk + (s.getPort p).sense.len →
        (t.getPort p).sense.slot = .none ∧
        t.rd (Fld.CRV_P_CNT_SKIP_SHORT p) = min (s.rd (Fld.CRV_P_CNT_SKIP_SHORT p) + 1) (2 ^ 16 - 1)) ∧
      (∀ ttk, (s.getPort p).sense.slot = .tickle ttk →
        (t.getPort p).sense.slot = (if l.fire.getD 0 < ttk + (s.getPort p).sense.len then .none else .tickle ttk) ∧
        t.rd (Fld.CRV_P_CNT_MISS_CUT p) = min (s.rd (Fld.CRV_P_CNT_MISS_CUT p) +
          (if l.fire.getD 0 < ttk + (s.getPort p).sense.len then 1 else 0)) (2 ^ 16 - 1))) ∧
  (∀ (p : Fin 16) (s : State), s.calm → (s.getPort p).lines.find? (fun l => l.fire.isSome && !l.arrived) = none →
    exec (.fireEvent p) s = .next s) ∧
  (∀ (p : Fin 16) (l : PLine) (s : State), s.calm → (s.getPort p).lines.find? (fun l => l.arrived && !l.judged) = some l →
    s.shiftDue p l ≤ s.mirrorNow p →
    ∃ t, exec (.lineJudge p) s = .next t ∧
      (s.shiftedInTime p l = true → (t.getPort p).lines = (s.getPort p).lines.map (fun y => if y.key = l.key then { l with judged := true } else y) ∧
        t = { s with ports := t.ports }) ∧
      (s.shiftedInTime p l = false → ∀ y ∈ (t.getPort p).lines, y.key ≠ l.key) ∧
      (s.shiftedInTime p l = false → l.entry = none →
        t.rd Fld.ESP_CNT_LATE_COUNT = min (s.rd Fld.ESP_CNT_LATE_COUNT + 1) (2 ^ 32 - 1))) ∧
  (∀ (p : Fin 16) (l : PLine) (s : State), s.calm → (s.getPort p).lines.find? (fun l => l.arrived && !l.judged) = some l →
    (s.mirrorNow p : Int) < s.shiftDue p l → exec (.lineJudge p) s = .next s) ∧
  (∀ (p : Fin 16) (s : State), s.calm → (s.getPort p).lines.find? (fun l => l.arrived && !l.judged) = none →
    exec (.lineJudge p) s = .next s) ∧
  (∀ (p : Fin 16) (l : PLine) (rest : List PLine) (e : Entry) (f : Nat) (s : State), s.calm → (s.getPort p).lines = l :: rest →
    l.fire = some f → l.entry = some e → l.judged = true → s.rd (Fld.HK_CH_VAL_STATE (40 + p)) ≠ 3 → s.strobeDue p f = true →
    s.latchedInTime p l f = true → l.key.ctx < 256 → s.gated p = false →
    ∃ t, exec (.strobe p) s = .next t ∧ (∀ y ∈ (t.getPort p).lines, y.key ≠ l.key) ∧
      t.rd (Fld.PORT_CNT_STROBE_COUNT p) = (s.rd (Fld.PORT_CNT_STROBE_COUNT p) + 1) % 2 ^ 32 ∧
      t.rd64 (Reg.CONS_P_DROP1_LO p) = (s.rd64 (Reg.CONS_P_DROP1_LO p) + s.levelCount p e 1) % 2 ^ 48 ∧
      t.rd64 (Reg.CONS_P_DROP2_LO p) = (s.rd64 (Reg.CONS_P_DROP2_LO p) + s.levelCount p e 2) % 2 ^ 48 ∧
      t.rd64 (Reg.CONS_P_DROP3_LO p) = (s.rd64 (Reg.CONS_P_DROP3_LO p) + s.levelCount p e 3) % 2 ^ 48 ∧
      (t.getPort p).pulse = some ⟨f, s.pulseLen p l.scale, l.key.ctx⟩ ∧
      (t.getPort p).expects = (s.getPort p).expects ++
        (if s.rd (Fld.PORT_WD_CFG_MISS_LIM p) = 0 then [] else [⟨s.strobeAt p f, l.tag⟩]) ∧
      (s.portMode p ≠ 2 → .strobe p f (s.strobeTap p f) (s.strobeEdges p l.scale) ∈ t.out.drop s.out.length) ∧
      (s.portMode p = 2 → .block p 0x66 (l.tag :: leBytes 2 (s.strobeBlockDue p f).2) ∈ t.out.drop s.out.length)) ∧
  (∀ (p : Fin 16) (l : PLine) (rest : List PLine) (e : Entry) (f : Nat) (s : State), s.calm → (s.getPort p).lines = l :: rest →
    l.fire = some f → l.entry = some e → l.judged = true → s.rd (Fld.HK_CH_VAL_STATE (40 + p)) ≠ 3 → s.strobeDue p f = true →
    s.latchedInTime p l f = true → l.key.ctx < 256 → s.gated p = true →
    ∃ t, exec (.strobe p) s = .next t ∧ (∀ y ∈ (t.getPort p).lines, y.key ≠ l.key) ∧
      t.rd (Fld.PORT_CNT_INHIB_COUNT p) = min (s.rd (Fld.PORT_CNT_INHIB_COUNT p) + 1) (2 ^ 32 - 1) ∧
      t.rd (Fld.PORT_CNT_STROBE_COUNT p) = s.rd (Fld.PORT_CNT_STROBE_COUNT p) ∧ (t.getPort p).pulse = (s.getPort p).pulse) ∧
  (∀ (p : Fin 16) (l : PLine) (rest : List PLine) (e : Entry) (f : Nat) (s : State), s.calm → (s.getPort p).lines = l :: rest →
    l.fire = some f → l.entry = some e → l.judged = true → s.rd (Fld.HK_CH_VAL_STATE (40 + p)) ≠ 3 → s.strobeDue p f = true →
    s.latchedInTime p l f = false → l.key.ctx < 256 →
    ∃ t, exec (.strobe p) s = .next t ∧ (∀ y ∈ (t.getPort p).lines, y.key ≠ l.key) ∧
      t.rd (Fld.PORT_CNT_STROBE_COUNT p) = s.rd (Fld.PORT_CNT_STROBE_COUNT p) ∧ (t.getPort p).pulse = (s.getPort p).pulse) ∧
  (∀ (p : Fin 16) (l : PLine) (rest : List PLine) (s : State), s.calm → (s.getPort p).lines = l :: rest →
    (l.fire = none ∨ l.entry = none ∨ l.judged = false ∨ s.rd (Fld.HK_CH_VAL_STATE (40 + p)) = 3 ∨ s.strobeDue p (l.fire.getD 0) = false) →
    exec (.strobe p) s = .next s) ∧
  (∀ (p : Fin 16) (s : State), s.calm → (s.getPort p).lines = [] → exec (.strobe p) s = .next s) ∧
  (∀ (p : Fin 16) (x : PulseNow) (s : State), s.calm → (s.getPort p).pulse = some x → (s.getPort p).pulseEnd ≤ s.mirrorNow p →
    ∃ t, exec (.pulseEnd p) s = .next t ∧ (t.getPort p).pulse = none ∧ (t.getPort p).lines = (s.getPort p).lines ∧
      s.regsBut t [Reg.CRV_P_CNT_SKIP p, Reg.NV_HREG_CMD p, Reg.ROSE_CNT_SAT p] ∧
      ((s.crvState p ≠ 0 ∨ x.ctx = 0) → (t.getPort p).sense = (s.getPort p).sense ∧
        t = { s with ports := t.ports, out := t.out, regs := t.regs })) ∧
  (∀ (p : Fin 16) (s : State), s.calm → ((s.getPort p).pulse = none ∨ s.mirrorNow p < (s.getPort p).pulseEnd) →
    exec (.pulseEnd p) s = .next s)

/-- The strobe watchdog and the gates (R270 to R276, R278, R289, R310, R479). An echo that fits an expected strobe records its delay or
offset, an ECHO block of an expected strobe beyond WD_TOL waits for its miss, one that fits none is SPURIOUS; each missed window counts,
and the miss that makes CONSEC reach MISS_LIM is reported; ECHO stuck high begins a level report. A port that is absent, off, not watched
or sends echoes of the other kind judges none. A gate with an action and an active level becomes active with its status bit, HEAD_OPEN
ends the pulse; a latched one is released by a write once its input is inactive; a write of its settings judges it afresh, and a hold
under way that is long enough for the new filter takes effect. -/
def Obligations.WatchdogAndGates : Prop :=
  (∀ (p : Fin 16) (b : BitVec 64) (x : Expect) (s : State), s.calm → s.wdOn p = true → s.portPresent p = true →
    s.domOn (.hpg (portGroup p)) = true → s.echoBlocks p = false →
    (s.getPort p).expects.find? (fun x => decide ((s.rd (Fld.PORT_WD_CFG_WD_MIN p) * 160 : Int) ≤ (b.toNat * 10 : Int) - x.at_) &&
      decide ((b.toNat * 10 : Int) - x.at_ ≤ (s.rd (Fld.PORT_WD_CFG_WD_MAX p) * 160 : Int))) = some x →
    ∃ t, exec (.echo p (.edge b)) s = .next t ∧ t.rd (Fld.PORT_WD_STAT_LAST p) = patternOf 16 (roundDiv ((b.toNat * 10 : Int) - x.at_) 10) ∧
      t.rd (Fld.PORT_WD_STAT_CONSEC p) = 0 ∧ (t.getPort p).expects = (s.getPort p).expects.filter (fun y => decide (y ≠ x)) ∧
      s.regsBut t [Reg.PORT_WD_STAT p] ∧ t = { s with regs := t.regs, ports := t.ports }) ∧
  (∀ (p : Fin 16) (b : BitVec 64) (s : State), s.calm → s.wdOn p = true → s.portPresent p = true →
    s.domOn (.hpg (portGroup p)) = true → s.echoBlocks p = false →
    (s.getPort p).expects.all (fun x => decide ((b.toNat * 10 : Int) - x.at_ < (s.rd (Fld.PORT_WD_CFG_WD_MIN p) * 160 : Int)) ||
      decide ((s.rd (Fld.PORT_WD_CFG_WD_MAX p) * 160 : Int) < (b.toNat * 10 : Int) - x.at_)) = true →
    ∃ t, exec (.echo p (.edge b)) s = .next t ∧
      t.rd (Fld.PORT_WD_CNT_SPUR p) = min (s.rd (Fld.PORT_WD_CNT_SPUR p) + 1) (2 ^ 16 - 1) ∧
      t.rakeQ.map (fun r => r.src) = s.rakeQ.map (fun r => r.src) ++ [0x040 + p.val] ∧ (t.getPort p).expects = (s.getPort p).expects ∧
      (s.scopeState (0x100 + p) ≠ 0 → s.regsBut t ((Reg.PORT_WD_CNT p) :: noticeWords))) ∧
  (∀ (p : Fin 16) (tag : Byte) (off : BitVec 8) (x : Expect) (s : State), s.calm → s.wdOn p = true → s.portPresent p = true →
    s.domOn (.hpg (portGroup p)) = true → s.echoBlocks p = true → (s.getPort p).expects.find? (fun x => x.tag == tag.toNat) = some x →
    off.toInt.natAbs ≤ s.rd (Fld.PORT_WD_CFG_WD_TOL p) →
    ∃ t, exec (.echo p (.block tag off.toInt)) s = .next t ∧ t.rd (Fld.PORT_WD_STAT_LAST p) = patternOf 16 off.toInt ∧
      t.rd (Fld.PORT_WD_STAT_CONSEC p) = 0 ∧ (t.getPort p).expects = (s.getPort p).expects.filter (fun y => decide (y ≠ x)) ∧
      s.regsBut t [Reg.PORT_WD_STAT p] ∧ t = { s with regs := t.regs, ports := t.ports }) ∧
  (∀ (p : Fin 16) (tag : Byte) (off : BitVec 8) (x : Expect) (s : State), s.calm → s.wdOn p = true → s.portPresent p = true →
    s.domOn (.hpg (portGroup p)) = true → s.echoBlocks p = true → (s.getPort p).expects.find? (fun x => x.tag == tag.toNat) = some x →
    s.rd (Fld.PORT_WD_CFG_WD_TOL p) < off.toInt.natAbs → exec (.echo p (.block tag off.toInt)) s = .next s) ∧
  (∀ (p : Fin 16) (tag : Byte) (off : BitVec 8) (s : State), s.calm → s.wdOn p = true → s.portPresent p = true →
    s.domOn (.hpg (portGroup p)) = true → s.echoBlocks p = true → (s.getPort p).expects.find? (fun x => x.tag == tag.toNat) = none →
    ∃ t, exec (.echo p (.block tag off.toInt)) s = .next t ∧
      t.rd (Fld.PORT_WD_CNT_SPUR p) = min (s.rd (Fld.PORT_WD_CNT_SPUR p) + 1) (2 ^ 16 - 1) ∧
      t.rakeQ.map (fun r => r.src) = s.rakeQ.map (fun r => r.src) ++ [0x040 + p.val] ∧
      (s.scopeState (0x100 + p) ≠ 0 → s.regsBut t ((Reg.PORT_WD_CNT p) :: noticeWords))) ∧
  (∀ (p : Fin 16) (e : Echo) (s : State), s.calm → (s.wdOn p = false ∨ s.portPresent p = false ∨
      s.domOn (.hpg (portGroup p)) = false ∨ s.echoFits p e = false) → exec (.echo p e) s = .next s) ∧
  (∀ (p : Fin 16) (x : Expect) (rest : List Expect) (s : State), s.calm → s.wdOn p = true → (s.getPort p).expects = x :: rest →
    ∃ t, exec (.watchdogMiss p) s = .next t ∧ (t.getPort p).expects = rest ∧
      t.rd (Fld.PORT_WD_STAT_CONSEC p) = min (s.rd (Fld.PORT_WD_STAT_CONSEC p) + 1) (2 ^ 8 - 1) ∧
      t.rd (Fld.PORT_WD_CNT_MISS p) = min (s.rd (Fld.PORT_WD_CNT_MISS p) + 1) (2 ^ 16 - 1) ∧
      t.rakeQ.map (fun r => r.src) = s.rakeQ.map (fun r => r.src) ++
        (if t.rd (Fld.PORT_WD_STAT_CONSEC p) = s.rd (Fld.PORT_WD_CFG_MISS_LIM p) then [0x040 + p.val] else [])) ∧
  (∀ (p : Fin 16) (x : Expect) (rest : List Expect) (s : State), s.calm → s.wdOn p = false → (s.getPort p).expects = x :: rest →
    ∃ t, exec (.watchdogMiss p) s = .next t ∧ (t.getPort p).expects = rest ∧ t = { s with ports := t.ports }) ∧
  (∀ (p : Fin 16) (s : State), s.calm → (s.getPort p).expects = [] → exec (.watchdogMiss p) s = .next s) ∧
  (∀ (p : Fin 16) (s : State), s.calm → s.wdOn p = true → s.portPresent p = true → s.domOn (.hpg (portGroup p)) = true →
    s.echoBlocks p = false →
    ∃ t r, exec (.echoStuck p) s = .next t ∧ t.rakeQ = s.rakeQ ++ [r] ∧ r.src = 0x040 + p.val ∧ r.level = true ∧
      (s.scopeState (0x100 + p) ≠ 0 → s.regsBut t noticeWords)) ∧
  (∀ (p : Fin 16) (s : State), s.calm → (s.wdOn p = false ∨ s.portPresent p = false ∨ s.domOn (.hpg (portGroup p)) = false ∨
      s.echoBlocks p = true) → exec (.echoStuck p) s = .next s) ∧
  (∀ (p : Fin 16) (g : Fin 48) (level : Bool) (s : State), s.calm → s.numbered → s.portPresent p = true →
    s.domOn (.hpg (portGroup p)) = true → (s.getGate p g).active = false →
    ∃ t, exec (.gateTransition p g level) s = .next t ∧ (t.getGate p g).level = level ∧
      (s.rd (Fld.PORT_GATE_ACT p g) ≠ 0 ∧ level ≠ s.on (Fld.PORT_GATE_POL p g) → (t.getGate p g).active = true ∧ t.on (gstatFld p g) = true ∧
        t.gated p = true ∧ (s.rd (Fld.PORT_GATE_ACT p g) = 1 ∧ s.headOpen p = false → (t.getPort p).pulse = none)) ∧
      ((s.rd (Fld.PORT_GATE_ACT p g) = 0 ∨ level = s.on (Fld.PORT_GATE_POL p g)) → (t.getGate p g).active = false ∧ t = { s with ports := t.ports })) ∧
  (∀ (p : Fin 16) (g : Fin 48) (level : Bool) (s : State), s.calm → s.numbered → s.portPresent p = true →
    s.domOn (.hpg (portGroup p)) = true → (s.getGate p g).active = true → s.rd (Fld.PORT_GATE_ACT p g) ≠ 0 →
    ∃ t, exec (.gateTransition p g level) s = .next t ∧ (t.getGate p g).level = level ∧
      ((t.getGate p g).active = true ↔ (level ≠ s.on (Fld.PORT_GATE_POL p g) ∨ s.on (Fld.PORT_GATE_LATCH p g) = true)) ∧
      ((t.getGate p g).active = false → t.on (gstatFld p g) = false) ∧ ((t.getGate p g).active = true → t = { s with ports := t.ports })) ∧
  (∀ (p : Fin 16) (g : Fin 48) (level : Bool) (s : State), s.calm → (s.portPresent p = false ∨ s.domOn (.hpg (portGroup p)) = false) →
    exec (.gateTransition p g level) s = .next s) ∧
  (∀ (m : Master) (p : Fin 16) (hi : Bool) (g : Fin 48) (v : Word) (s : State), s.calm → s.numbered →
    s.reaches (if hi then Reg.PORT_GSTAT_HI p else Reg.PORT_GSTAT_LO p) → hi = decide (32 ≤ g.val) →
    ∃ t, exec (.gateRelease m p hi v) s = .next t ∧
      (bitOf v (g % 32) = true ∧ (s.getGate p g).active = true ∧ (s.getGate p g).level = s.on (Fld.PORT_GATE_POL p g) →
        (t.getGate p g).active = false ∧ t.on (gstatFld p g) = false) ∧
      ((bitOf v (g % 32) = false ∨ (s.getGate p g).active = false ∨ (s.getGate p g).level ≠ s.on (Fld.PORT_GATE_POL p g)) →
        t.getGate p g = s.getGate p g ∧ t.on (gstatFld p g) = s.on (gstatFld p g))) ∧
  (∀ (m : Master) (p : Fin 16) (g : Fin 48) (v : Word) (held : Option Nat) (s u : State), s.calm → s.numbered →
    s.reaches (Reg.PORT_GATE p g) → u = s.setReg (Reg.PORT_GATE p g) ((s.getReg (Reg.PORT_GATE p g) &&& 0x0FFF0000) ||| (v &&& 0xF000FFFF)) →
    ∃ t, exec (.portGateWrite m p g v held) s = .next t ∧ t.getReg (Reg.PORT_GATE p g) = u.getReg (Reg.PORT_GATE p g) ∧
      (t.getGate p g).level = (if held.any (fun h => decide (u.gateFilter p g ≤ h)) then !(s.getGate p g).level else (s.getGate p g).level) ∧
      ((t.getGate p g).active = true ↔ (bitsOf v 31 30 ≠ 0 ∧
        ((t.getGate p g).level ≠ bitOf v 28 ∨ (bitOf v 29 = true ∧ (s.getGate p g).active = true)))))

/-- Training of a Névé link (R139, R254, R255, R261 to R265, R288). The eighth equal HELLO fixes version and rate, or training fails into
LINK_FAIL; after the eighth SELECT block 64 more go out and the 16 MEASURE blocks; the sixteenth return gives LINK_LAT and the range
check; the eighth closing block makes the link LINKED; a timeout fails its stage; training begins again when it is due or a master asks;
invalid sync headers are counted, sixteen in a window lose block lock and take down a LINKED link (the windows are those of Clause 49,
log entry 114). -/
def Obligations.NeveTraining : Prop :=
  (∀ (p : Fin 16) (b : List Byte) (rtt : Nat) (b7 : List Nat) (v m : Nat) (s : State), s.calm → s.nvStage p = 1 →
    b7 = (List.range 7).map (fun i => (b.getD i 0).toNat) → b7.getD 0 0 = 0 → (s.getPort p).neve.last = b7 → (s.getPort p).neve.same = 7 →
    v = min (s.nvVmax p) (b7.getD 1 0) →
    m = b7.getD 3 0 &&& s.rd (Fld.NV_CFG_RATES p) &&& (if v = 1 then 3 else 7) &&& (7 - (s.getPort p).neve.excl % 8) →
    ∃ u, exec (.train p b rtt) s = .next (State.watch s u) ∧ u.rd (Fld.NV_LAT_HEAD_LAT p) = b7.getD 4 0 + 256 * b7.getD 5 0 ∧
      (v < max 1 (b7.getD 2 0) ∨ m = 0 → u.nvStage p = 0 ∧ u.rd (Fld.NV_STAT_FAIL p) = (if v < max 1 (b7.getD 2 0) then 2 else 3) ∧
        (u.getPort p).neve.failed = true ∧ (u.getPort p).neve.retry = .series) ∧
      (max 1 (b7.getD 2 0) ≤ v ∧ m ≠ 0 → u.nvStage p = 2 ∧ u.rd (Fld.NV_STAT_VER p) = v ∧
        u.rd (Fld.NV_STAT_RATE p) = (if 4 ≤ m then 3 else if 2 ≤ m then 2 else 1) ∧
        u.out = s.out ++ [.block p 0x2D [1, v, 1, (if 4 ≤ m then 4 else if 2 ≤ m then 2 else 1), 0, 0, 0]])) ∧
  (∀ (p : Fin 16) (b : List Byte) (rtt v r : Nat) (s : State), s.calm → s.nvStage p = 2 → b.getD 0 0 = 1 → v = s.rd (Fld.NV_STAT_VER p) →
    r = 2 ^ (s.rd (Fld.NV_STAT_RATE p) - 1) → (b.getD 1 0).toNat = v → (b.getD 3 0).toNat = r → (s.getPort p).neve.last = [1] →
    (s.getPort p).neve.same = 7 →
    ∃ u, exec (.train p b rtt) s = .next (State.watch s u) ∧ u.nvStage p = 3 ∧ (u.getPort p).neve.selFails = 0 ∧
      (u.getPort p).neve.trips = [] ∧ (u.clockRate p ≠ s.clockRate p → (u.getMirror p).cal = false) ∧
      u.out = s.out ++ List.replicate 64 (.block p 0x2D [1, v, 1, r, 0, 0, 0]) ++
        (List.range 16).map (fun i => .block p 0x2D [2, s.nvVmax p, 1, 7, 0, 0, i])) ∧
  (∀ (p : Fin 16) (b : List Byte) (rtt turn lat : Nat) (trips : Store (Option (Nat × Nat))) (s : State), s.calm → s.nvStage p = 3 →
    b.getD 0 0 = 2 → (b.getD 6 0).toNat < 16 → turn = (b.getD 4 0).toNat + 256 * (b.getD 5 0).toNat →
    trips = Store.put (fun _ => none) (s.getPort p).neve.trips (b.getD 6 0).toNat (some (rtt, turn)) → trips.length = 16 →
    lat = (roundDiv ((twiceMedian (trips.filterMap (fun e => e.2.map (fun x => x.1))) : Nat) - 2 * (turn : Int)) 4).toNat →
    ∃ u, exec (.train p b rtt) s = .next (State.watch s u) ∧ u.rd (Fld.NV_LAT_LINK_LAT p) = lat % 2 ^ 16 ∧
      (s.clat p * 250 + 100000 < (lat + s.rd (Fld.NV_LAT_HEAD_LAT p)) * 250 + 2 * blockPs (s.rd (Fld.NV_STAT_RATE p)) →
        u.nvStage p = 0 ∧ u.rd (Fld.NV_STAT_FAIL p) = 4 ∧ (u.getPort p).neve.retry = .again ∧
        (u.getPort p).neve.excl = (s.getPort p).neve.excl ||| 2 ^ (s.rd (Fld.NV_STAT_RATE p) - 1)) ∧
      ((lat + s.rd (Fld.NV_LAT_HEAD_LAT p)) * 250 + 2 * blockPs (s.rd (Fld.NV_STAT_RATE p)) ≤ s.clat p * 250 + 100000 →
        u.nvStage p = 4 ∧ u.out = s.out ++ [.block p 0x2D [3, s.nvVmax p, 1, 7, 0, 0, 0]])) ∧
  (∀ (p : Fin 16) (b : List Byte) (rtt : Nat) (s : State), s.calm → s.nvStage p = 4 → b.getD 0 0 = 3 → (s.getPort p).neve.last = [3] →
    (s.getPort p).neve.same = 7 →
    ∃ u, exec (.train p b rtt) s = .next (State.watch s u) ∧ u.linked p = true ∧ u.rd (Fld.NV_STAT_FAIL p) = 0) ∧
  (∀ (p : Fin 16) (b : List Byte) (rtt : Nat) (s : State), s.calm → (s.nvStage p = 0 ∨ 5 ≤ s.nvStage p) →
    exec (.train p b rtt) s = .next (State.watch s s)) ∧
  (∀ (p : Fin 16) (b : List Byte) (rtt : Nat) (s : State), s.calm → 1 ≤ s.nvStage p → s.nvStage p ≤ 4 →
    (b.getD 0 0).toNat + 1 ≠ s.nvStage p →
    ∃ u, exec (.train p b rtt) s = .next (State.watch s u) ∧ u.on (Fld.NV_STAT_LOCK p) = true ∧ u.nvStage p = s.nvStage p ∧
      (u.getPort p).neve.same = 0 ∧ s.regsBut u [Reg.NV_STAT p] ∧ u.out = s.out) ∧
  (∀ (p : Fin 16) (s : State), s.calm → s.nvStage p = 1 →
    ∃ u, exec (.trainingTimeout p) s = .next (State.watch s u) ∧ u.nvStage p = 0 ∧
      u.rd (Fld.NV_STAT_FAIL p) = (if s.on (Fld.NV_STAT_LOCK p) then 5 else 1) ∧ (u.getPort p).neve.failed = true ∧
      (u.getPort p).neve.retry = .series) ∧
  (∀ (p : Fin 16) (s : State), s.calm → s.nvStage p = 2 →
    ∃ u, exec (.trainingTimeout p) s = .next (State.watch s u) ∧ u.nvStage p = 0 ∧ u.rd (Fld.NV_STAT_FAIL p) = 5 ∧
      (u.getPort p).neve.selFails = (s.getPort p).neve.selFails + 1 ∧
      (2 ≤ (s.getPort p).neve.selFails → (u.getPort p).neve.failed = true ∧ (u.getPort p).neve.retry = .series) ∧
      ((s.getPort p).neve.selFails < 2 → (u.getPort p).neve.retry = .again ∧ (u.getPort p).neve.excl = (s.getPort p).neve.excl)) ∧
  (∀ (p : Fin 16) (s : State), s.calm → s.nvStage p = 3 ∨ s.nvStage p = 4 →
    ∃ u, exec (.trainingTimeout p) s = .next (State.watch s u) ∧ u.nvStage p = 0 ∧ u.rd (Fld.NV_STAT_FAIL p) = 5 ∧
      (u.getPort p).neve.retry = .again ∧ (u.getPort p).neve.excl = (s.getPort p).neve.excl ||| 2 ^ (s.rd (Fld.NV_STAT_RATE p) - 1)) ∧
  (∀ (p : Fin 16) (s : State), s.calm → (s.nvStage p = 0 ∨ 5 ≤ s.nvStage p) → exec (.trainingTimeout p) s = .next (State.watch s s)) ∧
  (∀ (p : Fin 16) (s : State), s.calm → s.portMode p = 2 → s.on (Fld.PORT_CFG_EN p) = true → (s.getPort p).neve.seqOk = true →
    ((s.getPort p).neve.retry = .again ∨ ((s.getPort p).neve.retry = .series ∧ s.on (Fld.NV_CFG_AUTO_RETRAIN p) = true)) →
    ∃ u, exec (.trainingRetry p) s = .next (State.watch s u) ∧ u.nvStage p = 1 ∧ (u.getPort p).neve.retry = .none ∧
      (u.getPort p).neve.excl = (if (s.getPort p).neve.retry = .series then 0 else (s.getPort p).neve.excl) ∧
      u.out = s.out ++ [.block p 0x2D [0, s.nvVmax p, 1, 7, 0, 0, 0]]) ∧
  (∀ (p : Fin 16) (s : State), s.calm → ((s.getPort p).neve.retry = .none ∨
      ((s.getPort p).neve.retry = .series ∧ s.on (Fld.NV_CFG_AUTO_RETRAIN p) = false)) →
    exec (.trainingRetry p) s = .next (State.watch s s)) ∧
  (∀ (m : Master) (p : Fin 16) (v : Word) (s : State), s.calm → s.reaches (Reg.NV_CFG p) →
    ∃ u, exec (.retrain m p v) s = .next (State.watch s u) ∧
      u.rd (Fld.NV_CFG_CLAT p) = (if s.on (Fld.PORT_CFG_EN p) then s.rd (Fld.NV_CFG_CLAT p) else bitsOf v 15 0) ∧
      u.rd (Fld.NV_CFG_RATES p) = bitsOf v 26 24 ∧ u.rd (Fld.NV_CFG_VMAX p) = bitsOf v 17 16 ∧
      u.on (Fld.NV_CFG_AUTO_RETRAIN p) = bitOf v 31 ∧
      (s.portMode p = 2 ∧ s.on (Fld.PORT_CFG_EN p) = true ∧ (s.getPort p).neve.seqOk = true → u.nvStage p = 1 ∧
        (u.getPort p).neve.excl = 0 ∧ u.out = s.out ++ [.block p 0x2D [0, u.nvVmax p, 1, 7, 0, 0, 0]])) ∧
  (∀ (p : Fin 16) (hdrs : List (BitVec 2)) (s : State), s.calm → s.portMode p = 2 → (s.getPort p).neve.seqOk = true →
    s.on (Fld.PORT_CFG_EN p) = true → 16 ≤ badHeaders hdrs → s.nvStage p = 5 →
    ∃ u, exec (.neveDown (p, hdrs)) s = .next (State.watch s u) ∧ u.nvStage p = 0 ∧ u.rd (Fld.NV_STAT_FAIL p) = 6 ∧
      u.rd (Fld.NV_CNT2_DOWN p) = min (s.rd (Fld.NV_CNT2_DOWN p) + 1) (2 ^ 16 - 1) ∧
      u.rd (Fld.NV_CNT_SH_ERR p) = min (s.rd (Fld.NV_CNT_SH_ERR p) + badHeaders hdrs) (2 ^ 16 - 1) ∧
      u.rakeQ.map (fun r => r.src) = s.rakeQ.map (fun r => r.src) ++ [0x060 + p.val] ∧
      (u.getPort p).neve.retry = (if s.on (Fld.NV_CFG_AUTO_RETRAIN p) then .again else .none)) ∧
  (∀ (p : Fin 16) (hdrs : List (BitVec 2)) (s : State), s.calm → s.portMode p = 2 → (s.getPort p).neve.seqOk = true →
    s.on (Fld.PORT_CFG_EN p) = true → (badHeaders hdrs < 16 ∨ s.nvStage p ≠ 5) →
    ∃ t, exec (.neveDown (p, hdrs)) s = .next t ∧
      t.rd (Fld.NV_CNT_SH_ERR p) = min (s.rd (Fld.NV_CNT_SH_ERR p) + badHeaders hdrs) (2 ^ 16 - 1) ∧
      t.on (Fld.NV_STAT_LOCK p) = (decide (badHeaders hdrs < 16) && s.on (Fld.NV_STAT_LOCK p)) ∧
      s.regsBut t [Reg.NV_CNT p, Reg.NV_STAT p] ∧ s.onlyRegs t) ∧
  (∀ (p : Fin 16) (hdrs : List (BitVec 2)) (s : State), s.calm → (s.portMode p ≠ 2 ∨ (s.getPort p).neve.seqOk = false ∨
      s.on (Fld.PORT_CFG_EN p) = false) → exec (.neveDown (p, hdrs)) s = .next s)

/-- Traffic of a linked head (R256, R262, R266 to R268, R288, R294). A LINE_ERR is reported and counted, and the product whose line was
sent with its tag ends ABORTED_FAULT; telemetry is stored fresh, items 4 to 7 in version 2; an unknown block is counted; a head register
access goes out as a block when none is outstanding, and ends with its answer, a head error or its timeout; a failed head load begins
again. Where the link is not LINKED none of this happens. -/
def Obligations.NeveTraffic : Prop :=
  (∀ (p : Fin 16) (tag reason : Byte) (s : State), s.calm → s.portMode p = 2 → s.linked p = true →
    ∃ t, exec (.lineErr p tag reason) s = .next t ∧ t.rd (Fld.NV_CNT_LINE_ERR p) = min (s.rd (Fld.NV_CNT_LINE_ERR p) + 1) (2 ^ 16 - 1) ∧
      t.rakeQ.map (fun r => (r.src, r.synd)) = s.rakeQ.map (fun r => (r.src, r.synd)) ++
        [(0x070 + p.val, BitVec.ofNat 32 (tag.toNat + 256 * reason.toNat))] ∧
      (s.tagOwner p tag.toNat = none → s.regsBut t [Reg.NV_CNT p])) ∧
  (∀ (p : Fin 16) (tag reason : Byte) (c id : Nat) (x y : Product) (t s : State), s.calm → s.portMode p = 2 → s.linked p = true →
    c < 256 → s.tagOwner p tag.toNat = some (c, id) → s.findProd c id = some x → x.status = none → x.ended = false →
    exec (.lineErr p tag reason) s = .next t → t.findProd c id = some y → y.status = some Status.abortedFault) ∧
  (∀ (p : Fin 16) (item : Fin 8) (v : BitVec 16) (s : State), s.calm → s.portMode p = 2 → s.linked p = true →
    (item.val < 4 ∨ s.rd (Fld.NV_STAT_VER p) = 2) →
    ∃ t, exec (.telem p item v) s = .next t ∧ t.rd (Fld.NV_TEL_VALUE p item) = v.toNat ∧ t.on (Fld.NV_TEL_FRESH p item) = true ∧
      s.regsBut t [Reg.NV_TEL p item] ∧ s.onlyRegs t) ∧
  (∀ (p : Fin 16) (s : State), s.calm → s.portMode p = 2 → s.domOn (.hpg (portGroup p)) = true →
    ∃ t, exec (.unknownBlock p) s = .next t ∧ t.rd (Fld.NV_CNT2_UNKNOWN p) = min (s.rd (Fld.NV_CNT2_UNKNOWN p) + 1) (2 ^ 16 - 1) ∧
      s.regsBut t [Reg.NV_CNT2 p] ∧ s.onlyRegs t) ∧
  (∀ (p : Fin 16) (tag reason : Byte) (item : Fin 8) (v : BitVec 16) (s : State), s.calm → (s.portMode p ≠ 2 ∨ s.linked p = false) →
    exec (.lineErr p tag reason) s = .next s ∧ exec (.telem p item v) s = .next s ∧ exec (.headLoadRetry p) s = .next s ∧
    (s.portMode p ≠ 2 → exec (.unknownBlock p) s = .next s)) ∧
  (∀ (p : Fin 16) (item : Fin 8) (v : BitVec 16) (s : State), s.calm → 4 ≤ item.val → s.rd (Fld.NV_STAT_VER p) ≠ 2 →
    exec (.telem p item v) s = .next s) ∧
  (∀ (m : Master) (p : Fin 16) (v : Word) (s : State), s.calm → s.reaches (Reg.NV_HREG_CMD p) → s.portMode p = 2 → s.linked p = true →
    s.on (Fld.NV_HREG_CMD_BUSY p) = false → (s.getPort p).neve.hreg = [] →
    ∃ t, exec (.hregGo m p v) s = .next t ∧ t.on (Fld.NV_HREG_CMD_BUSY p) = true ∧ t.rd (Fld.NV_HREG_CMD_ADDR p) = bitsOf v 15 0 ∧
      t.on (Fld.NV_HREG_CMD_WRITE p) = bitOf v 16 ∧
      (t.getPort p).neve.hreg = [⟨.master, bitOf v 16, bitsOf v 15 0, (s.getReg (Reg.NV_HREG_DATA p)).toNat⟩] ∧
      t.out = s.out ++ [.block p 0x99 ((if bitOf v 16 then 1 else 2) :: leBytes 2 (bitsOf v 15 0) ++ leBytes 4 (s.getReg (Reg.NV_HREG_DATA p)).toNat)] ∧
      s.regsBut t [Reg.NV_HREG_CMD p]) ∧
  (∀ (m : Master) (p : Fin 16) (v : Word) (s : State), s.calm → s.reaches (Reg.NV_HREG_CMD p) →
    (s.portMode p ≠ 2 ∨ s.linked p = false ∨ s.on (Fld.NV_HREG_CMD_BUSY p) = true) →
    ∃ t, exec (.hregGo m p v) s = .next t ∧ t.rd (Fld.NV_HREG_CMD_ADDR p) = bitsOf v 15 0 ∧ t.on (Fld.NV_HREG_CMD_WRITE p) = bitOf v 16 ∧
      t.on (Fld.NV_HREG_CMD_BUSY p) = s.on (Fld.NV_HREG_CMD_BUSY p) ∧ s.regsBut t [Reg.NV_HREG_CMD p] ∧ s.onlyRegs t) ∧
  (∀ (p : Fin 16) (o : HregOp) (data : Word) (s : State), s.calm → s.portMode p = 2 → s.linked p = true → (s.getPort p).neve.hreg = [o] →
    o.owner = .master →
    ∃ u, exec (.hregReply p (if o.write then 0x81 else 0x82) data) s = .next (State.watch s u) ∧ u.on (Fld.NV_HREG_CMD_BUSY p) = false ∧
      u.rd (Fld.NV_HREG_CMD_RESULT p) = 0 ∧ u.getReg (Reg.NV_HREG_DATA p) = (if o.write then s.getReg (Reg.NV_HREG_DATA p) else data) ∧
      s.regsBut u [Reg.NV_HREG_CMD p, Reg.NV_HREG_DATA p]) ∧
  (∀ (p : Fin 16) (o : HregOp) (data : Word) (s : State), s.calm → s.portMode p = 2 → s.linked p = true → (s.getPort p).neve.hreg = [o] →
    o.owner = .master →
    ∃ u, exec (.hregReply p 0xFF data) s = .next (State.watch s u) ∧ u.on (Fld.NV_HREG_CMD_BUSY p) = false ∧
      u.rd (Fld.NV_HREG_CMD_RESULT p) = 2 ∧ s.regsBut u [Reg.NV_HREG_CMD p]) ∧
  (∀ (p : Fin 16) (o : HregOp) (rest : List HregOp) (s : State), s.calm → s.portMode p = 2 → s.linked p = true →
    (s.getPort p).neve.hreg = o :: rest → o.owner = .rose →
    ∃ u, exec (.hregReply p 0xFF 0) s = .next (State.watch s u) ∧ u.rd (Fld.ROSE_STAT_ERR p) = 10 ∧ u.on (Fld.ROSE_STAT_VALID p) = false ∧
      (u.getPort p).neve.reload = true ∧ (u.getPort p).loadErr = true ∧ (∀ y ∈ (u.getPort p).neve.hreg, y.owner ≠ .rose)) ∧
  (∀ (p : Fin 16) (code : Byte) (data : Word) (s : State), s.calm → ((s.getPort p).neve.hreg = [] ∨ s.portMode p ≠ 2 ∨ s.linked p = false ∨
      (code ≠ 0x81 ∧ code ≠ 0x82 ∧ code ≠ 0xFF)) → exec (.hregReply p code data) s = .next s) ∧
  (∀ (p : Fin 16) (o : HregOp) (s : State), s.calm → (s.getPort p).neve.hreg = [o] → o.owner = .master →
    ∃ u, exec (.hregTimeout p) s = .next (State.watch s u) ∧ u.on (Fld.NV_HREG_CMD_BUSY p) = false ∧
      u.rd (Fld.NV_HREG_CMD_RESULT p) = 1 ∧ s.regsBut u [Reg.NV_HREG_CMD p]) ∧
  (∀ (p : Fin 16) (s : State), s.calm → (s.getPort p).neve.hreg = [] → exec (.hregTimeout p) s = .next s) ∧
  (∀ (p : Fin 16) (s : State), s.calm → (s.getPort p).neve.reload = true → s.portMode p = 2 → s.linked p = true →
    ∃ t, exec (.headLoadRetry p) s = .next t ∧ (t.getPort p).neve.reload = false ∧ ⟨.rose, true, 0x1FF, 1⟩ ∈ (t.getPort p).neve.hreg) ∧
  (∀ (p : Fin 16) (s : State), s.calm → (s.getPort p).neve.reload = false → exec (.headLoadRetry p) s = .next s)

/-- Rose's loads (R7, R27, R50, R83, R313 to R316, R636). A reserved bit or a port that is absent refuses each; WAVE_LOAD refuses a
length, windows or a band that are not valid, then a failed read, then a slot in use, then a token held by another; else the slot's
samples are written as they come, LOADING set, and when they are whole its length, windows, mask and record with LOADING clear; a failed
read leaves LOADING set. THERMAL_LOAD refuses a band, a failed read and a bad bin of the table, DROOP_LOAD a failed read; each writes its
table whole. The registers of a port whose domain is off are not written, and the access is reported. The source is host memory, here, or
a device address. -/
def Obligations.RoseLoads : Prop :=
  (∀ (src : HostRead) (c : MpCmd) (s : State),
    (s.carries 0x20 c → c.desc.reservedSet (commandLayout [0x70F, 0x10FFF, 0xFFFFFFFF, 0xFFFFFFFF, 0xFFF0FFF, 0xFFF0FFF, 0xFFF0FFF, 0xFFF,
        0xFFFFFF0F, 0xFFFF, 0x1FFF1FFF]) = true ∨ s.portPresent (c.desc.fld 2 3 0) = false →
      ∃ u, exec (.waveLoad src) s = .next (State.watch s u) ∧ u.mp.cmd = none ∧ s.answered u 0 c.desc (if c.desc.reservedSet
        (commandLayout [0x70F, 0x10FFF, 0xFFFFFFFF, 0xFFFFFFFF, 0xFFF0FFF, 0xFFF0FFF, 0xFFF0FFF, 0xFFF, 0xFFFFFF0F, 0xFFFF, 0x1FFF1FFF])
        then 0x10 else 0x11) 0) ∧
    (s.carries 0x21 c → c.desc.reservedSet (commandLayout [0xF, 0x10000, 0xFFFFFFFF, 0xFFFFFFFF, 0xFFFF, 0x1FFF1FFF]) = true ∨
        s.portPresent (c.desc.fld 2 3 0) = false →
      ∃ u, exec (.thermalLoad src) s = .next (State.watch s u) ∧ u.mp.cmd = none ∧ s.answered u 0 c.desc
        (if c.desc.reservedSet (commandLayout [0xF, 0x10000, 0xFFFFFFFF, 0xFFFFFFFF, 0xFFFF, 0x1FFF1FFF]) then 0x10 else 0x11) 0) ∧
    (s.carries 0x22 c → c.desc.reservedSet (commandLayout [0xF, 0x10000, 0xFFFFFFFF, 0xFFFFFFFF]) = true ∨
        s.portPresent (c.desc.fld 2 3 0) = false →
      ∃ t, exec (.droopLoad src) s = .next t ∧ t.mp.cmd = none ∧ s.answered t 0 c.desc
        (if c.desc.reservedSet (commandLayout [0xF, 0x10000, 0xFFFFFFFF, 0xFFFFFFFF]) then 0x10 else 0x11) 0) ∧
    (s.calm → s.loadCommand 0x20 = none → exec (.waveLoad src) s = .next (State.watch s s)) ∧
    (s.calm → s.loadCommand 0x21 = none → exec (.thermalLoad src) s = .next (State.watch s s)) ∧
    (s.calm → s.loadCommand 0x22 = none → exec (.droopLoad src) s = .next s)) ∧
  (∀ (a n : Nat) (pre : List Nat) (src : HostRead) (s : State),
    (s.hostBus = false → s.feed false a n pre src = (⟨pre, .failed⟩, s)) ∧
    (s.hostBus = true → s.feed false a n pre src = (⟨(pre ++ src.bytes.map (fun b => b.toNat)).take n,
      if src.failed then .failed else if n ≤ pre.length + src.bytes.length then .whole else .more⟩, s))) ∧
  (∀ (src : HostRead) (c : MpCmd) (len : Nat) (s : State), s.carries 0x20 c →
    c.desc.reservedSet (commandLayout [0x70F, 0x10FFF, 0xFFFFFFFF, 0xFFFFFFFF, 0xFFF0FFF, 0xFFF0FFF, 0xFFF0FFF, 0xFFF, 0xFFFFFF0F, 0xFFFF,
      0x1FFF1FFF]) = false → s.portPresent (c.desc.fld 2 3 0) = true → len = c.desc.fld 3 11 0 →
    len = 0 ∨ 2048 < len ∨ windowsOk (c.desc.fld 10 3 0) len (waveEnds c.desc) = false ∨
      recordOk (c.desc.fld 12 12 0) (c.desc.fld 12 28 16) = false →
    ∃ u, exec (.waveLoad src) s = .next (State.watch s u) ∧ u.mp.cmd = none ∧ s.answered u 0 c.desc 0x10
      (if len = 0 ∨ 2048 < len then 1 else if windowsOk (c.desc.fld 10 3 0) len (waveEnds c.desc) = false then 2 else 3)) ∧
  (∀ (src : HostRead) (c : MpCmd) (x : Fed) (p w len : Nat) (s v : State), s.carries 0x20 c →
    c.desc.reservedSet (commandLayout [0x70F, 0x10FFF, 0xFFFFFFFF, 0xFFFFFFFF, 0xFFF0FFF, 0xFFF0FFF, 0xFFF0FFF, 0xFFF, 0xFFFFFF0F, 0xFFFF,
      0x1FFF1FFF]) = false → s.portPresent p = true → p = c.desc.fld 2 3 0 → w = c.desc.fld 2 10 8 → len = c.desc.fld 3 11 0 →
    1 ≤ len → len ≤ 2048 → windowsOk (c.desc.fld 10 3 0) len (waveEnds c.desc) = true →
    recordOk (c.desc.fld 12 12 0) (c.desc.fld 12 28 16) = true →
    s.feed (bitOf (dwAt c.desc.dw 3) 16) (c.desc.wide 4) (2 * len) c.fed src = (x, v) → v.cqRoom → v.host.cqQueue = s.host.cqQueue →
    (x.state ≠ .failed → s.mp.cmd = none → v.slotInUse p w = true →
      ∃ u, exec (.waveLoad src) s = .next (State.watch s u) ∧ u.mp.cmd = none ∧ s.answered u 0 c.desc 0x12 0x10) ∧
    (x.state ≠ .failed → s.mp.cmd = none → v.slotInUse p w = false → v.mpMay 4 = false → v.mp.cmd = none →
      ∃ u, exec (.waveLoad src) s = .next (State.watch s u) ∧ u.mp.cmd = none ∧ s.answered u 0 c.desc 0x12 0) ∧
    (x.state = .whole → (s.mp.cmd = none → v.slotInUse p w = false) → v.mayLoad 4 = true → v.domOn (.hpg (portGroup p)) = true →
      ∃ u, exec (.waveLoad src) s = .next (State.watch s u) ∧ u.mp.cmd = none ∧ s.answered u 0 c.desc 0 0 ∧
        u.rd (Fld.ROSE_WAVE_LEN_LEN p w) = len ∧ u.rd (Fld.ROSE_WAVE_LEN_NWIN p w) = c.desc.fld 10 3 0 ∧
        u.on (Fld.ROSE_WAVE_LEN_LOADING p w) = false ∧ u.slotEnds p w = waveEnds c.desc ∧
        u.getReg (Reg.ROSE_WAVE_MASK p w) = BitVec.ofNat 32 (c.desc.fld 10 31 8) ∧
        u.calRecord p false w = (c.desc.fld 11 15 0, c.desc.fld 12 12 0, c.desc.fld 12 28 16) ∧
        (∀ k < len, sampleOf (u.getReg (Reg.WAVE_RAM p (w * 1024 + k / 2))) k =
          signedOf 16 ((x.bytes.getD (2 * k) 0 + 256 * x.bytes.getD (2 * k + 1) 0) % 2 ^ 16))) ∧
    (x.state = .more → (s.mp.cmd = none → v.slotInUse p w = false) → v.mayLoad 4 = true → v.domOn (.hpg (portGroup p)) = true →
      ∃ u, exec (.waveLoad src) s = .next (State.watch s u) ∧ u.mp.cmd.map (fun k => (k.desc, k.fed)) = some (c.desc, x.bytes) ∧
        u.on (Fld.ROSE_WAVE_LEN_LOADING p w) = true ∧ u.host.cqQueue = s.host.cqQueue ∧
        (s.mp.cmd = none → v.holder 4 = 0 → u.holder 4 = 2)) ∧
    (x.state = .failed → ∃ u, exec (.waveLoad src) s = .next (State.watch s u) ∧ u.mp.cmd = none ∧ s.answered u 0 c.desc 0x10 5 ∧
      ((s.mp.cmd.isSome ∨ (v.slotInUse p w = false ∧ v.mpMay 4 = true)) → v.domOn (.hpg (portGroup p)) = true →
        u.on (Fld.ROSE_WAVE_LEN_LOADING p w) = true)) ∧
    (x.state = .whole → (s.mp.cmd = none → v.slotInUse p w = false) → v.mayLoad 4 = true → v.domOn (.hpg (portGroup p)) = false →
      ∃ u, exec (.waveLoad src) s = .next (State.watch s u) ∧ u.mp.cmd = none ∧ s.answered u 0 c.desc 0 0 ∧
        u.rakeQ.map (fun r => r.src) = v.rakeQ.map (fun r => r.src) ++ [0x201, 0x201] ∧
        u.getReg (Reg.ROSE_WAVE_LEN p w) = v.getReg (Reg.ROSE_WAVE_LEN p w))) ∧
  (∀ (src : HostRead) (c : MpCmd) (s : State), s.carries 0x21 c →
    c.desc.reservedSet (commandLayout [0xF, 0x10000, 0xFFFFFFFF, 0xFFFFFFFF, 0xFFFF, 0x1FFF1FFF]) = false →
    s.portPresent (c.desc.fld 2 3 0) = true → recordOk (c.desc.fld 7 12 0) (c.desc.fld 7 28 16) = false →
    ∃ u, exec (.thermalLoad src) s = .next (State.watch s u) ∧ u.mp.cmd = none ∧ s.answered u 0 c.desc 0x10 3) ∧
  (∀ (src : HostRead) (c : MpCmd) (x : Fed) (p : Nat) (s v : State), s.carries 0x21 c →
    c.desc.reservedSet (commandLayout [0xF, 0x10000, 0xFFFFFFFF, 0xFFFFFFFF, 0xFFFF, 0x1FFF1FFF]) = false →
    s.portPresent p = true → p = c.desc.fld 2 3 0 → recordOk (c.desc.fld 7 12 0) (c.desc.fld 7 28 16) = true →
    s.feed (bitOf (dwAt c.desc.dw 3) 16) (c.desc.wide 4) 192 c.fed src = (x, v) → v.cqRoom → v.host.cqQueue = s.host.cqQueue →
    v.mp = s.mp →
    (x.state = .failed → ∃ u, exec (.thermalLoad src) s = .next (State.watch s u) ∧ u.mp.cmd = none ∧ s.answered u 0 c.desc 0x10 5) ∧
    (x.state = .more → ∃ u, exec (.thermalLoad src) s = .next (State.watch s u) ∧
      u.mp.cmd.map (fun k => (k.desc, k.fed)) = some (c.desc, x.bytes) ∧ u.host.cqQueue = s.host.cqQueue) ∧
    (∀ b k, x.state = .whole → firstBadBin (v.portMode p) (v.maxlenNow p) x.bytes = some (b, k) →
      ∃ u, exec (.thermalLoad src) s = .next (State.watch s u) ∧ u.mp.cmd = none ∧ s.answered u 0 c.desc 0x10 (b * 256 + k)) ∧
    (x.state = .whole → firstBadBin (v.portMode p) (v.maxlenNow p) x.bytes = none → v.mpMay 4 = false →
      ∃ u, exec (.thermalLoad src) s = .next (State.watch s u) ∧ u.mp.cmd = none ∧ s.answered u 0 c.desc 0x12 0) ∧
    (x.state = .whole → firstBadBin (v.portMode p) (v.maxlenNow p) x.bytes = none → v.mpMay 4 = true →
      v.domOn (.hpg (portGroup p)) = true →
      ∃ u, exec (.thermalLoad src) s = .next (State.watch s u) ∧ u.mp.cmd = none ∧ s.answered u 0 c.desc 0 0 ∧
        u.calRecord p true 0 = (c.desc.fld 6 15 0, c.desc.fld 7 12 0, c.desc.fld 7 28 16) ∧
        (∀ b < 16, ∀ l < 3, u.getReg (Reg.ROSE_TH p b l) = BitVec.ofNat 32 (leNat (sliceOf x.bytes (4 * (3 * b + l)) 4))))) ∧
  (∀ (src : HostRead) (c : MpCmd) (x : Fed) (p : Nat) (s v : State), s.carries 0x22 c →
    c.desc.reservedSet (commandLayout [0xF, 0x10000, 0xFFFFFFFF, 0xFFFFFFFF]) = false → s.portPresent p = true → p = c.desc.fld 2 3 0 →
    s.feed (bitOf (dwAt c.desc.dw 3) 16) (c.desc.wide 4) 66 c.fed src = (x, v) → v.cqRoom → v.host.cqQueue = s.host.cqQueue →
    v.mp = s.mp →
    (x.state = .failed → ∃ t, exec (.droopLoad src) s = .next t ∧ t.mp.cmd = none ∧ s.answered t 0 c.desc 0x10 5) ∧
    (x.state = .more → ∃ t, exec (.droopLoad src) s = .next t ∧ t.mp.cmd.map (fun k => (k.desc, k.fed)) = some (c.desc, x.bytes) ∧
      t.host.cqQueue = s.host.cqQueue) ∧
    (x.state = .whole → v.mpMay 4 = false →
      ∃ t, exec (.droopLoad src) s = .next t ∧ t.mp.cmd = none ∧ s.answered t 0 c.desc 0x12 0) ∧
    (x.state = .whole → v.mpMay 4 = true → v.domOn (.hpg (portGroup p)) = true →
      ∃ t, exec (.droopLoad src) s = .next t ∧ t.mp.cmd = none ∧ s.answered t 0 c.desc 0 0 ∧
        (∀ i < 33, t.rd (Fld.ROSE_DROOP_D p i) = leNat (sliceOf x.bytes (2 * i) 2) % 2 ^ 16)))

/-- Sense slots (R297, R305, R319 to R328, R339). When the time of its tickle has come a planned slot drives it with its mark, the index
follows and slot 7 streams; one whose buffer is not free, or whose mark the head has not taken, is not started and WAIT counts it. The
capture starts after L7 + CAP_DLY, on the next sample edge of the ADC (a free value, log entry 1), and completes 3.2 µs later with the
nozzle of the index; an idle port that is due begins a slot of its own at a time within the period (a free value, log entry 1). Results
(R331 to R333): the correlator takes the oldest capture, shows its samples and counts it. A result of no class is counted; one of another
class than the confirmed makes its nozzle the suspect and holds; the third equal result for the suspect confirms its class, and where the
map follows, its status, but never from status 3; the class confirmed before leaves everything, and clears the suspect where it is the
suspect's. With no capture nothing changes. -/
def Obligations.Sensing : Prop :=
  (∀ (p : Fin 16) (ttk : Nat) (s : State), s.calm → (s.getSense p).slot = .planned ttk → s.strobeDue p ttk = true →
    (s.getSense p).captures = [] → s.markWaits p (s.nextMark p) = false →
    ∃ t, exec (.tickle p) s = .next t ∧ (t.getSense p).slot = .tickle ttk ∧ (t.getSense p).first = false ∧
      t.rd (Fld.CRV_P_STAT_INDEX p) = s.markNozzle p (s.nextMark p) % 2 ^ 12 ∧
      (s.portMode p ≠ 2 → .tickle p (s.nextMark p) ttk (s.l7 p) ∈ t.out.drop s.out.length) ∧
      (s.portMode p = 2 → .block p 0x66 ((s.getPort p).lastTag :: leBytes 2 (s.strobeBlockDue p ttk).2) ∈ t.out.drop s.out.length) ∧
      (t.getPort p).expects = (s.getPort p).expects ++
        (if s.rd (Fld.PORT_WD_CFG_MISS_LIM p) = 0 then [] else [⟨s.strobeAt p ttk, (s.getPort p).lastTag⟩]) ∧
      s.regsBut t [Reg.CRV_P_STAT p, Reg.ROSE_CNT_SAT p]) ∧
  (∀ (p : Fin 16) (ttk : Nat) (s : State), s.calm → (s.getSense p).slot = .planned ttk → s.strobeDue p ttk = true →
    ((s.getSense p).captures ≠ [] ∨ s.markWaits p (s.nextMark p) = true) →
    ∃ t, exec (.tickle p) s = .next t ∧ (t.getSense p).slot = .none ∧
      t.rd (Fld.CRV_P_CNT_SKIP_WAIT p) = min (s.rd (Fld.CRV_P_CNT_SKIP_WAIT p) + 1) (2 ^ 16 - 1) ∧ t.out = s.out ∧
      s.regsBut t [Reg.CRV_P_CNT_SKIP p]) ∧
  (∀ (p : Fin 16) (ttk : Nat) (s : State), s.calm → (s.getSense p).slot = .planned ttk → s.strobeDue p ttk = false →
    exec (.tickle p) s = .next s) ∧
  (∀ (p : Fin 16) (ttk : Nat) (s : State), s.calm → (s.getSense p).slot = .tickle ttk → s.captureAt p ttk ≤ s.mirrorNow p →
    ∃ t, exec (.captureStart p) s = .next t ∧ t.free = s.free + 1 ∧
      (∃ q, (t.getSense p).slot = .capture ttk q ∧ s.captureAt p ttk ≤ q ∧ q ≤ s.captureAt p ttk + 50) ∧ s.regsBut t [Reg.ROSE_CNT_SAT p]) ∧
  (∀ (p : Fin 16) (ttk : Nat) (s : State), s.calm → (s.getSense p).slot = .tickle ttk → s.mirrorNow p < s.captureAt p ttk →
    exec (.captureStart p) s = .next s) ∧
  (∀ (p : Fin 16) (ttk tb : Nat) (x : List (BitVec 14)) (s : State), s.calm → (s.getSense p).slot = .capture ttk tb →
    tb + 12800 ≤ s.mirrorNow p →
    ∃ t, exec (.captureComplete p x) s = .next t ∧ (t.getSense p).slot = .none ∧
      (t.getSense p).captures = (s.getSense p).captures ++
        [⟨s.rd (Fld.CRV_P_STAT_INDEX p), tb, (List.range 256).map (fun i => (x.getD i 0).toInt)⟩] ∧
      (t.getSense p).strobed = 0 ∧ s.regsBut t [Reg.CRV_P_N p] ∧ t = { s with regs := t.regs, ports := t.ports }) ∧
  (∀ (p : Fin 16) (ttk tb : Nat) (x : List (BitVec 14)) (s : State), s.calm → (s.getSense p).slot = .capture ttk tb →
    s.mirrorNow p < tb + 12800 → exec (.captureComplete p x) s = .next s) ∧
  (∀ (p : Fin 16) (x : List (BitVec 14)) (s : State), s.calm → (s.getSense p).slot = .none →
    exec (.tickle p) s = .next s ∧ exec (.captureStart p) s = .next s ∧ exec (.captureComplete p x) s = .next s) ∧
  (∀ (p : Fin 16) (s : State), s.calm → s.on (Fld.CRV_P_CFG_IDLE_EN p) = true → s.crvState p = 0 → (s.getPort p).lines = [] →
    (s.getPort p).pulse = none → (s.getSense p).slot = .none → s.idleDue p = true →
    ((s.getSense p).captures.length < 2 → (s.portMode p = 2 → (s.getSense p).captures = []) →
      ∃ t, exec (.idleSlot p) s = .next t ∧ t.free = s.free + 1 ∧ (t.getSense p).idleAt = s.mirrorNow p ∧
        (∃ q, (t.getSense p).slot = .planned q ∧ s.mirrorNow p ≤ q ∧ q < s.mirrorNow p + s.idlePer p) ∧
        (s.portMode p ≠ 2 → t = { s with free := t.free, ports := t.ports })) ∧
    (2 ≤ (s.getSense p).captures.length → ∃ t, exec (.idleSlot p) s = .next t ∧ (t.getSense p).idleAt = s.mirrorNow p ∧
      (t.getSense p).slot = .none ∧ t.rd (Fld.CRV_P_CNT_SKIP_WAIT p) = min (s.rd (Fld.CRV_P_CNT_SKIP_WAIT p) + 1) (2 ^ 16 - 1) ∧
      s.regsBut t [Reg.CRV_P_CNT_SKIP p])) ∧
  (∀ (p : Fin 16) (s : State), s.calm → (s.on (Fld.CRV_P_CFG_IDLE_EN p) = false ∨ s.crvState p ≠ 0 ∨ (s.getPort p).lines ≠ [] ∨
      (s.getPort p).pulse ≠ none ∨ (s.getSense p).slot ≠ .none ∨ s.idleDue p = false) → exec (.idleSlot p) s = .next s) ∧
  (∀ (p : Fin 16) (k : Capture) (rest : List Capture) (c sc : Nat) (s : State), s.calm → (s.getSense p).captures = k :: rest →
    k.nozzle < 4096 → (∀ n, (s.getSense p).susp = some n → n < 4096) → s.classify p k.samples = (c, sc) →
    ∃ t, exec (.classify p) s = .next t ∧ (t.getSense p).captures = rest ∧
      t.rd Fld.CRV_CNT_CORR_COUNT = (s.rd Fld.CRV_CNT_CORR_COUNT + 1) % 2 ^ 32 ∧
      t.rd (Fld.CRV_P_CNT_SENSE_COUNT p) = (s.rd (Fld.CRV_P_CNT_SENSE_COUNT p) + 1) % 2 ^ 32 ∧
      (∀ i < 128, t.getReg (Reg.CRV_LAST (p * 128 + i)) = pairWord (k.samples.getD (2 * i) 0) (k.samples.getD (2 * i + 1) 0)) ∧
      (c = 0 → t.rd (Fld.CRV_P_CNT_MISS_UNCL p) = min (s.rd (Fld.CRV_P_CNT_MISS_UNCL p) + 1) (2 ^ 16 - 1)) ∧
      (c ≠ 0 → (s.getSense p).susp = some k.nozzle → (s.getSense p).pc = c → (s.getSense p).cnt = 2 →
        t.rd (classFld p k.nozzle) = c ∧ (t.getSense p).susp = none ∧
        (s.on Fld.CRV_CFG_MAP_EN = true → c ≠ s.rd (classFld p k.nozzle) → s.nozStatus p k.nozzle ≠ 3 → s.portPresent p = true →
          t.nozStatus p k.nozzle = classStatus c) ∧
        (s.nozStatus p k.nozzle = 3 → t.nozStatus p k.nozzle = 3)) ∧
      (c ≠ 0 → (s.getSense p).susp = some k.nozzle → (s.getSense p).pc = c → (s.getSense p).cnt < 2 →
        (s.getSense p).tries + 1 ≤ max 2 (s.rd Fld.CRV_CFG_HOLD_MAX) →
        (t.getSense p).cnt = (s.getSense p).cnt + 1 ∧ (t.getSense p).hold = true ∧
        t.rd (classFld p k.nozzle) = s.rd (classFld p k.nozzle)) ∧
      (c ≠ 0 → ((s.getSense p).susp ≠ some k.nozzle ∨ (s.getSense p).pc ≠ c) → c ≠ s.rd (classFld p k.nozzle) →
        (t.getSense p).susp = some k.nozzle ∧ (t.getSense p).pc = c ∧ (t.getSense p).cnt = 1 ∧ (t.getSense p).hold = true ∧
        t.on (suspectFld p k.nozzle) = true) ∧
      (c ≠ 0 → ((s.getSense p).susp ≠ some k.nozzle ∨ (s.getSense p).pc ≠ c) → c = s.rd (classFld p k.nozzle) →
        t.rd (classFld p k.nozzle) = c ∧ (t.getSense p).susp = (if (s.getSense p).susp = some k.nozzle then none else (s.getSense p).susp) ∧
        t.nozStatus p k.nozzle = s.nozStatus p k.nozzle)) ∧
  (∀ (p : Fin 16) (s : State), s.calm → (s.getSense p).captures = [] → exec (.classify p) s = .next s)

/-- Reference capture (R7, R50, R83, R134, R321, R322, R335, R336). CREVASSE_REF is refused in the order of R336, waits for the rest of
its list, or begins a walk that keeps the MP, under token 5, until it ends. At each step the walk drives a tickle and adds its capture,
or stops with UNIT_ABSENT, BUSY or, where the head refuses SENSE_NEXT (log entry 116), CTX_STATE; in the final pass each reference is
written after the last nozzle that its class lists, and the walk ends OK with their number. While its port is not READY or its head has
not answered it waits. The first tickle since READY is a RESET, from which the pass goes on at nozzle 0 (log entry 116). -/
def Obligations.ReferenceWalk : Prop :=
  (∀ (src : HostRead) (c : MpCmd) (p n : Nat) (s : State), s.carries 0x40 c → s.walk = none → p = c.desc.fld 2 3 0 → n = c.desc.fld 3 12 0 →
    (s.portPresent p = false →
      ∃ u, exec (.crevasseRef src) s = .next (State.watch s u) ∧ u.mp.cmd = none ∧ s.answered u 0 c.desc 0x11 0) ∧
    (s.portPresent p = true → (c.desc.reservedSet (commandLayout [0xF, 0x80FF1FFF, 0xFFFFFFFF, 0xFFFFFFFF]) = true ∨ n = 0 ∨ 4096 < n ∨
        c.desc.fld 3 23 16 = 0) →
      ∃ u, exec (.crevasseRef src) s = .next (State.watch s u) ∧ u.mp.cmd = none ∧ s.answered u 0 c.desc 0x10 1)) ∧
  (∀ (src : HostRead) (c : MpCmd) (x : Fed) (p n : Nat) (s v : State), s.carries 0x40 c → s.walk = none → p = c.desc.fld 2 3 0 →
    n = c.desc.fld 3 12 0 → s.portPresent p = true → c.desc.reservedSet (commandLayout [0xF, 0x80FF1FFF, 0xFFFFFFFF, 0xFFFFFFFF]) = false →
    1 ≤ n → n ≤ 4096 → c.desc.fld 3 23 16 ≠ 0 → s.feed (bitOf (dwAt c.desc.dw 3) 31) (c.desc.wide 4) (2 * n) c.fed src = (x, v) →
    v.cqRoom → v.host.cqQueue = s.host.cqQueue → v.mp = s.mp →
    (x.state = .failed → ∃ u, exec (.crevasseRef src) s = .next (State.watch s u) ∧ u.mp.cmd = none ∧ s.answered u 0 c.desc 0x10 5) ∧
    (x.state = .more → ∃ u, exec (.crevasseRef src) s = .next (State.watch s u) ∧
      u.mp.cmd.map (fun k => (k.desc, k.fed)) = some (c.desc, x.bytes) ∧ u.host.cqQueue = s.host.cqQueue) ∧
    (x.state = .whole → refEntries (v.rd (Fld.PORT_CFG_NOZ p)) x.bytes n = none →
      ∃ u, exec (.crevasseRef src) s = .next (State.watch s u) ∧ u.mp.cmd = none ∧ s.answered u 0 c.desc 0x10 1) ∧
    (∀ l, x.state = .whole → refEntries (v.rd (Fld.PORT_CFG_NOZ p)) x.bytes n = some l →
      (v.ctxState 0 ≠ 1 ∨ v.ctxOnPort 0 p = false →
        ∃ u, exec (.crevasseRef src) s = .next (State.watch s u) ∧ u.mp.cmd = none ∧ s.answered u 0 c.desc 0x15 0) ∧
      (v.ctxState 0 = 1 → v.ctxOnPort 0 p = true → (v.on Fld.CRV_STAT_SEQ_OK = false ∨ v.portReady p = false ∨ v.forcedThermal p = true ∨
          v.tickleOk p = false ∨ (v.portMode p = 2 ∧ (v.getSense p).noHead = true)) →
        ∃ u, exec (.crevasseRef src) s = .next (State.watch s u) ∧ u.mp.cmd = none ∧ s.answered u 0 c.desc 0x15 2) ∧
      (v.ctxState 0 = 1 → v.ctxOnPort 0 p = true → v.on Fld.CRV_STAT_SEQ_OK = true → v.portReady p = true → v.forcedThermal p = false →
        v.tickleOk p = true → (v.portMode p ≠ 2 ∨ (v.getSense p).noHead = false) →
        (v.printsOn p = true ∨ v.mpMay 5 = false →
          ∃ u, exec (.crevasseRef src) s = .next (State.watch s u) ∧ u.mp.cmd = none ∧ s.answered u 0 c.desc 0x12 0) ∧
        (v.printsOn p = false → v.mpMay 5 = true →
          ∃ u, exec (.crevasseRef src) s = .next (State.watch s u) ∧
            u.walk = some ⟨c.desc, p, c.desc.fld 3 23 16, l, 0, 0, [], 0, false, v.mirrorNow p⟩ ∧ u.on Fld.CRV_STAT_REF_BUSY = true ∧
            u.mp.cmd.map (fun k => k.desc) = some c.desc ∧ u.holder 5 = 2 ∧ u.host.cqQueue = s.host.cqQueue)))) ∧
  (∀ (src : HostRead) (s : State), s.calm → (s.walk.isSome ∨ s.loadCommand 0x40 = none) →
    exec (.crevasseRef src) s = .next (State.watch s s)) ∧
  (∀ (x : List (BitVec 14)) (w : Walk) (n mark : Nat) (s : State), s.calm → s.walk = some w → w.port < 16 → s.walkStop w = none →
    w.after ≤ s.mirrorNow w.port → s.portReady w.port = true → s.sensePending w.port = false →
    mark = (if (s.getSense w.port).first || decide (w.next = 0) then 2 else 0) → s.markWaits w.port mark = false →
    n = (if mark = 2 then 0 else w.next) → w.pass + 1 < w.avg →
    ∃ t, exec (.refWalkTickle x) s = .next t ∧
      (n + 1 < s.headNoz w.port → t.walk = some { w.add n (capture256 x) with next := n + 1, after := s.mirrorNow w.port + 40000 }) ∧
      (s.headNoz w.port ≤ n + 1 → t.walk = some { w.add n (capture256 x) with
        next := 0, pass := w.pass + 1, after := s.mirrorNow w.port + 40000 }) ∧
      (s.portMode w.port ≠ 2 → .tickle w.port mark (s.mirrorNow w.port) (s.l7 w.port) ∈ t.out.drop s.out.length) ∧
      t.rd (Fld.CRV_P_STAT_INDEX w.port) = (if mark = 2 then 0 else (s.rd (Fld.CRV_P_STAT_INDEX w.port) + 1) % 2 ^ 12) ∧
      t.mp.cmd = s.mp.cmd ∧ t.host.cqQueue = s.host.cqQueue) ∧
  (∀ (x : List (BitVec 14)) (w : Walk) (mark n : Nat) (s : State), s.calm → s.walk = some w → w.port < 16 →
    s.walkStop w = none → w.after ≤ s.mirrorNow w.port → s.portReady w.port = true → s.sensePending w.port = false →
    mark = (if (s.getSense w.port).first || decide (w.next = 0) then 2 else 0) → s.markWaits w.port mark = false →
    n = (if mark = 2 then 0 else w.next) → w.avg ≤ w.pass + 1 → (s.mp.cmd.elim w.desc (fun k => k.desc)).index < orphanMark → s.cqRoom →
    ∃ t, exec (.refWalkTickle x) s = .next t ∧
      (∀ c ∈ w.lastOf n, ∀ i < 128,
        t.getReg (Reg.CRV_REF w.port ((c - 1) * 128 + i)) = (match Store.get (fun _ => none) (w.add n (capture256 x)).sums c with
          | none => s.getReg (Reg.CRV_REF w.port ((c - 1) * 128 + i))
          | some e => pairWord ((meanReference e.1 e.2).getD (2 * i) 0) ((meanReference e.1 e.2).getD (2 * i + 1) 0))) ∧
      (n + 1 < s.headNoz w.port → t.walk.map (fun k => k.next) = some (n + 1) ∧ t.host.cqQueue = s.host.cqQueue) ∧
      (s.headNoz w.port ≤ n + 1 → t.walk = none ∧ t.on Fld.CRV_STAT_REF_BUSY = false ∧ t.mp.cmd = none ∧
        s.answered t 0 w.desc 0 (w.written + ((w.lastOf n).filter (fun c =>
          (Store.get (fun _ => none) (w.add n (capture256 x)).sums c).isSome)).length))) ∧
  (∀ (x : List (BitVec 14)) (w : Walk) (st : Nat) (s : State), s.calm → s.walk = some w → s.walkStop w = some st → s.cqRoom →
    (s.mp.cmd.elim w.desc (fun k => k.desc)).index < orphanMark →
    ∃ t, exec (.refWalkTickle x) s = .next t ∧ t.walk = none ∧ t.mp.cmd = none ∧ t.on Fld.CRV_STAT_REF_BUSY = false ∧
      s.answered t 0 w.desc st w.written ∧
      st = (if s.portPresent w.port = false then 0x11 else if w.halt ∨ s.printsOn w.port ∨ s.gated w.port then 0x12 else 0x15)) ∧
  (∀ (x : List (BitVec 14)) (w : Walk) (s : State), s.calm → s.walk = some w → s.walkStop w = none →
    (s.mirrorNow w.port < w.after ∨ s.portReady w.port = false ∨ s.sensePending w.port = true) → exec (.refWalkTickle x) s = .next s) ∧
  (∀ (x : List (BitVec 14)) (w : Walk) (mark : Nat) (s : State), s.calm → s.walk = some w → s.walkStop w = none →
    w.after ≤ s.mirrorNow w.port → s.portReady w.port = true → s.sensePending w.port = false →
    mark = (if (s.getSense w.port).first || decide (w.next = 0) then 2 else 0) → s.markWaits w.port mark = true →
    exec (.refWalkTickle x) s = .next (s.senseNext w.port mark)) ∧
  (∀ (x : List (BitVec 14)) (s : State), s.calm → s.walk = none → exec (.refWalkTickle x) s = .next s)

/-- The ink estimate and the identity bus (R7, R340 to R354). Each reading moves whole nanolitres to INK. An authentication, of a command
or owed by a boot, reads UID and VERSION, writes a challenge and waits PENDING, or ends with its REASON; the right RESP brings a second
challenge, the right RTAG makes the device PASSED with its record as the base; a record is written only for a PASSED device and no sooner
than 10 s after the last. A poll that finds the device done, in error, absent or busy too long ends the operation, as does a clock
stretched too long; on a port retired meanwhile it is given up UNIT_ABSENT. -/
def Obligations.Consumables : Prop :=
  (∀ s : State, s.calm →
    (s.mp.running = true → ∃ t, exec .inkReading s = .next t ∧ (∀ p < 16, s.portPresent p = true → s.domOn (.hpg (portGroup p)) = true →
      t.ink p = min (s.ink p + ((s.getCons p).residue + (List.zipWith (fun a b => a * b) (increases (s.drops p) (s.getCons p).seen)
        (s.volumes p)).sum) / 1000000) (2 ^ 64 - 1) ∧ (t.getCons p).seen = s.drops p) ∧
      (∀ p < 16, s.portPresent p = false → t.ink p = s.ink p) ∧ t = { s with regs := t.regs, consum := t.consum }) ∧
    (s.mp.running = false → exec .inkReading s = .next s)) ∧
  (∀ (auto : Option (Fin 16)) (p : Fin 16) (uid : List Byte) (d : Option Desc) (s : State), s.authBegins auto p d → s.regionValid 5 = true →
    ∃ t, exec (.consAuth auto (.device uid 1)) s = .next t ∧ t.authOf p = 4 ∧
      t.rd64 (Reg.CONS_P_UID_LO p) = leNat ((uid.take 8).map (fun b => b.toNat)) % 2 ^ 64 ∧
      (t.getCons p).op.map (fun x => (x.record, x.phase, x.uid)) = some (false, 1, (uid.take 8).map (fun b => b.toNat)) ∧
      (t.getCons p).op.map (fun x => (x.polls, x.desc, x.chal.length)) = some (0, d, 16) ∧
      (∀ e, d = some e → t.mp.cmd.map (fun k => k.desc) = some e) ∧ (t.getCons p).prior = s.authOf p ∧
      t.out = s.out ++ [.bus p (s.rd (Fld.CONS_P_CFG_ADDR p)) (s.on (Fld.CONS_P_CFG_FM p)) 0x10 ((t.getCons p).op.elim [] (fun x => x.chal)),
        .bus p (s.rd (Fld.CONS_P_CFG_ADDR p)) (s.on (Fld.CONS_P_CFG_FM p)) 0x70 [1]]) ∧
  (∀ (auto : Option (Fin 16)) (p : Fin 16) (dev : BusAnswer) (d : Option Desc) (r : Nat) (s : State), s.authBegins auto p d → s.cqRoom →
    r = (if s.regionValid 5 = false then 1 else match dev with
      | .noAck => 2
      | .busError => 3
      | .device _ v => if v = 1 then 0 else 7) → r ≠ 0 →
    ∃ t, exec (.consAuth auto dev) s = .next t ∧ BusEnded s t p d r (if r = 2 then 3 else 2)) ∧
  (∀ (dev : BusAnswer) (d : Desc) (s : State), s.commanded 0x58 d →
    (d.reservedSet (commandLayout [0xF]) = true ∨ s.portPresent (d.fld 2 3 0) = false →
      ∃ t, exec (.consAuth none dev) s = .next t ∧ s.answered t 0 d (if d.reservedSet (commandLayout [0xF]) then 0x10 else 0x11)
        (if d.reservedSet (commandLayout [0xF]) then 1 else 0) ∧ Told s t) ∧
    (d.reservedSet (commandLayout [0xF]) = false → s.portPresent (d.fld 2 3 0) = true → (s.getCons (d.fld 2 3 0)).op.isSome →
      exec (.consAuth none dev) s = .next s)) ∧
  (∀ (dev : BusAnswer) (p : Fin 16) (s : State), s.calm →
    (s.nextCommand 0x58 = none → exec (.consAuth none dev) s = .next s) ∧
    (s.nextCommand 0x59 = none → exec (.consRecord dev) s = .next s) ∧
    (s.mp.running = false ∨ (s.getCons p).due = false ∨ (s.getCons p).op.isSome → exec (.consAuth (some p) dev) s = .next s) ∧
    (s.mp.running = true → (s.getCons p).due = true → (s.getCons p).op = none → s.portPresent p = false →
      ∃ t, exec (.consAuth (some p) dev) s = .next t ∧ (t.getCons p).due = false ∧ t = { s with consum := t.consum })) ∧
  (∀ (dev : BusAnswer) (d : Desc) (p : Nat) (s : State), s.commanded 0x59 d → p = d.fld 2 3 0 →
    (d.reservedSet (commandLayout [0xF]) = true ∨ s.portPresent p = false →
      ∃ t, exec (.consRecord dev) s = .next t ∧ s.answered t 0 d (if d.reservedSet (commandLayout [0xF]) then 0x10 else 0x11)
        (if d.reservedSet (commandLayout [0xF]) then 1 else 0) ∧ Told s t) ∧
    (d.reservedSet (commandLayout [0xF]) = false → s.portPresent p = true →
      ((s.getCons p).op.isSome ∨ (s.authOf p = 1 ∧ s.spaced p = false)) → exec (.consRecord dev) s = .next s) ∧
    (d.reservedSet (commandLayout [0xF]) = false → s.portPresent p = true → (s.getCons p).op = none → s.authOf p ≠ 1 →
      ∃ t, exec (.consRecord dev) s = .next t ∧ s.answered t 0 d 0 (consResult false (s.authOf p) 8) ∧ t.authOf p = s.authOf p ∧
        t.rd (Fld.CONS_P_STAT_REASON p) = 8) ∧
    (d.reservedSet (commandLayout [0xF]) = false → s.portPresent p = true → (s.getCons p).op = none → s.authOf p = 1 → s.spaced p = true →
      (dev = .noAck ∨ dev = .busError →
        ∃ t, exec (.consRecord dev) s = .next t ∧ BusEnded s t p (some d) (if dev = .noAck then 2 else 3) 1) ∧
      (dev ≠ .noAck → dev ≠ .busError →
        ∃ t, exec (.consRecord dev) s = .next t ∧ t.authOf p = 4 ∧
          (t.getCons p).op.map (fun x => (x.record, x.phase, x.image, x.desc)) = some (true, 3, s.recordImage p, some d) ∧
          t.mp.cmd.map (fun k => k.desc) = some d ∧ (t.getCons p).since = some s.tb.toNat ∧ (t.getCons p).lastInk = s.ink p))) ∧
  (∀ (p : Fin 16) (dev : BusAnswer) (s : State), s.calm → s.mp.running = true → s.portPresent p = true → s.authOf p = 1 →
    (s.getCons p).op = none → s.ink p ≠ (s.getCons p).lastInk → s.recordTime p = true →
    (dev = .noAck ∨ dev = .busError → ∃ t, exec (.recordDue p dev) s = .next t ∧ BusEnded s t p none (if dev = .noAck then 2 else 3) 1) ∧
    (dev ≠ .noAck → dev ≠ .busError →
      ∃ t, exec (.recordDue p dev) s = .next t ∧ t.authOf p = 4 ∧
        (t.getCons p).op.map (fun x => (x.record, x.phase, x.image, x.desc)) = some (true, 3, s.recordImage p, none) ∧
        (t.getCons p).since = some s.tb.toNat ∧ (t.getCons p).lastInk = s.ink p ∧
        t.out = s.out ++ [.bus p (s.rd (Fld.CONS_P_CFG_ADDR p)) (s.on (Fld.CONS_P_CFG_FM p)) 0x40
            (s.recordImage p ++ s.deviceTag (s.getCons p).uid 0x57 (s.recordImage p)),
          .bus p (s.rd (Fld.CONS_P_CFG_ADDR p)) (s.on (Fld.CONS_P_CFG_FM p)) 0x70 [2]])) ∧
  (∀ (p : Fin 16) (dev : BusAnswer) (s : State), s.calm → (s.mp.running = false ∨ s.portPresent p = false ∨ s.authOf p ≠ 1 ∨
      (s.getCons p).op.isSome ∨ s.ink p = (s.getCons p).lastInk ∨ s.recordTime p = false) → exec (.recordDue p dev) s = .next s) ∧
  (∀ (p : Fin 16) (x : BusOp) (data : List Byte) (s : State), s.calm → s.cqRoom → s.mp.running = true → s.portPresent p = true →
    (s.getCons p).op = some x → (∀ k, s.mp.cmd = some k → k.desc.index < orphanMark) →
    (∀ k, x.desc = some k → k.index < orphanMark) →
    (x.phase = 1 → x.record = false → ((data.map (fun b => b.toNat)).take 32 = s.deviceTag x.uid 0x41 x.chal →
        ∃ t, exec (.identityStatusPoll p (.status 1 data)) s = .next t ∧ t.authOf p = s.authOf p ∧
          (t.getCons p).op.map (fun y => (y.phase, y.uid, y.polls, y.desc)) = some (2, x.uid, 0, x.desc) ∧
          t.out = s.out ++ [.bus p (s.rd (Fld.CONS_P_CFG_ADDR p)) (s.on (Fld.CONS_P_CFG_FM p)) 0x10
            ((t.getCons p).op.elim [] (fun y => y.chal)),
            .bus p (s.rd (Fld.CONS_P_CFG_ADDR p)) (s.on (Fld.CONS_P_CFG_FM p)) 0x70 [3]]) ∧
      ((data.map (fun b => b.toNat)).take 32 ≠ s.deviceTag x.uid 0x41 x.chal →
        ∃ t, exec (.identityStatusPoll p (.status 1 data)) s = .next t ∧ BusEnded s t p x.desc 5 2)) ∧
    (x.phase = 2 → x.record = false →
      (sliceOf (data.map (fun b => b.toNat)) 16 32 = s.deviceTag x.uid 0x52 (x.chal ++ (data.map (fun b => b.toNat)).take 16) →
        ∃ t, exec (.identityStatusPoll p (.status 1 data)) s = .next t ∧ BusEnded s t p x.desc 0 1 ∧ (t.getCons p).uid = x.uid ∧
          (t.getCons p).baseSeq = leNat (sliceOf (data.map (fun b => b.toNat)) 0 4) ∧
          (t.getCons p).baseUse = leNat ((data.map (fun b => b.toNat)).take 16 |>.drop 4 |>.take 8) ∧ (t.getCons p).inkBase = s.ink p ∧
          (t.getCons p).count = 0) ∧
      (sliceOf (data.map (fun b => b.toNat)) 16 32 ≠ s.deviceTag x.uid 0x52 (x.chal ++ (data.map (fun b => b.toNat)).take 16) →
        ∃ t, exec (.identityStatusPoll p (.status 1 data)) s = .next t ∧ BusEnded s t p x.desc 5 2)) ∧
    (3 ≤ x.phase → x.record = true →
      ∃ t, exec (.identityStatusPoll p (.status 1 data)) s = .next t ∧ BusEnded s t p x.desc 0 1 ∧
        t.getReg (Reg.CONS_P_SEQ p) = BitVec.ofNat 32 (leNat (sliceOf x.image 0 4)) ∧ (t.getCons p).count = (s.getCons p).count + 1)) ∧
  (∀ (p : Fin 16) (x : BusOp) (ans : PollAnswer) (r : Nat) (s : State), s.calm → s.cqRoom → s.mp.running = true → s.portPresent p = true →
    (s.getCons p).op = some x → (∀ k, s.mp.cmd = some k → k.desc.index < orphanMark) →
    (∀ k, x.desc = some k → k.index < orphanMark) →
    r = (match ans with
      | .noAck => 2
      | .busError => 3
      | .status v _ => if v = 1 then 0 else if v = 2 then 6 else if 49 ≤ x.polls then 4 else 0) →
    (r ≠ 0 → ∃ t, exec (.identityStatusPoll p ans) s = .next t ∧
      BusEnded s t p x.desc r (if x.record then (if r = 6 then 2 else 1) else if r = 2 then 3 else 2)) ∧
    (∃ t, exec (.clockStretchTimeout p) s = .next t ∧ BusEnded s t p x.desc 3 (if x.record then 1 else 2)) ∧
    (x.polls < 49 → ∃ t, exec (.identityStatusPoll p (.status 0 [])) s = .next t ∧
      (t.getCons p).op = some { x with polls := x.polls + 1 } ∧ t = { s with consum := t.consum })) ∧
  (∀ (p : Fin 16) (x : BusOp) (ans : PollAnswer) (s : State), s.calm → s.cqRoom → s.mp.running = true → s.portPresent p = false →
    (s.getCons p).op = some x → (∀ k, s.mp.cmd = some k → k.desc.index < orphanMark) →
    (∀ k, x.desc = some k → k.index < orphanMark) →
    (∃ t, exec (.identityStatusPoll p ans) s = .next t ∧ t.authOf p = (s.getCons p).prior % 8 ∧ (t.getCons p).op = none ∧
      (∀ d, x.desc = some d → s.answered t 0 d 0x11 0)) ∧
    exec (.clockStretchTimeout p) s = exec (.identityStatusPoll p ans) s) ∧
  (∀ (p : Fin 16) (ans : PollAnswer) (s : State), s.calm → ((s.getCons p).op = none ∨ s.mp.running = false) →
    exec (.identityStatusPoll p ans) s = .next s ∧ exec (.clockStretchTimeout p) s = .next s)

/-- Links of the ring (R387, R388, R396 to R399, R401, R417, R418, R422, R424): a write of RING_CFG sets and clears JOIN, takes the
address while JOIN is clear and holds it while JOIN is set; setting JOIN draws a JOIN_ID and starts at version 1, clearing it ends DUP. A
port 250 ms on trial goes to its next PHY; a neighbour's HELLO brings a port up or names the neighbour of an up one; a link goes down
with a report, a port on trial starts again. The own ring HELLO on both ports closes the ring, another station with the own address sets
DUP, and RING_OPENED opens it. The roster takes a station heard and loses one not heard for 35 ms, with the tokens of its tunnel. A lost
heartbeat drops BYP_KEEP. HELLO_TIMER sends the neighbour HELLOs, and every tenth the ring HELLO. A condition that is not met changes
nothing. The JOIN_ID drawn is a free value (DESIGN CHOICE, log entry 1). -/
def Obligations.RingLinks : Prop :=
  (∀ (m : Master) (v : Word) (s : State), s.calm → s.numbered → s.reaches Reg.RING_CFG →
    ∃ t, exec (.join m v) s = .next t ∧ t.ringJoined = bitOf v 31 ∧ t.ringAddr = (if s.ringJoined then s.ringAddr else bitsOf v 13 8) ∧
      t.keep = (bitOf v 31 && s.beat) ∧
      (s.ringJoined = false → bitOf v 31 = true → t.ringVersion = 1 ∧ t.ring.joinId = (Config.freeWord s.free).toNat % 65536 ∧
        t.free = s.free + 1) ∧
      (s.ringJoined = true → bitOf v 31 = false → t.on Fld.RING_STAT_DUP = false ∧ t.ring.joinId = s.ring.joinId)) ∧
  (∀ (p : Fin 2) (s : State), s.calm →
    (s.rportRuns p = true → s.rportUp p = false → (s.getRport p).began + 1000000000 ≤ s.tb.toNat →
      ∃ t, exec (.phyTrialExpiry p) s = .next t ∧ (t.getRport p).trial = ((s.getRport p).trial + 1) % (s.phyOrder p).length ∧
        (t.getRport p).began = s.tb.toNat ∧ t = { s with ring := t.ring }) ∧
    (s.rportRuns p = false ∨ s.rportUp p = true ∨ s.tb.toNat < (s.getRport p).began + 1000000000 →
      exec (.phyTrialExpiry p) s = .next s)) ∧
  (∀ (p : Fin 2) (s : State), s.calm →
    (s.domOn .ring = true → s.rportUp p = true →
      ∃ t, exec (.ringLinkDown p) s = .next t ∧ t.getReg (Reg.RING_P_STAT p) = 0 ∧
        t.rakeQ.map (fun r => r.src) = s.rakeQ.map (fun r => r.src) ++ [0x205] ∧ (t.getRport p).crit = [] ∧ (t.getRport p).bulk = [] ∧
        (t.getRport p).trial = 0 ∧ (t.getRport p).began = s.tb.toNat) ∧
    (s.domOn .ring = true → s.rportUp p = false →
      ∃ t, exec (.ringLinkDown p) s = .next t ∧ (t.getRport p).trial = 0 ∧ (t.getRport p).began = s.tb.toNat ∧
        t = { s with ring := t.ring }) ∧
    (s.domOn .ring = false → exec (.ringLinkDown p) s = .next s)) ∧
  (∀ s : State, s.calm →
    (s.domOn .ring = true → s.on Fld.RING_STAT_CLOSED = true →
        (s.fresh35 (s.getRport 0).own = false ∨ s.fresh35 (s.getRport 1).own = false) →
      ∃ t, exec .ringOpened s = .next t ∧ t.on Fld.RING_STAT_CLOSED = false ∧ s.regsBut t (Reg.RING_STAT :: noticeWords)) ∧
    (s.domOn .ring = false ∨ s.on Fld.RING_STAT_CLOSED = false ∨
        (s.fresh35 (s.getRport 0).own = true ∧ s.fresh35 (s.getRport 1).own = true) →
      exec .ringOpened s = .next s)) ∧
  (∀ s : State, s.calm → ∃ t, exec .heartbeatLoss s = .next t ∧ t.beat = false ∧ t.keep = false ∧ s.regsBut t noticeWords) ∧
  (∀ (st : Fin 64) (s : State), s.calm →
    (s.domOn .ring = true → (s.getRsrc st).member = true → (s.getRsrc st).heard + 140000000 ≤ s.tb.toNat →
      ∃ t, exec (.rosterExpiry st) s = .next t ∧ t.getRsrc st = RingSrc.reset ∧
        (∀ n < 32, s.holder n = masterCode (.tunnel st) → t.holder n = 0) ∧
        (∀ n < 32, s.holder n ≠ masterCode (.tunnel st) → t.holder n = s.holder n)) ∧
    (s.domOn .ring = false ∨ (s.getRsrc st).member = false ∨ s.tb.toNat < (s.getRsrc st).heard + 140000000 →
      exec (.rosterExpiry st) s = .next s)) ∧
  (∀ (a : Admitted) (rest : List Admitted) (vmax vmin vcap rver epoch serial : Nat) (ms lk dp : Bool) (s : State), s.calm →
    s.ring.inbox = a :: rest → a.frame.msg = .hello 0 vmax vmin vcap rver ms lk dp epoch serial → a.port < 2 →
    ∃ t, exec .hello s = .next t ∧ t.ring.inbox = rest ∧ t.rd (Fld.RING_P_STAT_NBR a.port) = a.frame.src % 64 ∧
      (t.getRport a.port).nbrMax = vmax ∧
      t.on Fld.RING_STAT_LOOPBACK = (decide (a.frame.src = s.ringAddr) && decide (serial = s.units.serial)) ∧
      t.rportUp (1 - a.port) = s.rportUp (1 - a.port) ∧ t.rportUp a.port = true ∧
      (s.rportUp a.port = false → t.on Fld.PCR_PLL_STAT_RING_REF_OK = true ∧
        t.rd (Fld.RING_P_STAT_PHY a.port) = ((s.phyOrder a.port).getD (s.getRport a.port).trial 0 + 1) % 8)) ∧
  (∀ (a : Admitted) (rest : List Admitted) (scope vmax vmin vcap rver epoch serial : Nat) (ms lk dp : Bool) (s : State), s.calm →
    s.ring.inbox = a :: rest → a.frame.msg = .hello scope vmax vmin vcap rver ms lk dp epoch serial → scope ≠ 0 →
    (a.frame.src < 64 → a.frame.src ≠ s.ringAddr →
      ∃ t, exec .hello s = .next t ∧ t.ring.inbox = rest ∧ (t.getRsrc a.frame.src).member = true ∧ (t.getRsrc a.frame.src).master = ms ∧
        (t.getRsrc a.frame.src).dup = dp ∧ (t.getRsrc a.frame.src).heard = s.tb.toNat ∧ a.frame.src ∈ t.roster) ∧
    (64 ≤ a.frame.src → exec .hello s = .next (s.took rest)) ∧
    (a.frame.src = s.ringAddr → serial ≠ s.units.serial → s.ringJoined = true → s.on Fld.RING_STAT_DUP = false →
      ∃ t, exec .hello s = .next t ∧ t.ring.inbox = rest ∧ t.on Fld.RING_STAT_DUP = true ∧
        ∀ b < 4, s.on (Fld.RING_MBX_CMD_BUSY b) = true → t.on (Fld.RING_MBX_CMD_BUSY b) = false ∧ t.rd (Fld.RING_MBX_CMD_RESULT b) = 3) ∧
    (a.frame.src = s.ringAddr → serial ≠ s.units.serial → (s.ringJoined = false ∨ s.on Fld.RING_STAT_DUP = true) →
      exec .hello s = .next (s.took rest)) ∧
    (a.frame.src = s.ringAddr → serial = s.units.serial → a.port < 2 →
      ∃ t, exec .hello s = .next t ∧ t.ring.inbox = rest ∧ (t.getRport a.port).own = some s.tb.toNat ∧
        t.on Fld.RING_STAT_CLOSED = (s.on Fld.RING_STAT_CLOSED || s.fresh35 (s.getRport (1 - a.port)).own) ∧
        s.regsBut t (Reg.RING_STAT :: noticeWords))) ∧
  (∀ (ring : Bool) (q r : Nat) (s : State), s.calm → s.domOn .ring = true →
    (s.getRport 0).crit.length < 31 → (s.getRport 1).crit.length < 31 →
    q = (if s.rportRuns 0 then (s.ring.seq + 1) % 65536 else s.ring.seq) → r = (if s.rportRuns 1 then (q + 1) % 65536 else q) →
    ∃ t, exec (.helloTimer ring) s = .next t ∧ t = { s with ring := t.ring } ∧
      (t.getRport 0).crit = (s.getRport 0).crit ++ (if s.rportRuns 0 then [s.ownFrame 1 0xFF s.ring.seq false (s.ownHello 0)] else []) ++
        (if ring && s.ringJoined && s.rportUp 0 then [s.ownFrame 64 0xFF r false (s.ownHello 1)] else []) ∧
      (t.getRport 1).crit = (s.getRport 1).crit ++ (if s.rportRuns 1 then [s.ownFrame 1 0xFF q true (s.ownHello 0)] else []) ++
        (if ring && s.ringJoined && s.rportUp 1 then [s.ownFrame 64 0xFF r true (s.ownHello 1)] else []) ∧
      t.ring.seq = (if ring && s.ringJoined then (r + 1) % 65536 else r)) ∧
  (∀ (ring : Bool) (s : State), s.calm → s.domOn .ring = false → exec (.helloTimer ring) s = .next s)

/-- Frames (R386, R389 to R395, R402, R414): a frame with a bad FCS or length counts in ERR, one with another address or EtherType and a
pause frame in DROP, and each is discarded; at a port not in use nothing happens. A frame that goes on leaves by the other port, by the
queue of its type, with HOPS one less, a Sync or Follow_Up with UNCORR where the link delay is not known; a full queue counts DROP. A
frame for this station whose type its version delivers joins those to deliver where the window of its source admits it or its type passes
none; of its own frames a station hears HELLO and VERSION_AGREE; a request beyond 16 held is answered BUSY. A unit's command takes the
oldest frame only where that is of its type. -/
def Obligations.RingFrames : Prop :=
  (∀ (p : Fin 2) (e : FrameFault) (f : RingFrame) (s : State), s.calm →
    (s.rportRuns p = false → exec (.ringFrame p e f) s = .next s) ∧
    (s.rportRuns p = true → e ≠ .none →
      ∃ t, exec (.ringFrame p e f) s = .next t ∧ t.rd (Fld.RING_P_CNT_RX_COUNT p) = (s.rd (Fld.RING_P_CNT_RX_COUNT p) + 1) % 2 ^ 32 ∧
        t.rd (Fld.RING_P_CNT_ERR_COUNT p) = (if e = .fcs ∨ e = .length then min (s.rd (Fld.RING_P_CNT_ERR_COUNT p) + 1) (2 ^ 32 - 1)
          else s.rd (Fld.RING_P_CNT_ERR_COUNT p)) ∧
        t.rd (Fld.RING_P_CNT_DROP_COUNT p) = (if e = .fcs ∨ e = .length then s.rd (Fld.RING_P_CNT_DROP_COUNT p)
          else min (s.rd (Fld.RING_P_CNT_DROP_COUNT p) + 1) (2 ^ 32 - 1)) ∧
        s.regsBut t [Reg.RING_P_CNT_RX p, Reg.RING_P_CNT_ERR p, Reg.RING_P_CNT_DROP p] ∧ s.onlyRegs t)) ∧
  (∀ (p : Fin 2) (f g : RingFrame) (s : State), s.calm → s.rportRuns p = true → (∀ a b c d e, f.msg ≠ .versionAgree 1 a b c d e) →
    (isRequest f.msg = false ∨ f.dst ≠ 0xFF) →
    g = { f with hops := f.hops - 1, uncorr := f.uncorr || (match f.msg with
      | .ptp m => (decide (m.kind = .sync) || decide (m.kind = .followUp)) && !s.on (Fld.RING_P_STAT_DELAY_OK p)
      | _ => false) } →
    (s.mayForward p f = true → msgCritical f.msg = true → (s.getRport (1 - p.val)).crit.length < 32 →
      ∃ t, exec (.ringFrame p .none f) s = .next t ∧ (t.getRport (1 - p.val)).crit = (s.getRport (1 - p.val)).crit ++ [g] ∧
        (t.getRport (1 - p.val)).bulk = (s.getRport (1 - p.val)).bulk) ∧
    (s.mayForward p f = true → msgCritical f.msg = false → (s.getRport (1 - p.val)).bulk.length < 64 →
      ∃ t, exec (.ringFrame p .none f) s = .next t ∧ (t.getRport (1 - p.val)).bulk = (s.getRport (1 - p.val)).bulk ++ [g] ∧
        (t.getRport (1 - p.val)).crit = (s.getRport (1 - p.val)).crit) ∧
    (s.mayForward p f = true → (if msgCritical f.msg then 32 ≤ (s.getRport (1 - p.val)).crit.length
        else 64 ≤ (s.getRport (1 - p.val)).bulk.length) →
      ∃ t, exec (.ringFrame p .none f) s = .next t ∧ (t.getRport (1 - p.val)).crit = (s.getRport (1 - p.val)).crit ∧
        (t.getRport (1 - p.val)).bulk = (s.getRport (1 - p.val)).bulk ∧
        t.rd (Fld.RING_P_CNT_DROP_COUNT (1 - p.val)) = min (s.rd (Fld.RING_P_CNT_DROP_COUNT (1 - p.val)) + 1) (2 ^ 32 - 1)) ∧
    (s.mayForward p f = false →
      ∃ t, exec (.ringFrame p .none f) s = .next t ∧ (t.getRport (1 - p.val)).crit = (s.getRport (1 - p.val)).crit ∧
        (t.getRport (1 - p.val)).bulk = (s.getRport (1 - p.val)).bulk)) ∧
  (∀ (p : Fin 2) (f : RingFrame) (here held : Bool) (s : State), s.calm → s.rportRuns p = true →
    here = (decide (f.dst = 0xFF ∨ f.dst = s.ringAddr) && decide (msgVersion f.msg ≠ 0) && decide (msgVersion f.msg ≤ s.ringVersion)) →
    held = (isRequest f.msg && decide (16 ≤ (s.ring.inbox.filter (fun a => isRequest a.frame.msg)).length)) →
    (here = false → ∃ t, exec (.ringFrame p .none f) s = .next t ∧ t.ring.inbox = s.ring.inbox ∧ t.ring.srcs = s.ring.srcs) ∧
    (here = true → f.src = s.ringAddr →
      ∃ t, exec (.ringFrame p .none f) s = .next t ∧ t.ring.srcs = s.ring.srcs ∧
        t.ring.inbox = s.ring.inbox ++ (if msgType f.msg = 1 ∨ msgType f.msg = 2 then [⟨p, s.tb.toNat, f⟩] else [])) ∧
    (here = true → f.src ≠ s.ringAddr → msgExempt f.msg = true →
      ∃ t, exec (.ringFrame p .none f) s = .next t ∧ t.ring.inbox = s.ring.inbox ++ [⟨p, s.tb.toNat, f⟩]) ∧
    (here = true → f.src ≠ s.ringAddr → msgExempt f.msg = false → (s.getRsrc f.src).takes f = none →
      ∃ t, exec (.ringFrame p .none f) s = .next t ∧ t.ring.inbox = s.ring.inbox ∧ t.ring.srcs = s.ring.srcs) ∧
    (∀ x, here = true → f.src ≠ s.ringAddr → msgExempt f.msg = false → (s.getRsrc f.src).takes f = some x → held = false →
      ∃ t, exec (.ringFrame p .none f) s = .next t ∧ t.ring.inbox = s.ring.inbox ++ [⟨p, s.tb.toNat, f⟩] ∧ t.getRsrc f.src = x) ∧
    (∀ x op tag count status addr data, here = true → f.src ≠ s.ringAddr → f.msg = .mgmt op tag count status addr data →
      (s.getRsrc f.src).takes f = some x → held = true → s.ringJoined = true → s.on Fld.RING_STAT_DUP = false → s.domOn .ring = true →
      s.rportUp 0 = true → (s.getRport 0).bulk.length < 63 →
      ∃ t, exec (.ringFrame p .none f) s = .next t ∧ t.ring.inbox = s.ring.inbox ∧ t.getRsrc f.src = x ∧
        (t.getRport 0).bulk.getLast? = some (s.ownFrame 64 f.src s.ring.seq false (.mgmt 0xFF tag 0 1 addr [])))) ∧
  (∀ s : State, s.calm → ∀ e ∈ [(Instr.hello, 1), (.versionAgree, 2), (.track, 3), (.pgo, 4), (.venc, 5), (.reject, 6), (.mgmt, 7),
      (.service, 8), (.ptp, 9)], s.nextType ≠ some e.2 → exec e.1 s = .next s)

/-- The ring version (R399): the leader proposes with a new epoch when it is due. Of another's PROPOSE a station sends a copy with its
own capability and address on, or back as RETURN where the other port is down; the leader notes the copies of its own and judges at the
second, or 100 ms after the PROPOSE. Copies that cover the roster give a COMMIT, else the next try is due 1 s later. A COMMIT takes
effect at once where the station is not LOCKED, at ACT where it is. A condition that is not met changes nothing more than the inbox. Ring
time (R400 to R403): the master's Sync takes the next number, and its Follow_Up the next SEQ; an up port asks for its delay, answers a
neighbour that asks, keeps the answer of its own request, and with the last message of a measurement takes the mean of the last four as
the link delay. Of the time master's messages a station notes each copy of a Sync, and the Follow_Up of the copy to use sets RING_OFS:
the first residual whole, a later one by at most 4 units; LOCKED sets after 16 good residuals, clears with one over 1,600 units, and
clears with the Syncs missing. TB_INC stays in its range; which value the servo gives it is a free value (DESIGN CHOICE, log entry 1). A
condition not met changes nothing more than the inbox. -/
def Obligations.RingVersionsAndTime : Prop :=
  (∀ s : State, s.calm →
    (s.domOn .ring = true → s.ringJoined = true → s.ringLeader = some s.ringAddr → s.ring.due ≤ s.tb.toNat →
      ∃ t, exec .versionPropose s = .next t ∧ t.ring.epoch = (s.ring.epoch + 1) % 65536 ∧ t.ring.due = s.tb.toNat + 40000000000 ∧
        t.ring.proposal = some ⟨(s.ring.epoch + 1) % 65536, s.tb.toNat, []⟩ ∧ t.ringVersion = s.ringVersion ∧
        (s.on Fld.RING_STAT_DUP = false → s.rportUp 0 = true → (s.getRport 0).crit.length < 32 →
          (t.getRport 0).crit = (s.getRport 0).crit ++ [s.ownFrame 64 0xFF s.ring.seq false
            (.versionAgree 1 s.vcap ((s.ring.epoch + 1) % 65536) s.ringAddr (2 ^ s.ringAddr) 0)])) ∧
    (s.domOn .ring = false ∨ s.ringJoined = false ∨ s.ringLeader ≠ some s.ringAddr ∨ s.tb.toNat < s.ring.due →
      exec .versionPropose s = .next s)) ∧
  (∀ (a : Admitted) (rest : List Admitted) (phase v epoch leader mask act : Nat) (s : State), s.calm → s.numbered → s.ring.inbox = a :: rest →
    a.frame.msg = .versionAgree phase v epoch leader mask act → a.port < 2 →
    (phase = 3 → a.frame.src = s.ringAddr → exec .versionAgree s = .next (s.took rest)) ∧
    (phase = 3 → a.frame.src ≠ s.ringAddr → s.ringLocked = false →
      ∃ t, exec .versionAgree s = .next t ∧ t.ring.inbox = rest ∧ t.ringVersion = v % 4 ∧ t.rd Fld.RING_VER_EPOCH = epoch % 65536 ∧
        t.ring.commit = none) ∧
    (phase = 3 → a.frame.src ≠ s.ringAddr → s.ringLocked = true →
      ∃ t, exec .versionAgree s = .next t ∧ t.ring.inbox = rest ∧ t.ring.commit = some (v, epoch, act) ∧ t.regs = s.regs) ∧
    (phase ≠ 3 → a.frame.src = s.ringAddr →
      (s.ring.proposal.all (fun q => decide (q.epoch ≠ epoch)) = true → exec .versionAgree s = .next (s.took rest)) ∧
      (∀ q, s.ring.proposal = some q → q.epoch = epoch →
        ∃ t, exec .versionAgree s = .next t ∧ t.ring.inbox = rest ∧
          t.ring.proposal = (if q.copies = [] then some { q with copies := [(v, mask)] } else none))) ∧
    (phase = 1 → a.frame.src ≠ s.ringAddr →
      (s.ringJoined = true → s.rportUp (1 - a.port) = true → 1 < a.frame.hops → (s.getRport (1 - a.port)).crit.length < 32 →
        ∃ t, exec .versionAgree s = .next t ∧ t.ring.inbox = rest ∧ (t.getRport (1 - a.port)).crit = (s.getRport (1 - a.port)).crit ++
          [{ a.frame with hops := a.frame.hops - 1, msg := .versionAgree 1 (min v s.vcap) epoch leader (mask ||| 2 ^ s.ringAddr) 0 }]) ∧
      (s.ringJoined = true → s.rportUp (1 - a.port) = false → (s.getRport a.port).crit.length < 32 →
        ∃ t, exec .versionAgree s = .next t ∧ t.ring.inbox = rest ∧ (t.getRport a.port).crit = (s.getRport a.port).crit ++
          [{ a.frame with hops := 64, west := !a.frame.west, msg := .versionAgree 2 (min v s.vcap) epoch leader (mask ||| 2 ^ s.ringAddr) 0 }]) ∧
      (s.ringJoined = false ∨ (s.rportUp (1 - a.port) = true ∧ a.frame.hops ≤ 1) → exec .versionAgree s = .next (s.took rest))) ∧
    (phase ≠ 1 → phase ≠ 3 → a.frame.src ≠ s.ringAddr → exec .versionAgree s = .next (s.took rest))) ∧
  (∀ s : State, s.calm →
    (∀ q : Proposal, s.numbered → s.domOn .ring = true → s.ring.proposal = some q → q.sent + 400000000 ≤ s.tb.toNat →
      ∃ t, exec .versionCollectTimeout s = .next t ∧ t.ring.proposal = none ∧
        (s.roster.all (fun a => q.copies.any (fun c => c.2.testBit a)) = false →
          t.ring.due = s.tb.toNat + 4000000000 ∧ t = { s with ring := t.ring }) ∧
        (s.roster.all (fun a => q.copies.any (fun c => c.2.testBit a)) = true → s.ringLocked = false →
          t.ringVersion = q.copies.foldl (fun n c => min n c.1) s.vcap % 4 ∧ t.rd Fld.RING_VER_EPOCH = q.epoch % 65536) ∧
        (s.roster.all (fun a => q.copies.any (fun c => c.2.testBit a)) = true → s.ringLocked = true →
          t.ring.commit = some (q.copies.foldl (fun n c => min n c.1) s.vcap, q.epoch, (s.toRing s.tb.toNat + 80000000) % 2 ^ 64) ∧
          t.ringVersion = s.ringVersion)) ∧
    (s.domOn .ring = false ∨ s.ring.proposal.all (fun q => decide (s.tb.toNat < q.sent + 400000000)) = true →
      exec .versionCollectTimeout s = .next s)) ∧
  (∀ s : State, s.calm →
    (∀ v epoch act : Nat, s.numbered → s.domOn .ring = true → s.ring.commit = some (v, epoch, act) → act ≤ s.toRing s.tb.toNat →
      ∃ t, exec .versionAct s = .next t ∧ t.ringVersion = v % 4 ∧ t.rd Fld.RING_VER_EPOCH = epoch % 65536 ∧ t.ring.commit = none) ∧
    (s.domOn .ring = false ∨ s.ring.commit.all (fun x => decide (s.toRing s.tb.toNat < x.2.2)) = true → exec .versionAct s = .next s)) ∧
  (∀ s : State, s.calm →
    (s.domOn .ring = true → s.on Fld.RING_PTP_STAT_MASTER_ACT = true →
      ∃ t, exec .syncTimer s = .next t ∧ t.ring.syncSeq = (s.ring.syncSeq + 1) % 65536 ∧
        (s.ringJoined = true → s.on Fld.RING_STAT_DUP = false → t.ring.seq = ((s.ring.seq + 1) % 65536 + 1) % 65536) ∧
        (s.ringJoined = true → s.on Fld.RING_STAT_DUP = false → s.rportUp 0 = true → (s.getRport 0).crit.length < 32 →
          (t.getRport 0).crit = (s.getRport 0).crit ++
            [s.ownFrame 64 0xFF s.ring.seq false (.ptp ⟨.sync, s.rd Fld.RING_PTP_CFG_DOMAIN, s.ring.syncSeq, 0, 0⟩)])) ∧
    (s.domOn .ring = false ∨ s.on Fld.RING_PTP_STAT_MASTER_ACT = false → exec .syncTimer s = .next s)) ∧
  (∀ (p : Fin 2) (s : State), s.calm →
    (s.domOn .ring = true → s.rportUp p = true → s.ringJoined = true → s.on Fld.RING_STAT_DUP = false →
      ∃ t, exec (.peerDelayTimer p) s = .next t ∧ (t.getRport p).reqNo = ((s.getRport p).reqNo + 1) % 65536 ∧ (t.getRport p).req = none ∧
        ((s.getRport p).crit.length < 32 →
          (t.getRport p).crit = (s.getRport p).crit ++ [s.ownFrame 1 0xFF s.ring.seq (decide (p.val = 1))
            (.ptp ⟨.pdelayReq, s.rd Fld.RING_PTP_CFG_DOMAIN, (s.getRport p).reqNo, 0, 0⟩)] ∧ t = { s with ring := t.ring })) ∧
    (s.domOn .ring = false ∨ s.rportUp p = false ∨ s.ringJoined = false ∨ s.on Fld.RING_STAT_DUP = true →
      exec (.peerDelayTimer p) s = .next s)) ∧
  (∀ (a : Admitted) (rest : List Admitted) (m : PtpMsg) (s : State), s.calm → s.ring.inbox = a :: rest → a.frame.msg = .ptp m → a.port < 2 →
    (∀ (n t1 t4 : Nat) (t2 : Int) (l : List Nat), m.kind = .pdelayRespFollowUp → (s.getRport a.port).req = some (n, t1) →
      (s.getRport a.port).resp = some (t2, t4) → m.seqId = n →
      l = (patternOf 32 (roundDiv (roundDiv (((t4 : Int) - t1) * 2 ^ 14 - (ptpTime m - t2)) 2) 64) :: (s.getRport a.port).delays).take 4 →
      ∃ t, exec .ptp s = .next t ∧ t.on (Fld.RING_P_STAT_DELAY_OK a.port) = true ∧ (t.getRport a.port).delays = l ∧
        t.rd (Fld.RING_P_DELAY_DELAY a.port) = (roundDiv ((l.foldl (· + ·) 0 : Nat) : Int) l.length).toNat % 2 ^ 32 ∧
        s.regsBut t [Reg.RING_P_DELAY a.port, Reg.RING_P_STAT a.port]) ∧
    (m.kind = .pdelayRespFollowUp → ((s.getRport a.port).req.all (fun q => decide (q.1 ≠ m.seqId)) = true ∨ (s.getRport a.port).resp = none) →
      exec .ptp s = .next (s.took rest)) ∧
    (m.kind = .pdelayReq → s.ringJoined = true → s.on Fld.RING_STAT_DUP = false → s.domOn .ring = true → (s.getRport a.port).crit.length < 32 →
      ∃ t, exec .ptp s = .next t ∧ t.ring.inbox = rest ∧ (t.getRport a.port).crit = (s.getRport a.port).crit ++
        [s.ownFrame 1 0xFF s.ring.seq (decide (a.port = 1)) (.ptp ⟨.pdelayResp, m.domain, m.seqId, (ptpStamp (s.toRing a.at_)).2,
          (ptpStamp (s.toRing a.at_)).1⟩)]) ∧
    (m.kind = .pdelayReq → (s.ringJoined = false ∨ s.on Fld.RING_STAT_DUP = true) → exec .ptp s = .next (s.took rest)) ∧
    (m.kind = .pdelayResp →
      ((s.getRport a.port).req.any (fun q => decide (q.1 = m.seqId)) = true →
        ∃ t, exec .ptp s = .next t ∧ t.ring.inbox = rest ∧ (t.getRport a.port).resp = some (ptpTime m, a.at_) ∧
          (t.getRport a.port).req = (s.getRport a.port).req ∧ t = { s with ring := t.ring }) ∧
      ((s.getRport a.port).req.any (fun q => decide (q.1 = m.seqId)) = false → exec .ptp s = .next (s.took rest))) ∧
    (∀ k, m.kind = .other k → exec .ptp s = .next (s.took rest)) ∧
    (m.kind = .sync ∨ m.kind = .followUp →
      (s.on Fld.RING_PTP_STAT_MASTER_ACT = true ∨ s.shownMaster ≠ some a.frame.src ∨ a.frame.uncorr = true ∨
          m.domain ≠ s.rd Fld.RING_PTP_CFG_DOMAIN ∨ s.on (Fld.RING_P_STAT_DELAY_OK a.port) = false →
        exec .ptp s = .next (s.took rest)) ∧
      (s.on Fld.RING_PTP_STAT_MASTER_ACT = false → s.shownMaster = some a.frame.src → a.frame.uncorr = false →
          m.domain = s.rd Fld.RING_PTP_CFG_DOMAIN → s.on (Fld.RING_P_STAT_DELAY_OK a.port) = true →
        (m.kind = .sync → ∃ t, exec .ptp s = .next t ∧ t.ring.inbox = rest ∧ t = { s with ring := t.ring } ∧
          t.ring.syncs.getLast? = some ⟨a.port, 64 - a.frame.hops, m.seqId, a.at_, m.corr⟩) ∧
        (∀ x, m.kind = .followUp → s.ring.syncs.find? (fun y => y.port == a.port && y.seqId == m.seqId) = some x →
          SyncSeen.best s.ring.syncs x = true → s.ring.syncUsed ≠ some m.seqId →
          exec .ptp s = .next (((s.took rest).onRing (fun r => { r with syncUsed := some m.seqId })).useSync
            (roundDiv (ptpTime m + x.corr + s.rd (Fld.RING_P_DELAY_DELAY a.port) * 2 ^ 6) (2 ^ 14)) x.at_)) ∧
        (m.kind = .followUp → (s.ring.syncs.find? (fun y => y.port == a.port && y.seqId == m.seqId)).all (fun x =>
            !SyncSeen.best s.ring.syncs x || decide (s.ring.syncUsed = some m.seqId)) = true →
          exec .ptp s = .next (s.took rest))))) ∧
  (∀ (r d : Int) (at_ : Nat) (s : State), d = (if s.ring.ofsTaken then r - at_ - s.ringOfs else 0) →
    (s.useSync r at_).rd64 Reg.RING_OFS_LO = patternOf 64 (s.ringOfs +
      (if s.ring.ofsTaken then clampInt (-4) 4 (r - at_ - s.ringOfs) else r - at_ - s.ringOfs)) ∧
    (s.useSync r at_).ringLocked = (if 1600 < d.natAbs then false else s.ringLocked || (decide (d.natAbs ≤ 400) && decide (15 ≤ s.ring.goodSync))) ∧
    (s.useSync r at_).ring.goodSync = (if d.natAbs ≤ 400 then min (s.ring.goodSync + 1) 16 else 0) ∧
    (s.useSync r at_).ring.lastSync = s.tb.toNat ∧ tbIncLow ≤ (s.useSync r at_).tbInc ∧ (s.useSync r at_).tbInc ≤ tbIncHigh) ∧
  (∀ s : State, s.calm →
    (s.domOn .ring = true → s.on Fld.RING_PTP_STAT_MASTER_ACT = false → s.ring.lastSync + 1000000000 ≤ s.tb.toNat →
      ∃ t, exec .syncsMissing s = .next t ∧ t.ringLocked = false ∧ s.regsBut t [Reg.RING_PTP_STAT] ∧
        t = { s with regs := t.regs, ring := t.ring }) ∧
    (s.domOn .ring = false ∨ s.on Fld.RING_PTP_STAT_MASTER_ACT = true ∨ s.tb.toNat < s.ring.lastSync + 1000000000 →
      exec .syncsMissing s = .next s))

/-- Line services (R405, R406, R408 to R410, R423, R424): a PGO or VENC message whose time is not valid is discarded and counted, and so
is an edge that does not lie after the last one; an edge reaches the contexts bound to its VPGO input, with a gap in COUNT counted, a
sample its tracker. The due entries that publish share a message, and are due again when PER has passed. A virtual encoder with no sample
for TMO is lost and reported. A TRACK message is logged. A message no entry names, and a condition not met, change nothing more than the
inbox. -/
def Obligations.LineServices : Prop :=
  (∀ (a : Admitted) (rest : List Admitted) (relay pol count time : Nat) (s : State), s.calm → s.ring.inbox = a :: rest →
    a.frame.msg = .pgo relay pol count time →
    (s.timeValid a.frame = false →
      ∃ t, exec .pgo s = .next t ∧ t.rd Fld.RING_CNT_DISC_COUNT = min (s.rd Fld.RING_CNT_DISC_COUNT + 1) (2 ^ 32 - 1) ∧ t.ctxs = s.ctxs ∧
        t.ring.inbox = rest ∧ s.regsBut t [Reg.RING_CNT_DISC]) ∧
    (s.timeValid a.frame = true → (∀ j < 8, s.on (Fld.RING_PRX_EN j) = true → s.rd (Fld.RING_PRX_SRC j) = a.frame.src →
        s.rd (Fld.RING_PRX_ID j) ≠ relay) → exec .pgo s = .next (s.took rest)) ∧
    (s.timeValid a.frame = true → ∀ k : Fin 8,
      (∀ j < 8, (s.on (Fld.RING_PRX_EN j) = true ∧ s.rd (Fld.RING_PRX_SRC j) = a.frame.src ∧ s.rd (Fld.RING_PRX_ID j) = relay) ↔ j = k) →
      ∃ t, exec .pgo s = .next t ∧ Store.get (fun _ => none) t.ring.prxCount k = some count ∧
        t.rd Fld.RING_CNT_GAP_COUNT = (if (Store.get (fun _ => none) s.ring.prxCount k).any (fun c => decide (1 < (count + 65536 - c) % 65536))
          then min (s.rd Fld.RING_CNT_GAP_COUNT + 1) (2 ^ 32 - 1) else s.rd Fld.RING_CNT_GAP_COUNT) ∧
        ((Store.get (fun _ => none) s.ring.prxLast k).any (fun l => decide (s.fromRing time ≤ l)) = true →
          t.rd Fld.RING_CNT_DISC_COUNT = min (s.rd Fld.RING_CNT_DISC_COUNT + 1) (2 ^ 32 - 1) ∧ t.ctxs = s.ctxs) ∧
        ((Store.get (fun _ => none) s.ring.prxLast k).any (fun l => decide (s.fromRing time ≤ l)) = false →
          Store.get (fun _ => none) t.ring.prxLast k = some (s.fromRing time) ∧
          ∀ c < 255, (t.getCtx c).edges = (s.getCtx c).edges ++
            (if c ≠ 0 ∧ s.ctxState c ≠ 0 ∧ s.pgoSrc c = 32 + k.val then [s.fromRing time] else [])))) ∧
  (∀ (due : BitVec 8) (l : List Nat) (s : State), s.calm → l = (List.range 8).filter (fun i => due.getLsbD i && s.vtxDue i) →
    (s.domOn .ring = true → s.domOn .place = true → 2 ≤ s.ringVersion → l ≠ [] →
      ∃ t, exec (.vencPublish due) s = .next t ∧ (∀ i ∈ l, Store.get (fun _ => none) t.ring.vtxAt i = some s.tb.toNat) ∧
        (s.ringJoined = true → s.on Fld.RING_STAT_DUP = false → s.rportUp 0 = true → (s.getRport 0).crit.length < 32 →
          (t.getRport 0).crit = (s.getRport 0).crit ++ [s.ownFrame 64 0xFF s.ring.seq false (.venc (l.map s.vtxSample))])) ∧
    (s.domOn .ring = false ∨ s.domOn .place = false ∨ s.ringVersion < 2 ∨ l = [] → exec (.vencPublish due) s = .next s)) ∧
  (∀ (a : Admitted) (rest : List Admitted) (l : List (Nat × Nat × Nat)) (s : State), s.calm → s.ring.inbox = a :: rest →
    a.frame.msg = .venc l →
    (s.timeValid a.frame = false →
      ∃ t, exec .venc s = .next t ∧ t.rd Fld.RING_CNT_DISC_COUNT = min (s.rd Fld.RING_CNT_DISC_COUNT + 1) (2 ^ 32 - 1) ∧
        t.trackers = s.trackers ∧ t.ring.inbox = rest ∧ s.regsBut t [Reg.RING_CNT_DISC]) ∧
    (s.timeValid a.frame = true → (s.ringVersion < 2 ∨ l = []) → exec .venc s = .next (s.took rest)) ∧
    (∀ (x : Nat × Nat × Nat) (k : Fin 8), s.timeValid a.frame = true → x ∈ l → (∀ y ∈ l, y.1 = x.1 → y = x) → s.vrxActive k = true →
      s.rd (Fld.RING_VRX_SRC k) = a.frame.src → s.rd (Fld.RING_VRX_ID k) = x.1 →
      ∃ t, exec .venc s = .next t ∧ t.ring.inbox = rest ∧ k.val ∉ t.ring.vlost ∧ Store.get (fun _ => 0) t.ring.vrxAt k = s.tb.toNat ∧
        (s.domOn .place = true → (t.getTracker (16 + k)).meas = some (signedOf 48 x.2.1, s.fromRing x.2.2))) ∧
    (∀ k : Fin 8, s.timeValid a.frame = true → (s.vrxActive k = false ∨ s.rd (Fld.RING_VRX_SRC k) ≠ a.frame.src ∨
        s.rd (Fld.RING_VRX_ID k) ∉ l.map (fun x => x.1)) →
      ∃ t, exec .venc s = .next t ∧ t.ring.inbox = rest ∧ t.getTracker (16 + k) = s.getTracker (16 + k))) ∧
  (∀ (k : Fin 8) (s : State), s.calm →
    (s.domOn .ring = true → s.vrxActive k = true → s.vencLost k = false →
      Store.get (fun _ => 0) s.ring.vrxAt k + s.vrxTmo k ≤ s.tb.toNat →
      ∃ t, exec (.vencLost k) s = .next t ∧ k.val ∈ t.ring.vlost ∧
        t.rakeQ.map (fun r => r.src) = s.rakeQ.map (fun r => r.src) ++ [0x007]) ∧
    (s.domOn .ring = false ∨ s.vrxActive k = false ∨ s.vencLost k = true ∨
        s.tb.toNat < Store.get (fun _ => 0) s.ring.vrxAt k + s.vrxTmo k → exec (.vencLost k) s = .next s)) ∧
  (∀ (a : Admitted) (rest : List Admitted) (ctx kind status seq pos time e : Nat) (rej : Bool) (s : State), s.calm →
    s.ring.inbox = a :: rest → a.frame.msg = .track ctx kind status rej seq pos time → e = s.rd Fld.RING_TRK_WR_NEXT →
    ∃ t, exec .track s = .next t ∧ t.ring.inbox = rest ∧ t.rd Fld.RING_TRK_WR_NEXT = (e + 1) % 256 ∧
      t.rd Fld.RING_TRK_WR_TOTAL = (s.rd Fld.RING_TRK_WR_TOTAL + 1) % 2 ^ 24 ∧
      t.getReg (Reg.RING_TRK (8 * e)) = BitVec.ofNat 32 ((if s.timeValid a.frame then 2 ^ 31 else 0) + a.frame.src % 64 * 2 ^ 24 +
        ctx * 2 ^ 16 + status * 2 ^ 8 + (if rej then 4 else 0) + kind % 4) ∧
      t.getReg (Reg.RING_TRK (8 * e + 1)) = BitVec.ofNat 32 seq ∧ t.getReg (Reg.RING_TRK (8 * e + 2)) = BitVec.ofNat 32 (seq / 2 ^ 32 % 65536) ∧
      t.getReg (Reg.RING_TRK (8 * e + 3)) = BitVec.ofNat 32 pos ∧ t.getReg (Reg.RING_TRK (8 * e + 4)) = BitVec.ofNat 32 (pos / 2 ^ 32 % 65536) ∧
      t.getReg (Reg.RING_TRK (8 * e + 5)) = (if s.timeValid a.frame then BitVec.ofNat 32 (s.fromRing time) else 0) ∧
      s.regsBut t (Reg.RING_TRK_WR :: (List.range 8).map (fun i => Reg.RING_TRK (8 * e + i))))

/-- Rejects and votes (R411, R413, R423): a REJECT of a voter is kept as its vote, in place of its earlier one on the same SEQ and of the
oldest in a full store, and else is not; a reject that one relay entry matches queues its pulse, or drives it at once, counted, when it
comes too late, with no valid time or finds 64 waiting; a vote to accept drives none. A printed product whose deadline has passed takes
the outcome of the votes present and completes; a context with no product is unchanged. The oldest vote leaves after 10 s. -/
def Obligations.RejectsAndVotes : Prop :=
  (∀ (a : Admitted) (rest : List Admitted) (ctx vote status seq pos time : Nat) (l : List Vote) (kept : Bool) (s : State), s.calm → s.numbered →
    s.ring.inbox = a :: rest → a.frame.msg = .reject ctx vote status seq pos time →
    l = s.ring.votes.filter (fun x => !(x.station == a.frame.src && x.seq == seq)) →
    kept = (decide (s.ringVersion = 3) && (List.range 16).any (fun v => s.voteInUse v && (s.voters v).contains a.frame.src)) →
    ∃ t, exec .reject s = .next t ∧ t.ring.inbox = rest ∧
      t.ring.votes = (if kept then (if 1024 ≤ l.length then l.tail else l) ++ [⟨a.frame.src, seq, decide (vote = 1), s.tb.toNat⟩]
        else s.ring.votes) ∧
      t.rd Fld.RING_CNT_VOVF_COUNT = (if kept && decide (1024 ≤ l.length) then min (s.rd Fld.RING_CNT_VOVF_COUNT + 1) (2 ^ 32 - 1)
        else s.rd Fld.RING_CNT_VOVF_COUNT) ∧
      (vote ≠ 1 ∨ (∀ j < 16, s.relayMatches j a.frame.src ctx = false) → kept = false → t = s.took rest)) ∧
  (∀ (a : Admitted) (rest : List Admitted) (ctx status seq pos time : Nat) (i : Fin 16) (at_ : Int) (s : State), s.calm → s.numbered →
    s.ring.inbox = a :: rest → a.frame.msg = .reject ctx 1 status seq pos time →
    (∀ j < 16, s.relayMatches j a.frame.src ctx = true ↔ j = i) →
    at_ = pos48 (s.fwdOf (s.rd (Fld.RING_RRLY_A_POS_SRC i)) (s.on (Fld.RING_RRLY_A_DIR i)) (s.fromRing time) +
      s.rd (Fld.RING_RRLY_DELAY_DELAY i)) →
    (s.timeValid a.frame = true → (s.getRelay i).length < 64 →
        0 < travel (s.fwdOf (s.rd (Fld.RING_RRLY_A_POS_SRC i)) (s.on (Fld.RING_RRLY_A_DIR i)) s.dibNow) at_ →
      ∃ t, exec .reject s = .next t ∧ t.getRelay i = s.getRelay i ++ [⟨s.rd (Fld.RING_RRLY_A_POS_SRC i), s.on (Fld.RING_RRLY_A_DIR i), at_,
        s.rd (Fld.RING_RRLY_A_REJ_OUT i), max 1 (s.rd (Fld.RING_RRLY_WIDTH_WIDTH i))⟩] ∧
        t.rd Fld.RING_CNT_RLATE_COUNT = s.rd Fld.RING_CNT_RLATE_COUNT) ∧
    (s.timeValid a.frame = false ∨ 64 ≤ (s.getRelay i).length ∨
        travel (s.fwdOf (s.rd (Fld.RING_RRLY_A_POS_SRC i)) (s.on (Fld.RING_RRLY_A_DIR i)) s.dibNow) at_ ≤ 0 →
      ∃ t, exec .reject s = .next t ∧ t.getRelay i = s.getRelay i ∧
        t.rd Fld.RING_CNT_RLATE_COUNT = min (s.rd Fld.RING_CNT_RLATE_COUNT + 1) (2 ^ 32 - 1))) ∧
  (∀ (n : Fin 255) (x : Product) (v : Nat) (s : State), s.calm → (s.getCtx n).prods = [x] → x.ended = true → x.decided = false →
    x.status = some 1 → bitOf (dwAt x.job.dw 3) 18 = false → x.reject = false → x.rejOut = 0 → x.job.orphan = false →
    s.ringVersion = 3 → s.voteEntry n = some v → x.tpg + s.rd (Fld.RING_VOTE_DEADLINE_DEADLINE v) * 4000 ≤ s.dibNow → s.cqRoom →
    ∃ t c, exec (.voteDeadline n) s = .next t ∧ (t.getCtx n).prods = [] ∧ t.host.cqQueue = s.host.cqQueue ++ [c] ∧ c.status = 1 ∧
      c.ring = x.job.ring ∧ c.index = x.job.index ∧ bitOf c.dw3 7 = s.voteRejects v x.job.seqNum) ∧
  (∀ (n : Fin 255) (s : State), s.calm → (s.getCtx n).prods = [] → exec (.voteDeadline n) s = .next s) ∧
  (∀ s : State, s.calm →
    (∀ v l, s.ring.votes = v :: l → v.at_ + 40000000000 ≤ s.tb.toNat →
      ∃ t, exec .voteExpiry s = .next t ∧ t.ring.votes = l ∧ t = { s with ring := t.ring }) ∧
    (s.ring.votes.head?.all (fun v => decide (s.tb.toNat < v.at_ + 40000000000)) = true → exec .voteExpiry s = .next s))

/-- The management and service tunnels (R414 to R416, R422, R423): a mailbox of a COUNT that is not valid, on a station not joined, in
DUP or with no link, or to a station not on the roster ends at once with its RESULT; else it waits for its reply under a new TAG, its own
address served on the inner path; while BUSY a GO is ignored. A request that is malformed is answered ERROR, one that is not is executed
as the station's master and answered; a reply ends its mailbox, with its data or its STATUS, one that no mailbox waits for is discarded,
and no reply within MBX_TMO ends it with RESULT 1. A segment in order is taken and acknowledged, the one before it acknowledged again,
another neither; SYN opens, FIN closes, an ACK frees what it covers; the oldest not acknowledged for 20 ms is repeated, after 8 repeats
the session closes. What the condition of a time-out does not meet is unchanged. -/
def Obligations.RingTunnels : Prop :=
  (∀ (m : Master) (b : Fin 4) (v : Word) (msg : RingMsg) (s : State), s.calm → s.reaches (Reg.RING_MBX_CMD b) →
    msg = .mgmt (if bitOf v 26 then 2 else 1) s.ring.tag (bitsOf v 6 0) 0 (4 * s.rd (Fld.RING_MBX_ADDR_ADDR b))
      (if bitOf v 26 then (List.range (bitsOf v 6 0)).map (fun i => s.getReg (Reg.RING_MBX_DATA b i)) else []) →
    (s.on (Fld.RING_MBX_CMD_BUSY b) = true →
      ∃ t, exec (.mailboxGo m b v) s = .next t ∧ t.on (Fld.RING_MBX_CMD_BUSY b) = true ∧ t.rd (Fld.RING_MBX_CMD_COUNT b) = bitsOf v 6 0 ∧
        s.regsBut t [Reg.RING_MBX_CMD b] ∧ s.onlyRegs t) ∧
    (s.on (Fld.RING_MBX_CMD_BUSY b) = false →
      (∀ r, r = (if bitsOf v 6 0 = 0 ∨ 64 < bitsOf v 6 0 then 5
          else if s.ringJoined = false ∨ s.on Fld.RING_STAT_DUP = true ∨ (s.rportUp 0 = false ∧ s.rportUp 1 = false) then 3
          else if bitsOf v 21 16 ≠ s.ringAddr ∧ bitsOf v 21 16 ∉ s.roster then 4 else 0) →
        (r ≠ 0 → ∃ t, exec (.mailboxGo m b v) s = .next t ∧ t.on (Fld.RING_MBX_CMD_BUSY b) = false ∧
          t.rd (Fld.RING_MBX_CMD_RESULT b) = r ∧ s.regsBut t [Reg.RING_MBX_CMD b] ∧ t.ring.tag = s.ring.tag ∧ t.ring.ports = s.ring.ports) ∧
        (r = 0 → bitsOf v 21 16 ≠ s.ringAddr → ∃ t, exec (.mailboxGo m b v) s = .next t ∧ t.on (Fld.RING_MBX_CMD_BUSY b) = true ∧
          Store.get (fun _ => none) t.ring.mbx b = some (bitsOf v 21 16, s.ring.tag, s.tb.toNat) ∧ t.ring.tag = (s.ring.tag + 1) % 256 ∧
          (s.rportUp 0 = true → (s.getRport 0).bulk.length < 64 →
            (t.getRport 0).bulk = (s.getRport 0).bulk ++ [s.ownFrame 64 (bitsOf v 21 16) s.ring.seq false msg]) ∧
          (s.rportUp 1 = true → (s.getRport 1).bulk.length < 64 →
            (t.getRport 1).bulk = (s.getRport 1).bulk ++ [s.ownFrame 64 (bitsOf v 21 16) s.ring.seq true msg])) ∧
        (r = 0 → bitsOf v 21 16 = s.ringAddr → (s.ring.inbox.filter (fun a => isRequest a.frame.msg)).length < 16 →
          ∃ t, exec (.mailboxGo m b v) s = .next t ∧ t.on (Fld.RING_MBX_CMD_BUSY b) = true ∧
            Store.get (fun _ => none) t.ring.mbx b = some (s.ringAddr, s.ring.tag, s.tb.toNat) ∧
            t.ring.inbox = s.ring.inbox ++ [⟨0, s.tb.toNat, s.ownFrame 64 s.ringAddr 0 false msg⟩]) ∧
        (r = 0 → bitsOf v 21 16 = s.ringAddr → 16 ≤ (s.ring.inbox.filter (fun a => isRequest a.frame.msg)).length →
          ∃ t, exec (.mailboxGo m b v) s = .next t ∧ t.on (Fld.RING_MBX_CMD_BUSY b) = false ∧ t.rd (Fld.RING_MBX_CMD_RESULT b) = 2 ∧
            t.rd (Fld.RING_MBX_CMD_STATUS b) = 1 ∧ t.ring.inbox = s.ring.inbox)))) ∧
  (∀ (a : Admitted) (rest : List Admitted) (op tag count status addr : Nat) (data : List Word) (u : State) (s : State), s.calm →
    s.ring.inbox = a :: rest → a.frame.msg = .mgmt op tag count status addr data → u = s.took rest →
    (∀ b, op = 0x81 ∨ op = 0x82 ∨ op = 0xFF → s.mailboxOf a.frame.src tag = some b →
      ∃ t, exec .mgmt s = .next t ∧ t.ring.inbox = rest ∧ t.on (Fld.RING_MBX_CMD_BUSY b) = false ∧
        t.rd (Fld.RING_MBX_CMD_RESULT b) = (if op = 0xFF then 2 else 0) ∧ Store.get (fun _ => none) t.ring.mbx b = none ∧
        (op = 0xFF → t.rd (Fld.RING_MBX_CMD_STATUS b) = status % 4) ∧
        (op = 0x81 → ∀ i < min 64 data.length, t.getReg (Reg.RING_MBX_DATA b i) = data.getD i 0) ∧
        s.regsBut t (Reg.RING_MBX_CMD b :: (if op = 0x81 then (List.range 64).map (Reg.RING_MBX_DATA b) else []))) ∧
    (op = 0x81 ∨ op = 0x82 ∨ op = 0xFF → s.mailboxOf a.frame.src tag = none → exec .mgmt s = .next u) ∧
    (op = 0x01 ∨ op = 0x02 → count = 0 ∨ 64 < count ∨ addr % 4 ≠ 0 ∨ 0x0FFFFFFF < addr →
      exec .mgmt s = .next (u.sendReply a.frame.src (.mgmt 0xFF tag count 2 addr []))) ∧
    (op = 0x01 → mgmtBad count addr = false →
      exec .mgmt s = .next ((u.readMem (.tunnel (Fin.ofNat 64 a.frame.src)) addr (4 * count)).2.sendReply a.frame.src (.mgmt 0x81 tag count 0 addr
        ((u.readMem (.tunnel (Fin.ofNat 64 a.frame.src)) addr (4 * count)).1.map (fun r => r.2))))) ∧
    (op = 0x02 → mgmtBad count addr = false →
      exec .mgmt s = .next ((State.watch u (u.writeMem (.tunnel (Fin.ofNat 64 a.frame.src)) addr
        ((data.take count).flatMap wordBytes))).sendReply a.frame.src (.mgmt 0x82 tag count 0 addr []))) ∧
    (op ∉ [0x01, 0x02, 0x81, 0x82, 0xFF] → exec .mgmt s = .next u)) ∧
  (∀ (b : Fin 4) (s : State), s.calm →
    (∀ w, s.domOn .ring = true → Store.get (fun _ => none) s.ring.mbx b = some w → w.2.2 + s.mbxTmo ≤ s.tb.toNat →
      ∃ t, exec (.mailboxTimeout b) s = .next t ∧ t.on (Fld.RING_MBX_CMD_BUSY b) = false ∧ t.rd (Fld.RING_MBX_CMD_RESULT b) = 1 ∧
        Store.get (fun _ => none) t.ring.mbx b = none ∧ s.regsBut t [Reg.RING_MBX_CMD b] ∧ t = { s with regs := t.regs, ring := t.ring }) ∧
    (s.domOn .ring = false ∨ (Store.get (fun _ => none) s.ring.mbx b).all (fun w => decide (s.tb.toNat < w.2.2 + s.mbxTmo)) = true →
      exec (.mailboxTimeout b) s = .next s)) ∧
  (∀ (a : Admitted) (rest : List Admitted) (num kind sseq ack : Nat) (data : List Byte) (u : State) (s : State), s.calm →
    s.ring.inbox = a :: rest → a.frame.msg = .service num kind sseq ack data → u = s.took rest →
    (s.ringVersion < 2 ∨ (kind ≠ 1 ∧ s.loaderRuns = false) ∨ 3 < kind ∨ (s.findTunnel a.frame.src num = none ∧ (kind = 0 ∨ kind = 1)) →
      exec .service s = .next u) ∧
    (2 ≤ s.ringVersion → s.loaderRuns = true → kind = 3 →
      ∃ t, exec .service s = .next t ∧ t.ring.inbox = rest ∧ t.findTunnel a.frame.src num = none) ∧
    (2 ≤ s.ringVersion → s.loaderRuns = true → kind = 2 → s.findTunnel a.frame.src num = none →
      ∃ t, exec .service s = .next t ∧ t.ring.inbox = rest ∧
        t.findTunnel a.frame.src num = some ⟨a.frame.src, num, 0, (sseq + 1) % 65536, [], [], []⟩) ∧
    (∀ x, 2 ≤ s.ringVersion → s.findTunnel a.frame.src num = some x →
      (s.loaderRuns = true → kind = 2 → exec .service s = .next (u.ackSegment a.frame.src num sseq)) ∧
      (s.loaderRuns = true → kind = 0 → sseq = x.expect →
        ∃ t y, exec .service s = .next t ∧ t.findTunnel a.frame.src num = some y ∧ y.expect = (x.expect + 1) % 65536 ∧
          y.stream = x.stream ++ (data.take 1024).map (fun b => b.toNat) ∧ y.unacked = x.unacked ∧
          (s.ringJoined = true → s.on Fld.RING_STAT_DUP = false → s.domOn .ring = true → s.rportUp 0 = true →
            (s.getRport 0).bulk.length < 64 → (t.getRport 0).bulk = (s.getRport 0).bulk ++
              [s.ownFrame 64 a.frame.src s.ring.seq false (.service num 1 0 sseq [])])) ∧
      (s.loaderRuns = true → kind = 0 → sseq ≠ x.expect → (sseq + 1) % 65536 = x.expect →
        exec .service s = .next (u.ackSegment a.frame.src num sseq)) ∧
      (s.loaderRuns = true → kind = 0 → sseq ≠ x.expect → (sseq + 1) % 65536 ≠ x.expect → exec .service s = .next u) ∧
      (kind = 1 → x.waiting = [] → ∃ t y, exec .service s = .next t ∧ t.ring.inbox = rest ∧ t.findTunnel a.frame.src num = some y ∧
        y.unacked = afterAck ack x.unacked ∧ y.expect = x.expect ∧ y.stream = x.stream))) ∧
  (∀ (st : Fin 64) (num : Byte) (s : State), s.calm →
    (∀ x y l, s.findTunnel st num.toNat = some x → x.unacked = y :: l → y.sent + 80000000 ≤ s.tb.toNat →
      (y.repeats < 8 → ∃ t z, exec (.segmentRetransmit st num) s = .next t ∧ t.findTunnel st num.toNat = some z ∧
        z.unacked = { y with repeats := y.repeats + 1, sent := s.tb.toNat } :: l ∧
        (s.ringJoined = true → s.on Fld.RING_STAT_DUP = false → s.domOn .ring = true → s.rportUp 0 = true →
          (s.getRport 0).bulk.length < 64 → (t.getRport 0).bulk = (s.getRport 0).bulk ++
            [s.ownFrame 64 st s.ring.seq false (.service num.toNat 0 y.sseq x.expect y.data)])) ∧
      (8 ≤ y.repeats → ∃ t, exec (.segmentRetransmit st num) s = .next t ∧ t.findTunnel st num.toNat = none)) ∧
    ((s.findTunnel st num.toNat).all (fun x => x.unacked.head?.all (fun y => decide (s.tb.toNat < y.sent + 80000000))) = true →
      exec (.segmentRetransmit st num) s = .next s))

/-- Moves (R434, R435, R437, R438, R444, R446 to R451, R453): a MOVE or HOME that R453 refuses, or for which the token of Tiller is held
by another, completes with its status and changes nothing; one whose axis has frozen in the same update is complete with it. A POSITION
move sets the axis at rest moving to its target, replaces that of a moving axis with rev where it must reverse, takes a geared axis out
of gear, is complete at distance 0, sets each axis of a group moving, and is held with ON_PASS. GEAR follows a master encoder; SOFTSTOP
brakes what moves, ends a motion that has not begun and leaves what stands; HOME seeks from where it stands. With WAIT the command waits
for the axes. AXIS_CONFIG reads an image, checks it and writes the profile and EN. The row of another MODE, and one with no command next,
changes nothing. -/
def Obligations.Moves : Prop :=
  (∀ e ∈ [(Instr.movePosition, 0), (.moveGear, 1), (.moveSoftstop, 2)], ∀ s : State, s.calm →
    (∀ d : Desc, s.commanded 0x31 d → d.fld 2 9 8 = e.2 ∨ d.fld 2 9 8 = 3 → (s.moveRefusal d ≠ none ∨ s.mpMay 3 = false) →
      ∃ t, exec e.1 s = .next t ∧ s.answered t 0 d ((s.moveRefusal d).getD (0x12, 0)).1 ((s.moveRefusal d).getD (0x12, 0)).2 ∧ Told s t) ∧
    ((s.nextCommand 0x31).all (fun d => decide (d.fld 2 9 8 ≠ e.2) && decide (d.fld 2 9 8 ≠ 3)) = true → exec e.1 s = .next s)) ∧
  (∀ (d : Desc) (s : State), s.moves d 0 → d.fld 2 13 13 = 0 → s.anyFroze (moveAxes d) = true →
    ∃ t, exec .movePosition s = .next t ∧ Told s t ∧
      s.answered t 0 d 0 (s.moveResult d (if d.fld 2 12 12 = 1 then s.rd (Fld.AX_STAT_LAST ((moveAxes d).headD 0)) else 0))) ∧
  (∀ (d : Desc) (a : Nat) (g : Int) (s : State), s.moves d 0 → moveAxes d = [a] → d.fld 2 13 13 = 0 → (s.getAxis a).froze = false →
    g = s.targetOf a (decide (d.fld 2 14 14 = 1)) (signedOf 32 (dwAt d.dw (3 + a)).toNat) →
    (s.stands a = true → g ≠ (s.getAxis a).xact →
      ∃ t, exec .movePosition s = .next t ∧ t.axState a = 3 ∧ (t.getAxis a).target = g ∧ (t.getAxis a).prof = s.profile a ∧
        (t.getAxis a).tag = dwAt d.dw 1 ∧ (t.getAxis a).run = false ∧ (t.getAxis a).wait = decide (d.fld 2 12 12 = 1) ∧
        s.moveTaken t d [a] ∧ (∀ b < 8, b ≠ a → t.getAxis b = s.getAxis b) ∧
        s.regsBut t (Reg.AX_STAT a :: Reg.AX_XTGT a :: Reg.OWN 3 :: noticeWords)) ∧
    (s.stands a = true → g = (s.getAxis a).xact →
      ∃ t, exec .movePosition s = .next t ∧ s.answered t 0 d 0 (s.moveResult d 1) ∧ s.regsBut t noticeWords) ∧
    (s.axState a = 3 → ((s.getAxis a).run = true ∨ g * 65536 ≠ (s.getAxis a).x) →
      ∃ t, exec .movePosition s = .next t ∧ t.axState a = 3 ∧ (t.getAxis a).target = g ∧ (t.getAxis a).x = (s.getAxis a).x ∧
        (t.getAxis a).v = (s.getAxis a).v ∧ (t.getAxis a).prof = (s.getAxis a).prof ∧
        (t.getAxis a).rev = (if (s.getAxis a).run then { s.getAxis a with target := g }.mustReverse else (s.getAxis a).rev) ∧
        t.rd (Fld.AX_STAT_LAST a) = 2 ∧ s.moveTaken t d [a]) ∧
    (s.axState a = 3 → (s.getAxis a).run = false → g * 65536 = (s.getAxis a).x →
      ∃ t, exec .movePosition s = .next t ∧ CameToRest s t a 2 ∧ s.answered t 0 d 0 (t.moveResult d 1)) ∧
    (s.axState a = 4 →
      ∃ t, exec .movePosition s = .next t ∧ t.axState a = 3 ∧ (t.getAxis a).target = g ∧ (t.getAxis a).gear = none ∧
        (t.getAxis a).v = (s.vact a).natAbs ∧ (t.getAxis a).pos = decide (0 ≤ s.vact a) ∧ (t.getAxis a).run = true ∧
        (t.getAxis a).rev = true ∧ (t.getAxis a).prof = s.profile a ∧ t.rd (Fld.AX_STAT_LAST a) = 2 ∧ s.moveTaken t d [a])) ∧
  (∀ (d : Desc) (l : List Nat) (s : State), s.moves d 0 → l = moveAxes d → 2 ≤ l.length → d.fld 2 13 13 = 0 → s.anyFroze l = false →
    ((∃ a ∈ l, s.targetOf a (decide (d.fld 2 14 14 = 1)) (signedOf 32 (dwAt d.dw (3 + a)).toNat) ≠ (s.getAxis a).xact) →
      ∃ t, exec .movePosition s = .next t ∧ s.moveTaken t d l ∧ ∀ a ∈ l, t.axState a = 3 ∧ t.on (Fld.AX_STAT_GROUP a) = true ∧
        (t.getAxis a).group.isSome = true ∧
        (t.getAxis a).target = s.targetOf a (decide (d.fld 2 14 14 = 1)) (signedOf 32 (dwAt d.dw (3 + a)).toNat)) ∧
    ((∀ a ∈ l, s.targetOf a (decide (d.fld 2 14 14 = 1)) (signedOf 32 (dwAt d.dw (3 + a)).toNat) = (s.getAxis a).xact) →
      ∃ t, exec .movePosition s = .next t ∧ s.answered t 0 d 0 (s.moveResult d 1) ∧ s.regsBut t noticeWords)) ∧
  (∀ (d : Desc) (s : State), s.moves d 0 → d.fld 2 13 13 = 1 →
    ∃ t, exec .movePosition s = .next t ∧ s.moveTaken t d (moveAxes d) ∧ ∀ a ∈ moveAxes d, t.on (Fld.AX_STAT_HELD a) = true ∧
      t.axState a = s.axState a ∧
      (t.getAxis a).held = some ⟨moveTargets d, decide (d.fld 2 14 14 = 1), dwAt d.dw 1, decide (d.fld 2 12 12 = 1), d.fld 15 15 0⟩) ∧
  (∀ (d : Desc) (a : Nat) (s : State), s.moves d 1 → moveAxes d = [a] →
    ((s.getAxis a).froze = true → ∃ t, exec .moveGear s = .next t ∧ Told s t ∧ s.answered t 0 d 0 (s.moveResult d 0)) ∧
    ((s.getAxis a).froze = false → ∃ t g, exec .moveGear s = .next t ∧ t.axState a = 4 ∧ (t.getAxis a).gear = some g ∧ g.master = d.fld 11 3 0 ∧
      g.x0 = (s.getAxis a).x ∧ g.m0 = s.encCount (d.fld 11 3 0) ∧ g.r1 = signedOf 32 (dwAt d.dw 12).toNat ∧
      g.r2 = signedOf 32 (dwAt d.dw 13).toNat ∧ g.mpos = signedOf 32 (dwAt d.dw 14).toNat ∧
      g.side = signInt (diff32 g.m0 g.mpos) ∧ g.second = decide (g.m0 = g.mpos) ∧
      (s.stands a = false → t.rd (Fld.AX_STAT_LAST a) = 2) ∧ s.answered t 0 d 0 (s.moveResult d 0))) ∧
  (∀ (d : Desc) (a : Nat) (s : State), s.moves d 2 → moveAxes d = [a] →
    ((s.getAxis a).took = false → (s.axState a = 3 ∧ (s.getAxis a).group = none ∨ s.axState a = 5) → (s.getAxis a).run = true →
      ∃ t, exec .moveSoftstop s = .next t ∧ (t.getAxis a).rev = true ∧ (t.getAxis a).ending = 4 ∧ t.axState a = s.axState a ∧
        (t.getAxis a).wait = ((s.getAxis a).wait || decide (d.fld 2 12 12 = 1)) ∧ s.moveTaken t d [a] ∧
        s.regsBut t (Reg.OWN 3 :: noticeWords)) ∧
    ((s.getAxis a).took = false → (s.axState a = 3 ∧ (s.getAxis a).group = none ∨ s.axState a = 5) → (s.getAxis a).run = false →
      ∃ t, exec .moveSoftstop s = .next t ∧ CameToRest s t a 4 ∧ s.answered t 0 d 0 (t.moveResult d 0)) ∧
    (∀ g, (s.getAxis a).took = false → s.axState a = 3 → (s.getAxis a).group = some g → (s.getAxis g.1).run = true →
      ∃ t, exec .moveSoftstop s = .next t ∧ (t.getAxis g.1).rev = true ∧ (t.getAxis g.1).ending = 4 ∧ s.moveTaken t d [a]) ∧
    ((s.getAxis a).took = false → s.axState a = 4 →
      ∃ t, exec .moveSoftstop s = .next t ∧ t.axState a = 3 ∧ (t.getAxis a).gear = none ∧ (t.getAxis a).rev = true ∧ (t.getAxis a).run = true ∧
        (t.getAxis a).ending = 4 ∧ (t.getAxis a).v = (s.vact a).natAbs ∧ s.moveTaken t d [a]) ∧
    (s.axState a ∉ [3, 4, 5] → ∃ t, exec .moveSoftstop s = .next t ∧ s.answered t 0 d 0 (s.moveResult d 0) ∧ Told s t) ∧
    ((s.getAxis a).took = true → d.fld 2 12 12 = 0 →
      ∃ t, exec .moveSoftstop s = .next t ∧ s.answered t 0 d 0 (s.moveResult d 0) ∧ Told s t)) ∧
  (∀ (d : Desc) (s : State), s.commanded 0x32 d →
    (s.homeRefusal d ≠ none ∨ s.mpMay 3 = false →
      ∃ t, exec .home s = .next t ∧ s.answered t 0 d ((s.homeRefusal d).getD (0x12, 0)).1 ((s.homeRefusal d).getD (0x12, 0)).2 ∧ Told s t) ∧
    (s.homeRefusal d = none → s.mpMay 3 = true → (s.getAxis (d.fld 2 2 0)).froze = true →
      ∃ t, exec .home s = .next t ∧ s.answered t 0 d 0 (s.moveResult d (if d.fld 2 12 12 = 1 then 9 else 0)) ∧ Told s t) ∧
    (s.homeRefusal d = none → s.mpMay 3 = true → (s.getAxis (d.fld 2 2 0)).froze = false →
      ∃ t h, exec .home s = .next t ∧ t.axState (d.fld 2 2 0) = 5 ∧ (t.getAxis (d.fld 2 2 0)).home = some h ∧ h.back = false ∧
        h.pos = decide (d.fld 2 8 8 = 1) ∧ h.goal = signedOf 32 (dwAt d.dw 4).toNat ∧ h.backoff = (dwAt d.dw 5).toNat ∧
        h.blank = (dwAt d.dw 7).toNat ∧ h.cur = d.fld 2 23 16 ∧ h.start = (s.getAxis (d.fld 2 2 0)).xact ∧
        (t.getAxis (d.fld 2 2 0)).prof = { s.profile (d.fld 2 2 0) with cruise := (dwAt d.dw 3).toNat } ∧
        (t.getAxis (d.fld 2 2 0)).target = s.targetOf (d.fld 2 2 0) true
          (if d.fld 2 8 8 = 1 then ((dwAt d.dw 6).toNat : Int) else -((dwAt d.dw 6).toNat : Int)) ∧
        s.moveTaken t d [d.fld 2 2 0])) ∧
  (∀ s : State, s.calm → s.nextCommand 0x32 = none → exec .home s = .next s) ∧
  (∀ (src : HostRead) (c : MpCmd) (s : State), s.carries 0x30 c → c.desc.reservedSet (commandLayout [7, 0x10000, 0xFFFFFFFC, 0xFFFFFFFF]) = true →
    ∃ t, exec (.axisConfig src) s = .next t ∧ t.mp.cmd = none ∧ s.answered t 0 c.desc 0x10 1) ∧
  (∀ (src : HostRead) (c : MpCmd) (x : Fed) (a : Nat) (s v : State), s.carries 0x30 c →
    c.desc.reservedSet (commandLayout [7, 0x10000, 0xFFFFFFFC, 0xFFFFFFFF]) = false → a = c.desc.fld 2 2 0 →
    s.feed (bitOf (dwAt c.desc.dw 3) 16) (c.desc.wide 4) 64 c.fed src = (x, v) → v.cqRoom → v.host.cqQueue = s.host.cqQueue →
    (x.state = .failed → ∃ t, exec (.axisConfig src) s = .next t ∧ t.mp.cmd = none ∧ s.answered t 0 c.desc 0x10 5 ∧ t.axes = v.axes) ∧
    (x.state = .more → ∃ t, exec (.axisConfig src) s = .next t ∧ t.mp.cmd.map (fun k => (k.desc, k.fed)) = some (c.desc, x.bytes) ∧
      t.host.cqQueue = s.host.cqQueue) ∧
    (∀ r, x.state = .whole → r = (if (imageProfile x.bytes).valid = false then (0x10, 2)
        else if v.domOn .motion = false ∨ v.on Fld.TIL_STAT_SEQ_OK = false then (0x12, 0x10) else if v.mpMay 3 = false then (0x12, 0) else (0, 0)) →
      r.1 ≠ 0 → ∃ t, exec (.axisConfig src) s = .next t ∧ t.mp.cmd = none ∧ s.answered t 0 c.desc r.1 r.2 ∧ t.axes = v.axes) ∧
    (x.state = .whole → (imageProfile x.bytes).valid = true → v.domOn .motion = true → v.on Fld.TIL_STAT_SEQ_OK = true → v.mpMay 3 = true →
      ∃ t, exec (.axisConfig src) s = .next t ∧ t.mp.cmd = none ∧ s.answered t 0 c.desc 0 0 ∧ t.profile a = imageProfile x.bytes ∧
        t.on (Fld.AX_CFG_EN a) = decide (128 ≤ x.bytes.getD 3 0 % 256))) ∧
  (∀ (src : HostRead) (s : State), s.calm → s.loadCommand 0x30 = none → exec (.axisConfig src) s = .next s)

/-- The update, stops and the chopper (R428 to R432, R434, R437, R438, R440 to R442, R444, R446, R447): each µs an axis advances by its
profile and shows it, ends on arrival or halted by a soft stop, a follower keeps the proportion of its leader, a geared axis follows its
master or, at a speed over its cruise, is stopped and reported; an axis watched by its encoder shows its deviation and stalls where that
leaves the window. A stop request freezes an axis and its group, a soft stop sets rev or ends what has not begun; an on-phase that ends
coasts, the 64th that counts is a bridge fault; a coast that ends drives; rest follows its delay; a sample of the back-EMF gives LOAD,
its band, and a stall at the last of LOAD_RUN low ones in a row. LOAD at a speed of 0 is a free value (DESIGN CHOICE, log entry 1). A
condition not met changes nothing. -/
def Obligations.AxisUpdates : Prop :=
  (∀ (a : Fin 8) (y : Axis) (b : Bool) (w : Option Bool) (s : State), s.alone a → (s.getAxis a).advance = (y, b, w) → y.v < 2 ^ 31 →
    (s.axState a = 5 ∨ (s.axState a = 3 ∧ (s.getAxis a).group.all (fun g => decide (g.1 = a.val)) = true)) →
    (w = none → ∃ t, exec .profileUpdate s = .next t ∧ (t.getAxis a).x = y.x ∧ (t.getAxis a).v = y.v ∧ (t.getAxis a).pos = y.pos ∧
      t.axState a = s.axState a ∧ t.vact a = (if y.pos then (y.v : Int) else -y.v) ∧
      t.getReg (Reg.AX_XACT a) = BitVec.ofNat 32 (patternOf 32 y.xact) ∧
      t.on (Fld.AX_STAT_DECEL a) = (b || (s.on (Fld.AX_STAT_DECEL a) && y.run)) ∧
      (y.group = none → s.regsBut t [Reg.AX_XACT a, Reg.AX_MS a, Reg.AX_VACT a, Reg.AX_STAT a])) ∧
    (∀ e, w = some e → s.axState a = 3 → y.home = none → y.group = none →
      ∃ t, exec .profileUpdate s = .next t ∧ CameToRest s t a ((if e then 1 else y.ending) % 16) ∧
        (t.getAxis a).x = y.x / 65536 * 65536 ∧ t.getReg (Reg.AX_XACT a) = BitVec.ofNat 32 (patternOf 32 y.xact)) ∧
    (∀ e h, w = some e → s.axState a = 5 → y.home = some h → y.group = none →
      ∃ t, exec .profileUpdate s = .next t ∧ CameToRest s t a (if e then (if h.back then 8 else 9) else y.ending % 16) ∧
        (e = true → t.on (Fld.AX_STAT_POS_VALID a) = h.back))) ∧
  (∀ (a b : Fin 8) (y : Axis) (c : Bool) (sl dl st d : Int) (s : State), s.calm → s.domOn .motion = true → s.on Fld.TIL_STAT_SEQ_OK = true →
    (∀ k < 8, s.rd (Fld.AX_CFG_STALL_MODE k) ≠ 2) → (∀ k < 8, k ≠ a.val → k ≠ b.val → s.axState k ∉ [3, 4, 5]) → a ≠ b →
    s.axState a = 3 → s.axState b = 3 → (s.getAxis a).group = some (a.val, sl, dl) → (s.getAxis b).group = some (a.val, st, d) →
    (s.getAxis a).advance = (y, c, none) →
    ∃ t, exec .profileUpdate s = .next t ∧ (t.getAxis a).x = y.x ∧ t.axState b = 3 ∧
      (t.getAxis b).x = st + (if dl < 0 then roundDiv (-(d * (y.x - sl))) (-dl) else roundDiv (d * (y.x - sl)) dl)) ∧
  (∀ (a : Fin 8) (g : Gearing) (xn e : Int) (s : State), s.alone a → s.axState a = 4 → (s.getAxis a).gear = some g →
    (g.second = true ∨ g.side = 0 ∨ signInt (diff32 (s.encCount g.master) g.mpos) = g.side) →
    xn = g.x0 + (if g.second then g.r2 else g.r1) * diff32 (s.encCount g.master) g.m0 →
    e = signedOf 48 (patternOf 48 (xn - (s.getAxis a).x)) →
    (e.natAbs * 256 ≤ (s.getAxis a).prof.cruise → e.natAbs < 2 ^ 22 →
      ∃ t, exec .profileUpdate s = .next t ∧ (t.getAxis a).x = signedOf 48 (patternOf 48 xn) ∧ t.axState a = 4 ∧ t.vact a = e * 256 ∧
        s.regsBut t [Reg.AX_XACT a, Reg.AX_MS a, Reg.AX_VACT a]) ∧
    ((s.getAxis a).prof.cruise < e.natAbs * 256 → (s.getAxis a).froze = false →
      ∃ t, exec .profileUpdate s = .next t ∧ Froze s t a 7 false ∧
        t.rakeQ.map (fun r => r.src) = s.rakeQ.map (fun r => r.src) ++ [0x220 + a.val])) ∧
  (∀ (a : Fin 8) (g : Gearing) (s : State), s.alone a → s.axState a = 4 → (s.getAxis a).gear = some g →
    g.second = false → g.side ≠ 0 → signInt (diff32 (s.encCount g.master) g.mpos) ≠ g.side → (s.getAxis a).froze = false →
    (s.getAxis a).prof.cruise < 2 ^ 31 →
    ∃ t, exec .profileUpdate s = .next t ∧
      (t.axState a = 4 → t.rd (Fld.AX_STAT_LAST a) = 10 ∧
        (t.getAxis a).gear = some { g with x0 := g.x0 + g.r1 * diff32 g.mpos g.m0, m0 := g.mpos, second := true })) ∧
  (∀ (a : Fin 8) (s : State), s.calm → s.domOn .motion = true → s.on Fld.TIL_STAT_SEQ_OK = true →
    (∀ c < 8, s.axState c ∉ [3, 4, 5]) → (∀ c < 8, c ≠ a.val → s.rd (Fld.AX_CFG_STALL_MODE c) ≠ 2) →
    s.rd (Fld.AX_CFG_STALL_MODE a) = 2 → s.axState a ≠ 0 → (s.getAxis a).home = none → (s.getAxis a).group = none →
    ((s.devOf a).natAbs ≤ max 1 (s.rd (Fld.AX_STALL_WINDOW a)) ∨ (s.getAxis a).strayed = true →
      ∃ t, exec .profileUpdate s = .next t ∧ t.rd (Fld.AX_LOAD_DEV a) = patternOf 16 (clampInt (-32767) 32767 (s.devOf a)) ∧
        (t.getAxis a).strayed = decide (max 1 (s.rd (Fld.AX_STALL_WINDOW a)) < (s.devOf a).natAbs) ∧ s.regsBut t [Reg.AX_LOAD a]) ∧
    (max 1 (s.rd (Fld.AX_STALL_WINDOW a)) < (s.devOf a).natAbs → (s.getAxis a).strayed = false →
      ∃ t, exec .profileUpdate s = .next t ∧ t.rd (Fld.AX_CNT_STALLS a) = min (s.rd (Fld.AX_CNT_STALLS a) + 1) (2 ^ 16 - 1) ∧
        t.rakeQ.map (fun r => r.src) = s.rakeQ.map (fun r => r.src) ++ [0x210 + a.val] ∧
        (s.on (Fld.AX_CFG_STALL_STOP a) = true → Froze s t a 6 false) ∧
        (s.on (Fld.AX_CFG_STALL_STOP a) = false → t.axState a = s.axState a ∧ t.rd (Fld.AX_STAT_LAST a) = 6))) ∧
  (∀ s : State, s.calm → (s.domOn .motion = false ∨ s.on Fld.TIL_STAT_SEQ_OK = false) → exec .profileUpdate s = .next s) ∧
  (∀ (m : Master) (a : Fin 8) (v : Word) (s : State), s.calm → s.reaches (Reg.AX_CTL a) →
    ((s.axState a = 0 ∨ (s.getAxis a).froze = true) → (s.getAxis a).group = none → exec (.axisStop m a v) s = .next s) ∧
    (∀ b : Fin 8, b.val ∈ s.together a → s.axState b ≠ 0 → (s.getAxis b).froze = false →
      ∃ t, exec (.axisStop m a v) s = .next t ∧ Froze s t b 3 false ∧ (t.getAxis b).froze = true) ∧
    (∀ b : Fin 8, b.val ∉ s.together a → ∃ t, exec (.axisStop m a v) s = .next t ∧ t.getAxis b = s.getAxis b ∧ t.axState b = s.axState b)) ∧
  (∀ (m : Master) (v : Word) (a : Fin 8) (s : State), s.calm → s.reaches Reg.TIL_CTL →
    (s.axState a ≠ 0 → (s.getAxis a).froze = false → ∃ t, exec (.stopAll m v) s = .next t ∧ Froze s t a 3 false) ∧
    (s.axState a = 0 ∨ (s.getAxis a).froze = true → ∃ t, exec (.stopAll m v) s = .next t ∧ t.getAxis a = s.getAxis a ∧
      t.axState a = s.axState a)) ∧
  (∀ (m : Master) (a : Fin 8) (v : Word) (s : State), s.calm → s.reaches (Reg.AX_CTL a) →
    (bitOf v 31 = true → exec (.axisSoftstop m a v) s = exec (.axisStop m a v) s) ∧
    (bitOf v 31 = false → bitOf v 29 = true → exec (.axisSoftstop m a v) s = exec (.setPos m a (v ||| 0x40000000)) s) ∧
    (bitOf v 31 = false → bitOf v 29 = false →
      ((s.getAxis a).took = true ∨ s.axState a ∉ [3, 4, 5] → exec (.axisSoftstop m a v) s = .next s) ∧
      ((s.getAxis a).took = false → (s.axState a = 3 ∧ (s.getAxis a).group = none ∨ s.axState a = 5) → (s.getAxis a).run = true →
        ∃ t, exec (.axisSoftstop m a v) s = .next t ∧ (t.getAxis a).rev = true ∧ (t.getAxis a).ending = 4 ∧ s.regsBut t [] ∧
          t = { s with axes := t.axes }) ∧
      ((s.getAxis a).took = false → (s.axState a = 3 ∧ (s.getAxis a).group = none ∨ s.axState a = 5) → (s.getAxis a).run = false →
        ∃ t, exec (.axisSoftstop m a v) s = .next t ∧ CameToRest s t a 4) ∧
      (∀ g, (s.getAxis a).took = false → s.axState a = 3 → (s.getAxis a).group = some g → (s.getAxis g.1).run = true →
        ∃ t, exec (.axisSoftstop m a v) s = .next t ∧ (t.getAxis g.1).rev = true ∧ (t.getAxis g.1).ending = 4 ∧ s.regsBut t []) ∧
      ((s.getAxis a).took = false → s.axState a = 4 →
        ∃ t, exec (.axisSoftstop m a v) s = .next t ∧ t.axState a = 3 ∧ (t.getAxis a).gear = none ∧ (t.getAxis a).rev = true ∧
          (t.getAxis a).ending = 4 ∧ (t.getAxis a).v = (s.vact a).natAbs ∧ s.regsBut t [Reg.AX_STAT a]))) ∧
  (∀ (a : Fin 8) (coilB : Bool) (how : PhaseEnd) (c : Coil) (b : Bool) (s : State), s.calm → c = (s.getAxis a).coil coilB →
    (c.bridge ≠ .drive true ∧ c.bridge ≠ .drive false ∨ s.tb.toNat < c.at_ + s.onTime a how → exec (.onPhaseEnd a coilB how) s = .next s) ∧
    (c.bridge = .drive b → c.at_ + s.onTime a how ≤ s.tb.toNat →
      (s.coilCounts a coilB = false → c.opens < 64 → c.shorts < 64 →
        ∃ t, exec (.onPhaseEnd a coilB how) s = .next t ∧ ((t.getAxis a).coil coilB).bridge = .coast ∧
          ((t.getAxis a).coil coilB).opens = c.opens ∧ ((t.getAxis a).coil coilB).shorts = c.shorts ∧
          t = { s with axes := t.axes, out := t.out }) ∧
      (s.coilCounts a coilB = true → (how = .limit → c.opens < 63) → (how = .atMask → c.shorts < 63) →
        ∃ t, exec (.onPhaseEnd a coilB how) s = .next t ∧ ((t.getAxis a).coil coilB).bridge = .coast ∧
          ((t.getAxis a).coil coilB).opens = (if how = .limit then c.opens + 1 else 0) ∧
          ((t.getAxis a).coil coilB).shorts = (if how = .atMask then c.shorts + 1 else 0) ∧ t = { s with axes := t.axes, out := t.out }) ∧
      (s.coilCounts a coilB = true → (how = .limit ∧ c.opens = 63) ∨ (how = .atMask ∧ c.shorts = 63) → (s.getAxis a).group = none →
        s.axState a ≠ 0 →
        ∃ t, exec (.onPhaseEnd a coilB how) s = .next t ∧ t.rakeQ.map (fun r => r.src) = s.rakeQ.map (fun r => r.src) ++ [0x218 + a.val] ∧
          Froze s t a 7 true ∧ ((t.getAxis a).coil coilB).bridge = .off))) ∧
  (∀ (a : Fin 8) (coilB : Bool) (c : Coil) (s : State), s.calm → c = (s.getAxis a).coil coilB →
    (c.bridge = .coast → c.at_ + s.coast a ≤ s.tb.toNat →
      ∃ t, exec (.offPhaseEnd a coilB) s = .next t ∧ ((t.getAxis a).coil coilB).bridge = bridgeFor (s.coilEntry a coilB) ∧
        t = { s with axes := t.axes, out := t.out }) ∧
    (c.bridge ≠ .coast ∨ s.tb.toNat < c.at_ + s.coast a → exec (.offPhaseEnd a coilB) s = .next s)) ∧
  (∀ (a : Fin 8) (s : State), s.calm →
    (s.axState a = 1 → (s.getAxis a).stood + s.rd (Fld.AX_CFG_REST_DLY a) * 4000000 ≤ s.tb.toNat →
      ∃ t, exec (.restDelay a) s = .next t ∧ t.axState a = 2 ∧ (t.getAxis a).cur = .rest ∧ s.regsBut t [Reg.AX_STAT a] ∧
        t = { s with regs := t.regs, axes := t.axes }) ∧
    (s.axState a ≠ 1 ∨ s.tb.toNat < (s.getAxis a).stood + s.rd (Fld.AX_CFG_REST_DLY a) * 4000000 → exec (.restDelay a) s = .next s)) ∧
  (∀ (a : Fin 8) (coilB : Bool) (e : BitVec 12) (c : Coil) (l : Nat) (s : State), s.calm → c = (s.getAxis a).coil coilB →
    l = (if s.vact a = 0 then (Config.freeWord s.free).toNat % 65536 else
      min 65535 (roundDiv (e.toInt.natAbs * 2 ^ 56) (s.rd (Fld.AX_BEMFK_BEMF_K a) * (s.vact a).natAbs : Nat)).toNat) →
    (c.sense = false ∨ s.tb.toNat < c.at_ + s.senseTime a → exec (.bemfSample a coilB e) s = .next s) ∧
    (c.sense = true → c.at_ + s.senseTime a ≤ s.tb.toNat →
      (s.rd (Fld.AX_BEMFK_BEMF_K a) = 0 → ∃ t, exec (.bemfSample a coilB e) s = .next t ∧
        ((t.getAxis a).coil coilB).bridge = bridgeFor (s.coilEntry a coilB) ∧ ((t.getAxis a).coil coilB).sense = false ∧
        t = { s with axes := t.axes, out := t.out }) ∧
      (s.rd (Fld.AX_BEMFK_BEMF_K a) ≠ 0 → s.bandOf a (s.vact a).natAbs = none →
        ∃ t, exec (.bemfSample a coilB e) s = .next t ∧ ((t.getAxis a).coil coilB).bridge = bridgeFor (s.coilEntry a coilB) ∧
          t.rd (Fld.AX_LOAD_LOAD a) = l ∧ s.regsBut t [Reg.AX_LOAD a]) ∧
      (∀ k, s.rd (Fld.AX_BEMFK_BEMF_K a) ≠ 0 → s.bandOf a (s.vact a).natAbs = some k →
        (s.rd (Fld.AX_BAND_MIN_LOAD_MIN a k) ≤ l → ∃ t, exec (.bemfSample a coilB e) s = .next t ∧ t.rd (Fld.AX_LOAD_LOAD a) = l ∧
          t.rd (Fld.AX_STAT_BAND a) = k ∧ (t.getAxis a).low = 0 ∧
          t.rd (Fld.AX_CNT_XTRAP a) = (if (l < s.rd (Fld.AX_BAND_CAL_CAL_LO a k) ∨ s.rd (Fld.AX_BAND_CAL_CAL_HI a k) < l) ∧
            (s.getAxis a).xtrap = false then min (s.rd (Fld.AX_CNT_XTRAP a) + 1) (2 ^ 16 - 1) else s.rd (Fld.AX_CNT_XTRAP a))) ∧
        (l < s.rd (Fld.AX_BAND_MIN_LOAD_MIN a k) → (s.getAxis a).home = none →
          (s.getAxis a).low + 1 < max 1 (s.rd (Fld.AX_STALL_LOAD_RUN a)) →
          ∃ t, exec (.bemfSample a coilB e) s = .next t ∧ (t.getAxis a).low = (s.getAxis a).low + 1 ∧ t.rd (Fld.AX_LOAD_LOAD a) = l ∧
            s.regsBut t [Reg.AX_LOAD a, Reg.AX_STAT a]) ∧
        (l < s.rd (Fld.AX_BAND_MIN_LOAD_MIN a k) → (s.getAxis a).home = none → (s.getAxis a).group = none →
          max 1 (s.rd (Fld.AX_STALL_LOAD_RUN a)) ≤ (s.getAxis a).low + 1 → s.axState a ≠ 0 →
          ∃ t, exec (.bemfSample a coilB e) s = .next t ∧ (t.getAxis a).low = 0 ∧
            t.rd (Fld.AX_CNT_STALLS a) = min (s.rd (Fld.AX_CNT_STALLS a) + 1) (2 ^ 16 - 1) ∧
            t.rakeQ.map (fun r => r.src) = s.rakeQ.map (fun r => r.src) ++ [0x210 + a.val] ∧
            (s.on (Fld.AX_CFG_STALL_STOP a) = true → Froze s t a 6 false)))))

/-- The housekeeping round (R459, R462 to R467, R472): the channel that is next and due is sampled. A supply or self-check sample is
shown; a channel not fitted shows its code alone; a good sample of a temperature channel is its value in use, and each level acts on the
third in a row beyond it and lets go on the third below its hysteresis; the third faulted one marks the channel BROKEN, the third good
one repairs it; the third far from the reference of its neighbours substitutes that, the third near ends it. A die that comes to SHUTDOWN
is reported and shuts its domains down, a head is reported. A sample of an invalid round updates nothing but the round; channel 95 ends
the round, and the tenth invalid one breaks every channel. After a die shutdown MGMT and HK go off together. A condition not met changes
nothing. What follows for the ports is `State.watchKeep`. -/
def Obligations.Housekeeping : Prop :=
  (∀ (c : Fin 96) (code : BitVec 12) (conv : Int) (ok : Bool) (s : State), s.calm →
    (s.domOn .hk = false ∨ s.sampleDue c = false → exec (.channelSample c code conv ok) s = .next s) ∧
    (s.domOn .hk = true → s.sampleDue c = true → c.val ≠ 95 →
      ∃ u, exec (.channelSample c code conv false) s = .next (State.watchKeep s true u) ∧ u.round.bad = true ∧
        u.round.next = (c.val + 1) % 96 ∧ u = { s with round := u.round })) ∧
  (∀ (c : Fin 96) (code : BitVec 12) (conv v : Int) (x : HkChan) (s : State), s.calm → s.domOn .hk = true → s.sampleDue c = true → c.val ≠ 95 →
    x = s.getChan c → v = s.convert c code.toNat conv →
    (56 ≤ c.val → ∃ u, exec (.channelSample c code conv true) s = .next (State.watchKeep s true u) ∧ u.round.next = (c.val + 1) % 96 ∧
      u.rd (Fld.HK_CH_RAW_CODE c) = code.toNat ∧ u.rd (Fld.HK_CH_VAL_VALUE c) = patternOf 16 v ∧ (u.getChan c).value = some v ∧
      s.regsBut u [Reg.HK_CH_RAW c, Reg.HK_CH_VAL c]) ∧
    (c.val < 56 → s.fitted c = false → ∃ u, exec (.channelSample c code conv true) s = .next (State.watchKeep s true u) ∧
      u.rd (Fld.HK_CH_RAW_CODE c) = code.toNat ∧ s.regsBut u [Reg.HK_CH_RAW c] ∧ u = { s with regs := u.regs, round := u.round }) ∧
    (c.val < 56 → s.fitted c = true → s.sampleFault c code.toNat v x = false → x.broken = false → x.subst = false → s.chanRef c = none →
      x.up.length = 3 → x.dn.length = 3 → x.act.length = 3 →
      ∃ u, exec (.channelSample c code conv true) s = .next (State.watchKeep s true u) ∧ (u.getChan c).value = some v ∧
        (u.getChan c).own = some v ∧ (u.getChan c).bad = 0 ∧ u.rd (Fld.HK_CH_VAL_VALUE c) = patternOf 16 v ∧
        u.on (Fld.HK_CH_VAL_BROKEN c) = false ∧
        ∀ k < 3, (u.getChan c).act.getD k false =
          (if s.chanLimit c k < v ∧ 2 ≤ x.up.getD k 0 then true else if v < s.chanLimit c k - s.hyst c ∧ 2 ≤ x.dn.getD k 0 then false
            else x.act.getD k false)) ∧
    (c.val < 56 → s.fitted c = true → s.sampleFault c code.toNat v x = true → x.bad = 2 → x.broken = false →
      ∃ u, exec (.channelSample c code conv true) s = .next (State.watchKeep s true u) ∧ (u.getChan c).broken = true ∧
        (u.getChan c).own = none ∧ u.on (Fld.HK_CH_VAL_BROKEN c) = true) ∧
    (c.val < 56 → s.fitted c = true → s.sampleFault c code.toNat v x = true → x.bad < 2 → x.broken = false →
      ∃ u, exec (.channelSample c code conv true) s = .next (State.watchKeep s true u) ∧ (u.getChan c).broken = false ∧
        (u.getChan c).bad = x.bad + 1 ∧ (u.getChan c).own = none ∧ (x.subst = false → s.chanRef c = none → (u.getChan c).value = x.value)) ∧
    (c.val < 56 → s.fitted c = true → s.sampleFault c code.toNat v x = false → x.good = 2 → x.broken = true →
      ∃ u, exec (.channelSample c code conv true) s = .next (State.watchKeep s true u) ∧ (u.getChan c).broken = false ∧
        u.on (Fld.HK_CH_VAL_BROKEN c) = false ∧ (u.getChan c).own = some v) ∧
    (∀ r, c.val < 56 → s.fitted c = true → s.sampleFault c code.toNat v x = false → x.broken = false → s.chanRef c = some r →
      (x.subst = false → x.far = 2 → (192 < v - r ∨ 192 < r - v) →
        ∃ u, exec (.channelSample c code conv true) s = .next (State.watchKeep s true u) ∧ (u.getChan c).subst = true ∧
          (u.getChan c).value = some r ∧ u.on (Fld.HK_CH_VAL_SUBST c) = true) ∧
      (x.subst = true → x.near = 2 → v - r ≤ 192 → r - v ≤ 192 →
        ∃ u, exec (.channelSample c code conv true) s = .next (State.watchKeep s true u) ∧ (u.getChan c).subst = false ∧
          (u.getChan c).value = some v ∧ u.on (Fld.HK_CH_VAL_SUBST c) = false)) ∧
    (c.val < 24 → s.fitted c = true → s.sampleFault c code.toNat v x = false → x.broken = false → x.subst = false → s.chanRef c = none →
      2000 < v → x.up.length = 3 → x.up.getD 2 0 = 2 → x.act.length = 3 → s.rd Fld.HK_STAT_DIE_STATE ≠ 3 →
      ∃ u, exec (.channelSample c code conv true) s = .next (State.watchKeep s true u) ∧ u.rd Fld.HK_STAT_DIE_STATE = 3 ∧
        u.pcr.dieShut = true ∧ (u.rakeQ.map (fun r => r.src)).contains 0x000 = true ∧ ∀ d ∈ shutDomains, u.domOn d = false) ∧
    (40 ≤ c.val → c.val < 56 → s.fitted c = true → s.sampleFault c code.toNat v x = false → x.broken = false → x.subst = false →
      s.chanLimit c 2 < v → x.up.length = 3 → x.up.getD 2 0 = 2 → x.act.length = 3 → s.chanLevel c ≠ 3 →
      ∃ u, exec (.channelSample c code conv true) s = .next (State.watchKeep s true u) ∧ u.chanLevel c = 3 ∧
        u.rakeQ.map (fun r => r.src) = s.rakeQ.map (fun r => r.src) ++ [0x050 + (c.val - 40)])) ∧
  (∀ (code : BitVec 12) (conv : Int) (ok : Bool) (s : State), s.calm → s.domOn .hk = true → s.sampleDue 95 = true →
    ∃ u, exec (.channelSample 95 code conv ok) s = .next (State.watchKeep s true u) ∧ u.round.next = 0 ∧
      u.rd Fld.HK_CNT_ROUND_COUNT = (s.rd Fld.HK_CNT_ROUND_COUNT + 1) % 2 ^ 32 ∧ u.on Fld.HK_STAT_INVALID = (s.round.bad || !ok) ∧
      u.round.bad = false ∧ u.round.runs = (if s.round.bad = true ∨ ok = false then min 10 (s.round.runs + 1) else 0) ∧
      ((s.round.bad = true ∨ ok = false) → s.round.runs = 9 → ∀ c < 56, s.fitted c = true → (u.getChan c).broken = true)) ∧
  (∀ s : State, s.calm →
    (s.pcr.dieShut = true → s.pcr.start = none →
      ∃ t, exec .dieShutdownFinal s = .next t ∧ t.domOn .mgmt = false ∧ t.domOn .hk = false) ∧
    (s.pcr.dieShut = false ∨ s.pcr.start.isSome = true → exec .dieShutdownFinal s = .next s))

/-- Reports (R480 to R482, R484, R486 to R490, R496, R502, R585): the next report at AON whose tine is not lost is counted by source and
class, latched when the latch is free, pulses ERR_N as its class does, begins its level, and a fatal one puts its scope in FAULT with its
contexts FAULTED, or, latching first with ON_FATAL set, freezes the controller; one of an absent source is dropped. A level ends; a lost
tine is reported; ERR_N's pulse ends, and RELEASE lets the pin go once none runs; CLR_FIRST frees the latch; a write of RAKE_INJ_CTL
arms, replaces or ends an injection. A condition not met changes nothing. -/
def Obligations.Reports : Prop :=
  (∀ (r : Report) (rest : List Report) (cls sc : Nat) (s : State), s.calm → firstReport s.reportWaits s.rakeQ = some (r, rest) →
    cls = s.reportClass r → sc = r.scope (s.rd (Fld.RAKE_SRC_CFG_SCOPE r.src)) →
    (s.sourcePresent r.src = false →
      ∃ t, exec .rakeReport s = .next t ∧ t.rakeQ = rest ∧ t.regs = s.regs ∧ t.rake = s.rake ∧ t.ctxs = s.ctxs) ∧
    (s.sourcePresent r.src = true → (s.on Fld.HF_CFG_ON_FATAL = false ∨ s.on Fld.RAKE_FIRST_SRC_VALID = true ∨ cls ≠ 3) →
      ∃ u, exec .rakeReport s = .next (State.watchKeep s true u) ∧ u.rakeQ = rest ∧
        u.rd (Fld.RAKE_SRC_CNT_COUNT r.src) = min (s.rd (Fld.RAKE_SRC_CNT_COUNT r.src) + 1) (2 ^ 16 - 1) ∧
        (cls = 1 → u.rd Fld.RAKE_CNT_CORR_COUNT = min (s.rd Fld.RAKE_CNT_CORR_COUNT + 1) (2 ^ 32 - 1)) ∧
        (cls = 2 → u.rd Fld.RAKE_CNT_CONT_COUNT = min (s.rd Fld.RAKE_CNT_CONT_COUNT + 1) (2 ^ 32 - 1)) ∧
        (cls = 3 → u.rd Fld.RAKE_CNT_FATAL_COUNT = min (s.rd Fld.RAKE_CNT_FATAL_COUNT + 1) (2 ^ 32 - 1)) ∧
        (cls ≠ 0 → s.on Fld.RAKE_FIRST_SRC_VALID = false → u.on Fld.RAKE_FIRST_SRC_VALID = true ∧ u.rd Fld.RAKE_FIRST_SRC_SRC = r.src ∧
          u.rd Fld.RAKE_FIRST_SRC_CLASS = cls ∧ u.rd64 Reg.RAKE_FIRST_TB_LO = r.tb.toNat ∧ u.getReg Reg.RAKE_FIRST_SYND_LO = r.synd ∧
          u.getReg Reg.RAKE_FIRST_SYND_HI = BitVec.ofNat 32 r.high) ∧
        (cls ≠ 0 → s.on Fld.RAKE_FIRST_SRC_VALID = true → u.on Fld.RAKE_FIRST_SRC_OVF = true ∧
          u.rd Fld.RAKE_FIRST_SRC_SRC = s.rd Fld.RAKE_FIRST_SRC_SRC) ∧
        ((cls = 3 ∨ (cls = 2 ∧ s.on Fld.RAKE_CFG_ERRN_CONT = true) ∨ (cls = 1 ∧ s.on Fld.RAKE_CFG_ERRN_CORR = true)) →
          u.on Fld.RAKE_ERRN_LOW = true ∧ (s.on Fld.RAKE_ERRN_LOW = false → u.rake.pulse = some s.tb.toNat)) ∧
        (r.level = true → u.rake.levels = s.rake.levels ++ [⟨r.src, r.synd.toNat, r.rail, sc⟩]) ∧
        (cls = 3 → sc ∈ scopeNumbers → s.scopeState sc = 0 → u.scopeState sc = 1 ∧ Store.get (fun _ => 0) u.rake.quiet sc = s.tb.toNat ∧
          (∀ c < 255, s.ctxState c ≠ 0 → sc ∈ s.ctxScopes c → u.ctxState c = 5))) ∧
    (s.sourcePresent r.src = true → s.on Fld.HF_CFG_ON_FATAL = true → s.on Fld.RAKE_FIRST_SRC_VALID = false → cls = 3 →
      ∃ t, exec .rakeReport s = .next t ∧ t.hf.active = true ∧ t.rd Fld.HF_STAT_CAUSE = 3 ∧ t.on Fld.RAKE_FIRST_SRC_VALID = true ∧
        t.rd Fld.RAKE_FIRST_SRC_SRC = r.src)) ∧
  (∀ s : State, s.calm → firstReport s.reportWaits s.rakeQ = none → exec .rakeReport s = .next s) ∧
  (∀ (src : Fin 1024) (low : Word) (rail : Bool) (s : State), s.calm →
    (∀ l, s.rake.levels.find? (fun l => decide (l.src = src.val) && decide (l.low = low.toNat) && decide (l.rail = rail) && s.levelOver l) = some l →
      ∃ t, exec (.levelReportEnd src low rail) s = .next t ∧ t.rake.levels = s.rake.levels.erase l ∧
        Store.get (fun _ => 0) t.rake.quiet l.scope = s.tb.toNat ∧ s.regsBut t [Reg.RAKE_SRC_CNT src] ∧
        t = { s with regs := t.regs, rake := t.rake }) ∧
    (s.rake.levels.find? (fun l => decide (l.src = src.val) && decide (l.low = low.toNat) && decide (l.rail = rail) && s.levelOver l) = none →
      exec (.levelReportEnd src low rail) s = .next s)) ∧
  (∀ (i : Fin 27) (due : Bool) (s : State), s.calm →
    due = (decide (i.val ≠ 0) && s.domOn (islandDomain i) && !s.islandStopped i && !s.tineLost i &&
      !s.rakeQ.any (fun r => decide (r.src = 2) && decide (r.synd.toNat = i.val) && r.level) &&
      (decide (i.val < 6 ∨ 21 < i.val) || s.portPresent (i.val - 6))) →
    (due = true → ∃ t r, exec (.tineLost i) s = .next t ∧ t.rakeQ = s.rakeQ ++ [r] ∧ r.src = 2 ∧ r.synd.toNat = i.val ∧ r.level = true ∧
      r.tb = s.tb ∧ t = { s with rakeQ := t.rakeQ }) ∧
    (due = false → exec (.tineLost i) s = .next s)) ∧
  (∀ s : State,
    (∀ p, s.rake.pulse = some p → p + s.errPulse ≤ s.tb.toNat →
      ∃ t, exec .errNPulseEnd s = .next t ∧ t.on Fld.RAKE_ERRN_LOW = s.on Fld.RAKE_ERRN_HOLD ∧ t.rake.pulse = none ∧ s.regsBut t [Reg.RAKE_ERRN]) ∧
    (s.rake.pulse.all (fun p => decide (s.tb.toNat < p + s.errPulse)) = true → exec .errNPulseEnd s = .next s)) ∧
  (∀ (m : Master) (v : Word) (s : State), s.calm → s.reaches Reg.RAKE_ERRN →
    ∃ t, exec (.errNRelease m v) s = .next t ∧ t.on Fld.RAKE_ERRN_LOW = (s.rake.pulse.isSome && s.on Fld.RAKE_ERRN_LOW) ∧
      t.on Fld.RAKE_ERRN_HOLD = bitOf v 31 ∧ s.regsBut t [Reg.RAKE_ERRN] ∧ s.onlyRegs t) ∧
  (∀ (m : Master) (v : Word) (s : State), s.calm → s.reaches Reg.RAKE_CTL →
    ∃ t, exec (.clrFirst m v) s = .next t ∧ t.on Fld.RAKE_FIRST_SRC_VALID = false ∧ t.on Fld.RAKE_FIRST_SRC_OVF = false ∧
      s.regsBut t [Reg.RAKE_FIRST_SRC] ∧ s.onlyRegs t) ∧
  (∀ (m : Master) (v : Word) (s : State), s.hf.active = false → s.injDue [0x200] = false → s.injDue [0x201] = false → s.reaches Reg.RAKE_INJ_CTL →
    ∃ t, exec (.injectionArm m v) s = .next t ∧ t.on Fld.RAKE_INJ_CTL_ARMED = decide (bitsOf v 31 30 = 1 ∨ bitsOf v 31 30 = 2) ∧
      t.rd Fld.RAKE_INJ_CTL_SRC = bitsOf v 9 0 ∧ s.regsBut t [Reg.RAKE_INJ_CTL] ∧ t = { s with regs := t.regs, injLast := none })

/-- Fault scopes (R282, R489 to R493): CLEAR returns a scope to OK with an empty history, and one with a level report still asserted goes
to FAULT again; FORCE puts an OK one in FAULT; a number that is no scope, a scope already there and that of an absent port take neither.
Each ms Thaw returns a scope in FAULT whose quiet period has passed, counting the recovery, latches one at its limit, and leaves every
other. What follows for the ports is `State.watchKeep`. -/
def Obligations.FaultScopes : Prop :=
  (∀ (m : Master) (sc : Fin 1024) (s : State), s.calm → s.reaches (Reg.RAKE_SCOPE sc) →
    (sc.val ∈ scopeNumbers → s.scopeRetired sc = false → s.scopeState sc ≠ 0 →
      s.rake.levels.find? (fun l => decide (l.scope = sc.val)) = none →
      ∃ u, exec (.scopeClear m sc) s = .next (State.watchKeep s true u) ∧ u.scopeState sc = 0 ∧
        Store.get (fun _ => []) u.rake.hist sc = [] ∧ (∀ k ∈ scopeNumbers, k ≠ sc.val → u.scopeState k = s.scopeState k)) ∧
    (∀ l, sc.val ∈ scopeNumbers → s.scopeRetired sc = false → s.scopeState sc ≠ 0 →
      s.rake.levels.find? (fun l => decide (l.scope = sc.val)) = some l →
      ∃ u, exec (.scopeClear m sc) s = .next (State.watchKeep s true u) ∧ u.scopeState sc = 1 ∧
        Store.get (fun _ => []) u.rake.hist sc = [] ∧ Store.get (fun _ => 0) u.rake.quiet sc = s.tb.toNat) ∧
    (sc.val ∈ scopeNumbers → s.scopeRetired sc = false → s.scopeState sc = 0 →
      ∃ u, exec (.scopeForce m sc) s = .next (State.watchKeep s true u) ∧ u.scopeState sc = 1 ∧
        Store.get (fun _ => 0) u.rake.quiet sc = s.tb.toNat ∧ (∀ c < 255, s.ctxState c ≠ 0 → sc.val ∈ s.ctxScopes c → u.ctxState c = 5)) ∧
    (sc.val ∉ scopeNumbers ∨ s.scopeRetired sc = true ∨ s.scopeState sc = 0 →
      exec (.scopeClear m sc) s = .next (State.watchKeep s true s)) ∧
    (sc.val ∉ scopeNumbers ∨ s.scopeRetired sc = true ∨ s.scopeState sc ≠ 0 →
      exec (.scopeForce m sc) s = .next (State.watchKeep s true s))) ∧
  (∀ s : State, s.calm →
    ∃ u, exec .thawTick s = .next (State.watchKeep s true u) ∧ ∀ sc ∈ scopeNumbers,
      (s.scopeState sc = 1 → s.thawQuiet sc ≠ 0 → s.scopeHeld sc = false →
        Store.get (fun _ => 0) s.rake.quiet sc + s.thawQuiet sc ≤ s.tb.toNat →
        ((s.recoveries sc).length < s.thawLimit sc → u.scopeState sc = 0 ∧
          u.rd (Fld.RAKE_SCOPE_RECOV_CNT sc) = min (s.rd (Fld.RAKE_SCOPE_RECOV_CNT sc) + 1) (2 ^ 16 - 1) ∧
          Store.get (fun _ => []) u.rake.hist sc = s.recoveries sc ++ [s.tb.toNat]) ∧
        (s.thawLimit sc ≤ (s.recoveries sc).length → u.scopeState sc = 2)) ∧
      (s.scopeState sc ≠ 1 ∨ s.thawQuiet sc = 0 ∨ s.scopeHeld sc = true ∨
          s.tb.toNat < Store.get (fun _ => 0) s.rake.quiet sc + s.thawQuiet sc → u.scopeState sc = s.scopeState sc))

/-- The programming engine (R504, R516, R519 to R521, R525, R588): a GO is refused with its RESULT or begins the word, and one while BUSY
leaves the word under way; the word ends with the RESULT of its verify, in a freeze too, but not while a scan runs, and a spare takes the
place of one that fails; a supply that leaves its range cuts the pulse; a lock is sticky; a scan judges every region and changes nothing
in force. The order of the refusals is that of R636. The commands of the two stores (R50, R522 to R524, R551, R553, R595): OTP_PROGRAM
checks every word, then starts the first under token 1; at the end of a word its command counts it and starts the next, completes, or
ends with the status that NO_SPARE or WINDOW calls for. OTP_LOCK sets locks until the next load, or programs the lock word.
SETTINGS_WRITE writes its entry, and while the flash works stays in execution under token 2; SETTINGS_READ gives the value that stands,
or none. Each refusal has its status and RESULT, and a command that is not due changes nothing. -/
def Obligations.OtpAndStore : Prop :=
  (∀ (m : Master) (v : Word) (vqps core : Bool) (s u : State), s.calm → s.reaches Reg.PF_PROG_CTL → u = s.senseSupplies vqps core →
    (s.on Fld.PF_PROG_CTL_BUSY = false →
      ∃ t, exec (.programWord m v vqps core) s = .next t ∧ t.rd Fld.PF_PROG_CTL_ADDR = bitsOf v 9 0 ∧ t.on Fld.PF_STAT_VQPS_OK = vqps ∧
        t.otp.core = core ∧
        (∀ r, u.wordRefused (bitsOf v 9 0) (s.rd64 Reg.PF_PROG_DATA_LO) = some r → t.rd Fld.PF_PROG_CTL_RESULT = r ∧
          t.on Fld.PF_PROG_CTL_BUSY = false ∧ t.otp.prog = s.otp.prog) ∧
        (u.wordRefused (bitsOf v 9 0) (s.rd64 Reg.PF_PROG_DATA_LO) = none → t.on Fld.PF_PROG_CTL_BUSY = true ∧
          t.otp.prog = some ⟨bitsOf v 9 0, s.rd64 Reg.PF_PROG_DATA_LO, false, false, none⟩) ∧
        s.regsBut t [Reg.PF_PROG_CTL, Reg.PF_STAT] ∧ t = { s with regs := t.regs, otp := t.otp }) ∧
    (s.on Fld.PF_PROG_CTL_BUSY = true →
      ∃ t, exec (.programWord m v vqps core) s = .next t ∧ t.rd Fld.PF_PROG_CTL_ADDR = bitsOf v 9 0 ∧ t.on Fld.PF_STAT_VQPS_OK = vqps ∧
        t.on Fld.PF_PROG_CTL_BUSY = true ∧ t.rd Fld.PF_PROG_CTL_RESULT = s.rd Fld.PF_PROG_CTL_RESULT ∧ t.otp = u.otp ∧
        s.regsBut t [Reg.PF_PROG_CTL, Reg.PF_STAT] ∧ t = { s with regs := t.regs, otp := t.otp })) ∧
  (∀ (w data : Nat) (s : State), s.otpWindow = true → otpRegion w = none → s.wordRefused w data = some 5) ∧
  (∀ (w data r : Nat) (s : State), otpRegion w = some r →
    (s.rd Fld.PF_LOCK_SET_LOCK).testBit r = true → ¬ (0x061 ≤ w ∧ w ≤ 0x064) → s.wordRefused w data = some 3) ∧
  (∀ (w data : Nat) (s : State), s.wordLocked w = false → s.otpWindow = false → s.wordRefused w data = some 4) ∧
  (∀ (w data k : Nat) (s : State), s.otpWindow = true → (∀ i < 4, s.otpWord true (0x061 + i) < 2 ^ 64) → 0x061 ≤ w → w ≤ 0x064 → data < 2 ^ 64 → 0 < k → k < 64 → data.testBit k = true →
    data.testBit (k - 1) = false → (s.otpWord true w).testBit (k - 1) = false → s.wordRefused w data = some 6) ∧
  (∀ (x : OtpWord) (strict lenient : Nat) (s : State), x.data < 2 ^ 64 →
    (x.data &&& (s.otpWord false x.addr ||| (strict &&& x.data)) = x.data →
      (s.verifyWord x strict lenient).1 = (if x.cut then 4 else 0)) ∧
    (x.data &&& (s.otpWord false x.addr ||| (strict &&& x.data)) ≠ x.data →
      (x.cut = true → (s.verifyWord x strict lenient).1 = 4) ∧
      (x.cut = false → (∀ e < 16, s.spareUsed e = true) → x.addr < 0x3EF → (s.verifyWord x strict lenient).1 = 2) ∧
      (∀ e, x.cut = false → x.addr < 0x3EF → (otpRegion x.addr).isSome = true → e < 16 → s.spareUsed e = false →
        (∀ k < e, s.spareUsed k = true) → (s.verifyWord x strict lenient).1 = 1 ∧
        (s.verifyWord x strict lenient).2.otpRaw true (1024 + e) = s.otpWord true x.addr ||| x.data ∧
        (s.otpRaw false (0x3F0 + e) = 0 → (s.verifyWord x strict lenient).2.entryTarget e = some x.addr))) ∧
    (x.cut = true ∨ x.data &&& (s.otpWord false x.addr ||| (strict &&& x.data)) = x.data → x.addr < 0x3EF →
      (s.verifyWord x strict lenient).2.otpWord false x.addr = s.otpWord false x.addr ||| (strict &&& x.data) ∧
      (s.verifyWord x strict lenient).2.regs = s.regs)) ∧
  (∀ (strict lenient : BitVec 64) (x : OtpWord) (r : Nat) (s v : State), s.otp.prog = some x → x.ended = none →
    s.on Fld.PF_SCAN_STAT_BUSY = false → s.verifyWord x strict.toNat lenient.toNat = (r, v) → r < 8 →
    (x.mp = false → s.hf.active = true ∨ s.mp.cmd = none →
      ∃ t, exec (.programWordDone strict lenient) s = .next t ∧ t.otp = { v.otp with prog := none } ∧ t.on Fld.PF_PROG_CTL_BUSY = false ∧
        t.rd Fld.PF_PROG_CTL_RESULT = r ∧ v.regsBut t [Reg.PF_PROG_CTL] ∧ t = { v with regs := t.regs, otp := t.otp }) ∧
    (x.mp = true → s.hf.active = true →
      ∃ t, exec (.programWordDone strict lenient) s = .next t ∧ t.otp = { v.otp with prog := some { x with ended := some r } } ∧
        t.on Fld.PF_PROG_CTL_BUSY = false ∧ t.rd Fld.PF_PROG_CTL_RESULT = r ∧ v.regsBut t [Reg.PF_PROG_CTL] ∧ t.mp = s.mp)) ∧
  (∀ (strict lenient : BitVec 64) (s : State),
    (s.otp.prog = none → exec (.programWordDone strict lenient) s = .next s) ∧
    (∀ x, s.otp.prog = some x → x.ended.isSome = true ∨ s.on Fld.PF_SCAN_STAT_BUSY = true →
      exec (.programWordDone strict lenient) s = .next s)) ∧
  (∀ (vqps : Bool) (s : State),
    ∃ t, exec (.programmingSupplyLeftRange vqps) s = .next t ∧ t.otp.prog = s.otp.prog.map (fun x => { x with cut := true }) ∧
      (vqps = true → t.on Fld.PF_STAT_VQPS_OK = false ∧ t.otp.core = s.otp.core) ∧
      (vqps = false → t.otp.core = false ∧ t.regs = s.regs) ∧ s.regsBut t [Reg.PF_STAT] ∧ t = { s with regs := t.regs, otp := t.otp }) ∧
  (∀ (m : Master) (v : Word) (s : State), s.calm → s.reaches Reg.PF_CTL →
    ∃ t, exec (.marginScan m v) s = .next t ∧ t.on Fld.PF_SCAN_STAT_BUSY = true ∧ s.regsBut t [Reg.PF_SCAN_STAT] ∧ s.onlyRegs t) ∧
  (∀ s : State,
    (s.on Fld.PF_SCAN_STAT_BUSY = false → exec .scanComplete s = .next s) ∧
    (s.on Fld.PF_SCAN_STAT_BUSY = true →
      ∃ t, exec .scanComplete s = .next t ∧ t.on Fld.PF_SCAN_STAT_BUSY = false ∧ t.on Fld.PF_SCAN_STAT_DONE = true ∧
        t.on Fld.PF_SCAN_STAT_TABLE_MARG = (s.lockOdd || (List.range 16).any (fun e => decide (marginalBits (s.otpRaw false (0x3F0 + e))
          (s.otpRaw true (0x3F0 + e)) ≠ 0))) ∧
        (∀ r < 8, t.getReg (Reg.PF_SCAN r) = (s.judgeRegion r).reg (s.permLocks.testBit r)) ∧
        s.regsBut t (Reg.PF_SCAN_STAT :: (List.range 8).map Reg.PF_SCAN) ∧ s.onlyRegs t)) ∧
  (∀ (m : Master) (v : Word) (s : State), s.calm → s.reaches Reg.PF_LOCK_SET →
    ∃ t, exec (.lockSet m v) s = .next t ∧ t.rd Fld.PF_LOCK_SET_LOCK = s.rd Fld.PF_LOCK_SET_LOCK ||| bitsOf v 7 0 ∧
      s.regsBut t [Reg.PF_LOCK_SET] ∧ s.onlyRegs t) ∧
  (∀ (src : HostRead) (flash : FlashAnswer) (vqps core ok : Bool) (s : State), s.calm →
    (s.loadCommand 0x50 = none ∨ s.mp.cmd.any (fun c => !c.left.isEmpty) = true → exec (.otpProgram src vqps core) s = .next s) ∧
    (s.nextCommand 0x51 = none → exec (.otpLock vqps core) s = .next s) ∧
    (s.loadCommand 0x60 = none → exec (.settingsWrite src flash) s = .next s) ∧
    (s.nextCommand 0x61 = none → exec (.settingsRead ok) s = .next (State.watch s s))) ∧
  (∀ (src : HostRead) (vqps core : Bool) (c : MpCmd) (s u : State), s.carries 0x50 c → c.left = [] → u = s.senseSupplies vqps core →
    otpShapeBad c.desc = true ∨ (otpAddrs c.desc).any u.wordLocked = true →
    ∃ t, exec (.otpProgram src vqps core) s = .next t ∧ t.mp.cmd = none ∧
      s.answered t 0 c.desc 0x10 (if otpShapeBad c.desc = true then 1 else 2) ∧ t.otp = u.otp) ∧
  (∀ (src : HostRead) (vqps core : Bool) (c : MpCmd) (x : Fed) (l : List Nat) (s u v : State), s.carries 0x50 c → c.left = [] →
    u = s.senseSupplies vqps core → otpShapeBad c.desc = false → (otpAddrs c.desc).any u.wordLocked = false →
    u.feed (bitOf (dwAt c.desc.dw 2) 31) (c.desc.wide 4) (8 * c.desc.fld 3 10 0) c.fed src = (x, v) → v.mp = s.mp → v.otp = u.otp →
    v.host.cqQueue = s.host.cqQueue → v.cqRoom →
    l = (otpAddrs c.desc).zipIdx.map (fun w => otpItem w.1 (leNat (sliceOf x.bytes (8 * w.2) 8))) →
    (x.state = .failed → ∃ t, exec (.otpProgram src vqps core) s = .next t ∧ t.mp.cmd = none ∧ s.answered t 0 c.desc 0x10 5 ∧ t.otp = u.otp) ∧
    (x.state = .more → ∃ t, exec (.otpProgram src vqps core) s = .next t ∧
      t.mp.cmd.map (fun k => (k.desc, k.left, k.fed)) = some (c.desc, [], x.bytes) ∧ t.host.cqQueue = s.host.cqQueue ∧ t.otp = u.otp) ∧
    (x.state = .whole → v.listOrder l = true →
      ∃ t, exec (.otpProgram src vqps core) s = .next t ∧ t.mp.cmd = none ∧ s.answered t 0 c.desc 0x10 3 ∧ t.otp = u.otp) ∧
    (x.state = .whole → v.listOrder l = false → bitOf (dwAt c.desc.dw 2) 30 = true → v.crcAutoBad l = true →
      ∃ t, exec (.otpProgram src vqps core) s = .next t ∧ t.mp.cmd = none ∧ s.answered t 0 c.desc 0x10 4 ∧ t.otp = u.otp) ∧
    (x.state = .whole → v.listOrder l = false → bitOf (dwAt c.desc.dw 2) 30 = false ∨ v.crcAutoBad l = false →
      (v.otpWindow = false → ∃ t, exec (.otpProgram src vqps core) s = .next t ∧ t.mp.cmd = none ∧ s.answered t 0 c.desc 0x16 0 ∧
        t.otp = u.otp) ∧
      (v.otpWindow = true → v.mpMay 1 = false →
        ∃ t, exec (.otpProgram src vqps core) s = .next t ∧ t.mp.cmd = none ∧ s.answered t 0 c.desc 0x12 0 ∧ t.otp = u.otp) ∧
      (v.otpWindow = true → v.mpMay 1 = true →
        ∃ t, exec (.otpProgram src vqps core) s = .next t ∧ t.holder 1 = 2 ∧ t.host.cqQueue = s.host.cqQueue ∧
          t.mp.cmd.map (fun k => (k.desc, k.done, k.left)) = some (c.desc, 0, if bitOf (dwAt c.desc.dw 2) 30 = true then
            l ++ [otpItem (0x1000 + (otpRegion (c.desc.fld 2 9 0)).getD 0) 0] else l) ∧
          (s.otp.prog = none → t.on Fld.PF_PROG_CTL_BUSY = true ∧
            t.otp.prog = some ⟨c.desc.fld 2 9 0, leNat (sliceOf x.bytes 0 8) % 2 ^ 64, false, true, none⟩) ∧
          (s.otp.prog ≠ none → t.otp = u.otp)))) ∧
  (∀ (vqps core : Bool) (d : Desc) (s u : State), s.commanded 0x51 d → u = s.senseSupplies vqps core →
    (d.reservedSet (commandLayout [0x1FF]) = true → ∃ t, exec (.otpLock vqps core) s = .next t ∧ s.answered t 0 d 0x10 1 ∧ t.otp = u.otp ∧
      s.regsBut t (Reg.PF_STAT :: noticeWords)) ∧
    (d.reservedSet (commandLayout [0x1FF]) = false → u.otpWindow = false →
      ∃ t, exec (.otpLock vqps core) s = .next t ∧ s.answered t 0 d 0x16 0 ∧ t.otp = u.otp ∧ s.regsBut t (Reg.PF_STAT :: noticeWords)) ∧
    (d.reservedSet (commandLayout [0x1FF]) = false → u.otpWindow = true → s.mpMay 1 = false →
      ∃ t, exec (.otpLock vqps core) s = .next t ∧ s.answered t 0 d 0x12 0 ∧ t.otp = u.otp ∧ s.regsBut t (Reg.PF_STAT :: noticeWords)) ∧
    (d.reservedSet (commandLayout [0x1FF]) = false → u.otpWindow = true → s.mpMay 1 = true → bitOf (dwAt d.dw 2) 8 = false →
      ∃ t, exec (.otpLock vqps core) s = .next t ∧ s.answered t 0 d 0 1 ∧
        t.rd Fld.PF_LOCK_SET_LOCK = s.rd Fld.PF_LOCK_SET_LOCK ||| d.fld 2 7 0 ∧ t.otp = u.otp ∧
        s.regsBut t (Reg.PF_LOCK_SET :: Reg.PF_STAT :: noticeWords)) ∧
    (d.reservedSet (commandLayout [0x1FF]) = false → u.otpWindow = true → s.mpMay 1 = true → bitOf (dwAt d.dw 2) 8 = true →
      ∃ t, exec (.otpLock vqps core) s = .next t ∧ t.holder 1 = 2 ∧ t.host.cqQueue = s.host.cqQueue ∧
        t.mp.cmd.map (fun k => (k.desc, k.done, k.left)) = some (d, 0, [otpItem 0x3EF (d.fld 2 7 0 * 0x10101)]) ∧
        t.rd Fld.PF_LOCK_SET_LOCK = s.rd Fld.PF_LOCK_SET_LOCK ∧
        (s.otp.prog = none → t.on Fld.PF_PROG_CTL_BUSY = true ∧ t.otp.prog = some ⟨0x3EF, d.fld 2 7 0 * 0x10101, false, true, none⟩) ∧
        (s.otp.prog ≠ none → t.otp = u.otp))) ∧
  (∀ (strict lenient : BitVec 64) (x : OtpWord) (c : MpCmd) (a r done : Nat) (rest : List Nat) (s v : State), s.hf.active = false →
    s.otp.prog = some x → x.ended = none → x.mp = true → s.on Fld.PF_SCAN_STAT_BUSY = false → s.mp.cmd = some c → s.mp.running = true →
    c.desc.index < orphanMark → s.cqRoom → s.verifyWord x strict.toNat lenient.toNat = (r, v) → v.host.cqQueue = s.host.cqQueue →
    (c.desc.opcode = 0x50 → r = 2 → ∃ t, exec (.programWordDone strict lenient) s = .next t ∧ t.mp.cmd = none ∧ t.otp.prog = none ∧
      s.answered t 0 c.desc 0x10 c.done ∧ t.rd Fld.PF_PROG_CTL_RESULT = 2) ∧
    (c.desc.opcode = 0x50 → r = 4 → ∃ t, exec (.programWordDone strict lenient) s = .next t ∧ t.mp.cmd = none ∧ t.otp.prog = none ∧
      s.answered t 0 c.desc 0x16 c.done ∧ t.rd Fld.PF_PROG_CTL_RESULT = 4) ∧
    (c.desc.opcode = 0x50 → r < 2 → c.left.length ≤ 1 → done = c.done + (if r = 1 then 65537 else 1) →
      ∃ t, exec (.programWordDone strict lenient) s = .next t ∧ t.mp.cmd = none ∧ t.otp.prog = none ∧ s.answered t 0 c.desc 0 done ∧
        t.on Fld.PF_PROG_CTL_BUSY = false) ∧
    (∀ b, c.desc.opcode = 0x50 → r < 2 → c.left = a :: b :: rest → done = c.done + (if r = 1 then 65537 else 1) →
      otpItemWord b < 0x1000 → v.wordRefused (otpItemWord b) (otpItemData b) = none → otpItemWord b ≠ 0x3EF →
      ∃ t, exec (.programWordDone strict lenient) s = .next t ∧ t.mp.cmd = some { c with done := done, left := b :: rest } ∧
        t.otp.prog = some ⟨otpItemWord b, otpItemData b, false, true, none⟩ ∧ t.on Fld.PF_PROG_CTL_BUSY = true ∧
        t.host.cqQueue = s.host.cqQueue) ∧
    (∀ b, c.desc.opcode = 0x50 → r < 2 → c.left = a :: b :: rest → done = c.done + (if r = 1 then 65537 else 1) →
      otpItemWord b < 0x1000 → v.wordRefused (otpItemWord b) (otpItemData b) = some 4 → otpItemWord b ≠ 0x3EF →
      ∃ t, exec (.programWordDone strict lenient) s = .next t ∧ t.mp.cmd = none ∧ t.otp.prog = none ∧ s.answered t 0 c.desc 0x16 done) ∧
    (c.desc.opcode = 0x51 → v.permLocks &&& c.desc.fld 2 7 0 = c.desc.fld 2 7 0 →
      ∃ t, exec (.programWordDone strict lenient) s = .next t ∧ t.mp.cmd = none ∧ t.otp.prog = none ∧
        s.answered t 0 c.desc (if r = 4 then 0x16 else 0) 1 ∧
        t.rd Fld.PF_LOCK_SET_LOCK = v.rd Fld.PF_LOCK_SET_LOCK ||| c.desc.fld 2 7 0) ∧
    (c.desc.opcode = 0x51 → v.permLocks &&& c.desc.fld 2 7 0 ≠ c.desc.fld 2 7 0 →
      ∃ t, exec (.programWordDone strict lenient) s = .next t ∧ t.mp.cmd = none ∧ t.otp.prog = none ∧
        s.answered t 0 c.desc (if r = 4 then 0x16 else 0x10) 0 ∧ t.rd Fld.PF_LOCK_SET_LOCK = v.rd Fld.PF_LOCK_SET_LOCK)) ∧
  (∀ (src : HostRead) (c : MpCmd) (s : State), s.carries 0x60 c → c.left = flashWorks → s.mp.cmd = some c →
    (exec (.settingsWrite src .busy) s = .next s) ∧
    (∃ t, exec (.settingsWrite src .done) s = .next t ∧ t.mp.cmd = none ∧ s.answered t 0 c.desc 0 1 ∧
      t.nor = (s.writeSetting s.settingsCopy (c.desc.fld 2 15 0) s.settingsFmt c.fed).nor) ∧
    (∃ t, exec (.settingsWrite src .failed) s = .next t ∧ t.mp.cmd = none ∧ s.answered t 0 c.desc 0x10 5 ∧
      t.rakeQ.map (fun r => r.src) = s.rakeQ.map (fun r => r.src) ++ [0x20B])) ∧
  (∀ (src : HostRead) (flash : FlashAnswer) (c : MpCmd) (s : State), s.carries 0x60 c → c.left = [] →
    c.desc.reservedSet (commandLayout [0x80FFFFFF, 0, 0xFFFFFFFF, 0xFFFFFFFF]) = true ∨ c.desc.fld 2 15 0 = 0 ∨ c.desc.fld 2 15 0 = 0xFFFF ∨
      236 < c.desc.fld 2 23 16 →
    ∃ t, exec (.settingsWrite src flash) s = .next t ∧ t.mp.cmd = none ∧ s.answered t 0 c.desc 0x10 1 ∧ t.nor = s.nor) ∧
  (∀ (src : HostRead) (flash : FlashAnswer) (c : MpCmd) (x : Fed) (key : Nat) (s v : State), s.carries 0x60 c → c.left = [] →
    c.desc.reservedSet (commandLayout [0x80FFFFFF, 0, 0xFFFFFFFF, 0xFFFFFFFF]) = false → key = c.desc.fld 2 15 0 → key ≠ 0 → key ≠ 0xFFFF →
    c.desc.fld 2 23 16 ≤ 236 → s.feed (bitOf (dwAt c.desc.dw 2) 31) (c.desc.wide 4) (c.desc.fld 2 23 16) c.fed src = (x, v) → v.mp = s.mp →
    v.host.cqQueue = s.host.cqQueue → v.cqRoom → v.nor = s.nor →
    (x.state = .failed → ∃ t, exec (.settingsWrite src flash) s = .next t ∧ t.mp.cmd = none ∧ s.answered t 0 c.desc 0x10 5 ∧ t.nor = s.nor) ∧
    (x.state = .more → ∃ t, exec (.settingsWrite src flash) s = .next t ∧
      t.mp.cmd.map (fun k => (k.desc, k.left, k.fed)) = some (c.desc, [], x.bytes) ∧ t.host.cqQueue = s.host.cqQueue ∧ t.nor = s.nor) ∧
    (x.state = .whole → v.mpMay 2 = false →
      ∃ t, exec (.settingsWrite src flash) s = .next t ∧ t.mp.cmd = none ∧ s.answered t 0 c.desc 0x12 0 ∧ t.nor = s.nor) ∧
    (x.state = .whole → v.mpMay 2 = true → v.norWindow = false →
      ∃ t, exec (.settingsWrite src flash) s = .next t ∧ t.mp.cmd = none ∧ s.answered t 0 c.desc 0x16 0 ∧ t.nor = s.nor) ∧
    (x.state = .whole → v.mpMay 2 = true → v.norWindow = true →
      (flash = .done → ∃ t, exec (.settingsWrite src flash) s = .next t ∧ t.mp.cmd = none ∧ s.answered t 0 c.desc 0 1 ∧
        t.nor = (s.writeSetting s.settingsCopy key s.settingsFmt x.bytes).nor) ∧
      (flash = .failed → ∃ t, exec (.settingsWrite src flash) s = .next t ∧ t.mp.cmd = none ∧ s.answered t 0 c.desc 0x10 5 ∧
        t.rakeQ.map (fun r => r.src) = v.rakeQ.map (fun r => r.src) ++ [0x20B]) ∧
      (flash = .busy → ∃ t, exec (.settingsWrite src flash) s = .next t ∧ t.holder 2 = 2 ∧
        t.mp.cmd.map (fun k => (k.desc, k.left, k.fed)) = some (c.desc, flashWorks, x.bytes) ∧ t.host.cqQueue = s.host.cqQueue ∧
        t.nor = s.nor))) ∧
  (∀ (ok : Bool) (d : Desc) (s : State), s.commanded 0x61 d →
    (d.reservedSet (commandLayout [0x8000FFFF, 0, 0xFFFFFFFF, 0xFFFFFFFF]) = true ∨ d.fld 2 15 0 = 0 ∨ d.fld 2 15 0 = 0xFFFF →
      ∃ u, exec (.settingsRead ok) s = .next (State.watch s u) ∧ s.answered u 0 d 0x10 1 ∧ u.out = s.out) ∧
    (d.reservedSet (commandLayout [0x8000FFFF, 0, 0xFFFFFFFF, 0xFFFFFFFF]) = false → d.fld 2 15 0 ≠ 0 → d.fld 2 15 0 ≠ 0xFFFF →
      s.settingIn s.settingsCopy (d.fld 2 15 0) = none →
      ∃ u, exec (.settingsRead ok) s = .next (State.watch s u) ∧ s.answered u 0 d 0 0 ∧ u.nor = s.nor ∧ u.out = s.out) ∧
    (∀ v, s.settingIn s.settingsCopy (d.fld 2 15 0) = some v →
      d.reservedSet (commandLayout [0x8000FFFF, 0, 0xFFFFFFFF, 0xFFFFFFFF]) = false → d.fld 2 15 0 ≠ 0 → d.fld 2 15 0 ≠ 0xFFFF →
      (bitOf (dwAt d.dw 2) 31 = false → ok = true → s.hostBus = true →
        ∃ u, exec (.settingsRead ok) s = .next (State.watch s u) ∧ s.answered u 0 d 0 (1 + 256 * v.length) ∧ u.nor = s.nor ∧
          u.out = s.out ++ [.dma (d.wide 4) (v.map (fun x => BitVec.ofNat 8 x))]) ∧
      (bitOf (dwAt d.dw 2) 31 = false → ok = false ∨ s.hostBus = false →
        ∃ u, exec (.settingsRead ok) s = .next (State.watch s u) ∧ s.answered u 0 d 0x10 5 ∧ u.out = s.out) ∧
      (bitOf (dwAt d.dw 2) 31 = true →
        exec (.settingsRead ok) s = .next (State.watch s
          ((s.writeMem .mp (d.wide 4) (v.map (fun x => BitVec.ofNat 8 x))).finish d 0 (1 + 256 * v.length))))))

/-- The loader's requests and sessions (R49, R50, R416, R532 to R537, R567): a request whose length does not fit its OP is answered
BAD_FRAME, one outside the open session of its source NO_SESSION, one in a phase that does not take it PHASE; an erase of the flash that
waited for the end of a supply warning is made before a request that programs it. SESSION_OPEN takes the lock and token 2 or is answered
BUSY; ABORT and 60 s without a request end the session, give the token back and leave a verified slot invalid; a bus reset ends a session
of the service port and frees its tokens; a bad frame is answered, and closes a tunnel session. STATUS takes no lock. Nothing changes
where no request is due. Loading an image (R482, R541 to R543, R567): a header that passes starts the load with the header block erased,
one that fails is answered its code; the next chunk is programmed in its block, erased first where this session has not, and the last one
accepted is answered again; VERIFY of a whole payload whose tags pass programs the header, and in OPEN checks the slot as it stands. A
closed window is answered WINDOW, and a failed read-back FLASH with NOR_ERR reported. -/
def Obligations.LoaderCommands : Prop :=
  (∀ (op : Fin 9) (q : LoaderReq) (ok vqps core : Bool) (outs : List Pulsed) (s : State), s.calm → 1 ≤ op.val →
    (op.val ≠ 5 → (2 ≤ op.val ∧ op.val ≤ 6 → s.dueErase = s) → s.takeReq op q = none →
      exec (loaderCommand op q ok vqps core outs) s = .next s) ∧
    (s.dueErase = s → s.takeReq 5 q = none → exec (.activate q ok) s = .next (State.watch s s)) ∧
    (2 ≤ op.val → op.val ≤ 6 →
      exec (loaderCommand op q ok vqps core outs) s = exec (loaderCommand op q ok vqps core outs) s.dueErase)) ∧
  (∀ (op : Fin 9) (q : LoaderReq) (ok vqps core : Bool) (outs : List Pulsed) (r : Req) (s u : State), s.calm → 1 ≤ op.val → op.val ≠ 5 →
    (2 ≤ op.val ∧ op.val ≤ 6 → s.dueErase = s) → s.takeReq op q = some (r, u) → bodyFits op r.body.length = false →
    ∃ t, exec (loaderCommand op q ok vqps core outs) s = .next t ∧ t.svc = u.svc ∧ t.nor = s.nor ∧ t.replied r 0x05 []) ∧
  (∀ (op : Fin 9) (q : LoaderReq) (ok vqps core : Bool) (outs : List Pulsed) (r : Req) (s u : State), op.val ∈ [2, 3, 4, 6, 7, 8] →
    s.requested op q r u → (op.val = 8 → r.session ≠ 0) → u.svc.session.all (fun x => decide (x.src ≠ r.src ∨ x.num ≠ r.session)) = true →
    ∃ t, exec (loaderCommand op q ok vqps core outs) s = .next t ∧ t.svc = u.svc ∧ t.nor = s.nor ∧ t.replied r 0x02 []) ∧
  (∀ (q : LoaderReq) (ok : Bool) (r : Req) (s u : State), s.calm → s.dueErase = s → s.takeReq 5 q = some (r, u) →
    (bodyFits 5 r.body.length = false →
      ∃ w, exec (.activate q ok) s = .next (State.watch s w) ∧ w.svc = u.svc ∧ w.nor = s.nor ∧ w.replied r 0x05 []) ∧
    (bodyFits 5 r.body.length = true → u.svc.session.all (fun x => decide (x.src ≠ r.src ∨ x.num ≠ r.session)) = true →
      ∃ w, exec (.activate q ok) s = .next (State.watch s w) ∧ w.svc = u.svc ∧ w.nor = s.nor ∧ w.replied r 0x02 [])) ∧
  (∀ (op : Fin 9) (q : LoaderReq) (ok vqps core : Bool) (outs : List Pulsed) (r : Req) (x : Session) (s u : State), s.requested op q r u →
    u.session r x →
    (op.val = 2 ∧ x.phase ≠ 1 ∨ op.val = 4 ∧ x.phase ≠ 1 ∧ (x.phase ≠ 2 ∨ x.next * 4096 ≠ hdrPayload x.header) →
      ∃ t, exec (loaderCommand op q ok vqps core outs) s = .next t ∧ t.nor = s.nor ∧ t.replied r 0x03 [] ∧
        t.svc.session = some { x with last := u.tb.toNat }) ∧
    (op.val = 3 → x.phase ≠ 2 → ∃ t, exec (.chunk q ok) s = .next t ∧ t.nor = s.nor ∧ t.replied r 0x03 (r.body.take 4) ∧
      t.svc.session = some { x with last := u.tb.toNat }) ∧
    (op.val = 6 → x.phase ≠ 1 → ∃ t, exec (.confirm q ok vqps core outs) s = .next t ∧ t.nor = s.nor ∧ t.replied r 0x03 [u.arbCounter] ∧
      t.svc.session = some { x with last := u.tb.toNat }) ∧
    (op.val = 5 → x.phase ≠ 3 → ∃ w, exec (.activate q ok) s = .next (State.watch s w) ∧ w.nor = s.nor ∧ w.replied r 0x03 [] ∧
      w.svc.session = some { x with last := u.tb.toNat })) ∧
  (∀ (q : LoaderReq) (r : Req) (s u : State), s.requested 1 q r u →
    (u.svc.session.any (fun x => decide (x.src ≠ r.src)) = true ∨ u.mpMay 2 = false →
      ∃ t, exec (.sessionOpen q) s = .next t ∧ t.svc = u.svc ∧ t.replied r 0x01 [] ∧ t.nor = s.nor) ∧
    (u.svc.session.all (fun x => decide (x.src = r.src)) = true → u.mpMay 2 = true → r.session = 0 →
      ∃ t, exec (.sessionOpen q) s = .next t ∧ t.svc = u.svc ∧ t.replied r 0x02 [] ∧ t.nor = s.nor) ∧
    (u.svc.session.all (fun x => decide (x.src = r.src)) = true → u.mpMay 2 = true → r.session ≠ 0 →
      ∃ t, exec (.sessionOpen q) s = .next t ∧ t.svc.session = some ⟨r.src, r.tunnel, r.session, u.tb.toNat, 1, [], 0, none, []⟩ ∧
        t.replied r 0x00 [] ∧ (u.domOn .host = true → t.holder 2 = 2) ∧
        (∀ x, u.svc.session = some x → x.phase = 3 → s.warned = false → t.nor = (s.norErase (slotBase s.otherSlot) 0x10000).nor) ∧
        ((∀ x, u.svc.session = some x → x.phase ≠ 3) → t.nor = s.nor))) ∧
  (∀ (q : LoaderReq) (r : Req) (s u : State), s.requested 8 q r u → r.session = 0 ∨ u.svc.session.any (fun x => decide (x.src = r.src ∧ x.num = r.session)) = true →
    ∃ t, exec (.status q) s = .next t ∧ t.replied r 0x00 u.statusData ∧ t.nor = s.nor ∧ t.regs = u.regs ∧
      (r.session = 0 → t.svc = u.svc) ∧ (r.session ≠ 0 → ∀ x, u.svc.session = some x → t.svc.session = some { x with last := u.tb.toNat })) ∧
  (∀ (x : Session) (a : Nat) (s : State), s.svc.session = some x → a = s.otherSlot →
    s.endSession.svc.session = none ∧ (x.phase ≠ 3 → s.endSession.nor = s.nor) ∧
    (x.phase = 3 → s.warned = false → s.endSession.nor = (s.norErase (slotBase a) 0x10000).nor) ∧
    (x.phase = 3 → s.warned = true → s.endSession.nor = s.nor ∧ s.endSession.svc.spoiled = some a ∧ s.endSession.imageValid a = false) ∧
    (s.mp.cmd.all (fun c => decide (c.token ≠ some 2)) = true → s.holder 2 = 2 → s.endSession.holder 2 = 0) ∧
    (∀ n : Fin 32, n.val ≠ 2 → s.endSession.holder n = s.holder n)) ∧
  (∀ (q : LoaderReq) (r : Req) (x : Session) (v s u : State), s.requested 7 q r u → u.session r x →
    v = (u.onSvc (fun y => { y with session := some { x with last := u.tb.toNat } })).endSession →
    ∃ t, exec (.abort q) s = .next t ∧ t.svc = v.svc ∧ t.nor = v.nor ∧ t.replied r 0x00 [] ∧ t.holder 2 = v.holder 2) ∧
  (∀ s : State, s.calm →
    (∀ x, s.loaderRuns = true → s.svc.session = some x → x.last + 240000000000 ≤ s.tb.toNat →
      exec .sessionTimeout s = .next s.endSession) ∧
    (s.loaderRuns = false ∨ s.svc.session.all (fun x => decide (s.tb.toNat < x.last + 240000000000)) = true →
      exec .sessionTimeout s = .next s)) ∧
  (∀ s : State, s.calm →
    (s.domOn .service = false → exec .usbBusReset s = .next s) ∧
    (s.domOn .service = true →
      ∃ t, exec .usbBusReset s = .next t ∧ t.on Fld.SVC_STAT_USB_CFG = false ∧ t.on Fld.SVC_STAT_HS = false ∧
        t.svc.session = s.svc.session.filter (fun x => decide (x.src ≠ 3)) ∧
        (∀ n : Fin 32, n.val ≠ 2 → t.holder n = (if s.holder n = 3 then 0 else s.holder n)) ∧ t.holder 2 ≠ 3)) ∧
  (∀ (n : Nat) (l : List Nat) (s : State), l <+: (s.fillBytes l n).1 ∧ (s.fillBytes l n).1.length = max n l.length) ∧
  (∀ (bytes : List Byte) (l : List Nat) (s : State), s.calm → l = (s.usbSeen.fillBytes ((bytes.map (fun b => b.toNat)).take 16) 16).1 →
    (s.loaderRuns = true → s.domOn .service = true →
      (match parseFrame (bytes.map (fun b => b.toNat)) with | .frame _ _ _ _ rest => rest | _ => [0]) ≠ [] →
      ∃ t, exec (.badFrame (.usb bytes)) s = .next t ∧ t.svc = s.svc ∧ t.nor = s.nor ∧
        t.out = s.out ++ [.usb (replyFrame (l.getD 1 0) (leNat (sliceOf l 4 4)) (leNat (sliceOf l 8 4)) 0x05 [])]) ∧
    (s.loaderRuns = false ∨ s.domOn .service = false ∨
        (match parseFrame (bytes.map (fun b => b.toNat)) with | .frame _ _ _ _ rest => rest | _ => [0]) = [] →
      exec (.badFrame (.usb bytes)) s = .next s)) ∧
  (∀ (st : Fin 64) (num : Byte) (s : State), s.calm →
    (∀ x, s.loaderRuns = true → s.findTunnel st num.toNat = some x → parseFrame x.stream = .bad → ∃ t,
      exec (.badFrame (.tunnel st num)) s = .next t ∧ t.findTunnel st num.toNat = none ∧
      (∀ y, t.svc.session = some y → s.svc.session = some y ∧ (y.src ≠ 0x40 + st.val ∨ y.tunnel ≠ num.toNat))) ∧
    (∀ x, s.findTunnel st num.toNat = some x → s.loaderRuns = false ∨ parseFrame x.stream ≠ .bad →
      exec (.badFrame (.tunnel st num)) s = .next s) ∧
    (s.findTunnel st num.toNat = none → exec (.badFrame (.tunnel st num)) s = .next s)) ∧
  (∀ (q : LoaderReq) (ok : Bool) (r : Req) (x : Session) (s u : State), s.requested 2 q r u → u.session r x → x.phase = 1 →
    (u.norWindow = false → ∃ t, exec (.header q ok) s = .next t ∧ t.replied r 0x06 [] ∧ t.nor = s.nor ∧
      t.svc.session = some { x with last := u.tb.toNat }) ∧
    (∀ c, u.norWindow = true → u.headerRefusal r.body = some c →
      ∃ t, exec (.header q ok) s = .next t ∧ t.replied r c [] ∧ t.nor = s.nor ∧ t.svc.session = some { x with last := u.tb.toNat }) ∧
    (u.norWindow = true → u.headerRefusal r.body = none → ok = true →
      ∃ t, exec (.header q ok) s = .next t ∧ t.replied r 0x00 [] ∧ t.nor = (s.norErase (slotBase s.otherSlot) 0x10000).nor ∧
        t.svc.spoiled = none ∧
        t.svc.session = some { x with last := u.tb.toNat, phase := 2, header := r.body, next := 0, lastIx := none, erased := [] }) ∧
    (u.norWindow = true → u.headerRefusal r.body = none → ok = false →
      ∃ t, exec (.header q ok) s = .next t ∧ t.replied r 0x07 [] ∧ t.svc.session = some { x with last := u.tb.toNat } ∧
        t.rakeQ.map (fun e => e.src) = s.rakeQ.map (fun e => e.src) ++ [0x20B])) ∧
  (∀ (q : LoaderReq) (ok : Bool) (r : Req) (x : Session) (i : Nat) (e : List Nat) (s u : State), s.requested 3 q r u → u.session r x →
    x.phase = 2 → i = leNat (r.body.take 4) → e = (if x.erased.contains (i / 16) then x.erased else x.erased ++ [i / 16]) →
    (r.body.length = 4100 → x.lastIx = some i →
      ∃ t, exec (.chunk q ok) s = .next t ∧ t.replied r 0x00 (r.body.take 4) ∧ t.nor = s.nor ∧
        t.svc.session = some { x with last := u.tb.toNat }) ∧
    (r.body.length ≠ 4100 ∨ (x.lastIx ≠ some i ∧ (i ≠ x.next ∨ hdrPayload x.header / 4096 ≤ i)) →
      ∃ t, exec (.chunk q ok) s = .next t ∧ t.replied r 0x04 (r.body.take 4) ∧ t.nor = s.nor ∧
        t.svc.session = some { x with last := u.tb.toNat }) ∧
    (r.body.length = 4100 → x.lastIx ≠ some i → i = x.next → i < hdrPayload x.header / 4096 → u.norWindow = false →
      ∃ t, exec (.chunk q ok) s = .next t ∧ t.replied r 0x06 (r.body.take 4) ∧ t.nor = s.nor ∧
        t.svc.session = some { x with last := u.tb.toNat }) ∧
    (r.body.length = 4100 → x.lastIx ≠ some i → i = x.next → i < hdrPayload x.header / 4096 → u.norWindow = true → ok = true →
      ∃ t, exec (.chunk q ok) s = .next t ∧ t.replied r 0x00 (r.body.take 4) ∧
        t.svc.session = some { x with last := u.tb.toNat, next := i + 1, lastIx := some i, erased := e } ∧
        (∀ k < 4096, t.norByte (slotPayload s.otherSlot + i * 0x1000 + k) = r.body.getD (4 + k) 0 % 256 &&&
          (if x.erased.contains (i / 16) then s.norByte (slotPayload s.otherSlot + i * 0x1000 + k) else 0xFF)) ∧
        (∀ k < 64, t.norByte (slotPayload s.otherSlot + i * 0x1000 + 4096 + k * 64) =
          (if x.erased.contains (i / 16) ∨ (i + 1) / 16 ≠ i / 16 then
            s.norByte (slotPayload s.otherSlot + i * 0x1000 + 4096 + k * 64) else 0xFF))) ∧
    (r.body.length = 4100 → x.lastIx ≠ some i → i = x.next → i < hdrPayload x.header / 4096 → u.norWindow = true → ok = false →
      ∃ t, exec (.chunk q ok) s = .next t ∧ t.replied r 0x07 (r.body.take 4) ∧
        t.svc.session = some { x with last := u.tb.toNat, erased := e } ∧
        t.rakeQ.map (fun e => e.src) = s.rakeQ.map (fun e => e.src) ++ [0x20B])) ∧
  (∀ (q : LoaderReq) (ok : Bool) (r : Req) (x : Session) (s u : State), s.requested 4 q r u → u.session r x → x.phase = 2 →
    x.next * 4096 = hdrPayload x.header →
    (u.tagsPass u.otherSlot x.header (fun _ => true) = false →
      ∃ t, exec (.verify q ok) s = .next t ∧ t.replied r 0x20 [] ∧ t.nor = s.nor ∧
        t.svc.session = some { x with last := u.tb.toNat, phase := 1 }) ∧
    (u.tagsPass u.otherSlot x.header (fun _ => true) = true → u.norWindow = false →
      ∃ t, exec (.verify q ok) s = .next t ∧ t.replied r 0x06 [] ∧ t.nor = s.nor ∧ t.svc.session = some { x with last := u.tb.toNat }) ∧
    (u.tagsPass u.otherSlot x.header (fun _ => true) = true → u.norWindow = true → ok = true →
      ∃ t, exec (.verify q ok) s = .next t ∧ t.replied r 0x00 [] ∧ t.nor = (s.norProgram (slotBase s.otherSlot) x.header).nor ∧
        t.svc.session = some { x with last := u.tb.toNat, phase := 3 }) ∧
    (u.tagsPass u.otherSlot x.header (fun _ => true) = true → u.norWindow = true → ok = false →
      ∃ t, exec (.verify q ok) s = .next t ∧ t.replied r 0x07 [] ∧ t.svc.session = some { x with last := u.tb.toNat } ∧
        t.rakeQ.map (fun e => e.src) = s.rakeQ.map (fun e => e.src) ++ [0x20B])) ∧
  (∀ (q : LoaderReq) (ok : Bool) (r : Req) (x : Session) (h : List Nat) (s u : State), s.requested 4 q r u → u.session r x → x.phase = 1 →
    h = u.slotHeader u.otherSlot →
    (∀ c, u.headerRefusal h = some c →
      ∃ t, exec (.verify q ok) s = .next t ∧ t.replied r c [] ∧ t.nor = s.nor ∧ t.svc.session = some { x with last := u.tb.toNat }) ∧
    (u.headerRefusal h = none → u.tagsPass u.otherSlot h (fun _ => true) = false →
      ∃ t, exec (.verify q ok) s = .next t ∧ t.replied r 0x20 [] ∧ t.nor = s.nor ∧ t.svc.session = some { x with last := u.tb.toNat }) ∧
    (u.headerRefusal h = none → u.tagsPass u.otherSlot h (fun _ => true) = true →
      ∃ t, exec (.verify q ok) s = .next t ∧ t.replied r 0x00 [] ∧ t.nor = s.nor ∧
        t.svc.session = some { x with last := u.tb.toNat, phase := 3, header := h }))

/-- Boots, trials and restarts of the MP (R37, R38, R49, R60, R482, R532, R544 to R552, R567, R581): ACTIVATE writes the record on trial,
replies and restarts the MP, and in rescue mode starts the controller; CONFIRM writes the record CONFIRMED, erases the settings copy left
behind and advances the counter, now or at a later try. A restart ends the session, frees the MP's tokens and keeps the command in
execution, which completes RESTARTED once an image runs. MP_BOOT counts a trial or falls back, writes the first record, runs the image
that passes and else serves in rescue mode, where every command completes BUSY. A trial without CONFIRM and a watchdog not fed restart
the MP. What is not due changes nothing. -/
def Obligations.BootAndTrial : Prop :=
  (∀ (q : LoaderReq) (ok : Bool) (r : Req) (x : Session) (s u : State), s.requested 5 q r u → u.session r x → x.phase = 3 →
    (u.norWindow = false → ∃ w, exec (.activate q ok) s = .next (State.watch s w) ∧ w.nor = s.nor ∧ w.replied r 0x06 [] ∧
      w.svc.session = some { x with last := u.tb.toNat }) ∧
    (u.norWindow = true → (u.bootRecord.map (fun y => y.2.state)) = some 2 →
      ∃ w, exec (.activate q ok) s = .next (State.watch s w) ∧ w.nor = s.nor ∧ w.replied r 0x21 [] ∧
        w.svc.session = some { x with last := u.tb.toNat }) ∧
    (u.norWindow = true → (u.bootRecord.map (fun y => y.2.state)) ≠ some 2 → ok = false →
      ∃ w, exec (.activate q ok) s = .next (State.watch s w) ∧ w.replied r 0x07 [] ∧ w.svc.session = some { x with last := u.tb.toNat } ∧
        w.rakeQ.map (fun e => e.src) = s.rakeQ.map (fun e => e.src) ++ [0x20B]) ∧
    (u.norWindow = true → (u.bootRecord.map (fun y => y.2.state)) ≠ some 2 → ok = true → u.mp.rescue = false → u.mp.running = true →
      ∃ w, exec (.activate q ok) s = .next (State.watch s w) ∧ w.svc.session = none ∧ w.mp.running = false ∧
        w.nor = (u.writeRecord ⟨0, 1 - u.activeSlot, 2, 0, u.activeSlot, hdrFormat x.header,
          if hdrFormat x.header = u.settingsFmt then u.settingsCopy else 1 - u.settingsCopy, u.settingsCopy, u.settingsFmt⟩).nor ∧
        (r.src = 3 → .usb (replyFrame 5 r.session r.seq 0x00 []) ∈ w.out) ∧ (∀ n : Fin 32, w.holder n ≠ 2)) ∧
    (u.norWindow = true → (u.bootRecord.map (fun y => y.2.state)) ≠ some 2 → ok = true → u.mp.rescue = true → u.pcr.dieShut = false →
      ∃ w, exec (.activate q ok) s = .next (State.watch s w) ∧ w.svc.session = none ∧ w.mp.running = false ∧ w.mp.rescue = false ∧
        w.nor = (u.writeRecord ⟨0, 1 - u.activeSlot, 1, 0, 0xFF, hdrFormat x.header,
          if hdrFormat x.header = u.settingsFmt then u.settingsCopy else 1 - u.settingsCopy, 0xFF, 0⟩).nor ∧
        (r.src = 3 → .usb (replyFrame 5 r.session r.seq 0x00 []) ∈ w.out) ∧ (w.pcr.start.getD []).contains 27 = true)) ∧
  (∀ (q : LoaderReq) (ok vqps core : Bool) (outs : List Pulsed) (r : Req) (x : Session) (s u : State), s.requested 6 q r u → u.session r x →
    x.phase = 1 →
    (u.bootRecord = none →
      ∃ t, exec (.confirm q ok vqps core outs) s = .next t ∧ t.replied r 0x21 [u.arbCounter] ∧ t.nor = s.nor) ∧
    (∀ c b, u.bootRecord = some (c, b) →
      (u.norWindow = false →
        ∃ t, exec (.confirm q ok vqps core outs) s = .next t ∧ t.replied r 0x06 [u.arbCounter] ∧ t.nor = s.nor) ∧
      (u.norWindow = true → b.state ≠ 2 →
        ∃ t, exec (.confirm q ok vqps core outs) s = .next t ∧ t.replied r 0x21 [u.arbCounter] ∧ t.nor = s.nor) ∧
      (u.norWindow = true → b.state = 2 → ok = false →
        ∃ t, exec (.confirm q ok vqps core outs) s = .next t ∧ t.replied r 0x07 [u.arbCounter] ∧
          t.rakeQ.map (fun e => e.src) = s.rakeQ.map (fun e => e.src) ++ [0x20B]) ∧
      (u.norWindow = true → b.state = 2 → ok = true →
        ∃ t, exec (.confirm q ok vqps core outs) s = .next t ∧ t.replied r 0x00 [t.arbCounter] ∧
          t.svc.session = some { x with last := u.tb.toNat } ∧ t.svc.arbDue = decide (t.arbCounter < hdrArb (t.slotHeader t.activeSlot)) ∧
          (b.prevCopy = b.copy ∨ 2 ≤ b.prevCopy →
            t.nor = (u.writeRecord { b with state := 1, trials := 0, prev := 0xFF, prevCopy := 0xFF }).nor) ∧
          (b.prevCopy ≠ b.copy → b.prevCopy < 2 →
            t.nor = ((u.writeRecord { b with state := 1, trials := 0, prev := 0xFF, prevCopy := 0xFF }).norErase
              (pageAddr b.prevCopy 0 0) 0x500000).nor)))) ∧
  (∀ (vqps core : Bool) (outs : List Pulsed) (c : Nat) (s u : State), s.calm → u = s.senseSupplies vqps core →
    c = hdrArb (s.slotHeader s.activeSlot) →
    (s.mp.running = false ∨ s.svc.arbDue = false ∨ s.svc.arbAt.all (fun a => decide (a + 240000000000 ≤ s.tb.toNat)) = false →
      exec (.arbRetry vqps core outs) s = .next s) ∧
    (s.mp.running = true → s.svc.arbDue = true → s.svc.arbAt.all (fun a => decide (a + 240000000000 ≤ s.tb.toNat)) = true →
      (c ≤ s.arbCounter → ∃ t, exec (.arbRetry vqps core outs) s = .next t ∧ t.svc.arbDue = false ∧ t.otp = u.otp) ∧
      (s.arbCounter < c → c ≤ 128 → u.otpWindow = true → s.mpMay 1 = true → s.otp.prog = none → outs = [] →
        ∃ t, exec (.arbRetry vqps core outs) s = .next t ∧ t.svc.arbDue = false ∧ t.arbCounter = c) ∧
      (s.arbCounter < c → u.otpWindow = true → s.mpMay 1 = true → s.otp.prog = none →
        ∃ t, exec (.arbRetry vqps core outs) s = .next t ∧ t.otp = (u.putArb (arbWords s.arbCounter c) outs).otp ∧
          t.svc.arbDue = decide (t.arbCounter < c) ∧ t.svc.arbTold = decide (t.arbCounter < c)) ∧
      (s.arbCounter < c → u.otpWindow = false ∨ s.mpMay 1 = false ∨ s.otp.prog ≠ none →
        ∃ t, exec (.arbRetry vqps core outs) s = .next t ∧ t.svc.arbDue = true ∧ t.svc.arbTold = true ∧ t.svc.arbAt = some s.tb.toNat ∧
          t.otp = u.otp))) ∧
  (∀ s : State, s.calm →
    (s.domOn .mgmt = false ∨ s.windowOpen = true ∨ s.pcr.start ≠ none ∨ (s.warned = true ∧ s.bootWrites = true) →
      exec .mpBoot s = .next s) ∧
    (s.domOn .mgmt = true → s.windowOpen = false → s.pcr.start = none →
      (∀ c b, s.bootRecord = some (c, b) → b.state ≠ 2 → s.slotBoots b.active false = true →
        ∃ u, exec .mpBoot s = .next (State.watch s u) ∧ u.mp.running = true ∧ u.mp.rescue = false ∧ u.mp.cmd = none ∧
          u.rd Fld.PCR_STAT_START = 4 ∧ u.nor = s.nor ∧ u.pcr.fed = s.tb.toNat ∧ u.svc.trialAt = s.tb.toNat ∧
          u.svc.arbDue = (decide (b.state = 1) && decide (s.arbCounter < hdrArb (s.slotHeader b.active))) ∧
          (s.domOn .host = true → u.on Fld.HOST_STAT_CFG_RETRY = false) ∧
          (∀ k, s.mp.cmd = some k → k.desc.index < orphanMark → s.cqRoom → k.desc.opcode ∉ [0x50, 0x51, 0x70] →
            s.answered u 0 k.desc 0x13 (if k.desc.opcode ∈ [0x40, 0x59, 0x60, 0x71] then k.done else 0))) ∧
      (s.warned = false →
        (∀ c b, s.bootRecord = some (c, b) → b.state = 2 → b.trials < 3 → s.slotBoots b.active false = true →
          ∃ u, exec .mpBoot s = .next (State.watch s u) ∧ u.mp.running = true ∧ u.mp.rescue = false ∧ u.rd Fld.PCR_STAT_START = 4 ∧
            (b.copy = b.prevCopy ∨ 2 ≤ b.prevCopy ∨ s.settingIn b.copy 0xF020 ≠ none →
              u.nor = (s.writeRecord { b with trials := b.trials + 1 }).nor) ∧
            (b.copy ≠ b.prevCopy → b.prevCopy < 2 → s.settingIn b.copy 0xF020 = none →
              u.nor = ((s.writeRecord { b with trials := b.trials + 1 }).migrate b.active b).nor)) ∧
        (∀ c b r, s.bootRecord = some (c, b) → b.state = 2 → 3 ≤ b.trials ∨ s.slotBoots b.active false = false →
          r = { b with active := b.prev, state := 1, trials := 0, prev := 0xFF, fmt := b.prevFmt, copy := b.prevCopy, prevCopy := 0xFF } →
          (s.slotBoots b.prev false = true →
            ∃ u, exec .mpBoot s = .next (State.watch s u) ∧ u.mp.running = true ∧ u.mp.rescue = false ∧
              u.nor = (s.writeRecord r).nor) ∧
          (s.slotBoots b.prev false = false →
            ∃ u, exec .mpBoot s = .next (State.watch s u) ∧ u.mp.running = false ∧ u.mp.rescue = true ∧ u.rd Fld.PCR_STAT_START = 5 ∧
              u.nor = (s.writeRecord r).nor)) ∧
        (s.bootRecord = none → s.slotBoots 0 false = true →
          ∃ u, exec .mpBoot s = .next (State.watch s u) ∧ u.mp.running = true ∧ u.mp.rescue = false ∧
            u.nor = (s.writeRecord ⟨0, 0, 1, 0, 0xFF, hdrFormat (s.slotHeader 0), 0, 0xFF, 0⟩).nor) ∧
        (s.bootRecord = none → s.slotBoots 0 false = false →
          ∃ u, exec .mpBoot s = .next (State.watch s u) ∧ u.mp.running = false ∧ u.mp.rescue = true ∧ u.nor = s.nor ∧
            u.rd Fld.PCR_STAT_START = 5)) ∧
      (∀ c b, s.bootRecord = some (c, b) → b.state ≠ 2 → s.slotBoots b.active false = false →
        ∃ u, exec .mpBoot s = .next (State.watch s u) ∧ u.mp.running = false ∧ u.mp.rescue = true ∧ u.mp.cmd = none ∧
          u.rd Fld.PCR_STAT_START = 5 ∧ u.nor = s.nor ∧ (u.getRing 0).fetched = [] ∧
          (∀ k, s.mp.cmd = some k → k.desc.index < orphanMark → s.cqRoom → (s.getRing 0).fetched = [] → s.answered u 0 k.desc 0x12 0xFE)))) ∧
  (∀ (cause : Nat) (s t : State), s.windowOpen = true → t = s.mpRestart cause →
    t.mp.running = false ∧ t.mp.rescue = false ∧ t.svc.session = none ∧ t.walk = none ∧ (∀ n : Fin 32, t.holder n ≠ 2) ∧
    t.mp.cmd.map (fun c => c.desc) = s.mp.cmd.map (fun c => c.desc) ∧ (∀ p < 16, (t.getCons p).op = none) ∧
    (∀ x, t.otp.prog = some x → x.mp = false) ∧ t.pcr = s.pcr) ∧
  (∀ s : State, s.calm →
    (∀ c b, s.bootRecord = some (c, b) → b.state = 2 → s.mp.running = true → s.rd Fld.SVC_UPD_CFG_TRIAL_TMO ≠ 0 →
      s.svc.trialAt + s.rd Fld.SVC_UPD_CFG_TRIAL_TMO * 240000000000 ≤ s.tb.toNat →
      exec .trialTimeout s = .next (State.watch s (s.mpRestart 3))) ∧
    (∀ c b, s.bootRecord = some (c, b) → b.state ≠ 2 ∨ s.mp.running = false ∨ s.rd Fld.SVC_UPD_CFG_TRIAL_TMO = 0 ∨
      s.tb.toNat < s.svc.trialAt + s.rd Fld.SVC_UPD_CFG_TRIAL_TMO * 240000000000 → exec .trialTimeout s = .next s) ∧
    (s.bootRecord = none → exec .trialTimeout s = .next s)) ∧
  (∀ (e : Nat) (s : State), s.calm → e = s.pcr.fed + max 1 (min 1000 (s.rd Fld.PCR_WDOG_TMO)) * 4000000 →
    (s.on Fld.PCR_WDOG_EN = false ∨ s.windowOpen = false ∨ s.tb.toNat < e → exec .mpWatchdog s = .next s) ∧
    (s.on Fld.PCR_WDOG_EN = true → s.windowOpen = true → e ≤ s.tb.toNat →
      ∃ u, exec .mpWatchdog s = .next (State.watch s u) ∧ u.mp.running = false ∧ u.mp.rescue = false ∧ u.svc.session = none ∧
        u.pcr.fed = s.tb.toNat ∧ u.mp.cmd.map (fun c => c.desc) = s.mp.cmd.map (fun c => c.desc) ∧ (∀ n : Fin 32, u.holder n ≠ 2) ∧
        u.rakeQ.map (fun r => r.src) = s.rakeQ.map (fun r => r.src) ++ [0x208])) ∧
  (∀ (m : Master) (v : Word) (s : State), s.calm → s.reaches Reg.PCR_WDOG →
    ∃ t, exec (.watchdogFeed m v) s = .next t ∧ t.pcr = { s.pcr with fed := s.tb.toNat } ∧ t.rd Fld.PCR_WDOG_TMO = bitsOf v 9 0 ∧
      t.on Fld.PCR_WDOG_EN = bitOf v 31 ∧ s.regsBut t [Reg.PCR_WDOG] ∧ t = { s with regs := t.regs, pcr := t.pcr })

/-- Power domains and retirement (R7, R27, R62, R179, R282, R472, R549, R560 to R564, R567): DOMAIN_POWER switches a domain on or off and
completes when it has come there, or is refused for its use; a write of PCR_DOM_CTL switches every present domain but AON and HK; a
domain reset leaves a domain ON with its registers at reset; a powered domain is ON with its PLLs locked, once no supply warns; the
sequencers are reloaded while the MP runs; an initialisation ends; a retired unit is no longer present, and its retirement is recorded,
at once or at a later try. What is not due changes nothing. -/
def Obligations.PowerDomains : Prop :=
  (∀ s : State, s.calm → s.nextCommand 0x70 = none → exec .domainPower s = .next s) ∧
  (∀ (c : Desc) (s : State), s.commanded 0x70 c → 14 ≤ c.fld 2 3 0 ∨ c.reservedSet (commandLayout [0x10F]) = true →
    ∃ t, exec .domainPower s = .next t ∧ s.answered t 0 c 0x10 1 ∧ Told s t) ∧
  (∀ (d : Domain) (c : Desc) (s : State), s.commanded 0x70 c → d ∈ domains → c.fld 2 3 0 = domCode d →
    c.reservedSet (commandLayout [0x10F]) = false →
    (bitOf (dwAt c.dw 2) 8 = false → d = .aon ∨ d = .hk ∨ d = .mgmt →
      ∃ t, exec .domainPower s = .next t ∧ s.answered t 0 c 0x10 2 ∧ Told s t) ∧
    (bitOf (dwAt c.dw 2) 8 = true ∨ (d ≠ .aon ∧ d ≠ .hk ∧ d ≠ .mgmt) → s.rd (domField d) = 3 ∨ s.domainUsed d = false →
      ∃ t, exec .domainPower s = .next t ∧ s.answered t 0 c 0x11 0 ∧ Told s t) ∧
    (∀ r, bitOf (dwAt c.dw 2) 8 = false → d ≠ .aon → d ≠ .hk → d ≠ .mgmt → s.rd (domField d) ≠ 3 → s.domainUsed d = true →
      s.rd (domField d) ≠ 0 → s.powerRefusal d = some r →
      ∃ t, exec .domainPower s = .next t ∧ s.answered t 0 c r.1 r.2 ∧ Told s t) ∧
    (bitOf (dwAt c.dw 2) 8 = true ∨ (d ≠ .aon ∧ d ≠ .hk ∧ d ≠ .mgmt ∧ (s.rd (domField d) = 0 ∨ s.powerRefusal d = none)) →
      s.rd (domField d) ≠ 3 → s.domainUsed d = true → s.mpMay 7 = false →
      ∃ t, exec .domainPower s = .next t ∧ s.answered t 0 c 0x12 0 ∧ Told s t) ∧
    (s.mpMay 7 = true → s.rd (domField d) ≠ 3 → s.domainUsed d = true →
      (bitOf (dwAt c.dw 2) 8 = true → s.domainReady d = true ∨ d = .aon →
        ∃ t, exec .domainPower s = .next t ∧ s.answered t 0 c 0 2 ∧ Told s t) ∧
      (bitOf (dwAt c.dw 2) 8 = true → s.domainReady d = false → d ≠ .aon →
        ∃ t, exec .domainPower s = .next t ∧ t.mp.cmd.map (fun k => (k.desc, k.left)) = some (c, []) ∧ t.holder 7 = 2 ∧
          t.host.cqQueue = s.host.cqQueue ∧
          (s.pcr.dieShut = false → t.on (domCtl d) = true ∧ t.rd (domField d) = (if s.rd (domField d) = 0 then 1 else s.rd (domField d))) ∧
          (s.pcr.dieShut = true → t.rd (domField d) = s.rd (domField d)) ∧ s.regsBut t [Reg.PCR_DOM_CTL, Reg.PCR_DOM_STAT, Reg.OWN 7]) ∧
      (bitOf (dwAt c.dw 2) 8 = false → d ≠ .aon → d ≠ .hk → d ≠ .mgmt → s.rd (domField d) = 0 →
        ∃ t, exec .domainPower s = .next t ∧ s.answered t 0 c 0 0 ∧ Told s t) ∧
      (bitOf (dwAt c.dw 2) 8 = false → d ≠ .aon → d ≠ .hk → d ≠ .mgmt → s.rd (domField d) ≠ 0 → s.powerRefusal d = none → s.numbered →
        ∃ t, exec .domainPower s = .next t ∧ t.rd (domField d) = 0 ∧ t.on (domCtl d) = false ∧
          (∀ i ∈ domainIslands d, bitOf (t.getReg Reg.PCR_PLL_STAT) i = false) ∧
          (d ≠ .host → s.walk = none → (∀ a < 8, (s.getAxis a).wait = false ∧ (s.getAxis a).held.all (fun h => !h.wait) = true) →
            t.mp.cmd.map (fun k => k.desc) = some c ∧ t.holder 7 = 2)))) ∧
  (∀ (d : Fin 14) (e : Domain) (s : State), s.calm → e = domainOf d →
    (s.rd (domField e) ≠ 1 ∨ s.warned = true → exec (.domainPowered d) s = .next s) ∧
    (s.rd (domField e) = 1 → s.warned = false →
      ∃ u, exec (.domainPowered d) s = .next (State.watch s u) ∧ u.rd (domField e) = 2 ∧
        (∀ i ∈ domainIslands e, bitOf (u.getReg Reg.PCR_PLL_STAT) i = true) ∧ (e = .ds0 → u.on Fld.ESP_STAT_DS0_INIT = true) ∧
        (e = .ds1 → u.on Fld.ESP_STAT_DS1_INIT = true) ∧
        (∀ k, s.mp.cmd = some k → s.mp.running = true → k.desc.opcode = 0x70 → domainOf (k.desc.fld 2 3 0) = e → k.desc.index < orphanMark →
          s.cqRoom → s.needsSequencer e = false → e ≠ .ds0 → e ≠ .ds1 →
          u.mp.cmd = none ∧ s.answered u 0 k.desc (if s.domainUsed e then 0 else 0x11) 2))) ∧
  (∀ (d : Fin 14) (s : State), s.calm →
    (s.mp.cmd.all (fun k => decide (s.mp.running = false ∨ k.desc.opcode ≠ 0x70 ∨ domainOf (k.desc.fld 2 3 0) ≠ domainOf d ∨
        s.rd (domField (domainOf d)) ≠ 0)) = true → exec (.domainOff d) s = .next s) ∧
    (∀ k, s.mp.cmd = some k → s.mp.running = true → k.desc.opcode = 0x70 → domainOf (k.desc.fld 2 3 0) = domainOf d →
      s.rd (domField (domainOf d)) = 0 → k.desc.index < orphanMark → s.cqRoom →
      ∃ t, exec (.domainOff d) s = .next t ∧ t.mp.cmd = none ∧ s.answered t 0 k.desc (if s.domainUsed (domainOf d) then 0 else 0x11) 0 ∧
        (k.token = some 7 → s.holder 7 = 2 → t.holder 7 = 0))) ∧
  (∀ (m : Master) (v : Word) (s : State), s.calm → s.numbered → s.reaches Reg.PCR_DOM_CTL →
    ∃ t, exec (.domainCtlWrite m v) s = .next t ∧ ∀ d ∈ domains, s.rd (domField d) ≠ 3 →
      (bitOf v (domCode d) = true → s.pcr.dieShut = false →
        t.on (domCtl d) = true ∧ t.rd (domField d) = (if s.rd (domField d) = 0 then 1 else s.rd (domField d))) ∧
      (bitOf v (domCode d) = true → s.pcr.dieShut = true → t.rd (domField d) = s.rd (domField d)) ∧
      (bitOf v (domCode d) = false → d ≠ .aon → d ≠ .hk → t.on (domCtl d) = false ∧ t.rd (domField d) = 0) ∧
      (d = .aon ∨ d = .hk → bitOf v (domCode d) = false → t.rd (domField d) = s.rd (domField d))) ∧
  (∀ (m : Master) (v : Word) (s : State), s.calm → s.numbered → s.reaches Reg.PCR_DOM_RST →
    ∃ t, exec (.domainReset m v) s = .next t ∧ (∀ d ∈ domains, t.rd (domField d) = s.rd (domField d)) ∧
      ((∀ d ∈ domains, d ≠ .aon → bitOf v (domCode d) = true → s.rd (domField d) ≠ 2) → t = s) ∧
      (bitOf v 12 = true → s.rd (domField .motion) = 2 → t.axes = []) ∧ (bitOf v 7 = true → s.rd (domField .place) = 2 → t.ctxs = []) ∧
      (bitOf v 1 = true → s.rd (domField .mgmt) = 2 → t.mp.running = false)) ∧
  (∀ (m : Master) (d : Domain) (v : Word) (s : State), s.calm → s.numbered → s.reaches Reg.PCR_DOM_RST →
    d ∈ [Domain.service, .place, .hpg 0, .hpg 1, .hpg 2, .hpg 3, .motion, .hk] → v.toNat = 2 ^ domCode d → s.rd (domField d) = 2 →
    ∃ t, exec (.domainReset m v) s = .next t ∧ (∀ a, inDomain d a = true → t.getReg a = resetWord a)) ∧
  (∀ (d : Fin 14) (e : Domain) (s : State), s.calm → e = domainOf d →
    (s.mp.running = false ∨ s.needsSequencer e = false ∨ s.domOn e = false → exec (.sequencerReload d) s = .next s) ∧
    (s.mp.running = true → s.needsSequencer e = true → s.domOn e = true →
      ∃ u, exec (.sequencerReload d) s = .next (State.watch s u) ∧ u.needsSequencer e = false ∧
        (e = .place → u.on Fld.CRV_STAT_SEQ_OK = true) ∧ (e = .motion → u.on Fld.TIL_STAT_SEQ_OK = true) ∧
        (∀ k, s.mp.cmd = some k → k.desc.opcode = 0x70 → domainOf (k.desc.fld 2 3 0) = e → k.desc.index < orphanMark → s.cqRoom →
          u.mp.cmd = none ∧ s.answered u 0 k.desc (if s.domainUsed e then 0 else 0x11) 2))) ∧
  (∀ s : State, s.calm →
    (s.on Fld.ESP_STAT_DS0_INIT = false ∨ s.domOn .ds0 = false → exec (.dsInitComplete false) s = .next s) ∧
    (s.on Fld.ESP_STAT_DS1_INIT = false ∨ s.domOn .ds1 = false → exec (.dsInitComplete true) s = .next s) ∧
    (s.on Fld.ESP_STAT_DS0_INIT = true → s.domOn .ds0 = true →
      ∃ t, exec (.dsInitComplete false) s = .next t ∧ t.on Fld.ESP_STAT_DS0_INIT = false ∧
        (s.mp.cmd = none → s.regsBut t [Reg.ESP_STAT] ∧ s.onlyRegs t) ∧
        (∀ k, s.mp.cmd = some k → s.mp.running = true → k.desc.opcode = 0x70 → domainOf (k.desc.fld 2 3 0) = .ds0 →
          k.desc.index < orphanMark → s.cqRoom → t.mp.cmd = none ∧ s.answered t 0 k.desc 0 2)) ∧
    (s.on Fld.ESP_STAT_DS1_INIT = true → s.domOn .ds1 = true →
      ∃ t, exec (.dsInitComplete true) s = .next t ∧ t.on Fld.ESP_STAT_DS1_INIT = false ∧
        (∀ k, s.mp.cmd = some k → s.mp.running = true → k.desc.opcode = 0x70 → domainOf (k.desc.fld 2 3 0) = .ds1 →
          k.desc.index < orphanMark → s.cqRoom → t.mp.cmd = none ∧ s.answered t 0 k.desc (if s.domainUsed .ds1 then 0 else 0x11) 2))) ∧
  (∀ (flash : FlashAnswer) (c : MpCmd) (kind n : Nat) (s : State), s.calm → s.numbered →
    (s.loadCommand 0x71 = none → exec (.unitRetire flash) s = .next s) ∧
    (s.carries 0x71 c → c.left = flashWorks → s.mp.cmd = some c →
      (flash = .busy → exec (.unitRetire flash) s = .next s) ∧
      (flash = .done → ∃ t, exec (.unitRetire flash) s = .next t ∧ t.mp.cmd = none ∧ s.answered t 0 c.desc 0 1 ∧ t.svc.recorded = true ∧
        t.nor = (s.writeSetting s.settingsCopy 0xF010 s.settingsFmt s.retiredBytes).nor) ∧
      (flash = .failed → ∃ t, exec (.unitRetire flash) s = .next t ∧ t.mp.cmd = none ∧ s.answered t 0 c.desc 0 0 ∧ t.svc.recorded = false ∧
        t.svc.recAt = s.tb.toNat)) ∧
    (s.carries 0x71 c → c.left = [] → kind = c.desc.fld 2 1 0 → n = c.desc.fld 2 15 8 →
      (retireBad kind n = true ∨ c.desc.reservedSet (commandLayout [0xFF03]) = true →
        ∃ t, exec (.unitRetire flash) s = .next t ∧ t.mp.cmd = none ∧ s.answered t 0 c.desc 0x10 1) ∧
      (retireBad kind n = false → c.desc.reservedSet (commandLayout [0xFF03]) = false →
        (if kind = 0 then s.portPresent n else if kind = 1 then s.ctxPresent n else s.bankPresent n) = false →
        ∃ t, exec (.unitRetire flash) s = .next t ∧ t.mp.cmd = none ∧ s.answered t 0 c.desc 0x11 0) ∧
      (retireBad kind n = false → c.desc.reservedSet (commandLayout [0xFF03]) = false →
        (if kind = 0 then s.portPresent n else if kind = 1 then s.ctxPresent n else s.bankPresent n) = true → s.mpMay 7 = false →
        ∃ t, exec (.unitRetire flash) s = .next t ∧ t.mp.cmd = none ∧ s.answered t 0 c.desc 0x12 0) ∧
      (retireBad kind n = false → c.desc.reservedSet (commandLayout [0xFF03]) = false →
        (if kind = 0 then s.portPresent n else if kind = 1 then s.ctxPresent n else s.bankPresent n) = true → s.mpMay 7 = true →
        ∃ t, exec (.unitRetire flash) s = .next t ∧ (kind = 0 → t.portPresent n = false ∧ t.on (Fld.PORT_CFG_EN n) = false) ∧
          (kind = 1 → t.ctxPresent n = false ∧ t.ctxState n = 0 ∧ (t.getCtx n).queue = [] ∧ (t.getCtx n).prods = []) ∧
          (kind = 2 → t.bankPresent n = false) ∧
          (s.norWindow = false → t.mp.cmd = none ∧ t.svc.recorded = false ∧ t.svc.recAt = s.tb.toNat ∧ t.nor = s.nor) ∧
          (s.norWindow = true → flash = .done → t.mp.cmd = none ∧ t.svc.recorded = true ∧
            t.nor = (s.writeSetting s.settingsCopy 0xF010 s.settingsFmt t.retiredBytes).nor) ∧
          (s.norWindow = true → flash = .failed → t.mp.cmd = none ∧ t.svc.recorded = false) ∧
          (s.norWindow = true → flash = .busy →
            t.mp.cmd.map (fun k => (k.desc, k.left)) = some (c.desc, flashWorks) ∧ t.holder 7 = 2 ∧ t.nor = s.nor)))) ∧
  (∀ (ok : Bool) (s : State), s.calm →
    exec (.retirementRetry ok) s = exec (.retirementRetry ok) s.dueErase ∧
    (s.dueErase = s → s.mp.running = false ∨ s.svc.recorded = true ∨ s.tb.toNat < s.svc.recAt + 240000000000 →
      exec (.retirementRetry ok) s = .next s) ∧
    (s.dueErase = s → s.mp.running = true → s.svc.recorded = false → s.svc.recAt + 240000000000 ≤ s.tb.toNat →
      (s.norWindow = false → exec (.retirementRetry ok) s = .next (s.onSvc (fun x => { x with recAt := s.tb.toNat }))) ∧
      (s.norWindow = true → ok = true → ∃ t, exec (.retirementRetry ok) s = .next t ∧ t.svc.recorded = true ∧
        t.nor = (s.writeSetting s.settingsCopy 0xF010 s.settingsFmt s.retiredBytes).nor) ∧
      (s.norWindow = true → ok = false → ∃ t, exec (.retirementRetry ok) s = .next t ∧ t.svc.recorded = false ∧ t.svc.recAt = s.tb.toNat ∧
        t.rakeQ.map (fun r => r.src) = s.rakeQ.map (fun r => r.src) ++ [0x20B])))

/-- Supplies and clocks (R138, R139, R387, R482, R521, R565 to R568, R572 to R575, R588): a warning is shown, counted and told, cuts the
pulse of the programming engine, and ends; a long one faults every bound context, in a freeze it is counted only; every 10 µs the AVS
code moves one step toward its request; TB_INC is written, and applies its bounds; a lost ring reference takes both ring links down; a
PLL that loses lock shows it and takes the calibration of its mirror, until it locks again. What is not due changes nothing. -/
def Obligations.SuppliesAndClocks : Prop :=
  (∀ (k : Fin 13) (s : State),
    (s.supplySeen k = false ∨ Store.get (fun _ => none) s.pcr.warnAt k ≠ none → exec (.supplyWarnBegin k) s = .next s) ∧
    (s.supplySeen k = true → Store.get (fun _ => none) s.pcr.warnAt k = none →
      ∃ t, exec (.supplyWarnBegin k) s = .next t ∧ bitOf (t.getReg Reg.PCR_SUP_STAT) k = true ∧ t.warned = true ∧
        t.rd (Fld.PCR_SUP_CNT_WARN k) = min (s.rd (Fld.PCR_SUP_CNT_WARN k) + 1) (2 ^ 16 - 1) ∧
        Store.get (fun _ => none) t.pcr.warnAt k = some s.tb.toNat ∧ t.otp.prog = s.otp.prog.map (fun x => { x with cut := true }) ∧
        s.regsBut t (Reg.PCR_SUP_STAT :: Reg.PCR_SUP_CNT k :: noticeWords) ∧
        (s.hf.active = true → s.regsBut t [Reg.PCR_SUP_STAT, Reg.PCR_SUP_CNT k] ∧ t.out = s.out))) ∧
  (∀ (k : Fin 13) (s : State),
    (s.hf.active = false → Store.get (fun _ => none) s.pcr.warnAt k = none → exec (.supplyWarnEnd k) s = .next (State.watch s s)) ∧
    (s.hf.active = true → Store.get (fun _ => none) s.pcr.warnAt k = none → exec (.supplyWarnEnd k) s = .next s) ∧
    (s.hf.active = false → Store.get (fun _ => none) s.pcr.warnAt k ≠ none →
      ∃ u, exec (.supplyWarnEnd k) s = .next (State.watch s u) ∧ bitOf (u.getReg Reg.PCR_SUP_STAT) k = false ∧
        Store.get (fun _ => none) u.pcr.warnAt k = none ∧ u.pcr.long.contains k.val = false ∧
        (u.warned = false → u.on Fld.PCR_SUP_STAT_LONG = false) ∧ s.regsBut u (Reg.PCR_SUP_STAT :: noticeWords)) ∧
    (s.hf.active = true → Store.get (fun _ => none) s.pcr.warnAt k ≠ none →
      ∃ t, exec (.supplyWarnEnd k) s = .next t ∧ bitOf (t.getReg Reg.PCR_SUP_STAT) k = false ∧
        Store.get (fun _ => none) t.pcr.warnAt k = none ∧ s.regsBut t [Reg.PCR_SUP_STAT] ∧ t.out = s.out)) ∧
  (∀ (k : Fin 13) (s : State), s.numbered →
    (Store.get (fun _ => none) s.pcr.warnAt k = none ∨ s.pcr.long.contains k.val = true ∨
      s.tb.toNat < (Store.get (fun _ => none) s.pcr.warnAt k).getD 0 + 8000000 → exec (.longWarning k) s = .next s) ∧
    (∀ b, Store.get (fun _ => none) s.pcr.warnAt k = some b → s.pcr.long.contains k.val = false → b + 8000000 ≤ s.tb.toNat →
      (s.hf.active = false →
        ∃ u, exec (.longWarning k) s = .next (State.watch s u) ∧ u.on Fld.PCR_SUP_STAT_LONG = true ∧
          u.rd (Fld.PCR_SUP_CNT_LONG k) = min (s.rd (Fld.PCR_SUP_CNT_LONG k) + 1) (2 ^ 16 - 1) ∧ u.pcr.long = k.val :: s.pcr.long ∧
          (∀ c < 255, s.ctxState c ≠ 0 → u.ctxState c = 5) ∧ (∀ p < 16, u.portReady p = false)) ∧
      (s.hf.active = true →
        ∃ t, exec (.longWarning k) s = .next t ∧ t.on Fld.PCR_SUP_STAT_LONG = true ∧
          t.rd (Fld.PCR_SUP_CNT_LONG k) = min (s.rd (Fld.PCR_SUP_CNT_LONG k) + 1) (2 ^ 16 - 1) ∧ t.pcr.long = k.val :: s.pcr.long ∧
          t.ctxs = s.ctxs ∧ t.out = s.out ∧ s.regsBut t [Reg.PCR_SUP_STAT, Reg.PCR_SUP_CNT k]))) ∧
  (∀ (want code : Nat) (s : State), want = min 20 (s.rd Fld.PCR_AVS_REQ) → code = s.rd Fld.PCR_AVS_CODE →
    (s.on Fld.PF_STAT_LOADED = false ∨ s.tb.toNat < s.pcr.avsAt + 40000 ∨ code = want → exec .avsStep s = .next s) ∧
    (s.on Fld.PF_STAT_LOADED = true → s.pcr.avsAt + 40000 ≤ s.tb.toNat → code ≠ want →
      ∃ t, exec .avsStep s = .next t ∧ t.rd Fld.PCR_AVS_CODE = (if code < want then code + 1 else code - 1) ∧ t.pcr.avsAt = s.tb.toNat ∧
        (∀ i < 5, t.vidBall i = (t.rd Fld.PCR_AVS_CODE).testBit i) ∧ s.regsBut t [Reg.PCR_AVS] ∧
        t = { s with regs := t.regs, pcr := t.pcr })) ∧
  (∀ (m : Master) (v : Word) (s : State), s.calm → s.reaches Reg.PCR_TB_INC →
    ∃ t, exec (.tbIncWrite m v) s = .next t ∧ t.getReg Reg.PCR_TB_INC = BitVec.ofNat 32 (max 0x9FF7CED9 (min 0xA0083127 v.toNat)) ∧
      t.tbInc = max 0x9FF7CED9 (min 0xA0083127 v.toNat) ∧ s.regsBut t [Reg.PCR_TB_INC] ∧ s.onlyRegs t) ∧
  (∀ s : State, s.calm →
    (s.domOn .ring = true →
      ∃ t, exec .ringRefclkLoss s = .next t ∧ t.on Fld.PCR_PLL_STAT_RING_REF_OK = false ∧ t.rportUp 0 = false ∧ t.rportUp 1 = false) ∧
    (s.domOn .ring = false →
      ∃ t, exec .ringRefclkLoss s = .next t ∧ t.on Fld.PCR_PLL_STAT_RING_REF_OK = false ∧ s.regsBut t [Reg.PCR_PLL_STAT] ∧ s.onlyRegs t)) ∧
  (∀ (i : Fin 27) (s : State), s.calm →
    (i.val = 0 ∨ s.domOn (islandDomain i) = false ∨ bitOf (s.getReg Reg.PCR_PLL_STAT) i = false → exec (.pllLockLoss i) s = .next s) ∧
    (i.val = 0 ∨ s.domOn (islandDomain i) = false → exec (.pllRelock i) s = .next s) ∧
    (i.val ≠ 0 → s.domOn (islandDomain i) = true → bitOf (s.getReg Reg.PCR_PLL_STAT) i = true →
      ∃ u, exec (.pllLockLoss i) s = .next (State.watch s u) ∧ bitOf (u.getReg Reg.PCR_PLL_STAT) i = false ∧
        (∀ k, islandMirror i = some k → (u.getMirror k).cal = false) ∧ s.regsBut u [Reg.PCR_PLL_STAT]) ∧
    (i.val ≠ 0 → s.domOn (islandDomain i) = true →
      ∃ t, exec (.pllRelock i) s = .next t ∧ bitOf (t.getReg Reg.PCR_PLL_STAT) i = true ∧ s.regsBut t [Reg.PCR_PLL_STAT] ∧ s.onlyRegs t))

/-- Resets (R17, R137, R472, R511, R560, R565, R569, R573, R576 to R578, R588): each warm reset keeps the RS fields, TB, the flash and
what the array holds, resets all else and makes a controller start due; a power-on reset clears TB and every register; after a die
shutdown RESET_N alone resets; the start records its sources and brings up the domains that are present, once no supply warns and no
freeze holds, and boots the MP. What is not due changes nothing. -/
def Obligations.Resets : Prop :=
  (∀ s : State, Store.wf resetWord s.regs = true →
    (∃ t, exec .resetN s = .next t ∧ Warmed s t 30 ∧ t.pcr.dieShut = s.pcr.dieShut) ∧
    (s.pcr.dieShut = false →
      (∃ t, exec .refclk25Loss s = .next t ∧ Warmed s t 28) ∧
      (∀ k : Fin 13, k.val ≠ 12 → s.supplySeen k = true → ∃ t, exec (.supplyReset k) s = .next t ∧ Warmed s t 29 ∧ t.pcr.supply = k.val) ∧
      (∀ (m : Master) (v : Word), s.calm → s.reaches Reg.PCR_RST → bitsOf v 15 0 = 0x7E57 →
        ∃ t, exec (.chipReset m v) s = .next t ∧ Warmed s t 27))) ∧
  (∀ (k : Fin 13) (m : Master) (v : Word) (s : State),
    (s.pcr.dieShut = true → exec .refclk25Loss s = .next s ∧ (k.val ≠ 12 → exec (.supplyReset k) s = .next s) ∧
      (s.calm → s.reaches Reg.PCR_RST → exec (.chipReset m v) s = .next s)) ∧
    (k.val ≠ 12 → s.supplySeen k = false → exec (.supplyReset k) s = .next s) ∧
    (s.calm → s.reaches Reg.PCR_RST → bitsOf v 15 0 ≠ 0x7E57 → exec (.chipReset m v) s = .next s)) ∧
  (∀ s : State, ∃ t, exec .powerOnReset s = .next t ∧ exec (.supplyReset 12) s = .next t ∧ t.regs = [] ∧ t.tb = 0 ∧
    t.otp = { t.otp with prog := none, inForce := [] } ∧
    t = { State.reset with
      pending := s.pending, out := s.out, nor := s.nor, free := t.free, otp := t.otp
      host := { HostSt.reset with perstLow := s.host.perstLow }, hf := { HfSt.reset with pinLow := s.hf.pinLow } }) ∧
  (∀ s : State, s.pcr.start = none ∨ s.warned = true ∨ s.hf.active = true → exec .controllerStart s = .next s) ∧
  (∀ (srcs : List Nat) (s : State), s.pcr.start = some srcs → s.warned = false → s.hf.active = false →
    ∃ u, exec .controllerStart s = .next (State.watch s u) ∧ u.pcr.start = none ∧ u.pcr.dieShut = false ∧ u.on Fld.PF_STAT_LOADED = true ∧
      u.rd Fld.PCR_RST_CAUSE_STARTS = (s.rd Fld.PCR_RST_CAUSE_STARTS + 1) % 2 ^ 8 ∧
      (∀ i ∈ srcs, 27 ≤ i → i ≤ 31 → bitOf (u.getReg Reg.PCR_RST_CAUSE) i = true) ∧
      (s.pcr.dieShut = true → u.on Fld.PCR_RST_CAUSE_DIE_SHUT = true) ∧
      (srcs.contains 29 = true → u.rd Fld.PCR_RST_CAUSE_SUP = s.pcr.supply % 16) ∧ u.tb = s.tb ∧ u.tap.drive = 0 ∧
      (∀ d ∈ [Domain.aon, .mgmt, .service, .host, .ring, .ds0, .place, .motion, .hk], u.domOn d = true) ∧
      (∀ d ∈ domains, u.units.has d = false → u.rd (domField d) = 3) ∧
      ((u.mp.running = true ∧ u.mp.rescue = false ∧ u.rd Fld.PCR_STAT_START = 4) ∨
        (u.mp.rescue = true ∧ u.rd Fld.PCR_STAT_START = 5)) ∧
      u.on Fld.HOST_STAT_CFG_RETRY = false)

/-- A freeze (R311, R439, R493, R585 to R589, R594, R595): a trigger records its cause and TB, cuts the strobes, brings the pads under
pad control and stops the islands; one during a freeze has no effect; FROZEN sets with the last island; a release comes by the pin that
froze it, by JTAG or at its time-out, never while FREEZE_N is low. It leaves every bound context FAULTED, every mirror to be calibrated
again, no port READY, the links down and no session of the loader; a moving axis is FROZEN; the watchdog has not counted the freeze. What
is not due changes nothing. While Hoarfrost holds the clocks, no command but those of resets, supplies, the OTP engine, the encoders'
levels and the TAP changes anything (R586, R588). -/
def Obligations.Freezing : Prop :=
  (∀ s : State, s.hf.active = false →
    ∃ t, exec .freezePin s = .next t ∧ t.hf.active = true ∧ t.hf.pinLow = true ∧ t.rd Fld.HF_STAT_CAUSE = 1 ∧
      t.rd64 Reg.HF_TB_LO = s.tb.toNat ∧ t.rd Fld.HF_CNT_COUNT = min (s.rd Fld.HF_CNT_COUNT + 1) (2 ^ 32 - 1) ∧
      (∀ p < 16, s.portPresent p = true → s.domOn (.hpg (portGroup p)) = true → (t.getPort p).pulse = none) ∧
      (∀ k < 8, t.rejBall k = false) ∧ t.intBallLow = false ∧ t.usbAttached = false ∧
      t.keep = (if s.on Fld.HF_CFG_FRZ_BYPASS then false else s.keep) ∧
      s.regsBut t [Reg.HF_STAT, Reg.HF_TB_LO, Reg.HF_TB_HI, Reg.HF_CNT]) ∧
  (∀ s : State, s.hf.active = true →
    exec .freezePin s = .next { s with hf := { s.hf with pinLow := true } } ∧
    ∃ t, exec .hfCtlFreeze s = .next t ∧ t.regs = s.regs ∧ t.hf = s.hf) ∧
  (∀ (m : Master) (v : Word) (s : State), s.calm → s.reaches Reg.HF_CTL →
    (bitOf v 31 = true → bitsOf v 15 0 = 0xC01D →
      ∃ t, exec (.freezeRegister m v) s = .next t ∧ t.hf.active = true ∧ t.rd Fld.HF_STAT_CAUSE = 2 ∧ t.rd64 Reg.HF_TB_LO = s.tb.toNat ∧
        t.rd Fld.HF_CNT_COUNT = min (s.rd Fld.HF_CNT_COUNT + 1) (2 ^ 32 - 1)) ∧
    (bitOf v 31 = false ∨ bitsOf v 15 0 ≠ 0xC01D → exec (.freezeRegister m v) s = .next s)) ∧
  (∀ (i : Fin 27) (s : State),
    (s.hf.active = false ∨ s.islandTakesPart i = false → exec (.islandStopped i) s = .next s) ∧
    (s.hf.active = true → s.islandTakesPart i = true →
      ∃ t, exec (.islandStopped i) s = .next t ∧ t.islandStopped i = true ∧ s.regsBut t [Reg.HF_STAT] ∧
        ((∀ j < 27, j ≠ i.val → s.islandTakesPart j = true → s.islandStopped j = true) → s.on Fld.HF_STAT_FROZEN = false →
          t.on Fld.HF_STAT_FROZEN = true ∧ t.hf.frozen = s.tb.toNat) ∧
        (∀ j < 27, j ≠ i.val → s.islandTakesPart j = true → s.islandStopped j = false →
          t.on Fld.HF_STAT_FROZEN = s.on Fld.HF_STAT_FROZEN))) ∧
  (∀ s : State, s.hf.active = false → ∃ t, exec .hfCtlFreeze s = .next t ∧ t.hf.active = true ∧ t.rd Fld.HF_STAT_CAUSE = 4 ∧
    t.rd64 Reg.HF_TB_LO = s.tb.toNat ∧ t.rd Fld.HF_CNT_COUNT = min (s.rd Fld.HF_CNT_COUNT + 1) (2 ^ 32 - 1)) ∧
  (∀ s : State,
    (s.hf.active = false ∨ s.rd Fld.HF_STAT_CAUSE ≠ 1 → exec .freezeReleasePin s = .next { s with hf := { s.hf with pinLow := false } }) ∧
    (s.hf.active = false ∨ s.hf.pinLow = true → ∃ t, exec .hfCtlRelease s = .next t ∧ t.hf = s.hf ∧ t.regs = s.regs) ∧
    (s.hf.active = false ∨ s.hf.pinLow = true ∨ s.on Fld.HF_STAT_FROZEN = false ∨ s.rd Fld.HF_CFG_REL_TMO = 0 ∨
      s.tb.toNat < s.hf.frozen + s.rd Fld.HF_CFG_REL_TMO * 4000000 → exec .releaseTimeout s = .next s)) ∧
  (∀ s : State, s.hf.active = true → s.numbered →
    (s.rd Fld.HF_STAT_CAUSE = 1 → exec .freezeReleasePin s = .next ({ s with hf := { s.hf with pinLow := false } } : State).release) ∧
    (s.hf.pinLow = false → s.on Fld.HF_STAT_FROZEN = true → s.rd Fld.HF_CFG_REL_TMO ≠ 0 →
      s.hf.frozen + s.rd Fld.HF_CFG_REL_TMO * 4000000 ≤ s.tb.toNat → exec .releaseTimeout s = .next s.release) ∧
    (s.hf.pinLow = false → ∃ t, exec .hfCtlRelease s = .next t ∧ t.hf.active = false ∧ t.on Fld.HF_STAT_FROZEN = false ∧
      ∀ c < 255, s.ctxState c ≠ 0 → t.ctxState c = 5)) ∧
  (∀ s t : State, s.hf.active = true → s.hf.pinLow = false → s.numbered → t = s.release →
    t.hf.active = false ∧ t.hf.perst = false ∧ t.on Fld.HF_STAT_FROZEN = false ∧ t.rd Fld.HF_STAT_STOPPED = 0 ∧
    t.rd Fld.HF_STAT_CAUSE = s.rd Fld.HF_STAT_CAUSE ∧ t.tap.drive = 0 ∧ t.tb = s.tb ∧
    (∀ c < 255, s.ctxState c ≠ 0 → t.ctxState c = 5) ∧ (∀ i < 17, (t.getMirror i).cal = false) ∧ (∀ p < 16, t.portReady p = false) ∧
    t.svc.session = none ∧ t.linkUp = false ∧ (s.domOn .ring = true → t.rportUp 0 = false ∧ t.rportUp 1 = false) ∧
    (∀ a < 8, s.domOn .motion = true → s.axState a ∈ [3, 4, 5] → t.axState a = 6 ∧ t.on (Fld.AX_STAT_POS_VALID a) = false) ∧
    t.pcr.fed = s.pcr.fed + (s.tb.toNat - s.rd64 Reg.HF_TB_LO) ∧
    (s.hf.perst = true → s.domOn .host = true → ∀ k : Fin 51, t.rd (Fld.HOST_RSTAT_STATE k) = 0)) ∧
  (∀ (c : Instr) (s : State), s.hf.active = true → runsFrozen c = false → exec c s = .next s)

/-- The TAP (R590 to R593, R626 to R628): an instruction loaded shifts out what the instruction register captures, 0x01, and then its
data register: the AON chain, an island's chain or its header alone, a word of a storage array, FROZEN and CAUSE, and those of the public
instructions; EXTEST, HIGHZ and CLAMP drive the pins only while RESET_N is low or the controller is frozen, and act as BYPASS else. The
number of an island's flip-flops and their values are free (log entry 1). -/
def Obligations.TestPort : Prop :=
  (∀ (n : BitVec 8) (s : State), exec (.hfSel n) s = .next { s with
    tap := { s.tap with ir := 0x30, drive := 0, sel := n.toNat }
    out := s.out ++ [.tdo (bitsFrom 8 1), .tdo (bitsFrom 8 s.tap.sel)] }) ∧
  (∀ s : State,
    (s.tap.sel = 0 → s.aonChain.length = 512 ∧ s.aonChain.take 64 = chainHeader 0 (s.on Fld.HF_STAT_FROZEN) 448 ∧
      exec .hfRead s = .next { s with
        tap := { s.tap with ir := 0x31, drive := 0 }
        out := s.out ++ [.tdo (bitsFrom 8 1), .tdo s.aonChain] }) ∧
    (0 < s.tap.sel → s.tap.sel ≤ 26 → s.islandStopped s.tap.sel = false →
      exec .hfRead s = .next { s with
        tap := { s.tap with ir := 0x31, drive := 0 }
        out := s.out ++ [.tdo (bitsFrom 8 1), .tdo (chainHeader s.tap.sel false 0)] }) ∧
    (26 < s.tap.sel →
      exec .hfRead s = .next { s with
        tap := { s.tap with ir := 0x31, drive := 0 }
        out := s.out ++ [.tdo (bitsFrom 8 1), .tdo []] })) ∧
  (∀ (regs : List Bool) (s : State), 0 < s.tap.sel → s.tap.sel ≤ 26 → s.islandStopped s.tap.sel = true →
    regs = (islandRegs s.tap.sel).flatMap (fun a => bitsFrom 32 (s.chainWord a).toNat) →
    ∃ t, exec .hfRead s = .next t ∧ t.out = s.out ++ [.tdo (bitsFrom 8 1),
        .tdo (chainHeader s.tap.sel true (regs.length + s.flipFlops.1.length) ++ regs ++ s.flipFlops.1)] ∧
      t = { s with tap := { s.tap with ir := 0x31, drive := 0 }, out := t.out, free := t.free }) ∧
  (∀ (a : BitVec 32) (s : State), ∃ t, exec (.hfMem a) s = .next t ∧
    t.out = s.out ++ [.tdo (bitsFrom 8 1), .tdo (bitsFrom 32 (s.arrayWord (s.tap.mem / 4 * 4)).1.toNat)] ∧
    t = { s with tap := { s.tap with ir := 0x32, drive := 0, mem := a.toNat }, out := t.out, free := t.free }) ∧
  (∀ (a : Nat) (s : State),
    (a < 0x4000000 → s.islandStopped 4 = true → s.bankPresent (bankOf a) = true → s.domOn (bankDomain (bankOf a)) = true →
      (s.arrayWord a).1 = bytesWord ((List.range 4).map (fun i => s.readByte (a + i)))) ∧
    (a < 0x4000000 → s.islandStopped 4 = false → (s.arrayWord a).1 = 0) ∧
    (0x20000000 ≤ a → a < 0x20200000 → s.islandStopped 1 = true → (s.arrayWord a).1 = (s.mpWord (a - 0x20000000)).1) ∧
    (0x20000000 ≤ a → a < 0x20200000 → s.islandStopped 1 = false → (s.arrayWord a).1 = 0) ∧
    (0x4300000 ≤ a → a < 0x4400000 → (∀ i, islandOf a = some i → s.islandStopped i = true) → (islandOf a).isSome = true →
      (s.arrayWord a).1 = s.getReg a) ∧
    (0x4000000 ≤ a → a < 0x20000000 ∨ 0x20200000 ≤ a → inArray a = false → (s.arrayWord a).1 = 0)) ∧
  (∀ s : State,
    (s.hf.active = true → exec .hfCtlFreeze s = .next { s with
      tap := { s.tap with ir := 0x33, drive := 0 }
      out := s.out ++ [.tdo (bitsFrom 8 1), .tdo (bitsFrom 8 (s.rd Fld.HF_STAT_CAUSE * 16 + s.rd Fld.HF_STAT_FROZEN * 128))] }) ∧
    (s.hf.active = false ∨ s.hf.pinLow = true → exec .hfCtlRelease s = .next { s with
      tap := { s.tap with ir := 0x33, drive := 0 }
      out := s.out ++ [.tdo (bitsFrom 8 1), .tdo (bitsFrom 8 (s.rd Fld.HF_STAT_CAUSE * 16 + s.rd Fld.HF_STAT_FROZEN * 128))] })) ∧
  (∀ s : State, exec .tapReset s = .next { s with tap := TapSt.reset }) ∧
  (∀ s : State, exec .idcode s = .next { s with
    tap := { s.tap with ir := 0x01, drive := 0 }
    out := s.out ++ [.tdo (bitsFrom 8 1), .tdo (bitsFrom 32 (0x10000BC7 + s.units.deviceId * 2 ^ 12))] }) ∧
  (∀ (pins cells : List Bool) (s : State), exec (.samplePreload pins cells) s = .next { s with
    tap := { s.tap with ir := 0x02, drive := 0, scan := cells }
    out := s.out ++ [.tdo (bitsFrom 8 1), .tdo pins] }) ∧
  (∀ (pins cells : List Bool) (s : State), s.on Fld.HF_STAT_FROZEN = true ∨ (s.pcr.start.getD []).contains 30 = true →
    exec (.extest pins cells) s = .next { s with
      tap := { s.tap with ir := 0x03, drive := 3, scan := cells }
      out := s.out ++ [.tdo (bitsFrom 8 1), .tdo pins] } ∧
    exec .highz s = .next { s with tap := { s.tap with ir := 0x04, drive := 4 }, out := s.out ++ [.tdo (bitsFrom 8 1), .tdo [false]] } ∧
    exec .clamp s = .next { s with tap := { s.tap with ir := 0x05, drive := 5 }, out := s.out ++ [.tdo (bitsFrom 8 1), .tdo [false]] }) ∧
  (∀ (pins cells : List Bool) (s : State), s.on Fld.HF_STAT_FROZEN = false → (s.pcr.start.getD []).contains 30 = false →
    exec (.extest pins cells) s = .next { s with
      tap := { s.tap with ir := 0x03, drive := 0 }
      out := s.out ++ [.tdo (bitsFrom 8 1), .tdo [false]] } ∧
    exec .highz s = .next { s with tap := { s.tap with ir := 0x04, drive := 0 }, out := s.out ++ [.tdo (bitsFrom 8 1), .tdo [false]] } ∧
    exec .clamp s = .next { s with tap := { s.tap with ir := 0x05, drive := 0 }, out := s.out ++ [.tdo (bitsFrom 8 1), .tdo [false]] }) ∧
  (∀ s : State, exec .bypass s = .next { s with
    tap := { s.tap with ir := 0xFF, drive := 0 }
    out := s.out ++ [.tdo (bitsFrom 8 1), .tdo [false]] })

/-- Register accesses of every block (R4, R15, R16, R17, R19, R20, R22, R27, R33, R37, R41, R42, R77, R267, R584): a write of a whole
word takes effect as its block gives it, a narrower one has none, a longer one is one write per doubleword in ascending order; a read
brings what the register shows, or the snapshot that the master holds of it, and takes the snapshot of an upper word; it changes nothing
but FRESH of NV_TEL and PCR_MP_LOAD. A doorbell reads as HOST_RPROD. An access to an address in no block, or in a domain that is off, is
reported with its master and reads 0; one to an absent unit reads 0 beyond its ID, one to a unit held in reset reads the reset value, and
a write of either has no effect. That a master's snapshot of the upper word of a wide RW number stands before the word in force is the
model's choice (log entry 97), and so are the free values of the buffer and of PCR_MP_LOAD (log entry 1). -/
def Obligations.RegisterAccess : Prop :=
  (∀ (m : Master) (a : BusAddr) (b : BlockName) (c off : Nat) (v : Word) (s : State), s.calm → 0x4000000 ≤ deviceAddr a →
    deviceAddr a % 4 = 0 → inWindow (deviceAddr a) = false → s.reach (deviceAddr a) = .open b c off →
    exec (.registerWrite m a 4 [v]) s = .next (State.watch s (s.writeOpen m b c (deviceAddr a) v)) ∧
    (b ∈ [.cons, .svc] → exec (.registerWrite m a 4 [v]) s = .next (State.watch s (s.writeCode m (deviceAddr a) v))) ∧
    (b = .wram → exec (.registerWrite m a 4 [v]) s = .next (State.watch s ((s.playNow c).writeCode m (deviceAddr a) v)))) ∧
  (∀ (m : Master) (a : Nat) (v : Word) (s : State), rowOf a = none → s.writeCode m a v = s) ∧
  (∀ (m : Master) (a : Nat) (v : Word) (r : RegRow) (s : State), rowOf a = some r →
    (r.wlen ≤ 1 ∨ r.rw = 0 →
      (s.writeCode m a v).getReg a = r.written (s.getReg a) v ∧ s.regsBut (s.writeCode m a v) [a] ∧ s.onlyRegs (s.writeCode m a v)) ∧
    (1 < r.wlen → r.rw ≠ 0 → r.wide + 1 < r.wlen →
      (s.writeCode m a v).regs = s.regs ∧ Store.get (fun _ => none) (s.writeCode m a v).staged (masterKey m a) = some v) ∧
    (r.rw ≠ 0 → r.wide = 1 → r.wlen = 2 → ∀ w, Store.get (fun _ => none) s.staged (masterKey m (a - 4)) = some w → ∀ q,
      rowOf (a - 4) = some q → 4 ≤ a →
      (s.writeCode m a v).getReg a = r.written (s.getReg a) v ∧ (s.writeCode m a v).getReg (a - 4) = q.written (s.getReg (a - 4)) w ∧
        s.regsBut (s.writeCode m a v) [a, a - 4])) ∧
  (∀ (r : RegRow) (old v : Word) (i : Nat), i < 32 →
    (r.w1s.testBit i = true → v.getLsbD i = true → (r.written old v).getLsbD i = true) ∧
    (r.w1s.testBit i = false ∨ v.getLsbD i = false → r.w1c.testBit i = true → v.getLsbD i = true → (r.written old v).getLsbD i = false) ∧
    (r.w1s.testBit i = false → r.w1c.testBit i = false → r.rw.testBit i = true → (r.written old v).getLsbD i = v.getLsbD i) ∧
    (r.rw.testBit i = false → v.getLsbD i = false ∨ (r.w1s.testBit i = false ∧ r.w1c.testBit i = false) →
      (r.written old v).getLsbD i = old.getLsbD i)) ∧
  (∀ (m : Master) (a : BusAddr) (len : Nat) (b : BlockName) (c off : Nat) (v : Word) (s : State), s.calm → 0x4000000 ≤ deviceAddr a →
    inWindow (deviceAddr a) = false → 0 < len → len < 4 → deviceAddr a % 4 + len ≤ 4 →
    s.reach (deviceAddr a / 4 * 4) = .open b c off → exec (.registerWrite m a len [v]) s = .next (State.watch s s)) ∧
  (∀ (m : Master) (a : BusAddr) (words : List Word) (s : State), s.hf.active = false → 0x4000000 ≤ deviceAddr a → deviceAddr a % 4 = 0 →
    words ≠ [] →
    exec (.registerWrite m a (4 * words.length) words) s =
      .next (State.watch s (words.zipIdx.foldl (fun t x => t.writeReg m (deviceAddr a + 4 * x.2) x.1) s))) ∧
  (∀ (m : Master) (a : BusAddr) (len w : Nat) (b : BlockName) (c off : Nat) (s : State), s.calm → 0x4000000 ≤ deviceAddr a →
    inWindow (deviceAddr a) = false → 0 < len → deviceAddr a % 4 + len ≤ 4 → w = deviceAddr a / 4 * 4 → s.reach w = .open b c off →
    (b ≠ .buf → w ≠ Reg.PCR_MP_LOAD → s.snap m w = none →
      ∃ t, exec (.registerRead m a len) s = .next t ∧ t.out = s.out ++ [.read m w (s.viewReg m b c off w)] ∧
        s.regsBut t ((List.range 8).map (fun i => Reg.NV_TEL c i)) ∧
        (b = .port → ∀ i < 8, w = Reg.NV_TEL c i → t.on (Fld.NV_TEL_FRESH c i) = false) ∧
        (∀ r, rowOf w = some r → r.wlen = 2 → r.wide = 0 → b ∉ [.shr, .dib] → t.snap m (w + 4) = some (s.viewReg m b c (w + 4 - (w - off)) (w + 4))) ∧
        t = { s with regs := t.regs, out := t.out, snaps := t.snaps }) ∧
    (b ≠ .buf → ∀ x, s.snap m w = some x → exec (.registerRead m a len) s = .next { s with out := s.out ++ [.read m w x] }) ∧
    (b = .db → s.snap m w = none → ∀ k : Fin 49, w = Reg.DOORBELL k →
      ∃ t, exec (.registerRead m a len) s = .next t ∧ t.out = s.out ++ [.read m w (s.getReg (Reg.HOST_RPROD k))]) ∧
    (b = .buf → s.bar.used = false ∨ s.bar.fresh.contains w = true → s.snap m w = none →
      ∃ t, exec (.registerRead m a len) s = .next t ∧ t.out = s.out ++ [.read m w (s.getReg w)] ∧ s.regsBut t []) ∧
    (b = .buf → s.bar.used = true → s.bar.fresh.contains w = false →
      ∃ t, exec (.registerRead m a len) s = .next t ∧ t.out = s.out ++ [.read m w s.drawWord.1] ∧ t = { s with out := t.out, free := t.free }) ∧
    (b = .pcr → w = Reg.PCR_MP_LOAD → s.snap m w = none →
      ∃ t v, exec (.registerRead m a len) s = .next t ∧ t.out = s.out ++ [.read m w v] ∧ s.regsBut t [Reg.PCR_MP_LOAD] ∧
        bitsOf v Fld.PCR_MP_LOAD_LOAD.hi Fld.PCR_MP_LOAD_LOAD.lo = t.rd Fld.PCR_MP_LOAD_LOAD ∧
        (s.mp.running = true → t.rd Fld.PCR_MP_LOAD_LOAD ≤ 100 ∧
          t.rd Fld.PCR_MP_LOAD_PEAK = max (t.rd Fld.PCR_MP_LOAD_LOAD) (s.rd Fld.PCR_MP_LOAD_PEAK)) ∧
        (s.mp.running = false → s.regsBut t []))) ∧
  (∀ (m : Master) (a : BusAddr) (n : Nat) (s : State), s.hf.active = false → 0x4000000 ≤ deviceAddr a → deviceAddr a % 4 = 0 → 0 < n →
    exec (.registerRead m a (4 * n)) s =
      .next (((s.readRegs m ((List.range n).map (fun i => deviceAddr a + 4 * i))).1.foldl (fun t x => t.emit (.read m x.1 x.2)))
        (s.readRegs m ((List.range n).map (fun i => deviceAddr a + 4 * i))).2)) ∧
  (∀ (m : Master) (a : BusAddr) (len w : Nat) (v : Word) (s : State), s.calm → 0x4000000 ≤ deviceAddr a →
    inWindow (deviceAddr a) = false → 0 < len → deviceAddr a % 4 + len ≤ 4 → w = deviceAddr a / 4 * 4 →
    (∀ src, (s.reach w = .unmapped ∧ src = 0x200) ∨ (s.reach w = .off ∧ src = 0x201) →
      (∃ u r, exec (.registerWrite m a len [v]) s = .next (State.watch s u) ∧ u = { s with rakeQ := s.rakeQ ++ [r] } ∧ r.src = src ∧
        r.synd = BitVec.ofNat 32 w ∧ r.mast = masterCode m) ∧
      (∃ t r, exec (.registerRead m a len) s = .next t ∧ t.out = s.out ++ [.read m w 0] ∧ t.rakeQ = s.rakeQ ++ [r] ∧
        r.src = src ∧ r.synd = BitVec.ofNat 32 w ∧ r.mast = masterCode m ∧ t = { s with out := t.out, rakeQ := t.rakeQ })) ∧
    (∀ b c off, s.reach w = .absent b c off →
      exec (.registerWrite m a len [v]) s = .next (State.watch s s) ∧
      exec (.registerRead m a len) s = .next { s with out := s.out ++ [.read m w (if off = 0 then resetWord w else 0)] }) ∧
    (s.reach w = .held →
      exec (.registerWrite m a len [v]) s = .next (State.watch s s) ∧
      exec (.registerRead m a len) s = .next { s with out := s.out ++ [.read m w (resetWord w)] })) ∧
  (∀ (m : Master) (a : BusAddr) (v : Word) (s : State), s.calm → inWindow (deviceAddr a) = true → deviceAddr a % 4 = 0 →
    (s.domOn .mgmt = true → s.windowOpen = true →
      (∃ u, exec (.registerWrite m a 4 [v]) s = .next (State.watch s u) ∧ (u.mpWord (s.windowAddr (deviceAddr a))).1 = v ∧
        u = { s with mp := { s.mp with mem := u.mp.mem } }) ∧
      (∃ t, exec (.registerRead m a 4) s = .next t ∧
        t.out = s.out ++ [.read m (deviceAddr a) (s.mpWord (s.windowAddr (deviceAddr a))).1] ∧ t = { s with out := t.out, free := t.free })) ∧
    (s.domOn .mgmt = true → s.windowOpen = false →
      exec (.registerWrite m a 4 [v]) s = .next (State.watch s s) ∧
      exec (.registerRead m a 4) s = .next { s with out := s.out ++ [.read m (deviceAddr a) 0] }) ∧
    (s.domOn .mgmt = false →
      (∃ u r, exec (.registerWrite m a 4 [v]) s = .next (State.watch s u) ∧ u = { s with rakeQ := s.rakeQ ++ [r] } ∧ r.src = 0x201 ∧
        r.synd = BitVec.ofNat 32 (deviceAddr a) ∧ r.mast = masterCode m) ∧
      (∃ t r, exec (.registerRead m a 4) s = .next t ∧ t.out = s.out ++ [.read m (deviceAddr a) 0] ∧ t.rakeQ = s.rakeQ ++ [r] ∧
        r.src = 0x201 ∧ r.mast = masterCode m)))

/-- A command that writes a register whose unit is absent, retired or held in reset has no effect, and one whose register lies in a
domain that is off is reported with its master (R3, R4, R22, R27); so it is for every command that is a register write. -/
def Obligations.RefusedWrites : Prop :=
  (∀ (c : Instr) (m : Master) (a : Nat) (s u : State), s.calm → writeTarget c = some (m, a) → s.turned m a u → exec c s = .next u) ∧
  (∀ (c : Instr) (m : Master) (a : Nat) (s u : State), s.calm → watchedTarget c = some (m, a) → s.turned m a u →
    exec c s = .next (State.watch s u)) ∧
  (∀ (c : Instr) (m : Master) (a : Nat) (s : State), s.hf.active = true → writeTarget c = some (m, a) ∨ watchedTarget c = some (m, a) →
    exec c s = .next s)

/-- After power-on reset (R18, R47, R70, R71, R97, R137): TB is 0, every ring is DISABLED at INDEX 0, PHASE 1, every token is free and
every context UNBOUND; every register word is at the value of the register map. The state after reset meets the invariant of
`Obligations.StepKeepsForm`. -/
def Obligations.ResetState : Prop :=
  State.reset.tb = 0 ∧ State.reset.pending = [] ∧ State.reset.out = [] ∧ (∀ a, State.reset.getReg a = resetWord a) ∧
  (∀ k : Fin 51, State.reset.rd (Fld.HOST_RSTAT_STATE k) = 0 ∧ State.reset.on (Fld.HOST_RCTL_ENABLE k) = false ∧
    State.reset.getReg (Reg.HOST_RPROD k) = 0x10000 ∧ State.reset.getReg (Reg.HOST_RCONS k) = 0x10000) ∧
  (∀ n : Fin 32, State.reset.holder n = 0 ∧ State.reset.rd (Fld.OWN_TAG n) = 0) ∧
  (∀ c : Fin 255, State.reset.ctxState c = 0 ∧ State.reset.on (Fld.CTX_STATE_HALT_PEND c) = false) ∧
  State.reset.canonical ∧ State.reset.numbered

/-- Every step keeps the canonical form of the dot store, the flash, the MP memory and the register words, and the contexts within the
numbers that a context field can name (R85, R96). -/
def Obligations.StepKeepsForm : Prop :=
  ∀ s t : State, s.canonical → s.numbered → step s = .next t → t.canonical ∧ t.numbered

/-- Commands run first in, first out, and what has gone outward is never taken back: a step takes the front command away and nothing else
of the queue. -/
def Obligations.StepKeepsOrder : Prop :=
  (∀ (s t : State) (c : Instr) (rest : List Instr), s.pending = c :: rest → step s = .next t → t.pending = rest ∧ s.sentBefore t) ∧
  (∀ s t : State, s.pending = [] → step s = .next t → t.pending = [] ∧ s.sentBefore t)

/-- Identity registers (R46, R64, R96): HOST_WHOAMI answers the identity of the master that reads it; HOST_ID the Device ID, PRESENT and
unit number 1; CTX_ID the context's number, with PRESENT set only while the context is present and not retired. -/
def Obligations.IdentityRegisters : Prop :=
  (∀ (m : Master) (s : State), s.calm → s.domOn .host = true → (∀ a, s.snap m a = none) →
    (∃ t, exec (.registerRead m ⟨.device, 0x4D0F080⟩ 4) s = .next t ∧
      t.out = s.out ++ [.read m 0x4D0F080 (BitVec.ofNat 32 (masterCode m))] ∧ s.regsBut t []) ∧
    (∃ t v, exec (.registerRead m ⟨.device, Reg.HOST_ID⟩ 4) s = .next t ∧ t.out = s.out ++ [.read m Reg.HOST_ID v] ∧
      bitsOf v 31 16 = s.units.deviceId % 2 ^ 16 ∧ bitsOf v 15 9 = 0 ∧ bitOf v 8 = true ∧ bitsOf v 7 0 = 1 ∧ s.regsBut t [])) ∧
  (∀ (m : Master) (n : Fin 255) (s : State), s.calm → s.domOn .place = true → (∀ a, s.snap m a = none) →
    ∃ t v, exec (.registerRead m ⟨.device, Reg.CTX_ID n⟩ 4) s = .next t ∧ t.out = s.out ++ [.read m (Reg.CTX_ID n) v] ∧
      bitsOf v 31 9 = 0 ∧ bitOf v 8 = s.ctxPresent n ∧ bitsOf v 7 0 = n.val ∧ s.regsBut t [])

/-- Setting the position of an axis (R438, R445): at standstill or in FROZEN, XACT becomes XSET, ADDR stays, CNT0 and XE0 are captured
and POS_VALID sets; while the axis moves nothing changes. With SOFTSTOP in the same write the axis stops softly first, and one with STOP
is a stop request alone. -/
def Obligations.SetPosition : Prop :=
  ∀ (m : Master) (a : Fin 8) (v : Word) (s : State), s.calm → s.reaches (Reg.AX_CTL a) →
    (bitOf v 31 = true → exec (.setPos m a v) s = exec (.axisStop m a v) s) ∧
    (bitOf v 31 = false → s.stands a = true →
      ∃ t, exec (.setPos m a v) s = .next t ∧ t.getReg (Reg.AX_XACT a) = s.getReg (Reg.AX_XSET a) ∧
        (t.getAxis a).x = signedOf 32 (s.getReg (Reg.AX_XSET a)).toNat * 65536 ∧ t.rd (Fld.AX_MS_ADDR a) = s.rd (Fld.AX_MS_ADDR a) ∧
        (t.getAxis a).cnt0 = s.encCount (s.rd (Fld.AX_CFG_ENC a)) ∧ (t.getAxis a).xe0 = (t.getAxis a).xact ∧
        t.on (Fld.AX_STAT_POS_VALID a) = true ∧ s.regsBut t [Reg.AX_XACT a, Reg.AX_MS a, Reg.AX_STAT a] ∧
        t = { s with regs := t.regs, axes := t.axes }) ∧
    (bitOf v 31 = false → bitOf v 30 = false → s.stands a = false → exec (.setPos m a v) s = .next s) ∧
    (bitOf v 31 = false → bitOf v 30 = true → s.axState a ∈ [3, 5] → (s.getAxis a).group = none → (s.getAxis a).run = true →
      (s.getAxis a).took = false →
      ∃ t, exec (.setPos m a v) s = .next t ∧ (t.getAxis a).rev = true ∧ (t.getAxis a).ending = 4 ∧ (t.getAxis a).x = (s.getAxis a).x ∧
        s.regsBut t []) ∧
    (bitOf v 31 = false → bitOf v 30 = true → s.axState a ∈ [3, 5] → (s.getAxis a).group = none → (s.getAxis a).run = false →
      (s.getAxis a).took = false →
      ∃ t, exec (.setPos m a v) s = .next t ∧ CameToRest s t a 4 ∧ t.getReg (Reg.AX_XACT a) = s.getReg (Reg.AX_XSET a) ∧
        t.on (Fld.AX_STAT_POS_VALID a) = true) ∧
    (bitOf v 31 = false → bitOf v 30 = true → s.axState a = 4 → (s.getAxis a).took = false →
      ∃ t, exec (.setPos m a v) s = .next t ∧ t.axState a = 3 ∧ (t.getAxis a).rev = true ∧ (t.getAxis a).x = (s.getAxis a).x)
end

