-- ==== Sys2Proof/Laws/Store.lean ====
section
/-! SUPPORT. The laws of the sparse maps: a read after a write, and the canonical form that every operation keeps. -/

namespace Sys2Proof.Machine

variable {α : Type} {d : Nat → α}

/-- In a canonical map every key is above a bound that is below its first key. -/
def Store.above (b : Nat) (m : Store α) : Prop := ∀ c ∈ m, b < c.1

section
variable [DecidableEq α]

theorem Store.wf_cons {j : Nat} {w : α} {t : Store α} :
    Store.wf d ((j, w) :: t) = true ↔ w ≠ d j ∧ Store.above j t ∧ Store.wf d t = true := by
  induction t generalizing j w with
  | nil => simp [Store.wf, Store.above]
  | cons c t ih =>
    obtain ⟨k, v⟩ := c
    have h := @ih k v
    simp only [Store.wf, Bool.and_eq_true, decide_eq_true_eq]
    constructor
    · rintro ⟨⟨h1, h2⟩, h3⟩
      refine ⟨h1, ?_, h3⟩
      intro c hc
      rcases List.mem_cons.1 hc with rfl | hc
      · exact h2
      · exact Nat.lt_trans h2 ((h.1 h3).2.1 c hc)
    · rintro ⟨h1, h2, h3⟩
      exact ⟨⟨h1, h2 (k, v) (List.mem_cons_self ..)⟩, h3⟩

end

theorem Store.get_above {b k : Nat} {m : Store α} (h : Store.above b m) (hk : k ≤ b) : Store.get d m k = d k := by
  cases m with
  | nil => rfl
  | cons c t =>
    obtain ⟨j, v⟩ := c
    have := h (j, v) (List.mem_cons_self ..)
    simp only [Store.get]
    rw [if_neg (by simp at this; omega), if_pos (by simp at this; omega)]

theorem Store.above_drop {b : Nat} {p : Nat → Bool} {m : Store α} (h : Store.above b m) : Store.above b (Store.drop p m) :=
  fun c hc => h c (List.mem_filter.1 hc).1

variable [DecidableEq α]

theorem Store.above_put {b k : Nat} {v : α} {m : Store α} (h : Store.above b m) (hk : b < k) : Store.above b (Store.put d m k v) := by
  induction m with
  | nil => unfold Store.put; split <;> simp [Store.above, hk]
  | cons c t ih =>
    obtain ⟨j, w⟩ := c
    have hj := h (j, w) (List.mem_cons_self ..)
    have ht : Store.above b t := fun c hc => h c (List.mem_cons_of_mem _ hc)
    unfold Store.put
    split
    · split
      · exact h
      · exact fun c hc => (by rcases List.mem_cons.1 hc with rfl | hc; exact hk; exact h c hc)
    · split
      · split
        · exact ht
        · exact fun c hc => (by rcases List.mem_cons.1 hc with rfl | hc; exact hk; exact ht c hc)
      · exact fun c hc => (by rcases List.mem_cons.1 hc with rfl | hc; exact hj; exact ih ht c hc)

omit [DecidableEq α] in
theorem Store.opens_of_above {k : Nat} {m : Store α} (h : Store.above k m) : Store.opens k m = true := by
  cases m with
  | nil => rfl
  | cons c t => simpa [Store.opens] using h c (List.mem_cons_self ..)

omit [DecidableEq α] in
theorem Store.get_opens {k l : Nat} {m : Store α} (h : Store.opens k m = true) (hl : l ≤ k) : Store.get d m l = d l := by
  cases m with
  | nil => rfl
  | cons c t =>
    obtain ⟨j, v⟩ := c
    have : k < j := by simpa [Store.opens] using h
    simp only [Store.get]
    rw [if_neg (by omega), if_pos (by omega)]

/-- A write keeps the canonical form. -/
theorem Store.wf_put {m : Store α} (h : Store.wf d m = true) (k : Nat) (v : α) : Store.wf d (Store.put d m k v) = true := by
  induction m with
  | nil =>
    unfold Store.put
    split
    · rfl
    · simpa [Store.wf] using ‹¬v = d k›
  | cons c t ih =>
    obtain ⟨j, w⟩ := c
    obtain ⟨h1, h2, h3⟩ := Store.wf_cons.1 h
    unfold Store.put
    split
    · split
      · exact h
      · refine Store.wf_cons.2 ⟨‹_›, ?_, h⟩
        intro c hc
        rcases List.mem_cons.1 hc with rfl | hc
        · assumption
        · exact Nat.lt_trans ‹k < j› (h2 c hc)
    · split
      · subst k
        have ho := Store.opens_of_above h2
        split
        · exact h3
        · exact Store.wf_cons.2 ⟨fun hv => ‹¬(v = d j ∧ _)› ⟨hv, ho⟩, h2, h3⟩
      · exact Store.wf_cons.2 ⟨h1, Store.above_put h2 (by omega), ih h3⟩

/-- A read after a write of the same key gives the value written. -/
@[simp] theorem Store.get_put_same (m : Store α) (k : Nat) (v : α) : Store.get d (Store.put d m k v) k = v := by
  induction m with
  | nil => unfold Store.put; split <;> simp_all [Store.get]
  | cons c t ih =>
    obtain ⟨j, w⟩ := c
    unfold Store.put
    split
    · split
      · simp only [Store.get]
        rw [if_neg (by omega), if_pos ‹_›]
        exact ‹v = d k›.symm
      · simp [Store.get]
    · split
      · split
        · obtain ⟨hv, ho⟩ := ‹v = d k ∧ Store.opens k t = true›
          rw [Store.get_opens ho (Nat.le_refl _), hv]
        · simp [Store.get]
      · simp only [Store.get]
        rw [if_neg (by omega), if_neg (by omega)]
        exact ih

/-- A write leaves every other key alone. -/
theorem Store.get_put_ne (m : Store α) {k l : Nat} (v : α) (hne : l ≠ k) :
    Store.get d (Store.put d m k v) l = Store.get d m l := by
  induction m with
  | nil => unfold Store.put; split <;> simp [Store.get, hne]
  | cons c t ih =>
    obtain ⟨j, w⟩ := c
    unfold Store.put
    split
    · split
      · rfl
      · simp only [Store.get]
        rw [if_neg hne]
        split
        · rw [if_neg (by omega), if_pos (by omega)]
        · rfl
    · split
      · subst k
        split
        · obtain ⟨_, ho⟩ := ‹v = d j ∧ Store.opens j t = true›
          simp only [Store.get, if_neg hne]
          split
          · exact Store.get_opens ho (by omega)
          · rfl
        · simp only [Store.get, if_neg hne]
      · simp only [Store.get, ih]

/-- A read after a write, at any key. -/
theorem Store.get_put (m : Store α) (k l : Nat) (v : α) :
    Store.get d (Store.put d m k v) l = if l = k then v else Store.get d m l := by
  split
  · subst l; simp
  · exact Store.get_put_ne m v ‹_›

/-- Writes one after another keep the canonical form. -/
theorem Store.wf_foldl_put {β : Type} {m : Store α} (h : Store.wf d m = true) (l : List β) (k : β → Nat) (v : Store α → β → α) :
    Store.wf d (l.foldl (fun m b => Store.put d m (k b) (v m b)) m) = true := by
  induction l generalizing m with
  | nil => exact h
  | cons b t ih => exact ih (Store.wf_put h _ _)

/-- Taking keys away keeps the canonical form. -/
theorem Store.wf_drop {m : Store α} (h : Store.wf d m = true) (p : Nat → Bool) : Store.wf d (Store.drop p m) = true := by
  induction m with
  | nil => rfl
  | cons c t ih =>
    obtain ⟨j, w⟩ := c
    obtain ⟨h1, h2, h3⟩ := Store.wf_cons.1 h
    unfold Store.drop
    rw [List.filter_cons]
    split
    · exact Store.wf_cons.2 ⟨h1, Store.above_drop h2, ih h3⟩
    · exact ih h3

/-- After keys are taken away, one that was taken reads as its default, and every other as before. -/
theorem Store.get_drop {m : Store α} (h : Store.wf d m = true) (p : Nat → Bool) (k : Nat) :
    Store.get d (Store.drop p m) k = if p k then d k else Store.get d m k := by
  induction m with
  | nil => simp [Store.drop, Store.get]
  | cons c t ih =>
    obtain ⟨j, w⟩ := c
    obtain ⟨h1, h2, h3⟩ := Store.wf_cons.1 h
    have ht := ih h3
    unfold Store.drop at ht ⊢
    rw [List.filter_cons]
    by_cases hp : p j <;> simp only [hp, Bool.not_true, Bool.not_false, Bool.false_eq_true, if_false, if_true]
    · rw [ht]
      by_cases hk : k = j
      · subst hk; simp [hp]
      · simp only [Store.get, if_neg hk]
        by_cases hlt : k < j
        · rw [Store.get_above h2 (by omega)]; simp [hlt]
        · simp [hlt]
    · simp only [Store.get, ht]
      by_cases hk : k = j
      · subst hk; simp [hp]
      · simp only [if_neg hk]
        by_cases hlt : k < j <;> simp [hlt]

end Sys2Proof.Machine
end

