-- ==== Sys2Proof/Laws/Kept.lean ====
section
/-! SUPPORT. What every operation of the machine keeps: the queue, the canonical form of its memories and registers, and what has gone
outward. One lemma for each operation says so, and the meanings compose them. -/

namespace Sys2Proof.Machine

/-- From `s` to `t` the queue stands, canonical memories stay canonical, and the outward log grows. -/
structure Kept (s t : State) : Prop where
  queue : t.pending = s.pending
  sent  : s.sentBefore t
  dots  : memWf s.mem → memWf t.mem
  flash : Store.wf norErased s.nor = true → Store.wf norErased t.nor = true
  code  : Store.wf (fun _ => none) s.mp.mem = true → Store.wf (fun _ => none) t.mp.mem = true
  words : Store.wf resetWord s.regs = true → Store.wf resetWord t.regs = true

theorem Kept.refl (s : State) : Kept s s := ⟨rfl, ⟨[], by simp⟩, id, id, id, id⟩

theorem Kept.trans {s t u : State} (h : Kept s t) (k : Kept t u) : Kept s u where
  queue := k.queue.trans h.queue
  sent := by
    obtain ⟨l, hl⟩ := h.sent
    obtain ⟨m, hm⟩ := k.sent
    exact ⟨l ++ m, by rw [hm, hl, List.append_assoc]⟩
  dots := k.dots ∘ h.dots
  flash := k.flash ∘ h.flash
  code := k.code ∘ h.code
  words := k.words ∘ h.words

/-- An update of other fields keeps them. -/
theorem Kept.upd {s x : State} {snaps'} {staged'} {tb'} {tbFrac'} {free'} {rakeQ'} {host'} {bar'} {ring'} {mp'} {units'} {ctxs'} {trackers'} {encoders'} {mirrors'} {esp'} {ports'} {portFire'} {rangeFire'} {throttle'} {rejActive'} {hk'} {maskCheck'} {injLast'} {walk'} {keep'} {beat'} {axes'} {rake'} {otp'} {svc'} {consum'} {pcr'} {hf'} {tap'} {round'} {late'} (h : Kept s x) (hm : mp'.mem = x.mp.mem) :
    Kept s ⟨x.pending, x.regs, snaps', staged', x.mem, tb', tbFrac', free', x.out, rakeQ', host', bar', ring', mp', units', ctxs', trackers', encoders', mirrors', esp', ports', portFire', rangeFire', throttle', rejActive', hk', maskCheck', injLast', walk', keep', beat', axes', rake', otp', x.nor, svc', consum', pcr', hf', tap', round', late'⟩ :=
  h.trans ⟨rfl, ⟨[], by simp⟩, id, id, by rw [hm]; exact id, id⟩

theorem Kept.ite {s a b : State} {c : Prop} [Decidable c] (h : Kept s a) (k : Kept s b) : Kept s (if c then a else b) := by
  split
  · exact h
  · exact k

theorem Kept.ofEq3 {α β : Type} {s t : State} {p : α × β × State} {a : α} {b : β} (h : p = (a, b, t)) (k : Kept s p.2.2) : Kept s t := by
  subst h; exact k

theorem Kept.elim {α : Type} {s0 a : State} {f : α → State} (o : Option α) (h : Kept s0 a) (k : ∀ x, Kept s0 (f x)) : Kept s0 (o.elim a f) := by
  cases o with
  | none => exact h
  | some x => exact k x

theorem Kept.foldl {α : Type} {f : State → α → State} {s0 s : State} (l : List α) (hs : Kept s0 s) (h : ∀ s x, Kept s (f s x)) :
    Kept s0 (l.foldl f s) := by
  induction l generalizing s with
  | nil => exact hs
  | cons x t ih => exact ih (hs.trans (h s x))

theorem Kept.foldlSnd {α β : Type} {f : β × State → α → β × State} {s0 : State} {s : β × State} (l : List α) (hs : Kept s0 s.2)
    (h : ∀ s x, Kept s.2 (f s x).2) : Kept s0 (l.foldl f s).2 := by
  induction l generalizing s with
  | nil => exact hs
  | cons x t ih => exact ih (hs.trans (h s x))

theorem Kept.ofEq {α : Type} {s t : State} {p : α × State} {a : α} (h : p = (a, t)) (k : Kept s p.2) : Kept s t := by
  subst h; exact k

end Sys2Proof.Machine
end

