-- ==== Sys2Proof/Laws/KeptOps.lean ====
section
/-! SUPPORT. `Kept` for the shared operations, the rings, the tokens and the contexts: one lemma for each operation and each command. -/

namespace Sys2Proof.Machine

theorem State.setReg_kept {s0 : State} (s : State) (a : Nat) (v : Word) (hs : Kept s0 s) : Kept s0 (s.setReg a v) :=
  hs.trans ⟨rfl, ⟨[], by simp [State.setReg]⟩, id, id, id, fun h => Store.wf_put h a v⟩

theorem State.wr_kept {s0 : State} (s : State) (f : Fld) (v : Nat) (hs : Kept s0 s)  : Kept s0 (State.wr s f v) := by
  refine hs.trans ?_
  clear hs
  unfold State.wr
  try dsimp only
  iterate 40 all_goals try first | with_reducible first | exact Kept.refl _ | assumption | apply State.setReg_kept

theorem State.wrBit_kept {s0 : State} (s : State) (f : Fld) (b : Bool) (hs : Kept s0 s)  : Kept s0 (State.wrBit s f b) := by
  refine hs.trans ?_
  clear hs
  unfold State.wrBit
  try dsimp only
  iterate 40 all_goals try first | (with_reducible first | exact Kept.refl _ | assumption | apply State.wr_kept | apply Kept.ite) | split | (with_reducible refine Kept.ofEq (by assumption) ?_)

theorem State.bump_kept {s0 : State} (s : State) (f : Fld) (hs : Kept s0 s)  : Kept s0 (State.bump s f) := by
  refine hs.trans ?_
  clear hs
  unfold State.bump
  try dsimp only
  iterate 40 all_goals try first | with_reducible first | exact Kept.refl _ | assumption | apply State.wr_kept

theorem State.bumpSat_kept {s0 : State} (s : State) (f : Fld) (hs : Kept s0 s)  : Kept s0 (State.bumpSat s f) := by
  refine hs.trans ?_
  clear hs
  unfold State.bumpSat
  try dsimp only
  iterate 40 all_goals try first | with_reducible first | exact Kept.refl _ | assumption | apply State.wr_kept

theorem State.wr64_kept {s0 : State} (s : State) (lo : Nat) (v : Nat) (hs : Kept s0 s)  : Kept s0 (State.wr64 s lo v) := by
  refine hs.trans ?_
  clear hs
  unfold State.wr64
  try dsimp only
  iterate 40 all_goals try first | with_reducible first | exact Kept.refl _ | assumption | apply State.setReg_kept

theorem State.unstage_kept {s0 : State} (m : Master) (r : RegRow) (top k : Nat) (s : State) (hs : Kept s0 s) :
    Kept s0 (State.unstage m r top k s) := by
  induction k generalizing s with
  | zero => exact hs
  | succ k ih =>
    refine ih _ ?_
    split
    · exact hs
    · exact State.setReg_kept _ _ _ hs

theorem State.writeCode_kept {s0 : State} (s : State) (m : Master) (a : Nat) (v : Word) (hs : Kept s0 s)  : Kept s0 (State.writeCode s m a v) := by
  refine hs.trans ?_
  clear hs
  unfold State.writeCode
  try dsimp only
  iterate 40 all_goals try first | (with_reducible first | exact Kept.refl _ | assumption | apply State.setReg_kept | apply State.unstage_kept | apply Kept.ite) | split | (with_reducible refine Kept.ofEq (by assumption) ?_) | (with_reducible refine Kept.upd ?_ (by rfl)) | intro _

theorem State.unfrozen_kept {s0 : State} (s : State) (f : State → State) (hs : Kept s0 s) (hf : ∀ x0, Kept x0 (f x0)) : Kept s0 (State.unfrozen s f) := by
  refine hs.trans ?_
  clear hs
  have hf' : ∀ s0 x0, Kept s0 x0 → Kept s0 (f x0) := fun _ x0 k => k.trans (hf x0)
  unfold State.unfrozen
  try dsimp only
  iterate 40 all_goals try first | (with_reducible first | exact Kept.refl _ | assumption | apply hf' | apply Kept.ite) | split | (with_reducible refine Kept.ofEq (by assumption) ?_)

theorem State.draw_kept {s0 : State} (s : State) (hs : Kept s0 s)  : Kept s0 (State.draw s).2 := by
  refine hs.trans ?_
  clear hs
  unfold State.draw
  try dsimp only
  iterate 40 all_goals try first | with_reducible first | exact Kept.refl _ | assumption | (refine Kept.upd ?_ (by rfl))

theorem State.drawWord_kept {s0 : State} (s : State) (hs : Kept s0 s)  : Kept s0 (State.drawWord s).2 := by
  refine hs.trans ?_
  clear hs
  unfold State.drawWord
  try dsimp only
  iterate 40 all_goals try first | with_reducible first | exact Kept.refl _ | assumption | apply State.draw_kept

theorem State.writeTbInc_kept {s0 : State} (s : State) (m : Master) (v : Word) (hs : Kept s0 s)  : Kept s0 (State.writeTbInc s m v) := by
  refine hs.trans ?_
  clear hs
  unfold State.writeTbInc
  try dsimp only
  iterate 40 all_goals try first | with_reducible first | exact Kept.refl _ | assumption | apply State.writeCode_kept

theorem State.tick_kept {s0 : State} (s : State) (hs : Kept s0 s)  : Kept s0 (State.tick s) := by
  refine hs.trans ?_
  clear hs
  unfold State.tick
  try dsimp only
  iterate 40 all_goals try first | with_reducible first | exact Kept.refl _ | assumption | (refine Kept.upd ?_ (by rfl))

theorem State.emit_kept {s0 : State} (s : State) (o : Out) (hs : Kept s0 s) : Kept s0 (s.emit o) :=
  hs.trans ⟨rfl, ⟨[o], rfl⟩, id, id, id, id⟩

theorem State.report_kept {s0 : State} (s : State) (src : Nat) (synd : Word) (hs : Kept s0 s)  : Kept s0 (State.report s src synd) := by
  refine hs.trans ?_
  clear hs
  unfold State.report
  try dsimp only
  iterate 40 all_goals try first | with_reducible first | exact Kept.refl _ | assumption | (refine Kept.upd ?_ (by rfl))

theorem State.reportBy_kept {s0 : State} (s : State) (src : Nat) (synd : Word) (m : Master) (hs : Kept s0 s)  : Kept s0 (State.reportBy s src synd m) := by
  refine hs.trans ?_
  clear hs
  unfold State.reportBy
  try dsimp only
  iterate 40 all_goals try first | with_reducible first | exact Kept.refl _ | assumption | (refine Kept.upd ?_ (by rfl))

theorem State.reportLevel_kept {s0 : State} (s : State) (src : Nat) (synd : Word) (hs : Kept s0 s)  : Kept s0 (State.reportLevel s src synd) := by
  refine hs.trans ?_
  clear hs
  unfold State.reportLevel
  try dsimp only
  iterate 40 all_goals try first | with_reducible first | exact Kept.refl _ | assumption | (refine Kept.upd ?_ (by rfl))

theorem State.reportInj_kept {s0 : State} (s : State) (src : Nat) (synd : Word) (m : Option Master) (inj coinc : Bool) (hs : Kept s0 s)  : Kept s0 (State.reportInj s src synd m inj coinc) := by
  refine hs.trans ?_
  clear hs
  unfold State.reportInj
  try dsimp only
  iterate 40 all_goals try first | (with_reducible first | exact Kept.refl _ | assumption | apply Kept.elim | (refine Kept.upd ?_ (by rfl))) | intro _

theorem State.injFired_kept {s0 : State} (s : State) (coinc : Bool) (hs : Kept s0 s)  : Kept s0 (State.injFired s coinc) := by
  refine hs.trans ?_
  clear hs
  unfold State.injFired
  try dsimp only
  iterate 40 all_goals try first | (with_reducible first | exact Kept.refl _ | assumption | apply State.wr_kept | apply State.bumpSat_kept | apply Kept.ite) | split | (with_reducible refine Kept.ofEq (by assumption) ?_) | (with_reducible refine Kept.upd ?_ (by rfl))

theorem State.injRail_kept {s0 : State} (s : State) (hs : Kept s0 s)  : Kept s0 (State.injRail s) := by
  refine hs.trans ?_
  clear hs
  unfold State.injRail
  try dsimp only
  iterate 40 all_goals try first | with_reducible first | exact Kept.refl _ | assumption | (refine Kept.upd ?_ (by rfl))

theorem State.markInj_kept {s0 : State} (s : State) (n src : Nat) (coinc : Bool) (hs : Kept s0 s)  : Kept s0 (State.markInj s n src coinc) := by
  refine hs.trans ?_
  clear hs
  unfold State.markInj
  try dsimp only
  iterate 40 all_goals try first | (with_reducible first | exact Kept.refl _ | assumption | apply Kept.ite) | split | (with_reducible refine Kept.ofEq (by assumption) ?_) | (with_reducible refine Kept.upd ?_ (by rfl)) | intro _

theorem State.injectAt_kept {s0 : State} (src : Nat) (bad good : State → State) (s : State) (hs : Kept s0 s) (hbad : ∀ x0, Kept x0 (bad x0)) (hgood : ∀ x0, Kept x0 (good x0)) : Kept s0 (State.injectAt src bad good s) := by
  refine hs.trans ?_
  clear hs
  have hbad' : ∀ s0 x0, Kept s0 x0 → Kept s0 (bad x0) := fun _ x0 k => k.trans (hbad x0)
  have hgood' : ∀ s0 x0, Kept s0 x0 → Kept s0 (good x0) := fun _ x0 k => k.trans (hgood x0)
  unfold State.injectAt
  try dsimp only
  iterate 40 all_goals try first | (with_reducible first | exact Kept.refl _ | assumption | apply State.injFired_kept | apply State.injRail_kept | apply State.markInj_kept | apply hbad' | apply hgood' | apply Kept.ite) | split | (with_reducible refine Kept.ofEq (by assumption) ?_)

theorem State.busCheck_kept {s0 : State} (s : State) (m : Master) (a : Nat) (f : State → State) (hs : Kept s0 s) (hf : ∀ x0, Kept x0 (f x0)) : Kept s0 (State.busCheck s m a f) := by
  refine hs.trans ?_
  clear hs
  have hf' : ∀ s0 x0, Kept s0 x0 → Kept s0 (f x0) := fun _ x0 k => k.trans (hf x0)
  unfold State.busCheck
  try dsimp only
  iterate 40 all_goals try first | (with_reducible first | exact Kept.refl _ | assumption | apply State.reportBy_kept | apply State.injectAt_kept | apply hf') | intro _

theorem State.accessBy_kept {s0 : State} (s : State) (m : Master) (a : Nat) (f : State → State) (hs : Kept s0 s) (hf : ∀ x0, Kept x0 (f x0)) : Kept s0 (State.accessBy s m a f) := by
  refine hs.trans ?_
  clear hs
  have hf' : ∀ s0 x0, Kept s0 x0 → Kept s0 (f x0) := fun _ x0 k => k.trans (hf x0)
  unfold State.accessBy
  try dsimp only
  iterate 40 all_goals try first | (with_reducible first | exact Kept.refl _ | assumption | apply State.reportBy_kept | apply State.busCheck_kept | apply hf') | split | (with_reducible refine Kept.ofEq (by assumption) ?_) | intro _

theorem State.setRing_kept {s0 : State} (s : State) (k : Nat) (r : Ring) (hs : Kept s0 s)  : Kept s0 (State.setRing s k r) := by
  refine hs.trans ?_
  clear hs
  unfold State.setRing
  try dsimp only
  iterate 40 all_goals try first | (with_reducible first | exact Kept.refl _ | assumption | (refine Kept.upd ?_ (by rfl))) | intro _

theorem State.raiseVector_kept {s0 : State} (s : State) (v : Nat) (hs : Kept s0 s)  : Kept s0 (State.raiseVector s v) := by
  refine hs.trans ?_
  clear hs
  unfold State.raiseVector
  try dsimp only
  iterate 40 all_goals try first | (with_reducible first | exact Kept.refl _ | assumption | apply State.wr_kept | apply State.emit_kept | apply Kept.ite) | split | (with_reducible refine Kept.ofEq (by assumption) ?_)

theorem State.signalRing_kept {s0 : State} (s : State) (k : Nat) (hs : Kept s0 s)  : Kept s0 (State.signalRing s k) := by
  refine hs.trans ?_
  clear hs
  unfold State.signalRing
  try dsimp only
  iterate 40 all_goals try first | with_reducible first | exact Kept.refl _ | assumption | apply State.setRing_kept | apply State.raiseVector_kept | (refine Kept.upd ?_ (by rfl))

theorem State.countEntry_kept {s0 : State} (s : State) (k : Nat) (hs : Kept s0 s)  : Kept s0 (State.countEntry s k) := by
  refine hs.trans ?_
  clear hs
  unfold State.countEntry
  try dsimp only
  iterate 40 all_goals try first | (with_reducible first | exact Kept.refl _ | assumption | apply State.setRing_kept | apply State.signalRing_kept | apply Kept.ite) | split | (with_reducible refine Kept.ofEq (by assumption) ?_) | (with_reducible refine Kept.upd ?_ (by rfl))

theorem State.writeEventAt_kept {s0 : State} (s : State) (t : BitVec 64) (code subject : Nat) (data : List Word) (hs : Kept s0 s)  : Kept s0 (State.writeEventAt s t code subject data) := by
  refine hs.trans ?_
  clear hs
  unfold State.writeEventAt
  try dsimp only
  iterate 40 all_goals try first | (with_reducible first | exact Kept.refl _ | assumption | apply State.setReg_kept | apply State.emit_kept | apply State.countEntry_kept | apply Kept.ite) | split | (with_reducible refine Kept.ofEq (by assumption) ?_)

theorem State.writeEvent_kept {s0 : State} (s : State) (code subject : Nat) (data : List Word) (hs : Kept s0 s)  : Kept s0 (State.writeEvent s code subject data) := by
  refine hs.trans ?_
  clear hs
  unfold State.writeEvent
  try dsimp only
  iterate 40 all_goals try first | with_reducible first | exact Kept.refl _ | assumption | apply State.writeEventAt_kept

theorem State.payOverflow_kept {s0 : State} (s : State) (hs : Kept s0 s)  : Kept s0 (State.payOverflow s) := by
  refine hs.trans ?_
  clear hs
  unfold State.payOverflow
  try dsimp only
  iterate 40 all_goals try first | (with_reducible first | exact Kept.refl _ | assumption | apply State.writeEvent_kept | apply Kept.ite) | split | (with_reducible refine Kept.ofEq (by assumption) ?_) | (with_reducible refine Kept.upd ?_ (by rfl))

theorem State.eventAt_kept {s0 : State} (s : State) (t : BitVec 64) (code subject : Nat) (data : List Word) (hs : Kept s0 s)  : Kept s0 (State.eventAt s t code subject data) := by
  refine hs.trans ?_
  clear hs
  unfold State.eventAt
  try dsimp only
  iterate 40 all_goals try first | (with_reducible first | exact Kept.refl _ | assumption | apply State.bumpSat_kept | apply State.writeEventAt_kept | apply State.payOverflow_kept | apply Kept.ite) | split | (with_reducible refine Kept.ofEq (by assumption) ?_) | (with_reducible refine Kept.upd ?_ (by rfl))

theorem State.event_kept {s0 : State} (s : State) (code subject : Nat) (data : List Word) (hs : Kept s0 s)  : Kept s0 (State.event s code subject data) := by
  refine hs.trans ?_
  clear hs
  unfold State.event
  try dsimp only
  iterate 40 all_goals try first | with_reducible first | exact Kept.refl _ | assumption | apply State.eventAt_kept

theorem State.lateEvent_kept {s0 : State} (s : State) (code subject : Nat) (data : List Word) (hs : Kept s0 s)  : Kept s0 (State.lateEvent s code subject data) := by
  refine hs.trans ?_
  clear hs
  unfold State.lateEvent
  try dsimp only
  iterate 40 all_goals try first | (with_reducible first | exact Kept.refl _ | assumption | apply State.event_kept | apply Kept.ite) | split | (with_reducible refine Kept.ofEq (by assumption) ?_) | (with_reducible refine Kept.upd ?_ (by rfl))

theorem State.payLate_kept {s0 : State} (s : State) (hs : Kept s0 s)  : Kept s0 (State.payLate s) := by
  refine hs.trans ?_
  clear hs
  unfold State.payLate
  try dsimp only
  iterate 40 all_goals try first | (with_reducible first | exact Kept.refl _ | assumption | apply State.eventAt_kept | apply Kept.foldl | apply Kept.foldlSnd | (refine Kept.upd ?_ (by rfl))) | intro _

theorem State.complete_kept {s0 : State} (s : State) (c : Completion) (hs : Kept s0 s)  : Kept s0 (State.complete s c) := by
  refine hs.trans ?_
  clear hs
  unfold State.complete
  try dsimp only
  iterate 40 all_goals try first | (with_reducible first | exact Kept.refl _ | assumption | apply State.bumpSat_kept | apply Kept.ite) | split | (with_reducible refine Kept.ofEq (by assumption) ?_) | (with_reducible refine Kept.upd ?_ (by rfl))

theorem State.settle_kept {s0 : State} (s : State) (k : Nat) (hs : Kept s0 s)  : Kept s0 (State.settle s k) := by
  refine hs.trans ?_
  clear hs
  unfold State.settle
  try dsimp only
  iterate 40 all_goals try first | with_reducible first | exact Kept.refl _ | assumption | apply State.setRing_kept | (refine Kept.upd ?_ (by rfl))

theorem State.completeDesc_kept {s0 : State} (s : State) (k : Nat) (d : Desc) (status result : Nat) (hs : Kept s0 s)  : Kept s0 (State.completeDesc s k d status result) := by
  refine hs.trans ?_
  clear hs
  unfold State.completeDesc
  try dsimp only
  iterate 40 all_goals try first | (with_reducible first | exact Kept.refl _ | assumption | apply State.complete_kept | apply State.settle_kept | apply Kept.ite) | split | (with_reducible refine Kept.ofEq (by assumption) ?_)

theorem State.ringError_kept {s0 : State} (s : State) (k err : Nat) (hs : Kept s0 s)  : Kept s0 (State.ringError s k err) := by
  refine hs.trans ?_
  clear hs
  unfold State.ringError
  try dsimp only
  iterate 40 all_goals try first | with_reducible first | exact Kept.refl _ | assumption | apply State.wr_kept | apply State.event_kept

theorem State.setChan32_kept {s0 : State} (s : State) (c : Nat) (x : Chan) (hs : Kept s0 s)  : Kept s0 (State.setChan32 s c x) := by
  refine hs.trans ?_
  clear hs
  unfold State.setChan32
  try dsimp only
  iterate 40 all_goals try first | (with_reducible first | exact Kept.refl _ | assumption | (refine Kept.upd ?_ (by rfl))) | intro _

theorem State.freshMarks_kept {s0 : State} (s : State) (c : Nat) (hs : Kept s0 s)  : Kept s0 (State.freshMarks s c) := by
  refine hs.trans ?_
  clear hs
  unfold State.freshMarks
  try dsimp only
  iterate 40 all_goals try first | with_reducible first | exact Kept.refl _ | assumption | apply State.setChan32_kept | (refine Kept.upd ?_ (by rfl))

theorem State.startRing_kept {s0 : State} (s : State) (k : Nat) (hs : Kept s0 s)  : Kept s0 (State.startRing s k) := by
  refine hs.trans ?_
  clear hs
  unfold State.startRing
  try dsimp only
  iterate 40 all_goals try first | (with_reducible first | exact Kept.refl _ | assumption | apply State.setReg_kept | apply State.wr_kept | apply State.setRing_kept | apply State.payLate_kept | apply State.ringError_kept | apply State.freshMarks_kept | apply Kept.ite) | split | (with_reducible refine Kept.ofEq (by assumption) ?_) | (with_reducible refine Kept.upd ?_ (by rfl))

theorem State.writeRctl_kept {s0 : State} (s : State) (k : Nat) (v : Word) (hs : Kept s0 s)  : Kept s0 (State.writeRctl s k v) := by
  refine hs.trans ?_
  clear hs
  unfold State.writeRctl
  try dsimp only
  iterate 40 all_goals try first | (with_reducible first | exact Kept.refl _ | assumption | apply State.wr_kept | apply State.setRing_kept | apply State.ringError_kept | apply State.startRing_kept | apply Kept.ite) | split | (with_reducible refine Kept.ofEq (by assumption) ?_) | (with_reducible refine Kept.upd ?_ (by rfl))

theorem State.writeRbase_kept {s0 : State} (s : State) (m : Master) (k a : Nat) (v : Word) (hs : Kept s0 s)  : Kept s0 (State.writeRbase s m k a v) := by
  refine hs.trans ?_
  clear hs
  unfold State.writeRbase
  try dsimp only
  iterate 40 all_goals try first | (with_reducible first | exact Kept.refl _ | assumption | apply State.writeCode_kept | apply State.ringError_kept | apply Kept.ite) | split | (with_reducible refine Kept.ofEq (by assumption) ?_)

theorem execRingEnable_kept (m : Master) (k : Fin 51) (v : Word) (s : State) {u : State} (h : execRingEnable m k v s = .next u) : Kept s u := by
  unfold execRingEnable at h
  cases h
  try dsimp only
  iterate 40 all_goals try first | (with_reducible first | exact Kept.refl _ | assumption | apply State.unfrozen_kept | apply State.accessBy_kept | apply State.writeRctl_kept) | intro _

theorem execRingDisable_kept (m : Master) (k : Fin 51) (v : Word) (s : State) {u : State} (h : execRingDisable m k v s = .next u) : Kept s u := by
  unfold execRingDisable at h
  cases h
  try dsimp only
  iterate 40 all_goals try first | (with_reducible first | exact Kept.refl _ | assumption | apply State.unfrozen_kept | apply State.accessBy_kept | apply State.writeRctl_kept) | intro _

theorem execRingDrained_kept (k : Fin 51) (s : State) {u : State} (h : execRingDrained k s = .next u) : Kept s u := by
  unfold execRingDrained at h
  cases h
  try dsimp only
  iterate 40 all_goals try first | (with_reducible first | exact Kept.refl _ | assumption | apply State.wr_kept | apply State.unfrozen_kept | apply State.setRing_kept | apply State.startRing_kept | apply Kept.ite) | split | (with_reducible refine Kept.ofEq (by assumption) ?_) | (with_reducible refine Kept.upd ?_ (by rfl)) | intro _

theorem State.ringDoorbell_kept {s0 : State} (s : State) (k : Nat) (v : Word) (hs : Kept s0 s)  : Kept s0 (State.ringDoorbell s k v) := by
  refine hs.trans ?_
  clear hs
  unfold State.ringDoorbell
  try dsimp only
  iterate 40 all_goals try first | (with_reducible first | exact Kept.refl _ | assumption | apply State.setReg_kept | apply State.ringError_kept | apply State.setChan32_kept | apply Kept.ite) | split | (with_reducible refine Kept.ofEq (by assumption) ?_) | (with_reducible refine Kept.upd ?_ (by rfl))

theorem execDoorbell_kept (m : Master) (r : Fin 49) (v : Word) (s : State) {u : State} (h : execDoorbell m r v s = .next u) : Kept s u := by
  unfold execDoorbell at h
  cases h
  try dsimp only
  iterate 40 all_goals try first | (with_reducible first | exact Kept.refl _ | assumption | apply State.unfrozen_kept | apply State.accessBy_kept | apply State.ringDoorbell_kept) | intro _

theorem State.writeRcons_kept {s0 : State} (s : State) (k : Nat) (v : Word) (hs : Kept s0 s)  : Kept s0 (State.writeRcons s k v) := by
  refine hs.trans ?_
  clear hs
  unfold State.writeRcons
  try dsimp only
  iterate 40 all_goals try first | (with_reducible first | exact Kept.refl _ | assumption | apply State.setReg_kept | apply State.ringError_kept | apply Kept.ite) | split | (with_reducible refine Kept.ofEq (by assumption) ?_)

theorem execHostRconsWrite_kept (m : Master) (q : EntryRing) (v : Word) (s : State) {u : State} (h : execHostRconsWrite m q v s = .next u) : Kept s u := by
  unfold execHostRconsWrite at h
  cases h
  try dsimp only
  iterate 40 all_goals try first | (with_reducible first | exact Kept.refl _ | assumption | apply State.unfrozen_kept | apply State.accessBy_kept | apply State.writeRcons_kept) | intro _

theorem State.completeAny_kept {s0 : State} (s : State) (k : Nat) (d : Desc) (status : Nat) (hs : Kept s0 s)  : Kept s0 (State.completeAny s k d status) := by
  refine hs.trans ?_
  clear hs
  unfold State.completeAny
  try dsimp only
  iterate 40 all_goals try first | (with_reducible first | exact Kept.refl _ | assumption | apply State.complete_kept | apply State.settle_kept | apply State.completeDesc_kept | apply Kept.ite) | split | (with_reducible refine Kept.ofEq (by assumption) ?_)

theorem State.takeDesc_kept {s0 : State} (s : State) (k : Nat) (dw : List Word) (hs : Kept s0 s)  : Kept s0 (State.takeDesc s k dw) := by
  refine hs.trans ?_
  clear hs
  unfold State.takeDesc
  try dsimp only
  iterate 40 all_goals try first | (with_reducible first | exact Kept.refl _ | assumption | apply State.setReg_kept | apply State.setRing_kept | apply State.completeDesc_kept | apply Kept.ite) | split | (with_reducible refine Kept.ofEq (by assumption) ?_) | (with_reducible refine Kept.upd ?_ (by rfl))

theorem State.fetchError_kept {s0 : State} (s : State) (k : Nat) (hs : Kept s0 s)  : Kept s0 (State.fetchError s k) := by
  refine hs.trans ?_
  clear hs
  unfold State.fetchError
  try dsimp only
  iterate 40 all_goals try first | with_reducible first | exact Kept.refl _ | assumption | apply State.wr_kept | apply State.report_kept | apply State.setRing_kept | apply State.ringError_kept | (refine Kept.upd ?_ (by rfl))

theorem State.fetched_kept {s0 : State} (s : State) (k : Nat) (d : Fetched) (hs : Kept s0 s)  : Kept s0 (State.fetched s k d) := by
  refine hs.trans ?_
  clear hs
  unfold State.fetched
  try dsimp only
  iterate 40 all_goals try first | (with_reducible first | exact Kept.refl _ | assumption | apply State.setRing_kept | apply State.takeDesc_kept | apply State.fetchError_kept | apply Kept.ite) | split | (with_reducible refine Kept.ofEq (by assumption) ?_) | (with_reducible refine Kept.upd ?_ (by rfl))

theorem execDescriptorFetch_kept (k : Fin 49) (d : Fetched) (s : State) {u : State} (h : execDescriptorFetch k d s = .next u) : Kept s u := by
  unfold execDescriptorFetch at h
  cases h
  try dsimp only
  iterate 40 all_goals try first | (with_reducible first | exact Kept.refl _ | assumption | apply State.unfrozen_kept | apply State.injectAt_kept | apply State.fetchError_kept | apply State.fetched_kept | apply Kept.ite) | split | (with_reducible refine Kept.ofEq (by assumption) ?_) | intro _

theorem execPhaseRetry_kept (k : Fin 49) (d : Fetched) (s : State) {u : State} (h : execPhaseRetry k d s = .next u) : Kept s u := by
  unfold execPhaseRetry at h
  cases h
  try dsimp only
  iterate 40 all_goals try first | (with_reducible first | exact Kept.refl _ | assumption | apply State.wr_kept | apply State.unfrozen_kept | apply State.setRing_kept | apply State.ringError_kept | apply State.takeDesc_kept | apply State.fetchError_kept | apply Kept.ite) | split | (with_reducible refine Kept.ofEq (by assumption) ?_) | (with_reducible refine Kept.upd ?_ (by rfl)) | intro _

theorem State.resumeRing_kept {s0 : State} (s : State) (k : Nat) (d : Fetched) (hs : Kept s0 s)  : Kept s0 (State.resumeRing s k d) := by
  refine hs.trans ?_
  clear hs
  unfold State.resumeRing
  try dsimp only
  iterate 40 all_goals try first | (with_reducible first | exact Kept.refl _ | assumption | apply State.wr_kept | apply State.ringError_kept | apply State.fetchError_kept | apply Kept.ite) | split | (with_reducible refine Kept.ofEq (by assumption) ?_)

theorem execRingResume_kept (m : Master) (k : Fin 51) (d : Fetched) (s : State) {u : State} (h : execRingResume m k d s = .next u) : Kept s u := by
  unfold execRingResume at h
  cases h
  try dsimp only
  iterate 40 all_goals try first | (with_reducible first | exact Kept.refl _ | assumption | apply State.unfrozen_kept | apply State.accessBy_kept | apply State.resumeRing_kept) | intro _

theorem State.popDesc_kept {s0 : State} (s : State) (k : Nat) (hs : Kept s0 s)  : Kept s0 (State.popDesc s k) := by
  refine hs.trans ?_
  clear hs
  unfold State.popDesc
  try dsimp only
  iterate 40 all_goals try first | with_reducible first | exact Kept.refl _ | assumption | apply State.setRing_kept | apply State.fetched_kept | (refine Kept.upd ?_ (by rfl))

theorem State.writeCqEntry_kept {s0 : State} (s : State) (c : Completion) (hs : Kept s0 s)  : Kept s0 (State.writeCqEntry s c) := by
  refine hs.trans ?_
  clear hs
  unfold State.writeCqEntry
  try dsimp only
  iterate 40 all_goals try first | (with_reducible first | exact Kept.refl _ | assumption | apply State.setReg_kept | apply State.emit_kept | apply State.countEntry_kept | apply Kept.ite) | split | (with_reducible refine Kept.ofEq (by assumption) ?_)

theorem execErOverflow_kept (s : State) {u : State} (h : execErOverflow s = .next u) : Kept s u := by
  unfold execErOverflow at h
  cases h
  try dsimp only
  iterate 40 all_goals try first | (with_reducible first | exact Kept.refl _ | assumption | apply State.unfrozen_kept | apply State.payOverflow_kept) | intro _

theorem execCoalesceTimeout_kept (k : Fin 51) (s : State) {u : State} (h : execCoalesceTimeout k s = .next u) : Kept s u := by
  unfold execCoalesceTimeout at h
  cases h
  try dsimp only
  iterate 40 all_goals try first | (with_reducible first | exact Kept.refl _ | assumption | apply State.unfrozen_kept | apply State.signalRing_kept | apply Kept.ite) | split | (with_reducible refine Kept.ofEq (by assumption) ?_) | intro _

theorem State.writeHostCtl_kept {s0 : State} (s : State) (m : Master) (v : Word) (hs : Kept s0 s)  : Kept s0 (State.writeHostCtl s m v) := by
  refine hs.trans ?_
  clear hs
  unfold State.writeHostCtl
  try dsimp only
  iterate 40 all_goals try first | (with_reducible first | exact Kept.refl _ | assumption | apply State.wr_kept | apply State.writeCode_kept | apply Kept.ite) | split | (with_reducible refine Kept.ofEq (by assumption) ?_)

theorem execCfgDone_kept (m : Master) (v : Word) (s : State) {u : State} (h : execCfgDone m v s = .next u) : Kept s u := by
  unfold execCfgDone at h
  cases h
  try dsimp only
  iterate 40 all_goals try first | (with_reducible first | exact Kept.refl _ | assumption | apply State.unfrozen_kept | apply State.accessBy_kept | apply State.writeHostCtl_kept) | intro _

theorem execCfgRetryTimeout_kept (s : State) {u : State} (h : execCfgRetryTimeout s = .next u) : Kept s u := by
  unfold execCfgRetryTimeout at h
  cases h
  try dsimp only
  iterate 40 all_goals try first | (with_reducible first | exact Kept.refl _ | assumption | apply State.wr_kept | apply State.unfrozen_kept | apply Kept.ite) | split | (with_reducible refine Kept.ofEq (by assumption) ?_) | intro _

theorem State.setToken_kept {s0 : State} (s : State) (n h : Nat) (tag : BitVec 16) (hs : Kept s0 s)  : Kept s0 (State.setToken s n h tag) := by
  refine hs.trans ?_
  clear hs
  unfold State.setToken
  try dsimp only
  iterate 40 all_goals try first | with_reducible first | exact Kept.refl _ | assumption | apply State.wr_kept

theorem State.tokenEvent_kept {s0 : State} (s : State) (n old new : Nat) (hs : Kept s0 s)  : Kept s0 (State.tokenEvent s n old new) := by
  refine hs.trans ?_
  clear hs
  unfold State.tokenEvent
  try dsimp only
  iterate 40 all_goals try first | with_reducible first | exact Kept.refl _ | assumption | apply State.event_kept

theorem State.acquireToken_kept {s0 : State} (s : State) (m : Master) (n : Nat) (tag : BitVec 16) (hs : Kept s0 s)  : Kept s0 (State.acquireToken s m n tag) := by
  refine hs.trans ?_
  clear hs
  unfold State.acquireToken
  try dsimp only
  iterate 40 all_goals try first | (with_reducible first | exact Kept.refl _ | assumption | apply State.setToken_kept | apply Kept.ite) | split | (with_reducible refine Kept.ofEq (by assumption) ?_)

theorem State.releaseToken_kept {s0 : State} (s : State) (m : Master) (n : Nat) (hs : Kept s0 s)  : Kept s0 (State.releaseToken s m n) := by
  refine hs.trans ?_
  clear hs
  unfold State.releaseToken
  try dsimp only
  iterate 40 all_goals try first | (with_reducible first | exact Kept.refl _ | assumption | apply State.setToken_kept | apply Kept.ite) | split | (with_reducible refine Kept.ofEq (by assumption) ?_)

theorem State.forceToken_kept {s0 : State} (s : State) (m : Master) (n : Nat) (tag : BitVec 16) (hs : Kept s0 s)  : Kept s0 (State.forceToken s m n tag) := by
  refine hs.trans ?_
  clear hs
  unfold State.forceToken
  try dsimp only
  iterate 40 all_goals try first | (with_reducible first | exact Kept.refl _ | assumption | apply State.wr_kept | apply State.setToken_kept | apply State.tokenEvent_kept | apply Kept.ite) | split | (with_reducible refine Kept.ofEq (by assumption) ?_)

theorem State.tagToken_kept {s0 : State} (s : State) (m : Master) (n : Nat) (tag : BitVec 16) (hs : Kept s0 s)  : Kept s0 (State.tagToken s m n tag) := by
  refine hs.trans ?_
  clear hs
  unfold State.tagToken
  try dsimp only
  iterate 40 all_goals try first | (with_reducible first | exact Kept.refl _ | assumption | apply State.wr_kept | apply Kept.ite) | split | (with_reducible refine Kept.ofEq (by assumption) ?_)

theorem State.writeToken_kept {s0 : State} (s : State) (m : Master) (n : Nat) (v : Word) (hs : Kept s0 s)  : Kept s0 (State.writeToken s m n v) := by
  refine hs.trans ?_
  clear hs
  unfold State.writeToken
  try dsimp only
  iterate 40 all_goals try first | (with_reducible first | exact Kept.refl _ | assumption | apply State.acquireToken_kept | apply State.releaseToken_kept | apply State.forceToken_kept | apply State.tagToken_kept) | split | (with_reducible refine Kept.ofEq (by assumption) ?_)

theorem State.freeTokens_kept {s0 : State} (s : State) (h k : Nat) (hs : Kept s0 s) :
    Kept s0 (s.freeTokens h k) := by
  induction k with
  | zero => exact hs
  | succ k ih =>
    unfold State.freeTokens
    dsimp only
    iterate 40 all_goals try (first | with_reducible exact Kept.refl _ | with_reducible assumption | (with_reducible apply State.setToken_kept) | (with_reducible apply State.tokenEvent_kept) | (with_reducible apply Kept.ite) | (with_reducible apply Kept.foldl) | (with_reducible apply Kept.foldlSnd) | split | (with_reducible refine Kept.ofEq (by assumption) ?_) | (with_reducible refine Kept.upd ?_ (by rfl)) | intro _)


theorem State.freeTokensOf_kept {s0 : State} (s : State) (m : Master) (hs : Kept s0 s)  : Kept s0 (State.freeTokensOf s m) := by
  refine hs.trans ?_
  clear hs
  unfold State.freeTokensOf
  try dsimp only
  iterate 40 all_goals try first | with_reducible first | exact Kept.refl _ | assumption | apply State.freeTokens_kept

theorem execTokenAcquire_kept (m : Master) (n : Fin 32) (tag : BitVec 16) (s : State) {u : State} (h : execTokenAcquire m n tag s = .next u) : Kept s u := by
  unfold execTokenAcquire at h
  cases h
  try dsimp only
  iterate 40 all_goals try first | (with_reducible first | exact Kept.refl _ | assumption | apply State.unfrozen_kept | apply State.accessBy_kept | apply State.acquireToken_kept) | intro _

theorem execTokenRelease_kept (m : Master) (n : Fin 32) (s : State) {u : State} (h : execTokenRelease m n s = .next u) : Kept s u := by
  unfold execTokenRelease at h
  cases h
  try dsimp only
  iterate 40 all_goals try first | (with_reducible first | exact Kept.refl _ | assumption | apply State.unfrozen_kept | apply State.accessBy_kept | apply State.releaseToken_kept) | intro _

theorem execTokenForce_kept (m : Master) (n : Fin 32) (tag : BitVec 16) (s : State) {u : State} (h : execTokenForce m n tag s = .next u) : Kept s u := by
  unfold execTokenForce at h
  cases h
  try dsimp only
  iterate 40 all_goals try first | (with_reducible first | exact Kept.refl _ | assumption | apply State.unfrozen_kept | apply State.accessBy_kept | apply State.forceToken_kept) | intro _

theorem execTokenTagWrite_kept (m : Master) (n : Fin 32) (tag : BitVec 16) (s : State) {u : State} (h : execTokenTagWrite m n tag s = .next u) : Kept s u := by
  unfold execTokenTagWrite at h
  cases h
  try dsimp only
  iterate 40 all_goals try first | (with_reducible first | exact Kept.refl _ | assumption | apply State.unfrozen_kept | apply State.accessBy_kept | apply State.tagToken_kept) | intro _

theorem State.finish_kept {s0 : State} (s : State) (d : Desc) (status result : Nat) (hs : Kept s0 s)  : Kept s0 (State.finish s d status result) := by
  refine hs.trans ?_
  clear hs
  unfold State.finish
  try dsimp only
  iterate 40 all_goals try first | with_reducible first | exact Kept.refl _ | assumption | apply State.completeDesc_kept | apply State.popDesc_kept

theorem State.beginCommand_kept {s0 : State} (s : State) (d : Desc) (token : Option Nat) (left : List Nat) (hs : Kept s0 s)  : Kept s0 (State.beginCommand s d token left) := by
  refine hs.trans ?_
  clear hs
  unfold State.beginCommand
  try dsimp only
  iterate 40 all_goals try first | (with_reducible first | exact Kept.refl _ | assumption | apply State.draw_kept | apply State.setToken_kept) | split | (with_reducible refine Kept.ofEq (by assumption) ?_) | (with_reducible refine Kept.upd ?_ (by rfl)) | intro _

theorem State.dropToken_kept {s0 : State} (s : State) (c : Option MpCmd) (hs : Kept s0 s)  : Kept s0 (State.dropToken s c) := by
  refine hs.trans ?_
  clear hs
  unfold State.dropToken
  try dsimp only
  iterate 40 all_goals try first | (with_reducible first | exact Kept.refl _ | assumption | apply State.releaseToken_kept | apply Kept.ite) | split | (with_reducible refine Kept.ofEq (by assumption) ?_) | intro _

theorem State.endCommand_kept {s0 : State} (s : State) (d : Desc) (status result : Nat) (hs : Kept s0 s)  : Kept s0 (State.endCommand s d status result) := by
  refine hs.trans ?_
  clear hs
  unfold State.endCommand
  try dsimp only
  iterate 40 all_goals try first | (with_reducible first | exact Kept.refl _ | assumption | apply State.finish_kept | apply State.dropToken_kept | apply Kept.ite | apply Kept.elim) | split | (with_reducible refine Kept.ofEq (by assumption) ?_) | (with_reducible refine Kept.upd ?_ (by rfl)) | intro _

theorem State.holdFlash_kept {s0 : State} (s : State) (c : MpCmd) (token : Nat) (bytes : List Nat) (hs : Kept s0 s)  : Kept s0 (State.holdFlash s c token bytes) := by
  refine hs.trans ?_
  clear hs
  unfold State.holdFlash
  try dsimp only
  iterate 40 all_goals try first | (with_reducible first | exact Kept.refl _ | assumption | apply State.beginCommand_kept | apply Kept.ite) | split | (with_reducible refine Kept.ofEq (by assumption) ?_) | (with_reducible refine Kept.upd ?_ (by rfl)) | intro _

theorem State.holdCommand_kept {s0 : State} (s : State) (c : MpCmd) (token : Option Nat) (bytes : List Nat) (hs : Kept s0 s)  : Kept s0 (State.holdCommand s c token bytes) := by
  refine hs.trans ?_
  clear hs
  unfold State.holdCommand
  try dsimp only
  iterate 40 all_goals try first | (with_reducible first | exact Kept.refl _ | assumption | apply State.beginCommand_kept | apply Kept.ite) | split | (with_reducible refine Kept.ofEq (by assumption) ?_) | (with_reducible refine Kept.upd ?_ (by rfl)) | intro _

theorem State.setMirror_kept {s0 : State} (s : State) (i : Nat) (m : Mirror) (hs : Kept s0 s)  : Kept s0 (State.setMirror s i m) := by
  refine hs.trans ?_
  clear hs
  unfold State.setMirror
  try dsimp only
  iterate 40 all_goals try first | (with_reducible first | exact Kept.refl _ | assumption | (refine Kept.upd ?_ (by rfl))) | intro _

theorem State.uncalibrate_kept {s0 : State} (s : State) (i : Nat) (hs : Kept s0 s)  : Kept s0 (State.uncalibrate s i) := by
  refine hs.trans ?_
  clear hs
  unfold State.uncalibrate
  try dsimp only
  iterate 40 all_goals try first | with_reducible first | exact Kept.refl _ | assumption | apply State.setMirror_kept | (refine Kept.upd ?_ (by rfl))

theorem State.advanceMirrors_kept {s0 : State} (s : State) (hs : Kept s0 s)  : Kept s0 (State.advanceMirrors s) := by
  refine hs.trans ?_
  clear hs
  unfold State.advanceMirrors
  try dsimp only
  iterate 40 all_goals try first | (with_reducible first | exact Kept.refl _ | assumption | apply State.setMirror_kept | apply Kept.ite | apply Kept.foldl | apply Kept.foldlSnd) | split | (with_reducible refine Kept.ofEq (by assumption) ?_) | intro _

theorem State.setEncoder_kept {s0 : State} (s : State) (n : Nat) (e : Encoder) (hs : Kept s0 s)  : Kept s0 (State.setEncoder s n e) := by
  refine hs.trans ?_
  clear hs
  unfold State.setEncoder
  try dsimp only
  iterate 40 all_goals try first | (with_reducible first | exact Kept.refl _ | assumption | (refine Kept.upd ?_ (by rfl))) | intro _

theorem State.setTracker_kept {s0 : State} (s : State) (n : Nat) (t : Tracker) (hs : Kept s0 s)  : Kept s0 (State.setTracker s n t) := by
  refine hs.trans ?_
  clear hs
  unfold State.setTracker
  try dsimp only
  iterate 40 all_goals try first | (with_reducible first | exact Kept.refl _ | assumption | (refine Kept.upd ?_ (by rfl))) | intro _

theorem State.countEdges_kept {s0 : State} (s : State) (n : Nat) (k : Int) (t : Nat) (hs : Kept s0 s)  : Kept s0 (State.countEdges s n k t) := by
  refine hs.trans ?_
  clear hs
  unfold State.countEdges
  try dsimp only
  iterate 40 all_goals try first | with_reducible first | exact Kept.refl _ | assumption | apply State.setReg_kept | apply State.wr64_kept | apply State.setTracker_kept | (refine Kept.upd ?_ (by rfl))

theorem State.phaseError_kept {s0 : State} (s : State) (n : Nat) (hs : Kept s0 s)  : Kept s0 (State.phaseError s n) := by
  refine hs.trans ?_
  clear hs
  unfold State.phaseError
  try dsimp only
  iterate 40 all_goals try first | with_reducible first | exact Kept.refl _ | assumption | apply State.bumpSat_kept | apply State.report_kept

theorem State.takeEdge_kept {s0 : State} (s : State) (n : Nat) (d : Int) (t : Nat) (hs : Kept s0 s)  : Kept s0 (State.takeEdge s n d t) := by
  refine hs.trans ?_
  clear hs
  unfold State.takeEdge
  try dsimp only
  iterate 40 all_goals try first | (with_reducible first | exact Kept.refl _ | assumption | apply State.countEdges_kept | apply State.phaseError_kept | apply Kept.ite) | split | (with_reducible refine Kept.ofEq (by assumption) ?_)

theorem execEncoderEdge_kept (n : Fin 16) (a b : Bool) (t : BitVec 64) (s : State) {u : State} (h : execEncoderEdge n a b t s = .next u) : Kept s u := by
  unfold execEncoderEdge at h
  cases h
  try dsimp only
  iterate 40 all_goals try first | (with_reducible first | exact Kept.refl _ | assumption | apply State.injectAt_kept | apply State.setEncoder_kept | apply State.phaseError_kept | apply State.takeEdge_kept | apply Kept.ite) | split | (with_reducible refine Kept.ofEq (by assumption) ?_) | (with_reducible refine Kept.upd ?_ (by rfl)) | intro _

theorem State.zError_kept {s0 : State} (s : State) (n : Nat) (hs : Kept s0 s)  : Kept s0 (State.zError s n) := by
  refine hs.trans ?_
  clear hs
  unfold State.zError
  try dsimp only
  iterate 40 all_goals try first | with_reducible first | exact Kept.refl _ | assumption | apply State.bumpSat_kept | apply State.report_kept

theorem State.zEdge_kept {s0 : State} (s : State) (n : Fin 16) (t : BitVec 64) (hs : Kept s0 s)  : Kept s0 (State.zEdge s n t) := by
  refine hs.trans ?_
  clear hs
  unfold State.zEdge
  try dsimp only
  iterate 40 all_goals try first | (with_reducible first | exact Kept.refl _ | assumption | apply State.unfrozen_kept | apply State.injectAt_kept | apply State.setEncoder_kept | apply State.zError_kept | apply Kept.ite) | split | (with_reducible refine Kept.ofEq (by assumption) ?_) | (with_reducible refine Kept.upd ?_ (by rfl)) | intro _

theorem execZEdge_kept (e : Fin 16 × BitVec 64) (s : State) {u : State} (h : execZEdge e s = .next u) : Kept s u := by
  unfold execZEdge at h
  cases h
  exact State.zEdge_kept s _ _ (Kept.refl _)

theorem State.storeTrack_kept {s0 : State} (s : State) (n : Nat) (x v a : Int) (t : Nat) (hs : Kept s0 s)  : Kept s0 (State.storeTrack s n x v a t) := by
  refine hs.trans ?_
  clear hs
  unfold State.storeTrack
  try dsimp only
  iterate 40 all_goals try first | with_reducible first | exact Kept.refl _ | assumption | apply State.setReg_kept | apply State.wrBit_kept | apply State.wr64_kept

theorem State.trackUpdate_kept {s0 : State} (s : State) (n : Nat) (p : Int) (t : Nat) (hs : Kept s0 s)  : Kept s0 (State.trackUpdate s n p t) := by
  refine hs.trans ?_
  clear hs
  unfold State.trackUpdate
  try dsimp only
  iterate 40 all_goals try first | (with_reducible first | exact Kept.refl _ | assumption | apply State.wr_kept | apply State.setTracker_kept | apply State.storeTrack_kept) | split | (with_reducible refine Kept.ofEq (by assumption) ?_) | (with_reducible refine Kept.upd ?_ (by rfl))

theorem State.stillTracker_kept {s0 : State} (s : State) (n : Nat) (hs : Kept s0 s)  : Kept s0 (State.stillTracker s n) := by
  refine hs.trans ?_
  clear hs
  unfold State.stillTracker
  try dsimp only
  iterate 40 all_goals try first | with_reducible first | exact Kept.refl _ | assumption | apply State.setReg_kept | apply State.wr_kept | apply State.setTracker_kept | (refine Kept.upd ?_ (by rfl))

theorem execTrackerStill_kept (n : Fin 24) (s : State) {u : State} (h : execTrackerStill n s = .next u) : Kept s u := by
  unfold execTrackerStill at h
  cases h
  try dsimp only
  iterate 40 all_goals try first | (with_reducible first | exact Kept.refl _ | assumption | apply State.unfrozen_kept | apply State.stillTracker_kept | apply Kept.ite) | split | (with_reducible refine Kept.ofEq (by assumption) ?_) | intro _

theorem State.setPort_kept {s0 : State} (s : State) (p : Nat) (x : Port) (hs : Kept s0 s)  : Kept s0 (State.setPort s p x) := by
  refine hs.trans ?_
  clear hs
  unfold State.setPort
  try dsimp only
  iterate 40 all_goals try first | (with_reducible first | exact Kept.refl _ | assumption | (refine Kept.upd ?_ (by rfl))) | intro _

theorem State.onPort_kept {s0 : State} (s : State) (p : Nat) (f : Port → Port) (hs : Kept s0 s)  : Kept s0 (State.onPort s p f) := by
  refine hs.trans ?_
  clear hs
  unfold State.onPort
  try dsimp only
  iterate 40 all_goals try first | with_reducible first | exact Kept.refl _ | assumption | apply State.setPort_kept

theorem State.onWave_kept {s0 : State} (s : State) (p : Nat) (f : Wave → Wave) (hs : Kept s0 s)  : Kept s0 (State.onWave s p f) := by
  refine hs.trans ?_
  clear hs
  unfold State.onWave
  try dsimp only
  iterate 40 all_goals try first | (with_reducible first | exact Kept.refl _ | assumption | apply State.onPort_kept | (refine Kept.upd ?_ (by rfl))) | intro _

theorem State.sendCodes_kept {s0 : State} (s : State) (p : Nat) (at_ : Int) (codes : List Int) (hs : Kept s0 s)  : Kept s0 (State.sendCodes s p at_ codes) := by
  refine hs.trans ?_
  clear hs
  unfold State.sendCodes
  try dsimp only
  iterate 40 all_goals try first | (with_reducible first | exact Kept.refl _ | assumption | apply State.emit_kept | apply State.onWave_kept) | split | (with_reducible refine Kept.ofEq (by assumption) ?_) | (with_reducible refine Kept.upd ?_ (by rfl)) | intro _

theorem State.playTo_kept {s0 : State} (s : State) (p : Nat) (t : Int) (hs : Kept s0 s)  : Kept s0 (State.playTo s p t) := by
  refine hs.trans ?_
  clear hs
  unfold State.playTo
  try dsimp only
  iterate 40 all_goals try first | (with_reducible first | exact Kept.refl _ | assumption | apply State.bumpSat_kept | apply State.onWave_kept | apply State.sendCodes_kept | apply Kept.ite) | split | (with_reducible refine Kept.ofEq (by assumption) ?_) | (with_reducible refine Kept.upd ?_ (by rfl)) | intro _

theorem State.playNow_kept {s0 : State} (s : State) (p : Nat) (hs : Kept s0 s)  : Kept s0 (State.playNow s p) := by
  refine hs.trans ?_
  clear hs
  unfold State.playNow
  try dsimp only
  iterate 40 all_goals try first | with_reducible first | exact Kept.refl _ | assumption | apply State.playTo_kept

theorem State.startPlay_kept {s0 : State} (s : State) (p : Nat) (slot : Option Nat) (scale t len : Nat) (line : Bool) (hs : Kept s0 s)  : Kept s0 (State.startPlay s p slot scale t len line) := by
  refine hs.trans ?_
  clear hs
  unfold State.startPlay
  try dsimp only
  iterate 40 all_goals try first | (with_reducible first | exact Kept.refl _ | assumption | apply State.onWave_kept | apply State.sendCodes_kept | apply State.playTo_kept | apply State.playNow_kept) | split | (with_reducible refine Kept.ofEq (by assumption) ?_) | (with_reducible refine Kept.upd ?_ (by rfl)) | intro _

theorem State.rampWave_kept {s0 : State} (s : State) (p : Nat) (target : Int) (n : Nat) (hs : Kept s0 s)  : Kept s0 (State.rampWave s p target n) := by
  refine hs.trans ?_
  clear hs
  unfold State.rampWave
  try dsimp only
  iterate 40 all_goals try first | (with_reducible first | exact Kept.refl _ | assumption | apply State.onWave_kept | apply State.sendCodes_kept | apply State.playNow_kept | apply Kept.ite) | split | (with_reducible refine Kept.ofEq (by assumption) ?_) | (with_reducible refine Kept.upd ?_ (by rfl)) | intro _

theorem State.cutTickle_kept {s0 : State} (s : State) (p : Nat) (hs : Kept s0 s)  : Kept s0 (State.cutTickle s p) := by
  refine hs.trans ?_
  clear hs
  unfold State.cutTickle
  try dsimp only
  iterate 40 all_goals try first | (with_reducible first | exact Kept.refl _ | assumption | apply State.onWave_kept | apply State.sendCodes_kept | apply State.playNow_kept) | split | (with_reducible refine Kept.ofEq (by assumption) ?_) | (with_reducible refine Kept.upd ?_ (by rfl)) | intro _

theorem State.forceWave_kept {s0 : State} (s : State) (p : Nat) (c : Int) (hs : Kept s0 s)  : Kept s0 (State.forceWave s p c) := by
  refine hs.trans ?_
  clear hs
  unfold State.forceWave
  try dsimp only
  iterate 40 all_goals try first | (with_reducible first | exact Kept.refl _ | assumption | apply State.onWave_kept | apply State.sendCodes_kept | apply State.playNow_kept | apply Kept.ite) | split | (with_reducible refine Kept.ofEq (by assumption) ?_) | (with_reducible refine Kept.upd ?_ (by rfl)) | intro _

theorem State.setChan_kept {s0 : State} (s : State) (c : Nat) (x : HkChan) (hs : Kept s0 s)  : Kept s0 (State.setChan s c x) := by
  refine hs.trans ?_
  clear hs
  unfold State.setChan
  try dsimp only
  iterate 40 all_goals try first | (with_reducible first | exact Kept.refl _ | assumption | (refine Kept.upd ?_ (by rfl))) | intro _

theorem State.setRport_kept {s0 : State} (s : State) (p : Nat) (x : RingPort) (hs : Kept s0 s)  : Kept s0 (State.setRport s p x) := by
  refine hs.trans ?_
  clear hs
  unfold State.setRport
  try dsimp only
  iterate 40 all_goals try first | (with_reducible first | exact Kept.refl _ | assumption | (refine Kept.upd ?_ (by rfl))) | intro _

theorem State.setRsrc_kept {s0 : State} (s : State) (a : Nat) (x : RingSrc) (hs : Kept s0 s)  : Kept s0 (State.setRsrc s a x) := by
  refine hs.trans ?_
  clear hs
  unfold State.setRsrc
  try dsimp only
  iterate 40 all_goals try first | (with_reducible first | exact Kept.refl _ | assumption | (refine Kept.upd ?_ (by rfl))) | intro _

theorem State.queueFrame_kept {s0 : State} (s : State) (p : Nat) (f : RingFrame) (hs : Kept s0 s)  : Kept s0 (State.queueFrame s p f) := by
  refine hs.trans ?_
  clear hs
  unfold State.queueFrame
  try dsimp only
  iterate 40 all_goals try first | (with_reducible first | exact Kept.refl _ | assumption | apply State.bumpSat_kept | apply State.setRport_kept | apply Kept.ite) | split | (with_reducible refine Kept.ofEq (by assumption) ?_) | (with_reducible refine Kept.upd ?_ (by rfl))

theorem State.correctFollow_kept {s0 : State} (s : State) (p : Nat) (f : RingFrame) (m : PtpMsg) (hs : Kept s0 s)  : Kept s0 (State.correctFollow s p f m).2 := by
  refine hs.trans ?_
  clear hs
  unfold State.correctFollow
  try dsimp only
  iterate 40 all_goals try first | (with_reducible first | exact Kept.refl _ | assumption | apply State.setRport_kept) | split | (with_reducible refine Kept.ofEq (by assumption) ?_) | (with_reducible refine Kept.upd ?_ (by rfl)) | intro _

theorem State.departed_kept {s0 : State} (s : State) (p : Nat) (f : RingFrame) (hs : Kept s0 s)  : Kept s0 (State.departed s p f) := by
  refine hs.trans ?_
  clear hs
  unfold State.departed
  try dsimp only
  iterate 40 all_goals try first | (with_reducible first | exact Kept.refl _ | assumption | apply State.setRport_kept | apply State.queueFrame_kept | apply Kept.ite) | split | (with_reducible refine Kept.ofEq (by assumption) ?_) | (with_reducible refine Kept.upd ?_ (by rfl)) | intro _

theorem State.depart_kept {s0 : State} (s : State) (p : Nat) (f : RingFrame) (hs : Kept s0 s)  : Kept s0 (State.depart s p f) := by
  refine hs.trans ?_
  clear hs
  unfold State.depart
  try dsimp only
  iterate 40 all_goals try first | (with_reducible first | exact Kept.refl _ | assumption | apply State.bump_kept | apply State.emit_kept | apply State.correctFollow_kept | apply State.departed_kept | apply Kept.ite) | split | (with_reducible refine Kept.ofEq (by assumption) ?_)

theorem State.sendNext_kept {s0 : State} (s : State) (p : Nat) (hs : Kept s0 s)  : Kept s0 (State.sendNext s p) := by
  refine hs.trans ?_
  clear hs
  unfold State.sendNext
  try dsimp only
  iterate 40 all_goals try first | (with_reducible first | exact Kept.refl _ | assumption | apply State.setRport_kept | apply State.depart_kept) | split | (with_reducible refine Kept.ofEq (by assumption) ?_) | (with_reducible refine Kept.upd ?_ (by rfl))

theorem State.idle_kept {s0 : State} (s : State) (hs : Kept s0 s)  : Kept s0 (State.idle s) := by
  refine hs.trans ?_
  clear hs
  unfold State.idle
  try dsimp only
  iterate 40 all_goals try first | (with_reducible first | exact Kept.refl _ | assumption | apply State.tick_kept | apply State.advanceMirrors_kept | apply State.sendNext_kept | apply Kept.ite) | split | (with_reducible refine Kept.ofEq (by assumption) ?_)

theorem State.ringSendAny_kept {s0 : State} (s : State) (dst : Nat) (m : RingMsg) (hs : Kept s0 s)  : Kept s0 (State.ringSendAny s dst m) := by
  refine hs.trans ?_
  clear hs
  unfold State.ringSendAny
  try dsimp only
  iterate 40 all_goals try first | (with_reducible first | exact Kept.refl _ | assumption | apply State.queueFrame_kept | apply Kept.ite) | split | (with_reducible refine Kept.ofEq (by assumption) ?_) | (with_reducible refine Kept.upd ?_ (by rfl))

theorem State.ringSend_kept {s0 : State} (s : State) (dst : Nat) (m : RingMsg) (hs : Kept s0 s)  : Kept s0 (State.ringSend s dst m) := by
  refine hs.trans ?_
  clear hs
  unfold State.ringSend
  try dsimp only
  iterate 40 all_goals try first | (with_reducible first | exact Kept.refl _ | assumption | apply State.ringSendAny_kept | apply Kept.ite) | split | (with_reducible refine Kept.ofEq (by assumption) ?_)

theorem State.ringSendOne_kept {s0 : State} (s : State) (p : Nat) (m : RingMsg) (hs : Kept s0 s)  : Kept s0 (State.ringSendOne s p m) := by
  refine hs.trans ?_
  clear hs
  unfold State.ringSendOne
  try dsimp only
  iterate 40 all_goals try first | (with_reducible first | exact Kept.refl _ | assumption | apply State.queueFrame_kept | apply Kept.ite) | split | (with_reducible refine Kept.ofEq (by assumption) ?_) | (with_reducible refine Kept.upd ?_ (by rfl))

theorem State.setCtx_kept {s0 : State} (s : State) (c : Nat) (x : Ctx) (hs : Kept s0 s)  : Kept s0 (State.setCtx s c x) := by
  refine hs.trans ?_
  clear hs
  unfold State.setCtx
  try dsimp only
  iterate 40 all_goals try first | (with_reducible first | exact Kept.refl _ | assumption | (refine Kept.upd ?_ (by rfl))) | intro _

theorem State.setProd_kept {s0 : State} (s : State) (c : Nat) (x : Product) (hs : Kept s0 s)  : Kept s0 (State.setProd s c x) := by
  refine hs.trans ?_
  clear hs
  unfold State.setProd
  try dsimp only
  iterate 40 all_goals try first | (with_reducible first | exact Kept.refl _ | assumption | apply State.setCtx_kept | apply Kept.ite) | split | (with_reducible refine Kept.ofEq (by assumption) ?_) | (with_reducible refine Kept.upd ?_ (by rfl)) | intro _

theorem State.ctxMove_kept {s0 : State} (s : State) (c new cause data2 : Nat) (hs : Kept s0 s)  : Kept s0 (State.ctxMove s c new cause data2) := by
  refine hs.trans ?_
  clear hs
  unfold State.ctxMove
  try dsimp only
  iterate 40 all_goals try first | (with_reducible first | exact Kept.refl _ | assumption | apply State.wr_kept | apply State.event_kept | apply Kept.ite) | split | (with_reducible refine Kept.ofEq (by assumption) ?_)

theorem State.drivePulse_kept {s0 : State} (s : State) (p : Pulse) (hs : Kept s0 s)  : Kept s0 (State.drivePulse s p) := by
  refine hs.trans ?_
  clear hs
  unfold State.drivePulse
  try dsimp only
  iterate 40 all_goals try first | with_reducible first | exact Kept.refl _ | assumption | (refine Kept.upd ?_ (by rfl))

theorem State.schedulePulse_kept {s0 : State} (s : State) (c : Nat) (ref : Int) (rej delay : Word) (hs : Kept s0 s)  : Kept s0 (State.schedulePulse s c ref rej delay) := by
  refine hs.trans ?_
  clear hs
  unfold State.schedulePulse
  try dsimp only
  iterate 40 all_goals try first | (with_reducible first | exact Kept.refl _ | assumption | apply State.bumpSat_kept | apply State.setCtx_kept | apply State.drivePulse_kept | apply Kept.ite) | split | (with_reducible refine Kept.ofEq (by assumption) ?_) | (with_reducible refine Kept.upd ?_ (by rfl))

theorem State.ringReject_kept {s0 : State} (s : State) (c : Nat) (rej : Word) (status seq : Nat) (ref : Int) (t : Nat) (hs : Kept s0 s)  : Kept s0 (State.ringReject s c rej status seq ref t) := by
  refine hs.trans ?_
  clear hs
  unfold State.ringReject
  try dsimp only
  iterate 40 all_goals try first | (with_reducible first | exact Kept.refl _ | assumption | apply State.ringSend_kept | apply Kept.ite) | split | (with_reducible refine Kept.ofEq (by assumption) ?_)

theorem State.rejectNoJob_kept {s0 : State} (s : State) (c : Nat) (ref : Int) (t : Nat) (hs : Kept s0 s)  : Kept s0 (State.rejectNoJob s c ref t) := by
  refine hs.trans ?_
  clear hs
  unfold State.rejectNoJob
  try dsimp only
  iterate 40 all_goals try first | (with_reducible first | exact Kept.refl _ | assumption | apply State.draw_kept | apply State.schedulePulse_kept | apply State.ringReject_kept | apply Kept.ite) | split | (with_reducible refine Kept.ofEq (by assumption) ?_)

theorem State.decideReject_kept {s0 : State} (s : State) (c : Nat) (x : Product) (voted : Bool) (hs : Kept s0 s)  : Kept s0 (State.decideReject s c x voted) := by
  refine hs.trans ?_
  clear hs
  unfold State.decideReject
  try dsimp only
  iterate 40 all_goals try first | (with_reducible first | exact Kept.refl _ | assumption | apply State.setProd_kept | apply State.schedulePulse_kept | apply State.ringReject_kept | apply Kept.ite) | split | (with_reducible refine Kept.ofEq (by assumption) ?_) | (with_reducible refine Kept.upd ?_ (by rfl))

theorem State.completeJob_kept {s0 : State} (s : State) (c : Nat) (x : Product) (hs : Kept s0 s)  : Kept s0 (State.completeJob s c x) := by
  refine hs.trans ?_
  clear hs
  unfold State.completeJob
  try dsimp only
  iterate 40 all_goals try first | (with_reducible first | exact Kept.refl _ | assumption | apply State.complete_kept | apply State.settle_kept | apply State.ringSend_kept | apply Kept.ite) | split | (with_reducible refine Kept.ofEq (by assumption) ?_)

theorem State.flushProds_kept {s0 : State} (c : Nat) (l : List Product) (s : State) (hs : Kept s0 s) :
    Kept s0 (State.flushProds c l s) := by
  induction l generalizing s with
  | nil => exact State.setCtx_kept _ _ _ hs
  | cons x t ih =>
    unfold State.flushProds
    split
    · exact ih _ (State.completeJob_kept _ _ _ hs)
    · exact State.setCtx_kept _ _ _ hs


theorem State.settleProds_kept {s0 : State} (s : State) (c : Nat) (hs : Kept s0 s)  : Kept s0 (State.settleProds s c) := by
  refine hs.trans ?_
  clear hs
  unfold State.settleProds
  try dsimp only
  iterate 40 all_goals try first | (with_reducible first | exact Kept.refl _ | assumption | apply State.decideReject_kept | apply State.flushProds_kept | apply Kept.ite | apply Kept.foldl | apply Kept.foldlSnd) | split | (with_reducible refine Kept.ofEq (by assumption) ?_) | intro _

theorem State.restCtx_kept {s0 : State} (s : State) (c : Nat) (hs : Kept s0 s)  : Kept s0 (State.restCtx s c) := by
  refine hs.trans ?_
  clear hs
  unfold State.restCtx
  try dsimp only
  iterate 40 all_goals try first | (with_reducible first | exact Kept.refl _ | assumption | apply State.ctxMove_kept | apply Kept.ite) | split | (with_reducible refine Kept.ofEq (by assumption) ?_)

theorem State.purgeVoids_kept {s0 : State} (s : State) (p : Nat) (hs : Kept s0 s)  : Kept s0 (State.purgeVoids s p) := by
  refine hs.trans ?_
  clear hs
  unfold State.purgeVoids
  try dsimp only
  iterate 40 all_goals try first | (with_reducible first | exact Kept.refl _ | assumption | apply State.wr_kept | apply State.setPort_kept | apply Kept.ite) | split | (with_reducible refine Kept.ofEq (by assumption) ?_) | (with_reducible refine Kept.upd ?_ (by rfl))

theorem State.dropAt_kept {s0 : State} (s : State) (p : Nat) (drop : PLine → Bool) (hs : Kept s0 s)  : Kept s0 (State.dropAt s p drop) := by
  refine hs.trans ?_
  clear hs
  unfold State.dropAt
  try dsimp only
  iterate 40 all_goals try first | (with_reducible first | exact Kept.refl _ | assumption | apply State.wr_kept | apply State.emit_kept | apply State.setPort_kept | apply State.purgeVoids_kept | apply Kept.ite | apply Kept.foldl | apply Kept.foldlSnd) | split | (with_reducible refine Kept.ofEq (by assumption) ?_) | (with_reducible refine Kept.upd ?_ (by rfl)) | intro _

theorem State.cleanCompose_kept {s0 : State} (s : State) (hs : Kept s0 s)  : Kept s0 (State.cleanCompose s) := by
  refine hs.trans ?_
  clear hs
  unfold State.cleanCompose
  try dsimp only
  iterate 40 all_goals try first | (with_reducible first | exact Kept.refl _ | assumption) | split | (with_reducible refine Kept.ofEq (by assumption) ?_) | (with_reducible refine Kept.upd ?_ (by rfl)) | intro _

theorem State.dropRequests_kept {s0 : State} (s : State) (k : AbortKind) (c id : Nat) (hs : Kept s0 s)  : Kept s0 (State.dropRequests s k c id) := by
  refine hs.trans ?_
  clear hs
  unfold State.dropRequests
  try dsimp only
  iterate 40 all_goals try first | (with_reducible first | exact Kept.refl _ | assumption) | split | (with_reducible refine Kept.ofEq (by assumption) ?_) | (with_reducible refine Kept.upd ?_ (by rfl)) | intro _

theorem State.abortProd_kept {s0 : State} (s : State) (c id : Nat) (k : AbortKind) (status : Nat) (hs : Kept s0 s)  : Kept s0 (State.abortProd s c id k status) := by
  refine hs.trans ?_
  clear hs
  unfold State.abortProd
  try dsimp only
  iterate 40 all_goals try first | (with_reducible first | exact Kept.refl _ | assumption | apply State.setProd_kept | apply State.decideReject_kept | apply State.dropAt_kept | apply State.cleanCompose_kept | apply State.dropRequests_kept | apply Kept.ite | apply Kept.foldl | apply Kept.foldlSnd) | split | (with_reducible refine Kept.ofEq (by assumption) ?_) | (with_reducible refine Kept.upd ?_ (by rfl)) | intro _

theorem State.endProd_kept {s0 : State} (s : State) (c : Nat) (x : Product) (status : Nat) (hs : Kept s0 s)  : Kept s0 (State.endProd s c x status) := by
  refine hs.trans ?_
  clear hs
  unfold State.endProd
  try dsimp only
  iterate 40 all_goals try first | (with_reducible first | exact Kept.refl _ | assumption | apply State.wr_kept | apply State.bumpSat_kept | apply State.setProd_kept | apply Kept.ite) | split | (with_reducible refine Kept.ofEq (by assumption) ?_) | (with_reducible refine Kept.upd ?_ (by rfl))

theorem State.endProds_kept {s0 : State} (s : State) (c : Nat) (hs : Kept s0 s)  : Kept s0 (State.endProds s c) := by
  refine hs.trans ?_
  clear hs
  unfold State.endProds
  try dsimp only
  iterate 40 all_goals try first | (with_reducible first | exact Kept.refl _ | assumption | apply State.settleProds_kept | apply State.restCtx_kept | apply State.endProd_kept | apply Kept.ite | apply Kept.foldl | apply Kept.foldlSnd) | split | (with_reducible refine Kept.ofEq (by assumption) ?_) | intro _

theorem State.endAll_kept {s0 : State} (s : State) (hs : Kept s0 s)  : Kept s0 (State.endAll s) := by
  refine hs.trans ?_
  clear hs
  unfold State.endAll
  try dsimp only
  iterate 40 all_goals try first | (with_reducible first | exact Kept.refl _ | assumption | apply State.endProds_kept | apply Kept.foldl | apply Kept.foldlSnd) | intro _

theorem State.abortCtx_kept {s0 : State} (s : State) (c : Nat) (which : Product → Bool) (k : AbortKind) (status : Nat) (hs : Kept s0 s)  : Kept s0 (State.abortCtx s c which k status) := by
  refine hs.trans ?_
  clear hs
  unfold State.abortCtx
  try dsimp only
  iterate 40 all_goals try first | (with_reducible first | exact Kept.refl _ | assumption | apply State.abortProd_kept | apply State.endProds_kept | apply Kept.foldl | apply Kept.foldlSnd) | intro _

theorem State.enterFaulted_kept {s0 : State} (s : State) (c cause scope : Nat) (hs : Kept s0 s)  : Kept s0 (State.enterFaulted s c cause scope) := by
  refine hs.trans ?_
  clear hs
  unfold State.enterFaulted
  try dsimp only
  iterate 40 all_goals try first | (with_reducible first | exact Kept.refl _ | assumption | apply State.setCtx_kept | apply State.ctxMove_kept | apply State.abortCtx_kept | apply Kept.ite) | split | (with_reducible refine Kept.ofEq (by assumption) ?_) | (with_reducible refine Kept.upd ?_ (by rfl)) | intro _

theorem State.leaveFaulted_kept {s0 : State} (s : State) (c : Nat) (left : List Nat) (cause scope : Nat) (hs : Kept s0 s)  : Kept s0 (State.leaveFaulted s c left cause scope) := by
  refine hs.trans ?_
  clear hs
  unfold State.leaveFaulted
  try dsimp only
  iterate 40 all_goals try first | (with_reducible first | exact Kept.refl _ | assumption | apply State.wr_kept | apply State.setCtx_kept | apply State.ctxMove_kept | apply Kept.ite) | split | (with_reducible refine Kept.ofEq (by assumption) ?_) | (with_reducible refine Kept.upd ?_ (by rfl)) | intro _

theorem State.copySet_kept {s0 : State} (s : State) (c : Nat) (hs : Kept s0 s)  : Kept s0 (State.copySet s c) := by
  refine hs.trans ?_
  clear hs
  unfold State.copySet
  try dsimp only
  iterate 40 all_goals try first | (with_reducible first | exact Kept.refl _ | assumption | apply State.setReg_kept | apply Kept.foldl | apply Kept.foldlSnd) | intro _

theorem State.handOver_kept {s0 : State} (s : State) (c : Nat) (taken : Option Job) (hs : Kept s0 s)  : Kept s0 (State.handOver s c taken) := by
  refine hs.trans ?_
  clear hs
  unfold State.handOver
  try dsimp only
  iterate 40 all_goals try first | (with_reducible first | exact Kept.refl _ | assumption | apply State.setReg_kept | apply State.wr_kept | apply State.bump_kept | apply State.copySet_kept | apply Kept.ite) | split | (with_reducible refine Kept.ofEq (by assumption) ?_)

theorem State.writeCommit_kept {s0 : State} (s : State) (c : Nat) (v : Word) (hs : Kept s0 s)  : Kept s0 (State.writeCommit s c v) := by
  refine hs.trans ?_
  clear hs
  unfold State.writeCommit
  try dsimp only
  iterate 40 all_goals try first | (with_reducible first | exact Kept.refl _ | assumption | apply State.wr_kept | apply State.handOver_kept | apply Kept.ite) | split | (with_reducible refine Kept.ofEq (by assumption) ?_)

theorem execCommit_kept (m : Master) (n : Fin 255) (s : State) {u : State} (h : execCommit m n s = .next u) : Kept s u := by
  unfold execCommit at h
  cases h
  try dsimp only
  iterate 40 all_goals try first | (with_reducible first | exact Kept.refl _ | assumption | apply State.unfrozen_kept | apply State.accessBy_kept | apply State.writeCommit_kept) | intro _

theorem execCancel_kept (m : Master) (n : Fin 255) (s : State) {u : State} (h : execCancel m n s = .next u) : Kept s u := by
  unfold execCancel at h
  cases h
  try dsimp only
  iterate 40 all_goals try first | (with_reducible first | exact Kept.refl _ | assumption | apply State.unfrozen_kept | apply State.accessBy_kept | apply State.writeCommit_kept) | intro _

theorem execImmediate_kept (m : Master) (n : Fin 255) (s : State) {u : State} (h : execImmediate m n s = .next u) : Kept s u := by
  unfold execImmediate at h
  cases h
  try dsimp only
  iterate 40 all_goals try first | (with_reducible first | exact Kept.refl _ | assumption | apply State.unfrozen_kept | apply State.accessBy_kept | apply State.writeCommit_kept) | intro _

theorem State.addProd_kept {s0 : State} (s : State) (c : Nat) (x : Product) (hs : Kept s0 s)  : Kept s0 (State.addProd s c x) := by
  refine hs.trans ?_
  clear hs
  unfold State.addProd
  try dsimp only
  iterate 40 all_goals try first | with_reducible first | exact Kept.refl _ | assumption | apply State.setCtx_kept | (refine Kept.upd ?_ (by rfl))

theorem State.endJob_kept {s0 : State} (s : State) (c : Nat) (j : Job) (status t : Nat) (ref : Int) (hs : Kept s0 s)  : Kept s0 (State.endJob s c j status t ref) := by
  refine hs.trans ?_
  clear hs
  unfold State.endJob
  try dsimp only
  iterate 40 all_goals try first | with_reducible first | exact Kept.refl _ | assumption | apply State.decideReject_kept | apply State.settleProds_kept | apply State.addProd_kept | (refine Kept.upd ?_ (by rfl))

theorem State.cancelJob_kept {s0 : State} (s : State) (c : Nat) (j : Job) (hs : Kept s0 s)  : Kept s0 (State.cancelJob s c j) := by
  refine hs.trans ?_
  clear hs
  unfold State.cancelJob
  try dsimp only
  iterate 40 all_goals try first | (with_reducible first | exact Kept.refl _ | assumption | apply State.draw_kept | apply State.settleProds_kept | apply State.addProd_kept) | split | (with_reducible refine Kept.ofEq (by assumption) ?_) | (with_reducible refine Kept.upd ?_ (by rfl))

theorem State.cancelQueue_kept {s0 : State} (s : State) (c : Nat) (hs : Kept s0 s)  : Kept s0 (State.cancelQueue s c) := by
  refine hs.trans ?_
  clear hs
  unfold State.cancelQueue
  try dsimp only
  iterate 40 all_goals try first | (with_reducible first | exact Kept.refl _ | assumption | apply State.setCtx_kept | apply State.cancelJob_kept | apply Kept.foldl | apply Kept.foldlSnd | (refine Kept.upd ?_ (by rfl))) | intro _

theorem State.bindCtx_kept {s0 : State} (s : State) (d : Desc) (hs : Kept s0 s)  : Kept s0 (State.bindCtx s d) := by
  refine hs.trans ?_
  clear hs
  unfold State.bindCtx
  try dsimp only
  iterate 40 all_goals try first | (with_reducible first | exact Kept.refl _ | assumption | apply State.setReg_kept | apply State.setCtx_kept | apply State.ctxMove_kept | apply State.enterFaulted_kept | apply State.handOver_kept | apply Kept.ite | apply Kept.foldl | apply Kept.foldlSnd) | split | (with_reducible refine Kept.ofEq (by assumption) ?_) | (with_reducible refine Kept.upd ?_ (by rfl)) | intro _

theorem execCtxBind_kept (s : State) {u : State} (h : execCtxBind s = .next u) : Kept s u := by
  unfold execCtxBind at h
  cases h
  try dsimp only
  iterate 40 all_goals try first | (with_reducible first | exact Kept.refl _ | assumption | apply State.unfrozen_kept | apply State.finish_kept | apply State.bindCtx_kept | apply Kept.ite) | split | (with_reducible refine Kept.ofEq (by assumption) ?_) | intro _

theorem State.releaseCtx_kept {s0 : State} (s : State) (c : Nat) (hs : Kept s0 s)  : Kept s0 (State.releaseCtx s c) := by
  refine hs.trans ?_
  clear hs
  unfold State.releaseCtx
  try dsimp only
  iterate 40 all_goals try first | (with_reducible first | exact Kept.refl _ | assumption | apply State.setReg_kept | apply State.wr_kept | apply State.setCtx_kept | apply Kept.foldl | apply Kept.foldlSnd | (refine Kept.upd ?_ (by rfl))) | intro _

theorem execCtxUnbind_kept (s : State) {u : State} (h : execCtxUnbind s = .next u) : Kept s u := by
  unfold execCtxUnbind at h
  cases h
  try dsimp only
  iterate 40 all_goals try first | (with_reducible first | exact Kept.refl _ | assumption | apply State.unfrozen_kept | apply State.finish_kept | apply State.ctxMove_kept | apply State.cancelQueue_kept | apply State.releaseCtx_kept | apply Kept.ite) | split | (with_reducible refine Kept.ofEq (by assumption) ?_) | intro _

theorem State.ctxControl_kept {s0 : State} (s : State) (action : Nat) (act : Nat → State → State × Nat × Nat) (hs : Kept s0 s) (hact : ∀ x0 x1, Kept x1 (act x0 x1).1) : Kept s0 (State.ctxControl s action act) := by
  refine hs.trans ?_
  clear hs
  have hact' : ∀ s0 x0 x1, Kept s0 x1 → Kept s0 (act x0 x1).1 := fun _ x0 x1 k => k.trans (hact x0 x1)
  unfold State.ctxControl
  try dsimp only
  iterate 40 all_goals try first | (with_reducible first | exact Kept.refl _ | assumption | apply State.finish_kept | apply hact' | apply Kept.ite) | split | (with_reducible refine Kept.ofEq (by assumption) ?_)

theorem execHalt_kept (s : State) {u : State} (h : execHalt s = .next u) : Kept s u := by
  unfold execHalt at h
  cases h
  try dsimp only
  iterate 40 all_goals try first | (with_reducible first | exact Kept.refl _ | assumption | apply State.wr_kept | apply State.unfrozen_kept | apply State.ctxMove_kept | apply State.ctxControl_kept) | split | (with_reducible refine Kept.ofEq (by assumption) ?_) | intro _

theorem execResume_kept (s : State) {u : State} (h : execResume s = .next u) : Kept s u := by
  unfold execResume at h
  cases h
  try dsimp only
  iterate 40 all_goals try first | (with_reducible first | exact Kept.refl _ | assumption | apply State.wr_kept | apply State.unfrozen_kept | apply State.ctxMove_kept | apply State.ctxControl_kept) | split | (with_reducible refine Kept.ofEq (by assumption) ?_) | intro _

theorem execFlush_kept (s : State) {u : State} (h : execFlush s = .next u) : Kept s u := by
  unfold execFlush at h
  cases h
  try dsimp only
  iterate 40 all_goals try first | (with_reducible first | exact Kept.refl _ | assumption | apply State.unfrozen_kept | apply State.cancelQueue_kept | apply State.ctxControl_kept | apply Kept.ite) | split | (with_reducible refine Kept.ofEq (by assumption) ?_) | intro _

theorem execRecover_kept (s : State) {u : State} (h : execRecover s = .next u) : Kept s u := by
  unfold execRecover at h
  cases h
  try dsimp only
  iterate 40 all_goals try first | (with_reducible first | exact Kept.refl _ | assumption | apply State.unfrozen_kept | apply State.enterFaulted_kept | apply State.leaveFaulted_kept | apply State.ctxControl_kept | apply Kept.ite) | split | (with_reducible refine Kept.ofEq (by assumption) ?_) | intro _

theorem execJobFetch_kept (r : Fin 16) (s : State) {u : State} (h : execJobFetch r s = .next u) : Kept s u := by
  unfold execJobFetch at h
  cases h
  try dsimp only
  iterate 40 all_goals try first | (with_reducible first | exact Kept.refl _ | assumption | apply State.unfrozen_kept | apply State.setRing_kept | apply State.completeAny_kept | apply State.popDesc_kept | apply Kept.ite) | split | (with_reducible refine Kept.ofEq (by assumption) ?_) | (with_reducible refine Kept.upd ?_ (by rfl)) | intro _

theorem State.enterQueue_kept {s0 : State} (s : State) (c : Nat) (j : Job) (hs : Kept s0 s)  : Kept s0 (State.enterQueue s c j) := by
  refine hs.trans ?_
  clear hs
  unfold State.enterQueue
  try dsimp only
  iterate 40 all_goals try first | (with_reducible first | exact Kept.refl _ | assumption | apply State.wr_kept | apply State.setCtx_kept | apply State.cancelJob_kept | apply Kept.ite) | split | (with_reducible refine Kept.ofEq (by assumption) ?_) | (with_reducible refine Kept.upd ?_ (by rfl))

theorem execJobEnterQueue_kept (r : Fin 16) (s : State) {u : State} (h : execJobEnterQueue r s = .next u) : Kept s u := by
  unfold execJobEnterQueue at h
  cases h
  try dsimp only
  iterate 40 all_goals try first | (with_reducible first | exact Kept.refl _ | assumption | apply State.unfrozen_kept | apply State.setRing_kept | apply State.completeAny_kept | apply State.popDesc_kept | apply State.enterQueue_kept | apply Kept.ite) | split | (with_reducible refine Kept.ofEq (by assumption) ?_) | (with_reducible refine Kept.upd ?_ (by rfl)) | intro _

end Sys2Proof.Machine
end

