-- ==== Sys2Proof/Laws/KeptPorts.lean ====
section
/-! SUPPORT. `Kept` for the drop memory, the compositor, the ports and the head links: one lemma for each operation and each command. -/

namespace Sys2Proof.Machine

theorem State.writeByte_kept {s0 : State} (s : State) (a : Nat) (b : Byte) (hs : Kept s0 s) : Kept s0 (s.writeByte a b) :=
  hs.trans ⟨rfl, ⟨[], by simp [State.writeByte]⟩, fun h => Store.wf_put h a b, id, id, id⟩

theorem State.setBad_kept {s0 : State} (s : State) (w : Nat) (b : Option BadWord) (hs : Kept s0 s)  : Kept s0 (State.setBad s w b) := by
  refine hs.trans ?_
  clear hs
  unfold State.setBad
  try dsimp only
  iterate 40 all_goals try first | (with_reducible first | exact Kept.refl _ | assumption | (refine Kept.upd ?_ (by rfl))) | intro _

theorem State.storeWord_kept {s0 : State} (s : State) (w : Nat) (v : BitVec 64) (hs : Kept s0 s)  : Kept s0 (State.storeWord s w v) := by
  refine hs.trans ?_
  clear hs
  unfold State.storeWord
  try dsimp only
  iterate 40 all_goals try first | (with_reducible first | exact Kept.refl _ | assumption | apply State.writeByte_kept | apply Kept.foldl | apply Kept.foldlSnd) | intro _

theorem State.upset_kept {s0 : State} (s : State) (w : Nat) (flips : BitVec 72) (hs : Kept s0 s)  : Kept s0 (State.upset s w flips) := by
  refine hs.trans ?_
  clear hs
  unfold State.upset
  try dsimp only
  iterate 40 all_goals try first | (with_reducible first | exact Kept.refl _ | assumption | apply State.draw_kept | apply State.setBad_kept | apply State.storeWord_kept | apply Kept.elim) | split | (with_reducible refine Kept.ofEq (by assumption) ?_) | intro _

theorem State.writeBack_kept {s0 : State} (s : State) (w : Nat) (hs : Kept s0 s)  : Kept s0 (State.writeBack s w) := by
  refine hs.trans ?_
  clear hs
  unfold State.writeBack
  try dsimp only
  iterate 40 all_goals try first | (with_reducible first | exact Kept.refl _ | assumption | apply State.setBad_kept | apply State.storeWord_kept) | split | (with_reducible refine Kept.ofEq (by assumption) ?_)

theorem State.eccReport_kept {s0 : State} (s : State) (w : Nat) (r : Ecc) (m : Option Master) (inj coinc : Bool) (hs : Kept s0 s)  : Kept s0 (State.eccReport s w r m inj coinc) := by
  refine hs.trans ?_
  clear hs
  unfold State.eccReport
  try dsimp only
  iterate 40 all_goals try first | (with_reducible first | exact Kept.refl _ | assumption | apply State.wr_kept | apply State.bumpSat_kept | apply State.reportInj_kept) | split | (with_reducible refine Kept.ofEq (by assumption) ?_)

theorem State.checkWord_kept {s0 : State} (s : State) (w : Nat) (m : Option Master) (hs : Kept s0 s)  : Kept s0 (State.checkWord s w m).2 := by
  refine hs.trans ?_
  clear hs
  unfold State.checkWord
  try dsimp only
  iterate 40 all_goals try first | (with_reducible first | exact Kept.refl _ | assumption | apply State.injFired_kept | apply State.injRail_kept | apply State.eccReport_kept | apply Kept.ite) | split | (with_reducible refine Kept.ofEq (by assumption) ?_)

theorem State.scheduleBack_kept {s0 : State} (s : State) (w : Nat) (hs : Kept s0 s)  : Kept s0 (State.scheduleBack s w) := by
  refine hs.trans ?_
  clear hs
  unfold State.scheduleBack
  try dsimp only
  iterate 40 all_goals try first | (with_reducible first | exact Kept.refl _ | assumption | apply State.writeBack_kept | apply Kept.ite) | split | (with_reducible refine Kept.ofEq (by assumption) ?_) | (with_reducible refine Kept.upd ?_ (by rfl)) | intro _

theorem State.readWord_kept {s0 : State} (s : State) (w : Nat) (m : Option Master) (hs : Kept s0 s)  : Kept s0 (State.readWord s w m).2 := by
  refine hs.trans ?_
  clear hs
  unfold State.readWord
  try dsimp only
  iterate 40 all_goals try first | (with_reducible first | exact Kept.refl _ | assumption | apply State.checkWord_kept | apply State.scheduleBack_kept | apply Kept.ite) | split | (with_reducible refine Kept.ofEq (by assumption) ?_)

theorem State.putBytes_kept {s0 : State} (s : State) (w : Nat) (part : List (Option Byte)) (hs : Kept s0 s)  : Kept s0 (State.putBytes s w part) := by
  refine hs.trans ?_
  clear hs
  unfold State.putBytes
  try dsimp only
  iterate 40 all_goals try first | (with_reducible first | exact Kept.refl _ | assumption | apply State.writeByte_kept | apply Kept.foldl | apply Kept.foldlSnd) | split | (with_reducible refine Kept.ofEq (by assumption) ?_) | intro _

theorem State.writeWord_kept {s0 : State} (s : State) (w : Nat) (part : List (Option Byte)) (m : Option Master) (hs : Kept s0 s)  : Kept s0 (State.writeWord s w part m) := by
  refine hs.trans ?_
  clear hs
  unfold State.writeWord
  try dsimp only
  iterate 40 all_goals try first | (with_reducible first | exact Kept.refl _ | assumption | apply State.setBad_kept | apply State.writeBack_kept | apply State.checkWord_kept | apply State.putBytes_kept | apply Kept.ite) | split | (with_reducible refine Kept.ofEq (by assumption) ?_) | (with_reducible refine Kept.upd ?_ (by rfl)) | intro _

theorem State.writeDots_kept {s0 : State} (s : State) (a : Nat) (data : List (Option Byte)) (m : Option Master) (hs : Kept s0 s)  : Kept s0 (State.writeDots s a data m) := by
  refine hs.trans ?_
  clear hs
  unfold State.writeDots
  try dsimp only
  iterate 40 all_goals try first | (with_reducible first | exact Kept.refl _ | assumption | apply State.reportInj_kept | apply State.writeWord_kept | apply Kept.ite | apply Kept.foldl | apply Kept.foldlSnd) | split | (with_reducible refine Kept.ofEq (by assumption) ?_) | intro _

theorem State.readDots_kept {s0 : State} (s : State) (a len : Nat) (m : Option Master) (hs : Kept s0 s)  : Kept s0 (State.readDots s a len m).2 := by
  refine hs.trans ?_
  clear hs
  unfold State.readDots
  try dsimp only
  iterate 40 all_goals try first | (with_reducible first | exact Kept.refl _ | assumption | apply State.reportInj_kept | apply State.readWord_kept | apply Kept.ite | apply Kept.foldl | apply Kept.foldlSnd) | split | (with_reducible refine Kept.ofEq (by assumption) ?_) | intro _

theorem execMoraineWrite_kept (m : Master) (a : BusAddr) (data : List (Option Byte)) (s : State) {u : State} (h : execMoraineWrite m a data s = .next u) : Kept s u := by
  unfold execMoraineWrite at h
  cases h
  try dsimp only
  iterate 40 all_goals try first | (with_reducible first | exact Kept.refl _ | assumption | apply State.unfrozen_kept | apply State.writeDots_kept | apply Kept.ite) | split | (with_reducible refine Kept.ofEq (by assumption) ?_) | intro _

theorem State.scrub_kept {s0 : State} (s : State) (hs : Kept s0 s)  : Kept s0 (State.scrub s) := by
  refine hs.trans ?_
  clear hs
  unfold State.scrub
  try dsimp only
  iterate 40 all_goals try first | (with_reducible first | exact Kept.refl _ | assumption | apply State.writeBack_kept | apply State.checkWord_kept | apply Kept.ite | apply Kept.foldl | apply Kept.foldlSnd) | split | (with_reducible refine Kept.ofEq (by assumption) ?_) | (with_reducible refine Kept.upd ?_ (by rfl)) | intro _

theorem execScrubRead_kept (s : State) {u : State} (h : execScrubRead s = .next u) : Kept s u := by
  unfold execScrubRead at h
  cases h
  iterate 40 all_goals try first | (with_reducible first | exact Kept.refl _ | assumption | apply State.unfrozen_kept | apply State.scrub_kept | apply Kept.ite) | intro _

theorem State.takeUpsets_kept {s0 : State} (s : State) (upsets : List (Fin 0x800000 × BitVec 72)) (hs : Kept s0 s) :
    Kept s0 (State.takeUpsets s upsets) := by
  refine hs.trans ?_
  clear hs
  unfold State.takeUpsets
  iterate 40 all_goals try first | (with_reducible first | exact Kept.refl _ | assumption | apply State.upset_kept | apply Kept.foldl) | intro _

theorem State.nextWriteBack_kept {s0 : State} (s : State) (b : Fin 64) (hs : Kept s0 s) : Kept s0 (State.nextWriteBack s b) := by
  refine hs.trans ?_
  clear hs
  unfold State.nextWriteBack
  iterate 40 all_goals try first | (with_reducible first | exact Kept.refl _ | assumption | apply State.writeBack_kept) | split | (with_reducible refine Kept.upd ?_ (by rfl)) | intro _

theorem execEccWriteBack_kept (c : Fin 64 × List (Fin 0x800000 × BitVec 72)) (s : State) {u : State} (h : execEccWriteBack c s = .next u) :
    Kept s u := by
  unfold execEccWriteBack at h
  cases h
  iterate 40 all_goals try first | (with_reducible first | exact Kept.refl _ | assumption | apply State.unfrozen_kept | apply State.nextWriteBack_kept | apply State.takeUpsets_kept) | intro _

theorem execBlockAllocate_kept (n : Fin 255) (s : State) {u : State} (h : execBlockAllocate n s = .next u) : Kept s u := by
  unfold execBlockAllocate at h
  cases h
  try dsimp only
  iterate 40 all_goals try first | (with_reducible first | exact Kept.refl _ | assumption | apply State.unfrozen_kept | apply State.setCtx_kept | apply Kept.ite) | split | (with_reducible refine Kept.ofEq (by assumption) ?_) | (with_reducible refine Kept.upd ?_ (by rfl)) | intro _

theorem State.refetchBlocks_kept {s0 : State} (s : State) (again : Nat → Job → Bool) (lost : Nat → Job → Bool) (hs : Kept s0 s)  : Kept s0 (State.refetchBlocks s again lost) := by
  refine hs.trans ?_
  clear hs
  unfold State.refetchBlocks
  try dsimp only
  iterate 40 all_goals try first | (with_reducible first | exact Kept.refl _ | assumption | apply State.wr_kept | apply State.setCtx_kept | apply Kept.ite | apply Kept.foldl | apply Kept.foldlSnd) | split | (with_reducible refine Kept.ofEq (by assumption) ?_) | (with_reducible refine Kept.upd ?_ (by rfl)) | intro _

theorem State.restartFetches_kept {s0 : State} (s : State) (hs : Kept s0 s)  : Kept s0 (State.restartFetches s) := by
  refine hs.trans ?_
  clear hs
  unfold State.restartFetches
  try dsimp only
  iterate 40 all_goals try first | (with_reducible first | exact Kept.refl _ | assumption | apply State.setCtx_kept | apply Kept.ite | apply Kept.foldl | apply Kept.foldlSnd) | split | (with_reducible refine Kept.ofEq (by assumption) ?_) | (with_reducible refine Kept.upd ?_ (by rfl)) | intro _

theorem State.writePlate_kept {s0 : State} (s : State) (m : Master) (d : Nat) (v : Word) (hs : Kept s0 s)  : Kept s0 (State.writePlate s m d v) := by
  refine hs.trans ?_
  clear hs
  unfold State.writePlate
  try dsimp only
  iterate 40 all_goals try first | (with_reducible first | exact Kept.refl _ | assumption | apply State.wr_kept | apply State.writeCode_kept | apply Kept.ite) | split | (with_reducible refine Kept.ofEq (by assumption) ?_)

theorem execPlateDescriptorWrite_kept (m : Master) (d : Fin 4096) (v : Word) (s : State) {u : State} (h : execPlateDescriptorWrite m d v s = .next u) : Kept s u := by
  unfold execPlateDescriptorWrite at h
  cases h
  try dsimp only
  iterate 40 all_goals try first | (with_reducible first | exact Kept.refl _ | assumption | apply State.unfrozen_kept | apply State.accessBy_kept | apply State.writePlate_kept) | intro _

theorem execScanConfigCommit_kept (m : Master) (n : Fin 255) (v : Word) (s : State) {u : State} (h : execScanConfigCommit m n v s = .next u) : Kept s u := by
  unfold execScanConfigCommit at h
  cases h
  try dsimp only
  iterate 40 all_goals try first | (with_reducible first | exact Kept.refl _ | assumption | apply State.writeCode_kept | apply State.unfrozen_kept | apply State.accessBy_kept) | intro _

theorem State.zoneBad_kept {s0 : State} (s : State) (z reason ctx : Nat) (hs : Kept s0 s)  : Kept s0 (State.zoneBad s z reason ctx) := by
  refine hs.trans ?_
  clear hs
  unfold State.zoneBad
  try dsimp only
  iterate 40 all_goals try first | with_reducible first | exact Kept.refl _ | assumption | apply State.wr_kept | apply State.bumpSat_kept

theorem State.writeZone_kept {s0 : State} (s : State) (m : Master) (z : Nat) (v : Word) (hs : Kept s0 s)  : Kept s0 (State.writeZone s m z v) := by
  refine hs.trans ?_
  clear hs
  unfold State.writeZone
  try dsimp only
  iterate 40 all_goals try first | (with_reducible first | exact Kept.refl _ | assumption | apply State.writeCode_kept | apply State.zoneBad_kept | apply Kept.ite) | split | (with_reducible refine Kept.ofEq (by assumption) ?_)

theorem execStitchZoneWrite_kept (m : Master) (z : Fin 64) (v : Word) (s : State) {u : State} (h : execStitchZoneWrite m z v s = .next u) : Kept s u := by
  unfold execStitchZoneWrite at h
  cases h
  try dsimp only
  iterate 40 all_goals try first | (with_reducible first | exact Kept.refl _ | assumption | apply State.unfrozen_kept | apply State.accessBy_kept | apply State.writeZone_kept) | intro _

theorem State.captureZones_kept {s0 : State} (s : State) (c : Nat) (hs : Kept s0 s)  : Kept s0 (State.captureZones s c).2 := by
  refine hs.trans ?_
  clear hs
  unfold State.captureZones
  try dsimp only
  iterate 40 all_goals try first | (with_reducible first | exact Kept.refl _ | assumption | apply State.zoneBad_kept | apply Kept.ite | apply Kept.foldl | apply Kept.foldlSnd) | split | (with_reducible refine Kept.ofEq (by assumption) ?_) | intro _

theorem State.writeCheck_kept {s0 : State} (s : State) (m : Master) (v : Word) (hs : Kept s0 s)  : Kept s0 (State.writeCheck s m v) := by
  refine hs.trans ?_
  clear hs
  unfold State.writeCheck
  try dsimp only
  iterate 40 all_goals try first | (with_reducible first | exact Kept.refl _ | assumption | apply State.wr_kept | apply State.writeCode_kept | apply Kept.ite) | split | (with_reducible refine Kept.ofEq (by assumption) ?_) | (with_reducible refine Kept.upd ?_ (by rfl)) | intro _

theorem execMaskCheck_kept (m : Master) (v : Word) (s : State) {u : State} (h : execMaskCheck m v s = .next u) : Kept s u := by
  unfold execMaskCheck at h
  cases h
  try dsimp only
  iterate 40 all_goals try first | (with_reducible first | exact Kept.refl _ | assumption | apply State.unfrozen_kept | apply State.accessBy_kept | apply State.writeCheck_kept) | intro _

theorem execMaskCheckDone_kept (s : State) {u : State} (h : execMaskCheckDone s = .next u) : Kept s u := by
  unfold execMaskCheckDone at h
  cases h
  try dsimp only
  iterate 40 all_goals try first | (with_reducible first | exact Kept.refl _ | assumption | apply State.wr_kept | apply State.unfrozen_kept | apply Kept.ite) | split | (with_reducible refine Kept.ofEq (by assumption) ?_) | (with_reducible refine Kept.upd ?_ (by rfl)) | intro _

theorem State.setNoz_kept {s0 : State} (s : State) (p n st : Nat) (hs : Kept s0 s)  : Kept s0 (State.setNoz s p n st) := by
  refine hs.trans ?_
  clear hs
  unfold State.setNoz
  try dsimp only
  iterate 40 all_goals try first | (with_reducible first | exact Kept.refl _ | assumption | apply State.wr_kept | apply Kept.ite) | split | (with_reducible refine Kept.ofEq (by assumption) ?_)

theorem execGrfNset_kept (m : Master) (v : Word) (s : State) {u : State} (h : execGrfNset m v s = .next u) : Kept s u := by
  unfold execGrfNset at h
  cases h
  try dsimp only
  iterate 40 all_goals try first | (with_reducible first | exact Kept.refl _ | assumption | apply State.unfrozen_kept | apply State.accessBy_kept | apply State.setNoz_kept) | intro _

theorem State.writeSub_kept {s0 : State} (s : State) (m : Master) (e : Nat) (v : Word) (hs : Kept s0 s)  : Kept s0 (State.writeSub s m e v) := by
  refine hs.trans ?_
  clear hs
  unfold State.writeSub
  try dsimp only
  iterate 40 all_goals try first | (with_reducible first | exact Kept.refl _ | assumption | apply State.wr_kept | apply State.writeCode_kept | apply Kept.ite) | split | (with_reducible refine Kept.ofEq (by assumption) ?_)

theorem execSubstitutionEntryWrite_kept (m : Master) (e : Fin 8192) (v : Word) (s : State) {u : State} (h : execSubstitutionEntryWrite m e v s = .next u) : Kept s u := by
  unfold execSubstitutionEntryWrite at h
  cases h
  try dsimp only
  iterate 40 all_goals try first | (with_reducible first | exact Kept.refl _ | assumption | apply State.unfrozen_kept | apply State.accessBy_kept | apply State.writeSub_kept) | intro _

theorem State.readWords_kept {s0 : State} (s : State) (ws : List Nat) (hs : Kept s0 s)  : Kept s0 (State.readWords s ws).2 := by
  refine hs.trans ?_
  clear hs
  unfold State.readWords
  try dsimp only
  iterate 40 all_goals try first | (with_reducible first | exact Kept.refl _ | assumption | apply State.readWord_kept | apply Kept.foldl | apply Kept.foldlSnd) | intro _

theorem State.graftLevels_kept {s0 : State} (s : State) (c : Nat) (x : Product) (nz : List (Nat × Nat × Nat × Nat)) (g : Group) (m : Nat) (ps : List Pull) (hs : Kept s0 s)  : Kept s0 (State.graftLevels s c x nz g m ps).2 := by
  refine hs.trans ?_
  clear hs
  unfold State.graftLevels
  try dsimp only
  iterate 40 all_goals try first | (with_reducible first | exact Kept.refl _ | assumption | apply State.wr_kept | apply Kept.ite | apply Kept.foldl | apply Kept.foldlSnd) | split | (with_reducible refine Kept.ofEq (by assumption) ?_) | intro _

theorem State.composeRequest_kept {s0 : State} (s : State) (k : LineKey) (x : Product) (g : Group) (hs : Kept s0 s)  : Kept s0 (State.composeRequest s k x g).2.2 := by
  refine hs.trans ?_
  clear hs
  unfold State.composeRequest
  try dsimp only
  iterate 40 all_goals try first | (with_reducible first | exact Kept.refl _ | assumption | apply State.bumpSat_kept | apply State.readWords_kept | apply State.graftLevels_kept | apply Kept.ite) | split | (with_reducible refine Kept.ofEq (by assumption) ?_) | (with_reducible refine Kept.upd ?_ (by rfl)) | intro _

theorem State.writeEntry_kept {s0 : State} (s : State) (p : Nat) (k : LineKey) (e : Entry) (hs : Kept s0 s)  : Kept s0 (State.writeEntry s p k e) := by
  refine hs.trans ?_
  clear hs
  unfold State.writeEntry
  try dsimp only
  iterate 40 all_goals try first | (with_reducible first | exact Kept.refl _ | assumption | apply State.wr_kept | apply State.setPort_kept | apply State.purgeVoids_kept | apply Kept.ite) | split | (with_reducible refine Kept.ofEq (by assumption) ?_) | (with_reducible refine Kept.upd ?_ (by rfl)) | intro _

theorem State.deliverEntry_kept {s0 : State} (s : State) (p : Nat) (k : LineKey) (e : Entry) (hs : Kept s0 s)  : Kept s0 (State.deliverEntry s p k e) := by
  refine hs.trans ?_
  clear hs
  unfold State.deliverEntry
  try dsimp only
  iterate 40 all_goals try first | (with_reducible first | exact Kept.refl _ | assumption | apply State.writeEntry_kept | apply Kept.ite) | split | (with_reducible refine Kept.ofEq (by assumption) ?_) | (with_reducible refine Kept.upd ?_ (by rfl)) | intro _

theorem State.countFifoWait_kept {s0 : State} (s : State) (ports : List Nat) (k : LineKey) (hs : Kept s0 s)  : Kept s0 (State.countFifoWait s ports k) := by
  refine hs.trans ?_
  clear hs
  unfold State.countFifoWait
  try dsimp only
  iterate 40 all_goals try first | (with_reducible first | exact Kept.refl _ | assumption | apply State.bumpSat_kept | apply Kept.ite) | split | (with_reducible refine Kept.ofEq (by assumption) ?_) | intro _

theorem execCompose_kept (s : State) {u : State} (h : execCompose s = .next u) : Kept s u := by
  unfold execCompose at h
  cases h
  try dsimp only
  iterate 40 all_goals try first | (with_reducible first | exact Kept.refl _ | assumption | apply State.unfrozen_kept | apply State.setProd_kept | apply State.abortProd_kept | apply State.endProds_kept | apply State.composeRequest_kept | apply State.deliverEntry_kept | apply State.countFifoWait_kept | apply Kept.ite | apply Kept.foldl | apply Kept.foldlSnd) | split | (with_reducible refine Kept.ofEq (by assumption) ?_) | (with_reducible refine Kept.upd ?_ (by rfl)) | intro _

theorem execLineFifoEntry_kept (p : Fin 16) (s : State) {u : State} (h : execLineFifoEntry p s = .next u) : Kept s u := by
  unfold execLineFifoEntry at h
  cases h
  try dsimp only
  iterate 40 all_goals try first | (with_reducible first | exact Kept.refl _ | assumption | apply State.unfrozen_kept | apply State.endProds_kept | apply State.writeEntry_kept | apply Kept.ite) | split | (with_reducible refine Kept.ofEq (by assumption) ?_) | (with_reducible refine Kept.upd ?_ (by rfl)) | intro _

theorem State.onBar_kept {s0 : State} (s : State) (f : BarSt → BarSt) (hs : Kept s0 s)  : Kept s0 (State.onBar s f) := by
  refine hs.trans ?_
  clear hs
  unfold State.onBar
  try dsimp only
  iterate 40 all_goals try first | with_reducible first | exact Kept.refl _ | assumption | (refine Kept.upd ?_ (by rfl))

theorem State.addRun_kept {s0 : State} (s : State) (c : Nat) (r : DmaRun) (hs : Kept s0 s)  : Kept s0 (State.addRun s c r) := by
  refine hs.trans ?_
  clear hs
  unfold State.addRun
  try dsimp only
  iterate 40 all_goals try first | (with_reducible first | exact Kept.refl _ | assumption | apply State.setChan32_kept | apply State.onBar_kept | (refine Kept.upd ?_ (by rfl))) | intro _

theorem State.setRun_kept {s0 : State} (s : State) (c : Nat) (r : DmaRun) (hs : Kept s0 s)  : Kept s0 (State.setRun s c r) := by
  refine hs.trans ?_
  clear hs
  unfold State.setRun
  try dsimp only
  iterate 40 all_goals try first | (with_reducible first | exact Kept.refl _ | assumption | apply State.setChan32_kept | apply Kept.ite) | split | (with_reducible refine Kept.ofEq (by assumption) ?_) | (with_reducible refine Kept.upd ?_ (by rfl)) | intro _

theorem State.leaveChain_kept {s0 : State} (s : State) (c : Nat) (hs : Kept s0 s)  : Kept s0 (State.leaveChain s c) := by
  refine hs.trans ?_
  clear hs
  unfold State.leaveChain
  try dsimp only
  iterate 40 all_goals try first | (with_reducible first | exact Kept.refl _ | assumption | apply State.settle_kept | apply State.setChan32_kept) | split | (with_reducible refine Kept.ofEq (by assumption) ?_) | (with_reducible refine Kept.upd ?_ (by rfl))

theorem State.completeRun_kept {s0 : State} (s : State) (c : Nat) (r : DmaRun) (o : Nat × Nat) (hs : Kept s0 s)  : Kept s0 (State.completeRun s c r o) := by
  refine hs.trans ?_
  clear hs
  unfold State.completeRun
  try dsimp only
  iterate 40 all_goals try first | (with_reducible first | exact Kept.refl _ | assumption | apply State.bump_kept | apply State.complete_kept | apply State.completeDesc_kept | apply State.onBar_kept | apply State.leaveChain_kept | apply Kept.ite) | split | (with_reducible refine Kept.ofEq (by assumption) ?_) | (with_reducible refine Kept.upd ?_ (by rfl)) | intro _

theorem State.flushRuns_kept {s0 : State} (c : Nat) (l : List DmaRun) (s : State) (hs : Kept s0 s) :
    Kept s0 (State.flushRuns c l s) := by
  induction l generalizing s with
  | nil => exact State.setChan32_kept _ _ _ hs
  | cons r t ih =>
    unfold State.flushRuns
    split
    · exact State.setChan32_kept _ _ _ hs
    · exact ih _ (State.completeRun_kept _ _ _ _ hs)


theorem State.settleChan_kept {s0 : State} (s : State) (c : Nat) (hs : Kept s0 s)  : Kept s0 (State.settleChan s c) := by
  refine hs.trans ?_
  clear hs
  unfold State.settleChan
  try dsimp only
  iterate 40 all_goals try first | with_reducible first | exact Kept.refl _ | assumption | apply State.flushRuns_kept

theorem State.askChain_kept {s0 : State} (s : State) (c : Nat) (hs : Kept s0 s)  : Kept s0 (State.askChain s c) := by
  refine hs.trans ?_
  clear hs
  unfold State.askChain
  try dsimp only
  iterate 40 all_goals try first | (with_reducible first | exact Kept.refl _ | assumption | apply State.emit_kept | apply State.setChan32_kept | apply State.fetched_kept | apply State.onBar_kept | apply Kept.ite) | split | (with_reducible refine Kept.ofEq (by assumption) ?_) | (with_reducible refine Kept.upd ?_ (by rfl)) | intro _

theorem State.askFlush_kept {s0 : State} (s : State) (c : Nat) (r : DmaRun) (hs : Kept s0 s)  : Kept s0 (State.askFlush s c r) := by
  refine hs.trans ?_
  clear hs
  unfold State.askFlush
  try dsimp only
  iterate 40 all_goals try first | (with_reducible first | exact Kept.refl _ | assumption | apply State.wr_kept | apply State.emit_kept | apply State.onBar_kept | apply State.setRun_kept | apply Kept.ite) | split | (with_reducible refine Kept.ofEq (by assumption) ?_) | (with_reducible refine Kept.upd ?_ (by rfl)) | intro _

theorem State.serveBus_kept {s0 : State} (s : State) (hs : Kept s0 s)  : Kept s0 (State.serveBus s) := by
  refine hs.trans ?_
  clear hs
  unfold State.serveBus
  try dsimp only
  iterate 40 all_goals try first | (with_reducible first | exact Kept.refl _ | assumption | apply State.askChain_kept | apply State.askFlush_kept | apply Kept.ite | apply Kept.foldl | apply Kept.foldlSnd) | split | (with_reducible refine Kept.ofEq (by assumption) ?_) | intro _

theorem State.takeDma_kept {s0 : State} (s : State) (c : Nat) (d : Desc) (chained : Bool) (hs : Kept s0 s)  : Kept s0 (State.takeDma s c d chained) := by
  refine hs.trans ?_
  clear hs
  unfold State.takeDma
  try dsimp only
  iterate 40 all_goals try first | (with_reducible first | exact Kept.refl _ | assumption | apply State.wr_kept | apply State.setRing_kept | apply State.setChan32_kept | apply State.fetched_kept | apply State.popDesc_kept | apply Kept.ite) | split | (with_reducible refine Kept.ofEq (by assumption) ?_) | (with_reducible refine Kept.upd ?_ (by rfl)) | intro _

theorem State.withDma_kept {s0 : State} (s : State) (c : Nat) (ok : Nat → Bool) (f : State → Desc → Bool → Bool → State) (hs : Kept s0 s) (hf : ∀ x0 x1 x2 x3, Kept x0 (f x0 x1 x2 x3)) : Kept s0 (State.withDma s c ok f) := by
  refine hs.trans ?_
  clear hs
  have hf' : ∀ s0 x0 x1 x2 x3, Kept s0 x0 → Kept s0 (f x0 x1 x2 x3) := fun _ x0 x1 x2 x3 k => k.trans (hf x0 x1 x2 x3)
  unfold State.withDma
  try dsimp only
  iterate 40 all_goals try first | (with_reducible first | exact Kept.refl _ | assumption | apply State.addRun_kept | apply State.settleChan_kept | apply State.serveBus_kept | apply State.takeDma_kept | apply hf' | apply Kept.ite) | split | (with_reducible refine Kept.ofEq (by assumption) ?_)

theorem State.takeMove_kept {s0 : State} (s : State) (c : Nat) (d : Desc) (chained bad : Bool) (hs : Kept s0 s)  : Kept s0 (State.takeMove s c d chained bad) := by
  refine hs.trans ?_
  clear hs
  unfold State.takeMove
  try dsimp only
  iterate 40 all_goals try first | (with_reducible first | exact Kept.refl _ | assumption | apply State.addRun_kept | apply Kept.ite) | split | (with_reducible refine Kept.ofEq (by assumption) ?_)

theorem execCopy_kept (c : Fin 32) (s : State) {u : State} (h : execCopy c s = .next u) : Kept s u := by
  unfold execCopy at h
  cases h
  try dsimp only
  iterate 40 all_goals try first | (with_reducible first | exact Kept.refl _ | assumption | apply State.unfrozen_kept | apply State.withDma_kept | apply State.takeMove_kept) | intro _

theorem execFill_kept (c : Fin 32) (s : State) {u : State} (h : execFill c s = .next u) : Kept s u := by
  unfold execFill at h
  cases h
  try dsimp only
  iterate 40 all_goals try first | (with_reducible first | exact Kept.refl _ | assumption | apply State.unfrozen_kept | apply State.withDma_kept | apply State.takeMove_kept) | intro _

theorem State.cutChain_kept {s0 : State} (s : State) (c : Nat) (hs : Kept s0 s)  : Kept s0 (State.cutChain s c) := by
  refine hs.trans ?_
  clear hs
  unfold State.cutChain
  try dsimp only
  iterate 40 all_goals try first | (with_reducible first | exact Kept.refl _ | assumption | apply State.setChan32_kept | apply State.fetched_kept | (refine Kept.upd ?_ (by rfl))) | intro _

theorem State.dropChain_kept {s0 : State} (s : State) (c : Nat) (link : Desc) (status : Nat) (hs : Kept s0 s)  : Kept s0 (State.dropChain s c link status) := by
  refine hs.trans ?_
  clear hs
  unfold State.dropChain
  try dsimp only
  iterate 40 all_goals try first | with_reducible first | exact Kept.refl _ | assumption | apply State.addRun_kept | apply State.cutChain_kept

theorem State.takeLink_kept {s0 : State} (s : State) (c : Nat) (d : Desc) (chained : Bool) (hs : Kept s0 s)  : Kept s0 (State.takeLink s c d chained) := by
  refine hs.trans ?_
  clear hs
  unfold State.takeLink
  try dsimp only
  iterate 40 all_goals try first | (with_reducible first | exact Kept.refl _ | assumption | apply State.wr_kept | apply State.bump_kept | apply State.setChan32_kept | apply State.addRun_kept | apply State.cutChain_kept | apply State.dropChain_kept | apply Kept.ite) | split | (with_reducible refine Kept.ofEq (by assumption) ?_) | (with_reducible refine Kept.upd ?_ (by rfl)) | intro _

theorem execLink_kept (c : Fin 32) (s : State) {u : State} (h : execLink c s = .next u) : Kept s u := by
  unfold execLink at h
  cases h
  try dsimp only
  iterate 40 all_goals try first | (with_reducible first | exact Kept.refl _ | assumption | apply State.unfrozen_kept | apply State.withDma_kept | apply State.takeLink_kept) | intro _

theorem State.takeNop_kept {s0 : State} (s : State) (c : Nat) (d : Desc) (chained : Bool) (hs : Kept s0 s)  : Kept s0 (State.takeNop s c d chained) := by
  refine hs.trans ?_
  clear hs
  unfold State.takeNop
  try dsimp only
  iterate 40 all_goals try first | (with_reducible first | exact Kept.refl _ | assumption | apply State.addRun_kept | apply Kept.ite) | split | (with_reducible refine Kept.ofEq (by assumption) ?_)

theorem execNop_kept (k : Fin 49) (s : State) {u : State} (h : execNop k s = .next u) : Kept s u := by
  unfold execNop at h
  cases h
  try dsimp only
  iterate 40 all_goals try first | (with_reducible first | exact Kept.refl _ | assumption | apply State.unfrozen_kept | apply State.completeAny_kept | apply State.popDesc_kept | apply State.withDma_kept | apply State.takeNop_kept | apply Kept.ite) | split | (with_reducible refine Kept.ofEq (by assumption) ?_) | intro _

theorem State.haltBarrow_kept {s0 : State} (s : State) (n cause : Nat) (dev : Bool) (addr : Nat) (hs : Kept s0 s)  : Kept s0 (State.haltBarrow s n cause dev addr) := by
  refine hs.trans ?_
  clear hs
  unfold State.haltBarrow
  try dsimp only
  iterate 40 all_goals try first | (with_reducible first | exact Kept.refl _ | assumption | apply State.wr_kept | apply State.wrBit_kept | apply State.bumpSat_kept | apply State.wr64_kept | apply State.report_kept | apply State.event_kept | apply Kept.ite) | split | (with_reducible refine Kept.ofEq (by assumption) ?_)

theorem State.dropRead_kept {s0 : State} (s : State) (k : Nat) (hs : Kept s0 s)  : Kept s0 (State.dropRead s k) := by
  refine hs.trans ?_
  clear hs
  unfold State.dropRead
  try dsimp only
  iterate 40 all_goals try first | (with_reducible first | exact Kept.refl _ | assumption | apply State.onBar_kept | (refine Kept.upd ?_ (by rfl))) | intro _

theorem State.failRead_kept {s0 : State} (s : State) (k cause : Nat) (b : BarRead) (hs : Kept s0 s)  : Kept s0 (State.failRead s k cause b) := by
  refine hs.trans ?_
  clear hs
  unfold State.failRead
  try dsimp only
  iterate 40 all_goals try first | with_reducible first | exact Kept.refl _ | assumption | apply State.haltBarrow_kept | apply State.dropRead_kept

theorem State.failRuns_kept {s0 : State} (s : State) (hs : Kept s0 s)  : Kept s0 (State.failRuns s) := by
  refine hs.trans ?_
  clear hs
  unfold State.failRuns
  try dsimp only
  iterate 40 all_goals try first | (with_reducible first | exact Kept.refl _ | assumption | apply State.setChan32_kept | apply State.settleChan_kept | apply Kept.ite | apply Kept.foldl | apply Kept.foldlSnd) | split | (with_reducible refine Kept.ofEq (by assumption) ?_) | (with_reducible refine Kept.upd ?_ (by rfl)) | intro _

theorem State.restartBarrow_kept {s0 : State} (s : State) (hs : Kept s0 s)  : Kept s0 (State.restartBarrow s) := by
  refine hs.trans ?_
  clear hs
  unfold State.restartBarrow
  try dsimp only
  iterate 40 all_goals try first | (with_reducible first | exact Kept.refl _ | assumption | apply State.wr_kept | apply State.refetchBlocks_kept | apply State.serveBus_kept) | intro _

theorem execHaltedEntered_kept (s : State) {u : State} (h : execHaltedEntered s = .next u) : Kept s u := by
  unfold execHaltedEntered at h
  cases h
  try dsimp only
  iterate 40 all_goals try first | (with_reducible first | exact Kept.refl _ | assumption | apply State.wr_kept | apply State.unfrozen_kept | apply State.failRuns_kept | apply State.restartBarrow_kept | apply Kept.ite) | split | (with_reducible refine Kept.ofEq (by assumption) ?_) | intro _

theorem State.dmaRestart_kept {s0 : State} (s : State) (hs : Kept s0 s)  : Kept s0 (State.dmaRestart s) := by
  refine hs.trans ?_
  clear hs
  unfold State.dmaRestart
  try dsimp only
  iterate 40 all_goals try first | (with_reducible first | exact Kept.refl _ | assumption | apply State.wr_kept | apply State.restartBarrow_kept) | split | (with_reducible refine Kept.ofEq (by assumption) ?_)

theorem execDmaRestart_kept (m : Master) (v : Word) (s : State) {u : State} (h : execDmaRestart m v s = .next u) : Kept s u := by
  unfold execDmaRestart at h
  cases h
  try dsimp only
  iterate 40 all_goals try first | (with_reducible first | exact Kept.refl _ | assumption | apply State.unfrozen_kept | apply State.accessBy_kept | apply State.dmaRestart_kept | apply Kept.ite) | split | (with_reducible refine Kept.ofEq (by assumption) ?_) | intro _

theorem State.mapJobs_kept {s0 : State} (s : State) (c : Nat) (p : Job → Bool) (f : Job → Job) (hs : Kept s0 s)  : Kept s0 (State.mapJobs s c p f) := by
  refine hs.trans ?_
  clear hs
  unfold State.mapJobs
  try dsimp only
  iterate 40 all_goals try first | (with_reducible first | exact Kept.refl _ | assumption | apply State.setCtx_kept | apply Kept.ite) | split | (with_reducible refine Kept.ofEq (by assumption) ?_) | (with_reducible refine Kept.upd ?_ (by rfl)) | intro _

theorem State.onFetchId_kept {s0 : State} (s : State) (id : Nat) (f : Fetch → Fetch) (hs : Kept s0 s)  : Kept s0 (State.onFetchId s id f) := by
  refine hs.trans ?_
  clear hs
  unfold State.onFetchId
  try dsimp only
  iterate 40 all_goals try first | (with_reducible first | exact Kept.refl _ | assumption | apply State.mapJobs_kept | apply Kept.foldl | apply Kept.foldlSnd) | intro _

theorem State.issuePatchRead_kept {s0 : State} (s : State) (x : Nat × Job × Nat × Nat × Nat) (hs : Kept s0 s)  : Kept s0 (State.issuePatchRead s x) := by
  refine hs.trans ?_
  clear hs
  unfold State.issuePatchRead
  try dsimp only
  iterate 40 all_goals try first | (with_reducible first | exact Kept.refl _ | assumption | apply State.emit_kept | apply State.onBar_kept | apply State.mapJobs_kept | apply Kept.ite) | split | (with_reducible refine Kept.ofEq (by assumption) ?_) | (with_reducible refine Kept.upd ?_ (by rfl)) | intro _

theorem State.issuePatchWrite_kept {s0 : State} (s : State) (x : Nat × Job × Nat × List Byte) (hs : Kept s0 s)  : Kept s0 (State.issuePatchWrite s x) := by
  refine hs.trans ?_
  clear hs
  unfold State.issuePatchWrite
  try dsimp only
  iterate 40 all_goals try first | (with_reducible first | exact Kept.refl _ | assumption | apply State.wr_kept | apply State.onBar_kept | apply State.onFetchId_kept | (refine Kept.upd ?_ (by rfl))) | intro _

theorem State.settleFetch_kept {s0 : State} (s : State) (id : Nat) (hs : Kept s0 s)  : Kept s0 (State.settleFetch s id) := by
  refine hs.trans ?_
  clear hs
  unfold State.settleFetch
  try dsimp only
  iterate 40 all_goals try first | (with_reducible first | exact Kept.refl _ | assumption | apply State.wr_kept | apply State.mapJobs_kept | apply Kept.ite | apply Kept.foldl | apply Kept.foldlSnd) | split | (with_reducible refine Kept.ofEq (by assumption) ?_) | (with_reducible refine Kept.upd ?_ (by rfl)) | intro _

theorem State.offReport_kept {s0 : State} (s : State) (a n : Nat) (hs : Kept s0 s)  : Kept s0 (State.offReport s a n) := by
  refine hs.trans ?_
  clear hs
  unfold State.offReport
  try dsimp only
  iterate 40 all_goals try first | (with_reducible first | exact Kept.refl _ | assumption | apply State.reportInj_kept | apply Kept.ite) | split | (with_reducible refine Kept.ofEq (by assumption) ?_) | intro _

theorem State.stopRun_kept {s0 : State} (s : State) (c : Nat) (r : DmaRun) (hs : Kept s0 s)  : Kept s0 (State.stopRun s c r) := by
  refine hs.trans ?_
  clear hs
  unfold State.stopRun
  try dsimp only
  iterate 40 all_goals try first | with_reducible first | exact Kept.refl _ | assumption | apply State.setRun_kept | apply State.settleChan_kept | (refine Kept.upd ?_ (by rfl))

theorem State.issueRead_kept {s0 : State} (s : State) (c : Nat) (hs : Kept s0 s)  : Kept s0 (State.issueRead s c) := by
  refine hs.trans ?_
  clear hs
  unfold State.issueRead
  try dsimp only
  iterate 40 all_goals try first | (with_reducible first | exact Kept.refl _ | assumption | apply State.emit_kept | apply State.onBar_kept | apply State.setRun_kept | apply State.stopRun_kept | apply Kept.ite) | split | (with_reducible refine Kept.ofEq (by assumption) ?_) | (with_reducible refine Kept.upd ?_ (by rfl)) | intro _

theorem State.countBytes_kept {s0 : State} (s : State) (c n : Nat) (hs : Kept s0 s)  : Kept s0 (State.countBytes s c n) := by
  refine hs.trans ?_
  clear hs
  unfold State.countBytes
  try dsimp only
  iterate 40 all_goals try first | with_reducible first | exact Kept.refl _ | assumption | apply State.wr64_kept

theorem State.issueWrite_kept {s0 : State} (s : State) (c : Nat) (hs : Kept s0 s)  : Kept s0 (State.issueWrite s c) := by
  refine hs.trans ?_
  clear hs
  unfold State.issueWrite
  try dsimp only
  iterate 40 all_goals try first | (with_reducible first | exact Kept.refl _ | assumption | apply State.wr_kept | apply State.emit_kept | apply State.onBar_kept | apply State.setRun_kept | apply State.stopRun_kept | apply State.countBytes_kept | apply Kept.ite) | split | (with_reducible refine Kept.ofEq (by assumption) ?_) | (with_reducible refine Kept.upd ?_ (by rfl)) | intro _

theorem State.noteBurst_kept {s0 : State} (s : State) (k : Nat) (hs : Kept s0 s)  : Kept s0 (State.noteBurst s k) := by
  refine hs.trans ?_
  clear hs
  unfold State.noteBurst
  try dsimp only
  iterate 40 all_goals try first | (with_reducible first | exact Kept.refl _ | assumption | apply State.onBar_kept | (refine Kept.upd ?_ (by rfl))) | intro _

theorem State.grant_kept {s : State} {write : Bool} {can : List Nat} {c : Nat} {t : State} (h : s.grant write can = some (c, t)) :
    Kept s t := by
  unfold State.grant at h
  split at h
  · cases h
  · obtain ⟨g, -, hg⟩ := Option.map_eq_some_iff.1 h
    cases hg
    exact State.onBar_kept _ _ (Kept.refl _)

theorem State.patchBurst_kept {s : State} {write : Bool} {t : State}
    (h : (if s.pathPaused 2 then none else if write then s.patchWrite.map s.issuePatchWrite else s.patchRead.map s.issuePatchRead) = some t) :
    Kept s t := by
  split at h
  · cases h
  · split at h
    · obtain ⟨x, -, rfl⟩ := Option.map_eq_some_iff.1 h
      exact State.issuePatchWrite_kept _ _ (Kept.refl _)
    · obtain ⟨x, -, rfl⟩ := Option.map_eq_some_iff.1 h
      exact State.issuePatchRead_kept _ _ (Kept.refl _)

theorem execBurstIssue_kept (write : Bool) (s : State) {u : State} (h : execBurstIssue write s = .next u) : Kept s u := by
  unfold execBurstIssue at h
  cases h
  refine State.unfrozen_kept _ _ (Kept.refl _) ?_
  intro s
  dsimp only
  split
  · exact Kept.refl _
  · split
    · exact State.noteBurst_kept _ _ (State.patchBurst_kept ‹_›)
    · repeat' split
      all_goals first
        | exact State.serveBus_kept _ (Kept.refl _)
        | (refine State.serveBus_kept _ (State.noteBurst_kept _ _ ?_)
           first
             | exact State.issueWrite_kept _ _ (State.grant_kept (by assumption))
             | exact State.issueRead_kept _ _ (State.grant_kept (by assumption)))

theorem State.landRead_kept {s0 : State} (s : State) (r : BarRead) (data : List Byte) (hs : Kept s0 s)  : Kept s0 (State.landRead s r data) := by
  refine hs.trans ?_
  clear hs
  unfold State.landRead
  try dsimp only
  iterate 40 all_goals try first | (with_reducible first | exact Kept.refl _ | assumption | apply State.setChan32_kept | apply State.fetched_kept | apply State.onBar_kept | apply State.setRun_kept | apply State.settleChan_kept | apply State.onFetchId_kept | apply Kept.ite) | split | (with_reducible refine Kept.ofEq (by assumption) ?_) | (with_reducible refine Kept.upd ?_ (by rfl)) | intro _

theorem State.readStore_kept {s0 : State} (s : State) (a n : Nat) (hs : Kept s0 s)  : Kept s0 (State.readStore s a n).2.2 := by
  refine hs.trans ?_
  clear hs
  unfold State.readStore
  try dsimp only
  iterate 40 all_goals try first | (with_reducible first | exact Kept.refl _ | assumption | apply State.readWords_kept | apply State.offReport_kept) | intro _

theorem State.landStore_kept {s0 : State} (s : State) (k : Nat) (b : BarRead) (hs : Kept s0 s)  : Kept s0 (State.landStore s k b) := by
  refine hs.trans ?_
  clear hs
  unfold State.landStore
  try dsimp only
  iterate 40 all_goals try first | (with_reducible first | exact Kept.refl _ | assumption | apply State.settleChan_kept | apply State.dropRead_kept | apply State.failRead_kept | apply State.stopRun_kept | apply State.landRead_kept | apply State.readStore_kept | apply Kept.ite) | split | (with_reducible refine Kept.ofEq (by assumption) ?_)

theorem execReadCompletion_kept (k : Nat) (r : ReadResult) (s : State) {u : State} (h : execReadCompletion k r s = .next u) : Kept s u := by
  unfold execReadCompletion at h
  cases h
  try dsimp only
  iterate 40 all_goals try first | (with_reducible first | exact Kept.refl _ | assumption | apply State.unfrozen_kept | apply State.injectAt_kept | apply State.serveBus_kept | apply State.dropRead_kept | apply State.failRead_kept | apply State.landRead_kept | apply State.landStore_kept | apply Kept.ite) | split | (with_reducible refine Kept.ofEq (by assumption) ?_) | intro _

theorem State.landWrite_kept {s0 : State} (s : State) (k : Nat) (w : BarWrite) (hs : Kept s0 s)  : Kept s0 (State.landWrite s k w) := by
  refine hs.trans ?_
  clear hs
  unfold State.landWrite
  try dsimp only
  iterate 40 all_goals try first | (with_reducible first | exact Kept.refl _ | assumption | apply State.writeDots_kept | apply State.onBar_kept | apply State.setRun_kept | apply State.settleFetch_kept | apply State.offReport_kept | apply State.countBytes_kept | apply Kept.ite) | split | (with_reducible refine Kept.ofEq (by assumption) ?_) | (with_reducible refine Kept.upd ?_ (by rfl)) | intro _

theorem execWriteResponse_kept (k : Nat) (s : State) {u : State} (h : execWriteResponse k s = .next u) : Kept s u := by
  unfold execWriteResponse at h
  cases h
  try dsimp only
  iterate 40 all_goals try first | (with_reducible first | exact Kept.refl _ | assumption | apply State.unfrozen_kept | apply State.settleChan_kept | apply State.serveBus_kept | apply State.landWrite_kept | apply Kept.ite) | split | (with_reducible refine Kept.ofEq (by assumption) ?_) | intro _

theorem execPatchResident_kept (n : Fin 255) (i : Fin 2) (k : Nat) (s : State) {u : State} (h : execPatchResident n i k s = .next u) : Kept s u := by
  unfold execPatchResident at h
  cases h
  try dsimp only
  iterate 40 all_goals try first | (with_reducible first | exact Kept.refl _ | assumption | apply State.wr_kept | apply State.unfrozen_kept | apply State.serveBus_kept | apply State.landWrite_kept | apply Kept.ite | apply Kept.foldl | apply Kept.foldlSnd) | split | (with_reducible refine Kept.ofEq (by assumption) ?_) | intro _

theorem State.landFlush_kept {s0 : State} (s : State) (b : BarRead) (hs : Kept s0 s)  : Kept s0 (State.landFlush s b) := by
  refine hs.trans ?_
  clear hs
  unfold State.landFlush
  try dsimp only
  iterate 40 all_goals try first | (with_reducible first | exact Kept.refl _ | assumption | apply State.onBar_kept | apply State.setRun_kept | apply State.settleChan_kept) | split | (with_reducible refine Kept.ofEq (by assumption) ?_) | (with_reducible refine Kept.upd ?_ (by rfl)) | intro _

theorem execFlushReadComplete_kept (k : Nat) (r : ReadResult) (s : State) {u : State} (h : execFlushReadComplete k r s = .next u) : Kept s u := by
  unfold execFlushReadComplete at h
  cases h
  try dsimp only
  iterate 40 all_goals try first | (with_reducible first | exact Kept.refl _ | assumption | apply State.unfrozen_kept | apply State.serveBus_kept | apply State.dropRead_kept | apply State.failRead_kept | apply State.landFlush_kept | apply Kept.ite) | split | (with_reducible refine Kept.ofEq (by assumption) ?_) | intro _

theorem execReadTimeout_kept (k : Nat) (s : State) {u : State} (h : execReadTimeout k s = .next u) : Kept s u := by
  unfold execReadTimeout at h
  cases h
  try dsimp only
  iterate 40 all_goals try first | (with_reducible first | exact Kept.refl _ | assumption | apply State.unfrozen_kept | apply State.failRead_kept | apply Kept.ite) | split | (with_reducible refine Kept.ofEq (by assumption) ?_) | intro _

theorem State.stopChan_kept {s0 : State} (s : State) (c : Nat) (hs : Kept s0 s)  : Kept s0 (State.stopChan s c) := by
  refine hs.trans ?_
  clear hs
  unfold State.stopChan
  try dsimp only
  iterate 40 all_goals try first | (with_reducible first | exact Kept.refl _ | assumption | apply State.setChan32_kept | apply State.settleChan_kept | apply State.dropChain_kept | apply Kept.ite) | split | (with_reducible refine Kept.ofEq (by assumption) ?_) | (with_reducible refine Kept.upd ?_ (by rfl)) | intro _

theorem State.writeChanCtl_kept {s0 : State} (s : State) (m : Master) (c : Nat) (v : Word) (hs : Kept s0 s)  : Kept s0 (State.writeChanCtl s m c v) := by
  refine hs.trans ?_
  clear hs
  unfold State.writeChanCtl
  try dsimp only
  iterate 40 all_goals try first | (with_reducible first | exact Kept.refl _ | assumption | apply State.writeCode_kept | apply State.stopChan_kept | apply Kept.ite) | split | (with_reducible refine Kept.ofEq (by assumption) ?_)

theorem execChannelStop_kept (m : Master) (c : Fin 32) (v : Word) (s : State) {u : State} (h : execChannelStop m c v s = .next u) : Kept s u := by
  unfold execChannelStop at h
  cases h
  try dsimp only
  iterate 40 all_goals try first | (with_reducible first | exact Kept.refl _ | assumption | apply State.unfrozen_kept | apply State.accessBy_kept | apply State.writeChanCtl_kept) | intro _

theorem State.linkHalt_kept {s0 : State} (s : State) (hs : Kept s0 s)  : Kept s0 (State.linkHalt s) := by
  refine hs.trans ?_
  clear hs
  unfold State.linkHalt
  try dsimp only
  iterate 40 all_goals try first | (with_reducible first | exact Kept.refl _ | assumption | apply State.draw_kept | apply State.haltBarrow_kept | apply Kept.ite) | split | (with_reducible refine Kept.ofEq (by assumption) ?_)

theorem State.resetBarrow_kept {s0 : State} (s : State) (hs : Kept s0 s)  : Kept s0 (State.resetBarrow s) := by
  refine hs.trans ?_
  clear hs
  unfold State.resetBarrow
  try dsimp only
  iterate 40 all_goals try first | (with_reducible first | exact Kept.refl _ | assumption | apply State.writeDots_kept | apply State.restartFetches_kept | apply State.onBar_kept | apply State.settleFetch_kept | apply Kept.ite | apply Kept.foldl | apply Kept.foldlSnd) | split | (with_reducible refine Kept.ofEq (by assumption) ?_) | (with_reducible refine Kept.upd ?_ (by rfl)) | intro _

theorem State.lowStrobes_kept {s0 : State} (s : State) (p : Nat) (hs : Kept s0 s)  : Kept s0 (State.lowStrobes s p) := by
  refine hs.trans ?_
  clear hs
  unfold State.lowStrobes
  try dsimp only
  iterate 40 all_goals try first | (with_reducible first | exact Kept.refl _ | assumption | apply State.emit_kept | apply State.onPort_kept | apply Kept.ite) | split | (with_reducible refine Kept.ofEq (by assumption) ?_) | (with_reducible refine Kept.upd ?_ (by rfl)) | intro _

theorem State.stopPulse_kept {s0 : State} (s : State) (p : Nat) (hs : Kept s0 s)  : Kept s0 (State.stopPulse s p) := by
  refine hs.trans ?_
  clear hs
  unfold State.stopPulse
  try dsimp only
  iterate 40 all_goals try first | (with_reducible first | exact Kept.refl _ | assumption | apply State.lowStrobes_kept | apply Kept.ite) | split | (with_reducible refine Kept.ofEq (by assumption) ?_)

theorem State.onNeve_kept {s0 : State} (s : State) (p : Nat) (f : Neve → Neve) (hs : Kept s0 s)  : Kept s0 (State.onNeve s p f) := by
  refine hs.trans ?_
  clear hs
  unfold State.onNeve
  try dsimp only
  iterate 40 all_goals try first | (with_reducible first | exact Kept.refl _ | assumption | apply State.onPort_kept | (refine Kept.upd ?_ (by rfl))) | intro _

theorem State.onSense_kept {s0 : State} (s : State) (p : Nat) (f : Sense → Sense) (hs : Kept s0 s)  : Kept s0 (State.onSense s p f) := by
  refine hs.trans ?_
  clear hs
  unfold State.onSense
  try dsimp only
  iterate 40 all_goals try first | (with_reducible first | exact Kept.refl _ | assumption | apply State.onPort_kept | (refine Kept.upd ?_ (by rfl))) | intro _

theorem State.inhibit_kept {s0 : State} (s : State) (p state : Nat) (hs : Kept s0 s)  : Kept s0 (State.inhibit s p state) := by
  refine hs.trans ?_
  clear hs
  unfold State.inhibit
  try dsimp only
  iterate 40 all_goals try first | with_reducible first | exact Kept.refl _ | assumption | apply State.emit_kept

theorem State.sendHreg_kept {s0 : State} (s : State) (p : Nat) (hs : Kept s0 s)  : Kept s0 (State.sendHreg s p) := by
  refine hs.trans ?_
  clear hs
  unfold State.sendHreg
  try dsimp only
  iterate 40 all_goals try first | (with_reducible first | exact Kept.refl _ | assumption | apply State.wr_kept | apply State.emit_kept | apply Kept.ite) | split | (with_reducible refine Kept.ofEq (by assumption) ?_)

theorem State.queueHreg_kept {s0 : State} (s : State) (p : Nat) (ops : List HregOp) (hs : Kept s0 s)  : Kept s0 (State.queueHreg s p ops) := by
  refine hs.trans ?_
  clear hs
  unfold State.queueHreg
  try dsimp only
  iterate 40 all_goals try first | (with_reducible first | exact Kept.refl _ | assumption | apply State.onNeve_kept | apply State.sendHreg_kept | apply Kept.ite) | split | (with_reducible refine Kept.ofEq (by assumption) ?_) | (with_reducible refine Kept.upd ?_ (by rfl)) | intro _

theorem State.dropHreg_kept {s0 : State} (s : State) (p : Nat) (owner : HregOwner) (hs : Kept s0 s)  : Kept s0 (State.dropHreg s p owner) := by
  refine hs.trans ?_
  clear hs
  unfold State.dropHreg
  try dsimp only
  iterate 40 all_goals try first | (with_reducible first | exact Kept.refl _ | assumption | apply State.onNeve_kept | (refine Kept.upd ?_ (by rfl))) | intro _

theorem State.linkHreg_kept {s0 : State} (s : State) (p : Nat) (hs : Kept s0 s)  : Kept s0 (State.linkHreg s p) := by
  refine hs.trans ?_
  clear hs
  unfold State.linkHreg
  try dsimp only
  iterate 40 all_goals try first | (with_reducible first | exact Kept.refl _ | assumption | apply State.wr_kept | apply State.onNeve_kept | apply Kept.ite) | split | (with_reducible refine Kept.ofEq (by assumption) ?_) | (with_reducible refine Kept.upd ?_ (by rfl)) | intro _

theorem State.startLoad_kept {s0 : State} (s : State) (p : Nat) (hs : Kept s0 s)  : Kept s0 (State.startLoad s p) := by
  refine hs.trans ?_
  clear hs
  unfold State.startLoad
  try dsimp only
  iterate 40 all_goals try first | (with_reducible first | exact Kept.refl _ | assumption | apply State.onNeve_kept | apply State.queueHreg_kept | apply State.dropHreg_kept | apply Kept.ite) | split | (with_reducible refine Kept.ofEq (by assumption) ?_) | (with_reducible refine Kept.upd ?_ (by rfl)) | intro _

theorem State.showRest_kept {s0 : State} (s : State) (p : Nat) (hs : Kept s0 s)  : Kept s0 (State.showRest s p) := by
  refine hs.trans ?_
  clear hs
  unfold State.showRest
  try dsimp only
  iterate 40 all_goals try first | (with_reducible first | exact Kept.refl _ | assumption | apply State.sendCodes_kept | apply Kept.ite) | split | (with_reducible refine Kept.ofEq (by assumption) ?_)

theorem State.applyRose_kept {s0 : State} (s : State) (p : Nat) (hs : Kept s0 s)  : Kept s0 (State.applyRose s p) := by
  refine hs.trans ?_
  clear hs
  unfold State.applyRose
  try dsimp only
  iterate 40 all_goals try first | (with_reducible first | exact Kept.refl _ | assumption | apply State.wr_kept | apply State.bump_kept | apply State.onPort_kept | apply State.startLoad_kept | apply State.showRest_kept | apply Kept.ite) | split | (with_reducible refine Kept.ofEq (by assumption) ?_) | (with_reducible refine Kept.upd ?_ (by rfl)) | intro _

theorem State.settleRose_kept {s0 : State} (s : State) (p : Nat) (hs : Kept s0 s)  : Kept s0 (State.settleRose s p) := by
  refine hs.trans ?_
  clear hs
  unfold State.settleRose
  try dsimp only
  iterate 40 all_goals try first | (with_reducible first | exact Kept.refl _ | assumption | apply State.applyRose_kept | apply Kept.ite) | split | (with_reducible refine Kept.ofEq (by assumption) ?_)

theorem State.updateGreq_kept {s0 : State} (s : State) (p : Nat) (hs : Kept s0 s)  : Kept s0 (State.updateGreq s p) := by
  refine hs.trans ?_
  clear hs
  unfold State.updateGreq
  try dsimp only
  iterate 40 all_goals try first | with_reducible first | exact Kept.refl _ | assumption | apply State.wr_kept

theorem State.haltWalk_kept {s0 : State} (s : State) (p : Nat) (hs : Kept s0 s)  : Kept s0 (State.haltWalk s p) := by
  refine hs.trans ?_
  clear hs
  unfold State.haltWalk
  try dsimp only
  iterate 40 all_goals try first | (with_reducible first | exact Kept.refl _ | assumption | apply Kept.ite) | split | (with_reducible refine Kept.ofEq (by assumption) ?_) | (with_reducible refine Kept.upd ?_ (by rfl)) | intro _

theorem State.cutSlot_kept {s0 : State} (s : State) (p : Nat) (hs : Kept s0 s)  : Kept s0 (State.cutSlot s p) := by
  refine hs.trans ?_
  clear hs
  unfold State.cutSlot
  try dsimp only
  iterate 40 all_goals try first | (with_reducible first | exact Kept.refl _ | assumption | apply State.bumpSat_kept | apply State.onSense_kept | apply Kept.ite) | split | (with_reducible refine Kept.ofEq (by assumption) ?_) | (with_reducible refine Kept.upd ?_ (by rfl)) | intro _

theorem State.makeSafe_kept {s0 : State} (s : State) (keep : Bool) (p : Nat) (hs : Kept s0 s)  : Kept s0 (State.makeSafe s keep p) := by
  refine hs.trans ?_
  clear hs
  unfold State.makeSafe
  try dsimp only
  iterate 40 all_goals try first | (with_reducible first | exact Kept.refl _ | assumption | apply State.setReg_kept | apply State.onPort_kept | apply State.rampWave_kept | apply State.lowStrobes_kept | apply State.onSense_kept | apply State.inhibit_kept | apply State.cutSlot_kept | apply Kept.ite) | split | (with_reducible refine Kept.ofEq (by assumption) ?_) | (with_reducible refine Kept.upd ?_ (by rfl)) | intro _

theorem State.leaveReady_kept {s0 : State} (old : State) (keep : Bool) (p : Nat) (s : State) (hs : Kept s0 s)  : Kept s0 (State.leaveReady old keep p s) := by
  refine hs.trans ?_
  clear hs
  unfold State.leaveReady
  try dsimp only
  iterate 40 all_goals try first | (with_reducible first | exact Kept.refl _ | assumption | apply State.dropAt_kept | apply State.abortCtx_kept | apply State.makeSafe_kept | apply Kept.foldl | apply Kept.foldlSnd) | intro _

theorem State.startEntry_kept {s0 : State} (s : State) (p : Nat) (hs : Kept s0 s)  : Kept s0 (State.startEntry s p) := by
  refine hs.trans ?_
  clear hs
  unfold State.startEntry
  try dsimp only
  iterate 40 all_goals try first | (with_reducible first | exact Kept.refl _ | assumption | apply State.onWave_kept | apply State.rampWave_kept | (refine Kept.upd ?_ (by rfl))) | intro _

theorem State.watchEntry_kept {s0 : State} (s : State) (p : Nat) (hs : Kept s0 s)  : Kept s0 (State.watchEntry s p) := by
  refine hs.trans ?_
  clear hs
  unfold State.watchEntry
  try dsimp only
  iterate 40 all_goals try first | (with_reducible first | exact Kept.refl _ | assumption | apply State.onWave_kept | apply State.rampWave_kept | apply State.startEntry_kept | apply Kept.ite) | split | (with_reducible refine Kept.ofEq (by assumption) ?_) | (with_reducible refine Kept.upd ?_ (by rfl)) | intro _

theorem State.watchPort_kept {s0 : State} (old : State) (keep : Bool) (s : State) (p : Nat) (hs : Kept s0 s)  : Kept s0 (State.watchPort old keep s p) := by
  refine hs.trans ?_
  clear hs
  unfold State.watchPort
  try dsimp only
  iterate 40 all_goals try first | (with_reducible first | exact Kept.refl _ | assumption | apply State.onPort_kept | apply State.rampWave_kept | apply State.settleRose_kept | apply State.cutSlot_kept | apply State.leaveReady_kept | apply State.watchEntry_kept | apply Kept.ite) | split | (with_reducible refine Kept.ofEq (by assumption) ?_) | (with_reducible refine Kept.upd ?_ (by rfl)) | intro _

theorem State.watchKeep_kept {s0 : State} (old : State) (keep : Bool) (s : State) (hs : Kept s0 s)  : Kept s0 (State.watchKeep old keep s) := by
  refine hs.trans ?_
  clear hs
  unfold State.watchKeep
  try dsimp only
  iterate 40 all_goals try first | (with_reducible first | exact Kept.refl _ | assumption | apply State.endAll_kept | apply State.watchPort_kept | apply Kept.foldl | apply Kept.foldlSnd) | intro _

theorem State.watch_kept {s0 : State} (old : State) (s : State) (hs : Kept s0 s)  : Kept s0 (State.watch old s) := by
  refine hs.trans ?_
  clear hs
  unfold State.watch
  try dsimp only
  iterate 40 all_goals try first | with_reducible first | exact Kept.refl _ | assumption | apply State.watchKeep_kept

theorem State.faultCtxs_kept {s0 : State} (s : State) (sc : Nat) (hs : Kept s0 s)  : Kept s0 (State.faultCtxs s sc) := by
  refine hs.trans ?_
  clear hs
  unfold State.faultCtxs
  try dsimp only
  iterate 40 all_goals try first | (with_reducible first | exact Kept.refl _ | assumption | apply State.enterFaulted_kept | apply Kept.foldl | apply Kept.foldlSnd) | intro _

theorem State.reportFiring_kept {s0 : State} (s : State) (src : Nat) (synd : Word) (level : Bool) (hs : Kept s0 s)  : Kept s0 (State.reportFiring s src synd level) := by
  refine hs.trans ?_
  clear hs
  unfold State.reportFiring
  try dsimp only
  iterate 40 all_goals try first | (with_reducible first | exact Kept.refl _ | assumption | apply State.report_kept | apply State.reportLevel_kept | apply State.watchKeep_kept | apply State.faultCtxs_kept | apply Kept.ite) | split | (with_reducible refine Kept.ofEq (by assumption) ?_)

theorem State.senseNext_kept {s0 : State} (s : State) (p mark : Nat) (hs : Kept s0 s)  : Kept s0 (State.senseNext s p mark) := by
  refine hs.trans ?_
  clear hs
  unfold State.senseNext
  try dsimp only
  iterate 40 all_goals try first | (with_reducible first | exact Kept.refl _ | assumption | apply State.onSense_kept | apply State.queueHreg_kept | apply Kept.ite) | split | (with_reducible refine Kept.ofEq (by assumption) ?_) | (with_reducible refine Kept.upd ?_ (by rfl)) | intro _

theorem State.countWait_kept {s0 : State} (s : State) (p : Nat) (hs : Kept s0 s)  : Kept s0 (State.countWait s p) := by
  refine hs.trans ?_
  clear hs
  unfold State.countWait
  try dsimp only
  iterate 40 all_goals try first | with_reducible first | exact Kept.refl _ | assumption | apply State.bumpSat_kept

theorem State.planSlot_kept {s0 : State} (s : State) (p ttk : Nat) (hs : Kept s0 s)  : Kept s0 (State.planSlot s p ttk) := by
  refine hs.trans ?_
  clear hs
  unfold State.planSlot
  try dsimp only
  iterate 40 all_goals try first | (with_reducible first | exact Kept.refl _ | assumption | apply State.onSense_kept | apply State.senseNext_kept | apply State.countWait_kept | apply Kept.ite) | split | (with_reducible refine Kept.ofEq (by assumption) ?_) | (with_reducible refine Kept.upd ?_ (by rfl)) | intro _

theorem State.slotAfter_kept {s0 : State} (s : State) (p : Nat) (x : PulseNow) (hs : Kept s0 s)  : Kept s0 (State.slotAfter s p x) := by
  refine hs.trans ?_
  clear hs
  unfold State.slotAfter
  try dsimp only
  iterate 40 all_goals try first | (with_reducible first | exact Kept.refl _ | assumption | apply State.bumpSat_kept | apply State.countWait_kept | apply State.planSlot_kept | apply Kept.ite) | split | (with_reducible refine Kept.ofEq (by assumption) ?_)

theorem State.slotCollision_kept {s0 : State} (s : State) (p fire : Nat) (hs : Kept s0 s)  : Kept s0 (State.slotCollision s p fire) := by
  refine hs.trans ?_
  clear hs
  unfold State.slotCollision
  try dsimp only
  iterate 40 all_goals try first | (with_reducible first | exact Kept.refl _ | assumption | apply State.bumpSat_kept | apply State.emit_kept | apply State.cutTickle_kept | apply State.onSense_kept | apply State.cutSlot_kept | apply Kept.ite) | split | (with_reducible refine Kept.ofEq (by assumption) ?_) | (with_reducible refine Kept.upd ?_ (by rfl)) | intro _

theorem State.expectEcho_kept {s0 : State} (s : State) (p t tag : Nat) (hs : Kept s0 s)  : Kept s0 (State.expectEcho s p t tag) := by
  refine hs.trans ?_
  clear hs
  unfold State.expectEcho
  try dsimp only
  iterate 40 all_goals try first | (with_reducible first | exact Kept.refl _ | assumption | apply State.onPort_kept | apply Kept.ite) | split | (with_reducible refine Kept.ofEq (by assumption) ?_) | (with_reducible refine Kept.upd ?_ (by rfl)) | intro _

theorem State.strobeBlock_kept {s0 : State} (s : State) (p tag t : Nat) (hs : Kept s0 s)  : Kept s0 (State.strobeBlock s p tag t) := by
  refine hs.trans ?_
  clear hs
  unfold State.strobeBlock
  try dsimp only
  iterate 40 all_goals try first | with_reducible first | exact Kept.refl _ | assumption | apply State.emit_kept

theorem State.driveTickle_kept {s0 : State} (s : State) (p mark ttk : Nat) (hs : Kept s0 s)  : Kept s0 (State.driveTickle s p mark ttk) := by
  refine hs.trans ?_
  clear hs
  unfold State.driveTickle
  try dsimp only
  iterate 40 all_goals try first | (with_reducible first | exact Kept.refl _ | assumption | apply State.wr_kept | apply State.emit_kept | apply State.startPlay_kept | apply State.onSense_kept | apply State.expectEcho_kept | apply State.strobeBlock_kept | apply Kept.ite) | split | (with_reducible refine Kept.ofEq (by assumption) ?_) | (with_reducible refine Kept.upd ?_ (by rfl)) | intro _

theorem execTickle_kept (p : Fin 16) (s : State) {u : State} (h : execTickle p s = .next u) : Kept s u := by
  unfold execTickle at h
  cases h
  try dsimp only
  iterate 40 all_goals try first | (with_reducible first | exact Kept.refl _ | assumption | apply State.unfrozen_kept | apply State.onSense_kept | apply State.countWait_kept | apply State.driveTickle_kept | apply Kept.ite) | split | (with_reducible refine Kept.ofEq (by assumption) ?_) | (with_reducible refine Kept.upd ?_ (by rfl)) | intro _

theorem execCaptureStart_kept (p : Fin 16) (s : State) {u : State} (h : execCaptureStart p s = .next u) : Kept s u := by
  unfold execCaptureStart at h
  cases h
  try dsimp only
  iterate 40 all_goals try first | (with_reducible first | exact Kept.refl _ | assumption | apply State.unfrozen_kept | apply State.draw_kept | apply State.playNow_kept | apply State.onSense_kept | apply Kept.ite) | split | (with_reducible refine Kept.ofEq (by assumption) ?_) | (with_reducible refine Kept.upd ?_ (by rfl)) | intro _

theorem execCaptureComplete_kept (p : Fin 16) (samples : List (BitVec 14)) (s : State) {u : State} (h : execCaptureComplete p samples s = .next u) : Kept s u := by
  unfold execCaptureComplete at h
  cases h
  try dsimp only
  iterate 40 all_goals try first | (with_reducible first | exact Kept.refl _ | assumption | apply State.wr_kept | apply State.unfrozen_kept | apply State.onSense_kept | apply Kept.ite | apply Kept.foldl | apply Kept.foldlSnd) | split | (with_reducible refine Kept.ofEq (by assumption) ?_) | (with_reducible refine Kept.upd ?_ (by rfl)) | intro _

theorem State.setSamples_kept {s0 : State} (s : State) (a : Nat) (l : List Int) (hs : Kept s0 s)  : Kept s0 (State.setSamples s a l) := by
  refine hs.trans ?_
  clear hs
  unfold State.setSamples
  try dsimp only
  iterate 40 all_goals try first | (with_reducible first | exact Kept.refl _ | assumption | apply State.setReg_kept | apply Kept.foldl | apply Kept.foldlSnd) | intro _

theorem State.setSuspect_kept {s0 : State} (s : State) (p : Nat) (n : Option Nat) (hs : Kept s0 s)  : Kept s0 (State.setSuspect s p n) := by
  refine hs.trans ?_
  clear hs
  unfold State.setSuspect
  try dsimp only
  iterate 40 all_goals try first | (with_reducible first | exact Kept.refl _ | assumption | apply State.wr_kept | apply State.onSense_kept) | split | (with_reducible refine Kept.ofEq (by assumption) ?_) | (with_reducible refine Kept.upd ?_ (by rfl)) | intro _

theorem State.confirm_kept {s0 : State} (s : State) (p n c score tb : Nat) (hs : Kept s0 s)  : Kept s0 (State.confirm s p n c score tb) := by
  refine hs.trans ?_
  clear hs
  unfold State.confirm
  try dsimp only
  iterate 40 all_goals try first | (with_reducible first | exact Kept.refl _ | assumption | apply State.wr_kept | apply State.event_kept | apply State.setNoz_kept | apply Kept.ite) | split | (with_reducible refine Kept.ofEq (by assumption) ?_)

theorem State.countResult_kept {s0 : State} (s : State) (p n score tb : Nat) (hs : Kept s0 s)  : Kept s0 (State.countResult s p n score tb) := by
  refine hs.trans ?_
  clear hs
  unfold State.countResult
  try dsimp only
  iterate 40 all_goals try first | (with_reducible first | exact Kept.refl _ | assumption | apply State.onSense_kept | apply State.setSuspect_kept | apply State.confirm_kept | apply Kept.ite) | split | (with_reducible refine Kept.ofEq (by assumption) ?_) | (with_reducible refine Kept.upd ?_ (by rfl)) | intro _

theorem State.onResult_kept {s0 : State} (s : State) (p n c score tb : Nat) (hs : Kept s0 s)  : Kept s0 (State.onResult s p n c score tb) := by
  refine hs.trans ?_
  clear hs
  unfold State.onResult
  try dsimp only
  iterate 40 all_goals try first | (with_reducible first | exact Kept.refl _ | assumption | apply State.bumpSat_kept | apply State.onSense_kept | apply State.setSuspect_kept | apply State.countResult_kept | apply Kept.ite) | split | (with_reducible refine Kept.ofEq (by assumption) ?_) | (with_reducible refine Kept.upd ?_ (by rfl)) | intro _

theorem execClassify_kept (p : Fin 16) (s : State) {u : State} (h : execClassify p s = .next u) : Kept s u := by
  unfold execClassify at h
  cases h
  try dsimp only
  iterate 40 all_goals try first | (with_reducible first | exact Kept.refl _ | assumption | apply State.bump_kept | apply State.unfrozen_kept | apply State.onSense_kept | apply State.setSamples_kept | apply State.onResult_kept) | split | (with_reducible refine Kept.ofEq (by assumption) ?_) | (with_reducible refine Kept.upd ?_ (by rfl)) | intro _

theorem execIdleSlot_kept (p : Fin 16) (s : State) {u : State} (h : execIdleSlot p s = .next u) : Kept s u := by
  unfold execIdleSlot at h
  cases h
  try dsimp only
  iterate 40 all_goals try first | (with_reducible first | exact Kept.refl _ | assumption | apply State.unfrozen_kept | apply State.draw_kept | apply State.onSense_kept | apply State.countWait_kept | apply State.planSlot_kept | apply Kept.ite) | split | (with_reducible refine Kept.ofEq (by assumption) ?_) | (with_reducible refine Kept.upd ?_ (by rfl)) | intro _

theorem State.endWalk_kept {s0 : State} (s : State) (w : Walk) (status : Nat) (hs : Kept s0 s)  : Kept s0 (State.endWalk s w status) := by
  refine hs.trans ?_
  clear hs
  unfold State.endWalk
  try dsimp only
  iterate 40 all_goals try first | with_reducible first | exact Kept.refl _ | assumption | apply State.wr_kept | apply State.endCommand_kept | (refine Kept.upd ?_ (by rfl))

theorem State.writeReferences_kept {s0 : State} (s : State) (w : Walk) (n : Nat) (hs : Kept s0 s)  : Kept s0 (State.writeReferences s w n).2 := by
  refine hs.trans ?_
  clear hs
  unfold State.writeReferences
  try dsimp only
  iterate 40 all_goals try first | (with_reducible first | exact Kept.refl _ | assumption | apply State.wr_kept | apply State.setSamples_kept | apply Kept.foldl | apply Kept.foldlSnd) | split | (with_reducible refine Kept.ofEq (by assumption) ?_) | (with_reducible refine Kept.upd ?_ (by rfl)) | intro _

theorem State.walkTickle_kept {s0 : State} (s : State) (w : Walk) (samples : List (BitVec 14)) (mark : Nat) (hs : Kept s0 s)  : Kept s0 (State.walkTickle s w samples mark) := by
  refine hs.trans ?_
  clear hs
  unfold State.walkTickle
  try dsimp only
  iterate 40 all_goals try first | (with_reducible first | exact Kept.refl _ | assumption | apply State.senseNext_kept | apply State.driveTickle_kept | apply State.endWalk_kept | apply State.writeReferences_kept | apply Kept.ite) | split | (with_reducible refine Kept.ofEq (by assumption) ?_) | (with_reducible refine Kept.upd ?_ (by rfl))

theorem execRefWalkTickle_kept (samples : List (BitVec 14)) (s : State) {u : State} (h : execRefWalkTickle samples s = .next u) : Kept s u := by
  unfold execRefWalkTickle at h
  cases h
  try dsimp only
  iterate 40 all_goals try first | (with_reducible first | exact Kept.refl _ | assumption | apply State.unfrozen_kept | apply State.senseNext_kept | apply State.endWalk_kept | apply State.walkTickle_kept | apply Kept.ite) | split | (with_reducible refine Kept.ofEq (by assumption) ?_) | intro _

theorem State.nvEnter_kept {s0 : State} (s : State) (p stage : Nat) (hs : Kept s0 s)  : Kept s0 (State.nvEnter s p stage) := by
  refine hs.trans ?_
  clear hs
  unfold State.nvEnter
  try dsimp only
  iterate 40 all_goals try first | (with_reducible first | exact Kept.refl _ | assumption | apply State.wr_kept | apply State.uncalibrate_kept | apply State.onNeve_kept | apply Kept.ite) | split | (with_reducible refine Kept.ofEq (by assumption) ?_) | (with_reducible refine Kept.upd ?_ (by rfl)) | intro _

theorem State.sendTrain_kept {s0 : State} (s : State) (p stage v vmin rates param1 : Nat) (hs : Kept s0 s)  : Kept s0 (State.sendTrain s p stage v vmin rates param1) := by
  refine hs.trans ?_
  clear hs
  unfold State.sendTrain
  try dsimp only
  iterate 40 all_goals try first | with_reducible first | exact Kept.refl _ | assumption | apply State.emit_kept

theorem State.startTraining_kept {s0 : State} (s : State) (p : Nat) (hs : Kept s0 s)  : Kept s0 (State.startTraining s p) := by
  refine hs.trans ?_
  clear hs
  unfold State.startTraining
  try dsimp only
  iterate 40 all_goals try first | (with_reducible first | exact Kept.refl _ | assumption | apply State.wr_kept | apply State.onNeve_kept | apply State.linkHreg_kept | apply State.nvEnter_kept | apply State.sendTrain_kept | apply Kept.ite) | split | (with_reducible refine Kept.ofEq (by assumption) ?_) | (with_reducible refine Kept.upd ?_ (by rfl)) | intro _

theorem State.startSeries_kept {s0 : State} (s : State) (p : Nat) (hs : Kept s0 s)  : Kept s0 (State.startSeries s p) := by
  refine hs.trans ?_
  clear hs
  unfold State.startSeries
  try dsimp only
  iterate 40 all_goals try first | (with_reducible first | exact Kept.refl _ | assumption | apply State.onNeve_kept | apply State.startTraining_kept | (refine Kept.upd ?_ (by rfl))) | intro _

theorem State.neveEvent_kept {s0 : State} (s : State) (p : Nat) (hs : Kept s0 s)  : Kept s0 (State.neveEvent s p) := by
  refine hs.trans ?_
  clear hs
  unfold State.neveEvent
  try dsimp only
  iterate 40 all_goals try first | with_reducible first | exact Kept.refl _ | assumption | apply State.event_kept

theorem State.linkFail_kept {s0 : State} (s : State) (p fail : Nat) (hs : Kept s0 s)  : Kept s0 (State.linkFail s p fail) := by
  refine hs.trans ?_
  clear hs
  unfold State.linkFail
  try dsimp only
  iterate 40 all_goals try first | (with_reducible first | exact Kept.refl _ | assumption | apply State.wr_kept | apply State.onNeve_kept | apply State.nvEnter_kept | apply State.neveEvent_kept | (refine Kept.upd ?_ (by rfl))) | intro _

theorem State.attemptFail_kept {s0 : State} (s : State) (p fail : Nat) (excl : Bool) (hs : Kept s0 s)  : Kept s0 (State.attemptFail s p fail excl) := by
  refine hs.trans ?_
  clear hs
  unfold State.attemptFail
  try dsimp only
  iterate 40 all_goals try first | (with_reducible first | exact Kept.refl _ | assumption | apply State.wr_kept | apply State.onNeve_kept | apply State.nvEnter_kept | apply Kept.ite) | split | (with_reducible refine Kept.ofEq (by assumption) ?_) | (with_reducible refine Kept.upd ?_ (by rfl)) | intro _

theorem State.agree_kept {s0 : State} (s : State) (p : Nat) (b : List Nat) (hs : Kept s0 s)  : Kept s0 (State.agree s p b) := by
  refine hs.trans ?_
  clear hs
  unfold State.agree
  try dsimp only
  iterate 40 all_goals try first | (with_reducible first | exact Kept.refl _ | assumption | apply State.wr_kept | apply State.nvEnter_kept | apply State.sendTrain_kept | apply State.linkFail_kept | apply Kept.ite) | split | (with_reducible refine Kept.ofEq (by assumption) ?_)

theorem State.startMeasure_kept {s0 : State} (s : State) (p : Nat) (hs : Kept s0 s)  : Kept s0 (State.startMeasure s p) := by
  refine hs.trans ?_
  clear hs
  unfold State.startMeasure
  try dsimp only
  iterate 40 all_goals try first | (with_reducible first | exact Kept.refl _ | assumption | apply State.onNeve_kept | apply State.nvEnter_kept | apply State.sendTrain_kept | apply Kept.foldl | apply Kept.foldlSnd | (refine Kept.upd ?_ (by rfl))) | intro _

theorem State.endMeasure_kept {s0 : State} (s : State) (p turn : Nat) (hs : Kept s0 s)  : Kept s0 (State.endMeasure s p turn) := by
  refine hs.trans ?_
  clear hs
  unfold State.endMeasure
  try dsimp only
  iterate 40 all_goals try first | (with_reducible first | exact Kept.refl _ | assumption | apply State.wr_kept | apply State.nvEnter_kept | apply State.sendTrain_kept | apply State.attemptFail_kept | apply Kept.ite) | split | (with_reducible refine Kept.ofEq (by assumption) ?_) | intro _

theorem State.linkUpPort_kept {s0 : State} (s : State) (p : Nat) (hs : Kept s0 s)  : Kept s0 (State.linkUpPort s p) := by
  refine hs.trans ?_
  clear hs
  unfold State.linkUpPort
  try dsimp only
  iterate 40 all_goals try first | (with_reducible first | exact Kept.refl _ | assumption | apply State.wr_kept | apply State.onNeve_kept | apply State.onSense_kept | apply State.queueHreg_kept | apply State.startLoad_kept | apply Kept.ite) | split | (with_reducible refine Kept.ofEq (by assumption) ?_) | (with_reducible refine Kept.upd ?_ (by rfl)) | intro _

theorem State.countTrain_kept {s0 : State} (s : State) (p : Nat) (b : List Nat) (hs : Kept s0 s)  : Kept s0 (State.countTrain s p b).2 := by
  refine hs.trans ?_
  clear hs
  unfold State.countTrain
  try dsimp only
  iterate 40 all_goals try first | (with_reducible first | exact Kept.refl _ | assumption | apply State.onNeve_kept | apply Kept.ite) | split | (with_reducible refine Kept.ofEq (by assumption) ?_) | (with_reducible refine Kept.upd ?_ (by rfl)) | intro _

theorem State.receiveTrain_kept {s0 : State} (s : State) (p : Nat) (b : List Nat) (rtt : Nat) (hs : Kept s0 s)  : Kept s0 (State.receiveTrain s p b rtt) := by
  refine hs.trans ?_
  clear hs
  unfold State.receiveTrain
  try dsimp only
  iterate 40 all_goals try first | (with_reducible first | exact Kept.refl _ | assumption | apply State.wr_kept | apply State.onNeve_kept | apply State.agree_kept | apply State.startMeasure_kept | apply State.endMeasure_kept | apply State.linkUpPort_kept | apply State.countTrain_kept | apply Kept.ite) | split | (with_reducible refine Kept.ofEq (by assumption) ?_) | (with_reducible refine Kept.upd ?_ (by rfl)) | intro _

theorem execTrain_kept (p : Fin 16) (b : List Byte) (rtt : Nat) (s : State) {u : State} (h : execTrain p b rtt s = .next u) : Kept s u := by
  unfold execTrain at h
  cases h
  try dsimp only
  iterate 40 all_goals try first | (with_reducible first | exact Kept.refl _ | assumption | apply State.unfrozen_kept | apply State.watch_kept | apply State.receiveTrain_kept) | intro _

theorem State.trainTimeout_kept {s0 : State} (s : State) (p : Nat) (hs : Kept s0 s)  : Kept s0 (State.trainTimeout s p) := by
  refine hs.trans ?_
  clear hs
  unfold State.trainTimeout
  try dsimp only
  iterate 40 all_goals try first | (with_reducible first | exact Kept.refl _ | assumption | apply State.onNeve_kept | apply State.linkFail_kept | apply State.attemptFail_kept | apply Kept.ite) | split | (with_reducible refine Kept.ofEq (by assumption) ?_) | (with_reducible refine Kept.upd ?_ (by rfl)) | intro _

theorem execTrainingTimeout_kept (p : Fin 16) (s : State) {u : State} (h : execTrainingTimeout p s = .next u) : Kept s u := by
  unfold execTrainingTimeout at h
  cases h
  try dsimp only
  iterate 40 all_goals try first | (with_reducible first | exact Kept.refl _ | assumption | apply State.unfrozen_kept | apply State.watch_kept | apply State.trainTimeout_kept) | intro _

theorem execTrainingRetry_kept (p : Fin 16) (s : State) {u : State} (h : execTrainingRetry p s = .next u) : Kept s u := by
  unfold execTrainingRetry at h
  cases h
  try dsimp only
  iterate 40 all_goals try first | (with_reducible first | exact Kept.refl _ | assumption | apply State.unfrozen_kept | apply State.watch_kept | apply State.startTraining_kept | apply State.startSeries_kept | apply Kept.ite) | split | (with_reducible refine Kept.ofEq (by assumption) ?_) | intro _

theorem State.writeNvCfg_kept {s0 : State} (s : State) (m : Master) (p : Nat) (v : Word) (hs : Kept s0 s)  : Kept s0 (State.writeNvCfg s m p v) := by
  refine hs.trans ?_
  clear hs
  unfold State.writeNvCfg
  try dsimp only
  iterate 40 all_goals try first | (with_reducible first | exact Kept.refl _ | assumption | apply State.wr_kept | apply State.writeCode_kept | apply State.startSeries_kept | apply Kept.ite) | split | (with_reducible refine Kept.ofEq (by assumption) ?_)

theorem execRetrain_kept (m : Master) (p : Fin 16) (v : Word) (s : State) {u : State} (h : execRetrain m p v s = .next u) : Kept s u := by
  unfold execRetrain at h
  cases h
  try dsimp only
  iterate 40 all_goals try first | (with_reducible first | exact Kept.refl _ | assumption | apply State.unfrozen_kept | apply State.accessBy_kept | apply State.watch_kept | apply State.writeNvCfg_kept) | intro _

theorem State.neveLost_kept {s0 : State} (s : State) (p : Nat) (hs : Kept s0 s)  : Kept s0 (State.neveLost s p) := by
  refine hs.trans ?_
  clear hs
  unfold State.neveLost
  try dsimp only
  iterate 40 all_goals try first | (with_reducible first | exact Kept.refl _ | assumption | apply State.wr_kept | apply State.bumpSat_kept | apply State.report_kept | apply State.onNeve_kept | apply State.linkHreg_kept | apply State.nvEnter_kept | apply State.neveEvent_kept | apply Kept.ite) | split | (with_reducible refine Kept.ofEq (by assumption) ?_) | (with_reducible refine Kept.upd ?_ (by rfl)) | intro _

theorem State.takeHeaders_kept {s0 : State} (s : State) (p : Fin 16) (hdrs : List (BitVec 2)) (hs : Kept s0 s)  : Kept s0 (State.takeHeaders s p hdrs) := by
  refine hs.trans ?_
  clear hs
  unfold State.takeHeaders
  try dsimp only
  iterate 40 all_goals try first | (with_reducible first | exact Kept.refl _ | assumption | apply State.wr_kept | apply State.unfrozen_kept | apply State.watch_kept | apply State.neveLost_kept | apply Kept.ite) | split | (with_reducible refine Kept.ofEq (by assumption) ?_) | intro _

theorem execNeveDown_kept (w : Fin 16 × List (BitVec 2)) (s : State) {u : State} (h : execNeveDown w s = .next u) : Kept s u := by
  unfold execNeveDown at h
  cases h
  exact State.takeHeaders_kept s _ _ (Kept.refl _)

theorem State.lineError_kept {s0 : State} (s : State) (p tag reason : Nat) (hs : Kept s0 s)  : Kept s0 (State.lineError s p tag reason) := by
  refine hs.trans ?_
  clear hs
  unfold State.lineError
  try dsimp only
  iterate 40 all_goals try first | (with_reducible first | exact Kept.refl _ | assumption | apply State.bumpSat_kept | apply State.report_kept | apply State.abortProd_kept | apply State.endProds_kept) | split | (with_reducible refine Kept.ofEq (by assumption) ?_)

theorem execLineErr_kept (p : Fin 16) (tag reason : Byte) (s : State) {u : State} (h : execLineErr p tag reason s = .next u) : Kept s u := by
  unfold execLineErr at h
  cases h
  try dsimp only
  iterate 40 all_goals try first | (with_reducible first | exact Kept.refl _ | assumption | apply State.unfrozen_kept | apply State.lineError_kept | apply Kept.ite) | split | (with_reducible refine Kept.ofEq (by assumption) ?_) | intro _

theorem execTelem_kept (p : Fin 16) (item : Fin 8) (v : BitVec 16) (s : State) {u : State} (h : execTelem p item v s = .next u) : Kept s u := by
  unfold execTelem at h
  cases h
  try dsimp only
  iterate 40 all_goals try first | (with_reducible first | exact Kept.refl _ | assumption | apply State.wr_kept | apply State.unfrozen_kept | apply Kept.ite) | split | (with_reducible refine Kept.ofEq (by assumption) ?_) | intro _

theorem execUnknownBlock_kept (p : Fin 16) (s : State) {u : State} (h : execUnknownBlock p s = .next u) : Kept s u := by
  unfold execUnknownBlock at h
  cases h
  try dsimp only
  iterate 40 all_goals try first | (with_reducible first | exact Kept.refl _ | assumption | apply State.bumpSat_kept | apply State.unfrozen_kept | apply Kept.ite) | split | (with_reducible refine Kept.ofEq (by assumption) ?_) | intro _

theorem State.writeHregCmd_kept {s0 : State} (s : State) (m : Master) (p : Nat) (v : Word) (hs : Kept s0 s)  : Kept s0 (State.writeHregCmd s m p v) := by
  refine hs.trans ?_
  clear hs
  unfold State.writeHregCmd
  try dsimp only
  iterate 40 all_goals try first | (with_reducible first | exact Kept.refl _ | assumption | apply State.writeCode_kept | apply State.queueHreg_kept | apply Kept.ite) | split | (with_reducible refine Kept.ofEq (by assumption) ?_)

theorem execHregGo_kept (m : Master) (p : Fin 16) (v : Word) (s : State) {u : State} (h : execHregGo m p v s = .next u) : Kept s u := by
  unfold execHregGo at h
  cases h
  try dsimp only
  iterate 40 all_goals try first | (with_reducible first | exact Kept.refl _ | assumption | apply State.unfrozen_kept | apply State.accessBy_kept | apply State.writeHregCmd_kept) | intro _

theorem State.endHreg_kept {s0 : State} (s : State) (p : Nat) (o : HregOp) (result : Nat) (data : Word) (hs : Kept s0 s)  : Kept s0 (State.endHreg s p o result data) := by
  refine hs.trans ?_
  clear hs
  unfold State.endHreg
  try dsimp only
  iterate 40 all_goals try first | (with_reducible first | exact Kept.refl _ | assumption | apply State.setReg_kept | apply State.wr_kept | apply State.onPort_kept | apply State.onNeve_kept | apply State.onSense_kept | apply State.sendHreg_kept | apply State.countWait_kept | apply Kept.ite) | split | (with_reducible refine Kept.ofEq (by assumption) ?_) | (with_reducible refine Kept.upd ?_ (by rfl)) | intro _

theorem execHregReply_kept (p : Fin 16) (code : Byte) (data : Word) (s : State) {u : State} (h : execHregReply p code data s = .next u) : Kept s u := by
  unfold execHregReply at h
  cases h
  try dsimp only
  iterate 40 all_goals try first | (with_reducible first | exact Kept.refl _ | assumption | apply State.wr_kept | apply State.unfrozen_kept | apply State.watch_kept | apply State.endHreg_kept | apply Kept.ite) | split | (with_reducible refine Kept.ofEq (by assumption) ?_) | intro _

theorem execHregTimeout_kept (p : Fin 16) (s : State) {u : State} (h : execHregTimeout p s = .next u) : Kept s u := by
  unfold execHregTimeout at h
  cases h
  try dsimp only
  iterate 40 all_goals try first | (with_reducible first | exact Kept.refl _ | assumption | apply State.wr_kept | apply State.unfrozen_kept | apply State.watch_kept | apply State.endHreg_kept | apply Kept.ite) | split | (with_reducible refine Kept.ofEq (by assumption) ?_) | intro _

theorem execHeadLoadRetry_kept (p : Fin 16) (s : State) {u : State} (h : execHeadLoadRetry p s = .next u) : Kept s u := by
  unfold execHeadLoadRetry at h
  cases h
  try dsimp only
  iterate 40 all_goals try first | (with_reducible first | exact Kept.refl _ | assumption | apply State.unfrozen_kept | apply State.startLoad_kept | apply Kept.ite) | split | (with_reducible refine Kept.ofEq (by assumption) ?_) | intro _

theorem State.stopLink_kept {s0 : State} (s : State) (p : Nat) (hs : Kept s0 s)  : Kept s0 (State.stopLink s p) := by
  refine hs.trans ?_
  clear hs
  unfold State.stopLink
  try dsimp only
  iterate 40 all_goals try first | (with_reducible first | exact Kept.refl _ | assumption | apply State.wr_kept | apply State.emit_kept | apply State.idle_kept | apply State.onNeve_kept | apply State.inhibit_kept | apply State.linkHreg_kept | apply State.nvEnter_kept | apply Kept.ite) | split | (with_reducible refine Kept.ofEq (by assumption) ?_) | (with_reducible refine Kept.upd ?_ (by rfl)) | intro _

theorem State.writePortCfg_kept {s0 : State} (s : State) (m : Master) (p : Nat) (v : Word) (hs : Kept s0 s)  : Kept s0 (State.writePortCfg s m p v) := by
  refine hs.trans ?_
  clear hs
  unfold State.writePortCfg
  try dsimp only
  iterate 40 all_goals try first | (with_reducible first | exact Kept.refl _ | assumption | apply State.wrBit_kept | apply State.writeCode_kept | apply State.uncalibrate_kept | apply State.startSeries_kept | apply State.stopLink_kept | apply Kept.ite) | split | (with_reducible refine Kept.ofEq (by assumption) ?_)

theorem execPortEnable_kept (m : Master) (p : Fin 16) (v : Word) (s : State) {u : State} (h : execPortEnable m p v s = .next u) : Kept s u := by
  unfold execPortEnable at h
  cases h
  try dsimp only
  iterate 40 all_goals try first | (with_reducible first | exact Kept.refl _ | assumption | apply State.unfrozen_kept | apply State.accessBy_kept | apply State.watch_kept | apply State.writePortCfg_kept) | intro _

theorem execPortDisable_kept (m : Master) (p : Fin 16) (v : Word) (s : State) {u : State} (h : execPortDisable m p v s = .next u) : Kept s u := by
  unfold execPortDisable at h
  cases h
  try dsimp only
  iterate 40 all_goals try first | (with_reducible first | exact Kept.refl _ | assumption | apply State.unfrozen_kept | apply State.accessBy_kept | apply State.watch_kept | apply State.writePortCfg_kept) | intro _

theorem execEntryRampDone_kept (p : Fin 16) (s : State) {u : State} (h : execEntryRampDone p s = .next u) : Kept s u := by
  unfold execEntryRampDone at h
  cases h
  try dsimp only
  iterate 40 all_goals try first | (with_reducible first | exact Kept.refl _ | assumption | apply State.wr_kept | apply State.unfrozen_kept | apply State.onPort_kept | apply State.updateGreq_kept | apply State.startEntry_kept | apply Kept.ite) | split | (with_reducible refine Kept.ofEq (by assumption) ?_) | (with_reducible refine Kept.upd ?_ (by rfl)) | intro _

theorem State.sendTable_kept {s0 : State} (s : State) (p : Nat) (hs : Kept s0 s)  : Kept s0 (State.sendTable s p) := by
  refine hs.trans ?_
  clear hs
  unfold State.sendTable
  try dsimp only
  iterate 40 all_goals try first | (with_reducible first | exact Kept.refl _ | assumption | apply State.emit_kept | apply State.onPort_kept | apply Kept.ite) | split | (with_reducible refine Kept.ofEq (by assumption) ?_) | (with_reducible refine Kept.upd ?_ (by rfl)) | intro _

theorem execQuietPoint_kept (p : Fin 16) (s : State) {u : State} (h : execQuietPoint p s = .next u) : Kept s u := by
  unfold execQuietPoint at h
  cases h
  try dsimp only
  iterate 40 all_goals try first | (with_reducible first | exact Kept.refl _ | assumption | apply State.unfrozen_kept | apply State.applyRose_kept | apply State.updateGreq_kept | apply State.watch_kept | apply State.sendTable_kept | apply Kept.ite) | split | (with_reducible refine Kept.ofEq (by assumption) ?_) | intro _

theorem State.setLine_kept {s0 : State} (s : State) (p : Nat) (l : PLine) (hs : Kept s0 s)  : Kept s0 (State.setLine s p l) := by
  refine hs.trans ?_
  clear hs
  unfold State.setLine
  try dsimp only
  iterate 40 all_goals try first | (with_reducible first | exact Kept.refl _ | assumption | apply State.onPort_kept | apply Kept.ite) | split | (with_reducible refine Kept.ofEq (by assumption) ?_) | (with_reducible refine Kept.upd ?_ (by rfl)) | intro _

theorem State.beginShift_kept {s0 : State} (s : State) (p : Nat) (l : PLine) (e : Entry) (hs : Kept s0 s)  : Kept s0 (State.beginShift s p l e) := by
  refine hs.trans ?_
  clear hs
  unfold State.beginShift
  try dsimp only
  iterate 40 all_goals try first | (with_reducible first | exact Kept.refl _ | assumption | apply State.emit_kept | apply State.onPort_kept | apply State.setLine_kept | apply Kept.ite) | split | (with_reducible refine Kept.ofEq (by assumption) ?_) | (with_reducible refine Kept.upd ?_ (by rfl)) | intro _

theorem State.freeLine_kept {s0 : State} (s : State) (p : Nat) (l : PLine) (hs : Kept s0 s)  : Kept s0 (State.freeLine s p l) := by
  refine hs.trans ?_
  clear hs
  unfold State.freeLine
  try dsimp only
  iterate 40 all_goals try first | (with_reducible first | exact Kept.refl _ | assumption | apply State.onPort_kept | apply State.purgeVoids_kept | (refine Kept.upd ?_ (by rfl))) | intro _

theorem State.fifoShift_kept {s0 : State} (s : State) (p : Nat) (l : PLine) (e : Entry) (hs : Kept s0 s)  : Kept s0 (State.fifoShift s p l e) := by
  refine hs.trans ?_
  clear hs
  unfold State.fifoShift
  try dsimp only
  iterate 40 all_goals try first | (with_reducible first | exact Kept.refl _ | assumption | apply State.drawWord_kept | apply State.reportInj_kept | apply State.injFired_kept | apply State.injRail_kept | apply State.abortProd_kept | apply State.endProds_kept | apply State.beginShift_kept | apply State.freeLine_kept | apply Kept.ite) | split | (with_reducible refine Kept.ofEq (by assumption) ?_)

theorem execLineShift_kept (p : Fin 16) (s : State) {u : State} (h : execLineShift p s = .next u) : Kept s u := by
  unfold execLineShift at h
  cases h
  try dsimp only
  iterate 40 all_goals try first | (with_reducible first | exact Kept.refl _ | assumption | apply State.unfrozen_kept | apply State.purgeVoids_kept | apply State.fifoShift_kept | apply Kept.ite) | split | (with_reducible refine Kept.ofEq (by assumption) ?_) | intro _

theorem State.extrapolated_kept {s0 : State} (s : State) (p : Nat) (l : PLine) (f : Nat) (hs : Kept s0 s)  : Kept s0 (State.extrapolated s p l f) := by
  refine hs.trans ?_
  clear hs
  unfold State.extrapolated
  try dsimp only
  iterate 40 all_goals try first | (with_reducible first | exact Kept.refl _ | assumption | apply State.bumpSat_kept | apply State.event_kept | apply State.setProd_kept | apply Kept.ite) | split | (with_reducible refine Kept.ofEq (by assumption) ?_) | (with_reducible refine Kept.upd ?_ (by rfl))

theorem execLineLatch_kept (p : Fin 16) (s : State) {u : State} (h : execLineLatch p s = .next u) : Kept s u := by
  unfold execLineLatch at h
  cases h
  try dsimp only
  iterate 40 all_goals try first | (with_reducible first | exact Kept.refl _ | assumption | apply State.wr_kept | apply State.unfrozen_kept | apply State.emit_kept | apply State.purgeVoids_kept | apply State.setLine_kept | apply State.extrapolated_kept | apply Kept.ite) | split | (with_reducible refine Kept.ofEq (by assumption) ?_) | (with_reducible refine Kept.upd ?_ (by rfl)) | intro _

theorem execFireEvent_kept (p : Fin 16) (s : State) {u : State} (h : execFireEvent p s = .next u) : Kept s u := by
  unfold execFireEvent at h
  cases h
  try dsimp only
  iterate 40 all_goals try first | (with_reducible first | exact Kept.refl _ | assumption | apply State.unfrozen_kept | apply State.slotCollision_kept | apply State.setLine_kept) | split | (with_reducible refine Kept.ofEq (by assumption) ?_) | (with_reducible refine Kept.upd ?_ (by rfl)) | intro _

theorem State.lateLine_kept {s0 : State} (s : State) (p : Nat) (l : PLine) (hs : Kept s0 s)  : Kept s0 (State.lateLine s p l) := by
  refine hs.trans ?_
  clear hs
  unfold State.lateLine
  try dsimp only
  iterate 40 all_goals try first | (with_reducible first | exact Kept.refl _ | assumption | apply State.bumpSat_kept | apply State.abortProd_kept | apply State.endProds_kept | apply State.freeLine_kept | apply Kept.ite) | split | (with_reducible refine Kept.ofEq (by assumption) ?_)

theorem execLineJudge_kept (p : Fin 16) (s : State) {u : State} (h : execLineJudge p s = .next u) : Kept s u := by
  unfold execLineJudge at h
  cases h
  try dsimp only
  iterate 40 all_goals try first | (with_reducible first | exact Kept.refl _ | assumption | apply State.unfrozen_kept | apply State.setLine_kept | apply State.lateLine_kept | apply Kept.ite) | split | (with_reducible refine Kept.ofEq (by assumption) ?_) | (with_reducible refine Kept.upd ?_ (by rfl)) | intro _

theorem State.addDrops_kept {s0 : State} (s : State) (lo : Nat) (n : Nat) (hs : Kept s0 s)  : Kept s0 (State.addDrops s lo n) := by
  refine hs.trans ?_
  clear hs
  unfold State.addDrops
  try dsimp only
  iterate 40 all_goals try first | with_reducible first | exact Kept.refl _ | assumption | apply State.wr64_kept

theorem State.countDrops_kept {s0 : State} (s : State) (p : Nat) (e : Entry) (hs : Kept s0 s)  : Kept s0 (State.countDrops s p e) := by
  refine hs.trans ?_
  clear hs
  unfold State.countDrops
  try dsimp only
  iterate 40 all_goals try first | with_reducible first | exact Kept.refl _ | assumption | apply State.addDrops_kept

theorem State.strobeLine_kept {s0 : State} (s : State) (p : Nat) (l : PLine) (e : Entry) (fire : Nat) (hs : Kept s0 s)  : Kept s0 (State.strobeLine s p l e fire) := by
  refine hs.trans ?_
  clear hs
  unfold State.strobeLine
  try dsimp only
  iterate 40 all_goals try first | (with_reducible first | exact Kept.refl _ | assumption | apply State.bump_kept | apply State.bumpSat_kept | apply State.emit_kept | apply State.onPort_kept | apply State.startPlay_kept | apply State.endProds_kept | apply State.onSense_kept | apply State.expectEcho_kept | apply State.strobeBlock_kept | apply State.freeLine_kept | apply State.countDrops_kept | apply Kept.ite) | split | (with_reducible refine Kept.ofEq (by assumption) ?_) | (with_reducible refine Kept.upd ?_ (by rfl)) | intro _

theorem State.waveParity_kept {s0 : State} (s : State) (p : Nat) (hs : Kept s0 s)  : Kept s0 (State.waveParity s p) := by
  refine hs.trans ?_
  clear hs
  unfold State.waveParity
  try dsimp only
  iterate 40 all_goals try first | (with_reducible first | exact Kept.refl _ | assumption | apply State.drawWord_kept | apply State.report_kept | apply State.rampWave_kept | apply State.stopPulse_kept | apply Kept.ite) | split | (with_reducible refine Kept.ofEq (by assumption) ?_)

theorem execStrobe_kept (p : Fin 16) (s : State) {u : State} (h : execStrobe p s = .next u) : Kept s u := by
  unfold execStrobe at h
  cases h
  try dsimp only
  iterate 40 all_goals try first | (with_reducible first | exact Kept.refl _ | assumption | apply State.bumpSat_kept | apply State.unfrozen_kept | apply State.injectAt_kept | apply State.abortProd_kept | apply State.endProds_kept | apply State.freeLine_kept | apply State.lateLine_kept | apply State.strobeLine_kept | apply State.waveParity_kept | apply Kept.ite) | split | (with_reducible refine Kept.ofEq (by assumption) ?_) | intro _

theorem execPulseEnd_kept (p : Fin 16) (s : State) {u : State} (h : execPulseEnd p s = .next u) : Kept s u := by
  unfold execPulseEnd at h
  cases h
  try dsimp only
  iterate 40 all_goals try first | (with_reducible first | exact Kept.refl _ | assumption | apply State.unfrozen_kept | apply State.onPort_kept | apply State.playNow_kept | apply State.rampWave_kept | apply State.slotAfter_kept | apply Kept.ite) | split | (with_reducible refine Kept.ofEq (by assumption) ?_) | (with_reducible refine Kept.upd ?_ (by rfl)) | intro _

theorem State.wdReport_kept {s0 : State} (s : State) (p kind : Nat) (hs : Kept s0 s)  : Kept s0 (State.wdReport s p kind) := by
  refine hs.trans ?_
  clear hs
  unfold State.wdReport
  try dsimp only
  iterate 40 all_goals try first | with_reducible first | exact Kept.refl _ | assumption | apply State.event_kept | apply State.reportFiring_kept

theorem State.wdPass_kept {s0 : State} (s : State) (p : Nat) (e : Expect) (last : Int) (hs : Kept s0 s)  : Kept s0 (State.wdPass s p e last) := by
  refine hs.trans ?_
  clear hs
  unfold State.wdPass
  try dsimp only
  iterate 40 all_goals try first | (with_reducible first | exact Kept.refl _ | assumption | apply State.wr_kept | apply State.onPort_kept | (refine Kept.upd ?_ (by rfl))) | intro _

theorem State.wdSpurious_kept {s0 : State} (s : State) (p : Nat) (hs : Kept s0 s)  : Kept s0 (State.wdSpurious s p) := by
  refine hs.trans ?_
  clear hs
  unfold State.wdSpurious
  try dsimp only
  iterate 40 all_goals try first | with_reducible first | exact Kept.refl _ | assumption | apply State.bumpSat_kept | apply State.wdReport_kept

theorem State.judgeEcho_kept {s0 : State} (s : State) (p : Nat) (e : Echo) (hs : Kept s0 s)  : Kept s0 (State.judgeEcho s p e) := by
  refine hs.trans ?_
  clear hs
  unfold State.judgeEcho
  try dsimp only
  iterate 40 all_goals try first | (with_reducible first | exact Kept.refl _ | assumption | apply State.wdPass_kept | apply State.wdSpurious_kept | apply Kept.ite) | split | (with_reducible refine Kept.ofEq (by assumption) ?_) | intro _

theorem execEcho_kept (p : Fin 16) (e : Echo) (s : State) {u : State} (h : execEcho p e s = .next u) : Kept s u := by
  unfold execEcho at h
  cases h
  try dsimp only
  iterate 40 all_goals try first | (with_reducible first | exact Kept.refl _ | assumption | apply State.unfrozen_kept | apply State.injectAt_kept | apply State.wdSpurious_kept | apply State.judgeEcho_kept | apply Kept.ite) | split | (with_reducible refine Kept.ofEq (by assumption) ?_) | intro _

theorem execWatchdogMiss_kept (p : Fin 16) (s : State) {u : State} (h : execWatchdogMiss p s = .next u) : Kept s u := by
  unfold execWatchdogMiss at h
  cases h
  try dsimp only
  iterate 40 all_goals try first | (with_reducible first | exact Kept.refl _ | assumption | apply State.bumpSat_kept | apply State.unfrozen_kept | apply State.injectAt_kept | apply State.onPort_kept | apply State.wdReport_kept | apply Kept.ite) | split | (with_reducible refine Kept.ofEq (by assumption) ?_) | (with_reducible refine Kept.upd ?_ (by rfl)) | intro _

theorem execEchoStuck_kept (p : Fin 16) (s : State) {u : State} (h : execEchoStuck p s = .next u) : Kept s u := by
  unfold execEchoStuck at h
  cases h
  try dsimp only
  iterate 40 all_goals try first | (with_reducible first | exact Kept.refl _ | assumption | apply State.unfrozen_kept | apply State.wdReport_kept | apply Kept.ite) | split | (with_reducible refine Kept.ofEq (by assumption) ?_) | intro _

theorem State.gateAbort_kept {s0 : State} (s : State) (p : Nat) (hs : Kept s0 s)  : Kept s0 (State.gateAbort s p) := by
  refine hs.trans ?_
  clear hs
  unfold State.gateAbort
  try dsimp only
  iterate 40 all_goals try first | (with_reducible first | exact Kept.refl _ | assumption | apply State.abortCtx_kept | apply Kept.foldl | apply Kept.foldlSnd) | intro _

theorem State.openHead_kept {s0 : State} (s : State) (busy : Bool) (p : Nat) (hs : Kept s0 s)  : Kept s0 (State.openHead s busy p) := by
  refine hs.trans ?_
  clear hs
  unfold State.openHead
  try dsimp only
  iterate 40 all_goals try first | (with_reducible first | exact Kept.refl _ | assumption | apply State.bumpSat_kept | apply State.rampWave_kept | apply State.lowStrobes_kept | apply State.inhibit_kept | apply Kept.ite) | split | (with_reducible refine Kept.ofEq (by assumption) ?_)

theorem State.headOpenEdge_kept {s0 : State} (old : State) (p : Nat) (s : State) (hs : Kept s0 s)  : Kept s0 (State.headOpenEdge old p s) := by
  refine hs.trans ?_
  clear hs
  unfold State.headOpenEdge
  try dsimp only
  iterate 40 all_goals try first | (with_reducible first | exact Kept.refl _ | assumption | apply State.inhibit_kept | apply State.openHead_kept | apply Kept.ite) | split | (with_reducible refine Kept.ofEq (by assumption) ?_)

theorem State.gateChange_kept {s0 : State} (s : State) (p g act : Nat) (on : Bool) (hs : Kept s0 s)  : Kept s0 (State.gateChange s p g act on) := by
  refine hs.trans ?_
  clear hs
  unfold State.gateChange
  try dsimp only
  iterate 40 all_goals try first | (with_reducible first | exact Kept.refl _ | assumption | apply State.wrBit_kept | apply State.event_kept | apply State.haltWalk_kept | apply State.cutSlot_kept | apply State.gateAbort_kept | apply Kept.ite) | split | (with_reducible refine Kept.ofEq (by assumption) ?_)

theorem State.judgeGate_kept {s0 : State} (s : State) (p g act : Nat) (level : Bool) (hs : Kept s0 s)  : Kept s0 (State.judgeGate s p g act level) := by
  refine hs.trans ?_
  clear hs
  unfold State.judgeGate
  try dsimp only
  iterate 40 all_goals try first | (with_reducible first | exact Kept.refl _ | assumption | apply State.onPort_kept | apply State.gateChange_kept | apply Kept.ite) | split | (with_reducible refine Kept.ofEq (by assumption) ?_) | (with_reducible refine Kept.upd ?_ (by rfl)) | intro _

theorem execGateTransition_kept (p : Fin 16) (g : Fin 48) (level : Bool) (s : State) {u : State} (h : execGateTransition p g level s = .next u) : Kept s u := by
  unfold execGateTransition at h
  cases h
  try dsimp only
  iterate 40 all_goals try first | (with_reducible first | exact Kept.refl _ | assumption | apply State.unfrozen_kept | apply State.headOpenEdge_kept | apply State.judgeGate_kept | apply Kept.ite) | split | (with_reducible refine Kept.ofEq (by assumption) ?_) | intro _

theorem State.writeGate_kept {s0 : State} (s : State) (m : Master) (p g : Nat) (v : Word) (held : Option Nat) (hs : Kept s0 s)  : Kept s0 (State.writeGate s m p g v held) := by
  refine hs.trans ?_
  clear hs
  unfold State.writeGate
  try dsimp only
  iterate 40 all_goals try first | (with_reducible first | exact Kept.refl _ | assumption | apply State.writeCode_kept | apply State.headOpenEdge_kept | apply State.judgeGate_kept | apply Kept.ite) | split | (with_reducible refine Kept.ofEq (by assumption) ?_)

theorem execPortGateWrite_kept (m : Master) (p : Fin 16) (g : Fin 48) (v : Word) (held : Option Nat) (s : State) {u : State} (h : execPortGateWrite m p g v held s = .next u) : Kept s u := by
  unfold execPortGateWrite at h
  cases h
  try dsimp only
  iterate 40 all_goals try first | (with_reducible first | exact Kept.refl _ | assumption | apply State.unfrozen_kept | apply State.accessBy_kept | apply State.writeGate_kept) | intro _

theorem State.releaseGate_kept {s0 : State} (s : State) (p g : Nat) (hs : Kept s0 s)  : Kept s0 (State.releaseGate s p g) := by
  refine hs.trans ?_
  clear hs
  unfold State.releaseGate
  try dsimp only
  iterate 40 all_goals try first | (with_reducible first | exact Kept.refl _ | assumption | apply State.onPort_kept | apply State.headOpenEdge_kept | apply State.gateChange_kept | apply Kept.ite) | split | (with_reducible refine Kept.ofEq (by assumption) ?_) | (with_reducible refine Kept.upd ?_ (by rfl)) | intro _

theorem State.writeGstat_kept {s0 : State} (s : State) (p : Nat) (hi : Bool) (v : Word) (hs : Kept s0 s)  : Kept s0 (State.writeGstat s p hi v) := by
  refine hs.trans ?_
  clear hs
  unfold State.writeGstat
  try dsimp only
  iterate 40 all_goals try first | (with_reducible first | exact Kept.refl _ | assumption | apply State.releaseGate_kept | apply Kept.ite | apply Kept.foldl | apply Kept.foldlSnd) | split | (with_reducible refine Kept.ofEq (by assumption) ?_) | intro _

theorem execGateRelease_kept (m : Master) (p : Fin 16) (hi : Bool) (v : Word) (s : State) {u : State} (h : execGateRelease m p hi v s = .next u) : Kept s u := by
  unfold execGateRelease at h
  cases h
  try dsimp only
  iterate 40 all_goals try first | (with_reducible first | exact Kept.refl _ | assumption | apply State.unfrozen_kept | apply State.accessBy_kept | apply State.writeGstat_kept | apply Kept.ite) | split | (with_reducible refine Kept.ofEq (by assumption) ?_) | intro _

theorem State.settleFrozen_kept {s0 : State} (s : State) (hs : Kept s0 s)  : Kept s0 (State.settleFrozen s) := by
  refine hs.trans ?_
  clear hs
  unfold State.settleFrozen
  try dsimp only
  iterate 40 all_goals try first | (with_reducible first | exact Kept.refl _ | assumption | apply State.wr_kept | apply Kept.ite) | split | (with_reducible refine Kept.ofEq (by assumption) ?_) | (with_reducible refine Kept.upd ?_ (by rfl)) | intro _

theorem State.gatesLow_kept {s0 : State} (s : State) (a : Nat) (hs : Kept s0 s)  : Kept s0 (State.gatesLow s a) := by
  refine hs.trans ?_
  clear hs
  unfold State.gatesLow
  try dsimp only
  iterate 40 all_goals try first | (with_reducible first | exact Kept.refl _ | assumption | apply State.emit_kept | apply Kept.ite) | split | (with_reducible refine Kept.ofEq (by assumption) ?_) | intro _

theorem State.freeze_kept {s0 : State} (s : State) (cause : Nat) (hs : Kept s0 s)  : Kept s0 (State.freeze s cause) := by
  refine hs.trans ?_
  clear hs
  unfold State.freeze
  try dsimp only
  iterate 40 all_goals try first | (with_reducible first | exact Kept.refl _ | assumption | apply State.wr_kept | apply State.bumpSat_kept | apply State.wr64_kept | apply State.onWave_kept | apply State.forceWave_kept | apply State.stopPulse_kept | apply State.settleFrozen_kept | apply State.gatesLow_kept | apply Kept.ite | apply Kept.foldl | apply Kept.foldlSnd) | split | (with_reducible refine Kept.ofEq (by assumption) ?_) | (with_reducible refine Kept.upd ?_ (by rfl)) | intro _

theorem State.writeHfCtl_kept {s0 : State} (s : State) (v : Word) (hs : Kept s0 s)  : Kept s0 (State.writeHfCtl s v) := by
  refine hs.trans ?_
  clear hs
  unfold State.writeHfCtl
  try dsimp only
  iterate 40 all_goals try first | (with_reducible first | exact Kept.refl _ | assumption | apply State.freeze_kept | apply Kept.ite) | split | (with_reducible refine Kept.ofEq (by assumption) ?_)

end Sys2Proof.Machine
end

