-- ==== Sys2Proof/Laws/KeptMotion.lean ====
section
/-! SUPPORT. `Kept` for the motion islands, the error hub, housekeeping and the flash: one lemma for each operation and each command. -/

namespace Sys2Proof.Machine

theorem State.driveGates_kept {s0 : State} (s : State) (a : Nat) (coilB : Bool) (t : Nat) (g h : BitVec 4) (hs : Kept s0 s)  : Kept s0 (State.driveGates s a coilB t g h) := by
  refine hs.trans ?_
  clear hs
  unfold State.driveGates
  try dsimp only
  iterate 40 all_goals try first | (with_reducible first | exact Kept.refl _ | assumption | apply State.emit_kept | apply Kept.ite) | split | (with_reducible refine Kept.ofEq (by assumption) ?_)

theorem State.showBridge_kept {s0 : State} (s : State) (a : Nat) (coilB : Bool) (old new : Coil) (hs : Kept s0 s)  : Kept s0 (State.showBridge s a coilB old new) := by
  refine hs.trans ?_
  clear hs
  unfold State.showBridge
  try dsimp only
  iterate 40 all_goals try first | (with_reducible first | exact Kept.refl _ | assumption | apply State.driveGates_kept | apply Kept.ite) | split | (with_reducible refine Kept.ofEq (by assumption) ?_)

theorem State.setAxis_kept {s0 : State} (s : State) (a : Nat) (x : Axis) (hs : Kept s0 s)  : Kept s0 (State.setAxis s a x) := by
  refine hs.trans ?_
  clear hs
  unfold State.setAxis
  try dsimp only
  iterate 40 all_goals try first | (with_reducible first | exact Kept.refl _ | assumption | apply State.showBridge_kept | (refine Kept.upd ?_ (by rfl))) | intro _

theorem State.onAxis_kept {s0 : State} (s : State) (a : Nat) (f : Axis → Axis) (hs : Kept s0 s)  : Kept s0 (State.onAxis s a f) := by
  refine hs.trans ?_
  clear hs
  unfold State.onAxis
  try dsimp only
  iterate 40 all_goals try first | with_reducible first | exact Kept.refl _ | assumption | apply State.setAxis_kept

theorem State.showAxis_kept {s0 : State} (s : State) (a : Nat) (hs : Kept s0 s)  : Kept s0 (State.showAxis s a) := by
  refine hs.trans ?_
  clear hs
  unfold State.showAxis
  try dsimp only
  iterate 40 all_goals try first | with_reducible first | exact Kept.refl _ | assumption | apply State.setReg_kept | apply State.wr_kept

theorem State.setVact_kept {s0 : State} (s : State) (a : Nat) (v : Int) (hs : Kept s0 s)  : Kept s0 (State.setVact s a v) := by
  refine hs.trans ?_
  clear hs
  unfold State.setVact
  try dsimp only
  iterate 40 all_goals try first | with_reducible first | exact Kept.refl _ | assumption | apply State.setReg_kept

theorem State.rechop_kept {s0 : State} (s : State) (a : Nat) (moving : Bool) (hs : Kept s0 s)  : Kept s0 (State.rechop s a moving) := by
  refine hs.trans ?_
  clear hs
  unfold State.rechop
  try dsimp only
  iterate 40 all_goals try first | (with_reducible first | exact Kept.refl _ | assumption | apply State.onAxis_kept | (refine Kept.upd ?_ (by rfl))) | intro _

theorem State.bridgesOn_kept {s0 : State} (s : State) (a : Nat) (hs : Kept s0 s)  : Kept s0 (State.bridgesOn s a) := by
  refine hs.trans ?_
  clear hs
  unfold State.bridgesOn
  try dsimp only
  iterate 40 all_goals try first | (with_reducible first | exact Kept.refl _ | assumption | apply State.onAxis_kept | apply Kept.ite) | split | (with_reducible refine Kept.ofEq (by assumption) ?_) | (with_reducible refine Kept.upd ?_ (by rfl)) | intro _

theorem State.bridgesOff_kept {s0 : State} (s : State) (a : Nat) (hs : Kept s0 s)  : Kept s0 (State.bridgesOff s a) := by
  refine hs.trans ?_
  clear hs
  unfold State.bridgesOff
  try dsimp only
  iterate 40 all_goals try first | (with_reducible first | exact Kept.refl _ | assumption | apply State.onAxis_kept | (refine Kept.upd ?_ (by rfl))) | intro _

theorem State.motionEvent_kept {s0 : State} (s : State) (a kind cause : Nat) (stopped : Bool) (vact : Int) (tag : Word) (hs : Kept s0 s)  : Kept s0 (State.motionEvent s a kind cause stopped vact tag) := by
  refine hs.trans ?_
  clear hs
  unfold State.motionEvent
  try dsimp only
  iterate 40 all_goals try first | (with_reducible first | exact Kept.refl _ | assumption | apply State.wr_kept | apply State.event_kept | apply Kept.ite) | split | (with_reducible refine Kept.ofEq (by assumption) ?_)

theorem State.tellMove_kept {s0 : State} (s : State) (a kind : Nat) (hs : Kept s0 s)  : Kept s0 (State.tellMove s a kind) := by
  refine hs.trans ?_
  clear hs
  unfold State.tellMove
  try dsimp only
  iterate 40 all_goals try first | (with_reducible first | exact Kept.refl _ | assumption | apply State.endCommand_kept | apply Kept.ite) | split | (with_reducible refine Kept.ofEq (by assumption) ?_) | (with_reducible refine Kept.upd ?_ (by rfl)) | intro _

theorem State.clearMotion_kept {s0 : State} (s : State) (a kind : Nat) (hs : Kept s0 s)  : Kept s0 (State.clearMotion s a kind) := by
  refine hs.trans ?_
  clear hs
  unfold State.clearMotion
  try dsimp only
  iterate 40 all_goals try first | (with_reducible first | exact Kept.refl _ | assumption | apply State.wr_kept | apply State.setAxis_kept | apply State.showAxis_kept | apply State.setVact_kept | apply State.tellMove_kept | apply Kept.ite) | split | (with_reducible refine Kept.ofEq (by assumption) ?_) | (with_reducible refine Kept.upd ?_ (by rfl))

theorem State.standstill_kept {s0 : State} (s : State) (a : Nat) (hs : Kept s0 s)  : Kept s0 (State.standstill s a) := by
  refine hs.trans ?_
  clear hs
  unfold State.standstill
  try dsimp only
  iterate 40 all_goals try first | (with_reducible first | exact Kept.refl _ | assumption | apply State.wr_kept | apply State.onAxis_kept | apply Kept.ite) | split | (with_reducible refine Kept.ofEq (by assumption) ?_) | (with_reducible refine Kept.upd ?_ (by rfl)) | intro _

theorem State.endMotion_kept {s0 : State} (s : State) (a kind : Nat) (hs : Kept s0 s)  : Kept s0 (State.endMotion s a kind) := by
  refine hs.trans ?_
  clear hs
  unfold State.endMotion
  try dsimp only
  iterate 40 all_goals try first | with_reducible first | exact Kept.refl _ | assumption | apply State.setAxis_kept | apply State.showAxis_kept | apply State.rechop_kept | apply State.motionEvent_kept | apply State.clearMotion_kept | apply State.standstill_kept | (refine Kept.upd ?_ (by rfl))

theorem State.freezeOne_kept {s0 : State} (s : State) (kind cause : Nat) (stopped off : Bool) (a : Nat) (hs : Kept s0 s)  : Kept s0 (State.freezeOne s kind cause stopped off a) := by
  refine hs.trans ?_
  clear hs
  unfold State.freezeOne
  try dsimp only
  iterate 40 all_goals try first | (with_reducible first | exact Kept.refl _ | assumption | apply State.wr_kept | apply State.setAxis_kept | apply State.showAxis_kept | apply State.rechop_kept | apply State.bridgesOff_kept | apply State.motionEvent_kept | apply State.clearMotion_kept | apply Kept.ite) | split | (with_reducible refine Kept.ofEq (by assumption) ?_) | (with_reducible refine Kept.upd ?_ (by rfl))

theorem State.freezeAxis_kept {s0 : State} (s : State) (a kind cause : Nat) (stopped off : Bool) (hs : Kept s0 s)  : Kept s0 (State.freezeAxis s a kind cause stopped off) := by
  refine hs.trans ?_
  clear hs
  unfold State.freezeAxis
  try dsimp only
  iterate 40 all_goals try first | (with_reducible first | exact Kept.refl _ | assumption | apply State.freezeOne_kept | apply Kept.foldl | apply Kept.foldlSnd) | intro _

theorem State.stopAxis_kept {s0 : State} (s : State) (a : Nat) (hs : Kept s0 s)  : Kept s0 (State.stopAxis s a) := by
  refine hs.trans ?_
  clear hs
  unfold State.stopAxis
  try dsimp only
  iterate 40 all_goals try first | with_reducible first | exact Kept.refl _ | assumption | apply State.freezeAxis_kept

theorem State.faultAxis_kept {s0 : State} (s : State) (a cause : Nat) (hs : Kept s0 s)  : Kept s0 (State.faultAxis s a cause) := by
  refine hs.trans ?_
  clear hs
  unfold State.faultAxis
  try dsimp only
  iterate 40 all_goals try first | with_reducible first | exact Kept.refl _ | assumption | apply State.freezeAxis_kept

theorem State.faultAxes_kept {s0 : State} (s : State) (cause : Nat) (hs : Kept s0 s)  : Kept s0 (State.faultAxes s cause) := by
  refine hs.trans ?_
  clear hs
  unfold State.faultAxes
  try dsimp only
  iterate 40 all_goals try first | (with_reducible first | exact Kept.refl _ | assumption | apply State.freezeOne_kept | apply Kept.foldl | apply Kept.foldlSnd) | intro _

theorem State.supersede_kept {s0 : State} (s : State) (a : Nat) (hs : Kept s0 s)  : Kept s0 (State.supersede s a) := by
  refine hs.trans ?_
  clear hs
  unfold State.supersede
  try dsimp only
  iterate 40 all_goals try first | (with_reducible first | exact Kept.refl _ | assumption | apply State.onAxis_kept | apply State.motionEvent_kept | apply State.tellMove_kept | apply Kept.ite) | split | (with_reducible refine Kept.ofEq (by assumption) ?_) | (with_reducible refine Kept.upd ?_ (by rfl)) | intro _

theorem State.ungear_kept {s0 : State} (s : State) (a : Nat) (hs : Kept s0 s)  : Kept s0 (State.ungear s a) := by
  refine hs.trans ?_
  clear hs
  unfold State.ungear
  try dsimp only
  iterate 40 all_goals try first | (with_reducible first | exact Kept.refl _ | assumption | apply State.wr_kept | apply State.onAxis_kept | (refine Kept.upd ?_ (by rfl))) | intro _

theorem State.setTarget_kept {s0 : State} (s : State) (a : Nat) (t : Int) (hs : Kept s0 s)  : Kept s0 (State.setTarget s a t) := by
  refine hs.trans ?_
  clear hs
  unfold State.setTarget
  try dsimp only
  iterate 40 all_goals try first | (with_reducible first | exact Kept.refl _ | assumption | apply State.setReg_kept | apply State.onAxis_kept | (refine Kept.upd ?_ (by rfl))) | intro _

theorem State.leaveRest_kept {s0 : State} (s : State) (a st : Nat) (hs : Kept s0 s)  : Kept s0 (State.leaveRest s a st) := by
  refine hs.trans ?_
  clear hs
  unfold State.leaveRest
  try dsimp only
  iterate 40 all_goals try first | (with_reducible first | exact Kept.refl _ | assumption | apply State.wr_kept | apply State.onAxis_kept | apply State.bridgesOn_kept | (refine Kept.upd ?_ (by rfl))) | intro _

theorem State.takeSingle_kept {s0 : State} (s : State) (a : Nat) (rel : Bool) (t : Int) (tag : Word) (wait : Bool) (ports : Nat) (hs : Kept s0 s)  : Kept s0 (State.takeSingle s a rel t tag wait ports).2 := by
  refine hs.trans ?_
  clear hs
  unfold State.takeSingle
  try dsimp only
  iterate 40 all_goals try first | (with_reducible first | exact Kept.refl _ | assumption | apply State.onAxis_kept | apply State.clearMotion_kept | apply State.standstill_kept | apply State.supersede_kept | apply State.ungear_kept | apply State.setTarget_kept | apply State.leaveRest_kept | apply Kept.ite) | split | (with_reducible refine Kept.ofEq (by assumption) ?_) | (with_reducible refine Kept.upd ?_ (by rfl)) | intro _

theorem State.takeGroup_kept {s0 : State} (s : State) (l : List (Nat × Int)) (rel : Bool) (tag : Word) (wait : Bool) (ports : Nat) (hs : Kept s0 s)  : Kept s0 (State.takeGroup s l rel tag wait ports).2 := by
  refine hs.trans ?_
  clear hs
  unfold State.takeGroup
  try dsimp only
  iterate 40 all_goals try first | (with_reducible first | exact Kept.refl _ | assumption | apply State.wr_kept | apply State.onAxis_kept | apply State.setTarget_kept | apply State.leaveRest_kept | apply Kept.ite | apply Kept.foldl | apply Kept.foldlSnd) | split | (with_reducible refine Kept.ofEq (by assumption) ?_) | (with_reducible refine Kept.upd ?_ (by rfl)) | intro _

theorem State.takeMoves_kept {s0 : State} (s : State) (l : List (Nat × Int)) (rel : Bool) (tag : Word) (wait : Bool) (ports : Nat) (hs : Kept s0 s)  : Kept s0 (State.takeMoves s l rel tag wait ports).2 := by
  refine hs.trans ?_
  clear hs
  unfold State.takeMoves
  try dsimp only
  iterate 40 all_goals try first | (with_reducible first | exact Kept.refl _ | assumption | apply State.takeSingle_kept | apply State.takeGroup_kept) | split | (with_reducible refine Kept.ofEq (by assumption) ?_)

theorem State.softAxis_kept {s0 : State} (s : State) (a kind : Nat) (hs : Kept s0 s)  : Kept s0 (State.softAxis s a kind) := by
  refine hs.trans ?_
  clear hs
  unfold State.softAxis
  try dsimp only
  iterate 40 all_goals try first | (with_reducible first | exact Kept.refl _ | assumption | apply State.onAxis_kept | apply State.endMotion_kept | apply State.ungear_kept | apply Kept.ite | apply Kept.elim | apply Kept.foldl | apply Kept.foldlSnd) | split | (with_reducible refine Kept.ofEq (by assumption) ?_) | (with_reducible refine Kept.upd ?_ (by rfl)) | intro _

theorem State.yieldAxes_kept {s0 : State} (s : State) (ports : List Nat) (hs : Kept s0 s)  : Kept s0 (State.yieldAxes s ports) := by
  refine hs.trans ?_
  clear hs
  unfold State.yieldAxes
  try dsimp only
  iterate 40 all_goals try first | (with_reducible first | exact Kept.refl _ | assumption | apply State.softAxis_kept | apply Kept.ite | apply Kept.foldl | apply Kept.foldlSnd) | split | (with_reducible refine Kept.ofEq (by assumption) ?_) | intro _

theorem State.captureEnc_kept {s0 : State} (s : State) (a : Nat) (hs : Kept s0 s)  : Kept s0 (State.captureEnc s a) := by
  refine hs.trans ?_
  clear hs
  unfold State.captureEnc
  try dsimp only
  iterate 40 all_goals try first | (with_reducible first | exact Kept.refl _ | assumption | apply State.onAxis_kept | (refine Kept.upd ?_ (by rfl))) | intro _

theorem State.setPosition_kept {s0 : State} (s : State) (a : Nat) (p : Int) (hs : Kept s0 s)  : Kept s0 (State.setPosition s a p) := by
  refine hs.trans ?_
  clear hs
  unfold State.setPosition
  try dsimp only
  iterate 40 all_goals try first | (with_reducible first | exact Kept.refl _ | assumption | apply State.wr_kept | apply State.onAxis_kept | apply State.showAxis_kept | apply State.captureEnc_kept | (refine Kept.upd ?_ (by rfl))) | intro _

theorem State.homeDone_kept {s0 : State} (s : State) (a : Nat) (hs : Kept s0 s)  : Kept s0 (State.homeDone s a) := by
  refine hs.trans ?_
  clear hs
  unfold State.homeDone
  try dsimp only
  iterate 40 all_goals try first | with_reducible first | exact Kept.refl _ | assumption | apply State.wr_kept | apply State.endMotion_kept

theorem State.homeStall_kept {s0 : State} (s : State) (a : Nat) (h : Homing) (hs : Kept s0 s)  : Kept s0 (State.homeStall s a h) := by
  refine hs.trans ?_
  clear hs
  unfold State.homeStall
  try dsimp only
  iterate 40 all_goals try first | (with_reducible first | exact Kept.refl _ | assumption | apply State.wr_kept | apply State.onAxis_kept | apply State.setVact_kept | apply State.setTarget_kept | apply State.setPosition_kept | apply State.homeDone_kept | apply Kept.ite) | split | (with_reducible refine Kept.ofEq (by assumption) ?_) | (with_reducible refine Kept.upd ?_ (by rfl)) | intro _

theorem State.stall_kept {s0 : State} (s : State) (a mode : Nat) (hs : Kept s0 s)  : Kept s0 (State.stall s a mode) := by
  refine hs.trans ?_
  clear hs
  unfold State.stall
  try dsimp only
  iterate 40 all_goals try first | (with_reducible first | exact Kept.refl _ | assumption | apply State.bumpSat_kept | apply State.report_kept | apply State.onAxis_kept | apply State.motionEvent_kept | apply State.freezeAxis_kept | apply State.homeStall_kept | apply Kept.ite) | split | (with_reducible refine Kept.ofEq (by assumption) ?_) | (with_reducible refine Kept.upd ?_ (by rfl)) | intro _

theorem State.checkDev_kept {s0 : State} (s : State) (a : Nat) (hs : Kept s0 s)  : Kept s0 (State.checkDev s a) := by
  refine hs.trans ?_
  clear hs
  unfold State.checkDev
  try dsimp only
  iterate 40 all_goals try first | (with_reducible first | exact Kept.refl _ | assumption | apply State.wr_kept | apply State.injectAt_kept | apply State.onAxis_kept | apply State.stall_kept | apply Kept.ite) | split | (with_reducible refine Kept.ofEq (by assumption) ?_) | (with_reducible refine Kept.upd ?_ (by rfl)) | intro _

theorem execBemfSample_kept (a : Fin 8) (coilB : Bool) (e : BitVec 12) (s : State) {u : State} (h : execBemfSample a coilB e s = .next u) : Kept s u := by
  unfold execBemfSample at h
  cases h
  try dsimp only
  iterate 40 all_goals try first | (with_reducible first | exact Kept.refl _ | assumption | apply State.wr_kept | apply State.bumpSat_kept | apply State.unfrozen_kept | apply State.draw_kept | apply State.injectAt_kept | apply State.event_kept | apply State.setAxis_kept | apply State.onAxis_kept | apply State.stall_kept | apply Kept.ite) | split | (with_reducible refine Kept.ofEq (by assumption) ?_) | (with_reducible refine Kept.upd ?_ (by rfl)) | intro _

theorem State.bridgeFault_kept {s0 : State} (s : State) (a : Nat) (coilB short : Bool) (hs : Kept s0 s)  : Kept s0 (State.bridgeFault s a coilB short) := by
  refine hs.trans ?_
  clear hs
  unfold State.bridgeFault
  try dsimp only
  iterate 40 all_goals try first | (with_reducible first | exact Kept.refl _ | assumption | apply State.report_kept | apply State.faultAxis_kept | apply Kept.ite) | split | (with_reducible refine Kept.ofEq (by assumption) ?_)

theorem execOnPhaseEnd_kept (a : Fin 8) (coilB : Bool) (how : PhaseEnd) (s : State) {u : State} (h : execOnPhaseEnd a coilB how s = .next u) : Kept s u := by
  unfold execOnPhaseEnd at h
  cases h
  try dsimp only
  iterate 40 all_goals try first | (with_reducible first | exact Kept.refl _ | assumption | apply State.unfrozen_kept | apply State.injectAt_kept | apply State.onAxis_kept | apply State.bridgeFault_kept | apply Kept.ite) | split | (with_reducible refine Kept.ofEq (by assumption) ?_) | (with_reducible refine Kept.upd ?_ (by rfl)) | intro _

theorem execOffPhaseEnd_kept (a : Fin 8) (coilB : Bool) (s : State) {u : State} (h : execOffPhaseEnd a coilB s = .next u) : Kept s u := by
  unfold execOffPhaseEnd at h
  cases h
  try dsimp only
  iterate 40 all_goals try first | (with_reducible first | exact Kept.refl _ | assumption | apply State.unfrozen_kept | apply State.onAxis_kept | apply Kept.ite) | split | (with_reducible refine Kept.ofEq (by assumption) ?_) | (with_reducible refine Kept.upd ?_ (by rfl)) | intro _

theorem execRestDelay_kept (a : Fin 8) (s : State) {u : State} (h : execRestDelay a s = .next u) : Kept s u := by
  unfold execRestDelay at h
  cases h
  try dsimp only
  iterate 40 all_goals try first | (with_reducible first | exact Kept.refl _ | assumption | apply State.wr_kept | apply State.unfrozen_kept | apply State.onAxis_kept | apply Kept.ite) | split | (with_reducible refine Kept.ofEq (by assumption) ?_) | (with_reducible refine Kept.upd ?_ (by rfl)) | intro _

theorem State.motionOver_kept {s0 : State} (s : State) (a : Nat) (arrived : Bool) (hs : Kept s0 s)  : Kept s0 (State.motionOver s a arrived) := by
  refine hs.trans ?_
  clear hs
  unfold State.motionOver
  try dsimp only
  iterate 40 all_goals try first | (with_reducible first | exact Kept.refl _ | assumption | apply State.wr_kept | apply State.endMotion_kept | apply State.homeDone_kept | apply Kept.ite | apply Kept.foldl | apply Kept.foldlSnd) | split | (with_reducible refine Kept.ofEq (by assumption) ?_) | intro _

theorem State.follow_kept {s0 : State} (s : State) (lead : Nat) (xl sl dl : Int) (hs : Kept s0 s)  : Kept s0 (State.follow s lead xl sl dl) := by
  refine hs.trans ?_
  clear hs
  unfold State.follow
  try dsimp only
  iterate 40 all_goals try first | (with_reducible first | exact Kept.refl _ | assumption | apply State.onAxis_kept | apply State.showAxis_kept | apply State.setVact_kept | apply State.rechop_kept | apply Kept.ite | apply Kept.foldl | apply Kept.foldlSnd) | split | (with_reducible refine Kept.ofEq (by assumption) ?_) | (with_reducible refine Kept.upd ?_ (by rfl)) | intro _

theorem State.stepProfile_kept {s0 : State} (s : State) (a : Nat) (hs : Kept s0 s)  : Kept s0 (State.stepProfile s a) := by
  refine hs.trans ?_
  clear hs
  unfold State.stepProfile
  try dsimp only
  iterate 40 all_goals try first | (with_reducible first | exact Kept.refl _ | assumption | apply State.wrBit_kept | apply State.setAxis_kept | apply State.showAxis_kept | apply State.setVact_kept | apply State.rechop_kept | apply State.motionOver_kept | apply State.follow_kept | apply Kept.ite) | split | (with_reducible refine Kept.ofEq (by assumption) ?_)

theorem State.stepGear_kept {s0 : State} (s : State) (a : Nat) (g : Gearing) (hs : Kept s0 s)  : Kept s0 (State.stepGear s a g) := by
  refine hs.trans ?_
  clear hs
  unfold State.stepGear
  try dsimp only
  iterate 40 all_goals try first | (with_reducible first | exact Kept.refl _ | assumption | apply State.report_kept | apply State.injectAt_kept | apply State.setAxis_kept | apply State.onAxis_kept | apply State.showAxis_kept | apply State.setVact_kept | apply State.rechop_kept | apply State.motionEvent_kept | apply State.faultAxis_kept | apply Kept.ite) | split | (with_reducible refine Kept.ofEq (by assumption) ?_) | (with_reducible refine Kept.upd ?_ (by rfl)) | intro _

theorem State.stepAxis_kept {s0 : State} (s : State) (a : Nat) (hs : Kept s0 s)  : Kept s0 (State.stepAxis s a) := by
  refine hs.trans ?_
  clear hs
  unfold State.stepAxis
  try dsimp only
  iterate 40 all_goals try first | (with_reducible first | exact Kept.refl _ | assumption | apply State.rechop_kept | apply State.stepProfile_kept | apply State.stepGear_kept | apply Kept.ite) | split | (with_reducible refine Kept.ofEq (by assumption) ?_) | intro _

theorem State.nextUpdate_kept {s0 : State} (s : State) (a : Nat) (hs : Kept s0 s)  : Kept s0 (State.nextUpdate s a) := by
  refine hs.trans ?_
  clear hs
  unfold State.nextUpdate
  try dsimp only
  iterate 40 all_goals try first | (with_reducible first | exact Kept.refl _ | assumption | apply State.onAxis_kept | (refine Kept.upd ?_ (by rfl))) | intro _

theorem execProfileUpdate_kept (s : State) {u : State} (h : execProfileUpdate s = .next u) : Kept s u := by
  unfold execProfileUpdate at h
  cases h
  try dsimp only
  iterate 40 all_goals try first | (with_reducible first | exact Kept.refl _ | assumption | apply State.unfrozen_kept | apply State.checkDev_kept | apply State.stepAxis_kept | apply State.nextUpdate_kept | apply Kept.ite | apply Kept.foldl | apply Kept.foldlSnd) | split | (with_reducible refine Kept.ofEq (by assumption) ?_) | intro _

theorem State.unhold_kept {s0 : State} (s : State) (h : HeldMove) (hs : Kept s0 s)  : Kept s0 (State.unhold s h) := by
  refine hs.trans ?_
  clear hs
  unfold State.unhold
  try dsimp only
  iterate 40 all_goals try first | (with_reducible first | exact Kept.refl _ | assumption | apply State.wr_kept | apply State.onAxis_kept | apply Kept.ite | apply Kept.foldl | apply Kept.foldlSnd) | split | (with_reducible refine Kept.ofEq (by assumption) ?_) | (with_reducible refine Kept.upd ?_ (by rfl)) | intro _

theorem State.endHeld_kept {s0 : State} (s : State) (h : HeldMove) (status code : Nat) (hs : Kept s0 s)  : Kept s0 (State.endHeld s h status code) := by
  refine hs.trans ?_
  clear hs
  unfold State.endHeld
  try dsimp only
  iterate 40 all_goals try first | (with_reducible first | exact Kept.refl _ | assumption | apply State.endCommand_kept | apply Kept.ite) | split | (with_reducible refine Kept.ofEq (by assumption) ?_)

theorem State.passEnd_kept {s0 : State} (s : State) (a : Nat) (hs : Kept s0 s)  : Kept s0 (State.passEnd s a) := by
  refine hs.trans ?_
  clear hs
  unfold State.passEnd
  try dsimp only
  iterate 40 all_goals try first | (with_reducible first | exact Kept.refl _ | assumption | apply State.motionEvent_kept | apply State.takeMoves_kept | apply State.unhold_kept | apply State.endHeld_kept | apply Kept.ite) | split | (with_reducible refine Kept.ofEq (by assumption) ?_) | intro _

theorem State.holdMove_kept {s0 : State} (s : State) (h : HeldMove) (hs : Kept s0 s)  : Kept s0 (State.holdMove s h) := by
  refine hs.trans ?_
  clear hs
  unfold State.holdMove
  try dsimp only
  iterate 40 all_goals try first | (with_reducible first | exact Kept.refl _ | assumption | apply State.wr_kept | apply State.onAxis_kept | apply State.motionEvent_kept | apply State.unhold_kept | apply State.endHeld_kept | apply Kept.foldl | apply Kept.foldlSnd) | split | (with_reducible refine Kept.ofEq (by assumption) ?_) | (with_reducible refine Kept.upd ?_ (by rfl)) | intro _

theorem State.noteMoved_kept {s0 : State} (s : State) (l : List Nat) (hs : Kept s0 s)  : Kept s0 (State.noteMoved s l) := by
  refine hs.trans ?_
  clear hs
  unfold State.noteMoved
  try dsimp only
  iterate 40 all_goals try first | (with_reducible first | exact Kept.refl _ | assumption | apply State.onAxis_kept | apply Kept.foldl | apply Kept.foldlSnd | (refine Kept.upd ?_ (by rfl))) | intro _

theorem State.moveCommand_kept {s0 : State} (s : State) (mode : Nat) (act : State → Desc → State) (hs : Kept s0 s) (hact : ∀ x0 x1, Kept x0 (act x0 x1)) : Kept s0 (State.moveCommand s mode act) := by
  refine hs.trans ?_
  clear hs
  have hact' : ∀ s0 x0 x1, Kept s0 x0 → Kept s0 (act x0 x1) := fun _ x0 x1 k => k.trans (hact x0 x1)
  unfold State.moveCommand
  try dsimp only
  iterate 40 all_goals try first | (with_reducible first | exact Kept.refl _ | assumption | apply State.finish_kept | apply hact' | apply Kept.ite) | split | (with_reducible refine Kept.ofEq (by assumption) ?_)

theorem State.waitMove_kept {s0 : State} (s : State) (d : Desc) (l : List Nat) (hs : Kept s0 s)  : Kept s0 (State.waitMove s d l) := by
  refine hs.trans ?_
  clear hs
  unfold State.waitMove
  try dsimp only
  iterate 40 all_goals try first | with_reducible first | exact Kept.refl _ | assumption | apply State.beginCommand_kept

theorem execMovePosition_kept (s : State) {u : State} (h : execMovePosition s = .next u) : Kept s u := by
  unfold execMovePosition at h
  cases h
  try dsimp only
  iterate 40 all_goals try first | (with_reducible first | exact Kept.refl _ | assumption | apply State.unfrozen_kept | apply State.finish_kept | apply State.takeMoves_kept | apply State.holdMove_kept | apply State.noteMoved_kept | apply State.moveCommand_kept | apply State.waitMove_kept | apply Kept.ite) | split | (with_reducible refine Kept.ofEq (by assumption) ?_) | intro _

theorem State.takeGear_kept {s0 : State} (s : State) (a : Nat) (d : Desc) (hs : Kept s0 s)  : Kept s0 (State.takeGear s a d) := by
  refine hs.trans ?_
  clear hs
  unfold State.takeGear
  try dsimp only
  iterate 40 all_goals try first | (with_reducible first | exact Kept.refl _ | assumption | apply State.wr_kept | apply State.onAxis_kept | apply State.supersede_kept | apply State.leaveRest_kept | apply Kept.ite) | split | (with_reducible refine Kept.ofEq (by assumption) ?_) | (with_reducible refine Kept.upd ?_ (by rfl)) | intro _

theorem execMoveGear_kept (s : State) {u : State} (h : execMoveGear s = .next u) : Kept s u := by
  unfold execMoveGear at h
  cases h
  try dsimp only
  iterate 40 all_goals try first | (with_reducible first | exact Kept.refl _ | assumption | apply State.unfrozen_kept | apply State.finish_kept | apply State.noteMoved_kept | apply State.moveCommand_kept | apply State.takeGear_kept | apply Kept.ite) | split | (with_reducible refine Kept.ofEq (by assumption) ?_) | intro _

theorem execMoveSoftstop_kept (s : State) {u : State} (h : execMoveSoftstop s = .next u) : Kept s u := by
  unfold execMoveSoftstop at h
  cases h
  try dsimp only
  iterate 40 all_goals try first | (with_reducible first | exact Kept.refl _ | assumption | apply State.unfrozen_kept | apply State.finish_kept | apply State.onAxis_kept | apply State.softAxis_kept | apply State.moveCommand_kept | apply State.waitMove_kept | apply Kept.ite | apply Kept.foldl | apply Kept.foldlSnd) | split | (with_reducible refine Kept.ofEq (by assumption) ?_) | (with_reducible refine Kept.upd ?_ (by rfl)) | intro _

theorem State.takeHome_kept {s0 : State} (s : State) (a : Nat) (d : Desc) (hs : Kept s0 s)  : Kept s0 (State.takeHome s a d) := by
  refine hs.trans ?_
  clear hs
  unfold State.takeHome
  try dsimp only
  iterate 40 all_goals try first | (with_reducible first | exact Kept.refl _ | assumption | apply State.onAxis_kept | apply State.setTarget_kept | apply State.leaveRest_kept | apply Kept.ite) | split | (with_reducible refine Kept.ofEq (by assumption) ?_) | (with_reducible refine Kept.upd ?_ (by rfl)) | intro _

theorem execHome_kept (s : State) {u : State} (h : execHome s = .next u) : Kept s u := by
  unfold execHome at h
  cases h
  try dsimp only
  iterate 40 all_goals try first | (with_reducible first | exact Kept.refl _ | assumption | apply State.unfrozen_kept | apply State.finish_kept | apply State.noteMoved_kept | apply State.waitMove_kept | apply State.takeHome_kept | apply Kept.ite) | split | (with_reducible refine Kept.ofEq (by assumption) ?_) | intro _

theorem State.writeAxCfg_kept {s0 : State} (s : State) (m : Master) (a : Nat) (v : Word) (hs : Kept s0 s)  : Kept s0 (State.writeAxCfg s m a v) := by
  refine hs.trans ?_
  clear hs
  unfold State.writeAxCfg
  try dsimp only
  iterate 40 all_goals try first | (with_reducible first | exact Kept.refl _ | assumption | apply State.writeCode_kept | apply State.showAxis_kept | apply State.bridgesOn_kept | apply State.standstill_kept | apply State.faultAxis_kept | apply State.captureEnc_kept | apply Kept.ite) | split | (with_reducible refine Kept.ofEq (by assumption) ?_)

theorem State.writeDecel_kept {s0 : State} (s : State) (m : Master) (a : Nat) (high : Bool) (v : Word) (hs : Kept s0 s)  : Kept s0 (State.writeDecel s m a high v) := by
  refine hs.trans ?_
  clear hs
  unfold State.writeDecel
  try dsimp only
  iterate 40 all_goals try first | (with_reducible first | exact Kept.refl _ | assumption | apply State.writeCode_kept | apply State.onAxis_kept | apply Kept.ite) | split | (with_reducible refine Kept.ofEq (by assumption) ?_) | (with_reducible refine Kept.upd ?_ (by rfl)) | intro _

theorem State.writeAxCtl_kept {s0 : State} (s : State) (a : Nat) (v : Word) (hs : Kept s0 s)  : Kept s0 (State.writeAxCtl s a v) := by
  refine hs.trans ?_
  clear hs
  unfold State.writeAxCtl
  try dsimp only
  iterate 40 all_goals try first | (with_reducible first | exact Kept.refl _ | assumption | apply State.wr_kept | apply State.stopAxis_kept | apply State.softAxis_kept | apply State.setPosition_kept | apply Kept.ite) | split | (with_reducible refine Kept.ofEq (by assumption) ?_)

theorem execAxisStop_kept (m : Master) (a : Fin 8) (v : Word) (s : State) {u : State} (h : execAxisStop m a v s = .next u) : Kept s u := by
  unfold execAxisStop at h
  cases h
  try dsimp only
  iterate 40 all_goals try first | (with_reducible first | exact Kept.refl _ | assumption | apply State.unfrozen_kept | apply State.accessBy_kept | apply State.writeAxCtl_kept) | intro _

theorem execAxisSoftstop_kept (m : Master) (a : Fin 8) (v : Word) (s : State) {u : State} (h : execAxisSoftstop m a v s = .next u) : Kept s u := by
  unfold execAxisSoftstop at h
  cases h
  try dsimp only
  iterate 40 all_goals try first | (with_reducible first | exact Kept.refl _ | assumption | apply State.unfrozen_kept | apply State.accessBy_kept | apply State.writeAxCtl_kept) | intro _

theorem execSetPos_kept (m : Master) (a : Fin 8) (v : Word) (s : State) {u : State} (h : execSetPos m a v s = .next u) : Kept s u := by
  unfold execSetPos at h
  cases h
  try dsimp only
  iterate 40 all_goals try first | (with_reducible first | exact Kept.refl _ | assumption | apply State.unfrozen_kept | apply State.accessBy_kept | apply State.writeAxCtl_kept) | intro _

theorem State.writeTilCtl_kept {s0 : State} (s : State) (v : Word) (hs : Kept s0 s)  : Kept s0 (State.writeTilCtl s v) := by
  refine hs.trans ?_
  clear hs
  unfold State.writeTilCtl
  try dsimp only
  iterate 40 all_goals try first | (with_reducible first | exact Kept.refl _ | assumption | apply State.freezeOne_kept | apply Kept.ite | apply Kept.foldl | apply Kept.foldlSnd) | split | (with_reducible refine Kept.ofEq (by assumption) ?_) | intro _

theorem execStopAll_kept (m : Master) (v : Word) (s : State) {u : State} (h : execStopAll m v s = .next u) : Kept s u := by
  unfold execStopAll at h
  cases h
  try dsimp only
  iterate 40 all_goals try first | (with_reducible first | exact Kept.refl _ | assumption | apply State.unfrozen_kept | apply State.accessBy_kept | apply State.writeTilCtl_kept) | intro _

theorem State.onRake_kept {s0 : State} (s : State) (f : RakeSt → RakeSt) (hs : Kept s0 s)  : Kept s0 (State.onRake s f) := by
  refine hs.trans ?_
  clear hs
  unfold State.onRake
  try dsimp only
  iterate 40 all_goals try first | with_reducible first | exact Kept.refl _ | assumption | (refine Kept.upd ?_ (by rfl))

theorem State.restartQuiet_kept {s0 : State} (s : State) (sc : Nat) (hs : Kept s0 s)  : Kept s0 (State.restartQuiet s sc) := by
  refine hs.trans ?_
  clear hs
  unfold State.restartQuiet
  try dsimp only
  iterate 40 all_goals try first | (with_reducible first | exact Kept.refl _ | assumption | apply State.onRake_kept | (refine Kept.upd ?_ (by rfl))) | intro _

theorem State.scopeEvent_kept {s0 : State} (s : State) (sc kind src : Nat) (hs : Kept s0 s)  : Kept s0 (State.scopeEvent s sc kind src) := by
  refine hs.trans ?_
  clear hs
  unfold State.scopeEvent
  try dsimp only
  iterate 40 all_goals try first | with_reducible first | exact Kept.refl _ | assumption | apply State.event_kept

theorem State.faultScope_kept {s0 : State} (s : State) (sc kind src : Nat) (hs : Kept s0 s)  : Kept s0 (State.faultScope s sc kind src) := by
  refine hs.trans ?_
  clear hs
  unfold State.faultScope
  try dsimp only
  iterate 40 all_goals try first | (with_reducible first | exact Kept.refl _ | assumption | apply State.wr_kept | apply State.faultCtxs_kept | apply State.faultAxes_kept | apply State.scopeEvent_kept | apply Kept.ite) | split | (with_reducible refine Kept.ofEq (by assumption) ?_)

theorem State.onFatal_kept {s0 : State} (s : State) (sc src : Nat) (hs : Kept s0 s)  : Kept s0 (State.onFatal s sc src) := by
  refine hs.trans ?_
  clear hs
  unfold State.onFatal
  try dsimp only
  iterate 40 all_goals try first | with_reducible first | exact Kept.refl _ | assumption | apply State.restartQuiet_kept | apply State.faultScope_kept

theorem State.scopeOk_kept {s0 : State} (s : State) (sc kind : Nat) (hs : Kept s0 s)  : Kept s0 (State.scopeOk s sc kind) := by
  refine hs.trans ?_
  clear hs
  unfold State.scopeOk
  try dsimp only
  iterate 40 all_goals try first | (with_reducible first | exact Kept.refl _ | assumption | apply State.wr_kept | apply State.leaveFaulted_kept | apply State.scopeEvent_kept | apply Kept.foldl | apply Kept.foldlSnd) | intro _

theorem State.latchFirst_kept {s0 : State} (s : State) (r : Report) (cls : Nat) (hs : Kept s0 s)  : Kept s0 (State.latchFirst s r cls).2 := by
  refine hs.trans ?_
  clear hs
  unfold State.latchFirst
  try dsimp only
  iterate 40 all_goals try first | (with_reducible first | exact Kept.refl _ | assumption | apply State.setReg_kept | apply State.wr_kept | apply State.wr64_kept | apply Kept.ite) | split | (with_reducible refine Kept.ofEq (by assumption) ?_)

theorem State.countClass_kept {s0 : State} (s : State) (cls : Nat) (hs : Kept s0 s)  : Kept s0 (State.countClass s cls) := by
  refine hs.trans ?_
  clear hs
  unfold State.countClass
  try dsimp only
  iterate 40 all_goals try first | (with_reducible first | exact Kept.refl _ | assumption | apply State.bumpSat_kept) | split | (with_reducible refine Kept.ofEq (by assumption) ?_)

theorem State.pulseErrN_kept {s0 : State} (s : State) (cls : Nat) (hs : Kept s0 s)  : Kept s0 (State.pulseErrN s cls) := by
  refine hs.trans ?_
  clear hs
  unfold State.pulseErrN
  try dsimp only
  iterate 40 all_goals try first | (with_reducible first | exact Kept.refl _ | assumption | apply State.wr_kept | apply State.onRake_kept | apply Kept.ite) | split | (with_reducible refine Kept.ofEq (by assumption) ?_) | (with_reducible refine Kept.upd ?_ (by rfl)) | intro _

theorem State.rakeEvent_kept {s0 : State} (s : State) (r : Report) (cls sc : Nat) (first : Bool) (hs : Kept s0 s)  : Kept s0 (State.rakeEvent s r cls sc first) := by
  refine hs.trans ?_
  clear hs
  unfold State.rakeEvent
  try dsimp only
  iterate 40 all_goals try first | (with_reducible first | exact Kept.refl _ | assumption | apply State.event_kept | apply State.onRake_kept | apply Kept.ite) | split | (with_reducible refine Kept.ofEq (by assumption) ?_) | (with_reducible refine Kept.upd ?_ (by rfl)) | intro _

theorem State.showSource_kept {s0 : State} (s : State) (n : Nat) (hs : Kept s0 s)  : Kept s0 (State.showSource s n) := by
  refine hs.trans ?_
  clear hs
  unfold State.showSource
  try dsimp only
  iterate 40 all_goals try first | (with_reducible first | exact Kept.refl _ | assumption | apply State.wrBit_kept) | intro _

theorem State.beginLevel_kept {s0 : State} (s : State) (r : Report) (sc : Nat) (hs : Kept s0 s)  : Kept s0 (State.beginLevel s r sc) := by
  refine hs.trans ?_
  clear hs
  unfold State.beginLevel
  try dsimp only
  iterate 40 all_goals try first | (with_reducible first | exact Kept.refl _ | assumption | apply State.onRake_kept | apply State.showSource_kept | apply Kept.ite) | split | (with_reducible refine Kept.ofEq (by assumption) ?_) | (with_reducible refine Kept.upd ?_ (by rfl)) | intro _

theorem State.takeReport_kept {s0 : State} (s : State) (r : Report) (hs : Kept s0 s)  : Kept s0 (State.takeReport s r) := by
  refine hs.trans ?_
  clear hs
  unfold State.takeReport
  try dsimp only
  iterate 40 all_goals try first | (with_reducible first | exact Kept.refl _ | assumption | apply State.bumpSat_kept | apply State.onFatal_kept | apply State.latchFirst_kept | apply State.countClass_kept | apply State.pulseErrN_kept | apply State.rakeEvent_kept | apply State.beginLevel_kept | apply Kept.ite) | split | (with_reducible refine Kept.ofEq (by assumption) ?_)

theorem State.popReport_kept {s0 : State} (s : State) (i : Nat) (rest : List Report) (hs : Kept s0 s)  : Kept s0 (State.popReport s i rest) := by
  refine hs.trans ?_
  clear hs
  unfold State.popReport
  try dsimp only
  iterate 40 all_goals try first | (with_reducible first | exact Kept.refl _ | assumption | apply Kept.ite) | split | (with_reducible refine Kept.ofEq (by assumption) ?_) | (with_reducible refine Kept.upd ?_ (by rfl)) | intro _

theorem execCqEntryWrite_kept (s : State) {u : State} (h : execCqEntryWrite s = .next u) : Kept s u := by
  unfold execCqEntryWrite at h
  cases h
  try dsimp only
  iterate 40 all_goals try first | (with_reducible first | exact Kept.refl _ | assumption | apply State.unfrozen_kept | apply State.writeCqEntry_kept | apply Kept.ite) | split | (with_reducible refine Kept.ofEq (by assumption) ?_) | (with_reducible refine Kept.upd ?_ (by rfl)) | intro _

theorem execRakeReport_kept (s : State) {u : State} (h : execRakeReport s = .next u) : Kept s u := by
  unfold execRakeReport at h
  cases h
  try dsimp only
  iterate 40 all_goals try first | (with_reducible first | exact Kept.refl _ | assumption | apply State.unfrozen_kept | apply State.watchKeep_kept | apply State.freeze_kept | apply State.takeReport_kept | apply State.popReport_kept | apply Kept.ite) | split | (with_reducible refine Kept.ofEq (by assumption) ?_) | intro _

theorem State.endLevel_kept {s0 : State} (s : State) (p : Level → Bool) (hs : Kept s0 s)  : Kept s0 (State.endLevel s p) := by
  refine hs.trans ?_
  clear hs
  unfold State.endLevel
  try dsimp only
  iterate 40 all_goals try first | (with_reducible first | exact Kept.refl _ | assumption | apply State.onRake_kept | apply State.restartQuiet_kept | apply State.showSource_kept) | split | (with_reducible refine Kept.ofEq (by assumption) ?_) | (with_reducible refine Kept.upd ?_ (by rfl)) | intro _

theorem execLevelReportEnd_kept (src : Fin 1024) (low : Word) (rail : Bool) (s : State) {u : State} (h : execLevelReportEnd src low rail s = .next u) : Kept s u := by
  unfold execLevelReportEnd at h
  cases h
  try dsimp only
  iterate 40 all_goals try first | (with_reducible first | exact Kept.refl _ | assumption | apply State.unfrozen_kept | apply State.endLevel_kept) | intro _

theorem execTineLost_kept (i : Fin 27) (s : State) {u : State} (h : execTineLost i s = .next u) : Kept s u := by
  unfold execTineLost at h
  cases h
  try dsimp only
  iterate 40 all_goals try first | (with_reducible first | exact Kept.refl _ | assumption | apply State.unfrozen_kept | apply State.reportLevel_kept | apply Kept.ite) | split | (with_reducible refine Kept.ofEq (by assumption) ?_) | intro _

theorem execErrNPulseEnd_kept (s : State) {u : State} (h : execErrNPulseEnd s = .next u) : Kept s u := by
  unfold execErrNPulseEnd at h
  cases h
  try dsimp only
  iterate 40 all_goals try first | (with_reducible first | exact Kept.refl _ | assumption | apply State.wrBit_kept | apply State.onRake_kept | apply Kept.ite) | split | (with_reducible refine Kept.ofEq (by assumption) ?_) | (with_reducible refine Kept.upd ?_ (by rfl)) | intro _

theorem State.writeErrN_kept {s0 : State} (s : State) (m : Master) (v : Word) (hs : Kept s0 s)  : Kept s0 (State.writeErrN s m v) := by
  refine hs.trans ?_
  clear hs
  unfold State.writeErrN
  try dsimp only
  iterate 40 all_goals try first | (with_reducible first | exact Kept.refl _ | assumption | apply State.wr_kept | apply State.writeCode_kept | apply Kept.ite) | split | (with_reducible refine Kept.ofEq (by assumption) ?_)

theorem execErrNRelease_kept (m : Master) (v : Word) (s : State) {u : State} (h : execErrNRelease m v s = .next u) : Kept s u := by
  unfold execErrNRelease at h
  cases h
  try dsimp only
  iterate 40 all_goals try first | (with_reducible first | exact Kept.refl _ | assumption | apply State.unfrozen_kept | apply State.accessBy_kept | apply State.writeErrN_kept) | intro _

theorem State.writeRakeCtl_kept {s0 : State} (s : State) (v : Word) (hs : Kept s0 s)  : Kept s0 (State.writeRakeCtl s v) := by
  refine hs.trans ?_
  clear hs
  unfold State.writeRakeCtl
  try dsimp only
  iterate 40 all_goals try first | (with_reducible first | exact Kept.refl _ | assumption | apply State.wr_kept | apply Kept.ite) | split | (with_reducible refine Kept.ofEq (by assumption) ?_)

theorem execClrFirst_kept (m : Master) (v : Word) (s : State) {u : State} (h : execClrFirst m v s = .next u) : Kept s u := by
  unfold execClrFirst at h
  cases h
  try dsimp only
  iterate 40 all_goals try first | (with_reducible first | exact Kept.refl _ | assumption | apply State.unfrozen_kept | apply State.accessBy_kept | apply State.writeRakeCtl_kept) | intro _

theorem State.clearScope_kept {s0 : State} (s : State) (sc : Nat) (hs : Kept s0 s)  : Kept s0 (State.clearScope s sc) := by
  refine hs.trans ?_
  clear hs
  unfold State.clearScope
  try dsimp only
  iterate 40 all_goals try first | (with_reducible first | exact Kept.refl _ | assumption | apply State.onRake_kept | apply State.onFatal_kept | apply State.scopeOk_kept | apply Kept.ite) | split | (with_reducible refine Kept.ofEq (by assumption) ?_) | (with_reducible refine Kept.upd ?_ (by rfl)) | intro _

theorem State.forceScope_kept {s0 : State} (s : State) (sc : Nat) (hs : Kept s0 s)  : Kept s0 (State.forceScope s sc) := by
  refine hs.trans ?_
  clear hs
  unfold State.forceScope
  try dsimp only
  iterate 40 all_goals try first | (with_reducible first | exact Kept.refl _ | assumption | apply State.restartQuiet_kept | apply State.faultScope_kept | apply Kept.ite) | split | (with_reducible refine Kept.ofEq (by assumption) ?_)

theorem State.writeScope_kept {s0 : State} (s : State) (m : Master) (sc : Nat) (v : Word) (hs : Kept s0 s)  : Kept s0 (State.writeScope s m sc v) := by
  refine hs.trans ?_
  clear hs
  unfold State.writeScope
  try dsimp only
  iterate 40 all_goals try first | (with_reducible first | exact Kept.refl _ | assumption | apply State.writeCode_kept | apply State.clearScope_kept | apply State.forceScope_kept | apply Kept.ite) | split | (with_reducible refine Kept.ofEq (by assumption) ?_)

theorem execScopeClear_kept (m : Master) (sc : Fin 1024) (s : State) {u : State} (h : execScopeClear m sc s = .next u) : Kept s u := by
  unfold execScopeClear at h
  cases h
  try dsimp only
  iterate 40 all_goals try first | (with_reducible first | exact Kept.refl _ | assumption | apply State.unfrozen_kept | apply State.accessBy_kept | apply State.watchKeep_kept | apply State.writeScope_kept) | intro _

theorem execScopeForce_kept (m : Master) (sc : Fin 1024) (s : State) {u : State} (h : execScopeForce m sc s = .next u) : Kept s u := by
  unfold execScopeForce at h
  cases h
  try dsimp only
  iterate 40 all_goals try first | (with_reducible first | exact Kept.refl _ | assumption | apply State.unfrozen_kept | apply State.accessBy_kept | apply State.watchKeep_kept | apply State.writeScope_kept) | intro _

theorem State.thaw_kept {s0 : State} (s : State) (sc : Nat) (hs : Kept s0 s)  : Kept s0 (State.thaw s sc) := by
  refine hs.trans ?_
  clear hs
  unfold State.thaw
  try dsimp only
  iterate 40 all_goals try first | (with_reducible first | exact Kept.refl _ | assumption | apply State.wr_kept | apply State.bumpSat_kept | apply State.onRake_kept | apply State.scopeEvent_kept | apply State.scopeOk_kept | apply Kept.ite) | split | (with_reducible refine Kept.ofEq (by assumption) ?_) | (with_reducible refine Kept.upd ?_ (by rfl)) | intro _

theorem execThawTick_kept (s : State) {u : State} (h : execThawTick s = .next u) : Kept s u := by
  unfold execThawTick at h
  cases h
  try dsimp only
  iterate 40 all_goals try first | (with_reducible first | exact Kept.refl _ | assumption | apply State.unfrozen_kept | apply State.watchKeep_kept | apply State.thaw_kept | apply Kept.foldl | apply Kept.foldlSnd) | intro _

theorem State.writeInjCtl_kept {s0 : State} (s : State) (m : Master) (v : Word) (hs : Kept s0 s)  : Kept s0 (State.writeInjCtl s m v) := by
  refine hs.trans ?_
  clear hs
  unfold State.writeInjCtl
  try dsimp only
  iterate 40 all_goals try first | with_reducible first | exact Kept.refl _ | assumption | apply State.wrBit_kept | apply State.writeCode_kept | (refine Kept.upd ?_ (by rfl))

theorem execInjectionArm_kept (m : Master) (v : Word) (s : State) {u : State} (h : execInjectionArm m v s = .next u) : Kept s u := by
  unfold execInjectionArm at h
  cases h
  try dsimp only
  iterate 40 all_goals try first | (with_reducible first | exact Kept.refl _ | assumption | apply State.unfrozen_kept | apply State.accessBy_kept | apply State.writeInjCtl_kept) | intro _

theorem State.thermalEvent_kept {s0 : State} (s : State) (c kind old : Nat) (d3 : Int) (hs : Kept s0 s)  : Kept s0 (State.thermalEvent s c kind old d3) := by
  refine hs.trans ?_
  clear hs
  unfold State.thermalEvent
  try dsimp only
  iterate 40 all_goals try first | with_reducible first | exact Kept.refl _ | assumption | apply State.event_kept

theorem State.showChan_kept {s0 : State} (s : State) (c : Nat) (x : HkChan) (hot : Bool) (hs : Kept s0 s)  : Kept s0 (State.showChan s c x hot) := by
  refine hs.trans ?_
  clear hs
  unfold State.showChan
  try dsimp only
  iterate 40 all_goals try first | with_reducible first | exact Kept.refl _ | assumption | apply State.wr_kept | apply State.wrBit_kept | apply State.setChan_kept

theorem State.headLeaves_kept {s0 : State} (s : State) (c old : Nat) (hs : Kept s0 s)  : Kept s0 (State.headLeaves s c old) := by
  refine hs.trans ?_
  clear hs
  unfold State.headLeaves
  try dsimp only
  iterate 40 all_goals try first | (with_reducible first | exact Kept.refl _ | assumption | apply State.restartQuiet_kept | apply Kept.ite) | split | (with_reducible refine Kept.ofEq (by assumption) ?_) | (with_reducible refine Kept.upd ?_ (by rfl)) | intro _

theorem State.unfit_kept {s0 : State} (s : State) (c : Nat) (hs : Kept s0 s)  : Kept s0 (State.unfit s c) := by
  refine hs.trans ?_
  clear hs
  unfold State.unfit
  try dsimp only
  iterate 40 all_goals try first | (with_reducible first | exact Kept.refl _ | assumption | apply State.wr_kept | apply State.thermalEvent_kept | apply State.showChan_kept | apply State.headLeaves_kept | apply Kept.ite) | split | (with_reducible refine Kept.ofEq (by assumption) ?_)

theorem State.onOtp_kept {s0 : State} (s : State) (f : OtpSt → OtpSt) (hs : Kept s0 s)  : Kept s0 (State.onOtp s f) := by
  refine hs.trans ?_
  clear hs
  unfold State.onOtp
  try dsimp only
  iterate 40 all_goals try first | with_reducible first | exact Kept.refl _ | assumption | (refine Kept.upd ?_ (by rfl))

theorem State.fuseLate_kept {s0 : State} (s : State) (subject kind word : Nat) (hs : Kept s0 s)  : Kept s0 (State.fuseLate s subject kind word) := by
  refine hs.trans ?_
  clear hs
  unfold State.fuseLate
  try dsimp only
  iterate 40 all_goals try first | with_reducible first | exact Kept.refl _ | assumption | apply State.lateEvent_kept

theorem State.loadRegion_kept {s0 : State} (s : State) (r : Nat) (hs : Kept s0 s)  : Kept s0 (State.loadRegion s r) := by
  refine hs.trans ?_
  clear hs
  unfold State.loadRegion
  try dsimp only
  iterate 40 all_goals try first | (with_reducible first | exact Kept.refl _ | assumption | apply State.setReg_kept | apply State.onOtp_kept | apply State.fuseLate_kept | apply Kept.ite | apply Kept.foldl | apply Kept.foldlSnd) | split | (with_reducible refine Kept.ofEq (by assumption) ?_) | (with_reducible refine Kept.upd ?_ (by rfl)) | intro _

theorem State.loadPermafrost_kept {s0 : State} (s : State) (hs : Kept s0 s)  : Kept s0 (State.loadPermafrost s) := by
  refine hs.trans ?_
  clear hs
  unfold State.loadPermafrost
  try dsimp only
  iterate 40 all_goals try first | (with_reducible first | exact Kept.refl _ | assumption | apply State.wr_kept | apply State.draw_kept | apply State.onOtp_kept | apply State.fuseLate_kept | apply State.loadRegion_kept | apply Kept.ite | apply Kept.foldl | apply Kept.foldlSnd) | split | (with_reducible refine Kept.ofEq (by assumption) ?_) | (with_reducible refine Kept.upd ?_ (by rfl)) | intro _

theorem State.senseSupplies_kept {s0 : State} (s : State) (vqps core : Bool) (hs : Kept s0 s)  : Kept s0 (State.senseSupplies s vqps core) := by
  refine hs.trans ?_
  clear hs
  unfold State.senseSupplies
  try dsimp only
  iterate 40 all_goals try first | (with_reducible first | exact Kept.refl _ | assumption | apply State.wrBit_kept | apply State.onOtp_kept | (refine Kept.upd ?_ (by rfl))) | intro _

theorem State.beginWord_kept {s0 : State} (s : State) (w data : Nat) (mp : Bool) (hs : Kept s0 s)  : Kept s0 (State.beginWord s w data mp) := by
  refine hs.trans ?_
  clear hs
  unfold State.beginWord
  try dsimp only
  iterate 40 all_goals try first | (with_reducible first | exact Kept.refl _ | assumption | apply State.wr_kept | apply State.onOtp_kept | (refine Kept.upd ?_ (by rfl))) | intro _

theorem State.writeProgCtl_kept {s0 : State} (s : State) (m : Master) (v : Word) (hs : Kept s0 s)  : Kept s0 (State.writeProgCtl s m v) := by
  refine hs.trans ?_
  clear hs
  unfold State.writeProgCtl
  try dsimp only
  iterate 40 all_goals try first | (with_reducible first | exact Kept.refl _ | assumption | apply State.wr_kept | apply State.writeCode_kept | apply State.beginWord_kept | apply Kept.ite) | split | (with_reducible refine Kept.ofEq (by assumption) ?_)

theorem execProgramWord_kept (m : Master) (v : Word) (vqps core : Bool) (s : State) {u : State} (h : execProgramWord m v vqps core s = .next u) : Kept s u := by
  unfold execProgramWord at h
  cases h
  try dsimp only
  iterate 40 all_goals try first | (with_reducible first | exact Kept.refl _ | assumption | apply State.unfrozen_kept | apply State.accessBy_kept | apply State.senseSupplies_kept | apply State.writeProgCtl_kept) | intro _

theorem State.putOtp_kept {s0 : State} (s : State) (i strict lenient : Nat) (hs : Kept s0 s)  : Kept s0 (State.putOtp s i strict lenient) := by
  refine hs.trans ?_
  clear hs
  unfold State.putOtp
  try dsimp only
  iterate 40 all_goals try first | (with_reducible first | exact Kept.refl _ | assumption | apply State.onOtp_kept | (refine Kept.upd ?_ (by rfl))) | intro _

theorem State.verifyWord_kept {s0 : State} (s : State) (x : OtpWord) (strict lenient : Nat) (hs : Kept s0 s)  : Kept s0 (State.verifyWord s x strict lenient).2 := by
  refine hs.trans ?_
  clear hs
  unfold State.verifyWord
  try dsimp only
  iterate 40 all_goals try first | (with_reducible first | exact Kept.refl _ | assumption | apply State.wr_kept | apply State.event_kept | apply State.putOtp_kept | apply Kept.ite) | split | (with_reducible refine Kept.ofEq (by assumption) ?_) | intro _

theorem State.cutPulse_kept {s0 : State} (s : State) (hs : Kept s0 s)  : Kept s0 (State.cutPulse s) := by
  refine hs.trans ?_
  clear hs
  unfold State.cutPulse
  try dsimp only
  iterate 40 all_goals try first | (with_reducible first | exact Kept.refl _ | assumption | apply State.onOtp_kept | (refine Kept.upd ?_ (by rfl))) | intro _

theorem execProgrammingSupplyLeftRange_kept (vqps : Bool) (s : State) {u : State} (h : execProgrammingSupplyLeftRange vqps s = .next u) : Kept s u := by
  unfold execProgrammingSupplyLeftRange at h
  cases h
  try dsimp only
  iterate 40 all_goals try first | (with_reducible first | exact Kept.refl _ | assumption | apply State.wr_kept | apply State.onOtp_kept | apply State.cutPulse_kept | apply Kept.ite) | split | (with_reducible refine Kept.ofEq (by assumption) ?_) | (with_reducible refine Kept.upd ?_ (by rfl)) | intro _

theorem execLockSet_kept (m : Master) (v : Word) (s : State) {u : State} (h : execLockSet m v s = .next u) : Kept s u := by
  unfold execLockSet at h
  cases h
  try dsimp only
  iterate 40 all_goals try first | (with_reducible first | exact Kept.refl _ | assumption | apply State.writeCode_kept | apply State.unfrozen_kept | apply State.accessBy_kept) | intro _

theorem State.writePfCtl_kept {s0 : State} (s : State) (v : Word) (hs : Kept s0 s)  : Kept s0 (State.writePfCtl s v) := by
  refine hs.trans ?_
  clear hs
  unfold State.writePfCtl
  try dsimp only
  iterate 40 all_goals try first | (with_reducible first | exact Kept.refl _ | assumption | apply State.wr_kept | apply Kept.ite) | split | (with_reducible refine Kept.ofEq (by assumption) ?_)

theorem execMarginScan_kept (m : Master) (v : Word) (s : State) {u : State} (h : execMarginScan m v s = .next u) : Kept s u := by
  unfold execMarginScan at h
  cases h
  try dsimp only
  iterate 40 all_goals try first | (with_reducible first | exact Kept.refl _ | assumption | apply State.unfrozen_kept | apply State.accessBy_kept | apply State.writePfCtl_kept) | intro _

theorem execScanComplete_kept (s : State) {u : State} (h : execScanComplete s = .next u) : Kept s u := by
  unfold execScanComplete at h
  cases h
  try dsimp only
  iterate 40 all_goals try first | (with_reducible first | exact Kept.refl _ | assumption | apply State.setReg_kept | apply State.wr_kept | apply State.wrBit_kept | apply Kept.ite | apply Kept.foldl | apply Kept.foldlSnd) | split | (with_reducible refine Kept.ofEq (by assumption) ?_) | intro _

theorem State.norErase_kept {s0 : State} (s : State) (a n : Nat) (hs : Kept s0 s) : Kept s0 (s.norErase a n) :=
  hs.trans ⟨rfl, ⟨[], by simp [State.norErase]⟩, id, fun h => by dsimp only [State.norErase]; exact Store.wf_drop h _, id, id⟩

theorem State.norProgram_kept {s0 : State} (s : State) (a : Nat) (l : List Nat) (hs : Kept s0 s) : Kept s0 (s.norProgram a l) :=
  hs.trans ⟨rfl, ⟨[], by simp [State.norProgram]⟩, id, fun h => Store.wf_foldl_put h _ _ _, id, id⟩

theorem State.drawBytes_kept {s0 : State} (s : State) (k : Nat) (hs : Kept s0 s) :
    Kept s0 (s.drawBytes k).2 := by
  induction k generalizing s with
  | zero => exact hs
  | succ k ih => exact ih _ (State.draw_kept _ hs)


theorem State.norFail_kept {s0 : State} (s : State) (a n : Nat) (hs : Kept s0 s) : Kept s0 (s.norFail a n) := by
  refine State.report_kept _ _ _ (Kept.trans (State.drawBytes_kept s n hs) ?_)
  exact ⟨rfl, ⟨[], by simp⟩, id, fun h => Store.wf_foldl_put h _ (fun b : Nat × Nat => a + b.2) (fun _ b => BitVec.ofNat 8 b.1), id, id⟩

theorem State.eraseHeader_kept {s0 : State} (s : State) (i : Nat) (hs : Kept s0 s)  : Kept s0 (State.eraseHeader s i) := by
  refine hs.trans ?_
  clear hs
  unfold State.eraseHeader
  try dsimp only
  iterate 40 all_goals try first | with_reducible first | exact Kept.refl _ | assumption | apply State.norErase_kept | (refine Kept.upd ?_ (by rfl))

theorem State.spoilSlot_kept {s0 : State} (s : State) (i : Nat) (hs : Kept s0 s)  : Kept s0 (State.spoilSlot s i) := by
  refine hs.trans ?_
  clear hs
  unfold State.spoilSlot
  try dsimp only
  iterate 40 all_goals try first | (with_reducible first | exact Kept.refl _ | assumption | apply State.eraseHeader_kept | apply Kept.ite) | split | (with_reducible refine Kept.ofEq (by assumption) ?_) | (with_reducible refine Kept.upd ?_ (by rfl))

theorem State.dueErase_kept {s0 : State} (s : State) (hs : Kept s0 s)  : Kept s0 (State.dueErase s) := by
  refine hs.trans ?_
  clear hs
  unfold State.dueErase
  try dsimp only
  iterate 40 all_goals try first | (with_reducible first | exact Kept.refl _ | assumption | apply State.eraseHeader_kept | apply Kept.ite) | split | (with_reducible refine Kept.ofEq (by assumption) ?_)

theorem State.programs_kept {s0 : State} (f : Bool → State → State) (ok : Bool) (s : State) (hs : Kept s0 s) (hf : ∀ x0 x1, Kept x1 (f x0 x1)) : Kept s0 (State.programs f ok s) := by
  refine hs.trans ?_
  clear hs
  have hf' : ∀ s0 x0 x1, Kept s0 x1 → Kept s0 (f x0 x1) := fun _ x0 x1 k => k.trans (hf x0 x1)
  unfold State.programs
  try dsimp only
  iterate 40 all_goals try first | (with_reducible first | exact Kept.refl _ | assumption | apply State.injectAt_kept | apply State.dueErase_kept | apply hf') | intro _

theorem State.flashing_kept {s0 : State} (f : FlashAnswer → State → State) (r : FlashAnswer) (s : State) (hs : Kept s0 s) (hf : ∀ x0 x1, Kept x1 (f x0 x1)) : Kept s0 (State.flashing f r s) := by
  refine hs.trans ?_
  clear hs
  have hf' : ∀ s0 x0 x1, Kept s0 x1 → Kept s0 (f x0 x1) := fun _ x0 x1 k => k.trans (hf x0 x1)
  unfold State.flashing
  try dsimp only
  iterate 40 all_goals try first | (with_reducible first | exact Kept.refl _ | assumption | apply State.injectAt_kept | apply hf' | apply Kept.ite) | split | (with_reducible refine Kept.ofEq (by assumption) ?_) | intro _

theorem State.writeRecord_kept {s0 : State} (s : State) (r : BootRec) (hs : Kept s0 s)  : Kept s0 (State.writeRecord s r) := by
  refine hs.trans ?_
  clear hs
  unfold State.writeRecord
  try dsimp only
  iterate 40 all_goals try first | (with_reducible first | exact Kept.refl _ | assumption | apply State.norErase_kept | apply State.norProgram_kept) | split | (with_reducible refine Kept.ofEq (by assumption) ?_) | (with_reducible refine Kept.upd ?_ (by rfl))

theorem State.loadMpMemory_kept {s0 : State} (s : State) (slot : Nat) (hs : Kept s0 s) : Kept s0 (s.loadMpMemory slot) := by
  unfold State.loadMpMemory
  dsimp only
  split
  · exact hs
  · refine Kept.foldl _ hs ?_
    intro s x
    exact ⟨rfl, ⟨[], by simp⟩, id, id, fun h => Store.wf_foldl_put h _ _ _, id⟩

theorem State.compact_kept {s0 : State} (s : State) (c : Nat) (hs : Kept s0 s)  : Kept s0 (State.compact s c) := by
  refine hs.trans ?_
  clear hs
  unfold State.compact
  try dsimp only
  iterate 40 all_goals try first | (with_reducible first | exact Kept.refl _ | assumption | apply State.norErase_kept | apply State.norProgram_kept | apply Kept.foldl | apply Kept.foldlSnd) | intro _

theorem State.withPage_kept {s0 : State} (s : State) (c : Nat) (hs : Kept s0 s)  : Kept s0 (State.withPage s c) := by
  refine hs.trans ?_
  clear hs
  unfold State.withPage
  try dsimp only
  iterate 40 all_goals try first | (with_reducible first | exact Kept.refl _ | assumption | apply State.compact_kept | apply Kept.ite) | split | (with_reducible refine Kept.ofEq (by assumption) ?_)

theorem State.writeSetting_kept {s0 : State} (s : State) (c key fmt : Nat) (value : List Nat) (hs : Kept s0 s)  : Kept s0 (State.writeSetting s c key fmt value) := by
  refine hs.trans ?_
  clear hs
  unfold State.writeSetting
  try dsimp only
  iterate 40 all_goals try first | (with_reducible first | exact Kept.refl _ | assumption | apply State.norProgram_kept | apply State.withPage_kept | apply Kept.foldl | apply Kept.foldlSnd) | intro _

theorem State.putSetting_kept {s0 : State} (s : State) (key : Nat) (value : List Nat) (ok : Bool) (hs : Kept s0 s)  : Kept s0 (State.putSetting s key value ok) := by
  refine hs.trans ?_
  clear hs
  unfold State.putSetting
  try dsimp only
  iterate 40 all_goals try first | (with_reducible first | exact Kept.refl _ | assumption | apply State.norFail_kept | apply State.withPage_kept | apply State.writeSetting_kept | apply Kept.ite) | split | (with_reducible refine Kept.ofEq (by assumption) ?_)

theorem State.migrate_kept {s0 : State} (s : State) (slot : Nat) (r : BootRec) (hs : Kept s0 s)  : Kept s0 (State.migrate s slot r) := by
  refine hs.trans ?_
  clear hs
  unfold State.migrate
  try dsimp only
  iterate 40 all_goals try first | (with_reducible first | exact Kept.refl _ | assumption | apply State.norErase_kept | apply State.drawBytes_kept | apply State.writeSetting_kept | apply Kept.ite | apply Kept.foldl | apply Kept.foldlSnd) | split | (with_reducible refine Kept.ofEq (by assumption) ?_) | intro _

theorem State.setCons_kept {s0 : State} (s : State) (p : Nat) (x : ConsSt) (hs : Kept s0 s)  : Kept s0 (State.setCons s p x) := by
  refine hs.trans ?_
  clear hs
  unfold State.setCons
  try dsimp only
  iterate 40 all_goals try first | (with_reducible first | exact Kept.refl _ | assumption | (refine Kept.upd ?_ (by rfl))) | intro _

theorem State.readInk_kept {s0 : State} (s : State) (p : Nat) (hs : Kept s0 s)  : Kept s0 (State.readInk s p) := by
  refine hs.trans ?_
  clear hs
  unfold State.readInk
  try dsimp only
  iterate 40 all_goals try first | (with_reducible first | exact Kept.refl _ | assumption | apply State.wr64_kept | apply State.setCons_kept | apply Kept.ite) | split | (with_reducible refine Kept.ofEq (by assumption) ?_) | (with_reducible refine Kept.upd ?_ (by rfl)) | intro _

theorem execInkReading_kept (s : State) {u : State} (h : execInkReading s = .next u) : Kept s u := by
  unfold execInkReading at h
  cases h
  try dsimp only
  iterate 40 all_goals try first | (with_reducible first | exact Kept.refl _ | assumption | apply State.unfrozen_kept | apply State.readInk_kept | apply Kept.ite | apply Kept.foldl | apply Kept.foldlSnd) | split | (with_reducible refine Kept.ofEq (by assumption) ?_) | intro _

theorem State.consEvent_kept {s0 : State} (s : State) (p : Nat) (rec_ : Bool) (reason : Nat) (uid : List Nat) (hs : Kept s0 s)  : Kept s0 (State.consEvent s p rec_ reason uid) := by
  refine hs.trans ?_
  clear hs
  unfold State.consEvent
  try dsimp only
  iterate 40 all_goals try first | (with_reducible first | exact Kept.refl _ | assumption | apply State.event_kept | apply Kept.ite) | split | (with_reducible refine Kept.ofEq (by assumption) ?_)

theorem State.endBus_kept {s0 : State} (s : State) (p : Nat) (x : BusOp) (reason : Nat) (hs : Kept s0 s)  : Kept s0 (State.endBus s p x reason) := by
  refine hs.trans ?_
  clear hs
  unfold State.endBus
  try dsimp only
  iterate 40 all_goals try first | (with_reducible first | exact Kept.refl _ | assumption | apply State.wr_kept | apply State.endCommand_kept | apply State.setCons_kept | apply State.consEvent_kept) | split | (with_reducible refine Kept.ofEq (by assumption) ?_) | (with_reducible refine Kept.upd ?_ (by rfl))

theorem State.dropBus_kept {s0 : State} (s : State) (p : Nat) (hs : Kept s0 s)  : Kept s0 (State.dropBus s p) := by
  refine hs.trans ?_
  clear hs
  unfold State.dropBus
  try dsimp only
  iterate 40 all_goals try first | (with_reducible first | exact Kept.refl _ | assumption | apply State.wr_kept | apply State.setCons_kept) | split | (with_reducible refine Kept.ofEq (by assumption) ?_) | (with_reducible refine Kept.upd ?_ (by rfl))

theorem State.absentBus_kept {s0 : State} (s : State) (p : Nat) (x : BusOp) (hs : Kept s0 s)  : Kept s0 (State.absentBus s p x) := by
  refine hs.trans ?_
  clear hs
  unfold State.absentBus
  try dsimp only
  iterate 40 all_goals try first | (with_reducible first | exact Kept.refl _ | assumption | apply State.endCommand_kept | apply State.dropBus_kept) | split | (with_reducible refine Kept.ofEq (by assumption) ?_)

theorem State.busWrite_kept {s0 : State} (s : State) (p ptr : Nat) (l : List Nat) (hs : Kept s0 s)  : Kept s0 (State.busWrite s p ptr l) := by
  refine hs.trans ?_
  clear hs
  unfold State.busWrite
  try dsimp only
  iterate 40 all_goals try first | with_reducible first | exact Kept.refl _ | assumption | apply State.emit_kept

theorem State.challenge_kept {s0 : State} (s : State) (p cmd : Nat) (x : BusOp) (hs : Kept s0 s)  : Kept s0 (State.challenge s p cmd x) := by
  refine hs.trans ?_
  clear hs
  unfold State.challenge
  try dsimp only
  iterate 40 all_goals try first | with_reducible first | exact Kept.refl _ | assumption | apply State.drawBytes_kept | apply State.setCons_kept | apply State.busWrite_kept | (refine Kept.upd ?_ (by rfl))

theorem State.beginBus_kept {s0 : State} (s : State) (p : Nat) (x : BusOp) (hs : Kept s0 s)  : Kept s0 (State.beginBus s p x) := by
  refine hs.trans ?_
  clear hs
  unfold State.beginBus
  try dsimp only
  iterate 40 all_goals try first | (with_reducible first | exact Kept.refl _ | assumption | apply State.wr_kept | apply State.beginCommand_kept | apply State.setCons_kept) | split | (with_reducible refine Kept.ofEq (by assumption) ?_) | (with_reducible refine Kept.upd ?_ (by rfl))

theorem State.beginAuth_kept {s0 : State} (s : State) (p : Nat) (d : Option Desc) (dev : BusAnswer) (hs : Kept s0 s)  : Kept s0 (State.beginAuth s p d dev) := by
  refine hs.trans ?_
  clear hs
  unfold State.beginAuth
  try dsimp only
  iterate 40 all_goals try first | (with_reducible first | exact Kept.refl _ | assumption | apply State.wr64_kept | apply State.endBus_kept | apply State.challenge_kept | apply State.beginBus_kept | apply Kept.ite) | split | (with_reducible refine Kept.ofEq (by assumption) ?_) | (with_reducible refine Kept.upd ?_ (by rfl)) | intro _

theorem State.beginRecord_kept {s0 : State} (s : State) (p : Nat) (d : Option Desc) (dev : BusAnswer) (hs : Kept s0 s)  : Kept s0 (State.beginRecord s p d dev) := by
  refine hs.trans ?_
  clear hs
  unfold State.beginRecord
  try dsimp only
  iterate 40 all_goals try first | (with_reducible first | exact Kept.refl _ | assumption | apply State.setCons_kept | apply State.endBus_kept | apply State.busWrite_kept | apply State.beginBus_kept) | split | (with_reducible refine Kept.ofEq (by assumption) ?_) | (with_reducible refine Kept.upd ?_ (by rfl))

theorem State.busDone_kept {s0 : State} (s : State) (p : Nat) (x : BusOp) (data : List Nat) (hs : Kept s0 s)  : Kept s0 (State.busDone s p x data) := by
  refine hs.trans ?_
  clear hs
  unfold State.busDone
  try dsimp only
  iterate 40 all_goals try first | (with_reducible first | exact Kept.refl _ | assumption | apply State.setReg_kept | apply State.setCons_kept | apply State.endBus_kept | apply State.challenge_kept | apply Kept.ite) | split | (with_reducible refine Kept.ofEq (by assumption) ?_) | (with_reducible refine Kept.upd ?_ (by rfl))

theorem execIdentityStatusPoll_kept (p : Fin 16) (r : PollAnswer) (s : State) {u : State} (h : execIdentityStatusPoll p r s = .next u) : Kept s u := by
  unfold execIdentityStatusPoll at h
  cases h
  try dsimp only
  iterate 40 all_goals try first | (with_reducible first | exact Kept.refl _ | assumption | apply State.unfrozen_kept | apply State.setCons_kept | apply State.endBus_kept | apply State.absentBus_kept | apply State.busDone_kept | apply Kept.ite) | split | (with_reducible refine Kept.ofEq (by assumption) ?_) | (with_reducible refine Kept.upd ?_ (by rfl)) | intro _

theorem execClockStretchTimeout_kept (p : Fin 16) (s : State) {u : State} (h : execClockStretchTimeout p s = .next u) : Kept s u := by
  unfold execClockStretchTimeout at h
  cases h
  try dsimp only
  iterate 40 all_goals try first | (with_reducible first | exact Kept.refl _ | assumption | apply State.unfrozen_kept | apply State.endBus_kept | apply State.absentBus_kept | apply Kept.ite) | split | (with_reducible refine Kept.ofEq (by assumption) ?_) | intro _

theorem execConsAuth_kept (auto : Option (Fin 16)) (dev : BusAnswer) (s : State) {u : State} (h : execConsAuth auto dev s = .next u) : Kept s u := by
  unfold execConsAuth at h
  cases h
  try dsimp only
  iterate 40 all_goals try first | (with_reducible first | exact Kept.refl _ | assumption | apply State.unfrozen_kept | apply State.finish_kept | apply State.setCons_kept | apply State.beginAuth_kept | apply Kept.ite) | split | (with_reducible refine Kept.ofEq (by assumption) ?_) | (with_reducible refine Kept.upd ?_ (by rfl)) | intro _

theorem execConsRecord_kept (dev : BusAnswer) (s : State) {u : State} (h : execConsRecord dev s = .next u) : Kept s u := by
  unfold execConsRecord at h
  cases h
  try dsimp only
  iterate 40 all_goals try first | (with_reducible first | exact Kept.refl _ | assumption | apply State.wr_kept | apply State.unfrozen_kept | apply State.finish_kept | apply State.consEvent_kept | apply State.beginRecord_kept | apply Kept.ite) | split | (with_reducible refine Kept.ofEq (by assumption) ?_) | intro _

theorem execRecordDue_kept (p : Fin 16) (dev : BusAnswer) (s : State) {u : State} (h : execRecordDue p dev s = .next u) : Kept s u := by
  unfold execRecordDue at h
  cases h
  try dsimp only
  iterate 40 all_goals try first | (with_reducible first | exact Kept.refl _ | assumption | apply State.unfrozen_kept | apply State.beginRecord_kept | apply Kept.ite) | split | (with_reducible refine Kept.ofEq (by assumption) ?_) | intro _

theorem State.consBoot_kept {s0 : State} (start : Bool) (s : State) (p : Nat) (hs : Kept s0 s)  : Kept s0 (State.consBoot start s p) := by
  refine hs.trans ?_
  clear hs
  unfold State.consBoot
  try dsimp only
  iterate 40 all_goals try first | (with_reducible first | exact Kept.refl _ | assumption | apply State.setCons_kept | apply Kept.ite) | split | (with_reducible refine Kept.ofEq (by assumption) ?_) | (with_reducible refine Kept.upd ?_ (by rfl)) | intro _

theorem State.onSvc_kept {s0 : State} (s : State) (f : SvcSt → SvcSt) (hs : Kept s0 s)  : Kept s0 (State.onSvc s f) := by
  refine hs.trans ?_
  clear hs
  unfold State.onSvc
  try dsimp only
  iterate 40 all_goals try first | with_reducible first | exact Kept.refl _ | assumption | (refine Kept.upd ?_ (by rfl))

theorem State.updateEvent_kept {s0 : State} (s : State) (kind status src version slot : Nat) (hs : Kept s0 s)  : Kept s0 (State.updateEvent s kind status src version slot) := by
  refine hs.trans ?_
  clear hs
  unfold State.updateEvent
  try dsimp only
  iterate 40 all_goals try first | with_reducible first | exact Kept.refl _ | assumption | apply State.event_kept

theorem State.updateLate_kept {s0 : State} (s : State) (kind version slot : Nat) (hs : Kept s0 s)  : Kept s0 (State.updateLate s kind version slot) := by
  refine hs.trans ?_
  clear hs
  unfold State.updateLate
  try dsimp only
  iterate 40 all_goals try first | with_reducible first | exact Kept.refl _ | assumption | apply State.lateEvent_kept

theorem State.openSession_kept {s0 : State} (s : State) (x : Session) (hs : Kept s0 s)  : Kept s0 (State.openSession s x) := by
  refine hs.trans ?_
  clear hs
  unfold State.openSession
  try dsimp only
  iterate 40 all_goals try first | (with_reducible first | exact Kept.refl _ | assumption | apply State.draw_kept | apply State.setToken_kept | apply State.onSvc_kept | apply Kept.ite) | split | (with_reducible refine Kept.ofEq (by assumption) ?_) | (with_reducible refine Kept.upd ?_ (by rfl)) | intro _

theorem State.closeSession_kept {s0 : State} (s : State) (hs : Kept s0 s)  : Kept s0 (State.closeSession s) := by
  refine hs.trans ?_
  clear hs
  unfold State.closeSession
  try dsimp only
  iterate 40 all_goals try first | (with_reducible first | exact Kept.refl _ | assumption | apply State.releaseToken_kept | apply State.onSvc_kept | apply Kept.ite) | split | (with_reducible refine Kept.ofEq (by assumption) ?_) | (with_reducible refine Kept.upd ?_ (by rfl)) | intro _

theorem State.endSession_kept {s0 : State} (s : State) (hs : Kept s0 s)  : Kept s0 (State.endSession s) := by
  refine hs.trans ?_
  clear hs
  unfold State.endSession
  try dsimp only
  iterate 40 all_goals try first | (with_reducible first | exact Kept.refl _ | assumption | apply State.spoilSlot_kept | apply State.updateEvent_kept | apply State.closeSession_kept | apply Kept.ite) | split | (with_reducible refine Kept.ofEq (by assumption) ?_)

theorem State.endTunnel_kept {s0 : State} (s : State) (peer num : Nat) (hs : Kept s0 s)  : Kept s0 (State.endTunnel s peer num) := by
  refine hs.trans ?_
  clear hs
  unfold State.endTunnel
  try dsimp only
  iterate 40 all_goals try first | (with_reducible first | exact Kept.refl _ | assumption | apply State.endSession_kept | apply Kept.ite) | split | (with_reducible refine Kept.ofEq (by assumption) ?_)

end Sys2Proof.Machine
end

