-- ==== Sys2Proof/Laws/KeptRing.lean ====
section
/-! SUPPORT. `Kept` for the print ring, register reads and the loader: one lemma for each operation and each command. -/

namespace Sys2Proof.Machine

theorem State.onRing_kept {s0 : State} (s : State) (f : RingSt → RingSt) (hs : Kept s0 s)  : Kept s0 (State.onRing s f) := by
  refine hs.trans ?_
  clear hs
  unfold State.onRing
  try dsimp only
  iterate 40 all_goals try first | with_reducible first | exact Kept.refl _ | assumption | (refine Kept.upd ?_ (by rfl))

theorem State.topology_kept {s0 : State} (s : State) (subject kind who : Nat) (hs : Kept s0 s)  : Kept s0 (State.topology s subject kind who) := by
  refine hs.trans ?_
  clear hs
  unfold State.topology
  try dsimp only
  iterate 40 all_goals try first | (with_reducible first | exact Kept.refl _ | assumption | apply State.event_kept | apply Kept.ite) | split | (with_reducible refine Kept.ofEq (by assumption) ?_)

theorem State.newMaster_kept {s0 : State} (s : State) (hs : Kept s0 s)  : Kept s0 (State.newMaster s) := by
  refine hs.trans ?_
  clear hs
  unfold State.newMaster
  try dsimp only
  iterate 40 all_goals try first | (with_reducible first | exact Kept.refl _ | assumption | apply State.wr_kept | apply State.wrBit_kept | apply State.wr64_kept | apply State.onRing_kept | apply Kept.ite) | split | (with_reducible refine Kept.ofEq (by assumption) ?_) | (with_reducible refine Kept.upd ?_ (by rfl)) | intro _

theorem State.refreshRing_kept {s0 : State} (s : State) (hs : Kept s0 s)  : Kept s0 (State.refreshRing s) := by
  refine hs.trans ?_
  clear hs
  unfold State.refreshRing
  try dsimp only
  iterate 40 all_goals try first | (with_reducible first | exact Kept.refl _ | assumption | apply State.wr_kept | apply State.wr64_kept | apply State.onRing_kept | apply State.newMaster_kept | apply Kept.ite | apply Kept.foldl | apply Kept.foldlSnd) | split | (with_reducible refine Kept.ofEq (by assumption) ?_) | (with_reducible refine Kept.upd ?_ (by rfl)) | intro _

theorem State.settleKeep_kept {s0 : State} (s : State) (hs : Kept s0 s)  : Kept s0 (State.settleKeep s) := by
  refine hs.trans ?_
  clear hs
  unfold State.settleKeep
  try dsimp only
  iterate 40 all_goals try first | (with_reducible first | exact Kept.refl _ | assumption | apply State.topology_kept | apply Kept.ite) | split | (with_reducible refine Kept.ofEq (by assumption) ?_) | (with_reducible refine Kept.upd ?_ (by rfl))

theorem execHeartbeatLoss_kept (s : State) {u : State} (h : execHeartbeatLoss s = .next u) : Kept s u := by
  unfold execHeartbeatLoss at h
  cases h
  try dsimp only
  iterate 40 all_goals try first | (with_reducible first | exact Kept.refl _ | assumption | apply State.unfrozen_kept | apply State.settleKeep_kept | (refine Kept.upd ?_ (by rfl))) | intro _

theorem State.loseVenc_kept {s0 : State} (s : State) (k : Nat) (hs : Kept s0 s)  : Kept s0 (State.loseVenc s k) := by
  refine hs.trans ?_
  clear hs
  unfold State.loseVenc
  try dsimp only
  iterate 40 all_goals try first | (with_reducible first | exact Kept.refl _ | assumption | apply State.report_kept | apply State.stillTracker_kept | apply State.abortCtx_kept | apply State.onRing_kept | apply State.topology_kept | apply Kept.ite | apply Kept.foldl | apply Kept.foldlSnd) | split | (with_reducible refine Kept.ofEq (by assumption) ?_) | (with_reducible refine Kept.upd ?_ (by rfl)) | intro _

theorem State.awaitVenc_kept {s0 : State} (s : State) (k : Nat) (hs : Kept s0 s)  : Kept s0 (State.awaitVenc s k) := by
  refine hs.trans ?_
  clear hs
  unfold State.awaitVenc
  try dsimp only
  iterate 40 all_goals try first | (with_reducible first | exact Kept.refl _ | assumption | apply State.onRing_kept | (refine Kept.upd ?_ (by rfl))) | intro _

theorem State.settleVrx_kept {s0 : State} (old : State) (s : State) (hs : Kept s0 s)  : Kept s0 (State.settleVrx old s) := by
  refine hs.trans ?_
  clear hs
  unfold State.settleVrx
  try dsimp only
  iterate 40 all_goals try first | (with_reducible first | exact Kept.refl _ | assumption | apply State.onRing_kept | apply State.loseVenc_kept | apply State.awaitVenc_kept | apply Kept.ite | apply Kept.foldl | apply Kept.foldlSnd) | split | (with_reducible refine Kept.ofEq (by assumption) ?_) | (with_reducible refine Kept.upd ?_ (by rfl)) | intro _

theorem execVencLost_kept (k : Fin 8) (s : State) {u : State} (h : execVencLost k s = .next u) : Kept s u := by
  unfold execVencLost at h
  cases h
  try dsimp only
  iterate 40 all_goals try first | (with_reducible first | exact Kept.refl _ | assumption | apply State.unfrozen_kept | apply State.loseVenc_kept | apply Kept.ite) | split | (with_reducible refine Kept.ofEq (by assumption) ?_) | intro _

theorem State.endMailbox_kept {s0 : State} (s : State) (m result : Nat) (hs : Kept s0 s)  : Kept s0 (State.endMailbox s m result) := by
  refine hs.trans ?_
  clear hs
  unfold State.endMailbox
  try dsimp only
  iterate 40 all_goals try first | (with_reducible first | exact Kept.refl _ | assumption | apply State.wr_kept | apply State.onRing_kept | (refine Kept.upd ?_ (by rfl))) | intro _

theorem State.endMailboxes_kept {s0 : State} (s : State) (result : Nat) (hs : Kept s0 s)  : Kept s0 (State.endMailboxes s result) := by
  refine hs.trans ?_
  clear hs
  unfold State.endMailboxes
  try dsimp only
  iterate 40 all_goals try first | (with_reducible first | exact Kept.refl _ | assumption | apply State.endMailbox_kept | apply Kept.ite | apply Kept.foldl | apply Kept.foldlSnd) | split | (with_reducible refine Kept.ofEq (by assumption) ?_) | intro _

theorem State.writeRingCfg_kept {s0 : State} (s : State) (m : Master) (v : Word) (hs : Kept s0 s)  : Kept s0 (State.writeRingCfg s m v) := by
  refine hs.trans ?_
  clear hs
  unfold State.writeRingCfg
  try dsimp only
  iterate 40 all_goals try first | (with_reducible first | exact Kept.refl _ | assumption | apply State.wr_kept | apply State.writeCode_kept | apply State.draw_kept | apply State.onRing_kept | apply State.refreshRing_kept | apply State.settleKeep_kept | apply State.settleVrx_kept | apply Kept.ite) | split | (with_reducible refine Kept.ofEq (by assumption) ?_) | (with_reducible refine Kept.upd ?_ (by rfl)) | intro _

theorem execJoin_kept (m : Master) (v : Word) (s : State) {u : State} (h : execJoin m v s = .next u) : Kept s u := by
  unfold execJoin at h
  cases h
  try dsimp only
  iterate 40 all_goals try first | (with_reducible first | exact Kept.refl _ | assumption | apply State.unfrozen_kept | apply State.accessBy_kept | apply State.writeRingCfg_kept) | intro _

theorem State.rportDown_kept {s0 : State} (s : State) (p : Nat) (hs : Kept s0 s)  : Kept s0 (State.rportDown s p) := by
  refine hs.trans ?_
  clear hs
  unfold State.rportDown
  try dsimp only
  iterate 40 all_goals try first | (with_reducible first | exact Kept.refl _ | assumption | apply State.setReg_kept | apply State.wr_kept | apply State.report_kept | apply State.setRport_kept | apply State.topology_kept | apply State.refreshRing_kept | apply Kept.ite) | split | (with_reducible refine Kept.ofEq (by assumption) ?_) | (with_reducible refine Kept.upd ?_ (by rfl))

theorem execRingLinkDown_kept (p : Fin 2) (s : State) {u : State} (h : execRingLinkDown p s = .next u) : Kept s u := by
  unfold execRingLinkDown at h
  cases h
  try dsimp only
  iterate 40 all_goals try first | (with_reducible first | exact Kept.refl _ | assumption | apply State.unfrozen_kept | apply State.rportDown_kept | apply Kept.ite) | split | (with_reducible refine Kept.ofEq (by assumption) ?_) | intro _

theorem execPhyTrialExpiry_kept (p : Fin 2) (s : State) {u : State} (h : execPhyTrialExpiry p s = .next u) : Kept s u := by
  unfold execPhyTrialExpiry at h
  cases h
  try dsimp only
  iterate 40 all_goals try first | (with_reducible first | exact Kept.refl _ | assumption | apply State.unfrozen_kept | apply State.setRport_kept | apply Kept.ite) | split | (with_reducible refine Kept.ofEq (by assumption) ?_) | (with_reducible refine Kept.upd ?_ (by rfl)) | intro _

theorem State.writeRportCfg_kept {s0 : State} (s : State) (m : Master) (p : Nat) (v : Word) (hs : Kept s0 s)  : Kept s0 (State.writeRportCfg s m p v) := by
  refine hs.trans ?_
  clear hs
  unfold State.writeRportCfg
  try dsimp only
  iterate 40 all_goals try first | (with_reducible first | exact Kept.refl _ | assumption | apply State.writeCode_kept | apply State.setRport_kept | apply State.rportDown_kept | apply Kept.ite) | split | (with_reducible refine Kept.ofEq (by assumption) ?_) | (with_reducible refine Kept.upd ?_ (by rfl))

theorem State.startStation_kept {s0 : State} (s : State) (hs : Kept s0 s)  : Kept s0 (State.startStation s) := by
  refine hs.trans ?_
  clear hs
  unfold State.startStation
  try dsimp only
  iterate 40 all_goals try first | with_reducible first | exact Kept.refl _ | assumption | apply State.wr_kept | apply State.setRport_kept | apply State.settleKeep_kept | (refine Kept.upd ?_ (by rfl))

theorem State.askDelay_kept {s0 : State} (s : State) (p : Nat) (hs : Kept s0 s)  : Kept s0 (State.askDelay s p) := by
  refine hs.trans ?_
  clear hs
  unfold State.askDelay
  try dsimp only
  iterate 40 all_goals try first | (with_reducible first | exact Kept.refl _ | assumption | apply State.setRport_kept | apply State.ringSendOne_kept | apply Kept.ite) | split | (with_reducible refine Kept.ofEq (by assumption) ?_) | (with_reducible refine Kept.upd ?_ (by rfl))

theorem State.hearNeighbour_kept {s0 : State} (s : State) (p src vmax serial : Nat) (hs : Kept s0 s)  : Kept s0 (State.hearNeighbour s p src vmax serial) := by
  refine hs.trans ?_
  clear hs
  unfold State.hearNeighbour
  try dsimp only
  iterate 40 all_goals try first | (with_reducible first | exact Kept.refl _ | assumption | apply State.wr_kept | apply State.wrBit_kept | apply State.setRport_kept | apply State.ringSendAny_kept | apply State.topology_kept | apply State.refreshRing_kept | apply State.askDelay_kept | apply Kept.ite) | split | (with_reducible refine Kept.ofEq (by assumption) ?_) | (with_reducible refine Kept.upd ?_ (by rfl))

theorem State.hearSelf_kept {s0 : State} (s : State) (p serial : Nat) (hs : Kept s0 s)  : Kept s0 (State.hearSelf s p serial) := by
  refine hs.trans ?_
  clear hs
  unfold State.hearSelf
  try dsimp only
  iterate 40 all_goals try first | (with_reducible first | exact Kept.refl _ | assumption | apply State.wr_kept | apply State.setRport_kept | apply State.topology_kept | apply State.refreshRing_kept | apply State.endMailboxes_kept | apply Kept.ite) | split | (with_reducible refine Kept.ofEq (by assumption) ?_) | (with_reducible refine Kept.upd ?_ (by rfl))

theorem State.hearStation_kept {s0 : State} (s : State) (src : Nat) (master dup : Bool) (hs : Kept s0 s)  : Kept s0 (State.hearStation s src master dup) := by
  refine hs.trans ?_
  clear hs
  unfold State.hearStation
  try dsimp only
  iterate 40 all_goals try first | (with_reducible first | exact Kept.refl _ | assumption | apply State.setRsrc_kept | apply State.topology_kept | apply State.refreshRing_kept | apply Kept.ite) | split | (with_reducible refine Kept.ofEq (by assumption) ?_) | (with_reducible refine Kept.upd ?_ (by rfl))

theorem State.takeFrame_kept {s t : State} {p : RingMsg → Bool} {a : Admitted} (h : s.takeFrame p = some (a, t)) : Kept s t := by
  unfold State.takeFrame at h
  split at h
  · cases h
  · split at h
    · cases h
      exact State.onRing_kept _ _ (Kept.refl _)
    · cases h

theorem execHello_kept (s : State) {u : State} (h : execHello s = .next u) : Kept s u := by
  unfold execHello at h
  cases h
  try dsimp only
  iterate 40 all_goals try first | (with_reducible first | exact Kept.refl _ | assumption | apply State.unfrozen_kept | apply State.hearNeighbour_kept | apply State.hearSelf_kept | apply State.hearStation_kept | apply Kept.ite) | split | (with_reducible refine Kept.ofEq (by assumption) ?_) | (with_reducible exact State.takeFrame_kept (by assumption)) | intro _

theorem execHelloTimer_kept (ring : Bool) (s : State) {u : State} (h : execHelloTimer ring s = .next u) : Kept s u := by
  unfold execHelloTimer at h
  cases h
  try dsimp only
  iterate 40 all_goals try first | (with_reducible first | exact Kept.refl _ | assumption | apply State.unfrozen_kept | apply State.ringSendAny_kept | apply State.ringSendOne_kept | apply Kept.ite) | split | (with_reducible refine Kept.ofEq (by assumption) ?_) | intro _

theorem execRosterExpiry_kept (st : Fin 64) (s : State) {u : State} (h : execRosterExpiry st s = .next u) : Kept s u := by
  unfold execRosterExpiry at h
  cases h
  try dsimp only
  iterate 40 all_goals try first | (with_reducible first | exact Kept.refl _ | assumption | apply State.unfrozen_kept | apply State.freeTokensOf_kept | apply State.setRsrc_kept | apply State.topology_kept | apply State.refreshRing_kept | apply Kept.ite) | split | (with_reducible refine Kept.ofEq (by assumption) ?_) | intro _

theorem execRingOpened_kept (s : State) {u : State} (h : execRingOpened s = .next u) : Kept s u := by
  unfold execRingOpened at h
  cases h
  try dsimp only
  iterate 40 all_goals try first | (with_reducible first | exact Kept.refl _ | assumption | apply State.wr_kept | apply State.unfrozen_kept | apply State.setRport_kept | apply State.topology_kept | apply Kept.ite) | split | (with_reducible refine Kept.ofEq (by assumption) ?_) | (with_reducible refine Kept.upd ?_ (by rfl)) | intro _

theorem State.passPtp_kept {s0 : State} (s : State) (p : Nat) (f : RingFrame) (hs : Kept s0 s)  : Kept s0 (State.passPtp s p f).2 := by
  refine hs.trans ?_
  clear hs
  unfold State.passPtp
  try dsimp only
  iterate 40 all_goals try first | (with_reducible first | exact Kept.refl _ | assumption | apply State.setRport_kept | apply Kept.ite) | split | (with_reducible refine Kept.ofEq (by assumption) ?_) | (with_reducible refine Kept.upd ?_ (by rfl)) | intro _

theorem State.forward_kept {s0 : State} (s : State) (p : Nat) (f : RingFrame) (hs : Kept s0 s)  : Kept s0 (State.forward s p f) := by
  refine hs.trans ?_
  clear hs
  unfold State.forward
  try dsimp only
  iterate 40 all_goals try first | (with_reducible first | exact Kept.refl _ | assumption | apply State.queueFrame_kept | apply State.passPtp_kept | apply Kept.ite) | split | (with_reducible refine Kept.ofEq (by assumption) ?_) | (with_reducible refine Kept.upd ?_ (by rfl))

theorem State.admitFrame_kept {s0 : State} (s : State) (p : Nat) (f : RingFrame) (hs : Kept s0 s)  : Kept s0 (State.admitFrame s p f) := by
  refine hs.trans ?_
  clear hs
  unfold State.admitFrame
  try dsimp only
  iterate 40 all_goals try first | (with_reducible first | exact Kept.refl _ | assumption | apply State.ringSend_kept | apply State.onRing_kept | apply Kept.ite) | split | (with_reducible refine Kept.ofEq (by assumption) ?_) | (with_reducible refine Kept.upd ?_ (by rfl)) | intro _

theorem State.deliver_kept {s0 : State} (s : State) (p : Nat) (f : RingFrame) (hs : Kept s0 s)  : Kept s0 (State.deliver s p f) := by
  refine hs.trans ?_
  clear hs
  unfold State.deliver
  try dsimp only
  iterate 40 all_goals try first | (with_reducible first | exact Kept.refl _ | assumption | apply State.setRsrc_kept | apply State.admitFrame_kept | apply Kept.ite) | split | (with_reducible refine Kept.ofEq (by assumption) ?_)

theorem execRingFrame_kept (p : Fin 2) (fault : FrameFault) (f : RingFrame) (s : State) {u : State} (h : execRingFrame p fault f s = .next u) : Kept s u := by
  unfold execRingFrame at h
  cases h
  try dsimp only
  iterate 40 all_goals try first | (with_reducible first | exact Kept.refl _ | assumption | apply State.bump_kept | apply State.bumpSat_kept | apply State.unfrozen_kept | apply State.forward_kept | apply State.deliver_kept | apply Kept.ite) | split | (with_reducible refine Kept.ofEq (by assumption) ?_) | intro _

theorem State.applyVersion_kept {s0 : State} (s : State) (v epoch : Nat) (hs : Kept s0 s)  : Kept s0 (State.applyVersion s v epoch) := by
  refine hs.trans ?_
  clear hs
  unfold State.applyVersion
  try dsimp only
  iterate 40 all_goals try first | (with_reducible first | exact Kept.refl _ | assumption | apply State.wr_kept | apply State.settleProds_kept | apply State.endTunnel_kept | apply State.onRing_kept | apply State.topology_kept | apply State.settleVrx_kept | apply Kept.ite | apply Kept.foldl | apply Kept.foldlSnd) | split | (with_reducible refine Kept.ofEq (by assumption) ?_) | (with_reducible refine Kept.upd ?_ (by rfl)) | intro _

theorem State.onCommit_kept {s0 : State} (s : State) (v epoch act : Nat) (hs : Kept s0 s)  : Kept s0 (State.onCommit s v epoch act) := by
  refine hs.trans ?_
  clear hs
  unfold State.onCommit
  try dsimp only
  iterate 40 all_goals try first | (with_reducible first | exact Kept.refl _ | assumption | apply State.onRing_kept | apply State.applyVersion_kept | apply Kept.ite) | split | (with_reducible refine Kept.ofEq (by assumption) ?_) | (with_reducible refine Kept.upd ?_ (by rfl)) | intro _

theorem State.judgeProposal_kept {s0 : State} (s : State) (hs : Kept s0 s)  : Kept s0 (State.judgeProposal s) := by
  refine hs.trans ?_
  clear hs
  unfold State.judgeProposal
  try dsimp only
  iterate 40 all_goals try first | (with_reducible first | exact Kept.refl _ | assumption | apply State.ringSend_kept | apply State.onRing_kept | apply State.onCommit_kept | apply Kept.ite | apply Kept.foldl | apply Kept.foldlSnd) | split | (with_reducible refine Kept.ofEq (by assumption) ?_) | (with_reducible refine Kept.upd ?_ (by rfl)) | intro _

theorem execVersionPropose_kept (s : State) {u : State} (h : execVersionPropose s = .next u) : Kept s u := by
  unfold execVersionPropose at h
  cases h
  try dsimp only
  iterate 40 all_goals try first | (with_reducible first | exact Kept.refl _ | assumption | apply State.unfrozen_kept | apply State.ringSend_kept | apply State.onRing_kept | apply Kept.ite) | split | (with_reducible refine Kept.ofEq (by assumption) ?_) | (with_reducible refine Kept.upd ?_ (by rfl)) | intro _

theorem State.noteCopy_kept {s0 : State} (s : State) (v mask epoch : Nat) (hs : Kept s0 s)  : Kept s0 (State.noteCopy s v mask epoch) := by
  refine hs.trans ?_
  clear hs
  unfold State.noteCopy
  try dsimp only
  iterate 40 all_goals try first | (with_reducible first | exact Kept.refl _ | assumption | apply State.onRing_kept | apply State.judgeProposal_kept | apply Kept.ite) | split | (with_reducible refine Kept.ofEq (by assumption) ?_) | (with_reducible refine Kept.upd ?_ (by rfl)) | intro _

theorem State.passProposal_kept {s0 : State} (s : State) (a : Admitted) (v epoch leader mask : Nat) (hs : Kept s0 s)  : Kept s0 (State.passProposal s a v epoch leader mask) := by
  refine hs.trans ?_
  clear hs
  unfold State.passProposal
  try dsimp only
  iterate 40 all_goals try first | (with_reducible first | exact Kept.refl _ | assumption | apply State.queueFrame_kept | apply Kept.ite) | split | (with_reducible refine Kept.ofEq (by assumption) ?_) | (with_reducible refine Kept.upd ?_ (by rfl))

theorem execVersionAgree_kept (s : State) {u : State} (h : execVersionAgree s = .next u) : Kept s u := by
  unfold execVersionAgree at h
  cases h
  try dsimp only
  iterate 40 all_goals try first | (with_reducible first | exact Kept.refl _ | assumption | apply State.unfrozen_kept | apply State.onCommit_kept | apply State.noteCopy_kept | apply State.passProposal_kept | apply Kept.ite) | split | (with_reducible refine Kept.ofEq (by assumption) ?_) | (with_reducible exact State.takeFrame_kept (by assumption)) | intro _

theorem execVersionCollectTimeout_kept (s : State) {u : State} (h : execVersionCollectTimeout s = .next u) : Kept s u := by
  unfold execVersionCollectTimeout at h
  cases h
  try dsimp only
  iterate 40 all_goals try first | (with_reducible first | exact Kept.refl _ | assumption | apply State.unfrozen_kept | apply State.judgeProposal_kept | apply Kept.ite) | split | (with_reducible refine Kept.ofEq (by assumption) ?_) | intro _

theorem execVersionAct_kept (s : State) {u : State} (h : execVersionAct s = .next u) : Kept s u := by
  unfold execVersionAct at h
  cases h
  try dsimp only
  iterate 40 all_goals try first | (with_reducible first | exact Kept.refl _ | assumption | apply State.unfrozen_kept | apply State.applyVersion_kept | apply Kept.ite) | split | (with_reducible refine Kept.ofEq (by assumption) ?_) | intro _

theorem execSyncTimer_kept (s : State) {u : State} (h : execSyncTimer s = .next u) : Kept s u := by
  unfold execSyncTimer at h
  cases h
  try dsimp only
  iterate 40 all_goals try first | (with_reducible first | exact Kept.refl _ | assumption | apply State.unfrozen_kept | apply State.ringSend_kept | apply State.onRing_kept | apply Kept.ite) | split | (with_reducible refine Kept.ofEq (by assumption) ?_) | (with_reducible refine Kept.upd ?_ (by rfl)) | intro _

theorem execPeerDelayTimer_kept (p : Fin 2) (s : State) {u : State} (h : execPeerDelayTimer p s = .next u) : Kept s u := by
  unfold execPeerDelayTimer at h
  cases h
  try dsimp only
  iterate 40 all_goals try first | (with_reducible first | exact Kept.refl _ | assumption | apply State.unfrozen_kept | apply State.askDelay_kept | apply Kept.ite) | split | (with_reducible refine Kept.ofEq (by assumption) ?_) | intro _

theorem State.noteDelay_kept {s0 : State} (s : State) (p : Nat) (d : Int) (hs : Kept s0 s)  : Kept s0 (State.noteDelay s p d) := by
  refine hs.trans ?_
  clear hs
  unfold State.noteDelay
  try dsimp only
  iterate 40 all_goals try first | (with_reducible first | exact Kept.refl _ | assumption | apply State.wr_kept | apply State.setRport_kept | apply Kept.foldl | apply Kept.foldlSnd | (refine Kept.upd ?_ (by rfl))) | intro _

theorem State.servo_kept {s0 : State} (s : State) (hs : Kept s0 s)  : Kept s0 (State.servo s) := by
  refine hs.trans ?_
  clear hs
  unfold State.servo
  try dsimp only
  iterate 40 all_goals try first | (with_reducible first | exact Kept.refl _ | assumption | apply State.setReg_kept | apply State.draw_kept) | split | (with_reducible refine Kept.ofEq (by assumption) ?_)

theorem State.useSync_kept {s0 : State} (s : State) (ring : Int) (at_ : Nat) (hs : Kept s0 s)  : Kept s0 (State.useSync s ring at_) := by
  refine hs.trans ?_
  clear hs
  unfold State.useSync
  try dsimp only
  iterate 40 all_goals try first | (with_reducible first | exact Kept.refl _ | assumption | apply State.wr_kept | apply State.wr64_kept | apply State.onRing_kept | apply State.servo_kept | apply Kept.ite) | split | (with_reducible refine Kept.ofEq (by assumption) ?_) | (with_reducible refine Kept.upd ?_ (by rfl)) | intro _

theorem State.followMaster_kept {s0 : State} (s : State) (a : Admitted) (m : PtpMsg) (hs : Kept s0 s)  : Kept s0 (State.followMaster s a m) := by
  refine hs.trans ?_
  clear hs
  unfold State.followMaster
  try dsimp only
  iterate 40 all_goals try first | (with_reducible first | exact Kept.refl _ | assumption | apply State.onRing_kept | apply State.useSync_kept | apply Kept.ite) | split | (with_reducible refine Kept.ofEq (by assumption) ?_) | (with_reducible refine Kept.upd ?_ (by rfl)) | intro _

theorem execPtp_kept (s : State) {u : State} (h : execPtp s = .next u) : Kept s u := by
  unfold execPtp at h
  cases h
  try dsimp only
  iterate 40 all_goals try first | (with_reducible first | exact Kept.refl _ | assumption | apply State.unfrozen_kept | apply State.setRport_kept | apply State.ringSendOne_kept | apply State.onRing_kept | apply State.noteDelay_kept | apply State.followMaster_kept | apply Kept.ite) | split | (with_reducible refine Kept.ofEq (by assumption) ?_) | (with_reducible exact State.takeFrame_kept (by assumption)) | (with_reducible refine Kept.upd ?_ (by rfl)) | intro _

theorem execSyncsMissing_kept (s : State) {u : State} (h : execSyncsMissing s = .next u) : Kept s u := by
  unfold execSyncsMissing at h
  cases h
  try dsimp only
  iterate 40 all_goals try first | (with_reducible first | exact Kept.refl _ | assumption | apply State.wr_kept | apply State.unfrozen_kept | apply State.onRing_kept | apply Kept.ite) | split | (with_reducible refine Kept.ofEq (by assumption) ?_) | (with_reducible refine Kept.upd ?_ (by rfl)) | intro _

theorem State.edgeTo_kept {s0 : State} (s : State) (want : Nat → Bool) (t : Nat) (hs : Kept s0 s)  : Kept s0 (State.edgeTo s want t) := by
  refine hs.trans ?_
  clear hs
  unfold State.edgeTo
  try dsimp only
  iterate 40 all_goals try first | (with_reducible first | exact Kept.refl _ | assumption | apply State.setCtx_kept | apply Kept.ite | apply Kept.foldl | apply Kept.foldlSnd) | split | (with_reducible refine Kept.ofEq (by assumption) ?_) | (with_reducible refine Kept.upd ?_ (by rfl)) | intro _

theorem State.relayEdge_kept {s0 : State} (s : State) (n pol t : Nat) (hs : Kept s0 s)  : Kept s0 (State.relayEdge s n pol t) := by
  refine hs.trans ?_
  clear hs
  unfold State.relayEdge
  try dsimp only
  iterate 40 all_goals try first | (with_reducible first | exact Kept.refl _ | assumption | apply State.ringSend_kept | apply State.onRing_kept | apply Kept.ite | apply Kept.foldl | apply Kept.foldlSnd) | split | (with_reducible refine Kept.ofEq (by assumption) ?_) | (with_reducible refine Kept.upd ?_ (by rfl)) | intro _

theorem State.vpgoEdge_kept {s0 : State} (s : State) (k count t : Nat) (hs : Kept s0 s)  : Kept s0 (State.vpgoEdge s k count t) := by
  refine hs.trans ?_
  clear hs
  unfold State.vpgoEdge
  try dsimp only
  iterate 40 all_goals try first | (with_reducible first | exact Kept.refl _ | assumption | apply State.bumpSat_kept | apply State.onRing_kept | apply State.edgeTo_kept | apply Kept.ite) | split | (with_reducible refine Kept.ofEq (by assumption) ?_) | (with_reducible refine Kept.upd ?_ (by rfl)) | intro _

theorem execPgo_kept (s : State) {u : State} (h : execPgo s = .next u) : Kept s u := by
  unfold execPgo at h
  cases h
  try dsimp only
  iterate 40 all_goals try first | (with_reducible first | exact Kept.refl _ | assumption | apply State.bumpSat_kept | apply State.unfrozen_kept | apply State.vpgoEdge_kept | apply Kept.ite | apply Kept.foldl | apply Kept.foldlSnd) | split | (with_reducible refine Kept.ofEq (by assumption) ?_) | (with_reducible exact State.takeFrame_kept (by assumption)) | intro _

theorem execVencPublish_kept (due : BitVec 8) (s : State) {u : State} (h : execVencPublish due s = .next u) : Kept s u := by
  unfold execVencPublish at h
  cases h
  try dsimp only
  iterate 40 all_goals try first | (with_reducible first | exact Kept.refl _ | assumption | apply State.unfrozen_kept | apply State.ringSend_kept | apply State.onRing_kept | apply Kept.ite | apply Kept.foldl | apply Kept.foldlSnd) | split | (with_reducible refine Kept.ofEq (by assumption) ?_) | (with_reducible refine Kept.upd ?_ (by rfl)) | intro _

theorem State.vencSample_kept {s0 : State} (s : State) (k pos t : Nat) (hs : Kept s0 s)  : Kept s0 (State.vencSample s k pos t) := by
  refine hs.trans ?_
  clear hs
  unfold State.vencSample
  try dsimp only
  iterate 40 all_goals try first | (with_reducible first | exact Kept.refl _ | assumption | apply State.setTracker_kept | apply State.onRing_kept | apply State.awaitVenc_kept | apply Kept.ite) | split | (with_reducible refine Kept.ofEq (by assumption) ?_) | (with_reducible refine Kept.upd ?_ (by rfl)) | intro _

theorem execVenc_kept (s : State) {u : State} (h : execVenc s = .next u) : Kept s u := by
  unfold execVenc at h
  cases h
  try dsimp only
  iterate 40 all_goals try first | (with_reducible first | exact Kept.refl _ | assumption | apply State.bumpSat_kept | apply State.unfrozen_kept | apply State.vencSample_kept | apply Kept.ite | apply Kept.foldl | apply Kept.foldlSnd) | split | (with_reducible refine Kept.ofEq (by assumption) ?_) | (with_reducible exact State.takeFrame_kept (by assumption)) | intro _

theorem State.logTrack_kept {s0 : State} (s : State) (src ctx kind status : Nat) (reject valid : Bool) (seq pos t : Nat) (hs : Kept s0 s)  : Kept s0 (State.logTrack s src ctx kind status reject valid seq pos t) := by
  refine hs.trans ?_
  clear hs
  unfold State.logTrack
  try dsimp only
  iterate 40 all_goals try first | (with_reducible first | exact Kept.refl _ | assumption | apply State.setReg_kept | apply State.wr_kept | apply State.bump_kept | apply Kept.ite | apply Kept.foldl | apply Kept.foldlSnd) | split | (with_reducible refine Kept.ofEq (by assumption) ?_) | intro _

theorem execTrack_kept (s : State) {u : State} (h : execTrack s = .next u) : Kept s u := by
  unfold execTrack at h
  cases h
  try dsimp only
  iterate 40 all_goals try first | (with_reducible first | exact Kept.refl _ | assumption | apply State.unfrozen_kept | apply State.logTrack_kept) | split | (with_reducible refine Kept.ofEq (by assumption) ?_) | (with_reducible exact State.takeFrame_kept (by assumption)) | intro _

theorem State.setRelay_kept {s0 : State} (s : State) (i : Nat) (l : List Pulse) (hs : Kept s0 s)  : Kept s0 (State.setRelay s i l) := by
  refine hs.trans ?_
  clear hs
  unfold State.setRelay
  try dsimp only
  iterate 40 all_goals try first | (with_reducible first | exact Kept.refl _ | assumption | apply State.onRing_kept | (refine Kept.upd ?_ (by rfl))) | intro _

theorem State.relayPulse_kept {s0 : State} (s : State) (i : Nat) (t : Option Nat) (hs : Kept s0 s)  : Kept s0 (State.relayPulse s i t) := by
  refine hs.trans ?_
  clear hs
  unfold State.relayPulse
  try dsimp only
  iterate 40 all_goals try first | (with_reducible first | exact Kept.refl _ | assumption | apply State.bumpSat_kept | apply State.drivePulse_kept | apply State.setRelay_kept | apply Kept.ite) | split | (with_reducible refine Kept.ofEq (by assumption) ?_)

theorem State.keepVote_kept {s0 : State} (s : State) (v : Vote) (hs : Kept s0 s)  : Kept s0 (State.keepVote s v) := by
  refine hs.trans ?_
  clear hs
  unfold State.keepVote
  try dsimp only
  iterate 40 all_goals try first | (with_reducible first | exact Kept.refl _ | assumption | apply State.bumpSat_kept | apply State.onRing_kept | apply Kept.ite) | split | (with_reducible refine Kept.ofEq (by assumption) ?_) | (with_reducible refine Kept.upd ?_ (by rfl)) | intro _

theorem execReject_kept (s : State) {u : State} (h : execReject s = .next u) : Kept s u := by
  unfold execReject at h
  cases h
  try dsimp only
  iterate 40 all_goals try first | (with_reducible first | exact Kept.refl _ | assumption | apply State.unfrozen_kept | apply State.settleProds_kept | apply State.relayPulse_kept | apply State.keepVote_kept | apply Kept.ite | apply Kept.foldl | apply Kept.foldlSnd) | split | (with_reducible refine Kept.ofEq (by assumption) ?_) | (with_reducible exact State.takeFrame_kept (by assumption)) | intro _

theorem execVoteDeadline_kept (n : Fin 255) (s : State) {u : State} (h : execVoteDeadline n s = .next u) : Kept s u := by
  unfold execVoteDeadline at h
  cases h
  try dsimp only
  iterate 40 all_goals try first | (with_reducible first | exact Kept.refl _ | assumption | apply State.unfrozen_kept | apply State.settleProds_kept) | intro _

theorem execVoteExpiry_kept (s : State) {u : State} (h : execVoteExpiry s = .next u) : Kept s u := by
  unfold execVoteExpiry at h
  cases h
  try dsimp only
  iterate 40 all_goals try first | (with_reducible first | exact Kept.refl _ | assumption | apply State.unfrozen_kept | apply State.onRing_kept | apply Kept.ite) | split | (with_reducible refine Kept.ofEq (by assumption) ?_) | (with_reducible refine Kept.upd ?_ (by rfl)) | intro _

theorem State.takeSnaps_kept {s0 : State} (s : State) (m : Master) (b : BlockName) (copy : Nat) (base a : Nat) (hs : Kept s0 s)  : Kept s0 (State.takeSnaps s m b copy base a) := by
  refine hs.trans ?_
  clear hs
  unfold State.takeSnaps
  try dsimp only
  iterate 40 all_goals try first | (with_reducible first | exact Kept.refl _ | assumption | apply Kept.foldl | apply Kept.foldlSnd | (refine Kept.upd ?_ (by rfl))) | intro _

theorem State.readClears_kept {s0 : State} (s : State) (b : BlockName) (copy a : Nat) (hs : Kept s0 s)  : Kept s0 (State.readClears s b copy a) := by
  refine hs.trans ?_
  clear hs
  unfold State.readClears
  try dsimp only
  iterate 40 all_goals try first | (with_reducible first | exact Kept.refl _ | assumption | apply State.wr_kept) | split | (with_reducible refine Kept.ofEq (by assumption) ?_)

theorem State.measureLoad_kept {s0 : State} (s : State) (hs : Kept s0 s)  : Kept s0 (State.measureLoad s) := by
  refine hs.trans ?_
  clear hs
  unfold State.measureLoad
  try dsimp only
  iterate 40 all_goals try first | (with_reducible first | exact Kept.refl _ | assumption | apply State.wr_kept | apply State.draw_kept | apply Kept.ite) | split | (with_reducible refine Kept.ofEq (by assumption) ?_)

theorem State.readOpen_kept {s0 : State} (s : State) (m : Master) (b : BlockName) (copy off a : Nat) (hs : Kept s0 s)  : Kept s0 (State.readOpen s m b copy off a).2 := by
  refine hs.trans ?_
  clear hs
  unfold State.readOpen
  try dsimp only
  iterate 40 all_goals try first | (with_reducible first | exact Kept.refl _ | assumption | apply State.drawWord_kept | apply State.takeSnaps_kept | apply State.readClears_kept | apply State.measureLoad_kept | apply Kept.ite) | split | (with_reducible refine Kept.ofEq (by assumption) ?_)

theorem State.mpByte_kept {s0 : State} (s : State) (a : Nat) (hs : Kept s0 s)  : Kept s0 (State.mpByte s a).2 := by
  refine hs.trans ?_
  clear hs
  unfold State.mpByte
  try dsimp only
  iterate 40 all_goals try first | (with_reducible first | exact Kept.refl _ | assumption | apply State.draw_kept) | split | (with_reducible refine Kept.ofEq (by assumption) ?_) | intro _

theorem State.mpNext_kept {s0 : State} (a : Nat) (x : Nat × State) (i : Nat) (hs : Kept s0 x.2) : Kept s0 (State.mpNext a x i).2 :=
  State.mpByte_kept x.2 (a + i) hs

theorem State.mpWord_kept {s0 : State} (s : State) (a : Nat) (hs : Kept s0 s) : Kept s0 (s.mpWord a).2 :=
  Kept.foldlSnd (f := State.mpNext a) [0, 1, 2, 3] hs (fun x i => State.mpNext_kept a x i (Kept.refl _))

theorem State.readChecked_kept {s0 : State} (s : State) (m : Master) (a : Nat) (hs : Kept s0 s)  : Kept s0 (State.readChecked s m a).2 := by
  refine hs.trans ?_
  clear hs
  unfold State.readChecked
  try dsimp only
  iterate 40 all_goals try first | (with_reducible first | exact Kept.refl _ | assumption | apply State.reportBy_kept | apply State.readOpen_kept | apply State.mpWord_kept | apply Kept.ite) | split | (with_reducible refine Kept.ofEq (by assumption) ?_)

theorem State.readReg_kept {s0 : State} (s : State) (m : Master) (a : Nat) (hs : Kept s0 s)  : Kept s0 (State.readReg s m a).2 := by
  refine hs.trans ?_
  clear hs
  unfold State.readReg
  try dsimp only
  iterate 40 all_goals try first | (with_reducible first | exact Kept.refl _ | assumption | apply State.busCheck_kept | apply State.readChecked_kept | apply Kept.ite) | split | (with_reducible refine Kept.ofEq (by assumption) ?_) | intro _

theorem State.readRegs_kept {s0 : State} (s : State) (m : Master) (l : List Nat) (hs : Kept s0 s) : Kept s0 (s.readRegs m l).2 := by
  induction l generalizing s with
  | nil => exact hs
  | cons a t ih => exact ih _ (State.readReg_kept _ _ _ hs)

theorem State.readMem_kept {s0 : State} (s : State) (m : Master) (a len : Nat) (hs : Kept s0 s)  : Kept s0 (State.readMem s m a len).2 := by
  refine hs.trans ?_
  clear hs
  unfold State.readMem
  try dsimp only
  iterate 40 all_goals try first | (with_reducible first | exact Kept.refl _ | assumption | apply State.readDots_kept | apply State.readRegs_kept | apply Kept.ite) | split | (with_reducible refine Kept.ofEq (by assumption) ?_) | intro _

theorem execRegisterRead_kept (m : Master) (a : BusAddr) (len : Nat) (s : State) {u : State} (h : execRegisterRead m a len s = .next u) : Kept s u := by
  unfold execRegisterRead at h
  cases h
  try dsimp only
  iterate 40 all_goals try first | (with_reducible first | exact Kept.refl _ | assumption | apply State.unfrozen_kept | apply State.emit_kept | apply State.readMem_kept | apply Kept.foldl | apply Kept.foldlSnd) | intro _

theorem State.readBytes_kept {s0 : State} (m : Master) (k a n : Nat) (s : State) (hs : Kept s0 s) :
    Kept s0 (State.readBytes m k a n s).2 := by
  induction k generalizing a n s with
  | zero => exact hs
  | succ k ih =>
    unfold State.readBytes
    dsimp only
    split
    · exact hs
    · exact ih _ _ _ (State.readMem_kept _ _ _ _ hs)


theorem State.feed_kept {s0 : State} (s : State) (dev : Bool) (a n : Nat) (pre : List Nat) (src : HostRead) (hs : Kept s0 s)  : Kept s0 (State.feed s dev a n pre src).2 := by
  refine hs.trans ?_
  clear hs
  unfold State.feed
  try dsimp only
  iterate 40 all_goals try first | (with_reducible first | exact Kept.refl _ | assumption | apply State.readBytes_kept | apply Kept.ite) | split | (with_reducible refine Kept.ofEq (by assumption) ?_) | intro _

theorem State.setTunnel_kept {s0 : State} (s : State) (x : TunnelSession) (hs : Kept s0 s)  : Kept s0 (State.setTunnel s x) := by
  refine hs.trans ?_
  clear hs
  unfold State.setTunnel
  try dsimp only
  iterate 40 all_goals try first | (with_reducible first | exact Kept.refl _ | assumption | apply State.onRing_kept | apply Kept.ite) | split | (with_reducible refine Kept.ofEq (by assumption) ?_) | (with_reducible refine Kept.upd ?_ (by rfl)) | intro _

theorem State.dropTunnel_kept {s0 : State} (s : State) (peer num : Nat) (hs : Kept s0 s)  : Kept s0 (State.dropTunnel s peer num) := by
  refine hs.trans ?_
  clear hs
  unfold State.dropTunnel
  try dsimp only
  iterate 40 all_goals try first | (with_reducible first | exact Kept.refl _ | assumption | apply State.onRing_kept | (refine Kept.upd ?_ (by rfl))) | intro _

theorem State.closeTunnel_kept {s0 : State} (s : State) (peer num : Nat) (hs : Kept s0 s)  : Kept s0 (State.closeTunnel s peer num) := by
  refine hs.trans ?_
  clear hs
  unfold State.closeTunnel
  try dsimp only
  iterate 40 all_goals try first | (with_reducible first | exact Kept.refl _ | assumption | apply State.endTunnel_kept | apply State.dropTunnel_kept) | split | (with_reducible refine Kept.ofEq (by assumption) ?_)

theorem State.ackSegment_kept {s0 : State} (s : State) (peer num sseq : Nat) (hs : Kept s0 s)  : Kept s0 (State.ackSegment s peer num sseq) := by
  refine hs.trans ?_
  clear hs
  unfold State.ackSegment
  try dsimp only
  iterate 40 all_goals try first | with_reducible first | exact Kept.refl _ | assumption | apply State.ringSend_kept

theorem State.pumpTunnel_kept {s0 : State} (k peer num : Nat) (s : State) (hs : Kept s0 s) :
    Kept s0 (State.pumpTunnel k peer num s) := by
  induction k generalizing s with
  | zero => exact hs
  | succ k ih =>
    unfold State.pumpTunnel
    dsimp only
    iterate 40 all_goals try (first | with_reducible exact Kept.refl _ | with_reducible assumption | (with_reducible apply ih) | (with_reducible apply State.ringSend_kept) | (with_reducible apply State.setTunnel_kept) | (with_reducible apply Kept.ite) | (with_reducible apply Kept.foldl) | (with_reducible apply Kept.foldlSnd) | split | (with_reducible refine Kept.ofEq (by assumption) ?_) | (with_reducible refine Kept.upd ?_ (by rfl)) | intro _)


theorem State.sendTunnel_kept {s0 : State} (s : State) (peer num : Nat) (l : List Byte) (hs : Kept s0 s)  : Kept s0 (State.sendTunnel s peer num l) := by
  refine hs.trans ?_
  clear hs
  unfold State.sendTunnel
  try dsimp only
  iterate 40 all_goals try first | (with_reducible first | exact Kept.refl _ | assumption | apply State.setTunnel_kept | apply State.pumpTunnel_kept) | split | (with_reducible refine Kept.ofEq (by assumption) ?_) | (with_reducible refine Kept.upd ?_ (by rfl))

theorem State.onService_kept {s0 : State} (s : State) (peer num kind sseq ack : Nat) (data : List Byte) (hs : Kept s0 s)  : Kept s0 (State.onService s peer num kind sseq ack data) := by
  refine hs.trans ?_
  clear hs
  unfold State.onService
  try dsimp only
  iterate 40 all_goals try first | (with_reducible first | exact Kept.refl _ | assumption | apply State.onRing_kept | apply State.setTunnel_kept | apply State.closeTunnel_kept | apply State.ackSegment_kept | apply State.pumpTunnel_kept | apply Kept.ite) | split | (with_reducible refine Kept.ofEq (by assumption) ?_) | (with_reducible refine Kept.upd ?_ (by rfl)) | intro _

theorem execService_kept (s : State) {u : State} (h : execService s = .next u) : Kept s u := by
  unfold execService at h
  cases h
  try dsimp only
  iterate 40 all_goals try first | (with_reducible first | exact Kept.refl _ | assumption | apply State.unfrozen_kept | apply State.onService_kept) | split | (with_reducible refine Kept.ofEq (by assumption) ?_) | (with_reducible exact State.takeFrame_kept (by assumption)) | intro _

theorem execSegmentRetransmit_kept (station : Fin 64) (session : Byte) (s : State) {u : State} (h : execSegmentRetransmit station session s = .next u) : Kept s u := by
  unfold execSegmentRetransmit at h
  cases h
  try dsimp only
  iterate 40 all_goals try first | (with_reducible first | exact Kept.refl _ | assumption | apply State.unfrozen_kept | apply State.ringSend_kept | apply State.setTunnel_kept | apply State.closeTunnel_kept | apply Kept.ite) | split | (with_reducible refine Kept.ofEq (by assumption) ?_) | (with_reducible refine Kept.upd ?_ (by rfl)) | intro _

theorem State.reply_kept {s0 : State} (s : State) (q : Req) (status : Nat) (data : List Nat) (hs : Kept s0 s)  : Kept s0 (State.reply s q status data) := by
  refine hs.trans ?_
  clear hs
  unfold State.reply
  try dsimp only
  iterate 40 all_goals try first | (with_reducible first | exact Kept.refl _ | assumption | apply State.emit_kept | apply State.sendTunnel_kept | apply Kept.ite) | split | (with_reducible refine Kept.ofEq (by assumption) ?_) | intro _

theorem State.usbSeen_kept {s0 : State} (s : State) (hs : Kept s0 s)  : Kept s0 (State.usbSeen s) := by
  refine hs.trans ?_
  clear hs
  unfold State.usbSeen
  try dsimp only
  iterate 40 all_goals try first | (with_reducible first | exact Kept.refl _ | assumption | apply State.wr_kept | apply State.draw_kept | apply Kept.ite) | split | (with_reducible refine Kept.ofEq (by assumption) ?_)

theorem State.takeReq_kept {s t : State} {op : Nat} {q : LoaderReq} {r : Req} (h : s.takeReq op q = some (r, t)) : Kept s t := by
  unfold State.takeReq at h
  split at h
  · split at h
    · cases h
      exact State.usbSeen_kept _ (Kept.refl _)
    · cases h
  · split at h
    · cases h
    · split at h
      · split at h
        · cases h
          exact State.setTunnel_kept _ _ (Kept.refl _)
        · cases h
      · cases h

theorem State.serveLoader_kept {s0 : State} (s : State) (op : Nat) (q : LoaderReq) (f : State → Req → State) (hs : Kept s0 s)
    (hf : ∀ x r, Kept x (f x r)) : Kept s0 (s.serveLoader op q f) := by
  unfold State.serveLoader
  split
  · exact hs
  · refine (hs.trans (State.takeReq_kept ‹_›)).trans ?_
    split
    · exact hf _ _
    · exact State.reply_kept _ _ _ _ (Kept.refl _)

theorem State.inSession_kept {s0 : State} (s : State) (r : Req) (f : State → Session → State) (hs : Kept s0 s) (hf : ∀ x0 x1, Kept x0 (f x0 x1)) : Kept s0 (State.inSession s r f) := by
  refine hs.trans ?_
  clear hs
  have hf' : ∀ s0 x0 x1, Kept s0 x0 → Kept s0 (f x0 x1) := fun _ x0 x1 k => k.trans (hf x0 x1)
  unfold State.inSession
  try dsimp only
  iterate 40 all_goals try first | (with_reducible first | exact Kept.refl _ | assumption | apply State.onSvc_kept | apply State.reply_kept | apply hf' | apply Kept.ite) | split | (with_reducible refine Kept.ofEq (by assumption) ?_) | (with_reducible refine Kept.upd ?_ (by rfl)) | intro _

theorem State.setSession_kept {s0 : State} (s : State) (x : Session) (hs : Kept s0 s)  : Kept s0 (State.setSession s x) := by
  refine hs.trans ?_
  clear hs
  unfold State.setSession
  try dsimp only
  iterate 40 all_goals try first | (with_reducible first | exact Kept.refl _ | assumption | apply State.onSvc_kept | (refine Kept.upd ?_ (by rfl))) | intro _

theorem execSessionOpen_kept (q : LoaderReq) (s : State) {u : State} (h : execSessionOpen q s = .next u) : Kept s u := by
  unfold execSessionOpen at h
  cases h
  try dsimp only
  iterate 40 all_goals try first | (with_reducible first | exact Kept.refl _ | assumption | apply State.unfrozen_kept | apply State.updateEvent_kept | apply State.openSession_kept | apply State.endSession_kept | apply State.reply_kept | apply State.serveLoader_kept | apply Kept.ite) | split | (with_reducible refine Kept.ofEq (by assumption) ?_) | intro _

theorem execStatus_kept (q : LoaderReq) (s : State) {u : State} (h : execStatus q s = .next u) : Kept s u := by
  unfold execStatus at h
  cases h
  try dsimp only
  iterate 40 all_goals try first | (with_reducible first | exact Kept.refl _ | assumption | apply State.unfrozen_kept | apply State.reply_kept | apply State.serveLoader_kept | apply State.inSession_kept | apply Kept.ite) | split | (with_reducible refine Kept.ofEq (by assumption) ?_) | intro _

theorem execAbort_kept (q : LoaderReq) (s : State) {u : State} (h : execAbort q s = .next u) : Kept s u := by
  unfold execAbort at h
  cases h
  try dsimp only
  iterate 40 all_goals try first | (with_reducible first | exact Kept.refl _ | assumption | apply State.unfrozen_kept | apply State.endSession_kept | apply State.reply_kept | apply State.serveLoader_kept | apply State.inSession_kept) | intro _

theorem execSessionTimeout_kept (s : State) {u : State} (h : execSessionTimeout s = .next u) : Kept s u := by
  unfold execSessionTimeout at h
  cases h
  try dsimp only
  iterate 40 all_goals try first | (with_reducible first | exact Kept.refl _ | assumption | apply State.unfrozen_kept | apply State.endSession_kept | apply Kept.ite) | split | (with_reducible refine Kept.ofEq (by assumption) ?_) | intro _

theorem State.usbDetach_kept {s0 : State} (s : State) (hs : Kept s0 s)  : Kept s0 (State.usbDetach s) := by
  refine hs.trans ?_
  clear hs
  unfold State.usbDetach
  try dsimp only
  iterate 40 all_goals try first | (with_reducible first | exact Kept.refl _ | assumption | apply State.wr_kept | apply State.freeTokensOf_kept | apply State.endSession_kept | apply Kept.ite) | split | (with_reducible refine Kept.ofEq (by assumption) ?_) | intro _

theorem execUsbBusReset_kept (s : State) {u : State} (h : execUsbBusReset s = .next u) : Kept s u := by
  unfold execUsbBusReset at h
  cases h
  try dsimp only
  iterate 40 all_goals try first | (with_reducible first | exact Kept.refl _ | assumption | apply State.unfrozen_kept | apply State.usbDetach_kept | apply Kept.ite) | split | (with_reducible refine Kept.ofEq (by assumption) ?_) | intro _

theorem State.fillBytes_kept {s0 : State} (s : State) (l : List Nat) (n : Nat) (hs : Kept s0 s)  : Kept s0 (State.fillBytes s l n).2 := by
  refine hs.trans ?_
  clear hs
  unfold State.fillBytes
  try dsimp only
  iterate 40 all_goals try first | with_reducible first | exact Kept.refl _ | assumption | apply State.drawBytes_kept

theorem State.answerBad_kept {s0 : State} (s : State) (src num : Nat) (l : List Nat) (hs : Kept s0 s)  : Kept s0 (State.answerBad s src num l) := by
  refine hs.trans ?_
  clear hs
  unfold State.answerBad
  try dsimp only
  iterate 40 all_goals try first | with_reducible first | exact Kept.refl _ | assumption | apply State.reply_kept | apply State.fillBytes_kept

theorem execBadFrame_kept (q : LoaderJunk) (s : State) {u : State} (h : execBadFrame q s = .next u) : Kept s u := by
  unfold execBadFrame at h
  cases h
  try dsimp only
  iterate 40 all_goals try first | (with_reducible first | exact Kept.refl _ | assumption | apply State.unfrozen_kept | apply State.closeTunnel_kept | apply State.usbSeen_kept | apply State.answerBad_kept | apply Kept.ite) | split | (with_reducible refine Kept.ofEq (by assumption) ?_) | intro _

theorem execHeader_kept (q : LoaderReq) (ok : Bool) (s : State) {u : State} (h : execHeader q ok s = .next u) : Kept s u := by
  unfold execHeader at h
  cases h
  try dsimp only
  iterate 40 all_goals try first | (with_reducible first | exact Kept.refl _ | assumption | apply State.unfrozen_kept | apply State.norFail_kept | apply State.eraseHeader_kept | apply State.programs_kept | apply State.updateEvent_kept | apply State.reply_kept | apply State.serveLoader_kept | apply State.inSession_kept | apply State.setSession_kept | apply Kept.ite) | split | (with_reducible refine Kept.ofEq (by assumption) ?_) | (with_reducible refine Kept.upd ?_ (by rfl)) | intro _

theorem State.putChunk_kept {s0 : State} (s : State) (x : Session) (i : Nat) (data : List Nat) (hs : Kept s0 s) :
    Kept s0 (s.putChunk x i data).1 := by
  unfold State.putChunk
  dsimp only
  iterate 40 all_goals try (first | with_reducible exact Kept.refl _ | with_reducible assumption | (with_reducible apply State.norProgram_kept) | (with_reducible apply State.norErase_kept) | (with_reducible apply Kept.ite) | (with_reducible apply Kept.foldl) | (with_reducible apply Kept.foldlSnd) | split | (with_reducible refine Kept.ofEq (by assumption) ?_) | (with_reducible refine Kept.upd ?_ (by rfl)) | intro _)


theorem execChunk_kept (q : LoaderReq) (ok : Bool) (s : State) {u : State} (h : execChunk q ok s = .next u) : Kept s u := by
  unfold execChunk at h
  cases h
  try dsimp only
  iterate 40 all_goals try first | (with_reducible first | exact Kept.refl _ | assumption | apply State.unfrozen_kept | apply State.norFail_kept | apply State.programs_kept | apply State.reply_kept | apply State.serveLoader_kept | apply State.inSession_kept | apply State.setSession_kept | apply State.putChunk_kept | apply Kept.ite) | split | (with_reducible refine Kept.ofEq (by assumption) ?_) | (with_reducible refine Kept.upd ?_ (by rfl)) | intro _

theorem State.verified_kept {s0 : State} (s : State) (r : Req) (x : Session) (h : List Nat) (hs : Kept s0 s)  : Kept s0 (State.verified s r x h) := by
  refine hs.trans ?_
  clear hs
  unfold State.verified
  try dsimp only
  iterate 40 all_goals try first | with_reducible first | exact Kept.refl _ | assumption | apply State.updateEvent_kept | apply State.reply_kept | apply State.setSession_kept | (refine Kept.upd ?_ (by rfl))

theorem execVerify_kept (q : LoaderReq) (ok : Bool) (s : State) {u : State} (h : execVerify q ok s = .next u) : Kept s u := by
  unfold execVerify at h
  cases h
  try dsimp only
  iterate 40 all_goals try first | (with_reducible first | exact Kept.refl _ | assumption | apply State.unfrozen_kept | apply State.norProgram_kept | apply State.norFail_kept | apply State.programs_kept | apply State.reply_kept | apply State.serveLoader_kept | apply State.inSession_kept | apply State.setSession_kept | apply State.verified_kept | apply Kept.ite) | split | (with_reducible refine Kept.ofEq (by assumption) ?_) | (with_reducible refine Kept.upd ?_ (by rfl)) | intro _

theorem State.putArb_kept {s0 : State} (s : State) (l : List (Nat × Nat)) (outs : List Pulsed) (hs : Kept s0 s) :
    Kept s0 (s.putArb l outs) := by
  induction l generalizing s outs with
  | nil => exact hs
  | cons w t ih => exact ih _ _ (State.verifyWord_kept _ _ _ _ hs)


theorem State.advanceArb_kept {s0 : State} (s : State) (outs : List Pulsed) (hs : Kept s0 s)  : Kept s0 (State.advanceArb s outs) := by
  refine hs.trans ?_
  clear hs
  unfold State.advanceArb
  try dsimp only
  iterate 40 all_goals try first | (with_reducible first | exact Kept.refl _ | assumption | apply State.onSvc_kept | apply State.updateEvent_kept | apply State.putArb_kept | apply Kept.ite) | split | (with_reducible refine Kept.ofEq (by assumption) ?_) | (with_reducible refine Kept.upd ?_ (by rfl)) | intro _

theorem State.confirmImage_kept {s0 : State} (s : State) (rec_ : BootRec) (src : Nat) (outs : List Pulsed) (hs : Kept s0 s)  : Kept s0 (State.confirmImage s rec_ src outs) := by
  refine hs.trans ?_
  clear hs
  unfold State.confirmImage
  try dsimp only
  iterate 40 all_goals try first | (with_reducible first | exact Kept.refl _ | assumption | apply State.norErase_kept | apply State.writeRecord_kept | apply State.updateEvent_kept | apply State.advanceArb_kept | apply Kept.ite) | split | (with_reducible refine Kept.ofEq (by assumption) ?_) | (with_reducible refine Kept.upd ?_ (by rfl))

theorem execConfirm_kept (q : LoaderReq) (ok vqps core : Bool) (outs : List Pulsed) (s : State) {u : State} (h : execConfirm q ok vqps core outs s = .next u) : Kept s u := by
  unfold execConfirm at h
  cases h
  try dsimp only
  iterate 40 all_goals try first | (with_reducible first | exact Kept.refl _ | assumption | apply State.unfrozen_kept | apply State.senseSupplies_kept | apply State.norFail_kept | apply State.programs_kept | apply State.reply_kept | apply State.serveLoader_kept | apply State.inSession_kept | apply State.confirmImage_kept | apply Kept.ite) | split | (with_reducible refine Kept.ofEq (by assumption) ?_) | intro _

theorem execArbRetry_kept (vqps core : Bool) (outs : List Pulsed) (s : State) {u : State} (h : execArbRetry vqps core outs s = .next u) : Kept s u := by
  unfold execArbRetry at h
  cases h
  try dsimp only
  iterate 40 all_goals try first | (with_reducible first | exact Kept.refl _ | assumption | apply State.unfrozen_kept | apply State.senseSupplies_kept | apply State.advanceArb_kept | apply Kept.ite) | split | (with_reducible refine Kept.ofEq (by assumption) ?_) | intro _

theorem State.finishSetting_kept {s0 : State} (s : State) (c : MpCmd) (bytes : List Nat) (flash : FlashAnswer) (hs : Kept s0 s)  : Kept s0 (State.finishSetting s c bytes flash) := by
  refine hs.trans ?_
  clear hs
  unfold State.finishSetting
  try dsimp only
  iterate 40 all_goals try first | (with_reducible first | exact Kept.refl _ | assumption | apply State.endCommand_kept | apply State.holdFlash_kept | apply State.putSetting_kept) | split | (with_reducible refine Kept.ofEq (by assumption) ?_)

theorem execSettingsWrite_kept (src : HostRead) (flash : FlashAnswer) (s : State) {u : State} (h : execSettingsWrite src flash s = .next u) : Kept s u := by
  unfold execSettingsWrite at h
  cases h
  try dsimp only
  iterate 40 all_goals try first | (with_reducible first | exact Kept.refl _ | assumption | apply State.unfrozen_kept | apply State.endCommand_kept | apply State.holdCommand_kept | apply State.flashing_kept | apply State.feed_kept | apply State.finishSetting_kept | apply Kept.ite) | split | (with_reducible refine Kept.ofEq (by assumption) ?_) | intro _

end Sys2Proof.Machine
end

