-- ==== Sys2Proof/Laws/KeptSupply.lean ====
section
/-! SUPPORT. `Kept` for domains, restarts, supply and boot: one lemma for each operation and each command. -/

namespace Sys2Proof.Machine

theorem State.unwait_kept {s0 : State} (s : State) (hs : Kept s0 s)  : Kept s0 (State.unwait s) := by
  refine hs.trans ?_
  clear hs
  unfold State.unwait
  try dsimp only
  iterate 40 all_goals try first | (with_reducible first | exact Kept.refl _ | assumption | apply State.onAxis_kept | apply Kept.foldl | apply Kept.foldlSnd | (refine Kept.upd ?_ (by rfl))) | intro _

theorem State.cmdDone_kept {s0 : State} (s : State) (n : Nat) (hs : Kept s0 s)  : Kept s0 (State.cmdDone s n) := by
  refine hs.trans ?_
  clear hs
  unfold State.cmdDone
  try dsimp only
  iterate 40 all_goals try first | (with_reducible first | exact Kept.refl _ | assumption | (refine Kept.upd ?_ (by rfl))) | intro _

theorem State.stopWalk_kept {s0 : State} (s : State) (hs : Kept s0 s)  : Kept s0 (State.stopWalk s) := by
  refine hs.trans ?_
  clear hs
  unfold State.stopWalk
  try dsimp only
  iterate 40 all_goals try first | (with_reducible first | exact Kept.refl _ | assumption | apply State.wr_kept | apply State.cmdDone_kept) | split | (with_reducible refine Kept.ofEq (by assumption) ?_) | (with_reducible refine Kept.upd ?_ (by rfl))

theorem State.stopHome_kept {s0 : State} (s : State) (hs : Kept s0 s)  : Kept s0 (State.stopHome s) := by
  refine hs.trans ?_
  clear hs
  unfold State.stopHome
  try dsimp only
  iterate 40 all_goals try first | (with_reducible first | exact Kept.refl _ | assumption | apply State.wr_kept | apply State.stopAxis_kept | apply Kept.ite) | split | (with_reducible refine Kept.ofEq (by assumption) ?_)

theorem State.stopBus_kept {s0 : State} (s : State) (p : Nat) (hs : Kept s0 s)  : Kept s0 (State.stopBus s p) := by
  refine hs.trans ?_
  clear hs
  unfold State.stopBus
  try dsimp only
  iterate 40 all_goals try first | (with_reducible first | exact Kept.refl _ | assumption | apply State.draw_kept | apply State.dropBus_kept | apply State.cmdDone_kept | apply Kept.ite) | split | (with_reducible refine Kept.ofEq (by assumption) ?_)

theorem State.recordRetired_kept {s0 : State} (s : State) (ok : Bool) (hs : Kept s0 s)  : Kept s0 (State.recordRetired s ok) := by
  refine hs.trans ?_
  clear hs
  unfold State.recordRetired
  try dsimp only
  iterate 40 all_goals try first | (with_reducible first | exact Kept.refl _ | assumption | apply State.putSetting_kept | apply State.onSvc_kept | (refine Kept.upd ?_ (by rfl))) | intro _

theorem State.stopFlash_kept {s0 : State} (s : State) (hs : Kept s0 s)  : Kept s0 (State.stopFlash s) := by
  refine hs.trans ?_
  clear hs
  unfold State.stopFlash
  try dsimp only
  iterate 40 all_goals try first | (with_reducible first | exact Kept.refl _ | assumption | apply State.draw_kept | apply State.putSetting_kept | apply State.onSvc_kept | apply State.cmdDone_kept | apply State.recordRetired_kept | apply Kept.ite) | split | (with_reducible refine Kept.ofEq (by assumption) ?_) | (with_reducible refine Kept.upd ?_ (by rfl)) | intro _

theorem State.mpRestart_kept {s0 : State} (s : State) (cause : Nat) (hs : Kept s0 s)  : Kept s0 (State.mpRestart s cause) := by
  refine hs.trans ?_
  clear hs
  unfold State.mpRestart
  try dsimp only
  iterate 40 all_goals try first | (with_reducible first | exact Kept.refl _ | assumption | apply State.event_kept | apply State.freeTokensOf_kept | apply State.onOtp_kept | apply State.endSession_kept | apply State.unwait_kept | apply State.stopWalk_kept | apply State.stopHome_kept | apply State.stopBus_kept | apply State.stopFlash_kept | apply Kept.ite | apply Kept.foldl | apply Kept.foldlSnd) | split | (with_reducible refine Kept.ofEq (by assumption) ?_) | (with_reducible refine Kept.upd ?_ (by rfl)) | intro _

theorem execMpWatchdog_kept (s : State) {u : State} (h : execMpWatchdog s = .next u) : Kept s u := by
  unfold execMpWatchdog at h
  cases h
  try dsimp only
  iterate 40 all_goals try first | (with_reducible first | exact Kept.refl _ | assumption | apply State.unfrozen_kept | apply State.drawWord_kept | apply State.report_kept | apply State.watch_kept | apply State.mpRestart_kept | apply Kept.ite) | split | (with_reducible refine Kept.ofEq (by assumption) ?_) | (with_reducible refine Kept.upd ?_ (by rfl)) | intro _

theorem State.writeWdog_kept {s0 : State} (s : State) (m : Master) (v : Word) (hs : Kept s0 s)  : Kept s0 (State.writeWdog s m v) := by
  refine hs.trans ?_
  clear hs
  unfold State.writeWdog
  try dsimp only
  iterate 40 all_goals try first | (with_reducible first | exact Kept.refl _ | assumption | apply State.writeCode_kept | apply Kept.ite) | split | (with_reducible refine Kept.ofEq (by assumption) ?_) | (with_reducible refine Kept.upd ?_ (by rfl))

theorem execWatchdogFeed_kept (m : Master) (v : Word) (s : State) {u : State} (h : execWatchdogFeed m v s = .next u) : Kept s u := by
  unfold execWatchdogFeed at h
  cases h
  try dsimp only
  iterate 40 all_goals try first | (with_reducible first | exact Kept.refl _ | assumption | apply State.unfrozen_kept | apply State.accessBy_kept | apply State.writeWdog_kept) | intro _

theorem execTrialTimeout_kept (s : State) {u : State} (h : execTrialTimeout s = .next u) : Kept s u := by
  unfold execTrialTimeout at h
  cases h
  try dsimp only
  iterate 40 all_goals try first | (with_reducible first | exact Kept.refl _ | assumption | apply State.unfrozen_kept | apply State.watch_kept | apply State.mpRestart_kept | apply Kept.ite) | split | (with_reducible refine Kept.ofEq (by assumption) ?_) | intro _

theorem State.resetRegs_kept {s0 : State} (s : State) (d : Domain) (hs : Kept s0 s) : Kept s0 (s.resetRegs d) :=
  hs.trans ⟨rfl, ⟨[], by simp [State.resetRegs]⟩, id, id, id, fun h => Store.wf_drop (d := resetWord) h _⟩

theorem State.setLocked_kept {s0 : State} (s : State) (d : Domain) (b : Bool) (hs : Kept s0 s)  : Kept s0 (State.setLocked s d b) := by
  refine hs.trans ?_
  clear hs
  unfold State.setLocked
  try dsimp only
  iterate 40 all_goals try first | (with_reducible first | exact Kept.refl _ | assumption | apply State.wrBit_kept | apply Kept.foldl | apply Kept.foldlSnd) | intro _

theorem State.supplyEvent_kept {s0 : State} (s : State) (k kind dur : Nat) (hs : Kept s0 s)  : Kept s0 (State.supplyEvent s k kind dur) := by
  refine hs.trans ?_
  clear hs
  unfold State.supplyEvent
  try dsimp only
  iterate 40 all_goals try first | with_reducible first | exact Kept.refl _ | assumption | apply State.event_kept

theorem State.endWarning_kept {s0 : State} (s : State) (k : Nat) (hs : Kept s0 s)  : Kept s0 (State.endWarning s k) := by
  refine hs.trans ?_
  clear hs
  unfold State.endWarning
  try dsimp only
  iterate 40 all_goals try first | (with_reducible first | exact Kept.refl _ | assumption | apply State.wr_kept | apply State.supplyEvent_kept | apply Kept.ite) | split | (with_reducible refine Kept.ofEq (by assumption) ?_) | (with_reducible refine Kept.upd ?_ (by rfl)) | intro _

theorem State.hostReset_kept {s0 : State} (s : State) (link : Bool) (hs : Kept s0 s)  : Kept s0 (State.hostReset s link) := by
  refine hs.trans ?_
  clear hs
  unfold State.hostReset
  try dsimp only
  iterate 40 all_goals try first | (with_reducible first | exact Kept.refl _ | assumption | apply State.setCtx_kept | apply State.resetBarrow_kept | apply State.resetRegs_kept | apply Kept.ite | apply Kept.foldl | apply Kept.foldlSnd) | split | (with_reducible refine Kept.ofEq (by assumption) ?_) | (with_reducible refine Kept.upd ?_ (by rfl)) | intro _

theorem State.mapBlocks_kept {s0 : State} (s : State) (p : Nat → Job → Bool) (f g : Block → Option Block) (hs : Kept s0 s)  : Kept s0 (State.mapBlocks s p f g) := by
  refine hs.trans ?_
  clear hs
  unfold State.mapBlocks
  try dsimp only
  iterate 40 all_goals try first | (with_reducible first | exact Kept.refl _ | assumption | apply State.setCtx_kept | apply Kept.ite | apply Kept.foldl | apply Kept.foldlSnd) | split | (with_reducible refine Kept.ofEq (by assumption) ?_) | (with_reducible refine Kept.upd ?_ (by rfl)) | intro _

theorem State.dropBytes_kept {s0 : State} (s : State) (p : Nat → Bool) (hs : Kept s0 s) : Kept s0 (s.dropBytes p) :=
  hs.trans ⟨rfl, ⟨[], by simp [State.dropBytes]⟩, fun h => Store.wf_drop h p, id, id, id⟩

theorem State.loseDs0_kept {s0 : State} (s : State) (power : Bool) (hs : Kept s0 s)  : Kept s0 (State.loseDs0 s power) := by
  refine hs.trans ?_
  clear hs
  unfold State.loseDs0
  try dsimp only
  iterate 40 all_goals try first | (with_reducible first | exact Kept.refl _ | assumption | apply State.wr_kept | apply State.setCtx_kept | apply State.abortCtx_kept | apply State.writeBack_kept | apply State.resetRegs_kept | apply State.mapBlocks_kept | apply State.dropBytes_kept | apply Kept.ite | apply Kept.foldl | apply Kept.foldlSnd) | split | (with_reducible refine Kept.ofEq (by assumption) ?_) | (with_reducible refine Kept.upd ?_ (by rfl)) | intro _

theorem State.loseDs1_kept {s0 : State} (s : State) (power : Bool) (hs : Kept s0 s)  : Kept s0 (State.loseDs1 s power) := by
  refine hs.trans ?_
  clear hs
  unfold State.loseDs1
  try dsimp only
  iterate 40 all_goals try first | (with_reducible first | exact Kept.refl _ | assumption | apply State.writeBack_kept | apply State.refetchBlocks_kept | apply State.mapBlocks_kept | apply State.dropBytes_kept | apply Kept.ite) | split | (with_reducible refine Kept.ofEq (by assumption) ?_) | (with_reducible refine Kept.upd ?_ (by rfl)) | intro _

theorem State.losePlace_kept {s0 : State} (s : State) (hs : Kept s0 s)  : Kept s0 (State.losePlace s) := by
  refine hs.trans ?_
  clear hs
  unfold State.losePlace
  try dsimp only
  iterate 40 all_goals try first | (with_reducible first | exact Kept.refl _ | assumption | apply State.settle_kept | apply State.onPort_kept | apply State.dropAt_kept | apply State.makeSafe_kept | apply State.endWalk_kept | apply State.resetRegs_kept | apply Kept.ite | apply Kept.foldl | apply Kept.foldlSnd) | split | (with_reducible refine Kept.ofEq (by assumption) ?_) | (with_reducible refine Kept.upd ?_ (by rfl)) | intro _

theorem State.loseGroup_kept {s0 : State} (old s : State) (g : Fin 4) (hs : Kept s0 s)  : Kept s0 (State.loseGroup old s g) := by
  refine hs.trans ?_
  clear hs
  unfold State.loseGroup
  try dsimp only
  iterate 40 all_goals try first | (with_reducible first | exact Kept.refl _ | assumption | apply State.setPort_kept | apply State.watch_kept | apply State.setCons_kept | apply State.resetRegs_kept | apply Kept.foldl | apply Kept.foldlSnd | (refine Kept.upd ?_ (by rfl))) | intro _

theorem State.loseRing_kept {s0 : State} (s : State) (hs : Kept s0 s)  : Kept s0 (State.loseRing s) := by
  refine hs.trans ?_
  clear hs
  unfold State.loseRing
  try dsimp only
  iterate 40 all_goals try first | (with_reducible first | exact Kept.refl _ | assumption | apply State.wr_kept | apply State.freeTokensOf_kept | apply State.stillTracker_kept | apply State.settleProds_kept | apply State.endSession_kept | apply State.settleKeep_kept | apply State.resetRegs_kept | apply Kept.ite | apply Kept.foldl | apply Kept.foldlSnd) | split | (with_reducible refine Kept.ofEq (by assumption) ?_) | (with_reducible refine Kept.upd ?_ (by rfl)) | intro _

theorem State.loseMotion_kept {s0 : State} (s : State) (hs : Kept s0 s)  : Kept s0 (State.loseMotion s) := by
  refine hs.trans ?_
  clear hs
  unfold State.loseMotion
  try dsimp only
  iterate 40 all_goals try first | (with_reducible first | exact Kept.refl _ | assumption | apply State.bridgesOff_kept | apply State.clearMotion_kept | apply State.unhold_kept | apply State.endHeld_kept | apply State.resetRegs_kept | apply Kept.foldl | apply Kept.foldlSnd) | split | (with_reducible refine Kept.ofEq (by assumption) ?_) | (with_reducible refine Kept.upd ?_ (by rfl)) | intro _

theorem State.loseService_kept {s0 : State} (s : State) (hs : Kept s0 s)  : Kept s0 (State.loseService s) := by
  refine hs.trans ?_
  clear hs
  unfold State.loseService
  try dsimp only
  iterate 40 all_goals try first | (with_reducible first | exact Kept.refl _ | assumption | apply State.freeTokensOf_kept | apply State.endSession_kept | apply State.resetRegs_kept | apply Kept.ite) | split | (with_reducible refine Kept.ofEq (by assumption) ?_)

theorem State.loseMgmt_kept {s0 : State} (s : State) (power : Bool) (hs : Kept s0 s) : Kept s0 (s.loseMgmt power) := by
  refine hs.trans ?_
  have h : Kept s (s.mpRestart 3) := State.mpRestart_kept _ _ (Kept.refl s)
  unfold State.loseMgmt
  dsimp only
  split
  · exact (State.resetRegs_kept _ .mgmt h).trans ⟨rfl, ⟨[], by simp⟩, id, id, fun _ => rfl, id⟩
  · exact h

theorem State.loseDomain_kept {s0 : State} (old : State) (power : Bool) (d : Domain) (s : State) (hs : Kept s0 s)  : Kept s0 (State.loseDomain old power d s) := by
  refine hs.trans ?_
  clear hs
  unfold State.loseDomain
  try dsimp only
  iterate 40 all_goals try first | (with_reducible first | exact Kept.refl _ | assumption | apply State.resetRegs_kept | apply State.hostReset_kept | apply State.loseDs0_kept | apply State.loseDs1_kept | apply State.losePlace_kept | apply State.loseGroup_kept | apply State.loseRing_kept | apply State.loseMotion_kept | apply State.loseService_kept | apply State.loseMgmt_kept) | split | (with_reducible refine Kept.ofEq (by assumption) ?_) | (with_reducible refine Kept.upd ?_ (by rfl))

theorem State.switchOff_kept {s0 : State} (s : State) (d : Domain) (hs : Kept s0 s)  : Kept s0 (State.switchOff s d) := by
  refine hs.trans ?_
  clear hs
  unfold State.switchOff
  try dsimp only
  iterate 40 all_goals try first | (with_reducible first | exact Kept.refl _ | assumption | apply State.wr_kept | apply State.watch_kept | apply State.setLocked_kept | apply State.endWarning_kept | apply State.loseDomain_kept | apply Kept.ite | apply Kept.elim) | split | (with_reducible refine Kept.ofEq (by assumption) ?_) | intro _

theorem State.reachOn_kept {s0 : State} (s : State) (d : Domain) (hs : Kept s0 s)  : Kept s0 (State.reachOn s d) := by
  refine hs.trans ?_
  clear hs
  unfold State.reachOn
  try dsimp only
  iterate 40 all_goals try first | (with_reducible first | exact Kept.refl _ | assumption | apply State.wr_kept | apply State.startStation_kept | apply State.setLocked_kept) | split | (with_reducible refine Kept.ofEq (by assumption) ?_)

theorem State.switchOn_kept {s0 : State} (s : State) (d : Domain) (hs : Kept s0 s)  : Kept s0 (State.switchOn s d) := by
  refine hs.trans ?_
  clear hs
  unfold State.switchOn
  try dsimp only
  iterate 40 all_goals try first | (with_reducible first | exact Kept.refl _ | assumption | apply State.wr_kept | apply Kept.ite) | split | (with_reducible refine Kept.ofEq (by assumption) ?_)

theorem State.resetDomain_kept {s0 : State} (s : State) (d : Domain) (hs : Kept s0 s)  : Kept s0 (State.resetDomain s d) := by
  refine hs.trans ?_
  clear hs
  unfold State.resetDomain
  try dsimp only
  iterate 40 all_goals try first | (with_reducible first | exact Kept.refl _ | assumption | apply State.wr_kept | apply State.watch_kept | apply State.startStation_kept | apply State.loseDomain_kept | apply Kept.ite) | split | (with_reducible refine Kept.ofEq (by assumption) ?_)

theorem State.writeDomCtl_kept {s0 : State} (s : State) (v : Word) (hs : Kept s0 s)  : Kept s0 (State.writeDomCtl s v) := by
  refine hs.trans ?_
  clear hs
  unfold State.writeDomCtl
  try dsimp only
  iterate 40 all_goals try first | (with_reducible first | exact Kept.refl _ | assumption | apply State.switchOff_kept | apply State.switchOn_kept | apply Kept.ite | apply Kept.foldl | apply Kept.foldlSnd) | split | (with_reducible refine Kept.ofEq (by assumption) ?_) | intro _

theorem execDomainCtlWrite_kept (m : Master) (v : Word) (s : State) {u : State} (h : execDomainCtlWrite m v s = .next u) : Kept s u := by
  unfold execDomainCtlWrite at h
  cases h
  try dsimp only
  iterate 40 all_goals try first | (with_reducible first | exact Kept.refl _ | assumption | apply State.unfrozen_kept | apply State.accessBy_kept | apply State.writeDomCtl_kept) | intro _

theorem State.writeDomRst_kept {s0 : State} (s : State) (v : Word) (hs : Kept s0 s)  : Kept s0 (State.writeDomRst s v) := by
  refine hs.trans ?_
  clear hs
  unfold State.writeDomRst
  try dsimp only
  iterate 40 all_goals try first | (with_reducible first | exact Kept.refl _ | assumption | apply State.resetDomain_kept | apply Kept.ite | apply Kept.foldl | apply Kept.foldlSnd) | split | (with_reducible refine Kept.ofEq (by assumption) ?_) | intro _

theorem execDomainReset_kept (m : Master) (v : Word) (s : State) {u : State} (h : execDomainReset m v s = .next u) : Kept s u := by
  unfold execDomainReset at h
  cases h
  try dsimp only
  iterate 40 all_goals try first | (with_reducible first | exact Kept.refl _ | assumption | apply State.unfrozen_kept | apply State.accessBy_kept | apply State.writeDomRst_kept) | intro _

theorem State.loadLink_kept {s0 : State} (s : State) (p : Nat) (hs : Kept s0 s)  : Kept s0 (State.loadLink s p) := by
  refine hs.trans ?_
  clear hs
  unfold State.loadLink
  try dsimp only
  iterate 40 all_goals try first | (with_reducible first | exact Kept.refl _ | assumption | apply State.onNeve_kept | apply State.startSeries_kept | apply Kept.ite) | split | (with_reducible refine Kept.ofEq (by assumption) ?_) | (with_reducible refine Kept.upd ?_ (by rfl)) | intro _

theorem State.loadSequencer_kept {s0 : State} (s : State) (d : Domain) (hs : Kept s0 s)  : Kept s0 (State.loadSequencer s d) := by
  refine hs.trans ?_
  clear hs
  unfold State.loadSequencer
  try dsimp only
  iterate 40 all_goals try first | (with_reducible first | exact Kept.refl _ | assumption | apply State.wr_kept | apply State.loadLink_kept | apply Kept.ite | apply Kept.foldl | apply Kept.foldlSnd) | split | (with_reducible refine Kept.ofEq (by assumption) ?_) | intro _

theorem State.endPower_kept {s0 : State} (s : State) (p : State → Domain → Bool) (hs : Kept s0 s)  : Kept s0 (State.endPower s p) := by
  refine hs.trans ?_
  clear hs
  unfold State.endPower
  try dsimp only
  iterate 40 all_goals try first | (with_reducible first | exact Kept.refl _ | assumption | apply State.endCommand_kept | apply Kept.ite) | split | (with_reducible refine Kept.ofEq (by assumption) ?_)

theorem execDomainPowered_kept (d : Fin 14) (s : State) {u : State} (h : execDomainPowered d s = .next u) : Kept s u := by
  unfold execDomainPowered at h
  cases h
  try dsimp only
  iterate 40 all_goals try first | (with_reducible first | exact Kept.refl _ | assumption | apply State.unfrozen_kept | apply State.watch_kept | apply State.reachOn_kept | apply State.endPower_kept | apply Kept.ite) | split | (with_reducible refine Kept.ofEq (by assumption) ?_) | intro _

theorem execDomainOff_kept (d : Fin 14) (s : State) {u : State} (h : execDomainOff d s = .next u) : Kept s u := by
  unfold execDomainOff at h
  cases h
  try dsimp only
  iterate 40 all_goals try first | (with_reducible first | exact Kept.refl _ | assumption | apply State.unfrozen_kept | apply State.endPower_kept) | intro _

theorem execSequencerReload_kept (d : Fin 14) (s : State) {u : State} (h : execSequencerReload d s = .next u) : Kept s u := by
  unfold execSequencerReload at h
  cases h
  try dsimp only
  iterate 40 all_goals try first | (with_reducible first | exact Kept.refl _ | assumption | apply State.unfrozen_kept | apply State.watch_kept | apply State.loadSequencer_kept | apply State.endPower_kept | apply Kept.ite) | split | (with_reducible refine Kept.ofEq (by assumption) ?_) | intro _

theorem execDsInitComplete_kept (ds1 : Bool) (s : State) {u : State} (h : execDsInitComplete ds1 s = .next u) : Kept s u := by
  unfold execDsInitComplete at h
  cases h
  try dsimp only
  iterate 40 all_goals try first | (with_reducible first | exact Kept.refl _ | assumption | apply State.wr_kept | apply State.unfrozen_kept | apply State.refetchBlocks_kept | apply State.endPower_kept | apply Kept.ite) | split | (with_reducible refine Kept.ofEq (by assumption) ?_) | intro _

theorem State.waitPower_kept {s0 : State} (s : State) (d : Desc) (hs : Kept s0 s)  : Kept s0 (State.waitPower s d) := by
  refine hs.trans ?_
  clear hs
  unfold State.waitPower
  try dsimp only
  iterate 40 all_goals try first | with_reducible first | exact Kept.refl _ | assumption | apply State.beginCommand_kept

theorem execDomainPower_kept (s : State) {u : State} (h : execDomainPower s = .next u) : Kept s u := by
  unfold execDomainPower at h
  cases h
  try dsimp only
  iterate 40 all_goals try first | (with_reducible first | exact Kept.refl _ | assumption | apply State.unfrozen_kept | apply State.finish_kept | apply State.readInk_kept | apply State.switchOff_kept | apply State.switchOn_kept | apply State.waitPower_kept | apply Kept.ite | apply Kept.foldl | apply Kept.foldlSnd) | split | (with_reducible refine Kept.ofEq (by assumption) ?_) | intro _

theorem State.dropUnused_kept {s0 : State} (s : State) (d : Domain) (hs : Kept s0 s)  : Kept s0 (State.dropUnused s d) := by
  refine hs.trans ?_
  clear hs
  unfold State.dropUnused
  try dsimp only
  iterate 40 all_goals try first | (with_reducible first | exact Kept.refl _ | assumption | apply State.switchOff_kept | apply Kept.ite) | split | (with_reducible refine Kept.ofEq (by assumption) ?_)

theorem State.retirePort_kept {s0 : State} (s : State) (p : Nat) (hs : Kept s0 s)  : Kept s0 (State.retirePort s p) := by
  refine hs.trans ?_
  clear hs
  unfold State.retirePort
  try dsimp only
  iterate 40 all_goals try first | (with_reducible first | exact Kept.refl _ | assumption | apply State.wr_kept | apply State.watch_kept | apply State.stopLink_kept | apply State.scopeEvent_kept | apply State.faultScope_kept | apply State.unfit_kept | apply State.dropUnused_kept | apply Kept.ite) | split | (with_reducible refine Kept.ofEq (by assumption) ?_)

theorem State.retireCtx_kept {s0 : State} (s : State) (c : Nat) (hs : Kept s0 s)  : Kept s0 (State.retireCtx s c) := by
  refine hs.trans ?_
  clear hs
  unfold State.retireCtx
  try dsimp only
  iterate 40 all_goals try first | (with_reducible first | exact Kept.refl _ | assumption | apply State.wr_kept | apply State.abortCtx_kept | apply State.cancelQueue_kept | apply State.releaseCtx_kept | apply Kept.ite) | split | (with_reducible refine Kept.ofEq (by assumption) ?_) | intro _

theorem State.retireBank_kept {s0 : State} (s : State) (b : Nat) (hs : Kept s0 s)  : Kept s0 (State.retireBank s b) := by
  refine hs.trans ?_
  clear hs
  unfold State.retireBank
  try dsimp only
  iterate 40 all_goals try first | (with_reducible first | exact Kept.refl _ | assumption | apply State.wr_kept | apply State.dropUnused_kept | apply Kept.ite) | split | (with_reducible refine Kept.ofEq (by assumption) ?_)

theorem State.writeRetPort_kept {s0 : State} (s : State) (v : Word) (hs : Kept s0 s)  : Kept s0 (State.writeRetPort s v) := by
  refine hs.trans ?_
  clear hs
  unfold State.writeRetPort
  try dsimp only
  iterate 40 all_goals try first | (with_reducible first | exact Kept.refl _ | assumption | apply State.retirePort_kept | apply Kept.ite | apply Kept.foldl | apply Kept.foldlSnd) | split | (with_reducible refine Kept.ofEq (by assumption) ?_) | intro _

theorem State.writeRetCtx_kept {s0 : State} (s : State) (w : Nat) (v : Word) (hs : Kept s0 s)  : Kept s0 (State.writeRetCtx s w v) := by
  refine hs.trans ?_
  clear hs
  unfold State.writeRetCtx
  try dsimp only
  iterate 40 all_goals try first | (with_reducible first | exact Kept.refl _ | assumption | apply State.retireCtx_kept | apply Kept.ite | apply Kept.foldl | apply Kept.foldlSnd) | split | (with_reducible refine Kept.ofEq (by assumption) ?_) | intro _

theorem State.writeRetBank_kept {s0 : State} (s : State) (hi : Bool) (v : Word) (hs : Kept s0 s)  : Kept s0 (State.writeRetBank s hi v) := by
  refine hs.trans ?_
  clear hs
  unfold State.writeRetBank
  try dsimp only
  iterate 40 all_goals try first | (with_reducible first | exact Kept.refl _ | assumption | apply State.retireBank_kept | apply Kept.ite | apply Kept.foldl | apply Kept.foldlSnd) | split | (with_reducible refine Kept.ofEq (by assumption) ?_) | intro _

theorem State.applyRetired_kept {s0 : State} (s : State) (l : List Nat) (hs : Kept s0 s)  : Kept s0 (State.applyRetired s l) := by
  refine hs.trans ?_
  clear hs
  unfold State.applyRetired
  try dsimp only
  iterate 40 all_goals try first | (with_reducible first | exact Kept.refl _ | assumption | apply State.writeRetPort_kept | apply State.writeRetCtx_kept | apply State.writeRetBank_kept | apply Kept.foldl | apply Kept.foldlSnd) | intro _

theorem State.recordEntry_kept {s0 : State} (s : State) (c : MpCmd) (flash : FlashAnswer) (hs : Kept s0 s)  : Kept s0 (State.recordEntry s c flash) := by
  refine hs.trans ?_
  clear hs
  unfold State.recordEntry
  try dsimp only
  iterate 40 all_goals try first | (with_reducible first | exact Kept.refl _ | assumption | apply State.endCommand_kept | apply State.holdFlash_kept | apply State.recordRetired_kept) | split | (with_reducible refine Kept.ofEq (by assumption) ?_)

theorem State.retireUnit_kept {s0 : State} (s : State) (kind n : Nat) (hs : Kept s0 s)  : Kept s0 (State.retireUnit s kind n) := by
  refine hs.trans ?_
  clear hs
  unfold State.retireUnit
  try dsimp only
  iterate 40 all_goals try first | (with_reducible first | exact Kept.refl _ | assumption | apply State.retirePort_kept | apply State.retireCtx_kept | apply State.retireBank_kept | apply Kept.ite) | split | (with_reducible refine Kept.ofEq (by assumption) ?_)

theorem execUnitRetire_kept (flash : FlashAnswer) (s : State) {u : State} (h : execUnitRetire flash s = .next u) : Kept s u := by
  unfold execUnitRetire at h
  cases h
  try dsimp only
  iterate 40 all_goals try first | (with_reducible first | exact Kept.refl _ | assumption | apply State.unfrozen_kept | apply State.endCommand_kept | apply State.watch_kept | apply State.flashing_kept | apply State.onSvc_kept | apply State.recordEntry_kept | apply State.retireUnit_kept | apply Kept.ite) | split | (with_reducible refine Kept.ofEq (by assumption) ?_) | (with_reducible refine Kept.upd ?_ (by rfl)) | intro _

theorem execRetirementRetry_kept (ok : Bool) (s : State) {u : State} (h : execRetirementRetry ok s = .next u) : Kept s u := by
  unfold execRetirementRetry at h
  cases h
  try dsimp only
  iterate 40 all_goals try first | (with_reducible first | exact Kept.refl _ | assumption | apply State.unfrozen_kept | apply State.programs_kept | apply State.onSvc_kept | apply State.recordRetired_kept | apply Kept.ite) | split | (with_reducible refine Kept.ofEq (by assumption) ?_) | (with_reducible refine Kept.upd ?_ (by rfl)) | intro _

theorem State.afterWords_kept {s0 : State} (s : State) (l : List Nat) (hs : Kept s0 s)  : Kept s0 (State.afterWords s l) := by
  refine hs.trans ?_
  clear hs
  unfold State.afterWords
  try dsimp only
  iterate 40 all_goals try first | (with_reducible first | exact Kept.refl _ | assumption | apply State.putOtp_kept | apply Kept.foldl | apply Kept.foldlSnd) | intro _

theorem State.nextOtp_kept {s0 : State} (s : State) (hs : Kept s0 s)  : Kept s0 (State.nextOtp s) := by
  refine hs.trans ?_
  clear hs
  unfold State.nextOtp
  try dsimp only
  iterate 40 all_goals try first | (with_reducible first | exact Kept.refl _ | assumption | apply State.wr_kept | apply State.endCommand_kept | apply State.beginWord_kept | apply Kept.ite) | split | (with_reducible refine Kept.ofEq (by assumption) ?_)

theorem State.beginOtp_kept {s0 : State} (s : State) (d : Desc) (bytes : List Nat) (hs : Kept s0 s)  : Kept s0 (State.beginOtp s d bytes) := by
  refine hs.trans ?_
  clear hs
  unfold State.beginOtp
  try dsimp only
  iterate 40 all_goals try first | (with_reducible first | exact Kept.refl _ | assumption | apply State.beginCommand_kept | apply State.endCommand_kept | apply State.nextOtp_kept | apply Kept.ite) | split | (with_reducible refine Kept.ofEq (by assumption) ?_) | intro _

theorem execOtpProgram_kept (src : HostRead) (vqps core : Bool) (s : State) {u : State} (h : execOtpProgram src vqps core s = .next u) : Kept s u := by
  unfold execOtpProgram at h
  cases h
  try dsimp only
  iterate 40 all_goals try first | (with_reducible first | exact Kept.refl _ | assumption | apply State.unfrozen_kept | apply State.endCommand_kept | apply State.holdCommand_kept | apply State.senseSupplies_kept | apply State.feed_kept | apply State.beginOtp_kept | apply Kept.ite) | split | (with_reducible refine Kept.ofEq (by assumption) ?_) | intro _

theorem State.setLocks_kept {s0 : State} (s : State) (mask : Nat) (hs : Kept s0 s)  : Kept s0 (State.setLocks s mask) := by
  refine hs.trans ?_
  clear hs
  unfold State.setLocks
  try dsimp only
  iterate 40 all_goals try first | with_reducible first | exact Kept.refl _ | assumption | apply State.wr_kept

theorem execOtpLock_kept (vqps core : Bool) (s : State) {u : State} (h : execOtpLock vqps core s = .next u) : Kept s u := by
  unfold execOtpLock at h
  cases h
  try dsimp only
  iterate 40 all_goals try first | (with_reducible first | exact Kept.refl _ | assumption | apply State.unfrozen_kept | apply State.finish_kept | apply State.beginCommand_kept | apply State.senseSupplies_kept | apply State.nextOtp_kept | apply State.setLocks_kept | apply Kept.ite) | split | (with_reducible refine Kept.ofEq (by assumption) ?_) | intro _

theorem State.endLock_kept {s0 : State} (s : State) (d : Desc) (r : Nat) (hs : Kept s0 s)  : Kept s0 (State.endLock s d r) := by
  refine hs.trans ?_
  clear hs
  unfold State.endLock
  try dsimp only
  iterate 40 all_goals try first | (with_reducible first | exact Kept.refl _ | assumption | apply State.endCommand_kept | apply State.setLocks_kept | apply Kept.ite) | split | (with_reducible refine Kept.ofEq (by assumption) ?_)

theorem State.wordEnded_kept {s0 : State} (s : State) (r : Nat) (hs : Kept s0 s)  : Kept s0 (State.wordEnded s r) := by
  refine hs.trans ?_
  clear hs
  unfold State.wordEnded
  try dsimp only
  iterate 40 all_goals try first | (with_reducible first | exact Kept.refl _ | assumption | apply State.endCommand_kept | apply State.nextOtp_kept | apply State.endLock_kept | apply Kept.ite) | split | (with_reducible refine Kept.ofEq (by assumption) ?_) | (with_reducible refine Kept.upd ?_ (by rfl))

theorem State.resumeOtp_kept {s0 : State} (s : State) (hs : Kept s0 s)  : Kept s0 (State.resumeOtp s) := by
  refine hs.trans ?_
  clear hs
  unfold State.resumeOtp
  try dsimp only
  iterate 40 all_goals try first | (with_reducible first | exact Kept.refl _ | assumption | apply State.onOtp_kept | apply State.nextOtp_kept | apply State.wordEnded_kept) | split | (with_reducible refine Kept.ofEq (by assumption) ?_) | (with_reducible refine Kept.upd ?_ (by rfl)) | intro _

theorem execProgramWordDone_kept (strict lenient : BitVec 64) (s : State) {u : State} (h : execProgramWordDone strict lenient s = .next u) : Kept s u := by
  unfold execProgramWordDone at h
  cases h
  try dsimp only
  iterate 40 all_goals try first | (with_reducible first | exact Kept.refl _ | assumption | apply State.wr_kept | apply State.onOtp_kept | apply State.verifyWord_kept | apply State.nextOtp_kept | apply State.wordEnded_kept | apply Kept.ite) | split | (with_reducible refine Kept.ofEq (by assumption) ?_) | (with_reducible refine Kept.upd ?_ (by rfl)) | intro _

theorem State.endRestarted_kept {s0 : State} (s : State) (hs : Kept s0 s)  : Kept s0 (State.endRestarted s) := by
  refine hs.trans ?_
  clear hs
  unfold State.endRestarted
  try dsimp only
  iterate 40 all_goals try first | (with_reducible first | exact Kept.refl _ | assumption | apply State.endCommand_kept) | split | (with_reducible refine Kept.ofEq (by assumption) ?_)

theorem State.writeTables_kept {s0 : State} (s : State) (hs : Kept s0 s)  : Kept s0 (State.writeTables s) := by
  refine hs.trans ?_
  clear hs
  unfold State.writeTables
  try dsimp only
  iterate 40 all_goals try first | (with_reducible first | exact Kept.refl _ | assumption | apply State.wr_kept | apply Kept.foldl | apply Kept.foldlSnd) | split | (with_reducible refine Kept.ofEq (by assumption) ?_) | intro _

theorem State.clearRetry_kept {s0 : State} (s : State) (hs : Kept s0 s)  : Kept s0 (State.clearRetry s) := by
  refine hs.trans ?_
  clear hs
  unfold State.clearRetry
  try dsimp only
  iterate 40 all_goals try first | (with_reducible first | exact Kept.refl _ | assumption | apply State.wr_kept | apply Kept.ite) | split | (with_reducible refine Kept.ofEq (by assumption) ?_)

theorem State.refuseCommands_kept {s0 : State} (s : State) (hs : Kept s0 s)  : Kept s0 (State.refuseCommands s) := by
  refine hs.trans ?_
  clear hs
  unfold State.refuseCommands
  try dsimp only
  iterate 40 all_goals try first | (with_reducible first | exact Kept.refl _ | assumption | apply State.fetched_kept | apply State.finish_kept | apply State.endCommand_kept | apply Kept.foldl | apply Kept.foldlSnd) | split | (with_reducible refine Kept.ofEq (by assumption) ?_) | intro _

theorem State.rescueMode_kept {s0 : State} (s : State) (hs : Kept s0 s)  : Kept s0 (State.rescueMode s) := by
  refine hs.trans ?_
  clear hs
  unfold State.rescueMode
  try dsimp only
  iterate 40 all_goals try first | with_reducible first | exact Kept.refl _ | assumption | apply State.wr_kept | apply State.updateLate_kept | apply State.clearRetry_kept | apply State.refuseCommands_kept | (refine Kept.upd ?_ (by rfl))

theorem State.countTrial_kept {s0 : State} (s : State) (start : Bool) (hs : Kept s0 s)  : Kept s0 (State.countTrial s start) := by
  refine hs.trans ?_
  clear hs
  unfold State.countTrial
  try dsimp only
  iterate 40 all_goals try first | (with_reducible first | exact Kept.refl _ | assumption | apply State.writeRecord_kept | apply State.updateLate_kept | apply Kept.ite) | split | (with_reducible refine Kept.ofEq (by assumption) ?_) | (with_reducible refine Kept.upd ?_ (by rfl))

theorem State.migrateOnce_kept {s0 : State} (s : State) (r : BootRec) (hs : Kept s0 s)  : Kept s0 (State.migrateOnce s r) := by
  refine hs.trans ?_
  clear hs
  unfold State.migrateOnce
  try dsimp only
  iterate 40 all_goals try first | (with_reducible first | exact Kept.refl _ | assumption | apply State.migrate_kept | apply State.updateLate_kept | apply Kept.ite) | split | (with_reducible refine Kept.ofEq (by assumption) ?_)

theorem State.applyRecorded_kept {s0 : State} (s : State) (hs : Kept s0 s)  : Kept s0 (State.applyRecorded s) := by
  refine hs.trans ?_
  clear hs
  unfold State.applyRecorded
  try dsimp only
  iterate 40 all_goals try first | (with_reducible first | exact Kept.refl _ | assumption | apply State.applyRetired_kept) | split | (with_reducible refine Kept.ofEq (by assumption) ?_)

theorem State.loadSequencers_kept {s0 : State} (s : State) (hs : Kept s0 s)  : Kept s0 (State.loadSequencers s) := by
  refine hs.trans ?_
  clear hs
  unfold State.loadSequencers
  try dsimp only
  iterate 40 all_goals try first | (with_reducible first | exact Kept.refl _ | assumption | apply State.loadSequencer_kept | apply Kept.foldl | apply Kept.foldlSnd) | intro _

theorem State.runImage_kept {s0 : State} (s : State) (r : BootRec) (start : Bool) (hs : Kept s0 s)  : Kept s0 (State.runImage s r start) := by
  refine hs.trans ?_
  clear hs
  unfold State.runImage
  try dsimp only
  iterate 40 all_goals try first | (with_reducible first | exact Kept.refl _ | assumption | apply State.wr_kept | apply State.loadMpMemory_kept | apply State.consBoot_kept | apply State.onSvc_kept | apply State.endRestarted_kept | apply State.clearRetry_kept | apply State.migrateOnce_kept | apply State.applyRecorded_kept | apply State.loadSequencers_kept | apply Kept.ite | apply Kept.foldl | apply Kept.foldlSnd) | split | (with_reducible refine Kept.ofEq (by assumption) ?_) | (with_reducible refine Kept.upd ?_ (by rfl)) | intro _

theorem State.bootMp_kept {s0 : State} (s : State) (start : Bool) (hs : Kept s0 s)  : Kept s0 (State.bootMp s start) := by
  refine hs.trans ?_
  clear hs
  unfold State.bootMp
  try dsimp only
  iterate 40 all_goals try first | (with_reducible first | exact Kept.refl _ | assumption | apply State.writeTables_kept | apply State.rescueMode_kept | apply State.countTrial_kept | apply State.runImage_kept | apply Kept.ite) | split | (with_reducible refine Kept.ofEq (by assumption) ?_)

theorem execMpBoot_kept (s : State) {u : State} (h : execMpBoot s = .next u) : Kept s u := by
  unfold execMpBoot at h
  cases h
  try dsimp only
  iterate 40 all_goals try first | (with_reducible first | exact Kept.refl _ | assumption | apply State.unfrozen_kept | apply State.watch_kept | apply State.bootMp_kept | apply Kept.ite) | split | (with_reducible refine Kept.ofEq (by assumption) ?_) | intro _

theorem State.beginWarning_kept {s0 : State} (s : State) (k : Nat) (hs : Kept s0 s)  : Kept s0 (State.beginWarning s k) := by
  refine hs.trans ?_
  clear hs
  unfold State.beginWarning
  try dsimp only
  iterate 40 all_goals try first | (with_reducible first | exact Kept.refl _ | assumption | apply State.wr_kept | apply State.bumpSat_kept | apply State.cutPulse_kept | apply State.supplyEvent_kept | (refine Kept.upd ?_ (by rfl))) | intro _

theorem execSupplyWarnBegin_kept (k : Fin 13) (s : State) {u : State} (h : execSupplyWarnBegin k s = .next u) : Kept s u := by
  unfold execSupplyWarnBegin at h
  cases h
  try dsimp only
  iterate 40 all_goals try first | (with_reducible first | exact Kept.refl _ | assumption | apply State.beginWarning_kept | apply Kept.ite) | split | (with_reducible refine Kept.ofEq (by assumption) ?_) | intro _

theorem execSupplyWarnEnd_kept (k : Fin 13) (s : State) {u : State} (h : execSupplyWarnEnd k s = .next u) : Kept s u := by
  unfold execSupplyWarnEnd at h
  cases h
  try dsimp only
  iterate 40 all_goals try first | (with_reducible first | exact Kept.refl _ | assumption | apply State.watch_kept | apply State.endWarning_kept | apply Kept.ite) | split | (with_reducible refine Kept.ofEq (by assumption) ?_)

theorem State.longWarn_kept {s0 : State} (s : State) (k : Nat) (hs : Kept s0 s)  : Kept s0 (State.longWarn s k) := by
  refine hs.trans ?_
  clear hs
  unfold State.longWarn
  try dsimp only
  iterate 40 all_goals try first | (with_reducible first | exact Kept.refl _ | assumption | apply State.wr_kept | apply State.bumpSat_kept | apply State.enterFaulted_kept | apply State.watch_kept | apply State.supplyEvent_kept | apply Kept.ite | apply Kept.foldl | apply Kept.foldlSnd) | split | (with_reducible refine Kept.ofEq (by assumption) ?_) | (with_reducible refine Kept.upd ?_ (by rfl)) | intro _

theorem execLongWarning_kept (k : Fin 13) (s : State) {u : State} (h : execLongWarning k s = .next u) : Kept s u := by
  unfold execLongWarning at h
  cases h
  try dsimp only
  iterate 40 all_goals try first | (with_reducible first | exact Kept.refl _ | assumption | apply State.longWarn_kept | apply Kept.ite) | split | (with_reducible refine Kept.ofEq (by assumption) ?_) | intro _

theorem execAvsStep_kept (s : State) {u : State} (h : execAvsStep s = .next u) : Kept s u := by
  unfold execAvsStep at h
  cases h
  try dsimp only
  iterate 40 all_goals try first | (with_reducible first | exact Kept.refl _ | assumption | apply State.wr_kept | apply Kept.ite) | split | (with_reducible refine Kept.ofEq (by assumption) ?_) | (with_reducible refine Kept.upd ?_ (by rfl))

theorem execTbIncWrite_kept (m : Master) (v : Word) (s : State) {u : State} (h : execTbIncWrite m v s = .next u) : Kept s u := by
  unfold execTbIncWrite at h
  cases h
  try dsimp only
  iterate 40 all_goals try first | (with_reducible first | exact Kept.refl _ | assumption | apply State.unfrozen_kept | apply State.writeTbInc_kept | apply State.accessBy_kept) | intro _

theorem execRingRefclkLoss_kept (s : State) {u : State} (h : execRingRefclkLoss s = .next u) : Kept s u := by
  unfold execRingRefclkLoss at h
  cases h
  try dsimp only
  iterate 40 all_goals try first | (with_reducible first | exact Kept.refl _ | assumption | apply State.wr_kept | apply State.unfrozen_kept | apply State.rportDown_kept | apply Kept.ite) | split | (with_reducible refine Kept.ofEq (by assumption) ?_) | intro _

theorem execPllLockLoss_kept (i : Fin 27) (s : State) {u : State} (h : execPllLockLoss i s = .next u) : Kept s u := by
  unfold execPllLockLoss at h
  cases h
  try dsimp only
  iterate 40 all_goals try first | (with_reducible first | exact Kept.refl _ | assumption | apply State.wr_kept | apply State.unfrozen_kept | apply State.uncalibrate_kept | apply State.watch_kept | apply Kept.ite | apply Kept.elim) | split | (with_reducible refine Kept.ofEq (by assumption) ?_) | intro _

theorem execPllRelock_kept (i : Fin 27) (s : State) {u : State} (h : execPllRelock i s = .next u) : Kept s u := by
  unfold execPllRelock at h
  cases h
  try dsimp only
  iterate 40 all_goals try first | (with_reducible first | exact Kept.refl _ | assumption | apply State.wr_kept | apply State.unfrozen_kept | apply Kept.ite) | split | (with_reducible refine Kept.ofEq (by assumption) ?_) | intro _

theorem State.abandonWord_kept {s0 : State} (s : State) (hs : Kept s0 s)  : Kept s0 (State.abandonWord s) := by
  refine hs.trans ?_
  clear hs
  unfold State.abandonWord
  try dsimp only
  iterate 40 all_goals try first | (with_reducible first | exact Kept.refl _ | assumption | apply State.draw_kept | apply State.onOtp_kept | apply State.putOtp_kept | apply Kept.ite) | split | (with_reducible refine Kept.ofEq (by assumption) ?_) | (with_reducible refine Kept.upd ?_ (by rfl)) | intro _

theorem State.resetAll_kept {s0 : State} (s : State) (hs : Kept s0 s) : Kept s0 s.resetAll :=
  (State.abandonWord_kept _ hs).trans ⟨rfl, ⟨[], by simp [State.resetAll]⟩, fun _ => rfl, id, fun _ => rfl, fun _ => rfl⟩

theorem keepRs_wf (m : Store Word) : Store.wf resetWord (keepRs m) = true :=
  Store.wf_foldl_put (d := resetWord) (m := []) rfl m (fun e => e.1) _

theorem State.warmReset_kept {s0 : State} (s : State) (src : Nat) (sup : Option Nat) (hs : Kept s0 s) : Kept s0 (s.warmReset src sup) := by
  unfold State.warmReset
  split
  · exact hs
  · exact (State.resetAll_kept _ hs).trans ⟨rfl, ⟨[], by simp⟩, id, id, id, fun _ => keepRs_wf _⟩

theorem State.powerReset_kept {s0 : State} (s : State) (hs : Kept s0 s)  : Kept s0 (State.powerReset s) := by
  refine hs.trans ?_
  clear hs
  unfold State.powerReset
  try dsimp only
  iterate 40 all_goals try first | with_reducible first | exact Kept.refl _ | assumption | apply State.resetAll_kept | (refine Kept.upd ?_ (by rfl))

theorem execPowerOnReset_kept (s : State) {u : State} (h : execPowerOnReset s = .next u) : Kept s u := by
  unfold execPowerOnReset at h
  cases h
  try dsimp only
  iterate 40 all_goals try first | with_reducible first | exact Kept.refl _ | assumption | apply State.powerReset_kept

theorem execResetN_kept (s : State) {u : State} (h : execResetN s = .next u) : Kept s u := by
  unfold execResetN at h
  cases h
  try dsimp only
  iterate 40 all_goals try first | with_reducible first | exact Kept.refl _ | assumption | apply State.warmReset_kept

theorem execSupplyReset_kept (k : Fin 13) (s : State) {u : State} (h : execSupplyReset k s = .next u) : Kept s u := by
  unfold execSupplyReset at h
  cases h
  try dsimp only
  iterate 40 all_goals try first | (with_reducible first | exact Kept.refl _ | assumption | apply State.warmReset_kept | apply State.powerReset_kept | apply Kept.ite) | split | (with_reducible refine Kept.ofEq (by assumption) ?_)

theorem execRefclk25Loss_kept (s : State) {u : State} (h : execRefclk25Loss s = .next u) : Kept s u := by
  unfold execRefclk25Loss at h
  cases h
  try dsimp only
  iterate 40 all_goals try first | with_reducible first | exact Kept.refl _ | assumption | apply State.warmReset_kept

theorem State.writeRst_kept {s0 : State} (s : State) (v : Word) (hs : Kept s0 s)  : Kept s0 (State.writeRst s v) := by
  refine hs.trans ?_
  clear hs
  unfold State.writeRst
  try dsimp only
  iterate 40 all_goals try first | (with_reducible first | exact Kept.refl _ | assumption | apply State.warmReset_kept | apply Kept.ite) | split | (with_reducible refine Kept.ofEq (by assumption) ?_)

theorem execChipReset_kept (m : Master) (v : Word) (s : State) {u : State} (h : execChipReset m v s = .next u) : Kept s u := by
  unfold execChipReset at h
  cases h
  try dsimp only
  iterate 40 all_goals try first | (with_reducible first | exact Kept.refl _ | assumption | apply State.unfrozen_kept | apply State.accessBy_kept | apply State.writeRst_kept) | intro _

theorem State.recordStart_kept {s0 : State} (s : State) (srcs : List Nat) (hs : Kept s0 s)  : Kept s0 (State.recordStart s srcs) := by
  refine hs.trans ?_
  clear hs
  unfold State.recordStart
  try dsimp only
  iterate 40 all_goals try first | (with_reducible first | exact Kept.refl _ | assumption | apply State.wr_kept | apply State.bump_kept | apply Kept.ite | apply Kept.foldl | apply Kept.foldlSnd) | split | (with_reducible refine Kept.ofEq (by assumption) ?_) | intro _

theorem State.startDomains_kept {s0 : State} (s : State) (hs : Kept s0 s)  : Kept s0 (State.startDomains s) := by
  refine hs.trans ?_
  clear hs
  unfold State.startDomains
  try dsimp only
  iterate 40 all_goals try first | (with_reducible first | exact Kept.refl _ | assumption | apply State.wr_kept | apply State.reachOn_kept | apply Kept.ite | apply Kept.foldl | apply Kept.foldlSnd) | split | (with_reducible refine Kept.ofEq (by assumption) ?_) | intro _

theorem State.startController_kept {s0 : State} (s : State) (srcs : List Nat) (hs : Kept s0 s)  : Kept s0 (State.startController s srcs) := by
  refine hs.trans ?_
  clear hs
  unfold State.startController
  try dsimp only
  iterate 40 all_goals try first | with_reducible first | exact Kept.refl _ | assumption | apply State.wr_kept | apply State.loadPermafrost_kept | apply State.bootMp_kept | apply State.recordStart_kept | apply State.startDomains_kept | (refine Kept.upd ?_ (by rfl))

theorem execControllerStart_kept (s : State) {u : State} (h : execControllerStart s = .next u) : Kept s u := by
  unfold execControllerStart at h
  cases h
  try dsimp only
  iterate 40 all_goals try first | (with_reducible first | exact Kept.refl _ | assumption | apply State.watch_kept | apply State.startController_kept | apply Kept.ite) | split | (with_reducible refine Kept.ofEq (by assumption) ?_)

theorem execActivate_kept (q : LoaderReq) (ok : Bool) (s : State) {u : State} (h : execActivate q ok s = .next u) : Kept s u := by
  unfold execActivate at h
  cases h
  try dsimp only
  iterate 40 all_goals try first | (with_reducible first | exact Kept.refl _ | assumption | apply State.unfrozen_kept | apply State.watch_kept | apply State.norFail_kept | apply State.programs_kept | apply State.writeRecord_kept | apply State.updateEvent_kept | apply State.closeSession_kept | apply State.reply_kept | apply State.serveLoader_kept | apply State.inSession_kept | apply State.mpRestart_kept | apply State.warmReset_kept | apply Kept.ite | apply Kept.elim) | split | (with_reducible refine Kept.ofEq (by assumption) ?_) | intro _

end Sys2Proof.Machine
end

