-- ==== Sys2Proof/Laws/KeptHost.lean ====
section
/-! SUPPORT. `Kept` for print go, register writes, the host link, debug, schedules and injections: one lemma for each operation and each command. -/

namespace Sys2Proof.Machine

theorem execPgoAccept_kept (n : Fin 32) (level : Bool) (t : BitVec 64) (s : State) {u : State} (h : execPgoAccept n level t s = .next u) : Kept s u := by
  unfold execPgoAccept at h
  cases h
  try dsimp only
  iterate 40 all_goals try first | (with_reducible first | exact Kept.refl _ | assumption | apply State.wrBit_kept | apply State.bump_kept | apply State.wr64_kept | apply State.unfrozen_kept | apply State.edgeTo_kept | apply State.relayEdge_kept | apply Kept.ite) | split | (with_reducible refine Kept.ofEq (by assumption) ?_) | intro _

theorem State.trackEdge_kept {s0 : State} (s : State) (c seq : Nat) (u : Int) (t : Nat) (hs : Kept s0 s)  : Kept s0 (State.trackEdge s c seq u t) := by
  refine hs.trans ?_
  clear hs
  unfold State.trackEdge
  try dsimp only
  iterate 40 all_goals try first | (with_reducible first | exact Kept.refl _ | assumption | apply State.ringSend_kept | apply Kept.ite) | split | (with_reducible refine Kept.ofEq (by assumption) ?_)

theorem State.noJobEdge_kept {s0 : State} (s : State) (c : Nat) (u : Int) (t : Nat) (hs : Kept s0 s)  : Kept s0 (State.noJobEdge s c u t) := by
  refine hs.trans ?_
  clear hs
  unfold State.noJobEdge
  try dsimp only
  iterate 40 all_goals try first | (with_reducible first | exact Kept.refl _ | assumption | apply State.bumpSat_kept | apply State.rejectNoJob_kept | apply State.trackEdge_kept | apply Kept.ite) | split | (with_reducible refine Kept.ofEq (by assumption) ?_)

theorem State.takeJob_kept {s0 : State} (s : State) (c : Nat) (hs : Kept s0 s)  : Kept s0 (State.takeJob s c).2 := by
  refine hs.trans ?_
  clear hs
  unfold State.takeJob
  try dsimp only
  iterate 40 all_goals try first | (with_reducible first | exact Kept.refl _ | assumption | apply State.setCtx_kept) | split | (with_reducible refine Kept.ofEq (by assumption) ?_) | (with_reducible refine Kept.upd ?_ (by rfl))

theorem State.throttled_kept {s0 : State} (s : State) (c : Nat) (hs : Kept s0 s)  : Kept s0 (State.throttled s c).2 := by
  refine hs.trans ?_
  clear hs
  unfold State.throttled
  try dsimp only
  iterate 40 all_goals try first | (with_reducible first | exact Kept.refl _ | assumption | apply State.bumpSat_kept | apply Kept.ite | apply Kept.foldl | apply Kept.foldlSnd) | split | (with_reducible refine Kept.ofEq (by assumption) ?_) | (with_reducible refine Kept.upd ?_ (by rfl)) | intro _

theorem State.startProduct_kept {s0 : State} (s : State) (c : Nat) (j : Job) (t : Nat) (u : Int) (hs : Kept s0 s)  : Kept s0 (State.startProduct s c j t u) := by
  refine hs.trans ?_
  clear hs
  unfold State.startProduct
  try dsimp only
  iterate 40 all_goals try first | (with_reducible first | exact Kept.refl _ | assumption | apply State.ctxMove_kept | apply State.abortProd_kept | apply State.endProds_kept | apply State.addProd_kept | apply State.captureZones_kept | apply State.haltWalk_kept | apply State.yieldAxes_kept | apply State.trackEdge_kept | apply Kept.ite | apply Kept.foldl | apply Kept.foldlSnd) | split | (with_reducible refine Kept.ofEq (by assumption) ?_) | (with_reducible refine Kept.upd ?_ (by rfl)) | intro _

theorem Kept.mixRegs {s x y : State} (h : Kept s x) (k : Kept s y) : Kept s { x with regs := y.regs } :=
  ⟨h.queue, h.sent, h.dots, h.flash, h.code, k.words⟩

theorem State.throttledIn_kept {s0 : State} (s : State) (st c : Nat) (hs : Kept s0 s) : Kept s0 (s.throttledIn st c).2 := by
  have hk := State.throttled_kept s c hs
  exact Kept.ite (Kept.mixRegs hk hs) hk

theorem State.acceptEdge_kept {s0 : State} (s : State) (c t : Nat) (u : Int) (hs : Kept s0 s)  : Kept s0 (State.acceptEdge s c t u) := by
  refine hs.trans ?_
  clear hs
  unfold State.acceptEdge
  try dsimp only
  iterate 40 all_goals try first | (with_reducible first | exact Kept.refl _ | assumption | apply State.bump_kept | apply State.setCtx_kept | apply State.handOver_kept | apply State.endJob_kept | apply State.noJobEdge_kept | apply State.takeJob_kept | apply State.startProduct_kept | apply State.throttledIn_kept | apply Kept.ite) | split | (with_reducible refine Kept.ofEq (by assumption) ?_) | (with_reducible refine Kept.upd ?_ (by rfl))

theorem execPrintGoEdge_kept (n : Fin 255) (s : State) {u : State} (h : execPrintGoEdge n s = .next u) : Kept s u := by
  unfold execPrintGoEdge at h
  cases h
  try dsimp only
  iterate 40 all_goals try first | (with_reducible first | exact Kept.refl _ | assumption | apply State.bumpSat_kept | apply State.unfrozen_kept | apply State.setCtx_kept | apply State.rejectNoJob_kept | apply State.acceptEdge_kept | apply Kept.ite) | split | (with_reducible refine Kept.ofEq (by assumption) ?_) | (with_reducible refine Kept.upd ?_ (by rfl)) | intro _

theorem execPrintGoTimeout_kept (n : Fin 255) (s : State) {u : State} (h : execPrintGoTimeout n s = .next u) : Kept s u := by
  unfold execPrintGoTimeout at h
  cases h
  try dsimp only
  iterate 40 all_goals try first | (with_reducible first | exact Kept.refl _ | assumption | apply State.unfrozen_kept | apply State.setCtx_kept | apply State.endJob_kept | apply State.takeJob_kept | apply Kept.ite) | split | (with_reducible refine Kept.ofEq (by assumption) ?_) | (with_reducible refine Kept.upd ?_ (by rfl)) | intro _

theorem execRejectPulse_kept (o : PulseOwner) (s : State) {u : State} (h : execRejectPulse o s = .next u) : Kept s u := by
  unfold execRejectPulse at h
  cases h
  try dsimp only
  iterate 40 all_goals try first | (with_reducible first | exact Kept.refl _ | assumption | apply State.unfrozen_kept | apply State.setCtx_kept | apply State.drivePulse_kept | apply State.setRelay_kept | apply Kept.foldl | apply Kept.foldlSnd) | split | (with_reducible refine Kept.ofEq (by assumption) ?_) | (with_reducible refine Kept.upd ?_ (by rfl)) | intro _

theorem execRejectPulseEnd_kept (k : Nat) (s : State) {u : State} (h : execRejectPulseEnd k s = .next u) : Kept s u := by
  unfold execRejectPulseEnd at h
  cases h
  try dsimp only
  iterate 40 all_goals try first | (with_reducible first | exact Kept.refl _ | assumption | apply State.unfrozen_kept | (refine Kept.upd ?_ (by rfl))) | intro _

theorem State.rateOf_kept {s0 : State} (s : State) (t : Int) (past : List Int) (hs : Kept s0 s)  : Kept s0 (State.rateOf s t past).2 := by
  refine hs.trans ?_
  clear hs
  unfold State.rateOf
  try dsimp only
  iterate 40 all_goals try first | (with_reducible first | exact Kept.refl _ | assumption | apply State.draw_kept | apply Kept.ite) | split | (with_reducible refine Kept.ofEq (by assumption) ?_)

theorem State.dwell_kept {s0 : State} (s : State) (c : Nat) (t : Int) (x : HkChan) (hs : Kept s0 s)  : Kept s0 (State.dwell s c t x).2 := by
  refine hs.trans ?_
  clear hs
  unfold State.dwell
  try dsimp only
  iterate 40 all_goals try first | (with_reducible first | exact Kept.refl _ | assumption | apply State.wr_kept | apply State.rateOf_kept | apply Kept.foldl | apply Kept.foldlSnd | (refine Kept.upd ?_ (by rfl))) | intro _

theorem State.dieShutdown_kept {s0 : State} (s : State) (c : Nat) (hs : Kept s0 s)  : Kept s0 (State.dieShutdown s c) := by
  refine hs.trans ?_
  clear hs
  unfold State.dieShutdown
  try dsimp only
  iterate 40 all_goals try first | (with_reducible first | exact Kept.refl _ | assumption | apply State.reportLevel_kept | apply State.stopPulse_kept | apply State.inhibit_kept | apply State.faultAxes_kept | apply State.switchOff_kept | apply Kept.ite | apply Kept.foldl | apply Kept.foldlSnd) | split | (with_reducible refine Kept.ofEq (by assumption) ?_) | (with_reducible refine Kept.upd ?_ (by rfl)) | intro _

theorem State.dieUpdate_kept {s0 : State} (s : State) (c : Nat) (hs : Kept s0 s)  : Kept s0 (State.dieUpdate s c) := by
  refine hs.trans ?_
  clear hs
  unfold State.dieUpdate
  try dsimp only
  iterate 40 all_goals try first | (with_reducible first | exact Kept.refl _ | assumption | apply State.wr_kept | apply State.dieShutdown_kept | apply Kept.ite) | split | (with_reducible refine Kept.ofEq (by assumption) ?_)

theorem State.showDie_kept {s0 : State} (s : State) (hs : Kept s0 s)  : Kept s0 (State.showDie s) := by
  refine hs.trans ?_
  clear hs
  unfold State.showDie
  try dsimp only
  iterate 40 all_goals try first | (with_reducible first | exact Kept.refl _ | assumption | apply State.wr_kept | apply Kept.foldl | apply Kept.foldlSnd) | split | (with_reducible refine Kept.ofEq (by assumption) ?_) | intro _

theorem State.actOn_kept {s0 : State} (s : State) (c old : Nat) (hs : Kept s0 s)  : Kept s0 (State.actOn s c old) := by
  refine hs.trans ?_
  clear hs
  unfold State.actOn
  try dsimp only
  iterate 40 all_goals try first | (with_reducible first | exact Kept.refl _ | assumption | apply State.reportLevel_kept | apply State.standstill_kept | apply State.faultAxis_kept | apply State.headLeaves_kept | apply Kept.ite) | split | (with_reducible refine Kept.ofEq (by assumption) ?_)

theorem State.settleTemp_kept {s0 : State} (s : State) (c : Nat) (x : HkChan) (hot : Bool) (kinds : List Nat) (d3 : Int) (ref : Int) (hs : Kept s0 s)  : Kept s0 (State.settleTemp s c x hot kinds d3 ref) := by
  refine hs.trans ?_
  clear hs
  unfold State.settleTemp
  try dsimp only
  iterate 40 all_goals try first | (with_reducible first | exact Kept.refl _ | assumption | apply State.thermalEvent_kept | apply State.showChan_kept | apply State.dieUpdate_kept | apply State.showDie_kept | apply State.actOn_kept | apply Kept.ite | apply Kept.foldl | apply Kept.foldlSnd) | split | (with_reducible refine Kept.ofEq (by assumption) ?_) | intro _

theorem State.sampleTemp_kept {s0 : State} (s : State) (c code : Nat) (v : Int) (hs : Kept s0 s)  : Kept s0 (State.sampleTemp s c code v) := by
  refine hs.trans ?_
  clear hs
  unfold State.sampleTemp
  try dsimp only
  iterate 40 all_goals try first | (with_reducible first | exact Kept.refl _ | assumption | apply State.dwell_kept | apply State.settleTemp_kept | apply Kept.ite) | split | (with_reducible refine Kept.ofEq (by assumption) ?_) | (with_reducible refine Kept.upd ?_ (by rfl))

theorem State.breakAll_kept {s0 : State} (s : State) (hs : Kept s0 s)  : Kept s0 (State.breakAll s) := by
  refine hs.trans ?_
  clear hs
  unfold State.breakAll
  try dsimp only
  iterate 40 all_goals try first | (with_reducible first | exact Kept.refl _ | assumption | apply State.setChan_kept | apply State.settleTemp_kept | apply Kept.foldl | apply Kept.foldlSnd | (refine Kept.upd ?_ (by rfl))) | intro _

theorem State.endRound_kept {s0 : State} (s : State) (hs : Kept s0 s)  : Kept s0 (State.endRound s) := by
  refine hs.trans ?_
  clear hs
  unfold State.endRound
  try dsimp only
  iterate 40 all_goals try first | (with_reducible first | exact Kept.refl _ | assumption | apply State.wrBit_kept | apply State.bump_kept | apply State.bumpSat_kept | apply State.thermalEvent_kept | apply State.breakAll_kept | apply Kept.ite) | split | (with_reducible refine Kept.ofEq (by assumption) ?_) | (with_reducible refine Kept.upd ?_ (by rfl))

theorem State.sampleChan_kept {s0 : State} (s : State) (c code : Nat) (conv : Int) (hs : Kept s0 s)  : Kept s0 (State.sampleChan s c code conv) := by
  refine hs.trans ?_
  clear hs
  unfold State.sampleChan
  try dsimp only
  iterate 40 all_goals try first | (with_reducible first | exact Kept.refl _ | assumption | apply State.wr_kept | apply State.setChan_kept | apply State.sampleTemp_kept | apply Kept.ite) | split | (with_reducible refine Kept.ofEq (by assumption) ?_) | (with_reducible refine Kept.upd ?_ (by rfl))

theorem State.checkedSample_kept {s0 : State} (s : State) (c code : Nat) (conv : Int) (hs : Kept s0 s)  : Kept s0 (State.checkedSample s c code conv) := by
  refine hs.trans ?_
  clear hs
  unfold State.checkedSample
  try dsimp only
  iterate 40 all_goals try first | (with_reducible first | exact Kept.refl _ | assumption | apply State.report_kept | apply State.injectAt_kept | apply State.dieShutdown_kept | apply State.sampleChan_kept | apply Kept.ite) | split | (with_reducible refine Kept.ofEq (by assumption) ?_) | intro _

theorem State.nextSample_kept {s0 : State} (s : State) (c : Nat) (hs : Kept s0 s)  : Kept s0 (State.nextSample s c) := by
  refine hs.trans ?_
  clear hs
  unfold State.nextSample
  try dsimp only
  iterate 40 all_goals try first | (with_reducible first | exact Kept.refl _ | assumption | apply Kept.ite) | split | (with_reducible refine Kept.ofEq (by assumption) ?_) | (with_reducible refine Kept.upd ?_ (by rfl))

theorem execChannelSample_kept (c : Fin 96) (code : BitVec 12) (conv : Int) (valid : Bool) (s : State) {u : State} (h : execChannelSample c code conv valid s = .next u) : Kept s u := by
  unfold execChannelSample at h
  cases h
  try dsimp only
  iterate 40 all_goals try first | (with_reducible first | exact Kept.refl _ | assumption | apply State.unfrozen_kept | apply State.watchKeep_kept | apply State.endRound_kept | apply State.checkedSample_kept | apply State.nextSample_kept | apply Kept.ite) | split | (with_reducible refine Kept.ofEq (by assumption) ?_) | (with_reducible refine Kept.upd ?_ (by rfl)) | intro _

theorem execDieShutdownFinal_kept (s : State) {u : State} (h : execDieShutdownFinal s = .next u) : Kept s u := by
  unfold execDieShutdownFinal at h
  cases h
  try dsimp only
  iterate 40 all_goals try first | (with_reducible first | exact Kept.refl _ | assumption | apply State.unfrozen_kept | apply State.switchOff_kept | apply Kept.ite) | split | (with_reducible refine Kept.ofEq (by assumption) ?_) | intro _

theorem State.writeKeeping_kept {s0 : State} (s : State) (m : Master) (a : Nat) (keep v : Word) (hs : Kept s0 s)  : Kept s0 (State.writeKeeping s m a keep v) := by
  refine hs.trans ?_
  clear hs
  unfold State.writeKeeping
  try dsimp only
  iterate 40 all_goals try first | with_reducible first | exact Kept.refl _ | assumption | apply State.writeCode_kept

theorem State.payMsix_kept {s0 : State} (s : State) (hs : Kept s0 s)  : Kept s0 (State.payMsix s) := by
  refine hs.trans ?_
  clear hs
  unfold State.payMsix
  try dsimp only
  iterate 40 all_goals try first | (with_reducible first | exact Kept.refl _ | assumption | apply State.wr_kept | apply State.emit_kept | apply Kept.ite | apply Kept.foldl | apply Kept.foldlSnd) | split | (with_reducible refine Kept.ofEq (by assumption) ?_) | intro _

theorem State.resumeFree_kept {s0 : State} (s : State) (k : Nat) (hs : Kept s0 s)  : Kept s0 (State.resumeFree s k) := by
  refine hs.trans ?_
  clear hs
  unfold State.resumeFree
  try dsimp only
  iterate 40 all_goals try first | (with_reducible first | exact Kept.refl _ | assumption | apply State.draw_kept | apply State.resumeRing_kept | apply Kept.ite) | split | (with_reducible refine Kept.ofEq (by assumption) ?_)

theorem State.writeHost_kept {s0 : State} (s : State) (m : Master) (a : Nat) (v : Word) (hs : Kept s0 s)  : Kept s0 (State.writeHost s m a v) := by
  refine hs.trans ?_
  clear hs
  unfold State.writeHost
  try dsimp only
  iterate 40 all_goals try first | (with_reducible first | exact Kept.refl _ | assumption | apply State.writeCode_kept | apply State.writeRctl_kept | apply State.writeRbase_kept | apply State.writeRcons_kept | apply State.writeHostCtl_kept | apply State.writeToken_kept | apply State.payMsix_kept | apply State.resumeFree_kept | apply Kept.ite) | split | (with_reducible refine Kept.ofEq (by assumption) ?_)

theorem State.patchFetch_kept {s0 : State} (s : State) (k : Nat) (l : List Byte) (i : Nat) (x : Nat × Job × Nat) (hs : Kept s0 s)  : Kept s0 (State.patchFetch s k l i x) := by
  refine hs.trans ?_
  clear hs
  unfold State.patchFetch
  try dsimp only
  iterate 40 all_goals try first | (with_reducible first | exact Kept.refl _ | assumption | apply State.onFetchId_kept | (refine Kept.upd ?_ (by rfl))) | intro _

theorem Kept.foldlFst {α β : Type} {f : State × β → α → State × β} {s0 : State} {s : State × β} (l : List α) (hs : Kept s0 s.1)
    (h : ∀ s x, Kept s.1 (f s x).1) : Kept s0 (l.foldl f s).1 := by
  induction l generalizing s with
  | nil => exact hs
  | cons x t ih => exact ih (hs.trans (h s x))

theorem State.writeBuffer_kept {s0 : State} (s : State) (m : Master) (a : Nat) (v : Word) (hs : Kept s0 s) : Kept s0 (s.writeBuffer m a v) := by
  have h0 := State.writeCode_kept s m a v hs
  unfold State.writeBuffer
  dsimp only
  split
  · exact h0
  · refine Kept.foldlFst _ (Kept.foldlFst _ ?_ fun y c => State.setChan32_kept _ _ _ (Kept.refl _))
      fun y x => State.patchFetch_kept _ _ _ _ _ (Kept.refl _)
    dsimp only
    exact State.onBar_kept _ _ (State.draw_kept _ h0)

theorem State.writeEncCfg_kept {s0 : State} (s : State) (m : Master) (n : Nat) (v : Word) (hs : Kept s0 s)  : Kept s0 (State.writeEncCfg s m n v) := by
  refine hs.trans ?_
  clear hs
  unfold State.writeEncCfg
  try dsimp only
  iterate 40 all_goals try first | (with_reducible first | exact Kept.refl _ | assumption | apply State.stillTracker_kept | apply State.writeKeeping_kept | apply Kept.ite) | split | (with_reducible refine Kept.ofEq (by assumption) ?_)

theorem State.writeDib_kept {s0 : State} (s : State) (m : Master) (a : Nat) (v : Word) (hs : Kept s0 s)  : Kept s0 (State.writeDib s m a v) := by
  refine hs.trans ?_
  clear hs
  unfold State.writeDib
  try dsimp only
  iterate 40 all_goals try first | (with_reducible first | exact Kept.refl _ | assumption | apply State.writeCode_kept | apply State.writeEncCfg_kept) | split | (with_reducible refine Kept.ofEq (by assumption) ?_)

theorem State.writeEsp_kept {s0 : State} (s : State) (m : Master) (a : Nat) (v : Word) (hs : Kept s0 s)  : Kept s0 (State.writeEsp s m a v) := by
  refine hs.trans ?_
  clear hs
  unfold State.writeEsp
  try dsimp only
  iterate 40 all_goals try first | (with_reducible first | exact Kept.refl _ | assumption | apply State.writeCode_kept | apply State.writePlate_kept) | split | (with_reducible refine Kept.ofEq (by assumption) ?_)

theorem State.writeShr_kept {s0 : State} (s : State) (m : Master) (a : Nat) (v : Word) (hs : Kept s0 s)  : Kept s0 (State.writeShr s m a v) := by
  refine hs.trans ?_
  clear hs
  unfold State.writeShr
  try dsimp only
  iterate 40 all_goals try first | (with_reducible first | exact Kept.refl _ | assumption | apply State.writeCode_kept | apply State.writeZone_kept | apply State.writeCheck_kept | apply Kept.ite) | split | (with_reducible refine Kept.ofEq (by assumption) ?_)

theorem State.writeGrf_kept {s0 : State} (s : State) (m : Master) (a : Nat) (v : Word) (hs : Kept s0 s)  : Kept s0 (State.writeGrf s m a v) := by
  refine hs.trans ?_
  clear hs
  unfold State.writeGrf
  try dsimp only
  iterate 40 all_goals try first | (with_reducible first | exact Kept.refl _ | assumption | apply State.writeCode_kept | apply State.setNoz_kept | apply State.writeSub_kept | apply Kept.ite) | split | (with_reducible refine Kept.ofEq (by assumption) ?_)

theorem State.writePort_kept {s0 : State} (s : State) (m : Master) (p a : Nat) (v : Word) (hs : Kept s0 s)  : Kept s0 (State.writePort s m p a v) := by
  refine hs.trans ?_
  clear hs
  unfold State.writePort
  try dsimp only
  iterate 40 all_goals try first | (with_reducible first | exact Kept.refl _ | assumption | apply State.writeCode_kept | apply State.writeNvCfg_kept | apply State.writeHregCmd_kept | apply State.writePortCfg_kept | apply State.writeGate_kept | apply State.writeGstat_kept | apply Kept.ite) | split | (with_reducible refine Kept.ofEq (by assumption) ?_)

theorem State.writeCrv_kept {s0 : State} (s : State) (m : Master) (a : Nat) (v : Word) (hs : Kept s0 s)  : Kept s0 (State.writeCrv s m a v) := by
  refine hs.trans ?_
  clear hs
  unfold State.writeCrv
  try dsimp only
  iterate 40 all_goals try first | (with_reducible first | exact Kept.refl _ | assumption | apply State.writeCode_kept | apply State.updateGreq_kept) | split | (with_reducible refine Kept.ofEq (by assumption) ?_)

theorem State.writeBar_kept {s0 : State} (s : State) (m : Master) (a : Nat) (v : Word) (hs : Kept s0 s)  : Kept s0 (State.writeBar s m a v) := by
  refine hs.trans ?_
  clear hs
  unfold State.writeBar
  try dsimp only
  iterate 40 all_goals try first | (with_reducible first | exact Kept.refl _ | assumption | apply State.writeCode_kept | apply State.dmaRestart_kept | apply State.writeChanCtl_kept | apply Kept.ite) | split | (with_reducible refine Kept.ofEq (by assumption) ?_)

theorem State.sendMailbox_kept {s0 : State} (s : State) (b : Nat) (hs : Kept s0 s)  : Kept s0 (State.sendMailbox s b) := by
  refine hs.trans ?_
  clear hs
  unfold State.sendMailbox
  try dsimp only
  iterate 40 all_goals try first | (with_reducible first | exact Kept.refl _ | assumption | apply State.wr_kept | apply State.ringSend_kept | apply State.onRing_kept | apply State.endMailbox_kept | apply Kept.ite) | split | (with_reducible refine Kept.ofEq (by assumption) ?_) | (with_reducible refine Kept.upd ?_ (by rfl)) | intro _

theorem State.writeMailbox_kept {s0 : State} (s : State) (m : Master) (b : Nat) (v : Word) (hs : Kept s0 s)  : Kept s0 (State.writeMailbox s m b v) := by
  refine hs.trans ?_
  clear hs
  unfold State.writeMailbox
  try dsimp only
  iterate 40 all_goals try first | (with_reducible first | exact Kept.refl _ | assumption | apply State.wr_kept | apply State.writeCode_kept | apply State.sendMailbox_kept | apply Kept.ite) | split | (with_reducible refine Kept.ofEq (by assumption) ?_)

theorem execMailboxGo_kept (m : Master) (b : Fin 4) (v : Word) (s : State) {u : State} (h : execMailboxGo m b v s = .next u) : Kept s u := by
  unfold execMailboxGo at h
  cases h
  try dsimp only
  iterate 40 all_goals try first | (with_reducible first | exact Kept.refl _ | assumption | apply State.unfrozen_kept | apply State.accessBy_kept | apply State.writeMailbox_kept) | intro _

theorem State.writeRing_kept {s0 : State} (s : State) (m : Master) (a : Nat) (v : Word) (hs : Kept s0 s)  : Kept s0 (State.writeRing s m a v) := by
  refine hs.trans ?_
  clear hs
  unfold State.writeRing
  try dsimp only
  iterate 40 all_goals try first | (with_reducible first | exact Kept.refl _ | assumption | apply State.writeCode_kept | apply State.settleProds_kept | apply State.refreshRing_kept | apply State.settleVrx_kept | apply State.writeRingCfg_kept | apply State.writeRportCfg_kept | apply State.writeMailbox_kept | apply Kept.ite | apply Kept.foldl | apply Kept.foldlSnd) | split | (with_reducible refine Kept.ofEq (by assumption) ?_) | intro _

theorem State.writeTil_kept {s0 : State} (s : State) (m : Master) (a : Nat) (v : Word) (hs : Kept s0 s)  : Kept s0 (State.writeTil s m a v) := by
  refine hs.trans ?_
  clear hs
  unfold State.writeTil
  try dsimp only
  iterate 40 all_goals try first | (with_reducible first | exact Kept.refl _ | assumption | apply State.writeCode_kept | apply State.writeAxCfg_kept | apply State.writeDecel_kept | apply State.writeAxCtl_kept | apply State.writeTilCtl_kept | apply Kept.ite) | split | (with_reducible refine Kept.ofEq (by assumption) ?_)

theorem State.writeHk_kept {s0 : State} (s : State) (m : Master) (a : Nat) (v : Word) (hs : Kept s0 s)  : Kept s0 (State.writeHk s m a v) := by
  refine hs.trans ?_
  clear hs
  unfold State.writeHk
  try dsimp only
  iterate 40 all_goals try first | (with_reducible first | exact Kept.refl _ | assumption | apply State.writeCode_kept | apply State.unfit_kept | apply State.dieUpdate_kept | apply State.writeKeeping_kept | apply Kept.ite) | split | (with_reducible refine Kept.ofEq (by assumption) ?_)

theorem State.writeRake_kept {s0 : State} (s : State) (m : Master) (a : Nat) (v : Word) (hs : Kept s0 s)  : Kept s0 (State.writeRake s m a v) := by
  refine hs.trans ?_
  clear hs
  unfold State.writeRake
  try dsimp only
  iterate 40 all_goals try first | (with_reducible first | exact Kept.refl _ | assumption | apply State.writeCode_kept | apply State.writeErrN_kept | apply State.writeRakeCtl_kept | apply State.writeScope_kept | apply State.writeInjCtl_kept | apply Kept.ite) | split | (with_reducible refine Kept.ofEq (by assumption) ?_)

theorem State.writePf_kept {s0 : State} (s : State) (m : Master) (a : Nat) (v : Word) (hs : Kept s0 s)  : Kept s0 (State.writePf s m a v) := by
  refine hs.trans ?_
  clear hs
  unfold State.writePf
  try dsimp only
  iterate 40 all_goals try first | (with_reducible first | exact Kept.refl _ | assumption | apply State.writeCode_kept | apply State.writeProgCtl_kept | apply State.writePfCtl_kept | apply Kept.ite) | split | (with_reducible refine Kept.ofEq (by assumption) ?_)

theorem State.writePcr_kept {s0 : State} (s : State) (m : Master) (a : Nat) (v : Word) (hs : Kept s0 s)  : Kept s0 (State.writePcr s m a v) := by
  refine hs.trans ?_
  clear hs
  unfold State.writePcr
  try dsimp only
  iterate 40 all_goals try first | (with_reducible first | exact Kept.refl _ | assumption | apply State.writeCode_kept | apply State.writeTbInc_kept | apply State.writeWdog_kept | apply State.writeDomCtl_kept | apply State.writeDomRst_kept | apply State.writeRetPort_kept | apply State.writeRetCtx_kept | apply State.writeRetBank_kept | apply State.writeRst_kept | apply Kept.ite) | split | (with_reducible refine Kept.ofEq (by assumption) ?_)

theorem State.writeOpen_kept {s0 : State} (s : State) (m : Master) (b : BlockName) (copy a : Nat) (v : Word) (hs : Kept s0 s)  : Kept s0 (State.writeOpen s m b copy a v) := by
  refine hs.trans ?_
  clear hs
  unfold State.writeOpen
  try dsimp only
  iterate 40 all_goals try first | (with_reducible first | exact Kept.refl _ | assumption | apply State.writeCode_kept | apply State.ringDoorbell_kept | apply State.playNow_kept | apply State.writeCommit_kept | apply State.writeHfCtl_kept | apply State.writeHost_kept | apply State.writeBuffer_kept | apply State.writeDib_kept | apply State.writeEsp_kept | apply State.writeShr_kept | apply State.writeGrf_kept | apply State.writePort_kept | apply State.writeCrv_kept | apply State.writeBar_kept | apply State.writeRing_kept | apply State.writeTil_kept | apply State.writeHk_kept | apply State.writeRake_kept | apply State.writePf_kept | apply State.writePcr_kept | apply Kept.ite) | split | (with_reducible refine Kept.ofEq (by assumption) ?_)

theorem State.writeMpBytes_kept {s0 : State} (s : State) (a : Nat) (part : List (Option Byte)) (hs : Kept s0 s) :
    Kept s0 (s.writeMpBytes a part) := by
  refine hs.trans ⟨rfl, ⟨[], by simp [State.writeMpBytes]⟩, id, id, ?_, id⟩
  show _ → Store.wf _ (part.zipIdx.foldl _ s.mp.mem) = true
  generalize s.mp.mem = l
  generalize part.zipIdx = z
  induction z generalizing l with
  | nil => exact id
  | cons x t ih =>
    obtain ⟨x, j⟩ := x
    intro h
    refine ih _ ?_
    cases x with
    | none => exact h
    | some b => exact Store.wf_put h _ _

theorem State.accessWindow_kept {s0 : State} (s : State) (m : Master) (a : Nat) (part : List (Option Byte)) (hs : Kept s0 s)  : Kept s0 (State.accessWindow s m a part) := by
  refine hs.trans ?_
  clear hs
  unfold State.accessWindow
  try dsimp only
  iterate 40 all_goals try first | (with_reducible first | exact Kept.refl _ | assumption | apply State.reportBy_kept | apply State.writeMpBytes_kept | apply Kept.ite) | split | (with_reducible refine Kept.ofEq (by assumption) ?_)

theorem State.writeReg_kept {s0 : State} (s : State) (m : Master) (a : Nat) (v : Word) (hs : Kept s0 s)  : Kept s0 (State.writeReg s m a v) := by
  refine hs.trans ?_
  clear hs
  unfold State.writeReg
  try dsimp only
  iterate 40 all_goals try first | (with_reducible first | exact Kept.refl _ | assumption | apply State.reportBy_kept | apply State.busCheck_kept | apply State.writeOpen_kept | apply State.accessWindow_kept | apply Kept.ite) | split | (with_reducible refine Kept.ofEq (by assumption) ?_) | intro _

theorem State.writePart_kept {s0 : State} (s : State) (m : Master) (a : Nat) (part : List (Option Byte)) (hs : Kept s0 s)  : Kept s0 (State.writePart s m a part) := by
  refine hs.trans ?_
  clear hs
  unfold State.writePart
  try dsimp only
  iterate 40 all_goals try first | (with_reducible first | exact Kept.refl _ | assumption | apply State.busCheck_kept | apply State.accessBy_kept | apply State.accessWindow_kept | apply State.writeReg_kept | apply Kept.ite) | split | (with_reducible refine Kept.ofEq (by assumption) ?_) | intro _

theorem State.writeMem_kept {s0 : State} (s : State) (m : Master) (a : Nat) (l : List Byte) (hs : Kept s0 s)  : Kept s0 (State.writeMem s m a l) := by
  refine hs.trans ?_
  clear hs
  unfold State.writeMem
  try dsimp only
  iterate 40 all_goals try first | (with_reducible first | exact Kept.refl _ | assumption | apply State.writeDots_kept | apply State.writePart_kept | apply Kept.ite | apply Kept.foldl | apply Kept.foldlSnd) | split | (with_reducible refine Kept.ofEq (by assumption) ?_) | intro _

theorem execRegisterWrite_kept (m : Master) (a : BusAddr) (len : Nat) (words : List Word) (s : State) {u : State} (h : execRegisterWrite m a len words s = .next u) : Kept s u := by
  unfold execRegisterWrite at h
  cases h
  try dsimp only
  iterate 40 all_goals try first | (with_reducible first | exact Kept.refl _ | assumption | apply State.unfrozen_kept | apply State.watch_kept | apply State.writeMem_kept) | intro _

theorem State.resetHost_kept {s0 : State} (s : State) (link : Bool) (hs : Kept s0 s)  : Kept s0 (State.resetHost s link) := by
  refine hs.trans ?_
  clear hs
  unfold State.resetHost
  try dsimp only
  iterate 40 all_goals try first | (with_reducible first | exact Kept.refl _ | assumption | apply State.hostReset_kept | apply Kept.ite) | split | (with_reducible refine Kept.ofEq (by assumption) ?_) | (with_reducible refine Kept.upd ?_ (by rfl))

theorem execPerstN_kept (low : Bool) (s : State) {u : State} (h : execPerstN low s = .next u) : Kept s u := by
  unfold execPerstN at h
  cases h
  try dsimp only
  iterate 40 all_goals try first | (with_reducible first | exact Kept.refl _ | assumption | apply State.resetHost_kept | apply Kept.ite) | split | (with_reducible refine Kept.ofEq (by assumption) ?_) | (with_reducible refine Kept.upd ?_ (by rfl))

theorem execFunctionLevelReset_kept (s : State) {u : State} (h : execFunctionLevelReset s = .next u) : Kept s u := by
  unfold execFunctionLevelReset at h
  cases h
  try dsimp only
  iterate 40 all_goals try first | with_reducible first | exact Kept.refl _ | assumption | apply State.resetHost_kept

theorem State.trained_kept {s0 : State} (s : State) (was : Nat × Nat) (speed width : Nat) (hs : Kept s0 s)  : Kept s0 (State.trained s was speed width) := by
  refine hs.trans ?_
  clear hs
  unfold State.trained
  try dsimp only
  iterate 40 all_goals try first | (with_reducible first | exact Kept.refl _ | assumption | apply State.event_kept | apply Kept.ite) | split | (with_reducible refine Kept.ofEq (by assumption) ?_) | (with_reducible refine Kept.upd ?_ (by rfl))

theorem execPcieLinkChange_kept (speed : LinkSpeed) (width : LinkWidth) (s : State) {u : State} (h : execPcieLinkChange speed width s = .next u) : Kept s u := by
  unfold execPcieLinkChange at h
  cases h
  try dsimp only
  iterate 40 all_goals try first | (with_reducible first | exact Kept.refl _ | assumption | apply State.unfrozen_kept | apply State.trained_kept | apply Kept.ite) | split | (with_reducible refine Kept.ofEq (by assumption) ?_) | intro _

theorem State.linkDown_kept {s0 : State} (s : State) (hs : Kept s0 s)  : Kept s0 (State.linkDown s) := by
  refine hs.trans ?_
  clear hs
  unfold State.linkDown
  try dsimp only
  iterate 40 all_goals try first | (with_reducible first | exact Kept.refl _ | assumption | apply State.linkHalt_kept | apply Kept.ite) | split | (with_reducible refine Kept.ofEq (by assumption) ?_) | (with_reducible refine Kept.upd ?_ (by rfl))

theorem execPcieLinkDown_kept (s : State) {u : State} (h : execPcieLinkDown s = .next u) : Kept s u := by
  unfold execPcieLinkDown at h
  cases h
  try dsimp only
  iterate 40 all_goals try first | (with_reducible first | exact Kept.refl _ | assumption | apply State.unfrozen_kept | apply State.linkDown_kept | apply Kept.ite) | split | (with_reducible refine Kept.ofEq (by assumption) ?_) | intro _

theorem execPcieLinkUp_kept (speed : LinkSpeed) (width : LinkWidth) (s : State) {u : State} (h : execPcieLinkUp speed width s = .next u) : Kept s u := by
  unfold execPcieLinkUp at h
  cases h
  try dsimp only
  iterate 40 all_goals try first | (with_reducible first | exact Kept.refl _ | assumption | apply State.unfrozen_kept | apply State.trained_kept | apply Kept.ite) | split | (with_reducible refine Kept.ofEq (by assumption) ?_) | intro _

theorem State.setCfg_kept {s0 : State} (s : State) (f : CfgSpace → CfgSpace) (hs : Kept s0 s)  : Kept s0 (State.setCfg s f) := by
  refine hs.trans ?_
  clear hs
  unfold State.setCfg
  try dsimp only
  iterate 40 all_goals try first | with_reducible first | exact Kept.refl _ | assumption | (refine Kept.upd ?_ (by rfl))

theorem State.revision_kept {s0 : State} (s : State) (hs : Kept s0 s)  : Kept s0 (State.revision s).2 := by
  refine hs.trans ?_
  clear hs
  unfold State.revision
  try dsimp only
  iterate 40 all_goals try first | (with_reducible first | exact Kept.refl _ | assumption | apply State.draw_kept | apply Kept.ite) | split | (with_reducible refine Kept.ofEq (by assumption) ?_)

theorem State.readConfig_kept {s0 : State} (s : State) (off : Nat) (hs : Kept s0 s)  : Kept s0 (State.readConfig s off).2 := by
  refine hs.trans ?_
  clear hs
  unfold State.readConfig
  try dsimp only
  iterate 40 all_goals try first | (with_reducible first | exact Kept.refl _ | assumption | apply State.drawWord_kept | apply State.revision_kept | apply Kept.ite) | split | (with_reducible refine Kept.ofEq (by assumption) ?_)

theorem State.writeConfig_kept {s0 : State} (s : State) (r : ConfigReq) (hs : Kept s0 s) : Kept s0 (s.writeConfig r) := by
  unfold State.writeConfig
  iterate 10 all_goals try (first | with_reducible assumption | (with_reducible apply State.setCfg_kept) | (with_reducible apply State.payMsix_kept) | split)

theorem execConfigurationRequest_kept (req : ConfigReq) (s : State) {u : State} (h : execConfigurationRequest req s = .next u) : Kept s u := by
  unfold execConfigurationRequest at h
  cases h
  try dsimp only
  iterate 40 all_goals try first | (with_reducible first | exact Kept.refl _ | assumption | apply State.unfrozen_kept | apply State.drawWord_kept | apply State.emit_kept | apply State.readConfig_kept | apply State.writeConfig_kept | apply Kept.ite) | split | (with_reducible refine Kept.ofEq (by assumption) ?_) | intro _

theorem execFreezePin_kept (s : State) {u : State} (h : execFreezePin s = .next u) : Kept s u := by
  unfold execFreezePin at h
  cases h
  try dsimp only
  iterate 40 all_goals try first | with_reducible first | exact Kept.refl _ | assumption | apply State.freeze_kept | (refine Kept.upd ?_ (by rfl))

theorem execFreezeRegister_kept (m : Master) (v : Word) (s : State) {u : State} (h : execFreezeRegister m v s = .next u) : Kept s u := by
  unfold execFreezeRegister at h
  cases h
  try dsimp only
  iterate 40 all_goals try first | (with_reducible first | exact Kept.refl _ | assumption | apply State.unfrozen_kept | apply State.accessBy_kept | apply State.writeHfCtl_kept) | intro _

theorem execIslandStopped_kept (i : Fin 27) (s : State) {u : State} (h : execIslandStopped i s = .next u) : Kept s u := by
  unfold execIslandStopped at h
  cases h
  try dsimp only
  iterate 40 all_goals try first | (with_reducible first | exact Kept.refl _ | assumption | apply State.wr_kept | apply State.settleFrozen_kept | apply Kept.ite) | split | (with_reducible refine Kept.ofEq (by assumption) ?_)

theorem State.skipTime_kept {s0 : State} (s : State) (d : Nat) (hs : Kept s0 s)  : Kept s0 (State.skipTime s d) := by
  refine hs.trans ?_
  clear hs
  unfold State.skipTime
  try dsimp only
  iterate 40 all_goals try first | (with_reducible first | exact Kept.refl _ | assumption | (refine Kept.upd ?_ (by rfl))) | intro _

theorem State.gatesBack_kept {s0 : State} (s : State) (a : Nat) (hs : Kept s0 s)  : Kept s0 (State.gatesBack s a) := by
  refine hs.trans ?_
  clear hs
  unfold State.gatesBack
  try dsimp only
  iterate 40 all_goals try first | with_reducible first | exact Kept.refl _ | assumption | apply State.driveGates_kept

theorem State.thawAxis_kept {s0 : State} (s : State) (a : Nat) (hs : Kept s0 s)  : Kept s0 (State.thawAxis s a) := by
  refine hs.trans ?_
  clear hs
  unfold State.thawAxis
  try dsimp only
  iterate 40 all_goals try first | (with_reducible first | exact Kept.refl _ | assumption | apply State.wr_kept | apply State.onAxis_kept | apply State.showAxis_kept | apply State.rechop_kept | apply State.bridgesOff_kept | apply State.clearMotion_kept | apply State.gatesBack_kept | apply Kept.ite) | split | (with_reducible refine Kept.ofEq (by assumption) ?_) | (with_reducible refine Kept.upd ?_ (by rfl)) | intro _

theorem State.thawPort_kept {s0 : State} (s : State) (p : Nat) (hs : Kept s0 s)  : Kept s0 (State.thawPort s p) := by
  refine hs.trans ?_
  clear hs
  unfold State.thawPort
  try dsimp only
  iterate 40 all_goals try first | (with_reducible first | exact Kept.refl _ | assumption | apply State.cutSlot_kept | apply State.leaveReady_kept | apply State.neveLost_kept | apply Kept.ite) | split | (with_reducible refine Kept.ofEq (by assumption) ?_)

theorem State.resumeUnits_kept {s0 : State} (s : State) (perst : Bool) (hs : Kept s0 s)  : Kept s0 (State.resumeUnits s perst) := by
  refine hs.trans ?_
  clear hs
  unfold State.resumeUnits
  try dsimp only
  iterate 40 all_goals try first | (with_reducible first | exact Kept.refl _ | assumption | apply State.uncalibrate_kept | apply State.stillTracker_kept | apply State.enterFaulted_kept | apply State.endSession_kept | apply State.settleKeep_kept | apply State.rportDown_kept | apply State.usbDetach_kept | apply State.hostReset_kept | apply State.resumeOtp_kept | apply State.linkDown_kept | apply State.thawAxis_kept | apply State.thawPort_kept | apply Kept.ite | apply Kept.foldl | apply Kept.foldlSnd) | split | (with_reducible refine Kept.ofEq (by assumption) ?_) | intro _

theorem State.release_kept {s0 : State} (s : State) (hs : Kept s0 s)  : Kept s0 (State.release s) := by
  refine hs.trans ?_
  clear hs
  unfold State.release
  try dsimp only
  iterate 40 all_goals try first | (with_reducible first | exact Kept.refl _ | assumption | apply State.wr_kept | apply State.watch_kept | apply State.skipTime_kept | apply State.resumeUnits_kept | apply Kept.ite) | split | (with_reducible refine Kept.ofEq (by assumption) ?_) | (with_reducible refine Kept.upd ?_ (by rfl))

theorem execFreezeReleasePin_kept (s : State) {u : State} (h : execFreezeReleasePin s = .next u) : Kept s u := by
  unfold execFreezeReleasePin at h
  cases h
  try dsimp only
  iterate 40 all_goals try first | (with_reducible first | exact Kept.refl _ | assumption | apply State.release_kept | apply Kept.ite) | split | (with_reducible refine Kept.ofEq (by assumption) ?_) | (with_reducible refine Kept.upd ?_ (by rfl))

theorem execReleaseTimeout_kept (s : State) {u : State} (h : execReleaseTimeout s = .next u) : Kept s u := by
  unfold execReleaseTimeout at h
  cases h
  try dsimp only
  iterate 40 all_goals try first | (with_reducible first | exact Kept.refl _ | assumption | apply State.release_kept | apply Kept.ite) | split | (with_reducible refine Kept.ofEq (by assumption) ?_)

theorem State.shiftOut_kept {s0 : State} (s : State) (ir drive : Nat) (bits : List Bool) (hs : Kept s0 s)  : Kept s0 (State.shiftOut s ir drive bits) := by
  refine hs.trans ?_
  clear hs
  unfold State.shiftOut
  try dsimp only
  iterate 40 all_goals try first | with_reducible first | exact Kept.refl _ | assumption | apply State.emit_kept | (refine Kept.upd ?_ (by rfl))

theorem execHfSel_kept (n : BitVec 8) (s : State) {u : State} (h : execHfSel n s = .next u) : Kept s u := by
  unfold execHfSel at h
  cases h
  try dsimp only
  iterate 40 all_goals try first | with_reducible first | exact Kept.refl _ | assumption | apply State.shiftOut_kept | (refine Kept.upd ?_ (by rfl))

theorem State.flipFlops_kept {s0 : State} (s : State) (hs : Kept s0 s)  : Kept s0 (State.flipFlops s).2 := by
  refine hs.trans ?_
  clear hs
  unfold State.flipFlops
  try dsimp only
  iterate 40 all_goals try first | (with_reducible first | exact Kept.refl _ | assumption | apply State.draw_kept | (refine Kept.upd ?_ (by rfl))) | intro _

theorem State.islandChain_kept {s0 : State} (s : State) (i : Nat) (hs : Kept s0 s)  : Kept s0 (State.islandChain s i).2 := by
  refine hs.trans ?_
  clear hs
  unfold State.islandChain
  try dsimp only
  iterate 40 all_goals try first | (with_reducible first | exact Kept.refl _ | assumption | apply State.flipFlops_kept | apply Kept.ite) | split | (with_reducible refine Kept.ofEq (by assumption) ?_) | intro _

theorem execHfRead_kept (s : State) {u : State} (h : execHfRead s = .next u) : Kept s u := by
  unfold execHfRead at h
  cases h
  try dsimp only
  iterate 40 all_goals try first | (with_reducible first | exact Kept.refl _ | assumption | apply State.shiftOut_kept | apply State.islandChain_kept | apply Kept.ite) | split | (with_reducible refine Kept.ofEq (by assumption) ?_)

theorem State.arrayWord_kept {s0 : State} (s : State) (a : Nat) (hs : Kept s0 s)  : Kept s0 (State.arrayWord s a).2 := by
  refine hs.trans ?_
  clear hs
  unfold State.arrayWord
  try dsimp only
  iterate 40 all_goals try first | (with_reducible first | exact Kept.refl _ | assumption | apply State.drawWord_kept | apply State.mpWord_kept | apply Kept.ite) | split | (with_reducible refine Kept.ofEq (by assumption) ?_) | intro _

theorem execHfMem_kept (a : BitVec 32) (s : State) {u : State} (h : execHfMem a s = .next u) : Kept s u := by
  unfold execHfMem at h
  cases h
  try dsimp only
  iterate 40 all_goals try first | with_reducible first | exact Kept.refl _ | assumption | apply State.shiftOut_kept | apply State.arrayWord_kept | (refine Kept.upd ?_ (by rfl))

theorem execHfCtlFreeze_kept (s : State) {u : State} (h : execHfCtlFreeze s = .next u) : Kept s u := by
  unfold execHfCtlFreeze at h
  cases h
  try dsimp only
  iterate 40 all_goals try first | with_reducible first | exact Kept.refl _ | assumption | apply State.freeze_kept | apply State.shiftOut_kept

theorem execHfCtlRelease_kept (s : State) {u : State} (h : execHfCtlRelease s = .next u) : Kept s u := by
  unfold execHfCtlRelease at h
  cases h
  try dsimp only
  iterate 40 all_goals try first | with_reducible first | exact Kept.refl _ | assumption | apply State.release_kept | apply State.shiftOut_kept

theorem execTapReset_kept (s : State) {u : State} (h : execTapReset s = .next u) : Kept s u := by
  unfold execTapReset at h
  cases h
  try dsimp only
  iterate 40 all_goals try first | with_reducible first | exact Kept.refl _ | assumption | (refine Kept.upd ?_ (by rfl))

theorem execIdcode_kept (s : State) {u : State} (h : execIdcode s = .next u) : Kept s u := by
  unfold execIdcode at h
  cases h
  try dsimp only
  iterate 40 all_goals try first | with_reducible first | exact Kept.refl _ | assumption | apply State.shiftOut_kept

theorem execSamplePreload_kept (pins cells : List Bool) (s : State) {u : State} (h : execSamplePreload pins cells s = .next u) : Kept s u := by
  unfold execSamplePreload at h
  cases h
  try dsimp only
  iterate 40 all_goals try first | with_reducible first | exact Kept.refl _ | assumption | apply State.shiftOut_kept | (refine Kept.upd ?_ (by rfl))

theorem State.bypass_kept {s0 : State} (s : State) (ir : Nat) (hs : Kept s0 s)  : Kept s0 (State.bypass s ir) := by
  refine hs.trans ?_
  clear hs
  unfold State.bypass
  try dsimp only
  iterate 40 all_goals try first | with_reducible first | exact Kept.refl _ | assumption | apply State.shiftOut_kept

theorem execExtest_kept (pins cells : List Bool) (s : State) {u : State} (h : execExtest pins cells s = .next u) : Kept s u := by
  unfold execExtest at h
  cases h
  try dsimp only
  iterate 40 all_goals try first | (with_reducible first | exact Kept.refl _ | assumption | apply State.shiftOut_kept | apply State.bypass_kept | apply Kept.ite) | split | (with_reducible refine Kept.ofEq (by assumption) ?_) | (with_reducible refine Kept.upd ?_ (by rfl))

theorem execHighz_kept (s : State) {u : State} (h : execHighz s = .next u) : Kept s u := by
  unfold execHighz at h
  cases h
  try dsimp only
  iterate 40 all_goals try first | (with_reducible first | exact Kept.refl _ | assumption | apply State.shiftOut_kept | apply State.bypass_kept | apply Kept.ite) | split | (with_reducible refine Kept.ofEq (by assumption) ?_)

theorem execClamp_kept (s : State) {u : State} (h : execClamp s = .next u) : Kept s u := by
  unfold execClamp at h
  cases h
  try dsimp only
  iterate 40 all_goals try first | (with_reducible first | exact Kept.refl _ | assumption | apply State.shiftOut_kept | apply State.bypass_kept | apply Kept.ite) | split | (with_reducible refine Kept.ofEq (by assumption) ?_)

theorem execBypass_kept (s : State) {u : State} (h : execBypass s = .next u) : Kept s u := by
  unfold execBypass at h
  cases h
  try dsimp only
  iterate 40 all_goals try first | with_reducible first | exact Kept.refl _ | assumption | apply State.bypass_kept

theorem State.roseCommand_kept {s0 : State} (s : State) (op : Nat) (layout : List Nat) (act : State → MpCmd → Nat → State) (hs : Kept s0 s) (hact : ∀ x0 x1 x2, Kept x0 (act x0 x1 x2)) : Kept s0 (State.roseCommand s op layout act) := by
  refine hs.trans ?_
  clear hs
  have hact' : ∀ s0 x0 x1 x2, Kept s0 x0 → Kept s0 (act x0 x1 x2) := fun _ x0 x1 x2 k => k.trans (hact x0 x1 x2)
  unfold State.roseCommand
  try dsimp only
  iterate 40 all_goals try first | (with_reducible first | exact Kept.refl _ | assumption | apply State.endCommand_kept | apply hact' | apply Kept.ite) | split | (with_reducible refine Kept.ofEq (by assumption) ?_)

theorem State.onPortRegs_kept {s0 : State} (s : State) (p a : Nat) (f : State → State) (hs : Kept s0 s) (hf : ∀ x0, Kept x0 (f x0)) : Kept s0 (State.onPortRegs s p a f) := by
  refine hs.trans ?_
  clear hs
  have hf' : ∀ s0 x0, Kept s0 x0 → Kept s0 (f x0) := fun _ x0 k => k.trans (hf x0)
  unfold State.onPortRegs
  try dsimp only
  iterate 40 all_goals try first | (with_reducible first | exact Kept.refl _ | assumption | apply State.reportBy_kept | apply hf' | apply Kept.ite) | split | (with_reducible refine Kept.ofEq (by assumption) ?_)

theorem State.putSamples_kept {s0 : State} (s : State) (p w : Nat) (l : List Nat) (hs : Kept s0 s)  : Kept s0 (State.putSamples s p w l) := by
  refine hs.trans ?_
  clear hs
  unfold State.putSamples
  try dsimp only
  iterate 40 all_goals try first | (with_reducible first | exact Kept.refl _ | assumption | apply State.setReg_kept | apply Kept.ite | apply Kept.foldl | apply Kept.foldlSnd) | split | (with_reducible refine Kept.ofEq (by assumption) ?_) | intro _

theorem State.putSlot_kept {s0 : State} (s : State) (p w : Nat) (d : Desc) (hs : Kept s0 s)  : Kept s0 (State.putSlot s p w d) := by
  refine hs.trans ?_
  clear hs
  unfold State.putSlot
  try dsimp only
  iterate 40 all_goals try first | with_reducible first | exact Kept.refl _ | assumption | apply State.setReg_kept

theorem State.loadSlot_kept {s0 : State} (s : State) (p w : Nat) (l : List Nat) (hs : Kept s0 s)  : Kept s0 (State.loadSlot s p w l) := by
  refine hs.trans ?_
  clear hs
  unfold State.loadSlot
  try dsimp only
  iterate 40 all_goals try first | (with_reducible first | exact Kept.refl _ | assumption | apply State.wr_kept | apply State.playNow_kept | apply State.onPortRegs_kept | apply State.putSamples_kept) | intro _

theorem State.failLoad_kept {s0 : State} (s : State) (c : MpCmd) (p w : Nat) (l : List Nat) (hs : Kept s0 s)  : Kept s0 (State.failLoad s c p w l) := by
  refine hs.trans ?_
  clear hs
  unfold State.failLoad
  try dsimp only
  iterate 40 all_goals try first | (with_reducible first | exact Kept.refl _ | assumption | apply State.draw_kept | apply State.endCommand_kept | apply State.loadSlot_kept | apply Kept.ite) | split | (with_reducible refine Kept.ofEq (by assumption) ?_)

theorem execWaveLoad_kept (src : HostRead) (s : State) {u : State} (h : execWaveLoad src s = .next u) : Kept s u := by
  unfold execWaveLoad at h
  cases h
  try dsimp only
  iterate 40 all_goals try first | (with_reducible first | exact Kept.refl _ | assumption | apply State.unfrozen_kept | apply State.endCommand_kept | apply State.holdCommand_kept | apply State.watch_kept | apply State.feed_kept | apply State.roseCommand_kept | apply State.onPortRegs_kept | apply State.putSlot_kept | apply State.loadSlot_kept | apply State.failLoad_kept | apply Kept.ite) | split | (with_reducible refine Kept.ofEq (by assumption) ?_) | intro _

theorem State.putThermal_kept {s0 : State} (s : State) (p : Nat) (d : Desc) (l : List Nat) (hs : Kept s0 s)  : Kept s0 (State.putThermal s p d l) := by
  refine hs.trans ?_
  clear hs
  unfold State.putThermal
  try dsimp only
  iterate 40 all_goals try first | (with_reducible first | exact Kept.refl _ | assumption | apply State.setReg_kept | apply State.onPortRegs_kept | apply Kept.foldl | apply Kept.foldlSnd) | intro _

theorem execThermalLoad_kept (src : HostRead) (s : State) {u : State} (h : execThermalLoad src s = .next u) : Kept s u := by
  unfold execThermalLoad at h
  cases h
  try dsimp only
  iterate 40 all_goals try first | (with_reducible first | exact Kept.refl _ | assumption | apply State.unfrozen_kept | apply State.endCommand_kept | apply State.holdCommand_kept | apply State.watch_kept | apply State.feed_kept | apply State.roseCommand_kept | apply State.putThermal_kept | apply Kept.ite) | split | (with_reducible refine Kept.ofEq (by assumption) ?_) | intro _

theorem execDroopLoad_kept (src : HostRead) (s : State) {u : State} (h : execDroopLoad src s = .next u) : Kept s u := by
  unfold execDroopLoad at h
  cases h
  try dsimp only
  iterate 40 all_goals try first | (with_reducible first | exact Kept.refl _ | assumption | apply State.wr_kept | apply State.unfrozen_kept | apply State.endCommand_kept | apply State.holdCommand_kept | apply State.feed_kept | apply State.roseCommand_kept | apply State.onPortRegs_kept | apply Kept.ite | apply Kept.foldl | apply Kept.foldlSnd) | split | (with_reducible refine Kept.ofEq (by assumption) ?_) | intro _

theorem State.beginWalk_kept {s0 : State} (s : State) (d : Desc) (p : Nat) (l : List (Nat × Nat)) (hs : Kept s0 s)  : Kept s0 (State.beginWalk s d p l) := by
  refine hs.trans ?_
  clear hs
  unfold State.beginWalk
  try dsimp only
  iterate 40 all_goals try first | with_reducible first | exact Kept.refl _ | assumption | apply State.wr_kept | apply State.beginCommand_kept | apply State.senseNext_kept | (refine Kept.upd ?_ (by rfl))

theorem execCrevasseRef_kept (list : HostRead) (s : State) {u : State} (h : execCrevasseRef list s = .next u) : Kept s u := by
  unfold execCrevasseRef at h
  cases h
  try dsimp only
  iterate 40 all_goals try first | (with_reducible first | exact Kept.refl _ | assumption | apply State.unfrozen_kept | apply State.endCommand_kept | apply State.holdCommand_kept | apply State.watch_kept | apply State.feed_kept | apply State.beginWalk_kept | apply Kept.ite) | split | (with_reducible refine Kept.ofEq (by assumption) ?_) | intro _

theorem execAxisConfig_kept (src : HostRead) (s : State) {u : State} (h : execAxisConfig src s = .next u) : Kept s u := by
  unfold execAxisConfig at h
  cases h
  try dsimp only
  iterate 40 all_goals try first | (with_reducible first | exact Kept.refl _ | assumption | apply State.unfrozen_kept | apply State.endCommand_kept | apply State.holdCommand_kept | apply State.feed_kept | apply State.writeReg_kept | apply Kept.ite | apply Kept.foldl | apply Kept.foldlSnd) | split | (with_reducible refine Kept.ofEq (by assumption) ?_) | intro _

theorem execSettingsRead_kept (ok : Bool) (s : State) {u : State} (h : execSettingsRead ok s = .next u) : Kept s u := by
  unfold execSettingsRead at h
  cases h
  try dsimp only
  iterate 40 all_goals try first | (with_reducible first | exact Kept.refl _ | assumption | apply State.unfrozen_kept | apply State.emit_kept | apply State.finish_kept | apply State.watch_kept | apply State.writeMem_kept | apply Kept.ite) | split | (with_reducible refine Kept.ofEq (by assumption) ?_) | intro _

theorem State.sendReply_kept {s0 : State} (s : State) (dst : Nat) (m : RingMsg) (hs : Kept s0 s)  : Kept s0 (State.sendReply s dst m) := by
  refine hs.trans ?_
  clear hs
  unfold State.sendReply
  try dsimp only
  iterate 40 all_goals try first | (with_reducible first | exact Kept.refl _ | assumption | apply State.ringSend_kept | apply State.onRing_kept | apply Kept.ite) | split | (with_reducible refine Kept.ofEq (by assumption) ?_) | (with_reducible refine Kept.upd ?_ (by rfl)) | intro _

theorem State.serveMgmt_kept {s0 : State} (s : State) (src op tag count addr : Nat) (data : List Word) (hs : Kept s0 s)  : Kept s0 (State.serveMgmt s src op tag count addr data) := by
  refine hs.trans ?_
  clear hs
  unfold State.serveMgmt
  try dsimp only
  iterate 40 all_goals try first | (with_reducible first | exact Kept.refl _ | assumption | apply State.watch_kept | apply State.readMem_kept | apply State.writeMem_kept | apply State.sendReply_kept | apply Kept.ite) | split | (with_reducible refine Kept.ofEq (by assumption) ?_) | intro _

theorem State.takeReply_kept {s0 : State} (s : State) (src op tag status : Nat) (data : List Word) (hs : Kept s0 s)  : Kept s0 (State.takeReply s src op tag status data) := by
  refine hs.trans ?_
  clear hs
  unfold State.takeReply
  try dsimp only
  iterate 40 all_goals try first | (with_reducible first | exact Kept.refl _ | assumption | apply State.setReg_kept | apply State.wr_kept | apply State.endMailbox_kept | apply Kept.ite | apply Kept.foldl | apply Kept.foldlSnd) | split | (with_reducible refine Kept.ofEq (by assumption) ?_) | intro _

theorem execMgmt_kept (s : State) {u : State} (h : execMgmt s = .next u) : Kept s u := by
  unfold execMgmt at h
  cases h
  try dsimp only
  iterate 40 all_goals try first | (with_reducible first | exact Kept.refl _ | assumption | apply State.unfrozen_kept | apply State.serveMgmt_kept | apply State.takeReply_kept | apply Kept.ite) | split | (with_reducible refine Kept.ofEq (by assumption) ?_) | (with_reducible exact State.takeFrame_kept (by assumption)) | intro _

theorem execMailboxTimeout_kept (b : Fin 4) (s : State) {u : State} (h : execMailboxTimeout b s = .next u) : Kept s u := by
  unfold execMailboxTimeout at h
  cases h
  try dsimp only
  iterate 40 all_goals try first | (with_reducible first | exact Kept.refl _ | assumption | apply State.unfrozen_kept | apply State.endMailbox_kept | apply Kept.ite) | split | (with_reducible refine Kept.ofEq (by assumption) ?_) | intro _

theorem State.slipPort_kept {s0 : State} (s : State) (p : Nat) (hs : Kept s0 s)  : Kept s0 (State.slipPort s p) := by
  refine hs.trans ?_
  clear hs
  unfold State.slipPort
  try dsimp only
  iterate 40 all_goals try first | (with_reducible first | exact Kept.refl _ | assumption | apply State.abortCtx_kept | apply Kept.foldl | apply Kept.foldlSnd) | intro _

theorem State.abortAll_kept {s0 : State} (s : State) (which : Nat → Bool) (status : Nat) (hs : Kept s0 s)  : Kept s0 (State.abortAll s which status) := by
  refine hs.trans ?_
  clear hs
  unfold State.abortAll
  try dsimp only
  iterate 40 all_goals try first | (with_reducible first | exact Kept.refl _ | assumption | apply State.abortCtx_kept | apply Kept.ite | apply Kept.foldl | apply Kept.foldlSnd) | split | (with_reducible refine Kept.ofEq (by assumption) ?_) | intro _

theorem State.slip_kept {s0 : State} (s : State) (i : Nat) (off : Int) (hs : Kept s0 s)  : Kept s0 (State.slip s i off) := by
  refine hs.trans ?_
  clear hs
  unfold State.slip
  try dsimp only
  iterate 40 all_goals try first | (with_reducible first | exact Kept.refl _ | assumption | apply State.report_kept | apply State.setMirror_kept | apply State.slipPort_kept | apply State.abortAll_kept | apply Kept.ite) | split | (with_reducible refine Kept.ofEq (by assumption) ?_) | (with_reducible refine Kept.upd ?_ (by rfl)) | intro _

theorem execTbSync_kept (i : Fin 17) (cross : Nat) (s : State) {u : State} (h : execTbSync i cross s = .next u) : Kept s u := by
  unfold execTbSync at h
  cases h
  try dsimp only
  iterate 40 all_goals try first | (with_reducible first | exact Kept.refl _ | assumption | apply State.unfrozen_kept | apply State.injectAt_kept | apply State.setMirror_kept | apply State.slip_kept | apply Kept.ite) | split | (with_reducible refine Kept.ofEq (by assumption) ?_) | (with_reducible refine Kept.upd ?_ (by rfl)) | intro _

theorem State.calibrate_kept {s0 : State} (s : State) (i : Fin 17) (trips : List Nat) (hs : Kept s0 s)  : Kept s0 (State.calibrate s i trips) := by
  refine hs.trans ?_
  clear hs
  unfold State.calibrate
  try dsimp only
  iterate 40 all_goals try first | (with_reducible first | exact Kept.refl _ | assumption | apply State.unfrozen_kept | apply State.setMirror_kept | apply State.watch_kept | apply Kept.ite) | split | (with_reducible refine Kept.ofEq (by assumption) ?_) | (with_reducible refine Kept.upd ?_ (by rfl)) | intro _

theorem execMirrorCalibrated_kept (c : Fin 17 × List Nat) (s : State) {u : State} (h : execMirrorCalibrated c s = .next u) : Kept s u := by
  unfold execMirrorCalibrated at h
  cases h
  exact State.calibrate_kept s _ _ (Kept.refl _)

theorem State.saturated_kept {s0 : State} (s : State) (n : Nat) (was : Bool) (hs : Kept s0 s)  : Kept s0 (State.saturated s n was) := by
  refine hs.trans ?_
  clear hs
  unfold State.saturated
  try dsimp only
  iterate 40 all_goals try first | (with_reducible first | exact Kept.refl _ | assumption | apply State.report_kept | apply State.abortAll_kept | apply Kept.ite) | split | (with_reducible refine Kept.ofEq (by assumption) ?_) | intro _

theorem execTrackerVisit_kept (n : Fin 24) (s : State) {u : State} (h : execTrackerVisit n s = .next u) : Kept s u := by
  unfold execTrackerVisit at h
  cases h
  try dsimp only
  iterate 40 all_goals try first | (with_reducible first | exact Kept.refl _ | assumption | apply State.wr_kept | apply State.unfrozen_kept | apply State.injectAt_kept | apply State.trackUpdate_kept | apply State.saturated_kept | apply Kept.ite) | split | (with_reducible refine Kept.ofEq (by assumption) ?_) | intro _

theorem State.setGroup_kept {s0 : State} (s : State) (c id : Nat) (g : Group) (hs : Kept s0 s)  : Kept s0 (State.setGroup s c id g) := by
  refine hs.trans ?_
  clear hs
  unfold State.setGroup
  try dsimp only
  iterate 40 all_goals try first | (with_reducible first | exact Kept.refl _ | assumption | apply State.setProd_kept) | split | (with_reducible refine Kept.ofEq (by assumption) ?_) | (with_reducible refine Kept.upd ?_ (by rfl))

theorem State.placeEdges_kept {s0 : State} (s : State) (c : Nat) (hs : Kept s0 s)  : Kept s0 (State.placeEdges s c) := by
  refine hs.trans ?_
  clear hs
  unfold State.placeEdges
  try dsimp only
  iterate 40 all_goals try first | (with_reducible first | exact Kept.refl _ | assumption | apply State.setProd_kept | apply Kept.ite | apply Kept.foldl | apply Kept.foldlSnd) | split | (with_reducible refine Kept.ofEq (by assumption) ?_) | (with_reducible refine Kept.upd ?_ (by rfl)) | intro _

theorem State.armPass_kept {s0 : State} (s : State) (c : Nat) (w : Visit) (hs : Kept s0 s)  : Kept s0 (State.armPass s c w) := by
  refine hs.trans ?_
  clear hs
  unfold State.armPass
  try dsimp only
  iterate 40 all_goals try first | (with_reducible first | exact Kept.refl _ | assumption | apply State.setProd_kept | apply Kept.ite | apply Kept.foldl | apply Kept.foldlSnd) | split | (with_reducible refine Kept.ofEq (by assumption) ?_) | (with_reducible refine Kept.upd ?_ (by rfl)) | intro _

theorem State.releaseLine_kept {s0 : State} (s : State) (c : Nat) (x : Product) (g : Group) (hs : Kept s0 s)  : Kept s0 (State.releaseLine s c x g) := by
  refine hs.trans ?_
  clear hs
  unfold State.releaseLine
  try dsimp only
  iterate 40 all_goals try first | (with_reducible first | exact Kept.refl _ | assumption | apply State.wr_kept | apply State.onPort_kept | apply State.setGroup_kept | apply Kept.foldl | apply Kept.foldlSnd | (refine Kept.upd ?_ (by rfl))) | intro _

theorem State.releaseLines_kept {s0 : State} (c : Nat) (w : Visit) (n : Nat) (s : State) (hs : Kept s0 s) :
    Kept s0 (State.releaseLines c w n s) := by
  induction n generalizing s with
  | zero => exact hs
  | succ n ih =>
    unfold State.releaseLines
    iterate 40 all_goals try (first | with_reducible exact Kept.refl _ | with_reducible assumption | (with_reducible apply ih) | (with_reducible apply State.bumpSat_kept) | (with_reducible apply State.releaseLine_kept) | (with_reducible apply Kept.ite) | (with_reducible apply Kept.foldl) | (with_reducible apply Kept.foldlSnd) | split | (with_reducible refine Kept.ofEq (by assumption) ?_) | (with_reducible refine Kept.upd ?_ (by rfl)) | intro _)


theorem State.endPass_kept {s0 : State} (s : State) (x : Product) (hs : Kept s0 s)  : Kept s0 (State.endPass s x) := by
  refine hs.trans ?_
  clear hs
  unfold State.endPass
  try dsimp only
  iterate 40 all_goals try first | with_reducible first | exact Kept.refl _ | assumption | apply State.bump_kept | apply State.passEnd_kept

theorem State.commitLine_kept {s0 : State} (s : State) (c : Nat) (x : Product) (g : Group) (k : LineKey) (t : Nat) (hs : Kept s0 s)  : Kept s0 (State.commitLine s c x g k t) := by
  refine hs.trans ?_
  clear hs
  unfold State.commitLine
  try dsimp only
  iterate 40 all_goals try first | (with_reducible first | exact Kept.refl _ | assumption | apply State.onPort_kept | apply State.setProd_kept | apply State.setGroup_kept | apply State.endPass_kept | apply Kept.ite | apply Kept.foldl | apply Kept.foldlSnd) | split | (with_reducible refine Kept.ofEq (by assumption) ?_) | (with_reducible refine Kept.upd ?_ (by rfl)) | intro _

theorem State.stretch_kept {s0 : State} (s : State) (c : Nat) (x : Product) (line : Nat) (hs : Kept s0 s)  : Kept s0 (State.stretch s c x line).2 := by
  refine hs.trans ?_
  clear hs
  unfold State.stretch
  try dsimp only
  iterate 40 all_goals try first | (with_reducible first | exact Kept.refl _ | assumption | apply State.bump_kept | apply State.setProd_kept | apply Kept.ite) | split | (with_reducible refine Kept.ofEq (by assumption) ?_) | (with_reducible refine Kept.upd ?_ (by rfl))

theorem State.solveOne_kept {s0 : State} (s : State) (c : Nat) (w : Visit) (id num : Nat) (hs : Kept s0 s)  : Kept s0 (State.solveOne s c w id num) := by
  refine hs.trans ?_
  clear hs
  unfold State.solveOne
  try dsimp only
  iterate 40 all_goals try first | (with_reducible first | exact Kept.refl _ | assumption | apply State.setGroup_kept) | split | (with_reducible refine Kept.ofEq (by assumption) ?_) | (with_reducible refine Kept.upd ?_ (by rfl)) | intro _

theorem State.commitOne_kept {s0 : State} (s : State) (c : Nat) (w : Visit) (id num : Nat) (hs : Kept s0 s) : Kept s0 (s.commitOne c w id num) := by
  refine hs.trans ?_
  clear hs
  unfold State.commitOne
  split
  · exact Kept.refl s
  split
  · exact Kept.refl s
  split
  · exact Kept.refl s
  extract_lets f k s2
  split
  · exact Kept.refl s
  split
  · exact Kept.ite (Kept.refl s) (State.setGroup_kept _ _ _ _ (State.bump_kept _ _ (Kept.refl s)))
  split
  · exact State.commitLine_kept _ _ _ _ _ _ (Kept.refl s)
  have h2 : Kept s s2 := Kept.ite (State.bumpSat_kept _ _ (Kept.refl s)) (Kept.refl s)
  split
  · exact h2
  extract_lets q
  have h3 := State.stretch_kept _ c ‹_› k.line h2
  split
  · exact State.endProds_kept _ _ (State.abortProd_kept _ _ _ _ _ h3)
  · split
    · exact h3
    · exact State.commitLine_kept _ _ _ _ _ _ h3

theorem State.visit_kept {s0 : State} (s : State) (c : Nat) (hs : Kept s0 s)  : Kept s0 (State.visit s c) := by
  refine hs.trans ?_
  clear hs
  unfold State.visit
  try dsimp only
  iterate 40 all_goals try first | (with_reducible first | exact Kept.refl _ | assumption | apply State.wrBit_kept | apply State.placeEdges_kept | apply State.armPass_kept | apply State.releaseLines_kept | apply State.solveOne_kept | apply State.commitOne_kept | apply Kept.foldl | apply Kept.foldlSnd) | intro _

theorem State.checkedVisit_kept {s0 : State} (s : State) (slot c : Nat) (hs : Kept s0 s)  : Kept s0 (State.checkedVisit s slot c) := by
  refine hs.trans ?_
  clear hs
  unfold State.checkedVisit
  try dsimp only
  iterate 40 all_goals try first | (with_reducible first | exact Kept.refl _ | assumption | apply State.drawWord_kept | apply State.injectAt_kept | apply State.reportFiring_kept | apply State.visit_kept) | intro _

theorem execContextVisit_kept (slot : Fin 256) (s : State) {u : State} (h : execContextVisit slot s = .next u) : Kept s u := by
  unfold execContextVisit at h
  cases h
  try dsimp only
  iterate 40 all_goals try first | (with_reducible first | exact Kept.refl _ | assumption | apply State.bump_kept | apply State.unfrozen_kept | apply State.checkedVisit_kept | apply Kept.ite) | split | (with_reducible refine Kept.ofEq (by assumption) ?_) | intro _

theorem State.injTine_kept {s0 : State} (s : State) (hs : Kept s0 s)  : Kept s0 (State.injTine s) := by
  refine hs.trans ?_
  clear hs
  unfold State.injTine
  try dsimp only
  iterate 40 all_goals try first | (with_reducible first | exact Kept.refl _ | assumption | apply State.draw_kept | apply State.report_kept | apply Kept.ite) | split | (with_reducible refine Kept.ofEq (by assumption) ?_)

theorem State.injVenc_kept {s0 : State} (s : State) (hs : Kept s0 s)  : Kept s0 (State.injVenc s) := by
  refine hs.trans ?_
  clear hs
  unfold State.injVenc
  try dsimp only
  iterate 40 all_goals try first | (with_reducible first | exact Kept.refl _ | assumption | apply State.loseVenc_kept | apply Kept.ite) | split | (with_reducible refine Kept.ofEq (by assumption) ?_) | intro _

theorem State.injNeve_kept {s0 : State} (s : State) (p : Nat) (hs : Kept s0 s)  : Kept s0 (State.injNeve s p) := by
  refine hs.trans ?_
  clear hs
  unfold State.injNeve
  try dsimp only
  iterate 40 all_goals try first | (with_reducible first | exact Kept.refl _ | assumption | apply State.watch_kept | apply State.neveLost_kept | apply Kept.ite) | split | (with_reducible refine Kept.ofEq (by assumption) ?_)

theorem State.injLine_kept {s0 : State} (s : State) (p : Nat) (hs : Kept s0 s)  : Kept s0 (State.injLine s p) := by
  refine hs.trans ?_
  clear hs
  unfold State.injLine
  try dsimp only
  iterate 40 all_goals try first | (with_reducible first | exact Kept.refl _ | assumption | apply State.draw_kept | apply State.lineError_kept | apply Kept.ite) | split | (with_reducible refine Kept.ofEq (by assumption) ?_)

theorem State.injBarrow_kept {s0 : State} (s : State) (hs : Kept s0 s)  : Kept s0 (State.injBarrow s) := by
  refine hs.trans ?_
  clear hs
  unfold State.injBarrow
  try dsimp only
  iterate 40 all_goals try first | (with_reducible first | exact Kept.refl _ | assumption | apply State.failRead_kept) | split | (with_reducible refine Kept.ofEq (by assumption) ?_)

theorem State.injRing_kept {s0 : State} (s : State) (hs : Kept s0 s)  : Kept s0 (State.injRing s) := by
  refine hs.trans ?_
  clear hs
  unfold State.injRing
  try dsimp only
  iterate 40 all_goals try first | (with_reducible first | exact Kept.refl _ | assumption | apply State.rportDown_kept | apply Kept.ite) | split | (with_reducible refine Kept.ofEq (by assumption) ?_)

theorem State.injPcie_kept {s0 : State} (s : State) (src : Nat) (hs : Kept s0 s)  : Kept s0 (State.injPcie s src) := by
  refine hs.trans ?_
  clear hs
  unfold State.injPcie
  try dsimp only
  iterate 40 all_goals try first | (with_reducible first | exact Kept.refl _ | assumption | apply State.drawWord_kept | apply State.report_kept | apply Kept.ite) | split | (with_reducible refine Kept.ofEq (by assumption) ?_)

theorem State.injWatchdog_kept {s0 : State} (s : State) (hs : Kept s0 s)  : Kept s0 (State.injWatchdog s) := by
  refine hs.trans ?_
  clear hs
  unfold State.injWatchdog
  try dsimp only
  iterate 40 all_goals try first | (with_reducible first | exact Kept.refl _ | assumption | apply State.drawWord_kept | apply State.report_kept | apply State.watch_kept | apply State.mpRestart_kept | apply Kept.ite) | split | (with_reducible refine Kept.ofEq (by assumption) ?_) | (with_reducible refine Kept.upd ?_ (by rfl))

theorem State.injMpMemory_kept {s0 : State} (s : State) (src : Nat) (hs : Kept s0 s)  : Kept s0 (State.injMpMemory s src) := by
  refine hs.trans ?_
  clear hs
  unfold State.injMpMemory
  try dsimp only
  iterate 40 all_goals try first | (with_reducible first | exact Kept.refl _ | assumption | apply State.drawWord_kept | apply State.report_kept | apply State.watch_kept | apply State.mpRestart_kept | apply Kept.ite) | split | (with_reducible refine Kept.ofEq (by assumption) ?_)

theorem State.injIdle_kept {s0 : State} (s : State) (src : Nat) (hs : Kept s0 s)  : Kept s0 (State.injIdle s src) := by
  refine hs.trans ?_
  clear hs
  unfold State.injIdle
  try dsimp only
  iterate 40 all_goals try first | (with_reducible first | exact Kept.refl _ | assumption | apply State.injTine_kept | apply State.injVenc_kept | apply State.injNeve_kept | apply State.injLine_kept | apply State.injBarrow_kept | apply State.injRing_kept | apply State.injPcie_kept | apply State.injWatchdog_kept | apply State.injMpMemory_kept | apply Kept.ite) | split | (with_reducible refine Kept.ofEq (by assumption) ?_)

theorem State.idleChecks_kept {s0 : State} (s : State) (hs : Kept s0 s)  : Kept s0 (State.idleChecks s) := by
  refine hs.trans ?_
  clear hs
  unfold State.idleChecks
  try dsimp only
  iterate 40 all_goals try first | (with_reducible first | exact Kept.refl _ | assumption | apply State.injFired_kept | apply State.injRail_kept | apply State.markInj_kept | apply State.injIdle_kept | apply Kept.ite) | split | (with_reducible refine Kept.ofEq (by assumption) ?_)

theorem State.idleCycle_kept {s0 : State} (s : State) (hs : Kept s0 s)  : Kept s0 (State.idleCycle s) := by
  refine hs.trans ?_
  clear hs
  unfold State.idleCycle
  try dsimp only
  iterate 40 all_goals try first | (with_reducible first | exact Kept.refl _ | assumption | apply State.idle_kept | apply State.idleChecks_kept | apply Kept.ite) | split | (with_reducible refine Kept.ofEq (by assumption) ?_)

end Sys2Proof.Machine
end

