-- ==== Sys2Proof/Laws/Ops.lean ====
section
/-! SUPPORT. The laws of bit fields and of registers: a read after a write, and what a write leaves alone. -/

namespace Sys2Proof.Machine

/-! ## Bit fields (R11) -/

theorem withBits_toNat (w : Word) (hi lo v : Nat) (h : lo ≤ hi) (h' : hi < 32) :
    (withBits w hi lo v).toNat =
      w.toNat % 2 ^ lo + 2 ^ lo * (v % 2 ^ (hi + 1 - lo) + 2 ^ (hi + 1 - lo) * (w.toNat / 2 ^ lo / 2 ^ (hi + 1 - lo))) := by
  have hq : 0 < 2 ^ lo := Nat.pow_pos (by decide)
  have hr : 0 < 2 ^ (hi + 1 - lo) := Nat.pow_pos (by decide)
  have hw := Nat.div_add_mod w.toNat (2 ^ lo)
  have hb := Nat.div_add_mod (w.toNat / 2 ^ lo) (2 ^ (hi + 1 - lo))
  have hlt := w.isLt
  have hv := Nat.mod_lt v hr
  have hp : 2 ^ lo * 2 ^ (hi + 1 - lo) * 2 ^ (31 - hi) = 2 ^ 32 := by
    rw [← Nat.pow_add, ← Nat.pow_add]; congr 1; omega
  generalize hQ : 2 ^ lo = q at *
  generalize hR : 2 ^ (hi + 1 - lo) = r at *
  generalize hT : 2 ^ (31 - hi) = t at *
  generalize hA : w.toNat % q = A at *
  generalize hB : w.toNat / q % r = B at *
  generalize hC : w.toNat / q / r = C at *
  have hAq : A < q := hA ▸ Nat.mod_lt _ hq
  have hW : w.toNat = A + q * B + q * (r * C) := by
    rw [← hw, ← hb, Nat.mul_add]; omega
  have hCt : C < t := by
    rw [← hC, Nat.div_div_eq_div_mul]
    apply Nat.div_lt_of_lt_mul
    rw [hp]; exact hlt
  have hlt2 : A + q * (v % r + r * C) < 2 ^ 32 := by
    have h1 : v % r + r * C < r * t := by
      have : r * C + r ≤ r * t := by rw [← Nat.mul_succ]; exact Nat.mul_le_mul_left r hCt
      omega
    have h2 : q * (v % r + r * C) + q ≤ q * (r * t) := by rw [← Nat.mul_succ]; exact Nat.mul_le_mul_left q h1
    rw [← hp, Nat.mul_assoc]; omega
  unfold withBits bitsOf
  rw [hQ, hR, Nat.shiftRight_eq_div_pow, hQ, hB, BitVec.toNat_ofNat]
  have he : w.toNat - B * q + v % r * q = A + q * (v % r + r * C) := by
    rw [Nat.mul_comm B q, Nat.mul_comm (v % r) q, Nat.mul_add, hW]; omega
  rw [he]
  exact Nat.mod_eq_of_lt hlt2

/-- A field reads back what was written to it, cut to its width. -/
theorem bitsOf_withBits_same (w : Word) (hi lo v : Nat) (h : lo ≤ hi) (h' : hi < 32) :
    bitsOf (withBits w hi lo v) hi lo = v % 2 ^ (hi + 1 - lo) := by
  have hq : 0 < 2 ^ lo := Nat.pow_pos (by decide)
  have hr : 0 < 2 ^ (hi + 1 - lo) := Nat.pow_pos (by decide)
  rw [bitsOf, withBits_toNat w hi lo v h h', Nat.shiftRight_eq_div_pow, Nat.add_mul_div_left _ _ hq,
    Nat.div_eq_of_lt (Nat.mod_lt _ hq), Nat.zero_add, Nat.add_mul_mod_self_left, Nat.mod_mod]

/-- A write of a field leaves a field above it alone. -/
theorem bitsOf_withBits_above (w : Word) (hi lo v hi' lo' : Nat) (h : lo ≤ hi) (h' : hi < 32) (ha : hi < lo') :
    bitsOf (withBits w hi lo v) hi' lo' = bitsOf w hi' lo' := by
  have hq : 0 < 2 ^ lo := Nat.pow_pos (by decide)
  have hr : 0 < 2 ^ (hi + 1 - lo) := Nat.pow_pos (by decide)
  obtain ⟨k, rfl⟩ : ∃ k, lo' = lo + (hi + 1 - lo) + k := ⟨lo' - (hi + 1), by omega⟩
  have key : ∀ x : Nat, x / 2 ^ (lo + (hi + 1 - lo) + k) = x / 2 ^ lo / 2 ^ (hi + 1 - lo) / 2 ^ k := by
    intro x; rw [Nat.pow_add, Nat.pow_add, Nat.div_div_eq_div_mul, Nat.div_div_eq_div_mul, Nat.mul_assoc]
  unfold bitsOf
  rw [Nat.shiftRight_eq_div_pow, Nat.shiftRight_eq_div_pow, key, key w.toNat, withBits_toNat w hi lo v h h',
    Nat.add_mul_div_left _ _ hq, Nat.div_eq_of_lt (Nat.mod_lt _ hq), Nat.zero_add, Nat.add_mul_div_left _ _ hr,
    Nat.div_eq_of_lt (Nat.mod_lt _ hr), Nat.zero_add]

/-- A write of a field leaves a field below it alone. -/
theorem bitsOf_withBits_below (w : Word) (hi lo v hi' lo' : Nat) (h : lo ≤ hi) (h' : hi < 32) (hb : hi' < lo) (hl : lo' ≤ hi') :
    bitsOf (withBits w hi lo v) hi' lo' = bitsOf w hi' lo' := by
  obtain ⟨k, rfl⟩ : ∃ k, lo = lo' + (hi' + 1 - lo') + k := ⟨lo - (hi' + 1), by omega⟩
  have hp : 0 < 2 ^ lo' := Nat.pow_pos (by decide)
  have hm : 0 < 2 ^ (hi' + 1 - lo') := Nat.pow_pos (by decide)
  have key : ∀ x y : Nat, x % 2 ^ (lo' + (hi' + 1 - lo') + k) = y % 2 ^ (lo' + (hi' + 1 - lo') + k) →
      x / 2 ^ lo' % 2 ^ (hi' + 1 - lo') = y / 2 ^ lo' % 2 ^ (hi' + 1 - lo') := by
    intro x y hxy
    have h1 : x % 2 ^ (lo' + (hi' + 1 - lo')) = y % 2 ^ (lo' + (hi' + 1 - lo')) := by
      have := congrArg (· % 2 ^ (lo' + (hi' + 1 - lo'))) hxy
      rwa [Nat.mod_mod_of_dvd _ (Nat.pow_dvd_pow 2 (Nat.le_add_right _ _)),
        Nat.mod_mod_of_dvd _ (Nat.pow_dvd_pow 2 (Nat.le_add_right _ _))] at this
    rw [Nat.pow_add] at h1
    rw [← Nat.mod_mul_right_div_self x, ← Nat.mod_mul_right_div_self y, h1]
  unfold bitsOf
  rw [Nat.shiftRight_eq_div_pow, Nat.shiftRight_eq_div_pow]
  apply key
  rw [withBits_toNat w hi _ v h h', Nat.add_mul_mod_self_left, Nat.mod_mod]

/-! ## Registers -/

/-- A read of a register after a write of one. -/
theorem State.getReg_setReg (s : State) (a b : Nat) (v : Word) :
    (s.setReg a v).getReg b = if b = a then v else s.getReg b := by
  simp [State.getReg, State.setReg, Store.get_put]

@[simp] theorem State.getReg_setReg_same (s : State) (a : Nat) (v : Word) : (s.setReg a v).getReg a = v := by
  simp [State.getReg_setReg]

theorem State.getReg_setReg_ne (s : State) {a b : Nat} (v : Word) (h : b ≠ a) : (s.setReg a v).getReg b = s.getReg b := by
  simp [State.getReg_setReg, h]

/-- A field of a register map: it lies within a word. -/
def Fld.fits (f : Fld) : Prop := f.lo ≤ f.hi ∧ f.hi < 32

/-- A field reads back what was written to it. -/
theorem State.rd_wr_same (s : State) (f : Fld) (v : Nat) (h : f.fits) : (s.wr f v).rd f = v % 2 ^ (f.hi + 1 - f.lo) := by
  simp [State.rd, State.wr, bitsOf_withBits_same _ _ _ _ h.1 h.2]

/-- A write of a field leaves every other register alone. -/
theorem State.getReg_wr_ne (s : State) (f : Fld) (v : Nat) {a : Nat} (h : a ≠ f.addr) : (s.wr f v).getReg a = s.getReg a :=
  s.getReg_setReg_ne _ h

/-- A write of a field leaves the fields of other registers alone. -/
theorem State.rd_wr_ne (s : State) (f g : Fld) (v : Nat) (h : g.addr ≠ f.addr) : (s.wr f v).rd g = s.rd g := by
  simp [State.rd, State.getReg_wr_ne s f v h]

/-- A write of a field leaves a field of the same register that it does not meet alone. -/
theorem State.rd_wr_apart (s : State) (f g : Fld) (v : Nat) (hf : f.fits) (hg : g.fits) (h : f.hi < g.lo ∨ g.hi < f.lo) :
    (s.wr f v).rd g = s.rd g := by
  by_cases ha : g.addr = f.addr
  · unfold State.rd State.wr
    rw [ha, State.getReg_setReg_same]
    rcases h with h | h
    · exact bitsOf_withBits_above _ _ _ _ _ _ hf.1 hf.2 h
    · exact bitsOf_withBits_below _ _ _ _ _ _ hf.1 hf.2 h hg.1
  · exact s.rd_wr_ne f g v ha

end Sys2Proof.Machine
end

