-- ==== Sys2Proof/Laws/State.lean ====
section
/-! SUPPORT. What each plain update of the state leaves in each field: one lemma for a field and an update. -/

namespace Sys2Proof.Machine

@[simp] theorem State.setReg_pending (s : State) (a : Nat) (v : Word) : (s.setReg a v).pending = s.pending := rfl
@[simp] theorem State.setReg_snaps (s : State) (a : Nat) (v : Word) : (s.setReg a v).snaps = s.snaps := rfl
@[simp] theorem State.setReg_staged (s : State) (a : Nat) (v : Word) : (s.setReg a v).staged = s.staged := rfl
@[simp] theorem State.setReg_mem (s : State) (a : Nat) (v : Word) : (s.setReg a v).mem = s.mem := rfl
@[simp] theorem State.setReg_tb (s : State) (a : Nat) (v : Word) : (s.setReg a v).tb = s.tb := rfl
@[simp] theorem State.setReg_tbFrac (s : State) (a : Nat) (v : Word) : (s.setReg a v).tbFrac = s.tbFrac := rfl
@[simp] theorem State.setReg_free (s : State) (a : Nat) (v : Word) : (s.setReg a v).free = s.free := rfl
@[simp] theorem State.setReg_out (s : State) (a : Nat) (v : Word) : (s.setReg a v).out = s.out := rfl
@[simp] theorem State.setReg_rakeQ (s : State) (a : Nat) (v : Word) : (s.setReg a v).rakeQ = s.rakeQ := rfl
@[simp] theorem State.setReg_host (s : State) (a : Nat) (v : Word) : (s.setReg a v).host = s.host := rfl
@[simp] theorem State.setReg_bar (s : State) (a : Nat) (v : Word) : (s.setReg a v).bar = s.bar := rfl
@[simp] theorem State.setReg_ring (s : State) (a : Nat) (v : Word) : (s.setReg a v).ring = s.ring := rfl
@[simp] theorem State.setReg_mp (s : State) (a : Nat) (v : Word) : (s.setReg a v).mp = s.mp := rfl
@[simp] theorem State.setReg_units (s : State) (a : Nat) (v : Word) : (s.setReg a v).units = s.units := rfl
@[simp] theorem State.setReg_ctxs (s : State) (a : Nat) (v : Word) : (s.setReg a v).ctxs = s.ctxs := rfl
@[simp] theorem State.setReg_trackers (s : State) (a : Nat) (v : Word) : (s.setReg a v).trackers = s.trackers := rfl
@[simp] theorem State.setReg_encoders (s : State) (a : Nat) (v : Word) : (s.setReg a v).encoders = s.encoders := rfl
@[simp] theorem State.setReg_mirrors (s : State) (a : Nat) (v : Word) : (s.setReg a v).mirrors = s.mirrors := rfl
@[simp] theorem State.setReg_esp (s : State) (a : Nat) (v : Word) : (s.setReg a v).esp = s.esp := rfl
@[simp] theorem State.setReg_ports (s : State) (a : Nat) (v : Word) : (s.setReg a v).ports = s.ports := rfl
@[simp] theorem State.setReg_portFire (s : State) (a : Nat) (v : Word) : (s.setReg a v).portFire = s.portFire := rfl
@[simp] theorem State.setReg_rangeFire (s : State) (a : Nat) (v : Word) : (s.setReg a v).rangeFire = s.rangeFire := rfl
@[simp] theorem State.setReg_throttle (s : State) (a : Nat) (v : Word) : (s.setReg a v).throttle = s.throttle := rfl
@[simp] theorem State.setReg_rejActive (s : State) (a : Nat) (v : Word) : (s.setReg a v).rejActive = s.rejActive := rfl
@[simp] theorem State.setReg_hk (s : State) (a : Nat) (v : Word) : (s.setReg a v).hk = s.hk := rfl
@[simp] theorem State.setReg_maskCheck (s : State) (a : Nat) (v : Word) : (s.setReg a v).maskCheck = s.maskCheck := rfl
@[simp] theorem State.setReg_injLast (s : State) (a : Nat) (v : Word) : (s.setReg a v).injLast = s.injLast := rfl
@[simp] theorem State.setReg_walk (s : State) (a : Nat) (v : Word) : (s.setReg a v).walk = s.walk := rfl
@[simp] theorem State.setReg_keep (s : State) (a : Nat) (v : Word) : (s.setReg a v).keep = s.keep := rfl
@[simp] theorem State.setReg_beat (s : State) (a : Nat) (v : Word) : (s.setReg a v).beat = s.beat := rfl
@[simp] theorem State.setReg_axes (s : State) (a : Nat) (v : Word) : (s.setReg a v).axes = s.axes := rfl
@[simp] theorem State.setReg_rake (s : State) (a : Nat) (v : Word) : (s.setReg a v).rake = s.rake := rfl
@[simp] theorem State.setReg_otp (s : State) (a : Nat) (v : Word) : (s.setReg a v).otp = s.otp := rfl
@[simp] theorem State.setReg_nor (s : State) (a : Nat) (v : Word) : (s.setReg a v).nor = s.nor := rfl
@[simp] theorem State.setReg_svc (s : State) (a : Nat) (v : Word) : (s.setReg a v).svc = s.svc := rfl
@[simp] theorem State.setReg_consum (s : State) (a : Nat) (v : Word) : (s.setReg a v).consum = s.consum := rfl
@[simp] theorem State.setReg_pcr (s : State) (a : Nat) (v : Word) : (s.setReg a v).pcr = s.pcr := rfl
@[simp] theorem State.setReg_hf (s : State) (a : Nat) (v : Word) : (s.setReg a v).hf = s.hf := rfl
@[simp] theorem State.setReg_tap (s : State) (a : Nat) (v : Word) : (s.setReg a v).tap = s.tap := rfl
@[simp] theorem State.setReg_round (s : State) (a : Nat) (v : Word) : (s.setReg a v).round = s.round := rfl
@[simp] theorem State.setReg_late (s : State) (a : Nat) (v : Word) : (s.setReg a v).late = s.late := rfl

@[simp] theorem State.emit_pending (s : State) (o : Out) : (s.emit o).pending = s.pending := rfl
@[simp] theorem State.emit_regs (s : State) (o : Out) : (s.emit o).regs = s.regs := rfl
@[simp] theorem State.emit_snaps (s : State) (o : Out) : (s.emit o).snaps = s.snaps := rfl
@[simp] theorem State.emit_staged (s : State) (o : Out) : (s.emit o).staged = s.staged := rfl
@[simp] theorem State.emit_mem (s : State) (o : Out) : (s.emit o).mem = s.mem := rfl
@[simp] theorem State.emit_tb (s : State) (o : Out) : (s.emit o).tb = s.tb := rfl
@[simp] theorem State.emit_tbFrac (s : State) (o : Out) : (s.emit o).tbFrac = s.tbFrac := rfl
@[simp] theorem State.emit_free (s : State) (o : Out) : (s.emit o).free = s.free := rfl
@[simp] theorem State.emit_rakeQ (s : State) (o : Out) : (s.emit o).rakeQ = s.rakeQ := rfl
@[simp] theorem State.emit_host (s : State) (o : Out) : (s.emit o).host = s.host := rfl
@[simp] theorem State.emit_bar (s : State) (o : Out) : (s.emit o).bar = s.bar := rfl
@[simp] theorem State.emit_ring (s : State) (o : Out) : (s.emit o).ring = s.ring := rfl
@[simp] theorem State.emit_mp (s : State) (o : Out) : (s.emit o).mp = s.mp := rfl
@[simp] theorem State.emit_units (s : State) (o : Out) : (s.emit o).units = s.units := rfl
@[simp] theorem State.emit_ctxs (s : State) (o : Out) : (s.emit o).ctxs = s.ctxs := rfl
@[simp] theorem State.emit_trackers (s : State) (o : Out) : (s.emit o).trackers = s.trackers := rfl
@[simp] theorem State.emit_encoders (s : State) (o : Out) : (s.emit o).encoders = s.encoders := rfl
@[simp] theorem State.emit_mirrors (s : State) (o : Out) : (s.emit o).mirrors = s.mirrors := rfl
@[simp] theorem State.emit_esp (s : State) (o : Out) : (s.emit o).esp = s.esp := rfl
@[simp] theorem State.emit_ports (s : State) (o : Out) : (s.emit o).ports = s.ports := rfl
@[simp] theorem State.emit_portFire (s : State) (o : Out) : (s.emit o).portFire = s.portFire := rfl
@[simp] theorem State.emit_rangeFire (s : State) (o : Out) : (s.emit o).rangeFire = s.rangeFire := rfl
@[simp] theorem State.emit_throttle (s : State) (o : Out) : (s.emit o).throttle = s.throttle := rfl
@[simp] theorem State.emit_rejActive (s : State) (o : Out) : (s.emit o).rejActive = s.rejActive := rfl
@[simp] theorem State.emit_hk (s : State) (o : Out) : (s.emit o).hk = s.hk := rfl
@[simp] theorem State.emit_maskCheck (s : State) (o : Out) : (s.emit o).maskCheck = s.maskCheck := rfl
@[simp] theorem State.emit_injLast (s : State) (o : Out) : (s.emit o).injLast = s.injLast := rfl
@[simp] theorem State.emit_walk (s : State) (o : Out) : (s.emit o).walk = s.walk := rfl
@[simp] theorem State.emit_keep (s : State) (o : Out) : (s.emit o).keep = s.keep := rfl
@[simp] theorem State.emit_beat (s : State) (o : Out) : (s.emit o).beat = s.beat := rfl
@[simp] theorem State.emit_axes (s : State) (o : Out) : (s.emit o).axes = s.axes := rfl
@[simp] theorem State.emit_rake (s : State) (o : Out) : (s.emit o).rake = s.rake := rfl
@[simp] theorem State.emit_otp (s : State) (o : Out) : (s.emit o).otp = s.otp := rfl
@[simp] theorem State.emit_nor (s : State) (o : Out) : (s.emit o).nor = s.nor := rfl
@[simp] theorem State.emit_svc (s : State) (o : Out) : (s.emit o).svc = s.svc := rfl
@[simp] theorem State.emit_consum (s : State) (o : Out) : (s.emit o).consum = s.consum := rfl
@[simp] theorem State.emit_pcr (s : State) (o : Out) : (s.emit o).pcr = s.pcr := rfl
@[simp] theorem State.emit_hf (s : State) (o : Out) : (s.emit o).hf = s.hf := rfl
@[simp] theorem State.emit_tap (s : State) (o : Out) : (s.emit o).tap = s.tap := rfl
@[simp] theorem State.emit_round (s : State) (o : Out) : (s.emit o).round = s.round := rfl
@[simp] theorem State.emit_late (s : State) (o : Out) : (s.emit o).late = s.late := rfl

@[simp] theorem State.report_pending (s : State) (k : Nat) (v : Word) : (s.report k v).pending = s.pending := rfl
@[simp] theorem State.report_regs (s : State) (k : Nat) (v : Word) : (s.report k v).regs = s.regs := rfl
@[simp] theorem State.report_snaps (s : State) (k : Nat) (v : Word) : (s.report k v).snaps = s.snaps := rfl
@[simp] theorem State.report_staged (s : State) (k : Nat) (v : Word) : (s.report k v).staged = s.staged := rfl
@[simp] theorem State.report_mem (s : State) (k : Nat) (v : Word) : (s.report k v).mem = s.mem := rfl
@[simp] theorem State.report_tb (s : State) (k : Nat) (v : Word) : (s.report k v).tb = s.tb := rfl
@[simp] theorem State.report_tbFrac (s : State) (k : Nat) (v : Word) : (s.report k v).tbFrac = s.tbFrac := rfl
@[simp] theorem State.report_free (s : State) (k : Nat) (v : Word) : (s.report k v).free = s.free := rfl
@[simp] theorem State.report_out (s : State) (k : Nat) (v : Word) : (s.report k v).out = s.out := rfl
@[simp] theorem State.report_host (s : State) (k : Nat) (v : Word) : (s.report k v).host = s.host := rfl
@[simp] theorem State.report_bar (s : State) (k : Nat) (v : Word) : (s.report k v).bar = s.bar := rfl
@[simp] theorem State.report_ring (s : State) (k : Nat) (v : Word) : (s.report k v).ring = s.ring := rfl
@[simp] theorem State.report_mp (s : State) (k : Nat) (v : Word) : (s.report k v).mp = s.mp := rfl
@[simp] theorem State.report_units (s : State) (k : Nat) (v : Word) : (s.report k v).units = s.units := rfl
@[simp] theorem State.report_ctxs (s : State) (k : Nat) (v : Word) : (s.report k v).ctxs = s.ctxs := rfl
@[simp] theorem State.report_trackers (s : State) (k : Nat) (v : Word) : (s.report k v).trackers = s.trackers := rfl
@[simp] theorem State.report_encoders (s : State) (k : Nat) (v : Word) : (s.report k v).encoders = s.encoders := rfl
@[simp] theorem State.report_mirrors (s : State) (k : Nat) (v : Word) : (s.report k v).mirrors = s.mirrors := rfl
@[simp] theorem State.report_esp (s : State) (k : Nat) (v : Word) : (s.report k v).esp = s.esp := rfl
@[simp] theorem State.report_ports (s : State) (k : Nat) (v : Word) : (s.report k v).ports = s.ports := rfl
@[simp] theorem State.report_portFire (s : State) (k : Nat) (v : Word) : (s.report k v).portFire = s.portFire := rfl
@[simp] theorem State.report_rangeFire (s : State) (k : Nat) (v : Word) : (s.report k v).rangeFire = s.rangeFire := rfl
@[simp] theorem State.report_throttle (s : State) (k : Nat) (v : Word) : (s.report k v).throttle = s.throttle := rfl
@[simp] theorem State.report_rejActive (s : State) (k : Nat) (v : Word) : (s.report k v).rejActive = s.rejActive := rfl
@[simp] theorem State.report_hk (s : State) (k : Nat) (v : Word) : (s.report k v).hk = s.hk := rfl
@[simp] theorem State.report_maskCheck (s : State) (k : Nat) (v : Word) : (s.report k v).maskCheck = s.maskCheck := rfl
@[simp] theorem State.report_injLast (s : State) (k : Nat) (v : Word) : (s.report k v).injLast = s.injLast := rfl
@[simp] theorem State.report_walk (s : State) (k : Nat) (v : Word) : (s.report k v).walk = s.walk := rfl
@[simp] theorem State.report_keep (s : State) (k : Nat) (v : Word) : (s.report k v).keep = s.keep := rfl
@[simp] theorem State.report_beat (s : State) (k : Nat) (v : Word) : (s.report k v).beat = s.beat := rfl
@[simp] theorem State.report_axes (s : State) (k : Nat) (v : Word) : (s.report k v).axes = s.axes := rfl
@[simp] theorem State.report_rake (s : State) (k : Nat) (v : Word) : (s.report k v).rake = s.rake := rfl
@[simp] theorem State.report_otp (s : State) (k : Nat) (v : Word) : (s.report k v).otp = s.otp := rfl
@[simp] theorem State.report_nor (s : State) (k : Nat) (v : Word) : (s.report k v).nor = s.nor := rfl
@[simp] theorem State.report_svc (s : State) (k : Nat) (v : Word) : (s.report k v).svc = s.svc := rfl
@[simp] theorem State.report_consum (s : State) (k : Nat) (v : Word) : (s.report k v).consum = s.consum := rfl
@[simp] theorem State.report_pcr (s : State) (k : Nat) (v : Word) : (s.report k v).pcr = s.pcr := rfl
@[simp] theorem State.report_hf (s : State) (k : Nat) (v : Word) : (s.report k v).hf = s.hf := rfl
@[simp] theorem State.report_tap (s : State) (k : Nat) (v : Word) : (s.report k v).tap = s.tap := rfl
@[simp] theorem State.report_round (s : State) (k : Nat) (v : Word) : (s.report k v).round = s.round := rfl
@[simp] theorem State.report_late (s : State) (k : Nat) (v : Word) : (s.report k v).late = s.late := rfl

@[simp] theorem State.reportBy_pending (s : State) (k : Nat) (v : Word) (m : Master) : (s.reportBy k v m).pending = s.pending := rfl
@[simp] theorem State.reportBy_regs (s : State) (k : Nat) (v : Word) (m : Master) : (s.reportBy k v m).regs = s.regs := rfl
@[simp] theorem State.reportBy_snaps (s : State) (k : Nat) (v : Word) (m : Master) : (s.reportBy k v m).snaps = s.snaps := rfl
@[simp] theorem State.reportBy_staged (s : State) (k : Nat) (v : Word) (m : Master) : (s.reportBy k v m).staged = s.staged := rfl
@[simp] theorem State.reportBy_mem (s : State) (k : Nat) (v : Word) (m : Master) : (s.reportBy k v m).mem = s.mem := rfl
@[simp] theorem State.reportBy_tb (s : State) (k : Nat) (v : Word) (m : Master) : (s.reportBy k v m).tb = s.tb := rfl
@[simp] theorem State.reportBy_tbFrac (s : State) (k : Nat) (v : Word) (m : Master) : (s.reportBy k v m).tbFrac = s.tbFrac := rfl
@[simp] theorem State.reportBy_free (s : State) (k : Nat) (v : Word) (m : Master) : (s.reportBy k v m).free = s.free := rfl
@[simp] theorem State.reportBy_out (s : State) (k : Nat) (v : Word) (m : Master) : (s.reportBy k v m).out = s.out := rfl
@[simp] theorem State.reportBy_host (s : State) (k : Nat) (v : Word) (m : Master) : (s.reportBy k v m).host = s.host := rfl
@[simp] theorem State.reportBy_bar (s : State) (k : Nat) (v : Word) (m : Master) : (s.reportBy k v m).bar = s.bar := rfl
@[simp] theorem State.reportBy_ring (s : State) (k : Nat) (v : Word) (m : Master) : (s.reportBy k v m).ring = s.ring := rfl
@[simp] theorem State.reportBy_mp (s : State) (k : Nat) (v : Word) (m : Master) : (s.reportBy k v m).mp = s.mp := rfl
@[simp] theorem State.reportBy_units (s : State) (k : Nat) (v : Word) (m : Master) : (s.reportBy k v m).units = s.units := rfl
@[simp] theorem State.reportBy_ctxs (s : State) (k : Nat) (v : Word) (m : Master) : (s.reportBy k v m).ctxs = s.ctxs := rfl
@[simp] theorem State.reportBy_trackers (s : State) (k : Nat) (v : Word) (m : Master) : (s.reportBy k v m).trackers = s.trackers := rfl
@[simp] theorem State.reportBy_encoders (s : State) (k : Nat) (v : Word) (m : Master) : (s.reportBy k v m).encoders = s.encoders := rfl
@[simp] theorem State.reportBy_mirrors (s : State) (k : Nat) (v : Word) (m : Master) : (s.reportBy k v m).mirrors = s.mirrors := rfl
@[simp] theorem State.reportBy_esp (s : State) (k : Nat) (v : Word) (m : Master) : (s.reportBy k v m).esp = s.esp := rfl
@[simp] theorem State.reportBy_ports (s : State) (k : Nat) (v : Word) (m : Master) : (s.reportBy k v m).ports = s.ports := rfl
@[simp] theorem State.reportBy_portFire (s : State) (k : Nat) (v : Word) (m : Master) : (s.reportBy k v m).portFire = s.portFire := rfl
@[simp] theorem State.reportBy_rangeFire (s : State) (k : Nat) (v : Word) (m : Master) : (s.reportBy k v m).rangeFire = s.rangeFire := rfl
@[simp] theorem State.reportBy_throttle (s : State) (k : Nat) (v : Word) (m : Master) : (s.reportBy k v m).throttle = s.throttle := rfl
@[simp] theorem State.reportBy_rejActive (s : State) (k : Nat) (v : Word) (m : Master) : (s.reportBy k v m).rejActive = s.rejActive := rfl
@[simp] theorem State.reportBy_hk (s : State) (k : Nat) (v : Word) (m : Master) : (s.reportBy k v m).hk = s.hk := rfl
@[simp] theorem State.reportBy_maskCheck (s : State) (k : Nat) (v : Word) (m : Master) : (s.reportBy k v m).maskCheck = s.maskCheck := rfl
@[simp] theorem State.reportBy_injLast (s : State) (k : Nat) (v : Word) (m : Master) : (s.reportBy k v m).injLast = s.injLast := rfl
@[simp] theorem State.reportBy_walk (s : State) (k : Nat) (v : Word) (m : Master) : (s.reportBy k v m).walk = s.walk := rfl
@[simp] theorem State.reportBy_keep (s : State) (k : Nat) (v : Word) (m : Master) : (s.reportBy k v m).keep = s.keep := rfl
@[simp] theorem State.reportBy_beat (s : State) (k : Nat) (v : Word) (m : Master) : (s.reportBy k v m).beat = s.beat := rfl
@[simp] theorem State.reportBy_axes (s : State) (k : Nat) (v : Word) (m : Master) : (s.reportBy k v m).axes = s.axes := rfl
@[simp] theorem State.reportBy_rake (s : State) (k : Nat) (v : Word) (m : Master) : (s.reportBy k v m).rake = s.rake := rfl
@[simp] theorem State.reportBy_otp (s : State) (k : Nat) (v : Word) (m : Master) : (s.reportBy k v m).otp = s.otp := rfl
@[simp] theorem State.reportBy_nor (s : State) (k : Nat) (v : Word) (m : Master) : (s.reportBy k v m).nor = s.nor := rfl
@[simp] theorem State.reportBy_svc (s : State) (k : Nat) (v : Word) (m : Master) : (s.reportBy k v m).svc = s.svc := rfl
@[simp] theorem State.reportBy_consum (s : State) (k : Nat) (v : Word) (m : Master) : (s.reportBy k v m).consum = s.consum := rfl
@[simp] theorem State.reportBy_pcr (s : State) (k : Nat) (v : Word) (m : Master) : (s.reportBy k v m).pcr = s.pcr := rfl
@[simp] theorem State.reportBy_hf (s : State) (k : Nat) (v : Word) (m : Master) : (s.reportBy k v m).hf = s.hf := rfl
@[simp] theorem State.reportBy_tap (s : State) (k : Nat) (v : Word) (m : Master) : (s.reportBy k v m).tap = s.tap := rfl
@[simp] theorem State.reportBy_round (s : State) (k : Nat) (v : Word) (m : Master) : (s.reportBy k v m).round = s.round := rfl
@[simp] theorem State.reportBy_late (s : State) (k : Nat) (v : Word) (m : Master) : (s.reportBy k v m).late = s.late := rfl

@[simp] theorem State.reportLevel_pending (s : State) (k : Nat) (v : Word) : (s.reportLevel k v).pending = s.pending := rfl
@[simp] theorem State.reportLevel_regs (s : State) (k : Nat) (v : Word) : (s.reportLevel k v).regs = s.regs := rfl
@[simp] theorem State.reportLevel_snaps (s : State) (k : Nat) (v : Word) : (s.reportLevel k v).snaps = s.snaps := rfl
@[simp] theorem State.reportLevel_staged (s : State) (k : Nat) (v : Word) : (s.reportLevel k v).staged = s.staged := rfl
@[simp] theorem State.reportLevel_mem (s : State) (k : Nat) (v : Word) : (s.reportLevel k v).mem = s.mem := rfl
@[simp] theorem State.reportLevel_tb (s : State) (k : Nat) (v : Word) : (s.reportLevel k v).tb = s.tb := rfl
@[simp] theorem State.reportLevel_tbFrac (s : State) (k : Nat) (v : Word) : (s.reportLevel k v).tbFrac = s.tbFrac := rfl
@[simp] theorem State.reportLevel_free (s : State) (k : Nat) (v : Word) : (s.reportLevel k v).free = s.free := rfl
@[simp] theorem State.reportLevel_out (s : State) (k : Nat) (v : Word) : (s.reportLevel k v).out = s.out := rfl
@[simp] theorem State.reportLevel_host (s : State) (k : Nat) (v : Word) : (s.reportLevel k v).host = s.host := rfl
@[simp] theorem State.reportLevel_bar (s : State) (k : Nat) (v : Word) : (s.reportLevel k v).bar = s.bar := rfl
@[simp] theorem State.reportLevel_ring (s : State) (k : Nat) (v : Word) : (s.reportLevel k v).ring = s.ring := rfl
@[simp] theorem State.reportLevel_mp (s : State) (k : Nat) (v : Word) : (s.reportLevel k v).mp = s.mp := rfl
@[simp] theorem State.reportLevel_units (s : State) (k : Nat) (v : Word) : (s.reportLevel k v).units = s.units := rfl
@[simp] theorem State.reportLevel_ctxs (s : State) (k : Nat) (v : Word) : (s.reportLevel k v).ctxs = s.ctxs := rfl
@[simp] theorem State.reportLevel_trackers (s : State) (k : Nat) (v : Word) : (s.reportLevel k v).trackers = s.trackers := rfl
@[simp] theorem State.reportLevel_encoders (s : State) (k : Nat) (v : Word) : (s.reportLevel k v).encoders = s.encoders := rfl
@[simp] theorem State.reportLevel_mirrors (s : State) (k : Nat) (v : Word) : (s.reportLevel k v).mirrors = s.mirrors := rfl
@[simp] theorem State.reportLevel_esp (s : State) (k : Nat) (v : Word) : (s.reportLevel k v).esp = s.esp := rfl
@[simp] theorem State.reportLevel_ports (s : State) (k : Nat) (v : Word) : (s.reportLevel k v).ports = s.ports := rfl
@[simp] theorem State.reportLevel_portFire (s : State) (k : Nat) (v : Word) : (s.reportLevel k v).portFire = s.portFire := rfl
@[simp] theorem State.reportLevel_rangeFire (s : State) (k : Nat) (v : Word) : (s.reportLevel k v).rangeFire = s.rangeFire := rfl
@[simp] theorem State.reportLevel_throttle (s : State) (k : Nat) (v : Word) : (s.reportLevel k v).throttle = s.throttle := rfl
@[simp] theorem State.reportLevel_rejActive (s : State) (k : Nat) (v : Word) : (s.reportLevel k v).rejActive = s.rejActive := rfl
@[simp] theorem State.reportLevel_hk (s : State) (k : Nat) (v : Word) : (s.reportLevel k v).hk = s.hk := rfl
@[simp] theorem State.reportLevel_maskCheck (s : State) (k : Nat) (v : Word) : (s.reportLevel k v).maskCheck = s.maskCheck := rfl
@[simp] theorem State.reportLevel_injLast (s : State) (k : Nat) (v : Word) : (s.reportLevel k v).injLast = s.injLast := rfl
@[simp] theorem State.reportLevel_walk (s : State) (k : Nat) (v : Word) : (s.reportLevel k v).walk = s.walk := rfl
@[simp] theorem State.reportLevel_keep (s : State) (k : Nat) (v : Word) : (s.reportLevel k v).keep = s.keep := rfl
@[simp] theorem State.reportLevel_beat (s : State) (k : Nat) (v : Word) : (s.reportLevel k v).beat = s.beat := rfl
@[simp] theorem State.reportLevel_axes (s : State) (k : Nat) (v : Word) : (s.reportLevel k v).axes = s.axes := rfl
@[simp] theorem State.reportLevel_rake (s : State) (k : Nat) (v : Word) : (s.reportLevel k v).rake = s.rake := rfl
@[simp] theorem State.reportLevel_otp (s : State) (k : Nat) (v : Word) : (s.reportLevel k v).otp = s.otp := rfl
@[simp] theorem State.reportLevel_nor (s : State) (k : Nat) (v : Word) : (s.reportLevel k v).nor = s.nor := rfl
@[simp] theorem State.reportLevel_svc (s : State) (k : Nat) (v : Word) : (s.reportLevel k v).svc = s.svc := rfl
@[simp] theorem State.reportLevel_consum (s : State) (k : Nat) (v : Word) : (s.reportLevel k v).consum = s.consum := rfl
@[simp] theorem State.reportLevel_pcr (s : State) (k : Nat) (v : Word) : (s.reportLevel k v).pcr = s.pcr := rfl
@[simp] theorem State.reportLevel_hf (s : State) (k : Nat) (v : Word) : (s.reportLevel k v).hf = s.hf := rfl
@[simp] theorem State.reportLevel_tap (s : State) (k : Nat) (v : Word) : (s.reportLevel k v).tap = s.tap := rfl
@[simp] theorem State.reportLevel_round (s : State) (k : Nat) (v : Word) : (s.reportLevel k v).round = s.round := rfl
@[simp] theorem State.reportLevel_late (s : State) (k : Nat) (v : Word) : (s.reportLevel k v).late = s.late := rfl

@[simp] theorem State.setRing_pending (s : State) (k : Nat) (r : Ring) : (s.setRing k r).pending = s.pending := rfl
@[simp] theorem State.setRing_regs (s : State) (k : Nat) (r : Ring) : (s.setRing k r).regs = s.regs := rfl
@[simp] theorem State.setRing_snaps (s : State) (k : Nat) (r : Ring) : (s.setRing k r).snaps = s.snaps := rfl
@[simp] theorem State.setRing_staged (s : State) (k : Nat) (r : Ring) : (s.setRing k r).staged = s.staged := rfl
@[simp] theorem State.setRing_mem (s : State) (k : Nat) (r : Ring) : (s.setRing k r).mem = s.mem := rfl
@[simp] theorem State.setRing_tb (s : State) (k : Nat) (r : Ring) : (s.setRing k r).tb = s.tb := rfl
@[simp] theorem State.setRing_tbFrac (s : State) (k : Nat) (r : Ring) : (s.setRing k r).tbFrac = s.tbFrac := rfl
@[simp] theorem State.setRing_free (s : State) (k : Nat) (r : Ring) : (s.setRing k r).free = s.free := rfl
@[simp] theorem State.setRing_out (s : State) (k : Nat) (r : Ring) : (s.setRing k r).out = s.out := rfl
@[simp] theorem State.setRing_rakeQ (s : State) (k : Nat) (r : Ring) : (s.setRing k r).rakeQ = s.rakeQ := rfl
@[simp] theorem State.setRing_bar (s : State) (k : Nat) (r : Ring) : (s.setRing k r).bar = s.bar := rfl
@[simp] theorem State.setRing_ring (s : State) (k : Nat) (r : Ring) : (s.setRing k r).ring = s.ring := rfl
@[simp] theorem State.setRing_mp (s : State) (k : Nat) (r : Ring) : (s.setRing k r).mp = s.mp := rfl
@[simp] theorem State.setRing_units (s : State) (k : Nat) (r : Ring) : (s.setRing k r).units = s.units := rfl
@[simp] theorem State.setRing_ctxs (s : State) (k : Nat) (r : Ring) : (s.setRing k r).ctxs = s.ctxs := rfl
@[simp] theorem State.setRing_trackers (s : State) (k : Nat) (r : Ring) : (s.setRing k r).trackers = s.trackers := rfl
@[simp] theorem State.setRing_encoders (s : State) (k : Nat) (r : Ring) : (s.setRing k r).encoders = s.encoders := rfl
@[simp] theorem State.setRing_mirrors (s : State) (k : Nat) (r : Ring) : (s.setRing k r).mirrors = s.mirrors := rfl
@[simp] theorem State.setRing_esp (s : State) (k : Nat) (r : Ring) : (s.setRing k r).esp = s.esp := rfl
@[simp] theorem State.setRing_ports (s : State) (k : Nat) (r : Ring) : (s.setRing k r).ports = s.ports := rfl
@[simp] theorem State.setRing_portFire (s : State) (k : Nat) (r : Ring) : (s.setRing k r).portFire = s.portFire := rfl
@[simp] theorem State.setRing_rangeFire (s : State) (k : Nat) (r : Ring) : (s.setRing k r).rangeFire = s.rangeFire := rfl
@[simp] theorem State.setRing_throttle (s : State) (k : Nat) (r : Ring) : (s.setRing k r).throttle = s.throttle := rfl
@[simp] theorem State.setRing_rejActive (s : State) (k : Nat) (r : Ring) : (s.setRing k r).rejActive = s.rejActive := rfl
@[simp] theorem State.setRing_hk (s : State) (k : Nat) (r : Ring) : (s.setRing k r).hk = s.hk := rfl
@[simp] theorem State.setRing_maskCheck (s : State) (k : Nat) (r : Ring) : (s.setRing k r).maskCheck = s.maskCheck := rfl
@[simp] theorem State.setRing_injLast (s : State) (k : Nat) (r : Ring) : (s.setRing k r).injLast = s.injLast := rfl
@[simp] theorem State.setRing_walk (s : State) (k : Nat) (r : Ring) : (s.setRing k r).walk = s.walk := rfl
@[simp] theorem State.setRing_keep (s : State) (k : Nat) (r : Ring) : (s.setRing k r).keep = s.keep := rfl
@[simp] theorem State.setRing_beat (s : State) (k : Nat) (r : Ring) : (s.setRing k r).beat = s.beat := rfl
@[simp] theorem State.setRing_axes (s : State) (k : Nat) (r : Ring) : (s.setRing k r).axes = s.axes := rfl
@[simp] theorem State.setRing_rake (s : State) (k : Nat) (r : Ring) : (s.setRing k r).rake = s.rake := rfl
@[simp] theorem State.setRing_otp (s : State) (k : Nat) (r : Ring) : (s.setRing k r).otp = s.otp := rfl
@[simp] theorem State.setRing_nor (s : State) (k : Nat) (r : Ring) : (s.setRing k r).nor = s.nor := rfl
@[simp] theorem State.setRing_svc (s : State) (k : Nat) (r : Ring) : (s.setRing k r).svc = s.svc := rfl
@[simp] theorem State.setRing_consum (s : State) (k : Nat) (r : Ring) : (s.setRing k r).consum = s.consum := rfl
@[simp] theorem State.setRing_pcr (s : State) (k : Nat) (r : Ring) : (s.setRing k r).pcr = s.pcr := rfl
@[simp] theorem State.setRing_hf (s : State) (k : Nat) (r : Ring) : (s.setRing k r).hf = s.hf := rfl
@[simp] theorem State.setRing_tap (s : State) (k : Nat) (r : Ring) : (s.setRing k r).tap = s.tap := rfl
@[simp] theorem State.setRing_round (s : State) (k : Nat) (r : Ring) : (s.setRing k r).round = s.round := rfl
@[simp] theorem State.setRing_late (s : State) (k : Nat) (r : Ring) : (s.setRing k r).late = s.late := rfl

@[simp] theorem State.wr_pending (s : State) (f : Fld) (v : Nat) : (s.wr f v).pending = s.pending := rfl
@[simp] theorem State.wr_snaps (s : State) (f : Fld) (v : Nat) : (s.wr f v).snaps = s.snaps := rfl
@[simp] theorem State.wr_staged (s : State) (f : Fld) (v : Nat) : (s.wr f v).staged = s.staged := rfl
@[simp] theorem State.wr_mem (s : State) (f : Fld) (v : Nat) : (s.wr f v).mem = s.mem := rfl
@[simp] theorem State.wr_tb (s : State) (f : Fld) (v : Nat) : (s.wr f v).tb = s.tb := rfl
@[simp] theorem State.wr_tbFrac (s : State) (f : Fld) (v : Nat) : (s.wr f v).tbFrac = s.tbFrac := rfl
@[simp] theorem State.wr_free (s : State) (f : Fld) (v : Nat) : (s.wr f v).free = s.free := rfl
@[simp] theorem State.wr_out (s : State) (f : Fld) (v : Nat) : (s.wr f v).out = s.out := rfl
@[simp] theorem State.wr_rakeQ (s : State) (f : Fld) (v : Nat) : (s.wr f v).rakeQ = s.rakeQ := rfl
@[simp] theorem State.wr_host (s : State) (f : Fld) (v : Nat) : (s.wr f v).host = s.host := rfl
@[simp] theorem State.wr_bar (s : State) (f : Fld) (v : Nat) : (s.wr f v).bar = s.bar := rfl
@[simp] theorem State.wr_ring (s : State) (f : Fld) (v : Nat) : (s.wr f v).ring = s.ring := rfl
@[simp] theorem State.wr_mp (s : State) (f : Fld) (v : Nat) : (s.wr f v).mp = s.mp := rfl
@[simp] theorem State.wr_units (s : State) (f : Fld) (v : Nat) : (s.wr f v).units = s.units := rfl
@[simp] theorem State.wr_ctxs (s : State) (f : Fld) (v : Nat) : (s.wr f v).ctxs = s.ctxs := rfl
@[simp] theorem State.wr_trackers (s : State) (f : Fld) (v : Nat) : (s.wr f v).trackers = s.trackers := rfl
@[simp] theorem State.wr_encoders (s : State) (f : Fld) (v : Nat) : (s.wr f v).encoders = s.encoders := rfl
@[simp] theorem State.wr_mirrors (s : State) (f : Fld) (v : Nat) : (s.wr f v).mirrors = s.mirrors := rfl
@[simp] theorem State.wr_esp (s : State) (f : Fld) (v : Nat) : (s.wr f v).esp = s.esp := rfl
@[simp] theorem State.wr_ports (s : State) (f : Fld) (v : Nat) : (s.wr f v).ports = s.ports := rfl
@[simp] theorem State.wr_portFire (s : State) (f : Fld) (v : Nat) : (s.wr f v).portFire = s.portFire := rfl
@[simp] theorem State.wr_rangeFire (s : State) (f : Fld) (v : Nat) : (s.wr f v).rangeFire = s.rangeFire := rfl
@[simp] theorem State.wr_throttle (s : State) (f : Fld) (v : Nat) : (s.wr f v).throttle = s.throttle := rfl
@[simp] theorem State.wr_rejActive (s : State) (f : Fld) (v : Nat) : (s.wr f v).rejActive = s.rejActive := rfl
@[simp] theorem State.wr_hk (s : State) (f : Fld) (v : Nat) : (s.wr f v).hk = s.hk := rfl
@[simp] theorem State.wr_maskCheck (s : State) (f : Fld) (v : Nat) : (s.wr f v).maskCheck = s.maskCheck := rfl
@[simp] theorem State.wr_injLast (s : State) (f : Fld) (v : Nat) : (s.wr f v).injLast = s.injLast := rfl
@[simp] theorem State.wr_walk (s : State) (f : Fld) (v : Nat) : (s.wr f v).walk = s.walk := rfl
@[simp] theorem State.wr_keep (s : State) (f : Fld) (v : Nat) : (s.wr f v).keep = s.keep := rfl
@[simp] theorem State.wr_beat (s : State) (f : Fld) (v : Nat) : (s.wr f v).beat = s.beat := rfl
@[simp] theorem State.wr_axes (s : State) (f : Fld) (v : Nat) : (s.wr f v).axes = s.axes := rfl
@[simp] theorem State.wr_rake (s : State) (f : Fld) (v : Nat) : (s.wr f v).rake = s.rake := rfl
@[simp] theorem State.wr_otp (s : State) (f : Fld) (v : Nat) : (s.wr f v).otp = s.otp := rfl
@[simp] theorem State.wr_nor (s : State) (f : Fld) (v : Nat) : (s.wr f v).nor = s.nor := rfl
@[simp] theorem State.wr_svc (s : State) (f : Fld) (v : Nat) : (s.wr f v).svc = s.svc := rfl
@[simp] theorem State.wr_consum (s : State) (f : Fld) (v : Nat) : (s.wr f v).consum = s.consum := rfl
@[simp] theorem State.wr_pcr (s : State) (f : Fld) (v : Nat) : (s.wr f v).pcr = s.pcr := rfl
@[simp] theorem State.wr_hf (s : State) (f : Fld) (v : Nat) : (s.wr f v).hf = s.hf := rfl
@[simp] theorem State.wr_tap (s : State) (f : Fld) (v : Nat) : (s.wr f v).tap = s.tap := rfl
@[simp] theorem State.wr_round (s : State) (f : Fld) (v : Nat) : (s.wr f v).round = s.round := rfl
@[simp] theorem State.wr_late (s : State) (f : Fld) (v : Nat) : (s.wr f v).late = s.late := rfl

end Sys2Proof.Machine
end

