-- ==== Sys2Proof/Laws/Notices.lean ====
section
/-! SUPPORT. What notices to the host change, and what a calm controller does not do: one lemma for each shared operation. -/

namespace Sys2Proof.Machine

/-! ## The calm controller -/

theorem State.unfrozen_calm {s : State} (h : s.calm) (f : State → State) : s.unfrozen f = f s := by simp [State.unfrozen, h.1]

theorem State.injDue_calm {s : State} (h : s.calm) (l : List Nat) : s.injDue l = false := by simp [State.injDue, h.2]

theorem State.injectAt_calm {s : State} (h : s.calm) (src : Nat) (bad good : State → State) : State.injectAt src bad good s = good s := by
  simp [State.injectAt, State.injDue_calm h]

theorem State.busCheck_calm {s : State} (h : s.calm) (m : Master) (a : Nat) (f : State → State) : s.busCheck m a f = f s := by
  simp [State.busCheck, State.injectAt_calm h]

/-- An access that reaches its block takes effect. -/
theorem State.accessBy_calm {s : State} (h : s.calm) (m : Master) {a : Nat} (hr : s.reaches a) (f : State → State) : s.accessBy m a f = f s := by
  obtain ⟨b, c, off, hb⟩ := hr
  simp [State.accessBy, State.busCheck_calm h, hb]

/-! ## Notices -/

theorem Told.refl (s : State) : Told s s := ⟨fun _ _ => rfl, rfl⟩

theorem Told.trans {s t u : State} (h : Told s t) (k : Told t u) : Told s u := by
  refine ⟨fun a ha => (k.1 a ha).trans (h.1 a ha), ?_⟩
  have h2 := h.rest
  have k2 := k.rest
  rw [h2] at k2
  exact k2

/-- A write of one of the words of `noticeWords` is a notice. -/
theorem Told.setReg (s : State) {a : Nat} (v : Word) (h : a ∈ noticeWords) : Told s (s.setReg a v) :=
  ⟨fun _ hb => s.getReg_setReg_ne v (fun e => hb (e ▸ h)), rfl⟩

theorem Told.wr (s : State) (f : Fld) (v : Nat) (h : f.addr ∈ noticeWords) : Told s (s.wr f v) := Told.setReg s _ h

theorem Told.setRing (s : State) (k : Nat) (r : Ring) : Told s (s.setRing k r) := ⟨fun _ _ => rfl, rfl⟩

theorem Told.emit (s : State) (o : Out) : Told s (s.emit o) := ⟨fun _ _ => rfl, rfl⟩

theorem Told.ite {s a b : State} {c : Prop} [Decidable c] (h : Told s a) (k : Told s b) : Told s (if c then a else b) := by
  split
  · exact h
  · exact k

/-- The vector fields of HOST_RCTL name 64 vectors. -/
theorem vec_lt (s : State) (k : Nat) : s.rd (Fld.HOST_RCTL_VEC k) < 64 := Nat.mod_lt _ (Nat.two_pow_pos _)

theorem ipendReg_notice (v : Nat) : ipendReg v ∈ noticeWords := by
  unfold ipendReg
  split <;> decide

theorem State.raiseVector_told (s : State) (v : Nat) (h : v < 64) : Told s (s.raiseVector v) := by
  have h1 := Told.wr s ⟨ipendReg v, v % 32, v % 32⟩ 1 (ipendReg_notice v)
  have hp : Reg.HOST_MSIX_PBA (v / 32) ∈ noticeWords := by
    have : v / 32 = 0 ∨ v / 32 = 1 := by omega
    rcases this with h | h <;> rw [h] <;> decide
  unfold State.raiseVector
  exact Told.ite (Told.ite (h1.trans (Told.wr _ _ _ hp)) (h1.trans (Told.emit _ _))) h1

theorem State.signalRing_told (s : State) (k : Nat) : Told s (s.signalRing k) :=
  (Told.setRing s k _).trans (State.raiseVector_told _ _ (vec_lt s k))

theorem State.countEntry_told (s : State) (k : Nat) : Told s (s.countEntry k) := by
  unfold State.countEntry
  dsimp only
  exact Told.ite ((Told.setRing s k _).trans (State.signalRing_told _ _)) (Told.setRing s k _)

theorem State.writeEventAt_told (s : State) (t : BitVec 64) (code subject : Nat) (data : List Word) :
    Told s (s.writeEventAt t code subject data) :=
  ((Told.emit s _).trans (Told.setReg _ _ (by decide))).trans (State.countEntry_told _ _)

theorem State.writeEvent_told (s : State) (code subject : Nat) (data : List Word) : Told s (s.writeEvent code subject data) :=
  State.writeEventAt_told s s.tb code subject data

theorem State.payOverflow_told (s : State) : Told s s.payOverflow := by
  have h : Told s { s with host := { s.host with erOwed := false } } := ⟨fun _ _ => rfl, rfl⟩
  exact Told.ite (Told.ite h (h.trans (State.writeEvent_told _ _ _ _))) (Told.refl s)

/-- An event changes nothing but what notices change, whenever it arose. -/
theorem State.eventAt_told (s : State) (t : BitVec 64) (code subject : Nat) (data : List Word) : Told s (s.eventAt t code subject data) := by
  unfold State.eventAt
  refine Told.ite (Told.refl s) (Told.ite (Told.refl s) ?_)
  have h := s.payOverflow_told
  refine Told.ite (h.trans (State.writeEventAt_told _ _ _ _ _)) (h.trans ?_)
  have k := Told.wr s.payOverflow Fld.HOST_ER_LOST_COUNT (satAdd 32 (s.payOverflow.rd Fld.HOST_ER_LOST_COUNT) 1) (by decide)
  exact k.trans ⟨fun _ _ => rfl, rfl⟩

theorem State.event_told (s : State) (code subject : Nat) (data : List Word) : Told s (s.event code subject data) :=
  State.eventAt_told s s.tb code subject data

theorem State.complete_told (s : State) (c : Completion) : Told s (s.complete c) :=
  Told.ite ⟨fun _ _ => rfl, rfl⟩ (Told.wr _ _ _ (by decide))

theorem State.settle_told (s : State) (k : Nat) : Told s (s.settle k) := Told.setRing _ _ _

theorem State.completeDesc_told (s : State) (k : Nat) (d : Desc) (status result : Nat) : Told s (s.completeDesc k d status result) := by
  have h := s.settle_told k
  exact Told.ite h (h.trans (State.complete_told _ _))

/-! ## The internal queue of completions -/

@[simp] theorem State.raiseVector_cq (s : State) (v : Nat) : (s.raiseVector v).host.cqQueue = s.host.cqQueue := by
  unfold State.raiseVector
  dsimp only
  split <;> (try split) <;> rfl

@[simp] theorem State.signalRing_cq (s : State) (k : Nat) : (s.signalRing k).host.cqQueue = s.host.cqQueue :=
  (State.raiseVector_cq _ _).trans rfl

@[simp] theorem State.countEntry_cq (s : State) (k : Nat) : (s.countEntry k).host.cqQueue = s.host.cqQueue := by
  unfold State.countEntry
  dsimp only
  exact (apply_ite (fun t : State => t.host.cqQueue) _ _ _).trans (by rw [State.signalRing_cq, ite_self]; rfl)

@[simp] theorem State.writeEventAt_cq (s : State) (t : BitVec 64) (code subject : Nat) (data : List Word) :
    (s.writeEventAt t code subject data).host.cqQueue = s.host.cqQueue := (State.countEntry_cq _ _).trans rfl

@[simp] theorem State.writeEvent_cq (s : State) (code subject : Nat) (data : List Word) :
    (s.writeEvent code subject data).host.cqQueue = s.host.cqQueue := State.writeEventAt_cq s s.tb code subject data

@[simp] theorem State.payOverflow_cq (s : State) : s.payOverflow.host.cqQueue = s.host.cqQueue := by
  unfold State.payOverflow
  dsimp only
  split
  · split
    · rfl
    · exact (State.writeEvent_cq _ _ _ _).trans rfl
  · rfl

/-- An event leaves the completions that wait alone. -/
@[simp] theorem State.eventAt_cq (s : State) (t : BitVec 64) (code subject : Nat) (data : List Word) :
    (s.eventAt t code subject data).host.cqQueue = s.host.cqQueue := by
  unfold State.eventAt
  dsimp only
  split
  · rfl
  · split
    · rfl
    · split
      · exact (State.writeEventAt_cq _ _ _ _ _).trans s.payOverflow_cq
      · exact s.payOverflow_cq

@[simp] theorem State.event_cq (s : State) (code subject : Nat) (data : List Word) :
    (s.event code subject data).host.cqQueue = s.host.cqQueue := State.eventAt_cq s s.tb code subject data

/-- A completion that writes an entry waits as the last of the queue, when a place is free; a quiet one writes none. -/
theorem State.completeDesc_answered (s : State) (k : Nat) (d : Desc) (status result : Nat) (h : s.cqRoom) :
    s.answered (s.completeDesc k d status result) k d status result := by
  have hr : (s.settle k).host.cqQueue.length < 512 + (s.settle k).entryFree .cq := Nat.lt_of_lt_of_le h (Nat.le_add_right _ _)
  unfold State.completeDesc
  refine ⟨fun ⟨hq, hs⟩ => ?_, fun hq => ⟨(s.settle k).rakeQ.length, ?_⟩⟩
  · simp only [hq, hs, decide_true, Bool.and_true, if_true]
    rfl
  · have hc : (bitOf (dwAt d.dw 0) 30 && decide (status = 0)) = false := by
      rcases hq with h | h <;> simp [h]
    simp only [hc, Bool.false_eq_true, if_false]
    unfold State.complete
    rw [if_pos hr]
    rfl

theorem State.finish_answered (s : State) (d : Desc) (status result : Nat) (h : s.cqRoom) :
    s.answered (s.finish d status result) 0 d status result :=
  State.completeDesc_answered (s.popDesc 0) 0 d status result h

theorem State.popDesc_told (s : State) (k : Nat) : Told s (s.popDesc k) := Told.setRing _ _ _

theorem State.finish_told (s : State) (d : Desc) (status result : Nat) : Told s (s.finish d status result) :=
  (s.popDesc_told 0).trans (State.completeDesc_told _ _ _ _ _)

end Sys2Proof.Machine
end

