-- ==== Sys2Proof/Machine/Balls.lean ====
section
/-! DEFINITION. The ball map: which net each ball of the 39 × 39 array carries (R599 to R609, spec/20_pins_electrical_package.md). A ball is its
row number, from A = 1 to BA = 39, and its column. -/

namespace Sys2Proof.Machine

/-- The nets and signals of the package. A differential pair's legs, and the channels of a signal, are told apart by their arguments. -/
inductive Net where
  | vss | vssa | vddCore | vddSram | vddSds | vddhSds | vddio18 | vddio33 | vddAdc | vqps | vddAon
  | vddioHp (n : Nat)
  /-- the Névé lane, the waveform clock and data streams and the sense input of a port -/
  | hpTx (n : Nat) (neg : Bool) | hpRx (n : Nat) (neg : Bool) | hpWck (n : Nat) (neg : Bool) | hpWd (n k : Nat) (neg : Bool)
  | hpSns (n : Nat) (neg : Bool)
  /-- the data, strobe, echo, identity-bus and thermistor balls of a port -/
  | hpSd (n k : Nat) | hpStb (n k : Nat) | hpEcho (n : Nat) | hpScl (n : Nat) | hpSda (n : Nat) | hpTh (n : Nat)
  | pcieTx (lane : Nat) (neg : Bool) | pcieRx (lane : Nat) (neg : Bool) | pcieRefclk (neg : Bool) | rextPcie | perstN
  | xspiDq (k : Nat) | xspiCsN | xspiSck | xspiDqs | xspiRstN
  | ringTx (west neg : Bool) | ringRx (west neg : Bool) | ringRefclk (neg : Bool) | rextRing | bypKeep
  | usbDp | usbDm | usbVbus | usbRext | refclkXi | refclkXo | tck | tms | tdi | tdo | trstN | resetN | freezeN | errN | intN | testEn
  | avsVid (k : Nat) | rextNv (g : Nat) | rextBg
  /-- a gate of an axis, in the order A1H, A1L, A2H, A2L, B1H, B1L, B2H, B2L, and its comparator and coil-voltage inputs -/
  | axGate (a k : Nat) | axCmp (a : Nat) (coilB : Bool) | axVs (a : Nat) (coilB : Bool)
  /-- an encoder's A, B or Z, a gate, a print-go input, a reject output and the two groups of thermistors -/
  | enc (e k : Nat) | gate (g : Nat) | pgo (k : Nat) | rej (k : Nat) | bt (k : Nat) | bs (k : Nat)
  deriving DecidableEq, Repr

/-! ## The port blocks (R601, R602) -/

/-- The net at depth `d` and width `w` of the block of port `n` (R601). -/
def portBall (n d w : Nat) : Net :=
  let odd := decide (w % 3 = 1)
  match d with
  | 0 => if w % 3 = 2 then .vss else if w < 3 then .hpTx n odd else .hpRx n odd
  | 1 => if w % 3 = 0 then .vss else if w < 3 then .hpWck n (decide (w = 2)) else .hpWd n 0 (decide (w = 5))
  | 2 => if w % 3 = 2 then .vss else if w < 3 then .hpWd n 1 odd else .hpSns n odd
  | 6 => if w < 2 then .hpSd n (18 + w) else if w < 4 then .hpStb n (w - 2) else if w = 4 then .hpEcho n else .vddioHp n
  | 7 => if w = 0 then .hpScl n else if w = 1 then .hpSda n else if w = 2 then .hpTh n else if w = 3 then .vddioHp n else .vss
  | _ => .hpSd n (6 * (d - 3) + w)

/-- The port, depth and width of a ball of a port block (R602). -/
def portPlace (i j : Nat) : Option (Nat × Nat × Nat) :=
  if i ≤ 8 ∧ 9 ≤ j ∧ j ≤ 32 then some ((j - 9) / 6, i - 1, (j - 9) % 6)
  else if 9 ≤ i ∧ i ≤ 32 ∧ 32 ≤ j then some (4 + (i - 9) / 6, 39 - j, (i - 9) % 6)
  else if 32 ≤ i ∧ 8 ≤ j ∧ j ≤ 31 then some (8 + (31 - j) / 6, 39 - i, (31 - j) % 6)
  else if 8 ≤ i ∧ i ≤ 31 ∧ j ≤ 8 then some (12 + (31 - i) / 6, j - 1, (31 - i) % 6)
  else none

/-! ## The corners (R603 to R605) -/

/-- Corner TL: rows 1 to 7, columns 1 to 8 (R603). -/
def cornerTl (i j : Nat) : Net :=
  let lane := (if i ≤ 2 then 0 else 4) + (j - 1) / 2
  let neg := decide (j % 2 = 0)
  if i = 1 ∨ i = 3 then .pcieTx lane neg
  else if i = 2 ∨ i = 4 then .pcieRx lane neg
  else if i = 5 then ([.pcieRefclk false, .pcieRefclk true, .vss, .rextPcie, .perstN, .vss, .vqps, .vqps] : List Net).getD (j - 1) .vss
  else if i = 6 then .xspiDq (j - 1)
  else ([.xspiCsN, .xspiSck, .xspiDqs, .xspiRstN] : List Net).getD (j - 1) .vddio18

/-- The rows of corner TR, columns 33 to 39 (R604). -/
def cornerTrRows : List (List Net) :=
  [[.ringTx false false, .ringTx false true, .vssa, .ringTx true false, .ringTx true true, .vssa, .ringRefclk false],
   [.ringRx false false, .ringRx false true, .vssa, .ringRx true false, .ringRx true true, .vssa, .ringRefclk true],
   [.rextRing, .bypKeep, .usbDp, .usbDm, .usbVbus, .usbRext, .vssa],
   [.refclkXi, .refclkXo, .vssa, .tck, .tms, .tdi, .tdo],
   [.trstN, .resetN, .freezeN, .errN, .intN, .testEn, .vssa],
   [.avsVid 0, .avsVid 1, .avsVid 2, .avsVid 3, .avsVid 4, .vddio33, .vddio33],
   [.rextNv 0, .rextNv 1, .rextNv 2, .rextNv 3, .rextBg, .vddio18, .vddio18],
   [.vddAon, .vddAon, .vddAon, .vddAon, .vddio18, .vddio18, .vssa]]

/-- Corner BR: rows 33 to 39, columns 32 to 39 (R605). -/
def cornerBr (i j : Nat) : Net :=
  if i ≤ 36 then .axGate (i - 33) (j - 32)
  else if i = 37 then .axCmp ((j - 32) / 2) (decide (j % 2 = 1))
  else if i = 38 then .axVs ((j - 32) / 2) (decide (j % 2 = 1))
  else if j % 2 = 0 then .vddAdc else .vssa

/-- Corner BL: rows 32 to 39, columns 1 to 7; each axis takes two rows (R605). -/
def cornerBl (i j : Nat) : Net :=
  let a := 4 + (i - 32) / 2
  if i % 2 = 0 then .axGate a (j - 1)
  else ([.axGate a 7, .axCmp a false, .axCmp a true, .axVs a false, .axVs a true, .vddAdc] : List Net).getD (j - 1) .vssa

/-! ## The rings (R606, R607) -/

/-- The position of a ball on the square ring from row and column `lo` to `hi`, walked clockwise from its top left. -/
def ringPlace (lo hi i j : Nat) : Nat :=
  if i = lo then j - lo
  else if j = hi then (hi - lo) + (i - lo)
  else if i = hi then 2 * (hi - lo) + (hi - j)
  else 3 * (hi - lo) + (hi - i)

/-- Ring 1 by position (R606). -/
def ring1Net (p : Nat) : Net :=
  let k := 10 * (p / 11) + (p % 11 - 1)
  if p % 22 = 0 then .vddio33
  else if p % 22 = 11 then .vss
  else if k < 48 then .enc (k / 3) (k % 3)
  else .gate (k - 48)

/-- Ring 2 by position (R607). -/
def ring2Net (p : Nat) : Net :=
  let k := 9 * (p / 10) + (p % 10 - 1)
  if p % 20 = 0 then .vddio33
  else if p % 20 = 10 then .vss
  else if k < 32 then .pgo k
  else if k < 48 then .gate k
  else if k < 56 then .rej (k - 48)
  else if k < 64 then .bt (k - 56)
  else .bs (k - 64)

/-! ## The core and the whole map (R599, R600, R608) -/

/-- The core region (R608). -/
def coreNet (i j : Nat) : Net :=
  if (i + j) % 2 = 0 then .vss
  else if i ≤ 12 then .vddhSds
  else if i ≤ 14 then .vddSds
  else if i ≤ 26 then .vddCore
  else .vddSram

/-- Whether a ball lies on the square ring from `lo` to `hi`. -/
def onRing (lo hi i j : Nat) : Bool :=
  decide (lo ≤ i) && decide (i ≤ hi) && decide (lo ≤ j) && decide (j ≤ hi) && (decide (i = lo) || decide (i = hi) || decide (j = lo) || decide (j = hi))

/-- The net of the ball in row `i`, column `j`, by its region (R600). -/
def ballNet (i j : Nat) : Net :=
  match portPlace i j with
  | some (n, d, w) => portBall n d w
  | none =>
    if i ≤ 7 ∧ j ≤ 8 then cornerTl i j
    else if i ≤ 8 ∧ 33 ≤ j then ((cornerTrRows.getD (i - 1) []).getD (j - 33) .vss)
    else if 33 ≤ i ∧ 32 ≤ j then cornerBr i j
    else if 32 ≤ i ∧ j ≤ 7 then cornerBl i j
    else if onRing 9 31 i j then ring1Net (ringPlace 9 31 i j)
    else if onRing 10 30 i j then ring2Net (ringPlace 10 30 i j)
    else coreNet i j

/-- Every ball of the array, as row and column. -/
def balls : List (Nat × Nat) := (List.range 39).flatMap (fun i => (List.range 39).map (fun j => (i + 1, j + 1)))

/-- How many balls carry a net. -/
def ballCount (n : Net) : Nat := balls.countP (fun b => decide (ballNet b.1 b.2 = n))

/-- Whether a net is a signal's and no supply's or ground's. -/
def Net.isSignal (n : Net) : Bool :=
  match n with
  | .vss => false
  | .vssa => false
  | .vddCore => false
  | .vddSram => false
  | .vddSds => false
  | .vddhSds => false
  | .vddio18 => false
  | .vddio33 => false
  | .vddAdc => false
  | .vqps => false
  | .vddAon => false
  | .vddioHp _ => false
  | _ => true

end Sys2Proof.Machine
end

