-- ==== Sys2Proof/WellFormed.lean ====
section
/-! DEFINITION. The commands that the outside can give: each operand within what the spec lets a sender, a bus or a sensor bring. The checks
say what the types of the operands leave open; the machine's step does not ask them, since nothing outside them can arrive. -/

namespace Sys2Proof

/-- The bytes that a view of the address space holds (R40, R43). -/
def View.size : View → Nat
  | .device => 0x10000000
  | .bar0 => 0x10000
  | .bar2 => 0x1000
  | .bar4 => 0x10000000

/-- An offset lies in its view (R40, R43). -/
def BusAddr.ok (a : BusAddr) : Bool := decide (a.off < a.view.size)

/-- A descriptor is 64 bytes: 16 doublewords (R75, R78). -/
def Fetched.ok : Fetched → Bool
  | .data dw => decide (dw.length = 16)
  | .error => true

/-- A value of 16 bits, signed (R11). -/
def fits16 (x : Int) : Bool := decide (-32768 ≤ x) && decide (x ≤ 32767)

/-- The OFFSET of an ECHO block has 16 bits (R258). -/
def Echo.ok : Echo → Bool
  | .edge _ => true
  | .block _ off => fits16 off

/-- A capture is 256 samples (R319). -/
def captureOk (l : List (BitVec 14)) : Bool := decide (l.length = 256)

/-- A UID has 8 bytes (R345). -/
def BusAnswer.ok : BusAnswer → Bool
  | .noAck => true
  | .busError => true
  | .device uid _ => decide (uid.length = 8)

/-- A Buriober payload has at most 4,100 bytes (R533). -/
def LoaderReq.ok : LoaderReq → Bool
  | .usb _ _ body => decide (body.length ≤ 4100)
  | .tunnel _ _ => true

/-- A configuration request names a doubleword of the 4,096-byte space, and a BAR's base has the alignment of its size (R43, R53). -/
def ConfigReq.ok : ConfigReq → Bool
  | .read off => decide (off < 4096) && decide (off % 4 = 0)
  | .capability _ word => decide (word < 16)
  | .d3hot _ => true
  | .maxPayload _ => true
  | .maxReadRequest _ => true
  | .extendedTag _ => true
  | .msix _ _ => true
  | .bar k base => decide (base % (if k.val = 0 then 0x10000 else if k.val = 1 then 0x1000 else 0x10000000) = 0)
  | .other off _ => decide (off < 4096) && decide (off % 4 = 0)

/-- The payload of a ring frame within its fields (R396). -/
def RingMsg.ok : RingMsg → Bool
  | .hello scope vmax vmin vcap rver _ _ _ epoch id =>
    decide (scope < 256) && decide (vmax < 256) && decide (vmin < 256) && decide (vcap < 256) && decide (rver < 256) &&
    decide (epoch < 65536) && decide (id < 2 ^ 64)
  | .versionAgree phase v epoch leader mask act =>
    decide (phase < 256) && decide (v < 256) && decide (epoch < 65536) && decide (leader < 256) && decide (mask < 2 ^ 64) && decide (act < 2 ^ 64)
  | .track ctx kind status _ seq pos time =>
    decide (ctx < 256) && decide (kind < 256) && decide (status < 256) && decide (seq < 2 ^ 48) && decide (pos < 2 ^ 48) && decide (time < 2 ^ 64)
  | .pgo relay pol count time => decide (relay < 256) && decide (pol < 256) && decide (count < 65536) && decide (time < 2 ^ 64)
  | .venc samples =>
    decide (1 ≤ samples.length) && decide (samples.length ≤ 8) &&
    samples.all (fun x => decide (x.1 < 256) && decide (x.2.1 < 2 ^ 48) && decide (x.2.2 < 2 ^ 64))
  | .reject ctx vote status seq pos time =>
    decide (ctx < 256) && decide (vote < 256) && decide (status < 256) && decide (seq < 2 ^ 48) && decide (pos < 2 ^ 48) && decide (time < 2 ^ 64)
  | .mgmt op tag count status addr data =>
    decide (op < 256) && decide (tag < 256) && decide (count < 256) && decide (status < 256) && decide (addr < 2 ^ 32) && decide (data.length ≤ 64)
  | .service session kind sseq ackseq data =>
    decide (session < 256) && decide (kind < 256) && decide (sseq < 65536) && decide (ackseq < 65536) && decide (data.length ≤ 1024)
  | .ptp m => decide (m.domain < 256) && decide (m.seqId < 65536)
  | .other type data => decide (type < 256) && decide (data.length ≤ 1500)

/-- A ring frame within the fields of its header (R390). -/
def RingFrame.ok (f : RingFrame) : Bool :=
  decide (f.ver < 256) && decide (f.rest < 32) && decide (f.hops < 256) && decide (f.src < 256) && decide (f.dst < 256) &&
  decide (f.seq < 65536) && decide (f.joinId < 65536) && f.msg.ok

/-- A command that the outside can give. -/
def Instr.wellFormed (i : Instr) : Bool :=
  match i with
  | .registerWrite _ a len words => a.ok && decide (1 ≤ len) && decide (len ≤ 512) && decide (words.length = (len + 3) / 4)
  | .doorbell _ _ _ => true
  | .hostRconsWrite _ _ _ => true
  | .ringEnable _ _ _ => true
  | .ringDisable _ _ _ => true
  | .ringResume _ _ d => d.ok
  | .ringDrained _ => true
  | .cfgDone _ _ => true
  | .cfgRetryTimeout => true
  | .perstN _ => true
  | .functionLevelReset => true
  | .pcieLinkChange _ _ => true
  | .pcieLinkDown => true
  | .descriptorFetch _ d => d.ok
  | .phaseRetry _ d => d.ok
  | .cqEntryWrite => true
  | .erOverflow => true
  | .coalesceTimeout _ => true
  | .tokenAcquire _ _ _ => true
  | .tokenRelease _ _ => true
  | .tokenForce _ _ _ => true
  | .tokenTagWrite _ _ _ => true
  | .nop _ => true
  | .jobFetch _ => true
  | .jobEnterQueue _ => true
  | .ctxBind => true
  | .ctxUnbind => true
  | .halt => true
  | .resume => true
  | .flush => true
  | .recover => true
  | .commit _ _ => true
  | .cancel _ _ => true
  | .immediate _ _ => true
  | .pgoAccept _ _ _ => true
  | .printGoEdge _ => true
  | .printGoTimeout _ => true
  | .rejectPulse _ => true
  | .rejectPulseEnd _ => true
  | .encoderEdge _ _ _ _ => true
  | .zEdge _ => true
  | .trackerVisit _ => true
  | .trackerStill _ => true
  | .contextVisit _ => true
  | .tbSync _ _ => true
  | .mirrorCalibrated c => decide (c.2.length = 256)
  | .moraineWrite _ a data => a.ok && decide (1 ≤ data.length) && decide (data.length ≤ 512)
  | .scrubRead => true
  | .eccWriteBack _ => true
  | .dsInitComplete _ => true
  | .plateDescriptorWrite _ _ _ => true
  | .blockAllocate _ => true
  | .patchResident _ _ _ => true
  | .compose => true
  | .lineFifoEntry _ => true
  | .scanConfigCommit _ _ _ => true
  | .stitchZoneWrite _ _ _ => true
  | .maskCheck _ _ => true
  | .maskCheckDone => true
  | .substitutionEntryWrite _ _ _ => true
  | .grfNset _ _ => true
  | .portEnable _ _ _ => true
  | .portDisable _ _ _ => true
  | .fireEvent _ => true
  | .lineShift _ => true
  | .lineLatch _ => true
  | .lineJudge _ => true
  | .strobe _ => true
  | .pulseEnd _ => true
  | .quietPoint _ => true
  | .headLoadRetry _ => true
  | .entryRampDone _ => true
  | .retrain _ _ _ => true
  | .train _ b _ => decide (b.length = 7)
  | .trainingTimeout _ => true
  | .trainingRetry _ => true
  | .neveDown _ => true
  | .lineErr _ _ _ => true
  | .telem _ _ _ => true
  | .unknownBlock _ => true
  | .hregGo _ _ _ => true
  | .hregReply _ _ _ => true
  | .hregTimeout _ => true
  | .echo _ e => e.ok
  | .watchdogMiss _ => true
  | .echoStuck _ => true
  | .gateTransition _ _ _ => true
  | .gateRelease _ _ _ _ => true
  | .portGateWrite _ _ _ _ _ => true
  | .waveLoad _ => true
  | .thermalLoad _ => true
  | .droopLoad _ => true
  | .tickle _ => true
  | .captureStart _ => true
  | .captureComplete _ samples => captureOk samples
  | .classify _ => true
  | .idleSlot _ => true
  | .crevasseRef _ => true
  | .refWalkTickle samples => captureOk samples
  | .inkReading => true
  | .consAuth _ dev => dev.ok
  | .consRecord dev => dev.ok
  | .recordDue _ dev => dev.ok
  | .identityStatusPoll _ _ => true
  | .copy _ => true
  | .fill _ => true
  | .link _ => true
  | .burstIssue _ => true
  | .readCompletion _ _ => true
  | .writeResponse _ => true
  | .flushReadComplete _ _ => true
  | .readTimeout _ => true
  | .haltedEntered => true
  | .dmaRestart _ _ => true
  | .channelStop _ _ _ => true
  | .join _ _ => true
  | .phyTrialExpiry _ => true
  | .ringLinkDown _ => true
  | .ringFrame _ _ f => f.ok
  | .hello => true
  | .helloTimer _ => true
  | .rosterExpiry _ => true
  | .versionPropose => true
  | .versionAgree => true
  | .versionCollectTimeout => true
  | .versionAct => true
  | .syncTimer => true
  | .peerDelayTimer _ => true
  | .ptp => true
  | .pgo => true
  | .vencPublish _ => true
  | .venc => true
  | .vencLost _ => true
  | .track => true
  | .reject => true
  | .voteDeadline _ => true
  | .mgmt => true
  | .mailboxGo _ _ _ => true
  | .mailboxTimeout _ => true
  | .service => true
  | .segmentRetransmit _ _ => true
  | .heartbeatLoss => true
  | .axisConfig _ => true
  | .movePosition => true
  | .moveGear => true
  | .moveSoftstop => true
  | .home => true
  | .profileUpdate => true
  | .onPhaseEnd _ _ _ => true
  | .offPhaseEnd _ _ => true
  | .restDelay _ => true
  | .axisStop _ _ _ => true
  | .axisSoftstop _ _ _ => true
  | .stopAll _ _ => true
  | .setPos _ _ _ => true
  | .bemfSample _ _ _ => true
  | .channelSample _ _ conv _ => fits16 conv
  | .dieShutdownFinal => true
  | .rakeReport => true
  | .levelReportEnd _ _ _ => true
  | .tineLost k => decide (k.val ≠ 0)
  | .errNPulseEnd => true
  | .errNRelease _ _ => true
  | .clrFirst _ _ => true
  | .scopeClear _ _ => true
  | .scopeForce _ _ => true
  | .thawTick => true
  | .injectionArm _ _ => true
  | .programWord _ _ _ _ => true
  | .programWordDone _ _ => true
  | .marginScan _ _ => true
  | .scanComplete => true
  | .lockSet _ _ => true
  | .otpProgram _ _ _ => true
  | .otpLock _ _ => true
  | .sessionOpen q => q.ok
  | .header q _ => q.ok
  | .chunk q _ => q.ok
  | .verify q _ => q.ok
  | .activate q _ => q.ok
  | .confirm q _ _ _ outs => q.ok && decide (outs.length ≤ 4)
  | .abort q => q.ok
  | .status q => q.ok
  | .badFrame _ => true
  | .sessionTimeout => true
  | .usbBusReset => true
  | .mpBoot => true
  | .trialTimeout => true
  | .arbRetry _ _ outs => decide (outs.length ≤ 4)
  | .settingsWrite _ _ => true
  | .settingsRead _ => true
  | .domainPower => true
  | .unitRetire _ => true
  | .retirementRetry _ => true
  | .domainCtlWrite _ _ => true
  | .domainReset _ _ => true
  | .domainPowered _ => true
  | .domainOff _ => true
  | .sequencerReload _ => true
  | .supplyWarnBegin _ => true
  | .supplyWarnEnd _ => true
  | .longWarning _ => true
  | .supplyReset _ => true
  | .powerOnReset => true
  | .resetN => true
  | .chipReset _ _ => true
  | .refclk25Loss => true
  | .ringRefclkLoss => true
  | .pllLockLoss _ => true
  | .pllRelock _ => true
  | .tbIncWrite _ _ => true
  | .avsStep => true
  | .controllerStart => true
  | .mpWatchdog => true
  | .watchdogFeed _ _ => true
  | .freezePin => true
  | .freezeRegister _ _ => true
  | .islandStopped k => decide (k.val ≠ 0)
  | .freezeReleasePin => true
  | .releaseTimeout => true
  | .hfSel _ => true
  | .hfRead => true
  | .hfMem _ => true
  | .hfCtlFreeze => true
  | .hfCtlRelease => true
  | .tapReset => true
  | .idcode => true
  | .samplePreload pins cells => decide (cells.length = pins.length)
  | .extest pins cells => decide (cells.length = pins.length)
  | .highz => true
  | .clamp => true
  | .bypass => true
  | .registerRead _ a len => a.ok && decide (1 ≤ len) && decide (len ≤ 4096)
  | .configurationRequest req => req.ok
  | .pcieLinkUp _ _ => true
  | .syncsMissing => true
  | .ringOpened => true
  | .voteExpiry => true
  | .programmingSupplyLeftRange _ => true
  | .clockStretchTimeout _ => true

end Sys2Proof
end

