-- ==== Sys2Proof/Tests/Slice0.lean ====
section
/-! SUPPORT. Tests: ill-formed commands that the checks refuse, single commands against values of the spec, and for every statement of the
obligations a state and operands that meet its hypotheses, clause by clause. -/

/-! ## States for the witnesses -/

namespace Sys2Proof.W

open Sys2Proof Sys2Proof.Machine

set_option Elab.async false
set_option maxHeartbeats 4000000
set_option linter.unusedVariables false

/-- A controller of 16 ports and 255 contexts after its start: every domain on, the MP and the sequencers running, the link up, the command
ring, the CQ and the ER running with 16 entries each, the service port configured. -/
def on : State := { State.reset with
  units := ⟨0x9616, 0xFFFF, 254, BitVec.allOnes 64, 7, 5⟩
  host := { HostSt.reset with speed := 1, width := 1 }
  mp := { MpSt.reset with running := true }
  pcr := { State.reset.pcr with start := none }
  regs := [(73400324, 1), (76546052, 2147483648), (77594628, 393216), (78643216, 16383), (78643224, 178956970), (80740356, 0), (80740616, 2147483652),
    (80740628, 1), (80742184, 2147483652), (80742196, 1), (80742216, 2147549188), (80742228, 1), (81788936, 1)] }

/-- Register words set. -/
def set (l : List (Nat × Word)) (s : State) : State := l.foldl (fun s x => s.setReg x.1 x.2) s

/-- Register fields set. -/
def put (l : List (Fld × Nat)) (s : State) : State := l.foldl (fun s x => s.wr x.1 x.2) s

/-- A ring that runs with 16 entries. -/
def ring (k : Nat) (s : State) : State := set [(Reg.HOST_RCTL k, 0x80000004), (Reg.HOST_RSTAT k, 1)] s

/-- A descriptor waits at the front of a ring. -/
def wait (k : Nat) (d : Desc) (s : State) : State := s.setRing k { s.getRing k with fetched := [d], outstanding := 1 }

/-- A state changed. -/
def edit (f : State → State) (s : State) : State := f s

/-- The state after a command. -/
def after (c : Instr) (s : State) : State := match exec c s with | .next t => t | _ => s

/-- Head port `p` enabled in a mode, with every condition of READY met. -/
def ready (p mode : Nat) (s : State) : State :=
  let s := put [(Fld.PORT_CFG_EN p, 1), (Fld.PORT_CFG_MODE p, mode), (Fld.PORT_CFG_NOZ p, 64), (Fld.ROSE_STAT_VALID p, 1),
    (Fld.HK_CH_CFG_FITTED (40 + p), 0), (Fld.PORT_CFG_IO_V p, 1)] s
  let s := s.setChan (72 + p) { s.getChan (72 + p) with value := some 3300 }
  let s := s.setMirror p { s.getMirror p with cal := true }
  s.setPort p { s.getPort p with ramped := true }

/-- A job of ring 16 for context 254 with the given sixteen doublewords. -/
def job (dw : List Word) : Job := ⟨16, 3, false, dw, none⟩
/-- A product of a job that prints nothing, not yet begun. -/
def prod (j : Job) : Product :=
  { id := 0, job := j, set := List.replicate 24 0, scan := [], zones := [], plates := none, patchSeen := [], tpg := 5, refPos := 0, upg := none
    groups := [], pass := 0, armed := true, stretched := [], ovr := 0, status := none, ended := false, decided := false, reject := false
    rejOut := 0, xtrap := [], cutAt := none }
/-- A run of 16 bytes of a DMA descriptor that has moved nothing. -/
def run (d : Desc) : DmaRun :=
  { id := 1, desc := d, chained := false, last := false, total := 16, rd := 0, wr := 0, put := 0, buf := [], hostTo := none, asked := false
    safe := 0, stop := none, fail := none, done := none }
/-- A line of product 0 of context 254 at a port, with an entry of one nozzle. -/
def line : PLine := ⟨⟨254, 0, 0, 0, 0⟩, some ⟨false, [(3, 2)]⟩, none, false, .waiting, false, 0, 0, 0⟩

/-- A section of no bytes of a type, with its tag. -/
def sect (ty : Nat) (tag : List Nat) : List Nat := [ty, 0, 0, 0, 0, 0, 0, 0, 0, 0, 0, 0, 0, 0, 0, 0x20] ++ tag
/-- The header of an image of four empty sections, under keys of zeros. -/
def image : List Nat :=
  [70, 88, 73, 77, 1, 0, 0, 2, 1, 0, 0, 0, 9, 0, 0, 0, 0, 4, 0, 0, 0, 16, 0, 0] ++
  [31, 183, 107, 232, 53, 195, 152, 118, 230, 35, 206, 111, 124, 43, 200, 180, 213, 232, 14, 142, 179, 140, 179, 153, 22, 207, 85, 197, 250, 231, 120, 63, 150, 24, 115, 202, 233, 23, 188, 26] ++
  List.replicate 8 1 ++ List.replicate 56 0 ++
  sect 1 [44, 39, 58, 253, 161, 250, 202, 65, 60, 126, 247, 195, 212, 223, 253, 125] ++
  sect 3 [151, 7, 66, 169, 6, 47, 117, 78, 4, 248, 200, 81, 73, 210, 43, 238] ++
  sect 4 [133, 239, 151, 214, 155, 220, 162, 37, 127, 172, 170, 224, 194, 99, 5, 11] ++
  sect 5 [27, 3, 109, 160, 143, 141, 122, 126, 43, 192, 135, 215, 179, 234, 105, 109] ++
  List.replicate 224 0 ++
  [45, 162, 72, 14, 89, 240, 85, 232, 231, 244, 108, 106, 10, 45, 162, 0, 227, 131, 116, 178, 69, 171, 101, 194, 0, 49, 125, 113, 232, 80, 240, 219]
/-- The header of an image whose first section has a wrong tag. -/
def badImage : List Nat := (image.set 144 45).take 480 ++ [197, 119, 171, 53, 130, 41, 176, 187, 108, 251, 242, 150, 115, 94, 151, 70, 113, 7, 29, 127, 152, 150, 200, 103, 219, 132, 34, 68, 91, 66, 158, 160]
/-- The cells that bytes take from an address on, in canonical form. -/
def cells : Nat → List Nat → Store Byte
  | _, [] => []
  | a, b :: l => if b = 0xFF then cells (a + 1) l else (a, BitVec.ofNat 8 b) :: cells (a + 1) l
/-- The flash holds an image in a slot, after all that it holds below. -/
def slot (i : Nat) (s : State) : State := { s with nor := s.nor ++ cells (slotBase i) image }
/-- Slot 1 holds that header alone. -/
def badSlot (s : State) : State := { s with nor := cells (slotBase 1) badImage }
/-- A boot record. -/
def record (active state prevCopy : Nat) (s : State) : State := s.writeRecord ⟨0, active, state, 0, 0xFF, 0, 0, prevCopy, 0⟩
/-- Every die sensor reads 25 degrees. -/
def warm (s : State) : State := (put [(Fld.HK_CH_CFG_FITTED 0, 1)] s).setChan 0 { HkChan.reset with value := some 400 }


/-- A setting stands in the copy in force. -/
def keys : State := on.writeSetting 0 0x123 0 [1, 2]

/-! ## Ill-formed commands: one for each check of `Instr.wellFormed` -/

theorem test_wf_address_outside_view : (Instr.registerWrite .host ⟨.bar2, 0x1000⟩ 4 [0]).wellFormed = false := by decide
theorem test_wf_write_of_nothing : (Instr.registerWrite .host ⟨.device, 0⟩ 0 []).wellFormed = false := by decide
theorem test_wf_write_too_long : (Instr.registerWrite .host ⟨.device, 0⟩ 516 (List.replicate 129 0)).wellFormed = false := by decide +kernel
theorem test_wf_write_words : (Instr.registerWrite .host ⟨.device, 0⟩ 8 [0]).wellFormed = false := by decide
theorem test_wf_resume_descriptor : (Instr.ringResume .host 1 (.data [0])).wellFormed = false := by decide
theorem test_wf_fetch_descriptor : (Instr.descriptorFetch 1 (.data (List.replicate 17 0))).wellFormed = false := by decide
theorem test_wf_retry_descriptor : (Instr.phaseRetry 1 (.data [])).wellFormed = false := by decide
theorem test_wf_calibration : (Instr.mirrorCalibrated (3, List.replicate 255 0)).wellFormed = false := by decide +kernel
theorem test_wf_moraine_nothing : (Instr.moraineWrite .host ⟨.device, 0⟩ []).wellFormed = false := by decide
theorem test_wf_moraine_too_long : (Instr.moraineWrite .host ⟨.device, 0⟩ (List.replicate 513 none)).wellFormed = false := by decide +kernel
theorem test_wf_moraine_address : (Instr.moraineWrite .host ⟨.bar4, 0x10000000⟩ [none]).wellFormed = false := by decide
theorem test_wf_train_bytes : (Instr.train 0 [0, 0, 0, 0, 0, 0] 9).wellFormed = false := by decide
theorem test_wf_echo_offset : (Instr.echo 0 (.block 1 (-32769))).wellFormed = false := by decide
theorem test_wf_capture_length : (Instr.captureComplete 0 (List.replicate 255 0)).wellFormed = false := by decide +kernel
theorem test_wf_walk_capture : (Instr.refWalkTickle (List.replicate 257 0)).wellFormed = false := by decide +kernel
theorem test_wf_uid : (Instr.consAuth none (.device [1, 2, 3, 4, 5, 6, 7] 1)).wellFormed = false := by decide
theorem test_wf_record_uid : (Instr.consRecord (.device [] 1)).wellFormed = false := by decide
theorem test_wf_due_uid : (Instr.recordDue 3 (.device [1] 1)).wellFormed = false := by decide
theorem test_wf_ring_header : (Instr.ringFrame 0 .none ⟨256, true, false, false, 0, 64, 1, 2, 3, 4, .other 0 []⟩).wellFormed = false := by decide
theorem test_wf_hello : (Instr.ringFrame 0 .none ⟨1, true, false, false, 0, 64, 1, 2, 3, 4,
    .hello 0 256 1 1 1 false false false 0 0⟩).wellFormed = false := by decide
theorem test_wf_agree : (Instr.ringFrame 0 .none ⟨1, true, false, false, 0, 64, 1, 2, 3, 4,
    .versionAgree 0 0 65536 0 0 0⟩).wellFormed = false := by decide
theorem test_wf_track : (Instr.ringFrame 0 .none ⟨1, true, false, false, 0, 64, 1, 2, 3, 4,
    .track 0 0 0 false 0x1000000000000 0 0⟩).wellFormed = false := by decide
theorem test_wf_pgo : (Instr.ringFrame 0 .none ⟨1, true, false, false, 0, 64, 1, 2, 3, 4, .pgo 0 0 65536 0⟩).wellFormed = false := by decide
theorem test_wf_venc : (Instr.ringFrame 0 .none ⟨1, true, false, false, 0, 64, 1, 2, 3, 4, .venc []⟩).wellFormed = false := by decide
theorem test_wf_reject : (Instr.ringFrame 0 .none ⟨1, true, false, false, 0, 64, 1, 2, 3, 4,
    .reject 0 256 0 0 0 0⟩).wellFormed = false := by decide
theorem test_wf_mgmt : (Instr.ringFrame 0 .none ⟨1, true, false, false, 0, 64, 1, 2, 3, 4,
    .mgmt 0 0 0 0 0 (List.replicate 65 0)⟩).wellFormed = false := by decide +kernel
theorem test_wf_service : (Instr.ringFrame 0 .none ⟨1, true, false, false, 0, 64, 1, 2, 3, 4,
    .service 0 0 65536 0 []⟩).wellFormed = false := by decide
theorem test_wf_ptp : (Instr.ringFrame 0 .none ⟨1, true, false, false, 0, 64, 1, 2, 3, 4,
    .ptp ⟨.sync, 256, 0, 0, 0⟩⟩).wellFormed = false := by decide
theorem test_wf_other_frame : (Instr.ringFrame 0 .none ⟨1, true, false, false, 0, 64, 1, 2, 3, 4, .other 256 []⟩).wellFormed = false := by decide
theorem test_wf_capability : (Instr.configurationRequest (.capability .msix 16)).wellFormed = false := by decide
theorem test_wf_channel : (Instr.channelSample 0 0 (-32769) true).wellFormed = false := by decide
theorem test_wf_tine : (Instr.tineLost 0).wellFormed = false := by decide
theorem test_wf_island : (Instr.islandStopped 0).wellFormed = false := by decide
theorem test_wf_loader_payload : (Instr.header (.usb 0 0 (List.replicate 4101 0)) true).wellFormed = false := by
  have h : (List.replicate 4101 (0 : Byte)).length = 4101 := List.length_replicate ..
  simp only [Instr.wellFormed, LoaderReq.ok, h]; rfl
theorem test_wf_counter_words : (Instr.arbRetry true true (List.replicate 5 ⟨0, 0⟩)).wellFormed = false := by decide
theorem test_wf_confirm_words : (Instr.confirm (.usb 0 0 []) true true true (List.replicate 5 ⟨0, 0⟩)).wellFormed = false := by decide
theorem test_wf_preload_cells : (Instr.samplePreload [true] []).wellFormed = false := by decide
theorem test_wf_extest_cells : (Instr.extest [] [false]).wellFormed = false := by decide
theorem test_wf_read_of_nothing : (Instr.registerRead .mp ⟨.device, 0⟩ 0).wellFormed = false := by decide
theorem test_wf_read_too_long : (Instr.registerRead .mp ⟨.device, 0⟩ 4097).wellFormed = false := by decide
theorem test_wf_configuration_offset : (Instr.configurationRequest (.read 4096)).wellFormed = false := by decide
theorem test_wf_configuration_write : (Instr.configurationRequest (.other 2 0)).wellFormed = false := by decide
theorem test_wf_bar_alignment : (Instr.configurationRequest (.bar 1 0x800)).wellFormed = false := by decide

/-! ## Values that the spec's worked examples give -/

/-- spec/02, wrapping a job ring, step 4: a doorbell of (4, 0) after (10, 1) is accepted. -/
theorem test_doorbell_wraps : (after (.doorbell .host 4 0x00000004)
    (ring 4 (set [(Reg.HOST_RPROD 4, 0x1000A), (Reg.HOST_RCONS 4, 0x1000A)] on))).getReg (Reg.HOST_RPROD 4) = 4 := by decide +kernel
/-- The same example: a doorbell of (4, 1) is ignored. -/
theorem test_doorbell_range : (after (.doorbell .host 4 0x00010004)
    (ring 4 (set [(Reg.HOST_RPROD 4, 0x1000A), (Reg.HOST_RCONS 4, 0x1000A)] on))).getReg (Reg.HOST_RPROD 4) = 0x1000A := by decide +kernel

/-- The tracker of spec/04, 600 dpi at 4 m/s, steps 2 and 3. -/
def wheel : State := set [(Reg.TRK_VEL 2, 0x33333333), (Reg.TRK_ACC 2, 0x0001AD7F)]
  (((on.wr64 (Reg.TRK_POS_LO 2) 32768000000).wr64 (Reg.TRK_TREF_LO 2) 4000000000).setTracker 2
    { Tracker.reset with te := 4000000000, pe := 32768000000 })
theorem test_predict : quotRound ((wheel.predict 2 4000003000).x) = 9830 := by decide +kernel
theorem test_crossing_range_1 :
    (⟨4000000000, 32768000000, wheel.predict 2 4000000000, (wheel.predict 2 4000000000).x⟩ : Visit).solve 32775218790 = .at_ 4002202697 := by decide +kernel
theorem test_crossing_range_0 :
    (⟨4000000000, 32768000000, wheel.predict 2 4000000000, (wheel.predict 2 4000000000).x⟩ : Visit).solve 32774563430 = .at_ 4002002749 := by decide +kernel

/-- spec/06, a nozzle dies, step 2: D_B is 1. -/
theorem test_line_shift : lineShift { prod (job []) with set := [0, 554871] } 300000 = 1 := by decide +kernel
/-- spec/06, step 3: the status of nozzle 517 of port 6 lies at 0x0419_1880, bits [11:10]. -/
theorem test_status_map : mapFld 6 517 = ⟨0x4191880, 11, 10⟩ := by decide +kernel

/-- spec/07, a Névé head at 5.0 Gb/s, step 3: PORT_SP 6,668 and PORT_SPACE 7,076. -/
theorem test_port_spacing :
    (let s := put [(Fld.PORT_CFG_MODE 9, 2), (Fld.PORT_CFG_NOZ 9, 4096), (Fld.PORT_TIM0_T_LS 9, 125), (Fld.NV_CFG_CLAT 9, 1600),
      (Fld.NV_STAT_RATE 9, 2), (Fld.NV_LAT_LINK_LAT 9, 445)] on
    (s.portSp 9, s.portSpace 9)) = (6668, 7076) := by decide +kernel

/-- spec/08, a greyscale waveform, step 5: the scale for a fill of 3,000, and the peak sample. -/
theorem test_droop_scale :
    (put ([(Fld.ROSE_CFG_DROOP_EN 3, 1)] ++ (List.range 33).map (fun i => (Fld.ROSE_DROOP_D 3 i, 16384 + 49 * i))) on).roseScale 3
      (0x4000, 0, 512) 3000 = 17428 := by decide +kernel
theorem test_scaled_sample : scaleSample 1000 24000 17428 = 25466 := by decide +kernel

/-- spec/09, sensing on the can line, step 1: G_REQ 24,000. -/
theorem test_greq :
    ((put [(Fld.ROSE_WAVE_LEN_LEN 0 7, 40), (Fld.CRV_P_CFG_TK_DLY 0, 50), (Fld.CRV_P_CFG_CAP_DLY 0, 30)] on).updateGreq 0).rd
      (Fld.CRV_P_GREQ_GREQ 0) = 24000 := by decide +kernel

/-- spec/10, one second of port 4: 24,000 nL and a residue of 350,000 fL. -/
theorem test_ink_reading :
    (let s := after .inkReading ((set [(Reg.CONS_P_VOL1 4, 6000), (Reg.CONS_P_VOL2 4, 12000), (Reg.CONS_P_VOL3 4, 24000),
      (Reg.CONS_P_DROP1_LO 4, 1200000), (Reg.CONS_P_DROP2_LO 4, 800000), (Reg.CONS_P_DROP3_LO 4, 300000)] on).setCons 4
        { ConsSt.reset with residue := 350000, seen := [0, 0, 0] })
    (s.ink 4, (s.getCons 4).residue)) = (24000, 350000) := by decide +kernel

/-- The descriptor of spec/11, a rotated overlay plate, step 4. -/
def turn : Desc := ⟨12, [0x85040001, 0xC0D, 0x88400000, 0x12, 0x00300000, 0, 0x000101E0, 0x00F00001, 0x00010040, 0x20, 0, 0, 0x40, 1, 0]⟩
theorem test_dma_address : turn.dstSide.at_ 7205 = 0x30015E := by decide +kernel
theorem test_dma_extent : turn.dstSide.extent = (0x300000, 0x303BFF) := by decide +kernel

/-- spec/13, a carriage move: the profile of step 1 is valid, and by step 2 brake(VCRUISE) lies between 61,996 and 61,997 microsteps, in the
rounded register values. -/
def carriage : Profile := ⟨0x346DC, 0x51EB85, 0x147AE14, 0x346DC, 0x1AD7F, 0xD6C0, 0x1AD7F, 0xD6C0⟩
theorem test_profile : carriage.valid = true := by decide +kernel
theorem test_brake : quotLt (quotInt (61996 * 65536)) (carriage.brake 0x147AE14) = true ∧
    quotLt (carriage.brake 0x147AE14) (quotInt (61997 * 65536)) = true := by decide +kernel

/-- spec/15, a head that strobes on its own, step 1: RAKE_FIRST_SRC. -/
theorem test_first_source :
    (on.latchFirst ⟨0x046, 2, 0, 5, false, false, false, false⟩ 3).2.getReg Reg.RAKE_FIRST_SRC = 0x80000C46 := by decide +kernel

/-! ## Published test values of the algorithms that the spec names -/

/-- FIPS 180-4: SHA-256 of "abc". -/
theorem test_sha256 : (sha256 [0x61, 0x62, 0x63]).take 4 = [0xBA, 0x78, 0x16, 0xBF] := by decide +kernel
/-- FIPS 197, appendix C.3. -/
theorem test_aes256 : aesEncrypt (roundKeys (List.range 32)) ((List.range 16).map (fun k => 17 * k)) =
    [0x8E, 0xA2, 0xB7, 0xCA, 0x51, 0x67, 0x45, 0xBF, 0xEA, 0xFC, 0x49, 0x90, 0x4B, 0x49, 0x60, 0x89] := by decide +kernel


/-- Whether an access reaches a block. -/
def isOpen (r : Reach) : Bool := match r with | .open _ _ _ => true | _ => false

theorem reaches_of {s : State} {a : Nat} (h : isOpen (s.reach a) = true) : s.reaches a := by
  unfold State.reaches
  generalize s.reach a = r at h
  cases r <;> first | exact ⟨_, _, _, rfl⟩ | cases h

theorem turned_held {s : State} {m : Master} {a : Nat} (h : s.reach a = .held) : s.turned m a s := .inl ⟨.inl h, rfl⟩

theorem turned_absent {s : State} {m : Master} {a c off : Nat} {b : BlockName} (h : s.reach a = .absent b c off) : s.turned m a s :=
  .inl ⟨.inr ⟨b, c, off, h⟩, rfl⟩

theorem turned_off {s : State} {m : Master} {a : Nat} (h : s.reach a = .off) : s.turned m a (s.reportBy 0x201 (BitVec.ofNat 32 a) m) :=
  .inr (.inl ⟨h, rfl⟩)

theorem requested_chunk {s : State} {b : Byte} (h : s.calm) (h' : (s.loaderRuns && s.domOn .service) = true)
    (h'' : s.dueErase = s) :
    s.requested 3 (.usb 5 6 (List.replicate 4100 b)) ⟨3, 0, 3, 5, 6, (List.replicate 4100 b).map (fun b : Byte => b.toNat)⟩ s.usbSeen :=
  ⟨h, by simp only [State.takeReq, h', if_true]; rfl, by
    have : ((List.replicate 4100 b).map (fun b : Byte => b.toNat)).length = 4100 := (List.length_map ..).trans (List.length_replicate ..)
    simp only [bodyFits, this]; rfl, fun _ => h''⟩


theorem get_cells (l : List Nat) : ∀ (a k : Nat), l.all (fun b => decide (b < 256)) = true → a ≤ k → k < a + l.length →
    (Store.get norErased (cells a l) k).toNat = l.getD (k - a) 0 := by
  induction l with
  | nil => intro a k _ h h'; simp only [List.length_nil] at h'; omega
  | cons b t ih =>
    intro a k hb h h'
    simp only [List.length_cons] at h'
    simp only [List.all_cons, Bool.and_eq_true, decide_eq_true_eq] at hb
    by_cases he : k = a
    · subst he
      have skip : ∀ (t : List Nat) (c : Nat), k < c → Store.get norErased (cells c t) k = 0xFF := by
        intro t
        induction t with
        | nil => intro c _; rfl
        | cons d u ihu =>
          intro c hc
          simp only [cells]
          split
          · exact ihu _ (by omega)
          · simp only [Store.get]
            rw [if_neg (by omega), if_pos hc]; rfl
      simp only [cells, Nat.sub_self, List.getD_cons_zero]
      split
      · rename_i e; rw [skip _ _ (by omega), e]; rfl
      · simp only [Store.get, if_true, BitVec.toNat_ofNat]; omega
    · have e : k - a = (k - (a + 1)) + 1 := by omega
      rw [e, List.getD_cons_succ, ← ih (a + 1) k hb.2 (by omega) (by omega)]
      simp only [cells]
      split
      · rfl
      · simp only [Store.get]
        rw [if_neg he, if_neg (by omega)]

theorem get_above (p m : Store Byte) (k : Nat) (h : p.all (fun c => decide (c.1 < k)) = true) :
    Store.get norErased (p ++ m) k = Store.get norErased m k := by
  induction p with
  | nil => rfl
  | cons c t ih =>
    simp only [List.all_cons, Bool.and_eq_true, decide_eq_true_eq] at h
    simp only [List.cons_append, Store.get]
    rw [if_neg (by omega), if_neg (by omega), ih h.2]

theorem header_of_cells {u : State} {p : Store Byte} {l : List Nat} {i : Nat} (e : u.nor = p ++ cells (slotBase i) l)
    (h : p.all (fun c => decide (c.1 < slotBase i)) = true) (hs : u.svc.spoiled ≠ some i) (hl : l.length = 512)
    (hb : l.all (fun b => decide (b < 256)) = true) : u.slotHeader i = l := by
  unfold State.slotHeader State.norBytes State.norByte
  rw [if_neg hs, e]
  apply List.ext_getElem
  · simp [hl]
  · intro n h1 h2
    have hn : n < 512 := by omega
    simp only [List.getElem_map, List.getElem_range]
    rw [get_above _ _ _ (by
      rw [List.all_eq_true] at h ⊢
      intro c hc
      have := h c hc
      simp only [decide_eq_true_eq] at this ⊢
      omega), get_cells l _ _ hb (by omega) (by omega)]
    simp [List.getD_eq_getElem?_getD, h2]

theorem slot_header {s u : State} {i : Nat} (e : u.nor = s.nor ++ cells (slotBase i) image)
    (h : s.nor.all (fun c => decide (c.1 < slotBase i)) = true) (hs : u.svc.spoiled ≠ some i) : u.slotHeader i = image :=
  header_of_cells e h hs (by decide +kernel) (by decide +kernel)

theorem bad_header {u : State} {i : Nat} (e : u.nor = cells (slotBase i) badImage) (hs : u.svc.spoiled ≠ some i) : u.slotHeader i = badImage :=
  header_of_cells (p := []) e rfl hs (by decide +kernel) (by decide +kernel)

/-- The key under which the image is sealed. -/
def imageKey : List Nat := [1, 2, 3, 4, 5, 6, 7, 8, 1, 2, 3, 4, 5, 6, 7, 8, 1, 2, 3, 4, 5, 6, 7, 8, 1, 2, 3, 4, 5, 6, 7, 8]

theorem key_of_image : keyUnwrap (List.replicate 32 0) (sliceOf image 0x018 40) = some imageKey := by decide +kernel
theorem mac_of_image : hmac256 (List.replicate 32 0) (sliceOf image 0 0x1E0) = sliceOf image 0x1E0 32 := by decide +kernel
theorem table_of_image : hdrTable image =
    [⟨0, 1, 0, 0, 0x20000000⟩, ⟨1, 3, 0, 0, 0x20000000⟩, ⟨2, 4, 0, 0, 0x20000000⟩, ⟨3, 5, 0, 0, 0x20000000⟩] := by decide +kernel

theorem refusal_of_image {s : State} (hv : s.regionValid 3 = true) (h4 : s.otpKey 0x054 = List.replicate 32 0)
    (h0 : s.otpKey 0x050 = List.replicate 32 0) (hd : s.units.deviceId = 0x9616) (ha : s.arbCounter = 0) : s.headerRefusal image = none := by
  unfold State.headerRefusal State.imageKey
  rw [hv, h4, h0, hd, ha, mac_of_image, key_of_image]
  decide +kernel

theorem mac_of_bad : hmac256 (List.replicate 32 0) (sliceOf badImage 0 0x1E0) = sliceOf badImage 0x1E0 32 := by decide +kernel
theorem key_of_bad : sliceOf badImage 0x018 40 = sliceOf image 0x018 40 := by decide +kernel

theorem refusal_of_bad {s : State} (hv : s.regionValid 3 = true) (h4 : s.otpKey 0x054 = List.replicate 32 0)
    (h0 : s.otpKey 0x050 = List.replicate 32 0) (hd : s.units.deviceId = 0x9616) (ha : s.arbCounter = 0) : s.headerRefusal badImage = none := by
  unfold State.headerRefusal State.imageKey
  rw [hv, h4, h0, hd, ha, mac_of_bad, key_of_bad, key_of_image]
  decide +kernel

theorem tags_of_image {s : State} {i : Nat} (h0 : s.otpKey 0x050 = List.replicate 32 0) (which : Section → Bool) :
    s.tagsPass i image which = true := by
  unfold State.tagsPass State.imageKey
  rw [h0, key_of_image, table_of_image]
  simp only [List.all_eq_true, List.mem_filter, List.mem_cons, List.not_mem_nil, or_false]
  rintro x ⟨rfl | rfl | rfl | rfl, -⟩
  · exact (by decide +kernel : decide (gcmTag imageKey (sectionIv image 0) (sliceOf image 0 0x80) [] = sliceOf image (0x080 + 32 * 0 + 16) 16) = true)
  · exact (by decide +kernel : decide (gcmTag imageKey (sectionIv image 1) (sliceOf image 0 0x80) [] = sliceOf image (0x080 + 32 * 1 + 16) 16) = true)
  · exact (by decide +kernel : decide (gcmTag imageKey (sectionIv image 2) (sliceOf image 0 0x80) [] = sliceOf image (0x080 + 32 * 2 + 16) 16) = true)
  · exact (by decide +kernel : decide (gcmTag imageKey (sectionIv image 3) (sliceOf image 0 0x80) [] = sliceOf image (0x080 + 32 * 3 + 16) 16) = true)

theorem tags_fail {s : State} {i : Nat} {h : List Nat} (which : Section → Bool) (h0 : s.otpKey 0x050 = List.replicate 32 0)
    (hk : sliceOf h 0x018 40 = sliceOf image 0x018 40) (x : Section) (hx : x ∈ (hdrTable h).filter which)
    (hp : s.sectionPasses i h imageKey x = false) : s.tagsPass i h which = false := by
  unfold State.tagsPass State.imageKey
  rw [h0, hk, key_of_image]
  refine Bool.eq_false_iff.mpr fun e => ?_
  have := List.all_eq_true.mp e x hx
  rw [hp] at this; cases this

theorem boots_of_image {s u : State} {i : Nat} (e : u.nor = s.nor ++ cells (slotBase i) image)
    (h : s.nor.all (fun c => decide (c.1 < slotBase i)) = true ∧ u.svc.spoiled ≠ some i ∧ u.regionValid 3 = true ∧
      u.otpKey 0x054 = List.replicate 32 0 ∧ u.otpKey 0x050 = List.replicate 32 0 ∧ u.units.deviceId = 0x9616 ∧ u.arbCounter = 0) :
    u.slotBoots i false = true := by
  obtain ⟨hn, hs, hv, h4, h0, hd, ha⟩ := h
  unfold State.slotBoots State.imageValid
  rw [slot_header e hn hs, refusal_of_image hv h4 h0 hd ha, tags_of_image h0]
  rfl

theorem blank_congr {s t : State} (h : s.nor = t.nor) (c f i : Nat) : s.pageBlank c f i = t.pageBlank c f i := by
  unfold State.pageBlank State.norByte; rw [h]

theorem pages_congr {s t : State} (h : s.nor = t.nor) (c f : Nat) : ∀ k i, s.pagesFrom c f k i = t.pagesFrom c f k i := by
  intro k
  induction k with
  | zero => intro i; rfl
  | succ k ih => intro i; unfold State.pagesFrom; rw [blank_congr h, ih]

theorem setting_congr {s t : State} (h : s.nor = t.nor) (c key : Nat) : s.settingIn c key = t.settingIn c key := by
  have hb : ∀ a n, s.norBytes a n = t.norBytes a n := fun a n => by unfold State.norBytes State.norByte; rw [h]
  have hh : s.halfInUse c = t.halfInUse c := by unfold State.halfInUse; rw [blank_congr h, blank_congr h]
  have hl : s.settingsOf c = t.settingsOf c := by unfold State.settingsOf; simp only [hb, hh, pages_congr h]
  unfold State.settingIn
  rw [hl]

theorem wait_nor (k : Nat) (d : Desc) (s : State) : (wait k d s).nor = s.nor := rfl

theorem setting_of_keys {d : Desc} {c key : Nat} (hc : c = 0) (hk : key = 0x123) : (wait 0 d keys).settingIn c key = some [1, 2] := by
  rw [setting_congr (wait_nor 0 d keys), hc, hk]
  decide +kernel
/-! ## The states -/

def s1 : State := { on with pending := [.bypass, .highz] }
def s2 : State := set [(Reg.HOST_RCTL 50, 0), (Reg.HOST_RSTAT 50, 0), (Reg.HOST_RBASE_LO 50, 0x1000)] on
def s3 : State := set [(Reg.HOST_RBASE_LO 48, 0x1000)] (on.setChan32 31 { Chan.reset with marks := [3] })
def s4 : State := set [(Reg.HOST_RCTL 50, 0), (Reg.HOST_RSTAT 50, 2)] on
def s5 : State := (set [(Reg.HOST_RCTL 50, 0), (Reg.HOST_RSTAT 50, 2)] on).setRing 50 { Ring.reset with enableHeld := true }
def s6 : State := set [(Reg.HOST_RSTAT 50, 2)] on
def s7 : State := (set [(Reg.HOST_RSTAT 50, 2), (Reg.HOST_RBASE_LO 50, 0x1000)] on).setRing 50 { Ring.reset with enableHeld := true }
def s8 : State := set [(Reg.HOST_RCONS 48, 0x10000)] (ring 48 on)
def s9 : State := set [(Reg.HOST_RCONS 16, 0x10000)] (ring 16 on)
def s10 : State := set [(Reg.HOST_RPROD 50, 0x00000)] on
def s11 : State := ring 48 on
def s12 : State := set [(Reg.HOST_RCTL 48, 4), (Reg.HOST_RCONS 48, 0x1000F)] on
def s13 : State := set [(Reg.HOST_RPROD 48, 0x10001)] (ring 48 on)
def s14 : State := { set [(Reg.HOST_RPROD 0, 0x10001)] (ring 0 on) with mp := { MpSt.reset with rescue := true } }
def s15 : State := (set [(Reg.HOST_RPROD 48, 0x10001)] (ring 48 on)).setRing 48 { Ring.reset with retries := 4 }
def s16 : State := (set [(Reg.HOST_RPROD 48, 0x10001)] (ring 48 on)).setRing 48 { Ring.reset with retries := 3 }
def s17 : State := set [(Reg.HOST_RSTAT 48, 0x60003)] (set [(Reg.HOST_RPROD 48, 0x10001)] (ring 48 on))
def s18 : State := { on with rakeQ := [], host := { on.host with cqQueue := [⟨16, 1, 3, 4, 5, 6, 1⟩] } }
def s19 : State := { on with rakeQ := [⟨0x200, 0, 0, 0, false, false, false, false⟩], host := { on.host with cqQueue := [⟨16, 1, 3, 4, 5, 6, 1⟩] } }
def s20 : State := { set [(Reg.HOST_ER_LOST, 7)] on with host := { on.host with erOwed := true } }
def s21 : State := set [(Reg.HOST_EVMASK0, 8)] ({ set [(Reg.HOST_ER_LOST, 7)] on with host := { on.host with erOwed := true } })
def s22 : State := { on with tb := 4000 }.setRing 50 { Ring.reset with unsignalled := 1 }
def s23 : State := { on with tb := 3999 }.setRing 50 { Ring.reset with unsignalled := 1 }
def s24 : State := set [(Reg.HOST_STAT, 1)] on
def s25 : State := set [(Reg.HOST_MSIX_PBA 1, 0x80000000), (Reg.HOST_MSIX_TABLE 255, 0)] on
def s26 : State := { on with units := { on.units with serial := 0x123456789ABCDEF0 } }
def s27 : State := { on with host := { on.host with perstLow := true } }
def s28 : State := { on with host := { on.host with speed := 0, width := 0, was := (5, 8) } }
def s29 : State := set [(Reg.OWN 31, 0x030007), (Reg.HOST_RPROD 3, 5)]
  { on with host := { on.host with cqQueue := [⟨0, 0, 0, 0, 0, 0, 0⟩] } }
def s30 : State := { on with hf := { on.hf with active := true } }
def s31 : State := wait 16 ⟨15, [0x80000000, 7]⟩ (ring 16 on)
def s32 : State := wait 0 ⟨15, [0x80000000, 7, 1]⟩ (ring 0 on)
def s33 : State := wait 16 ⟨15, [0x80000002, 7]⟩ (ring 16 on)
def s34 : State := wait 48 ⟨15, [0x80000000, 7]⟩ (ring 48 on)
def s35 : State := wait 48 ⟨15, [0x80000004, 7]⟩ (ring 48 on)
def s36 : State := wait 16 ⟨15, [0x8000FE01, 7, 9, 0]⟩ (ring 16 (set [(Reg.CTX_STATE 254, 1)] on))
def s37 : State := wait 16 ⟨15, [0x80000001, 7, 9, 0]⟩ (ring 16 (set [(Reg.CTX_STATE 254, 1)] on))
def s38 : State := wait 16 ⟨15, [0x8000FE01, 7, 9, 0]⟩ (ring 16 on)
def b1 : State := (wait 16 ⟨15, [0x8000FE01, 7, 9, 0]⟩ (ring 16 (set [(Reg.CTX_STATE 254, 1)] on)))
def s39 : State := b1.setRing 16 { Ring.reset with fetched := [⟨15, [0x8000FE01, 7, 9, 0]⟩], outstanding := 1, checked := true }
def s40 : State := put [(Fld.CTX_SKIP_COUNT 254, 1)] (b1.setRing 16
  { Ring.reset with fetched := [⟨15, [0x8000FE01, 7, 9, 0]⟩], outstanding := 1, checked := true })
def s41 : State := (b1.setRing 16 { Ring.reset with fetched := [⟨15, [0x8000FE01, 7, 9, 0]⟩], outstanding := 1, checked := true, no := 1 }).setRing
  1 { Ring.reset with fetched := [⟨15, [0x8000FE01, 7, 9, 0]⟩] }
def s42 : State := wait 0 ⟨15, [0x80000010, 7, 254, 0x01002700, 0, 1]⟩ (set [(Reg.CTX_STG_RANGE 254 0, 0xF0FF0F01), (Reg.CTX_SH_LINES 254,
  1), (Reg.CTX_SH_PITCH 254, 1)] on)
def s43 : State := put [(Fld.RAKE_SCOPE_STATE 0, 2)] (wait 0 ⟨15, [0x80000010, 7, 254, 0x01002700, 0, 1]⟩ (set [(Reg.CTX_STG_RANGE 254 0,
  0xF0FF0F01), (Reg.CTX_SH_LINES 254, 1), (Reg.CTX_SH_PITCH 254, 1)] on))
def s44 : State := wait 0 ⟨15, [0x80000010, 7, 254, 0x01002700, 0, 1]⟩ on
def s45 : State := wait 0 ⟨15, [0x80000010, 7, 0, 0x01002700, 0, 1]⟩ (set [(Reg.CTX_STG_RANGE 0 0, 0xF0FF0F01), (Reg.CTX_SH_LINES 0, 1),
  (Reg.CTX_SH_PITCH 0, 1), (Reg.OWN 5, 0x10000)] on)
def s46 : State := wait 0 ⟨15, [0x80000011, 7, 254]⟩ (set [(Reg.CTX_STATE 254, 5), (Reg.CTX_BINDING 254, 0x01000000)] on)
def s47 : State := wait 0 ⟨15, [0x80000011, 7, 254]⟩ (set [(Reg.CTX_STATE 254, 2)] on)
def s48 : State := { wait 0 ⟨15, [0x80000011, 7, 254]⟩ on with units := { on.units with ctxLast := 253 } }
def s49 : State := wait 0 ⟨15, [0x80000012, 7, 0x1FE]⟩ (set [(Reg.CTX_STATE 254, 0)] on)
def s50 : State := wait 0 ⟨15, [0x80000012, 7, 0x2FE]⟩ (set [(Reg.CTX_STATE 254, 0)] on)
def s51 : State := (wait 0 ⟨15, [0x80000012, 7, 0x3FE]⟩ (set [(Reg.CTX_STATE 254, 4)] on)).setCtx 254
  { Ctx.reset with queue := [⟨16, 3, false, [], none⟩] }
def s52 : State := wait 0 ⟨15, [0x80000012, 7, 0x3FE]⟩ (set [(Reg.CTX_STATE 254, 2)] on)
def s53 : State := (wait 0 ⟨15, [0x80000012, 7, 0x4FE]⟩ (set [(Reg.CTX_STATE 254, 5)] on)).setCtx 254
  { Ctx.reset with causes := [0x0A, 0x0B] }
def s54 : State := wait 0 ⟨15, [0x80000012, 7, 0x4FE]⟩ (set [(Reg.CTX_STATE 254, 4)] on)
def s55 : State := wait 0 ⟨15, [0x80000012, 7, 0x5FE]⟩ on
def s56 : State := { wait 0 ⟨15, [0x80000012, 7, 0x1FE]⟩ (set [(Reg.CTX_STATE 254, 1)] on) with units := { on.units with ctxLast := 253 } }
def s57 : State := { wait 0 ⟨15, [0x80000012, 7, 0x2FE]⟩ (set [(Reg.CTX_STATE 254, 1)] on) with units := { on.units with ctxLast := 253 } }
def s58 : State := { wait 0 ⟨15, [0x80000012, 7, 0x3FE]⟩ (set [(Reg.CTX_STATE 254, 1)] on) with units := { on.units with ctxLast := 253 } }
def s59 : State := { wait 0 ⟨15, [0x80000012, 7, 0x4FE]⟩ (set [(Reg.CTX_STATE 254, 1)] on) with units := { on.units with ctxLast := 253 } }
def s60 : State := (set [(Reg.CTX_STATE 254, 1)] on)
def s61 : State := set [(Reg.CTX_HO_STAT 254, 0x80000000)] on
def s62 : State := set [(Reg.CTX_STATE 254, 4), (Reg.CTX_SH_LINES 254, 1), (Reg.CTX_SH_PITCH 254, 1)] on
def s63 : State := set [(Reg.CTX_STATE 254, 4)] on
def s64 : State := wait 48 ⟨15, [0x84400001, 7, 0x1000, 0, 0x2000, 0, 0x00010001, 0x00010001, 0x00010001]⟩ (ring 48 on)
def s65 : State := wait 48 ⟨15, [0x80400002, 7, 5, 0, 0x2000, 0, 0, 0x00010000, 0x00010001]⟩ (ring 48 on)
def s66 : State := wait 48 ⟨15, [0x84400001, 7, 0]⟩ (ring 48 on)
def s67 : State := wait 48 ⟨15, [0x80400002, 7, 0]⟩ (ring 48 on)
def s68 : State := wait 48 ⟨15, [0x80000003, 7, 0x1000, 0]⟩ (ring 48 on)
def s69 : State := put [(Fld.BAR_CH_STAT_CHAIN_CNT 31, 1024)] (wait 48 ⟨15, [0x80000003, 7, 0x1000, 0]⟩ (ring 48 on))
def s70 : State := wait 48 ⟨15, [0x80000003, 7, 0x1001, 0]⟩ (ring 48 on)
def b2 : State := (wait 48 ⟨15, [0x84400001, 7, 0x1000, 0, 0x2000, 0, 0x00010001, 0x00010001, 0x00010001]⟩ (ring 48 on))
def s71 : State := set [(Reg.BAR_CH_CTL 31, 1)] b2
def s72 : State := set [(Reg.BAR_CH_CTL 31, 1)] (wait 48 ⟨15, [0x80400002, 7, 5, 0, 0x2000, 0, 0, 0x00010000, 0x00010001]⟩ (ring 48 on))
def s73 : State := set [(Reg.BAR_CH_CTL 31, 1)] (wait 48 ⟨15, [0x80000003, 7, 0x1000, 0]⟩ (ring 48 on))
def s74 : State := (ring 48 on).setChan32 31 ⟨[], some ⟨⟨15, [0x80000003, 7, 0x1000, 0]⟩, 0x1040, none, [⟨15, [0x94400001, 7, 0x1000, 0,
  0x2000, 0, 0x00010001, 0x00010001, 0x00010001]⟩], false, false⟩, []⟩
def s75 : State := (ring 48 on).setChan32 31 ⟨[], some ⟨⟨15, [0x80000003, 7, 0x1000, 0]⟩, 0x1040, none, [⟨15, [0x90400002, 7, 5, 0, 0x2000,
  0, 0, 0x00010000, 0x00010001]⟩], false, false⟩, []⟩
def s76 : State := (b2.setChan32 31 ⟨[(run ⟨15, [0x84400001, 7, 0x1000, 0, 0x2000, 0, 0x00010001, 0x00010001, 0x00010001]⟩)], none, []⟩)
def s77 : State := { (b2.setChan32 31 ⟨[(run ⟨15, [0x84400001, 7, 0x1000, 0, 0x2000, 0, 0x00010001, 0x00010001, 0x00010001]⟩)], none, []⟩) with bar := { (b2.setChan32 31 ⟨[(run ⟨15, [0x84400001, 7, 0x1000, 0, 0x2000, 0, 0x00010001, 0x00010001, 0x00010001]⟩)], none, []⟩).bar with grants := [(2, some (31, 1))] } }
def s78 : State := (b2.setChan32 31 ⟨[{ run ⟨15, [0x84400001, 7, 0x1000, 0, 0x2000, 0, 0x00010001, 0x00010001, 0x00010001]⟩ with rd := 16, buf := [(0, List.replicate 16 7)] }],
  none, []⟩)
def s79 : State := { (b2.setChan32 31 ⟨[{ run ⟨15, [0x84400001, 7, 0x1000, 0, 0x2000, 0, 0x00010001, 0x00010001, 0x00010001]⟩ with rd := 16, buf := [(0, List.replicate 16 7)] }], none, []⟩) with bar := { (b2.setChan32 31 ⟨[{ run ⟨15, [0x84400001, 7, 0x1000, 0, 0x2000, 0, 0x00010001, 0x00010001, 0x00010001]⟩ with rd := 16, buf := [(0, List.replicate 16 7)] }], none, []⟩).bar with grants := [(6, some (31, 1))] } }
def b3 : State := (put [(Fld.CTX_PATCH_BASE_BASE 254, 16), (Fld.CTX_PATCH_SIZE_SIZE 254, 16)] on)
def s80 : State := edit (fun z => z.setCtx 254
  { Ctx.reset with queue := [{ (job [0x8000FE01, 7, 9, 0, 0x40000000, 0, 0x1000, 0, 0x00400001, 0x00000040, 0, 0, 0, 0, 0, 0]) with block := some ⟨0, 1, Fetch.reset, Fetch.reset, false⟩ }] })
  b3
def s81 : State := edit (fun z => z.setCtx 254
  { Ctx.reset with queue := [{ (job [0x8000FE01, 7, 9, 0, 0x40000000, 0, 0x1000, 0, 0x00400001, 0x00000040, 0, 0, 0, 0, 0, 0]) with block := some ⟨0, 1, { Fetch.reset with id := 7, rd := 64, buf := [(0, List.replicate 64 7)] }, Fetch.reset, false⟩ }] })
  b3
def s82 : State := put [(Fld.BAR_STAT_STATE, 1)] (b2.setChan32 31
  ⟨[{ run ⟨15, [0x84400001, 7, 0x1000, 0, 0x2000, 0, 0x00010001, 0x00010001, 0x00010001]⟩ with rd := 16, buf := [(0, List.replicate 16 7)] }],
  none, []⟩)
def s83 : State := { (b2.setChan32 31 ⟨[{ run ⟨15, [0x84400001, 7, 0x1000, 0, 0x2000, 0, 0x00010001, 0x00010001, 0x00010001]⟩ with rd := 16 }], none, []⟩) with bar := { (b2.setChan32 31 ⟨[{ run ⟨15, [0x84400001, 7, 0x1000, 0, 0x2000, 0, 0x00010001, 0x00010001, 0x00010001]⟩ with rd := 16 }], none, []⟩).bar with reads := [(⟨31, 1, .data, false, 0x1000, 0, 16, 0⟩ : BarRead)] } }
def s84 : State := { (b2.setChan32 31 ⟨[{ run ⟨15, [0x84400001, 7, 0x1000, 0, 0x2000, 0, 0x00010001, 0x00010001, 0x00010001]⟩ with rd := 16 }], none, []⟩) with bar := { (b2.setChan32 31 ⟨[{ run ⟨15, [0x84400001, 7, 0x1000, 0, 0x2000, 0, 0x00010001, 0x00010001, 0x00010001]⟩ with rd := 16 }], none, []⟩).bar with reads := [(⟨31, 1, .data, true, 0x3FFFFF0, 0, 16, 0⟩ : BarRead)] } }
def s85 : State := { ((ring 48 on).setChan32 31 ⟨[], some (⟨⟨15, [0x80000003, 7, 0x1000, 0]⟩, 0x1000, some 5, [], false, false⟩ : Chain), []⟩) with bar := { ((ring 48 on).setChan32 31 ⟨[], some (⟨⟨15, [0x80000003, 7, 0x1000, 0]⟩, 0x1000, some 5, [], false, false⟩ : Chain), []⟩).bar with reads := [(⟨31, 5, .chain, false, 0x1000, 0, 64, 0⟩ : BarRead)] } }
def s86 : State := { (b2.setChan32 31 ⟨[{ run ⟨15, [0x84400001, 7, 0x1000, 0, 0x2000, 0, 0x00010001, 0x00010001, 0x00010001]⟩ with rd := 16 }], none, []⟩) with bar := { (b2.setChan32 31 ⟨[{ run ⟨15, [0x84400001, 7, 0x1000, 0, 0x2000, 0, 0x00010001, 0x00010001, 0x00010001]⟩ with rd := 16 }], none, []⟩).bar with writes := [(⟨31, 1, true, 0x3FFFFFE, 0, [7, 8]⟩ : BarWrite)] } }
def s87 : State := { (b2.setChan32 31 ⟨[{ run ⟨15, [0x84400001, 7, 0x1000, 0, 0x2000, 0, 0x00010001, 0x00010001, 0x00010001]⟩ with rd := 16, wr := 16, hostTo := some 0x200F, asked := true }], none, []⟩) with bar := { (b2.setChan32 31 ⟨[{ run ⟨15, [0x84400001, 7, 0x1000, 0, 0x2000, 0, 0x00010001, 0x00010001, 0x00010001]⟩ with rd := 16, wr := 16, hostTo := some 0x200F, asked := true }], none, []⟩).bar with reads := [(⟨31, 1, .flush, false, 0x2000, 16, 0, 0⟩ : BarRead)] } }
def s88 : State := { { (b2.setChan32 31 ⟨[{ run ⟨15, [0x84400001, 7, 0x1000, 0, 0x2000, 0, 0x00010001, 0x00010001, 0x00010001]⟩ with rd := 16 }], none, []⟩) with bar := { (b2.setChan32 31 ⟨[{ run ⟨15, [0x84400001, 7, 0x1000, 0, 0x2000, 0, 0x00010001, 0x00010001, 0x00010001]⟩ with rd := 16 }], none, []⟩).bar with reads := [(⟨31, 1, .data, false, 0x1000, 0, 16, 0⟩ : BarRead)] } } with tb := 40000000 }
def s89 : State := { { (b2.setChan32 31 ⟨[{ run ⟨15, [0x84400001, 7, 0x1000, 0, 0x2000, 0, 0x00010001, 0x00010001, 0x00010001]⟩ with rd := 16 }], none, []⟩) with bar := { (b2.setChan32 31 ⟨[{ run ⟨15, [0x84400001, 7, 0x1000, 0, 0x2000, 0, 0x00010001, 0x00010001, 0x00010001]⟩ with rd := 16 }], none, []⟩).bar with reads := [(⟨31, 1, .data, false, 0x1000, 0, 16, 0⟩ : BarRead)] } } with tb := 199999 }
def s90 : State := edit (fun z => { z with esp := { z.esp with bad := [(0x3FFFFF8, some ⟨3, .bad, 0⟩)] } })
  ({ (b2.setChan32 31 ⟨[{ run ⟨15, [0x84400001, 7, 0x1000, 0, 0x2000, 0, 0x00010001, 0x00010001, 0x00010001]⟩ with rd := 16 }], none, []⟩) with bar := { (b2.setChan32 31 ⟨[{ run ⟨15, [0x84400001, 7, 0x1000, 0, 0x2000, 0, 0x00010001, 0x00010001, 0x00010001]⟩ with rd := 16 }], none, []⟩).bar with reads := [(⟨31, 1, .data, true, 0x3FFFFF0, 0, 16, 0⟩ : BarRead)] } })
def s91 : State := put [(Fld.BAR_STAT_STATE, 1)] on
def s92 : State := put [(Fld.BAR_STAT_STATE, 2)] on
def s93 : State := (set [(Reg.CTX_STATE 254, 1), (Reg.CTX_BINDING 254, 0x1F00)] { on with tb := 4000 })
def s94 : State := { on with tb := 4000 }
def s95 : State := (edit (fun z => z.setCtx 254 { z.getCtx 254 with edges := [9, 11], lastEdge := some 5 }) (set [(Reg.CTX_LOCKOUT 254,
  4096)] (set [(Reg.CTX_STATE 254, 1)] on)))
def s96 : State := (edit (fun z => z.setCtx 254 { z.getCtx 254 with edges := [9, 11] }) on)
def s97 : State := (edit (fun z => z.setCtx 254 { z.getCtx 254 with edges := [9, 11] }) (set [(Reg.CTX_STATE 254, 1)] on))
def s98 : State := (edit (fun z => z.setCtx 254
  { z.getCtx 254 with edges := [9, 11], queue := [(⟨16, 3, false, [0x8000FE01, 7, 9, 0], none⟩ : Job), (⟨16, 3, false, [0x8000FE01, 7, 9, 0], none⟩ : Job)] })
  (set [(Reg.CTX_STATE 254, 1)] on))
def s99 : State := (edit (fun z => z.setCtx 254
  { z.getCtx 254 with edges := [9, 11], queue := [(⟨16, 3, false, [0x8000FE01, 7, 9, 0], none⟩ : Job), (⟨16, 3, false, [0x8000FE01, 7, 9, 0], none⟩ : Job)] })
  (set [(Reg.CTX_STATE 254, 5)] on))
def s100 : State := (edit (fun z => z.setCtx 254
  { z.getCtx 254 with prods := [(prod (job [0x8000FE01, 7, 9, 0])), { (prod (job [0x8000FE01, 7, 9, 0])) with id := 1 }], nextProd := 2, edges := [9, 11], queue := [(⟨16, 3, false, [0x8000FE01, 7, 9, 0], none⟩ : Job), (⟨16, 3, false, [0x8000FE01, 7, 9, 0], none⟩ : Job)] })
  (set [(Reg.CTX_STATE 254, 2)] on))
def s101 : State := (edit (fun z => z.setCtx 254
  { z.getCtx 254 with toRef := some 0, queue := [(⟨16, 3, false, [0x8000FE01, 7, 9, 0], none⟩ : Job)] }) (set [(Reg.CTX_TIMEOUT 254,
  4096),(Reg.TRK_POS_LO 0, 0x10000)] (set [(Reg.CTX_STATE 254, 1)] on)))
def s102 : State := (edit (fun z => z.setCtx 254 { z.getCtx 254 with pulses := [⟨0, false, 0, 5, 100⟩, ⟨0, false, 70000, 6, 100⟩] }) on)
def s103 : State := on.setRelay 15 [⟨0, false, 0, 5, 100⟩, ⟨0, false, 70000, 6, 100⟩]
def s104 : State := (edit (fun z => { z with rejActive := [(1, 2), (3, 4)] }) on)
def b4 : State := (put [(Fld.ENC_CFG_EN 15, 1), (Fld.ENC_CFG_FILT 15, 31)] { on with tb := 4000 })
def s105 : State := b4
def s106 : State := (edit (fun z => z.setEncoder 15 { z.getEncoder 15 with zLast := some 5 }) (put [(Fld.ENC_CFG_Z_MODE 15, 1)] (set
  [(Reg.ENC_ZCPR 15, 100), (Reg.ENC_CNT 15, 9)] b4)))
def s107 : State := (set [(Reg.ENC_ZCPR 15, 4)] (edit (fun z => z.setEncoder 15 { z.getEncoder 15 with zLast := some 5 }) (put
  [(Fld.ENC_CFG_Z_MODE 15, 1)] (set [(Reg.ENC_ZCPR 15, 100), (Reg.ENC_CNT 15, 9)] b4))))
def s108 : State := (edit (fun z => z.setTracker 23 { z.getTracker 23 with mode := .still, meas := some (70000, 40200) }) (set
  [(Reg.TRK_TREF_LO 23, 100)] on))
def s109 : State := (edit (fun z => z.setTracker 23 { z.getTracker 23 with mode := .start, meas := some (70000, 40200) }) (set
  [(Reg.TRK_TREF_LO 23, 100)] on))
def b5 : State := (edit (fun z => z.setTracker 23 { z.getTracker 23 with mode := .track, meas := some (70000, 40200) }) (set
  [(Reg.TRK_TREF_LO 23, 100)] on))
def s110 : State := b5
def s111 : State := (edit (fun z => z.setTracker 23 { z.getTracker 23 with meas := some (70000, 40200), used := some 39201 }) on)
def s112 : State := { b5 with tb := 40000000 }
def s113 : State := { b5 with tb := 39999999 }
def s114 : State := (set [(Reg.PCR_PLL_STAT, 0x20)] on).setMirror 16 { Mirror.reset with inc := tbIncLow, lat := 6, cal := true }
def s115 : State := (set [(Reg.PCR_PLL_STAT, 0x20)] on)
def s116 : State := (set [(Reg.PCR_PLL_STAT, 0)] on)
def b6 : State := (set [(Reg.CTX_STATE 254, 2), (Reg.CTX_BINDING 254, 0x01000000)] on)
def s117 : State := (edit (fun z => z.setCtx 254 { z.getCtx 254 with prods := [(prod (job [0x8000FE01, 7, 9, 0]))] }) b6)
def s118 : State := (edit (fun z => z.setCtx 254
  { z.getCtx 254 with prods := [{ (prod (job [0x8000FE01, 7, 9, 0])) with upg := some 5, groups := [⟨0, [0], 1, 0, some 16000, false⟩] }] })
  b6)
def b7 : State := (edit (fun z => { z with rangeFire := [(254 * 16, some 700)], portFire := [(0, some 900)] }) on)
def s119 : State := b7
def s120 : State := (edit (fun z => { z with esp := { z.esp with bad := [(0x3FFFFF8, some ⟨1, .corrected, 0x0102030405060708⟩)] } }) on)
def s121 : State := (put [(Fld.ESP_STAT_DS0_INIT, 1), (Fld.ESP_STAT_DS1_INIT, 1)] on)
def b8 : State := (put [(Fld.ESP_CFG_SCRUB_EN, 1), (Fld.ESP_CFG_SCRUB_INT, 0)] { on with tb := 4000 })
def s122 : State := (edit (fun z => { z with esp := { z.esp with bad := [(0x100000 + 0x1FFFF * 8, some ⟨1, .corrected, 0x0102030405060708⟩)], scrubAt := 0x1FFFF } })
  b8)
def s123 : State := { b8 with tb := 3999 }
def s124 : State := (edit (fun z => { z with esp := { z.esp with bad := [(63 * 0x100000, some ⟨1, .corrected, 0x0102030405060708⟩)], writeBack := [0, 63 * 0x100000] } })
  b8)
def s125 : State := (edit (fun z => { z with esp := { z.esp with writeBack := [0] } }) b8)
def s126 : State := (edit (fun z => z.setCtx 254
  { z.getCtx 254 with queue := [(job [0x8000FE01, 7, 9, 0, 0x40000000, 0, 0x1000, 0, 0x00400001, 0x00000040, 0, 0, 0, 0, 0, 0])] }) b3)
def s127 : State := (edit (fun z => z.setCtx 254
  { z.getCtx 254 with prods := [prod (job [0x8000FE01, 7, 9, 0, 0x40000000, 0, 0x1000, 0, 0x00400001, 0x00000040, 0, 0, 0, 0, 0, 0])] }) b3)
def s128 : State := b3
def s129 : State := (edit (fun z => { z with bar := { z.bar with writes := [(⟨32, 7, true, 0x400, 0, List.replicate 64 7⟩ : BarWrite)] } })
  (edit (fun z => z.setCtx 254 { z.getCtx 254 with queue := [{ (job [0x8000FE01, 7, 9, 0, 0x40000000, 0, 0x1000, 0, 0x00400001, 0x00000040, 0, 0, 0, 0, 0, 0]) with block := some ⟨0, 1, { Fetch.reset with id := 7, rd := 64, wr := 64 }, Fetch.reset, false⟩ }] })
  b3))
def s130 : State := (set [(Reg.PLD_W0 4095, 0x80000000), (Reg.PLD_W1 4095, 0x00010000), (Reg.PLD_W2 4095, 0)] on)
def s131 : State := (set [(Reg.PLD_W0 4095, 0x80000000), (Reg.PLD_W1 4095, 0x00010001), (Reg.PLD_W2 4095, 0)] on)
def s132 : State := (set [(Reg.GRF_SUB_W0 8191, 0x80000000)] on)
def s133 : State := (edit (fun z => { z with staged := [(masterKey .service (Reg.SHR_CTX_SCAN 254), some 0x84000000), (masterKey .service (Reg.SHR_CTX_ALIGN_F 254), some 9)] })
  on)
def s134 : State := (set [(Reg.SHR_CTX_SCAN 254, 0x84000000)] on)
def s135 : State := (put [(Fld.SHR_ZONE_A_EN 63, 1)] on)
def s136 : State := (put [(Fld.SHR_CHECK_BUSY, 1)] on)
def s137 : State := (edit (fun z => { z with maskCheck := some (1, 2, 3, some (4095, 7)) }) on)
def s138 : State := (set [(Reg.PCR_RET_PORT, 0x8000)] on)
def b9 : State := (put [(Fld.CTX_BINDING_NRANGES 254, 1), (Fld.CTX_RANGE_PORT 254 0, 15)] b6)
def b10 : State := (edit (fun z => z.setCtx 254
  { z.getCtx 254 with prods := [{ (prod (job [0x8000FE01, 7, 9, 0])) with groups := [(⟨0, [0], 0, 0, some 0, false⟩ : Group)] }] }) b9)
def b11 : State := (edit (fun z => z.setPort 15 { z.getPort 15 with lines := [{ line with entry := none }] }) b10)
def b12 : State := (edit (fun z => { z with esp := { z.esp with queue := [(⟨254, 0, 0, 0, 0⟩ : LineKey)] } }) b11)
def s139 : State := b12
def s140 : State := (State.composeRequest { b12 with esp := { b12.esp with queue := [], taken := some 0 } } (⟨254, 0, 0, 0, 0⟩ : LineKey)
  ({ (prod (job [0x8000FE01, 7, 9, 0])) with groups := [(⟨0, [0], 0, 0, some 0, false⟩ : Group)] }) (⟨0, [0], 0, 0, some 0, false⟩ :
  Group)).2.2
def s141 : State := put [(Fld.HK_STAT_DIE_STATE, 2)] (edit (fun z => { z with esp := { z.esp with taken := some 0 } }) b12)
def s142 : State := (edit (fun z => { z with esp := { z.esp with waiting := [(⟨15, (⟨254, 0, 0, 0, 0⟩ : LineKey), ⟨false, [(3, 2)]⟩⟩ : WaitEntry)] } })
  (edit (fun z => z.setPort 15 { z.getPort 15 with lines := [{ line with entry := none }] }) on))
def s143 : State := (put [(Fld.PORT_CFG_EN 15, 1), (Fld.PORT_CFG_MODE 15, 2), (Fld.NV_STAT_STAGE 15, 5)] on)
def s144 : State := (put [(Fld.PORT_CFG_EN 15, 1)] on)
def b13 : State := (edit (fun z => z.setPort 15 { z.getPort 15 with ramped := false }) (ready 15 0 on))
def s145 : State := (edit (fun z => { z with tb := 5125 }) (edit (fun z => z.onWave 15 (fun w => { w with entry := some 5 })) b13))
def s146 : State := b13
def s147 : State := (edit (fun z => { z with tb := 5124 }) (edit (fun z => z.onWave 15 (fun w => { w with entry := some 5 })) b13))
def b14 : State := (edit (fun z => z.setPort 15 { z.getPort 15 with lines := [line], pulse := some ⟨1, 2, 254⟩ }) (ready 15 0 on))
def s148 : State := b14
def b15 : State := (put [(Fld.PORT_CFG_EN 15, 0)] b14)
def s149 : State := b15
def s150 : State := State.watchPort b14 false b15 15
def s151 : State := (ready 15 0 on)
def s152 : State := (ready 15 0 on).onPort 15 (fun x => { x with bin := (ready 15 0 on).chooseBin 15 })
def b16 : State := (put [(Fld.ROSE_WAVE_LEN_LEN 15 0, 8), (Fld.ROSE_WAVE_LEN_NWIN 15 0, 1), (Fld.ROSE_WAVE_CALF_FILL_HI 15 0, 4096),
  (Fld.PORT_TIM1_T_LH 15, 5), (Fld.ROSE_CFG_ACT_SLOT 15, 0), (Fld.ROSE_CFG_THERMAL 15, 0), (Fld.ROSE_CFG_REST_CODE 15, 77)] (ready 15 0 on))
def s153 : State := b16
def s154 : State := b16.onPort 15 (fun x => { x with bin := b16.chooseBin 15 })
def b17 : State := (edit (fun z => z.setPort 15 { z.getPort 15 with lines := [line] }) (ready 15 0 on))
def s155 : State := b17
def s156 : State := b17.purgeVoids 15
def b18 : State := (edit (fun z => z.setPort 15 { z.getPort 15 with lines := [line], tag := 255 }) ((put [(Fld.NV_STAT_STAGE 15, 5)] (ready
  15 2 on)).onNeve 15 (fun x => { x with seqOk := true })))
def s157 : State := b18
def s158 : State := b18.purgeVoids 15
def s159 : State := (edit (fun z => z.setPort 15 { z.getPort 15 with tableEnd := 1 }) b17)
def s160 : State := (ready 15 0 on).purgeVoids 15
def s161 : State := (edit (fun z => { z with tb := 90000 }) (edit (fun z => z.setPort 15
  { z.getPort 15 with lines := [({ line with shift := .shifting 50 } : PLine)] }) (ready 15 0 on)))
def s162 : State := (edit (fun z => z.setPort 15 { z.getPort 15 with lines := [({ line with shift := .shifting 50 } : PLine)] }) (ready 15
  0 on))
def b19 : State := (edit (fun z => z.setPort 15 { z.getPort 15 with lines := [({ line with fire := some 90000 } : PLine)] }) (ready 15 0
  on))
def s163 : State := b19
def b20 : State := (edit (fun z => z.setPort 15
  { z.getPort 15 with lines := [({ line with fire := some 90000, arrived := true } : PLine)] }) (ready 15 0 on))
def s164 : State := b20
def s165 : State := (edit (fun z => { z with tb := 90100 }) b20)
def s166 : State := (edit (fun z => { z with tb := 90100 }) (edit (fun z => z.setPort 15
  { z.getPort 15 with lines := [({ line with fire := some 90000, arrived := true, entry := none } : PLine)] }) (ready 15 0 on)))
def s167 : State := (edit (fun z => { z with tb := 90100 }) (edit (fun z => z.setPort 15
  { z.getPort 15 with lines := [({ line with fire := some 90000, arrived := true, shift := .latched 50 60 } : PLine)] }) (ready 15 0 on)))
def b21 : State := (edit (fun z => z.setPort 15
  { z.getPort 15 with lines := [({ line with fire := some 90000, arrived := true, judged := true, shift := .latched 50 60 } : PLine)] })
  (ready 15 0 on))
def s168 : State := (edit (fun z => { z with tb := 90100 }) b21)
def s169 : State := (edit (fun z => { z with tb := 91600 }) (put [(Fld.PORT_WD_CFG_MISS_LIM 15, 2)] (edit (fun z => z.setPort 15
  { z.getPort 15 with lines := [({ line with fire := some 90000, arrived := true, judged := true, shift := .latched 50 60 } : PLine)] })
  b18)))
def s170 : State := (edit (fun z => { z with tb := 90100 }) (edit (fun z => z.setPort 15
  { z.getPort 15 with gates := [(47, ⟨true, true⟩)] }) b21))
def s171 : State := (edit (fun z => { z with tb := 90100 }) (edit (fun z => z.setPort 15
  { z.getPort 15 with lines := [({ line with fire := some 90000, arrived := true, judged := true, shift := .latched 50 90099 } : PLine)] })
  (put [(Fld.PORT_TIM0_T_LS 15, 9)] (ready 15 0 on))))
def s172 : State := b21
def s173 : State := (edit (fun z => z.setPort 15 { z.getPort 15 with pulse := some ⟨90000, 8, 254⟩ }) (ready 15 0 on))
def s174 : State := (edit (fun z => z.setPort 15 { z.getPort 15 with pulse := some ⟨90000, 8, 254⟩, pulseEnd := 1 }) (ready 15 0 on))
def b22 : State := (put [(Fld.PORT_WD_CFG_MISS_LIM 15, 2), (Fld.PORT_WD_CFG_WD_MIN 15, 1), (Fld.PORT_WD_CFG_WD_MAX 15, 4),
  (Fld.PORT_WD_CFG_WD_TOL 15, 8)] (ready 15 0 on))
def b23 : State := (edit (fun z => z.setPort 15 { z.getPort 15 with expects := [⟨10000, 3⟩] }) b22)
def s175 : State := b23
def s176 : State := (put [(Fld.RAKE_SCOPE_STATE 271, 1)] b23)
def b24 : State := (put [(Fld.NV_STAT_STAGE 15, 5), (Fld.NV_STAT_VER 15, 2), (Fld.PORT_WD_CFG_MISS_LIM 15, 1), (Fld.PORT_WD_CFG_WD_TOL 15,
  8)] (ready 15 2 on))
def b25 : State := (edit (fun z => z.setPort 15 { z.getPort 15 with expects := [⟨10000, 3⟩] }) b24)
def s177 : State := b25
def s178 : State := b24
def s179 : State := (put [(Fld.RAKE_SCOPE_STATE 271, 1)] b25)
def s180 : State := (edit (fun z => z.setPort 15 { z.getPort 15 with expects := [⟨10000, 3⟩] }) (ready 15 0 on))
def s181 : State := b22
def s182 : State := (put [(Fld.RAKE_SCOPE_STATE 271, 1)] b22)
def s183 : State := (put [(Fld.PORT_GATE_ACT 15 47, 2)] on)
def s184 : State := (edit (fun z => z.setPort 15 { z.getPort 15 with gates := [(31, ⟨true, true⟩)] }) (put [(Fld.PORT_GATE_ACT 15 31, 2),
  (Fld.PORT_GATE_LATCH 15 31, 0), (gstatFld 15 31, 1)] on))
def b26 : State := (put [(Fld.PORT_GATE_ACT 15 31, 2), (Fld.PORT_GATE_LATCH 15 31, 1), (gstatFld 15 31, 1)] on)
def s185 : State := (edit (fun z => z.setPort 15 { z.getPort 15 with gates := [(31, ⟨false, true⟩)] }) b26)
def b27 : State := (edit (fun z => z.setPort 15 { z.getPort 15 with gates := [(31, ⟨true, true⟩)] }) b26)
def s186 : State := b27
def s187 : State := on.setReg (Reg.PORT_GATE 15 47) ((on.getReg (Reg.PORT_GATE 15 47) &&& 0x0FFF0000) ||| (0xF0001234 &&& 0xF000FFFF))
def b28 : State := (put [(Fld.NV_STAT_STAGE 15, 1), (Fld.NV_STAT_RATE 15, 3), (Fld.NV_STAT_VER 15, 2), (Fld.NV_CFG_RATES 15, 7),
  (Fld.NV_CFG_AUTO_RETRAIN 15, 1)] on)
def b29 : State := (ready 15 2 b28)
def s188 : State := ((b29.onNeve 15 (fun x => { x with seqOk := true })).onNeve 15 (fun x =>
  { x with last := [0, 2, 1, 7, 9, 1, 0], same := 7 }))
def s189 : State := ((b29.onNeve 15 (fun x => { x with seqOk := true })).onNeve 15 (fun x =>
  { x with last := [0, 2, 9, 7, 0, 0, 0], same := 7 }))
def b30 : State := (put [(Fld.NV_STAT_STAGE 15, 2), (Fld.NV_STAT_RATE 15, 3), (Fld.NV_STAT_VER 15, 2), (Fld.NV_CFG_RATES 15, 7),
  (Fld.NV_CFG_AUTO_RETRAIN 15, 1)] on)
def b31 : State := (ready 15 2 b30)
def s190 : State := ((b31.onNeve 15 (fun x => { x with seqOk := true })).onNeve 15 (fun x => { x with last := [1], same := 7 }))
def b32 : State := (put [(Fld.NV_STAT_STAGE 15, 3), (Fld.NV_STAT_RATE 15, 3), (Fld.NV_STAT_VER 15, 2), (Fld.NV_CFG_RATES 15, 7),
  (Fld.NV_CFG_AUTO_RETRAIN 15, 1)] on)
def b33 : State := (ready 15 2 b32)
def s191 : State := ((b33.onNeve 15 (fun x => { x with seqOk := true })).onNeve 15 (fun x =>
  { x with trips := (List.range 15).map (fun i => (i, some (1000, 40))) }))
def s192 : State := ((b33.onNeve 15 (fun x => { x with seqOk := true })).onNeve 15 (fun x =>
  { x with trips := (List.range 15).map (fun i => (i, some (60000, 40))) }))
def b34 : State := (put [(Fld.NV_STAT_STAGE 15, 4), (Fld.NV_STAT_RATE 15, 3), (Fld.NV_STAT_VER 15, 2), (Fld.NV_CFG_RATES 15, 7),
  (Fld.NV_CFG_AUTO_RETRAIN 15, 1)] on)
def b35 : State := (ready 15 2 b34)
def s193 : State := ((b35.onNeve 15 (fun x => { x with seqOk := true })).onNeve 15 (fun x => { x with last := [3], same := 7 }))
def b36 : State := (put [(Fld.NV_STAT_STAGE 15, 5), (Fld.NV_STAT_RATE 15, 3), (Fld.NV_STAT_VER 15, 2), (Fld.NV_CFG_RATES 15, 7),
  (Fld.NV_CFG_AUTO_RETRAIN 15, 1)] on)
def b37 : State := (ready 15 2 b36)
def s194 : State := (b37.onNeve 15 (fun x => { x with seqOk := true }))
def s195 : State := ((b29.onNeve 15 (fun x => { x with seqOk := true })).onNeve 15 (fun x => { x with same := 5 }))
def s196 : State := (b29.onNeve 15 (fun x => { x with seqOk := true }))
def s197 : State := ((b31.onNeve 15 (fun x => { x with seqOk := true })).onNeve 15 (fun x => { x with selFails := 0 }))
def s198 : State := ((b31.onNeve 15 (fun x => { x with seqOk := true })).onNeve 15 (fun x => { x with selFails := 2 }))
def s199 : State := (b33.onNeve 15 (fun x => { x with seqOk := true }))
def b38 : State := (put [(Fld.NV_STAT_STAGE 15, 0), (Fld.NV_STAT_RATE 15, 3), (Fld.NV_STAT_VER 15, 2), (Fld.NV_CFG_RATES 15, 7),
  (Fld.NV_CFG_AUTO_RETRAIN 15, 1)] on)
def b39 : State := (ready 15 2 b38)
def s200 : State := ((b39.onNeve 15 (fun x => { x with seqOk := true })).onNeve 15 (fun x => { x with retry := .series }))
def s201 : State := (b39.onNeve 15 (fun x => { x with seqOk := true }))
def b40 : State := (edit (fun z => z.setCtx 254 { z.getCtx 254 with prods := [(prod (job []))] }) (b37.onNeve 15 (fun x =>
  { x with seqOk := true })))
def b41 : State := (edit (fun z => z.setPort 15 { z.getPort 15 with owners := [(7, some (254, 0))] }) b40)
def b42 : State := (edit (fun z => z.setPort 14 { z.getPort 14 with lines := [{ line with fire := some 90000 }] }) b41)
def s202 : State := b42
def s203 : State := after (.lineErr 15 7 1) b42
def s204 : State := (b35.onNeve 15 (fun x => { x with seqOk := true }))
def b43 : State := (put [(Fld.NV_HREG_CMD_BUSY 15, 1)] ((b37.onNeve 15 (fun x => { x with seqOk := true })).onNeve 15 (fun x =>
  { x with hreg := [(⟨.master, true, 5, 6⟩ : HregOp)] })))
def s205 : State := b43
def s206 : State := (put [(Fld.NV_HREG_CMD_BUSY 15, 1)] ((b37.onNeve 15 (fun x => { x with seqOk := true })).onNeve 15 (fun x =>
  { x with hreg := [(⟨.rose, true, 0x100, 6⟩ : HregOp), (⟨.master, false, 5, 0⟩ : HregOp)] })))
def s207 : State := ((b37.onNeve 15 (fun x => { x with seqOk := true })).onNeve 15 (fun x => { x with reload := true }))
def s208 : State := (wait 0 ⟨15, [0x80000020, 7, 0x0080020F, 2, 0x1000, 0, 0, 0, 0, 0, 1, 0x1234, 0x10000000]⟩ on)
def s209 : State := (wait 0 ⟨15, [0x80000021, 7, 31, 0, 0x1000, 0, 0x1234, 0x10000000]⟩ on)
def s210 : State := (wait 0 ⟨15, [0x80000022, 7, 0x4F, 0, 0x1000, 0]⟩ on)
def s211 : State := { on with host := { on.host with cfg := { on.host.cfg with d3hot := true } } }
def s212 : State := (wait 0 ⟨15, [0x80000020, 7, 0x20F, 0, 0x1000, 0, 0, 0, 0, 0, 1, 0x1234, 0x10000000]⟩ on)
def b44 : State := (edit (fun z => z.setPort 15 { z.getPort 15 with force := some ⟨[0x02000000]⟩ }) (ready 15 0 on))
def b45 : State := (wait 0 ⟨15, [0x80000020, 7, 0x20F, 2, 0x1000, 0, 0, 0, 0, 0, 1, 0x1234, 0x10000000]⟩ b44)
def s213 : State := b45
def s214 : State := (b45.feed false 0x1000 4 [] ⟨[1,2,3,0x80], false⟩).2
def b46 : State := (wait 0 ⟨15, [0x80000020, 7, 0x20F, 2, 0x1000, 0, 0, 0, 0, 0, 1, 0x1234, 0x10000000]⟩ (set [(Reg.OWN 4, 0x00010005)] on))
def s215 : State := b46
def s216 : State := (b46.feed false 0x1000 4 [] ⟨[1,2,3,0x80], false⟩).2
def b47 : State := (wait 0 ⟨15, [0x80000020, 7, 0x20F, 2, 0x1000, 0, 0, 0, 0, 0, 1, 0x1234, 0x10000000]⟩ on)
def s217 : State := b47
def s218 : State := (b47.feed false 0x1000 4 [] ⟨[1,2,3,0x80], false⟩).2
def s219 : State := (b47.feed false 0x1000 4 [] ⟨[1,2,3], false⟩).2
def s220 : State := (b47.feed false 0x1000 4 [] ⟨[1], true⟩).2
def b48 : State := (wait 0 ⟨15, [0x80000020, 7, 0x20F, 2, 0x1000, 0, 0, 0, 0, 0, 1, 0x1234, 0x10000000]⟩ (put [(domField (.hpg 3), 0)] on))
def s221 : State := b48
def s222 : State := (b48.feed false 0x1000 4 [] ⟨[1,2,3,0x80], false⟩).2
def s223 : State := (wait 0 ⟨15, [0x80000021, 7, 15, 0, 0x1000, 0, 0x1234, 0x00001000]⟩ on)
def b49 : State := (wait 0 ⟨15, [0x80000021, 7, 15, 0, 0x1000, 0, 0x1234, 0x10000000]⟩ on)
def s224 : State := b49
def s225 : State := (b49.feed false 0x1000 192 [] ⟨[1], true⟩).2
def s226 : State := (b49.feed false 0x1000 192 [] ⟨[1], false⟩).2
def b50 : State := (wait 0 ⟨15, [0x80000021, 7, 15, 0, 0x1000, 0, 0x1234, 0x10000000]⟩ (put [(Fld.ROSE_THERM_MAXLEN 15, 100)] on))
def s227 : State := b50
def s228 : State := (b50.feed false 0x1000 192 [] ⟨List.replicate 192 0, false⟩).2
def b51 : State := (set [(Reg.OWN 4, 0x00010005)] (put [(Fld.ROSE_THERM_MAXLEN 15, 100)] on))
def b52 : State := (wait 0 ⟨15, [0x80000021, 7, 15, 0, 0x1000, 0, 0x1234, 0x10000000]⟩ b51)
def s229 : State := b52
def s230 : State := (b52.feed false 0x1000 192 [] ⟨(List.replicate 48 [20,0,0,0]).flatten, false⟩).2
def s231 : State := (b50.feed false 0x1000 192 [] ⟨(List.replicate 48 [20,0,0,0]).flatten, false⟩).2
def s232 : State := (wait 0 ⟨15, [0x80000022, 7, 15, 0, 0x1000, 0]⟩ on)
def s233 : State := ((wait 0 ⟨15, [0x80000022, 7, 15, 0, 0x1000, 0]⟩ on).feed false 0x1000 66 [] ⟨[1], true⟩).2
def s234 : State := ((wait 0 ⟨15, [0x80000022, 7, 15, 0, 0x1000, 0]⟩ on).feed false 0x1000 66 [] ⟨[1], false⟩).2
def b53 : State := (wait 0 ⟨15, [0x80000022, 7, 15, 0, 0x1000, 0]⟩ (set [(Reg.OWN 4, 0x00010005)] on))
def s235 : State := b53
def s236 : State := (b53.feed false 0x1000 66 [] ⟨List.replicate 66 3, false⟩).2
def s237 : State := ((wait 0 ⟨15, [0x80000022, 7, 15, 0, 0x1000, 0]⟩ on).feed false 0x1000 66 [] ⟨List.replicate 66 3, false⟩).2
def b54 : State := (put [(Fld.ROSE_WAVE_LEN_LEN 15 7, 8), (Fld.ROSE_WAVE_LEN_NWIN 15 7, 1), (Fld.CRV_STAT_SEQ_OK, 1), (Fld.CRV_CFG_EN, 1),
  (Fld.CRV_P_CFG_SENSE_EN 15, 1), (Fld.CRV_P_CFG_IDLE_EN 15, 1), (Fld.CRV_P_REF_VALID 15, 31)] (ready 15 0 on))
def s238 : State := (edit (fun z => { z with tb := 9000 }) (b54.onSense 15 (fun x => { x with slot := .planned 9000 })))
def b55 : State := (edit (fun z => z.onNeve 15 (fun x => { x with seqOk := true })) b54)
def b56 : State := (put [(Fld.NV_STAT_STAGE 15, 5), (Fld.PORT_CFG_MODE 15, 2)] b55)
def s239 : State := (edit (fun z => { z with tb := 12000 }) ((put [(Fld.PORT_WD_CFG_MISS_LIM 15, 2)] b56).onSense 15 (fun x =>
  { x with slot := .planned 9000, next := true })))
def s240 : State := (edit (fun z => { z with tb := 9000 }) (b54.onSense 15 (fun x =>
  { x with slot := .planned 9000, captures := [(⟨3, 5, List.replicate 256 1⟩ : Capture)] })))
def s241 : State := (b54.onSense 15 (fun x => { x with slot := .planned 9000 }))
def s242 : State := (edit (fun z => { z with tb := 11000 }) (b54.onSense 15 (fun x => { x with slot := .tickle 9000, len := 15000 })))
def s243 : State := (b54.onSense 15 (fun x => { x with slot := .tickle 9000, len := 15000 }))
def s244 : State := (edit (fun z => { z with tb := 21900 }) (b54.onSense 15 (fun x =>
  { x with slot := .capture 9000 9100, recent := List.replicate 63 2, strobed := 1 })))
def s245 : State := (edit (fun z => { z with tb := 21899 }) (b54.onSense 15 (fun x => { x with slot := .capture 9000 9100 })))
def s246 : State := (edit (fun z => { z with tb := 400000 }) b54)
def s247 : State := (edit (fun z => { z with tb := 400000 }) (b54.onSense 15 (fun x =>
  { x with captures := [(⟨3, 5, List.replicate 256 1⟩ : Capture), (⟨3, 5, List.replicate 256 1⟩ : Capture)] })))
def s248 : State := (edit (fun z => { z with tb := 399999 }) b54)
def s249 : State := ((set [(Reg.CRV_P_REF 15, 0), (Reg.CRV_EFLOOR, 0), (Reg.CRV_CLS, 0xFFFFFFFF)] b54).onSense 15 (fun x =>
  { x with captures := [(⟨3, 5, List.replicate 256 1⟩ : Capture)] }))
def b57 : State := (put [(Fld.CRV_CFG_MAP_EN, 1)] b54)
def b58 : State := (set [(Reg.CRV_EFLOOR, 100)] b57)
def s250 : State := (b58.onSense 15 (fun x =>
  { x with captures := [(⟨3, 5, List.replicate 256 1⟩ : Capture)], susp := some 3, pc := 5, cnt := 2 }))
def s251 : State := (b58.onSense 15 (fun x =>
  { x with captures := [(⟨3, 5, List.replicate 256 1⟩ : Capture)], susp := some 3, pc := 5, cnt := 1 }))
def s252 : State := (b58.onSense 15 (fun x =>
  { x with captures := [(⟨3, 5, List.replicate 256 1⟩ : Capture)], susp := some 9, pc := 5, cnt := 1 }))
def s253 : State := ((set [(Reg.CRV_EFLOOR, 100)] (put [(classFld 15 3, 5)] b54)).onSense 15 (fun x =>
  { x with captures := [(⟨3, 5, List.replicate 256 1⟩ : Capture)], susp := some 2, pc := 4, cnt := 2 }))
def s254 : State := (wait 0 ⟨15, [0x80000040, 7, 15, 0x00020001, 0x1000, 0]⟩ (set [(Reg.PCR_RET_PORT, 0x8000)] on))
def s255 : State := (wait 0 ⟨15, [0x80000040, 7, 31, 0x00020001, 0x1000, 0]⟩ on)
def b59 : State := (wait 0 ⟨15, [0x80000040, 7, 15, 0x00020001, 0x1000, 0]⟩ b54)
def s256 : State := b59
def s257 : State := (b59.feed false 0x1000 2 [] ⟨[3, 0x20], true⟩).2
def s258 : State := (b59.feed false 0x1000 2 [] ⟨[3], false⟩).2
def s259 : State := (b59.feed false 0x1000 2 [] ⟨[3, 0], false⟩).2
def s260 : State := (b59.feed false 0x1000 2 [] ⟨[3, 0x20], false⟩).2
def b60 : State := (put [(Fld.CTX_STATE_STATE 0, 1), (Fld.CTX_BINDING_NRANGES 0, 1), (Fld.CTX_RANGE_PORT 0 0, 15)] b54)
def b61 : State := (put [(Fld.ROSE_WAVE_LEN_LEN 15 7, 4)] b60)
def b62 : State := (wait 0 ⟨15, [0x80000040, 7, 15, 0x00020001, 0x1000, 0]⟩ b61)
def s261 : State := b62
def s262 : State := (b62.feed false 0x1000 2 [] ⟨[3, 0x20], false⟩).2
def b63 : State := (set [(Reg.OWN 5, 0x00010005)] b60)
def b64 : State := (wait 0 ⟨15, [0x80000040, 7, 15, 0x00020001, 0x1000, 0]⟩ b63)
def s263 : State := b64
def s264 : State := (b64.feed false 0x1000 2 [] ⟨[3, 0x20], false⟩).2
def b65 : State := (wait 0 ⟨15, [0x80000040, 7, 15, 0x00020001, 0x1000, 0]⟩ b60)
def s265 : State := b65
def s266 : State := (b65.feed false 0x1000 2 [] ⟨[3, 0x20], false⟩).2
def s267 : State := ((edit (fun z => { z with mp := { z.mp with cmd := some ⟨⟨15, [0x80000040, 7, 15, 0x00020001, 0x1000, 0]⟩, 0, [], [], none⟩ } })
  (edit (fun z => { z with walk := some (⟨⟨15, [0x80000040, 7, 15, 0x00020001, 0x1000, 0]⟩, 15, 2, [(1, 3)], 0, 0, [], 0, false, 0⟩ : Walk) })
  b60)).onSense 15 (fun x => { x with first := true }))
def s268 : State := ((edit (fun z => { z with mp := { z.mp with cmd := some ⟨⟨15, [0x80000040, 7, 15, 0x00020001, 0x1000, 0]⟩, 0, [], [], none⟩ } })
  (edit (fun z => { z with walk := some (⟨⟨15, [0x80000040, 7, 15, 0x00020001, 0x1000, 0]⟩, 15, 2, [(1, 3)], 0, 63, [], 0, false, 0⟩ : Walk) })
  b60)).onSense 15 (fun x => { x with first := false }))
def s269 : State := ((edit (fun z => { z with mp := { z.mp with cmd := some ⟨⟨15, [0x80000040, 7, 15, 0x00020001, 0x1000, 0]⟩, 0, [], [], none⟩ } })
  (edit (fun z => { z with walk := some (⟨⟨15, [0x80000040, 7, 15, 0x00020001, 0x1000, 0]⟩, 15, 2, [(1, 3)], 1, 3, [], 0, false, 0⟩ : Walk) })
  b60)).onSense 15 (fun x => { x with first := false }))
def s270 : State := ((edit (fun z => { z with mp := { z.mp with cmd := some ⟨⟨15, [0x80000040, 7, 15, 0x00020001, 0x1000, 0]⟩, 0, [], [], none⟩ } })
  (edit (fun z => { z with walk := some (⟨⟨15, [0x80000040, 7, 15, 0x00020001, 0x1000, 0]⟩, 15, 2, [(1, 63), (4, 2)], 1, 63, [], 0, false, 0⟩ : Walk) })
  b60)).onSense 15 (fun x => { x with first := false }))
def s271 : State := ((edit (fun z => { z with mp := { z.mp with cmd := some ⟨⟨15, [0x80000040, 7, 15, 0x00020001, 0x1000, 0]⟩, 0, [], [], none⟩ } })
  (edit (fun z => { z with walk := some (⟨⟨15, [0x80000040, 7, 15, 0x00020001, 0x1000, 0]⟩, 15, 2, [(1, 3)], 0, 3, [], 0, false, 0⟩ : Walk) })
  (edit (fun z => z.setPort 15 { z.getPort 15 with gates := [(47, ⟨true, true⟩)] }) b60))).onSense 15 (fun x => { x with first := false }))
def s272 : State := ((edit (fun z => { z with mp := { z.mp with cmd := some ⟨⟨15, [0x80000040, 7, 15, 0x00020001, 0x1000, 0]⟩, 0, [], [], none⟩ } })
  (edit (fun z => { z with walk := some (⟨⟨15, [0x80000040, 7, 15, 0x00020001, 0x1000, 0]⟩, 15, 2, [(1, 3)], 0, 3, [], 0, false, 9⟩ : Walk) })
  b60)).onSense 15 (fun x => { x with first := false }))
def s273 : State := ((edit (fun z => { z with mp := { z.mp with cmd := some ⟨⟨15, [0x80000040, 7, 15, 0x00020001, 0x1000, 0]⟩, 0, [], [], none⟩ } })
  (edit (fun z => { z with walk := some (⟨⟨15, [0x80000040, 7, 15, 0x00020001, 0x1000, 0]⟩, 15, 2, [(1, 3)], 0, 0, [], 0, false, 0⟩ : Walk) })
  (put [(Fld.CTX_STATE_STATE 0, 1), (Fld.CTX_BINDING_NRANGES 0, 1), (Fld.CTX_RANGE_PORT 0 0, 15)] b56))).onSense 15 (fun x =>
  { x with first := false }))
def s274 : State := (edit (fun z => z.setCons 15 { z.getCons 15 with residue := 999999 }) (set [(Reg.CONS_P_DROP1_LO 15, 9)] on))
def b66 : State := (edit (fun z => { z with mp := { z.mp with running := false } }) on)
def s275 : State := b66
def b67 : State := (wait 0 ⟨15, [0x80000058, 7, 15]⟩ (put [(Fld.PF_REG_VALID 5, 1)] on))
def s276 : State := b67
def s277 : State := (wait 0 ⟨15, [0x80000058, 7, 31]⟩ on)
def s278 : State := (edit (fun z => z.setCons 15
  { z.getCons 15 with op := some ({ record := false, phase := 1, uid := [1,2,3,4,5,6,7,8], chal := [], image := List.replicate 32 5, polls := 0, desc := none } : BusOp) })
  (wait 0 ⟨15, [0x80000058, 7, 15]⟩ on))
def s279 : State := (edit (fun z => z.setCons 15 { z.getCons 15 with due := true }) (set [(Reg.PCR_RET_PORT, 0x8000)] on))
def s280 : State := (wait 0 ⟨15, [0x80000059, 7, 31]⟩ on)
def s281 : State := (edit (fun z => z.setCons 15
  { z.getCons 15 with op := some ({ record := false, phase := 1, uid := [1,2,3,4,5,6,7,8], chal := [], image := List.replicate 32 5, polls := 0, desc := none } : BusOp) })
  (wait 0 ⟨15, [0x80000059, 7, 15]⟩ on))
def s282 : State := (wait 0 ⟨15, [0x80000059, 7, 15]⟩ on)
def b68 : State := (edit (fun z => z.setCons 15 { z.getCons 15 with uid := [1,2,3,4,5,6,7,8], since := some 0 }) (put
  [(Fld.CONS_P_STAT_AUTH 15, 1)] on))
def b69 : State := (wait 0 ⟨15, [0x80000059, 7, 15]⟩ b68)
def b70 : State := (edit (fun z => { z with tb := 40000000000 }) b69)
def s283 : State := b70
def b71 : State := (set [(Reg.CONS_P_INK_LO 15, 77)] (put [(Fld.CONS_P_STAT_AUTH 15, 1)] on))
def b72 : State := (edit (fun z => z.setCons 15 { z.getCons 15 with uid := [1,2,3,4,5,6,7,8] }) b71)
def s284 : State := b72
def s285 : State := (edit (fun z => z.setCons 15
  { z.getCons 15 with op := some ({ record := false, phase := 1, uid := [1,2,3,4,5,6,7,8], chal := [], image := List.replicate 32 5, polls := 3, desc := some ⟨15, [0x80000058, 7, 15]⟩ } : BusOp) })
  (edit (fun z => { z with mp := { z.mp with cmd := some ⟨⟨15, [0x80000058, 7, 15]⟩, 0, [], [], none⟩ } }) on))
def s286 : State := (edit (fun z => z.setCons 15
  { z.getCons 15 with op := some ({ record := false, phase := 2, uid := [1,2,3,4,5,6,7,8], chal := [], image := List.replicate 32 5, polls := 0, desc := none } : BusOp) })
  on)
def b73 : State := (edit (fun z => { z with mp := { z.mp with cmd := some ⟨⟨15, [0x80000059, 7, 15]⟩, 0, [], [], none⟩ } }) on)
def b74 : State := (edit (fun z => z.setCons 15
  { z.getCons 15 with op := some ({ record := true, phase := 3, uid := [1,2,3,4,5,6,7,8], chal := [], image := List.replicate 32 5, polls := 0, desc := some ⟨15, [0x80000059, 7, 15]⟩ } : BusOp) })
  b73)
def s287 : State := b74
def b75 : State := (edit (fun z => z.setCons 15
  { z.getCons 15 with op := some ({ record := false, phase := 1, uid := [1,2,3,4,5,6,7,8], chal := [], image := List.replicate 32 5, polls := 49, desc := none } : BusOp) })
  on)
def s288 : State := b75
def s289 : State := (edit (fun z => z.setCons 15
  { z.getCons 15 with op := some ({ record := false, phase := 1, uid := [1,2,3,4,5,6,7,8], chal := [], image := List.replicate 32 5, polls := 48, desc := none } : BusOp) })
  on)
def s290 : State := (set [(Reg.PCR_RET_PORT, 0x8000)] b74)
def b76 : State := (set [(Reg.RING_P_CFG 0, 0x8F000000), (Reg.RING_P_CFG 1, 0x8F000000)] on)
def b77 : State := (put [(Fld.RING_CFG_JOIN, 1), (Fld.RING_CFG_ADDR, 5), (Fld.RING_CFG_VMAX, 2), (Fld.RING_VER_RVER, 2), (Fld.RING_P_CFG_EN
  0, 1), (Fld.RING_P_CFG_EN 1, 1), (Fld.RING_P_STAT_LINK 0, 1), (Fld.RING_P_STAT_LINK 1, 1), (Fld.RING_PTP_STAT_LOCKED, 1)] b76)
def s291 : State := b77
def b78 : State := (put [(Fld.RING_P_STAT_LINK 1, 0)] b77)
def s292 : State := (edit (fun z => { z with tb := 0x1000000000 }) b78)
def s293 : State := (edit (fun z => { z with ring := { z.ring with ports := [(1, { RingPort.reset with trial := 1 })] } }) b78)
def b79 : State := (put [(domField .ring, 0)] b77)
def s294 : State := b79
def s295 : State := (edit (fun z => { z with tb := 0x1000000000 }) (put [(Fld.RING_STAT_CLOSED, 1)] b77))
def s296 : State := (edit (fun z => { z with tb := 0x1000000000 }) (edit (fun z =>
  { z with ring := { z.ring with srcs := [(63, { RingSrc.reset with member := true })] } }) (put [(Fld.OWN_HOLDER 31, masterCode (.tunnel
  63)), (Fld.OWN_HOLDER 30, 3)] b77)))
def s297 : State := (edit (fun z => { z with ring := { z.ring with srcs := [(63, { RingSrc.reset with member := true })] } }) b77)
def s298 : State := (edit (fun z => { z with ring := { z.ring with inbox := [(⟨1, 9000, ({ ver := 1, west := false, uncorr := false, unsync := false, rest := 0, hops := 9, src := 7, dst := 0xFF, seq := 3, joinId := 44, msg := .hello 0 2 1 2 1 true false true 0 77 } : RingFrame)⟩ : Admitted)] } })
  b78)
def s299 : State := (edit (fun z => { z with ring := { z.ring with inbox := [(⟨1, 9000, ({ ver := 1, west := false, uncorr := false, unsync := false, rest := 0, hops := 9, src := 7, dst := 0xFF, seq := 3, joinId := 44, msg := .hello 1 2 1 2 1 true false true 0 77 } : RingFrame)⟩ : Admitted)] } })
  b77)
def s300 : State := (edit (fun z => { z with ring := { z.ring with inbox := [(⟨1, 9000, ({ ver := 1, west := false, uncorr := false, unsync := false, rest := 0, hops := 9, src := 99, dst := 0xFF, seq := 3, joinId := 44, msg := .hello 1 2 1 2 1 true false true 0 77 } : RingFrame)⟩ : Admitted)] } })
  b77)
def b80 : State := (put [(Fld.RING_MBX_CMD_BUSY 3, 1)] b77)
def s301 : State := (edit (fun z => { z with ring := { z.ring with inbox := [(⟨1, 9000, ({ ver := 1, west := false, uncorr := false, unsync := false, rest := 0, hops := 9, src := 5, dst := 0xFF, seq := 3, joinId := 44, msg := .hello 1 2 1 2 1 true false true 0 77 } : RingFrame)⟩ : Admitted)] } })
  b80)
def s302 : State := (edit (fun z => { z with ring := { z.ring with inbox := [(⟨1, 9000, ({ ver := 1, west := false, uncorr := false, unsync := false, rest := 0, hops := 9, src := 5, dst := 0xFF, seq := 3, joinId := 44, msg := .hello 1 2 1 2 1 true false true 0 77 } : RingFrame)⟩ : Admitted)] } })
  (put [(Fld.RING_STAT_DUP, 1)] b77))
def s303 : State := (edit (fun z => { z with ring := { z.ring with inbox := [(⟨1, 9000, ({ ver := 1, west := false, uncorr := false, unsync := false, rest := 0, hops := 9, src := 5, dst := 0xFF, seq := 3, joinId := 44, msg := .hello 1 2 1 2 1 true false true 0 7 } : RingFrame)⟩ : Admitted)] } })
  b77)
def s304 : State := (edit (fun z => { z with ring := { z.ring with ports := [(0, { RingPort.reset with crit := List.replicate 32 ({ ver := 1, west := false, uncorr := false, unsync := false, rest := 0, hops := 9, src := 7, dst := 0xFF, seq := 3, joinId := 44, msg := (.track 9 1 0 false 4 5 6) } : RingFrame) })] } })
  b77)
def s305 : State := (edit (fun z => { z with ring := { z.ring with srcs := [(7, { RingSrc.reset with joinId := some 44, high := 3, seen := [3] })] } })
  b77)
def s306 : State := (edit (fun z => { z with ring := { z.ring with inbox := List.replicate 16 (⟨1, 9000, ({ ver := 1, west := false, uncorr := false, unsync := false, rest := 0, hops := 9, src := 7, dst := 0xFF, seq := 3, joinId := 44, msg := .mgmt 1 6 2 0 0x4D00000 [] } : RingFrame)⟩ : Admitted) } })
  b77)
def s307 : State := (edit (fun z => { z with ring := { z.ring with due := 99999 } }) b77)
def s308 : State := (edit (fun z => { z with ring := { z.ring with inbox := [(⟨1, 9000, ({ ver := 1, west := false, uncorr := false, unsync := false, rest := 0, hops := 9, src := 5, dst := 0xFF, seq := 3, joinId := 44, msg := .versionAgree 3 2 8 7 1 99999 } : RingFrame)⟩ : Admitted)] } })
  b77)
def s309 : State := (edit (fun z => { z with ring := { z.ring with inbox := [(⟨1, 9000, ({ ver := 1, west := false, uncorr := false, unsync := false, rest := 0, hops := 9, src := 7, dst := 0xFF, seq := 3, joinId := 44, msg := .versionAgree 3 2 8 7 1 99999 } : RingFrame)⟩ : Admitted)] } })
  (put [(Fld.RING_PTP_STAT_LOCKED, 0)] b77))
def s310 : State := (edit (fun z => { z with ring := { z.ring with inbox := [(⟨1, 9000, ({ ver := 1, west := false, uncorr := false, unsync := false, rest := 0, hops := 9, src := 7, dst := 0xFF, seq := 3, joinId := 44, msg := .versionAgree 3 2 8 7 1 99999 } : RingFrame)⟩ : Admitted)] } })
  b77)
def s311 : State := (edit (fun z => { z with ring := { z.ring with inbox := [(⟨1, 9000, ({ ver := 1, west := false, uncorr := false, unsync := false, rest := 0, hops := 9, src := 5, dst := 0xFF, seq := 3, joinId := 44, msg := .versionAgree 1 2 8 7 1 99999 } : RingFrame)⟩ : Admitted)] } })
  b77)
def b81 : State := (edit (fun z => { z with ring := { z.ring with proposal := some (⟨8, 7, []⟩ : Proposal) } }) b77)
def s312 : State := (edit (fun z => { z with ring := { z.ring with inbox := [(⟨1, 9000, ({ ver := 1, west := false, uncorr := false, unsync := false, rest := 0, hops := 9, src := 5, dst := 0xFF, seq := 3, joinId := 44, msg := .versionAgree 2 2 8 7 1 99999 } : RingFrame)⟩ : Admitted)] } })
  b81)
def s313 : State := (edit (fun z => { z with ring := { z.ring with inbox := [(⟨1, 9000, ({ ver := 1, west := false, uncorr := false, unsync := false, rest := 0, hops := 9, src := 7, dst := 0xFF, seq := 3, joinId := 44, msg := .versionAgree 1 2 8 7 1 99999 } : RingFrame)⟩ : Admitted)] } })
  b77)
def s314 : State := (edit (fun z => { z with ring := { z.ring with inbox := [(⟨1, 9000, ({ ver := 1, west := false, uncorr := false, unsync := false, rest := 0, hops := 9, src := 7, dst := 0xFF, seq := 3, joinId := 44, msg := .versionAgree 1 2 8 7 1 99999 } : RingFrame)⟩ : Admitted)] } })
  (put [(Fld.RING_P_STAT_LINK 0, 0)] b77))
def s315 : State := (edit (fun z => { z with ring := { z.ring with inbox := [(⟨1, 9000, ({ ver := 1, west := false, uncorr := false, unsync := false, rest := 0, hops := 1, src := 7, dst := 0xFF, seq := 3, joinId := 44, msg := .versionAgree 1 2 8 7 1 99999 } : RingFrame)⟩ : Admitted)] } })
  b77)
def s316 : State := (edit (fun z => { z with ring := { z.ring with inbox := [(⟨1, 9000, ({ ver := 1, west := false, uncorr := false, unsync := false, rest := 0, hops := 9, src := 7, dst := 0xFF, seq := 3, joinId := 44, msg := .versionAgree 2 2 8 7 1 99999 } : RingFrame)⟩ : Admitted)] } })
  b77)
def s317 : State := (edit (fun z => { z with tb := 0x1000000000 }) (edit (fun z =>
  { z with ring := { z.ring with proposal := some (⟨8, 7, [(2, 0x20)]⟩ : Proposal) } }) (put [(Fld.RING_PTP_STAT_LOCKED, 0)] b77)))
def s318 : State := (edit (fun z => { z with tb := 0x1000000000 }) (edit (fun z =>
  { z with ring := { z.ring with proposal := some (⟨8, 7, [(2, 0x20)]⟩ : Proposal) } }) b77))
def s319 : State := (edit (fun z => { z with tb := 0x1000000000 }) b81)
def s320 : State := b81
def s321 : State := (edit (fun z => { z with tb := 0x1000000000 }) (edit (fun z =>
  { z with ring := { z.ring with commit := some (2, 8, 5) } }) b77))
def s322 : State := (edit (fun z => { z with ring := { z.ring with commit := some (2, 8, 0x2000000000) } }) b77)
def s323 : State := (put [(Fld.RING_PTP_STAT_MASTER_ACT, 1)] b77)
def s324 : State := (put [(Fld.RING_STAT_DUP, 1)] b77)
def s325 : State := (edit (fun z => { z with ring := { z.ring with inbox := [(⟨1, 9000, ({ ver := 1, west := false, uncorr := false, unsync := false, rest := 0, hops := 9, src := 7, dst := 0xFF, seq := 3, joinId := 44, msg := .ptp (⟨.pdelayRespFollowUp, 0, 6, 0, 500⟩ : PtpMsg) } : RingFrame)⟩ : Admitted)] } })
  (edit (fun z => { z with ring := { z.ring with ports := [(1, { RingPort.reset with req := some (6, 1000), resp := some (77, 9000), delays := [700, 800, 900, 1000] })] } })
  b77))
def s326 : State := (edit (fun z => { z with ring := { z.ring with inbox := [(⟨1, 9000, ({ ver := 1, west := false, uncorr := false, unsync := false, rest := 0, hops := 9, src := 7, dst := 0xFF, seq := 3, joinId := 44, msg := .ptp (⟨.pdelayRespFollowUp, 0, 6, 0, 500⟩ : PtpMsg) } : RingFrame)⟩ : Admitted)] } })
  b77)
def s327 : State := (edit (fun z => { z with ring := { z.ring with inbox := [(⟨1, 9000, ({ ver := 1, west := false, uncorr := false, unsync := false, rest := 0, hops := 9, src := 7, dst := 0xFF, seq := 3, joinId := 44, msg := .ptp (⟨.pdelayReq, 0, 6, 0, 500⟩ : PtpMsg) } : RingFrame)⟩ : Admitted)] } })
  b77)
def s328 : State := (edit (fun z => { z with ring := { z.ring with inbox := [(⟨1, 9000, ({ ver := 1, west := false, uncorr := false, unsync := false, rest := 0, hops := 9, src := 7, dst := 0xFF, seq := 3, joinId := 44, msg := .ptp (⟨.pdelayReq, 0, 6, 0, 500⟩ : PtpMsg) } : RingFrame)⟩ : Admitted)] } })
  (put [(Fld.RING_CFG_JOIN, 0)] b77))
def s329 : State := (edit (fun z => { z with ring := { z.ring with inbox := [(⟨1, 9000, ({ ver := 1, west := false, uncorr := false, unsync := false, rest := 0, hops := 9, src := 7, dst := 0xFF, seq := 3, joinId := 44, msg := .ptp (⟨.pdelayResp, 0, 6, 0, 500⟩ : PtpMsg) } : RingFrame)⟩ : Admitted)] } })
  (edit (fun z => { z with ring := { z.ring with ports := [(1, { RingPort.reset with req := some (6, 1000), resp := some (77, 9000), delays := [700, 800, 900, 1000] })] } })
  b77))
def s330 : State := (edit (fun z => { z with ring := { z.ring with inbox := [(⟨1, 9000, ({ ver := 1, west := false, uncorr := false, unsync := false, rest := 0, hops := 9, src := 7, dst := 0xFF, seq := 3, joinId := 44, msg := .ptp (⟨.pdelayResp, 0, 6, 0, 500⟩ : PtpMsg) } : RingFrame)⟩ : Admitted)] } })
  b77)
def s331 : State := (edit (fun z => { z with ring := { z.ring with inbox := [(⟨1, 9000, ({ ver := 1, west := false, uncorr := false, unsync := false, rest := 0, hops := 9, src := 7, dst := 0xFF, seq := 3, joinId := 44, msg := .ptp (⟨(.other 4), 0, 6, 0, 500⟩ : PtpMsg) } : RingFrame)⟩ : Admitted)] } })
  b77)
def s332 : State := (edit (fun z => { z with ring := { z.ring with inbox := [(⟨1, 9000, ({ ver := 1, west := false, uncorr := false, unsync := false, rest := 0, hops := 9, src := 7, dst := 0xFF, seq := 3, joinId := 44, msg := .ptp (⟨.sync, 0, 6, 0, 500⟩ : PtpMsg) } : RingFrame)⟩ : Admitted)] } })
  b77)
def b82 : State := (put [(Fld.RING_PTP_STAT_GM, 7), (Fld.RING_PTP_STAT_GM_VALID, 1), (Fld.RING_P_STAT_DELAY_OK 1, 1),
  (Fld.RING_P_DELAY_DELAY 1, 2560)] b77)
def s333 : State := (edit (fun z => { z with ring := { z.ring with inbox := [(⟨1, 9000, ({ ver := 1, west := false, uncorr := false, unsync := false, rest := 0, hops := 9, src := 7, dst := 0xFF, seq := 3, joinId := 44, msg := .ptp (⟨.sync, 0, 6, 0, 500⟩ : PtpMsg) } : RingFrame)⟩ : Admitted)] } })
  b82)
def s334 : State := (edit (fun z => { z with ring := { z.ring with inbox := [(⟨1, 9000, ({ ver := 1, west := false, uncorr := false, unsync := false, rest := 0, hops := 9, src := 7, dst := 0xFF, seq := 3, joinId := 44, msg := .ptp (⟨.followUp, 0, 6, 0, 500⟩ : PtpMsg) } : RingFrame)⟩ : Admitted)] } })
  (edit (fun z => { z with ring := { z.ring with syncs := [(⟨1, 55, 6, 9000, 3⟩ : SyncSeen)] } }) b82))
def s335 : State := (edit (fun z => { z with ring := { z.ring with inbox := [(⟨1, 9000, ({ ver := 1, west := false, uncorr := false, unsync := false, rest := 0, hops := 9, src := 7, dst := 0xFF, seq := 3, joinId := 44, msg := .ptp (⟨.followUp, 0, 6, 0, 500⟩ : PtpMsg) } : RingFrame)⟩ : Admitted)] } })
  b82)
def s336 : State := (edit (fun z => { z with tb := 0x1000000000 }) b77)
def b83 : State := (put [(Fld.RING_PRX_EN 7, 1), (Fld.RING_PRX_SRC 7, 7), (Fld.RING_PRX_ID 7, 3), (Fld.CTX_STATE_STATE 254, 1),
  (Fld.CTX_BINDING_PGO_SRC 254, 39)] b77)
def s337 : State := (edit (fun z => { z with ring := { z.ring with inbox := [(⟨1, 9000, ({ ver := 1, west := false, uncorr := false, unsync := true, rest := 0, hops := 9, src := 7, dst := 0xFF, seq := 3, joinId := 44, msg := .pgo 3 1 4 9999 } : RingFrame)⟩ : Admitted)] } })
  b83)
def s338 : State := (edit (fun z => { z with ring := { z.ring with inbox := [(⟨1, 9000, ({ ver := 1, west := false, uncorr := false, unsync := false, rest := 0, hops := 9, src := 7, dst := 0xFF, seq := 3, joinId := 44, msg := .pgo 3 1 4 9999 } : RingFrame)⟩ : Admitted)] } })
  b77)
def s339 : State := (edit (fun z => { z with ring := { z.ring with inbox := [(⟨1, 9000, ({ ver := 1, west := false, uncorr := false, unsync := false, rest := 0, hops := 9, src := 7, dst := 0xFF, seq := 3, joinId := 44, msg := .pgo 3 1 4 9999 } : RingFrame)⟩ : Admitted)] } })
  b83)
def s340 : State := (edit (fun z => { z with ring := { z.ring with inbox := [(⟨1, 9000, ({ ver := 1, west := false, uncorr := false, unsync := false, rest := 0, hops := 9, src := 7, dst := 0xFF, seq := 3, joinId := 44, msg := .pgo 3 1 4 9999 } : RingFrame)⟩ : Admitted)] } })
  (edit (fun z => { z with ring := { z.ring with prxCount := [(7, some 1)], prxLast := [(7, some 99999)] } }) b83))
def s341 : State := (put [(Fld.RING_VTX_EN 7, 1), (Fld.RING_VTX_ENC 7, 15), (Fld.ENC_CFG_EN 15, 1)] b77)
def b84 : State := (put [(Fld.RING_VRX_EN 7, 1), (Fld.RING_VRX_SRC 7, 7), (Fld.RING_VRX_ID 7, 3)] b77)
def s342 : State := (edit (fun z => { z with ring := { z.ring with inbox := [(⟨1, 9000, ({ ver := 1, west := false, uncorr := false, unsync := true, rest := 0, hops := 9, src := 7, dst := 0xFF, seq := 3, joinId := 44, msg := .venc [(3, 4, 9999)] } : RingFrame)⟩ : Admitted)] } })
  b84)
def s343 : State := (edit (fun z => { z with ring := { z.ring with inbox := [(⟨1, 9000, ({ ver := 1, west := false, uncorr := false, unsync := false, rest := 0, hops := 9, src := 7, dst := 0xFF, seq := 3, joinId := 44, msg := .venc [] } : RingFrame)⟩ : Admitted)] } })
  b84)
def s344 : State := (edit (fun z => { z with ring := { z.ring with inbox := [(⟨1, 9000, ({ ver := 1, west := false, uncorr := false, unsync := false, rest := 0, hops := 9, src := 7, dst := 0xFF, seq := 3, joinId := 44, msg := .venc [(2, 9, 9999), (3, 4, 9999)] } : RingFrame)⟩ : Admitted)] } })
  b84)
def s345 : State := (edit (fun z => { z with tb := 0x1000000000 }) b84)
def s346 : State := (edit (fun z => { z with ring := { z.ring with inbox := [(⟨1, 9000, ({ ver := 1, west := false, uncorr := false, unsync := true, rest := 0, hops := 9, src := 7, dst := 0xFF, seq := 3, joinId := 44, msg := .track 9 1 0 true 4 5 6 } : RingFrame)⟩ : Admitted)] } })
  (put [(Fld.RING_TRK_WR_NEXT, 255)] b77))
def b85 : State := (put [(Fld.RING_VER_RVER, 3), (Fld.RING_VOTE_A_EN 15, 1), (Fld.RING_VOTE_A_CTX 15, 254),
  (Fld.RING_VOTE_DEADLINE_DEADLINE 15, 1)] b77)
def b86 : State := (set [(Reg.RING_VOTE_MASK_LO 15, 0x80)] b85)
def s347 : State := (edit (fun z => { z with ring := { z.ring with inbox := [(⟨1, 9000, ({ ver := 1, west := false, uncorr := false, unsync := false, rest := 0, hops := 9, src := 7, dst := 0xFF, seq := 3, joinId := 44, msg := .reject 9 1 0 4 5 6 } : RingFrame)⟩ : Admitted)] } })
  b86)
def s348 : State := (edit (fun z => { z with ring := { z.ring with inbox := [(⟨1, 9000, ({ ver := 1, west := false, uncorr := false, unsync := false, rest := 0, hops := 9, src := 7, dst := 0xFF, seq := 3, joinId := 44, msg := .reject 9 1 0 4 5 6 } : RingFrame)⟩ : Admitted)] } })
  b77)
def b87 : State := (put [(Fld.RING_RRLY_A_EN 15, 1), (Fld.RING_RRLY_A_SRC 15, 7), (Fld.RING_RRLY_A_CTX 15, 9), (Fld.RING_RRLY_DELAY_DELAY
  15, 0x100000), (Fld.RING_RRLY_WIDTH_WIDTH 15, 6)] b77)
def s349 : State := (edit (fun z => { z with ring := { z.ring with inbox := [(⟨1, 9000, ({ ver := 1, west := false, uncorr := false, unsync := false, rest := 0, hops := 9, src := 7, dst := 0xFF, seq := 3, joinId := 44, msg := .reject 9 1 0 4 5 6 } : RingFrame)⟩ : Admitted)] } })
  b87)
def s350 : State := (edit (fun z => { z with ring := { z.ring with inbox := [(⟨1, 9000, ({ ver := 1, west := false, uncorr := false, unsync := true, rest := 0, hops := 9, src := 7, dst := 0xFF, seq := 3, joinId := 44, msg := .reject 9 1 0 4 5 6 } : RingFrame)⟩ : Admitted)] } })
  b87)
def s351 : State := (edit (fun z => { z with tb := 9000 }) (edit (fun z => z.setCtx 254
  { z.getCtx 254 with prods := [({ prod (job [0x8000FE01, 7, 9, 0]) with ended := true, status := some 1 } : Product)] }) (set
  [(Reg.CTX_STATE 254, 2)] b86)))
def s352 : State := b86
def s353 : State := (edit (fun z => { z with tb := 0x1000000000 }) (edit (fun z =>
  { z with ring := { z.ring with votes := [⟨1, 2, true, 0⟩, ⟨3, 4, false, 9⟩] } }) b77))
def s354 : State := (edit (fun z => { z with ring := { z.ring with votes := [⟨1, 2, true, 0⟩, ⟨3, 4, false, 9⟩] } }) b77)
def s355 : State := b80
def s356 : State := (edit (fun z => { z with ring := { z.ring with srcs := [(7, { RingSrc.reset with member := true })] } }) b77)
def b88 : State := (edit (fun z => { z with ring := { z.ring with mbx := [(3, some (7, 6, 0))] } }) b80)
def s357 : State := ((edit (fun z => { z with ring := { z.ring with inbox := [(⟨1, 9000, ({ ver := 1, west := false, uncorr := false, unsync := false, rest := 0, hops := 9, src := 7, dst := 0xFF, seq := 3, joinId := 44, msg := .mgmt 0x81 6 2 1 0x4E00100 [1, 2] } : RingFrame)⟩ : Admitted)] } })
  b88).took [])
def s358 : State := (edit (fun z => { z with ring := { z.ring with inbox := [(⟨1, 9000, ({ ver := 1, west := false, uncorr := false, unsync := false, rest := 0, hops := 9, src := 7, dst := 0xFF, seq := 3, joinId := 44, msg := .mgmt 0x81 6 2 1 0x4E00100 [1, 2] } : RingFrame)⟩ : Admitted)] } })
  b88)
def s359 : State := ((edit (fun z => { z with ring := { z.ring with inbox := [(⟨1, 9000, ({ ver := 1, west := false, uncorr := false, unsync := false, rest := 0, hops := 9, src := 7, dst := 0xFF, seq := 3, joinId := 44, msg := .mgmt 0xFF 6 2 1 0x4E00100 [1, 2] } : RingFrame)⟩ : Admitted)] } })
  b88).took [])
def s360 : State := (edit (fun z => { z with ring := { z.ring with inbox := [(⟨1, 9000, ({ ver := 1, west := false, uncorr := false, unsync := false, rest := 0, hops := 9, src := 7, dst := 0xFF, seq := 3, joinId := 44, msg := .mgmt 0xFF 6 2 1 0x4E00100 [1, 2] } : RingFrame)⟩ : Admitted)] } })
  b88)
def s361 : State := ((edit (fun z => { z with ring := { z.ring with inbox := [(⟨1, 9000, ({ ver := 1, west := false, uncorr := false, unsync := false, rest := 0, hops := 9, src := 7, dst := 0xFF, seq := 3, joinId := 44, msg := .mgmt 0x81 6 2 1 0x4E00100 [1, 2] } : RingFrame)⟩ : Admitted)] } })
  b77).took [])
def s362 : State := (edit (fun z => { z with ring := { z.ring with inbox := [(⟨1, 9000, ({ ver := 1, west := false, uncorr := false, unsync := false, rest := 0, hops := 9, src := 7, dst := 0xFF, seq := 3, joinId := 44, msg := .mgmt 0x81 6 2 1 0x4E00100 [1, 2] } : RingFrame)⟩ : Admitted)] } })
  b77)
def s363 : State := ((edit (fun z => { z with ring := { z.ring with inbox := [(⟨1, 9000, ({ ver := 1, west := false, uncorr := false, unsync := false, rest := 0, hops := 9, src := 7, dst := 0xFF, seq := 3, joinId := 44, msg := .mgmt 1 6 0 1 0x4E00100 [1, 2] } : RingFrame)⟩ : Admitted)] } })
  b77).took [])
def s364 : State := (edit (fun z => { z with ring := { z.ring with inbox := [(⟨1, 9000, ({ ver := 1, west := false, uncorr := false, unsync := false, rest := 0, hops := 9, src := 7, dst := 0xFF, seq := 3, joinId := 44, msg := .mgmt 1 6 0 1 0x4E00100 [1, 2] } : RingFrame)⟩ : Admitted)] } })
  b77)
def s365 : State := ((edit (fun z => { z with ring := { z.ring with inbox := [(⟨1, 9000, ({ ver := 1, west := false, uncorr := false, unsync := false, rest := 0, hops := 9, src := 7, dst := 0xFF, seq := 3, joinId := 44, msg := .mgmt 1 6 2 1 0x4E00100 [1, 2] } : RingFrame)⟩ : Admitted)] } })
  b77).took [])
def s366 : State := (edit (fun z => { z with ring := { z.ring with inbox := [(⟨1, 9000, ({ ver := 1, west := false, uncorr := false, unsync := false, rest := 0, hops := 9, src := 7, dst := 0xFF, seq := 3, joinId := 44, msg := .mgmt 1 6 2 1 0x4E00100 [1, 2] } : RingFrame)⟩ : Admitted)] } })
  b77)
def s367 : State := ((edit (fun z => { z with ring := { z.ring with inbox := [(⟨1, 9000, ({ ver := 1, west := false, uncorr := false, unsync := false, rest := 0, hops := 9, src := 7, dst := 0xFF, seq := 3, joinId := 44, msg := .mgmt 2 6 2 1 0x4E00100 [1, 2] } : RingFrame)⟩ : Admitted)] } })
  b77).took [])
def s368 : State := (edit (fun z => { z with ring := { z.ring with inbox := [(⟨1, 9000, ({ ver := 1, west := false, uncorr := false, unsync := false, rest := 0, hops := 9, src := 7, dst := 0xFF, seq := 3, joinId := 44, msg := .mgmt 2 6 2 1 0x4E00100 [1, 2] } : RingFrame)⟩ : Admitted)] } })
  b77)
def s369 : State := ((edit (fun z => { z with ring := { z.ring with inbox := [(⟨1, 9000, ({ ver := 1, west := false, uncorr := false, unsync := false, rest := 0, hops := 9, src := 7, dst := 0xFF, seq := 3, joinId := 44, msg := .mgmt 3 6 2 1 0x4E00100 [1, 2] } : RingFrame)⟩ : Admitted)] } })
  b77).took [])
def s370 : State := (edit (fun z => { z with ring := { z.ring with inbox := [(⟨1, 9000, ({ ver := 1, west := false, uncorr := false, unsync := false, rest := 0, hops := 9, src := 7, dst := 0xFF, seq := 3, joinId := 44, msg := .mgmt 3 6 2 1 0x4E00100 [1, 2] } : RingFrame)⟩ : Admitted)] } })
  b77)
def s371 : State := (edit (fun z => { z with tb := 0x1000000000 }) b88)
def s372 : State := b88
def s373 : State := ((edit (fun z => { z with ring := { z.ring with inbox := [(⟨1, 9000, ({ ver := 1, west := false, uncorr := false, unsync := false, rest := 0, hops := 9, src := 7, dst := 0xFF, seq := 3, joinId := 44, msg := .service 2 0 5 0 [9, 8] } : RingFrame)⟩ : Admitted)] } })
  b77).took [])
def s374 : State := (edit (fun z => { z with ring := { z.ring with inbox := [(⟨1, 9000, ({ ver := 1, west := false, uncorr := false, unsync := false, rest := 0, hops := 9, src := 7, dst := 0xFF, seq := 3, joinId := 44, msg := .service 2 0 5 0 [9, 8] } : RingFrame)⟩ : Admitted)] } })
  b77)
def b89 : State := (edit (fun z => { z with ring := { z.ring with sessions := [(⟨7, 2, 0, 5, [], [], [1]⟩ : TunnelSession)] } }) b77)
def s375 : State := ((edit (fun z => { z with ring := { z.ring with inbox := [(⟨1, 9000, ({ ver := 1, west := false, uncorr := false, unsync := false, rest := 0, hops := 9, src := 7, dst := 0xFF, seq := 3, joinId := 44, msg := .service 2 3 5 0 [9, 8] } : RingFrame)⟩ : Admitted)] } })
  b89).took [])
def s376 : State := (edit (fun z => { z with ring := { z.ring with inbox := [(⟨1, 9000, ({ ver := 1, west := false, uncorr := false, unsync := false, rest := 0, hops := 9, src := 7, dst := 0xFF, seq := 3, joinId := 44, msg := .service 2 3 5 0 [9, 8] } : RingFrame)⟩ : Admitted)] } })
  b89)
def s377 : State := ((edit (fun z => { z with ring := { z.ring with inbox := [(⟨1, 9000, ({ ver := 1, west := false, uncorr := false, unsync := false, rest := 0, hops := 9, src := 7, dst := 0xFF, seq := 3, joinId := 44, msg := .service 2 2 5 0 [9, 8] } : RingFrame)⟩ : Admitted)] } })
  b77).took [])
def s378 : State := (edit (fun z => { z with ring := { z.ring with inbox := [(⟨1, 9000, ({ ver := 1, west := false, uncorr := false, unsync := false, rest := 0, hops := 9, src := 7, dst := 0xFF, seq := 3, joinId := 44, msg := .service 2 2 5 0 [9, 8] } : RingFrame)⟩ : Admitted)] } })
  b77)
def s379 : State := ((edit (fun z => { z with ring := { z.ring with inbox := [(⟨1, 9000, ({ ver := 1, west := false, uncorr := false, unsync := false, rest := 0, hops := 9, src := 7, dst := 0xFF, seq := 3, joinId := 44, msg := .service 2 2 5 0 [9, 8] } : RingFrame)⟩ : Admitted)] } })
  b89).took [])
def s380 : State := (edit (fun z => { z with ring := { z.ring with inbox := [(⟨1, 9000, ({ ver := 1, west := false, uncorr := false, unsync := false, rest := 0, hops := 9, src := 7, dst := 0xFF, seq := 3, joinId := 44, msg := .service 2 2 5 0 [9, 8] } : RingFrame)⟩ : Admitted)] } })
  b89)
def s381 : State := ((edit (fun z => { z with ring := { z.ring with inbox := [(⟨1, 9000, ({ ver := 1, west := false, uncorr := false, unsync := false, rest := 0, hops := 9, src := 7, dst := 0xFF, seq := 3, joinId := 44, msg := .service 2 0 5 0 [9, 8] } : RingFrame)⟩ : Admitted)] } })
  b89).took [])
def s382 : State := (edit (fun z => { z with ring := { z.ring with inbox := [(⟨1, 9000, ({ ver := 1, west := false, uncorr := false, unsync := false, rest := 0, hops := 9, src := 7, dst := 0xFF, seq := 3, joinId := 44, msg := .service 2 0 5 0 [9, 8] } : RingFrame)⟩ : Admitted)] } })
  b89)
def s383 : State := ((edit (fun z => { z with ring := { z.ring with inbox := [(⟨1, 9000, ({ ver := 1, west := false, uncorr := false, unsync := false, rest := 0, hops := 9, src := 7, dst := 0xFF, seq := 3, joinId := 44, msg := .service 2 0 4 0 [9, 8] } : RingFrame)⟩ : Admitted)] } })
  b89).took [])
def s384 : State := (edit (fun z => { z with ring := { z.ring with inbox := [(⟨1, 9000, ({ ver := 1, west := false, uncorr := false, unsync := false, rest := 0, hops := 9, src := 7, dst := 0xFF, seq := 3, joinId := 44, msg := .service 2 0 4 0 [9, 8] } : RingFrame)⟩ : Admitted)] } })
  b89)
def s385 : State := ((edit (fun z => { z with ring := { z.ring with inbox := [(⟨1, 9000, ({ ver := 1, west := false, uncorr := false, unsync := false, rest := 0, hops := 9, src := 7, dst := 0xFF, seq := 3, joinId := 44, msg := .service 2 0 9 0 [9, 8] } : RingFrame)⟩ : Admitted)] } })
  b89).took [])
def s386 : State := (edit (fun z => { z with ring := { z.ring with inbox := [(⟨1, 9000, ({ ver := 1, west := false, uncorr := false, unsync := false, rest := 0, hops := 9, src := 7, dst := 0xFF, seq := 3, joinId := 44, msg := .service 2 0 9 0 [9, 8] } : RingFrame)⟩ : Admitted)] } })
  b89)
def s387 : State := ((edit (fun z => { z with ring := { z.ring with inbox := [(⟨1, 9000, ({ ver := 1, west := false, uncorr := false, unsync := false, rest := 0, hops := 9, src := 7, dst := 0xFF, seq := 3, joinId := 44, msg := .service 2 1 5 3 [9, 8] } : RingFrame)⟩ : Admitted)] } })
  (edit (fun z => { z with ring := { z.ring with sessions := [(⟨7, 2, 0, 5, [⟨3, [1], 0, 0⟩, ⟨4, [1], 0, 0⟩], [], [1]⟩ : TunnelSession)] } })
  b77)).took [])
def s388 : State := (edit (fun z => { z with ring := { z.ring with inbox := [(⟨1, 9000, ({ ver := 1, west := false, uncorr := false, unsync := false, rest := 0, hops := 9, src := 7, dst := 0xFF, seq := 3, joinId := 44, msg := .service 2 1 5 3 [9, 8] } : RingFrame)⟩ : Admitted)] } })
  (edit (fun z => { z with ring := { z.ring with sessions := [(⟨7, 2, 0, 5, [⟨3, [1], 0, 0⟩, ⟨4, [1], 0, 0⟩], [], [1]⟩ : TunnelSession)] } })
  b77))
def s389 : State := (edit (fun z => { z with tb := 0x1000000000 }) (edit (fun z =>
  { z with ring := { z.ring with sessions := [(⟨63, 2, 5, 5, [(⟨4, [1], 7, 0⟩ : Segment)], [], [1]⟩ : TunnelSession)] } }) b77))
def s390 : State := (edit (fun z => { z with tb := 0x1000000000 }) (edit (fun z =>
  { z with ring := { z.ring with sessions := [(⟨63, 2, 5, 5, [(⟨4, [1], 8, 0⟩ : Segment)], [], [1]⟩ : TunnelSession)] } }) b77))
def b90 : State := (put [(Fld.TIL_STAT_SEQ_OK, 1), (Fld.AX_CFG_EN 7, 1), (Fld.AX_CFG_EN 6, 1), (Fld.AX_STAT_STATE 7, 2), (Fld.AX_STAT_STATE
  6, 2), (Fld.AX_CFG_STALL_MODE 7, 2)] on)
def b91 : State := (set [(Reg.AX_VCRUISE 7, 1000), (Reg.AX_VLAND 7, 10), (Reg.AX_AHIGH 7, 100), (Reg.AX_DHIGH 7, 100), (Reg.AX_VCRUISE 6,
  1000), (Reg.AX_VLAND 6, 10), (Reg.AX_AHIGH 6, 100), (Reg.AX_DHIGH 6, 100)] b90)
def b92 : State := (put [(Fld.OWN_HOLDER 3, 4)] b91)
def s391 : State := (wait 0 ⟨15, [0x80000031, 7, 0x80, 0, 0, 0, 0, 0, 0, 0, 500, 0, 0, 0, 0, 0]⟩ b92)
def s392 : State := (wait 0 ⟨15, [0x80000031, 7, 0x80, 0, 0, 0, 0, 0, 0, 0, 500, 0, 0, 0, 0, 0]⟩ b91)
def b93 : State := (edit (fun z => z.setAxis 7 { z.getAxis 7 with froze := true }) b91)
def s393 : State := (wait 0 ⟨15, [0x80000031, 7, 0x80, 0, 0, 0, 0, 0, 0, 0, 500, 0, 0, 0, 0, 0]⟩ b93)
def s394 : State := (wait 0 ⟨15, [0x80000031, 7, 0x80, 0, 0, 0, 0, 0, 0, 0, 0, 0, 0, 0, 0, 0]⟩ b91)
def b94 : State := (put [(Fld.AX_STAT_STATE 7, 3), (Fld.AX_STAT_STATE 6, 2)] b91)
def b95 : State := (edit (fun z => z.setAxis 7
  { z.getAxis 7 with x := 65536 * 10, target := 9000, prof := ({ Profile.reset with launch := 100, cruise := 1000, land := 10, ahigh := 100, dhigh := 100 } : Profile), v := 500, run := true })
  b94)
def s395 : State := (wait 0 ⟨15, [0x80000031, 7, 0x80, 0, 0, 0, 0, 0, 0, 0, 2, 0, 0, 0, 0, 0]⟩ b95)
def s396 : State := (wait 0 ⟨15, [0x80000031, 7, 0x80, 0, 0, 0, 0, 0, 0, 0, 0, 0, 0, 0, 0, 0]⟩ (edit (fun z => z.setAxis 7
  { z.getAxis 7 with prof := ({ Profile.reset with launch := 100, cruise := 1000, land := 10, ahigh := 100, dhigh := 100 } : Profile), target := 9 })
  b94))
def b96 : State := (edit (fun z => z.setAxis 7 { z.getAxis 7 with gear := some (⟨15, 0, 0, 65536, 131072, 0, 0, true⟩ : Gearing) }) b91)
def b97 : State := (put [(Fld.AX_STAT_STATE 7, 4)] b96)
def b98 : State := (set [(Reg.AX_VACT 7, 0xFFFFFF00)] b97)
def s397 : State := (wait 0 ⟨15, [0x80000031, 7, 0x80, 0, 0, 0, 0, 0, 0, 0, 500, 0, 0, 0, 0, 0]⟩ b98)
def s398 : State := (wait 0 ⟨15, [0x80000031, 7, 0x40C0, 0, 0, 0, 0, 0, 0, 0xFFFFFF00, 500, 0, 0, 0, 0, 0]⟩ b91)
def s399 : State := (wait 0 ⟨15, [0x80000031, 7, 0x40C0, 0, 0, 0, 0, 0, 0, 0, 0, 0, 0, 0, 0, 0]⟩ b91)
def s400 : State := (wait 0 ⟨15, [0x80000031, 7, 0x2080, 0, 0, 0, 0, 0, 0, 0, 500, 0, 0, 0, 0, 0x8000]⟩ (put [(Fld.CTX_STATE_STATE 0, 1),
  (Fld.CTX_BINDING_NRANGES 0, 1), (Fld.CTX_RANGE_PORT 0 0, 15)] b91))
def s401 : State := (wait 0 ⟨15, [0x80000031, 7, 0x180, 0, 0, 0, 0, 0, 0, 0, 0, 15, 0x10000, 0x20000, 5, 0]⟩ b93)
def s402 : State := (wait 0 ⟨15, [0x80000031, 7, 0x180, 0, 0, 0, 0, 0, 0, 0, 0, 15, 0x10000, 0x20000, 5, 0]⟩ b91)
def s403 : State := (wait 0 ⟨15, [0x80000031, 7, 0x180, 0, 0, 0, 0, 0, 0, 0, 0, 15, 0x10000, 0x20000, 5, 0]⟩ b95)
def s404 : State := (wait 0 ⟨15, [0x80000031, 7, 0x280, 0, 0, 0, 0, 0, 0, 0, 0, 0, 0, 0, 0, 0]⟩ b95)
def b99 : State := (edit (fun z => z.setAxis 7 { z.getAxis 7 with target := 9 }) b94)
def s405 : State := (wait 0 ⟨15, [0x80000031, 7, 0x280, 0, 0, 0, 0, 0, 0, 0, 0, 0, 0, 0, 0, 0]⟩ b99)
def b100 : State := (put [(Fld.AX_STAT_STATE 7, 3), (Fld.AX_STAT_STATE 6, 3)] b91)
def b101 : State := (edit (fun z => z.setAxis 7
  { z.getAxis 7 with group := some (6, 0, 65536 * 100), target := 100, prof := ({ Profile.reset with launch := 100, cruise := 1000, land := 10, ahigh := 100, dhigh := 100 } : Profile) })
  b100)
def b102 : State := (edit (fun z => z.setAxis 6
  { z.getAxis 6 with group := some (6, 0, 65536 * 500), target := 500, prof := ({ Profile.reset with launch := 100, cruise := 1000, land := 10, ahigh := 100, dhigh := 100 } : Profile), run := true, v := 900 })
  b101)
def s406 : State := (wait 0 ⟨15, [0x80000031, 7, 0x280, 0, 0, 0, 0, 0, 0, 0, 0, 0, 0, 0, 0, 0]⟩ b102)
def s407 : State := (wait 0 ⟨15, [0x80000031, 7, 0x280, 0, 0, 0, 0, 0, 0, 0, 0, 0, 0, 0, 0, 0]⟩ b98)
def s408 : State := (wait 0 ⟨15, [0x80000031, 7, 0x280, 0, 0, 0, 0, 0, 0, 0, 0, 0, 0, 0, 0, 0]⟩ b91)
def s409 : State := (wait 0 ⟨15, [0x80000031, 7, 0x280, 0, 0, 0, 0, 0, 0, 0, 0, 0, 0, 0, 0, 0]⟩ (edit (fun z => z.setAxis 7
  { z.getAxis 7 with took := true }) b95))
def s410 : State := (wait 0 ⟨15, [0x80000032, 7, 0x107, 0, 0xFFFFFF00, 9, 1000, 0, 0, 0, 0, 0, 0, 0, 0, 0]⟩ b91)
def s411 : State := (wait 0 ⟨15, [0x80000032, 7, 0x107, 500, 0xFFFFFF00, 9, 1000, 0, 0, 0, 0, 0, 0, 0, 0, 0]⟩ b93)
def s412 : State := (wait 0 ⟨15, [0x80000032, 7, 0x107, 500, 0xFFFFFF00, 9, 1000, 0, 0, 0, 0, 0, 0, 0, 0, 0]⟩ b91)
def s413 : State := (wait 0 ⟨15, [0x80000030, 7, 0xF, 0, 0x1000, 0]⟩ b91)
def b103 : State := (wait 0 ⟨15, [0x80000030, 7, 7, 0, 0x1000, 0]⟩ b91)
def s414 : State := b103
def s415 : State := (b103.feed false 0x1000 64 [] ⟨[1], true⟩).2
def s416 : State := (b103.feed false 0x1000 64 [] ⟨[1, 2], false⟩).2
def s417 : State := (b103.feed false 0x1000 64 [] ⟨List.replicate 64 0, false⟩).2
def s418 : State := (b103.feed false 0x1000 64 [] ⟨(([0, 0, 0, 0, 0, 0, 100, 5, 0, 9, 9, 0, 0, 0, 0, 0].flatMap (fun b => [b, 0, 0,
  0])).set 3 0), false⟩).2
def b104 : State := (put [(Fld.AX_CFG_STALL_MODE 7, 1)] b95)
def s419 : State := b104
def b105 : State := (put [(Fld.AX_CFG_STALL_MODE 7, 1)] b94)
def b106 : State := (edit (fun z => z.setAxis 7
  { z.getAxis 7 with x := 65536 * 10, target := 10, prof := ({ Profile.reset with launch := 100, cruise := 1000, land := 10, ahigh := 100, dhigh := 100 } : Profile), v := 10, run := true })
  b105)
def s420 : State := b106
def b107 : State := (edit (fun z => z.setAxis 7 { z.getAxis 7 with home := some ⟨true, true, 0, 5, 5, 0, 9⟩ }) b106)
def b108 : State := (put [(Fld.AX_STAT_STATE 7, 5)] b107)
def s421 : State := b108
def b109 : State := (put [(Fld.AX_CFG_STALL_MODE 7, 1)] b102)
def s422 : State := b109
def b110 : State := (put [(Fld.AX_STAT_STATE 7, 4)] b91)
def b111 : State := (put [(Fld.AX_CFG_STALL_MODE 7, 1)] b110)
def s423 : State := (set [(Reg.ENC_CNT 15, 1)] (edit (fun z => z.setAxis 7
  { z.getAxis 7 with gear := some (⟨15, 0, 0, 65536, 131072, 0, 0, true⟩ : Gearing), prof := ({ Profile.reset with launch := 100, cruise := 2000000000, land := 10, ahigh := 100, dhigh := 100 } : Profile) })
  b111))
def s424 : State := (set [(Reg.ENC_CNT 15, 1)] (edit (fun z => z.setAxis 7
  { z.getAxis 7 with gear := some (⟨15, 0, 0, 65536, 131072, 0, 0, true⟩ : Gearing), prof := ({ Profile.reset with launch := 100, cruise := 1000, land := 10, ahigh := 100, dhigh := 100 } : Profile) })
  b111))
def s425 : State := (set [(Reg.ENC_CNT 15, 0xFFFFFFFF)] (edit (fun z => z.setAxis 7
  { z.getAxis 7 with gear := some (⟨15, 0, 0, 65536, 131072, 0, 1, false⟩ : Gearing), prof := ({ Profile.reset with launch := 100, cruise := 2000000000, land := 10, ahigh := 100, dhigh := 100 } : Profile) })
  b111))
def b112 : State := (edit (fun z => z.setAxis 7 { z.getAxis 7 with x := 65536 * 10000, cnt0 := 0 }) b91)
def s426 : State := (put [(Fld.AX_STALL_WINDOW 7, 50000)] b112)
def s427 : State := b112
def b113 : State := (put [(Fld.TIL_STAT_SEQ_OK, 0)] b91)
def s428 : State := b113
def s429 : State := (put [(Fld.AX_STAT_STATE 7, 0)] b91)
def s430 : State := b95
def s431 : State := (put [(Fld.AX_STAT_STATE 7, 0)] b95)
def s432 : State := b91
def s433 : State := b99
def s434 : State := b102
def s435 : State := b98
def s436 : State := (edit (fun z => z.setAxis 7 { z.getAxis 7 with coilB := { Coil.reset with bridge := .drive true } }) b91)
def s437 : State := (edit (fun z => { z with tb := 0x1000000000 }) (edit (fun z => z.setAxis 7
  { z.getAxis 7 with coilB := { Coil.reset with bridge := .drive true, opens := 63, shorts := 62 } }) (put [(Fld.AX_CUR_CUR_RUN 7, 1)] (set
  [(Reg.AX_TABLE 7 0, 0x00010001)] b91))))
def b114 : State := (put [(Fld.AX_CUR_CUR_RUN 7, 255)] b94)
def b115 : State := (set [(Reg.AX_TABLE 7 0, 0x07FF07FF)] b114)
def b116 : State := (edit (fun z => z.setAxis 7
  { z.getAxis 7 with coilB := { Coil.reset with bridge := .drive true, opens := 62, shorts := 62 } }) b115)
def b117 : State := (edit (fun z => { z with tb := 0x1000000000 }) b116)
def s438 : State := b117
def s439 : State := (edit (fun z => { z with tb := 0x1000000000 }) (edit (fun z => z.setAxis 7
  { z.getAxis 7 with coilB := { Coil.reset with bridge := .drive true, opens := 63 } }) b115))
def s440 : State := (edit (fun z => { z with tb := 0x1000000000 }) (edit (fun z => z.setAxis 7
  { z.getAxis 7 with coilB := { Coil.reset with bridge := .coast } }) (set [(Reg.AX_TABLE 7 0, 0x07FF07FF)] (put [(Fld.AX_CUR_CUR_RUN 7,
  255)] b91))))
def s441 : State := (edit (fun z => z.setAxis 7 { z.getAxis 7 with coilB := { Coil.reset with bridge := .coast } }) b91)
def s442 : State := (edit (fun z => { z with tb := 0x1000000000 }) (put [(Fld.AX_STAT_STATE 7, 1)] b91))
def s443 : State := (edit (fun z => z.setAxis 7 { z.getAxis 7 with coilA := { Coil.reset with sense := true } }) (put [(Fld.AX_BEMFK_BEMF_K
  7, 5000)] (set [(Reg.AX_VACT 7, 1000)] b94)))
def s444 : State := (edit (fun z => { z with tb := 0x1000000000 }) (edit (fun z => z.setAxis 7
  { z.getAxis 7 with coilA := { Coil.reset with sense := true } }) b94))
def s445 : State := (edit (fun z => { z with tb := 0x1000000000 }) (edit (fun z => z.setAxis 7
  { z.getAxis 7 with coilA := { Coil.reset with sense := true } }) (put [(Fld.AX_BEMFK_BEMF_K 7, 5000)] (set [(Reg.AX_VACT 7, 1000)] b94))))
def s446 : State := (edit (fun z => { z with tb := 0x1000000000 }) (edit (fun z => z.setAxis 7
  { z.getAxis 7 with coilA := { Coil.reset with sense := true } }) (set [(Reg.AX_VACT 7, 0x7FFFFFFF)] (put [(Fld.AX_BEMFK_BEMF_K 7, 60000),
  (Fld.AX_BAND_MIN_LOAD_MIN 7 5, 5), (Fld.AX_BAND_V_V_BAND 7 5, 100), (Fld.AX_BAND_CAL_CAL_HI 7 5, 9), (Fld.AX_STALL_LOAD_RUN 7, 3)] b94))))
def s447 : State := (edit (fun z => { z with tb := 0x1000000000 }) (edit (fun z => z.setAxis 7
  { z.getAxis 7 with coilA := { Coil.reset with sense := true } }) (set [(Reg.AX_VACT 7, 0x7FFFFFFF)] (put [(Fld.AX_BEMFK_BEMF_K 7, 60000),
  (Fld.AX_BAND_MIN_LOAD_MIN 7 5, 65535), (Fld.AX_BAND_V_V_BAND 7 5, 100), (Fld.AX_BAND_CAL_CAL_HI 7 5, 9), (Fld.AX_STALL_LOAD_RUN 7, 3)]
  b94))))
def s448 : State := (edit (fun z => { z with tb := 0x1000000000 }) (edit (fun z => z.setAxis 7
  { z.getAxis 7 with coilA := { Coil.reset with sense := true } }) (set [(Reg.AX_VACT 7, 0x7FFFFFFF)] (put [(Fld.AX_BEMFK_BEMF_K 7, 60000),
  (Fld.AX_BAND_MIN_LOAD_MIN 7 5, 65535), (Fld.AX_BAND_V_V_BAND 7 5, 100), (Fld.AX_BAND_CAL_CAL_HI 7 5, 9), (Fld.AX_STALL_LOAD_RUN 7, 1)]
  b94))))
def s449 : State := (edit (fun z => { z with round := ⟨false, 0, 94, some 0⟩, tb := 0x1000000000 }) on)
def s450 : State := (edit (fun z => { z with round := ⟨false, 0, 94, some 0⟩, tb := 0x1000000000 }) (put [(Fld.HK_CH_CFG_FITTED 94, 1)] on))
def s451 : State := (edit (fun z => { z with round := ⟨false, 0, 55, some 0⟩, tb := 0x1000000000 }) (put [(Fld.HK_CH_CFG_FITTED 55, 0)] on))
def s452 : State := (edit (fun z => { z with round := ⟨false, 0, 23, some 0⟩, tb := 0x1000000000 }) (put [(Fld.HK_CH_CFG_FITTED 23, 1)] on))
def s453 : State := (edit (fun z => { z with round := ⟨false, 0, 23, some 0⟩, tb := 0x1000000000 }) (edit (fun z => z.setChan 23
  { z.getChan 23 with bad := 2 }) (put [(Fld.HK_CH_CFG_FITTED 23, 1)] on)))
def s454 : State := (edit (fun z => { z with round := ⟨false, 0, 23, some 0⟩, tb := 0x1000000000 }) (edit (fun z => z.setChan 23
  { z.getChan 23 with bad := 1 }) (put [(Fld.HK_CH_CFG_FITTED 23, 1)] on)))
def s455 : State := (edit (fun z => { z with round := ⟨false, 0, 23, some 0⟩, tb := 0x1000000000 }) (edit (fun z => z.setChan 23
  { z.getChan 23 with good := 2, broken := true, bad := 3 }) (put [(Fld.HK_CH_CFG_FITTED 23, 1)] on)))
def b118 : State := (put [(Fld.HK_CH_CFG_FITTED 23, 1), (Fld.HK_CH_CFG_FITTED 22, 1), (Fld.HK_CH_CFG_FITTED 21, 1)] on)
def s456 : State := (edit (fun z => { z with round := ⟨false, 0, 23, some 0⟩, tb := 0x1000000000 }) (edit (fun z => (z.setChan 21
  { HkChan.reset with own := some 400 }).setChan 22 { HkChan.reset with own := some 500 }) (edit (fun z => z.setChan 23
  { z.getChan 23 with far := 2 }) b118)))
def s457 : State := (edit (fun z => { z with round := ⟨false, 0, 23, some 0⟩, tb := 0x1000000000 }) (edit (fun z => (z.setChan 21
  { HkChan.reset with own := some 400 }).setChan 22 { HkChan.reset with own := some 500 }) (edit (fun z => z.setChan 23
  { z.getChan 23 with near := 2, subst := true }) b118)))
def s458 : State := (edit (fun z => { z with round := ⟨false, 0, 23, some 0⟩, tb := 0x1000000000 }) (edit (fun z => z.setChan 23
  { z.getChan 23 with up := [2, 2, 2] }) (put [(Fld.HK_CH_CFG_FITTED 23, 1)] on)))
def b119 : State := (put [(Fld.HK_CH_CFG_FITTED 55, 1), (Fld.HK_CH_LIM1_SHUTDOWN 55, 100)] on)
def b120 : State := (edit (fun z => z.setChan 55 { z.getChan 55 with up := [2, 2, 2] }) b119)
def b121 : State := (edit (fun z => (List.range 33).foldl (fun z i => z.wr (Fld.HK_TTAB_T 0 i) (40 * i)) z) b120)
def b122 : State := (edit (fun z => { z with round := ⟨false, 0, 55, some 0⟩, tb := 0x1000000000 }) b121)
def s459 : State := b122
def b123 : State := (put [(Fld.HK_CH_CFG_FITTED 55, 1), (Fld.HK_CH_CFG_FITTED 23, 1)] on)
def s460 : State := (edit (fun z => { z with round := ⟨true, 0, 95, some 0⟩, tb := 0x1000000000 }) b123)
def s461 : State := (edit (fun z => { z with round := ⟨false, 9, 95, some 0⟩, tb := 0x1000000000 }) b123)
def s462 : State := { on with pcr := { on.pcr with dieShut := true } }
def b124 : State := (edit (fun z => { z with rakeQ := [({ src := 0x3FE, synd := 5, mast := 0, tb := 900, level := false, rail := false, inj := false, coinc := false } : Report)] })
  on)
def s463 : State := b124
def b125 : State := (put [(Fld.CTX_STATE_STATE 254, 1), (Fld.RAKE_SRC_CFG_SEV 0x1FE, 3)] on)
def b126 : State := (edit (fun z => { z with rakeQ := [({ src := 0x1FE, synd := 9, mast := 0, tb := 900, level := false, rail := false, inj := false, coinc := false } : Report)] })
  b125)
def s464 : State := b126
def b127 : State := (put [(Fld.CTX_STATE_STATE 254, 1), (Fld.RAKE_SRC_CFG_SEV 0x1FE, 3), (Fld.HF_CFG_ON_FATAL, 1),
  (Fld.RAKE_FIRST_SRC_VALID, 1)] on)
def b128 : State := (edit (fun z => { z with rakeQ := [({ src := 0x1FE, synd := 9, mast := 0, tb := 900, level := false, rail := false, inj := false, coinc := false } : Report)] })
  b127)
def s465 : State := b128
def b129 : State := (put [(Fld.RAKE_SRC_CFG_SEV 0x1FE, 2), (Fld.RAKE_CFG_ERRN_CONT, 1)] on)
def b130 : State := (edit (fun z => { z with rakeQ := [({ src := 0x1FE, synd := 9, mast := 0, tb := 900, level := false, rail := false, inj := false, coinc := false } : Report)] })
  b129)
def s466 : State := b130
def b131 : State := (put [(Fld.CTX_STATE_STATE 254, 1), (Fld.RAKE_SRC_CFG_SEV 0x1FE, 1), (Fld.RAKE_FIRST_SRC_VALID, 1)] on)
def b132 : State := (edit (fun z => { z with rakeQ := [({ src := 0x1FE, synd := 9, mast := 0, tb := 900, level := false, rail := false, inj := false, coinc := false } : Report)] })
  b131)
def s467 : State := b132
def b133 : State := (edit (fun z => { z with rakeQ := [({ src := 0x002, synd := 11, mast := 0, tb := 900, level := true, rail := false, inj := false, coinc := false } : Report)] })
  on)
def s468 : State := b133
def b134 : State := (put [(Fld.CTX_STATE_STATE 254, 1), (Fld.RAKE_SRC_CFG_SEV 0x1FE, 3), (Fld.HF_CFG_ON_FATAL, 1)] on)
def b135 : State := (edit (fun z => { z with rakeQ := [({ src := 0x1FE, synd := 9, mast := 0, tb := 900, level := false, rail := false, inj := false, coinc := false } : Report)] })
  b134)
def s469 : State := b135
def s470 : State := (edit (fun z => { z with rake := { z.rake with levels := [(⟨0x045, 3, false, 0⟩ : Level)] } }) on)
def s471 : State := (edit (fun z => { z with tb := 0x1000000000 }) (edit (fun z => { z with rake := { z.rake with pulse := some 5 } }) (put
  [(Fld.RAKE_ERRN_LOW, 1), (Fld.RAKE_ERRN_HOLD, 1)] on)))
def s472 : State := (put [(Fld.RAKE_ERRN_LOW, 1)] on)
def s473 : State := (put [(Fld.RAKE_FIRST_SRC_VALID, 1), (Fld.RAKE_FIRST_SRC_OVF, 1)] on)
def s474 : State := (put [(Fld.RAKE_SCOPE_STATE 0x2FE, 2), (Fld.CTX_STATE_STATE 254, 5)] on)
def s475 : State := (edit (fun z => { z with rake := { z.rake with levels := [(⟨0x045, 3, false, 0⟩ : Level)] } }) (put
  [(Fld.RAKE_SCOPE_STATE 0, 2)] on))
def s476 : State := (put [(Fld.CTX_STATE_STATE 254, 2)] on)
def s477 : State := (put [(Fld.RAKE_SCOPE_STATE 0x2FE, 2)] on)
def s478 : State := (put [(Fld.RAKE_SCOPE_STATE 0x10F, 1)] (set [(thawReg 0x10F, 0x00011001)] (edit (fun z => { z with tb := 5000000 })
  on)))
def s479 : State := (set [(Reg.PF_PROG_DATA_LO, 9)] (warm on))
def s480 : State := (edit (fun z => { z with otp := { z.otp with prog := some (⟨0x100, 9, false, false, none⟩ : OtpWord) } }) (put
  [(Fld.PF_PROG_CTL_BUSY, 1), (Fld.PF_PROG_CTL_RESULT, 2)] (warm on)))
def b136 : State := (edit (fun z => { z with otp := { z.otp with core := true } }) (warm on))
def b137 : State := (put [(Fld.PF_STAT_VQPS_OK, 1)] b136)
def s481 : State := b137
def s482 : State := (put [(Fld.PF_LOCK_SET_LOCK, 16)] on)
def s483 : State := (edit (fun z => { z with otp := { z.otp with lenient := (List.range 16).map (fun e => (0x3F0 + e, 1)) } }) b137)
def b138 : State := (edit (fun z => { z with otp := { z.otp with prog := some (⟨0x100, 9, false, false, none⟩ : OtpWord) } }) (put
  [(Fld.PF_PROG_CTL_BUSY, 1)] (warm on)))
def s484 : State := b138
def s485 : State := (b138.verifyWord (⟨0x100, 9, false, false, none⟩ : OtpWord) (9 : BitVec 64).toNat (9 : BitVec 64).toNat).2
def s486 : State := (edit (fun z => { z with hf := { z.hf with active := true } }) (put [(Fld.HF_STAT_CAUSE, 1)] (edit (fun z =>
  { z with otp := { z.otp with prog := some (⟨0x100, 9, false, true, none⟩ : OtpWord) } }) (put [(Fld.PF_PROG_CTL_BUSY, 1)] (warm on)))))
def s487 : State := ((edit (fun z => { z with hf := { z.hf with active := true } }) (put [(Fld.HF_STAT_CAUSE, 1)] (edit (fun z =>
  { z with otp := { z.otp with prog := some (⟨0x100, 9, false, true, none⟩ : OtpWord) } }) (put [(Fld.PF_PROG_CTL_BUSY, 1)] (warm
  on))))).verifyWord (⟨0x100, 9, false, true, none⟩ : OtpWord) (1 : BitVec 64).toNat (9 : BitVec 64).toNat).2
def s488 : State := (edit (fun z => { z with otp := { z.otp with prog := some (⟨0x100, 9, false, false, none⟩ : OtpWord) } }) (put
  [(Fld.PF_SCAN_STAT_BUSY, 1)] on))
def s489 : State := (edit (fun z => { z with otp := { z.otp with prog := some (⟨0x100, 9, false, false, none⟩ : OtpWord) } }) (put
  [(Fld.PF_STAT_VQPS_OK, 1)] (warm on)))
def s490 : State := (edit (fun z => { z with otp := { z.otp with lenient := [(0x3F1, 1)] } }) (put [(Fld.PF_SCAN_STAT_BUSY, 1)] on))
def s491 : State := (put [(Fld.PF_LOCK_SET_LOCK, 3)] on)
def s492 : State := (wait 0 ⟨15, [0x80000050, 7, 0x100, 0, 0x1000, 0]⟩ on)
def b139 : State := (wait 0 ⟨15, [0x80000050, 7, 0x100, 2, 0x1000, 0]⟩ (warm on))
def s493 : State := ((b139.senseSupplies true true).feed false 0x1000 16 [] ⟨[1], true⟩).2
def s494 : State := b139
def s495 : State := ((b139.senseSupplies true true).feed false 0x1000 16 [] ⟨[1], false⟩).2
def b140 : State := (wait 0 ⟨15, [0x80000050, 7, 0x061, 2, 0x1000, 0]⟩ (warm on))
def s496 : State := ((b140.senseSupplies true true).feed false 0x1000 16 [] ⟨[4, 0, 0, 0, 0, 0, 0, 0, 1, 0, 0, 0, 0, 0, 0, 0], false⟩).2
def s497 : State := b140
def b141 : State := (wait 0 ⟨15, [0x80000050, 7, 0x400001FF, 2, 0x1000, 0]⟩ (warm on))
def s498 : State := ((b141.senseSupplies true true).feed false 0x1000 16 [] ⟨List.replicate 16 3, false⟩).2
def s499 : State := b141
def s500 : State := ((b139.senseSupplies false true).feed false 0x1000 16 [] ⟨List.replicate 16 3, false⟩).2
def b142 : State := (wait 0 ⟨15, [0x80000050, 7, 0x100, 2, 0x1000, 0]⟩ (set [(Reg.OWN 1, 0x00010005)] (warm on)))
def s501 : State := ((b142.senseSupplies true true).feed false 0x1000 16 [] ⟨List.replicate 16 3, false⟩).2
def s502 : State := b142
def s503 : State := ((b139.senseSupplies true true).feed false 0x1000 16 [] ⟨List.replicate 16 3, false⟩).2
def b143 : State := (wait 0 ⟨15, [0x80000050, 7, 0x100, 2, 0x1000, 0]⟩ b138)
def s504 : State := ((b143.senseSupplies true true).feed false 0x1000 16 [] ⟨List.replicate 16 3, false⟩).2
def s505 : State := b143
def s506 : State := (wait 0 ⟨15, [0x80000051, 7, 0x2C0]⟩ (warm on))
def s507 : State := (wait 0 ⟨15, [0x80000051, 7, 0x0C0]⟩ (warm on))
def s508 : State := (wait 0 ⟨15, [0x80000051, 7, 0x0C0]⟩ (set [(Reg.OWN 1, 0x00010005)] (warm on)))
def s509 : State := (wait 0 ⟨15, [0x80000051, 7, 0x1C0]⟩ (warm on))
def s510 : State := (wait 0 ⟨15, [0x80000051, 7, 0x1C0]⟩ b138)
def s511 : State := (edit (fun z => { z with otp := { z.otp with prog := some (⟨0x100, 9, false, true, none⟩ : OtpWord) } }) (edit (fun z
  => { z with mp := { z.mp with cmd := some (⟨⟨15, [0x80000050, 7, 0x100, 2, 0x1000, 0]⟩, 5, [0], [], some 1⟩ : MpCmd) } }) (edit (fun z =>
  { z with otp := { z.otp with lenient := (List.range 16).map (fun e => (0x3F0 + e, 1)) } }) (put [(Fld.PF_PROG_CTL_BUSY, 1)] (warm on)))))
def s512 : State := ((edit (fun z => { z with otp := { z.otp with prog := some (⟨0x100, 9, false, true, none⟩ : OtpWord) } }) (edit (fun z
  => { z with mp := { z.mp with cmd := some (⟨⟨15, [0x80000050, 7, 0x100, 2, 0x1000, 0]⟩, 5, [0], [], some 1⟩ : MpCmd) } }) (edit (fun z =>
  { z with otp := { z.otp with lenient := (List.range 16).map (fun e => (0x3F0 + e, 1)) } }) (put [(Fld.PF_PROG_CTL_BUSY, 1)] (warm
  on))))).verifyWord (⟨0x100, 9, false, true, none⟩ : OtpWord) (1 : BitVec 64).toNat (9 : BitVec 64).toNat).2
def b144 : State := (edit (fun z => { z with mp := { z.mp with cmd := some (⟨⟨15, [0x80000050, 7, 0x100, 2, 0x1000, 0]⟩, 5, [0], [], some 1⟩ : MpCmd) } })
  (put [(Fld.PF_PROG_CTL_BUSY, 1)] (warm on)))
def s513 : State := (edit (fun z => { z with otp := { z.otp with prog := some (⟨0x100, 9, true, true, none⟩ : OtpWord) } }) b144)
def s514 : State := ((edit (fun z => { z with otp := { z.otp with prog := some (⟨0x100, 9, true, true, none⟩ : OtpWord) } })
  b144).verifyWord (⟨0x100, 9, true, true, none⟩ : OtpWord) (1 : BitVec 64).toNat (9 : BitVec 64).toNat).2
def b145 : State := (edit (fun z => { z with otp := { z.otp with prog := some (⟨0x100, 9, false, true, none⟩ : OtpWord) } }) b144)
def s515 : State := b145
def s516 : State := (b145.verifyWord (⟨0x100, 9, false, true, none⟩ : OtpWord) (9 : BitVec 64).toNat (9 : BitVec 64).toNat).2
def b146 : State := (put [(Fld.PF_STAT_VQPS_OK, 1)] (put [(Fld.PF_PROG_CTL_BUSY, 1)] (warm on)))
def b147 : State := (edit (fun z => { z with otp := { z.otp with core := true } }) b146)
def b148 : State := (edit (fun z => { z with mp := { z.mp with cmd := some (⟨⟨15, [0x80000050, 7, 0x100, 2, 0x1000, 0]⟩, 5, [0, 0x101 * 2 ^ 64 + 7], [], some 1⟩ : MpCmd) } })
  b147)
def b149 : State := (edit (fun z => { z with otp := { z.otp with prog := some (⟨0x100, 9, false, true, none⟩ : OtpWord) } }) b148)
def s517 : State := b149
def s518 : State := (b149.verifyWord (⟨0x100, 9, false, true, none⟩ : OtpWord) (9 : BitVec 64).toNat (9 : BitVec 64).toNat).2
def s519 : State := (edit (fun z => { z with otp := { z.otp with prog := some (⟨0x100, 9, false, true, none⟩ : OtpWord) } }) (edit (fun z
  => { z with mp := { z.mp with cmd := some (⟨⟨15, [0x80000050, 7, 0x100, 2, 0x1000, 0]⟩, 5, [0, 0x101 * 2 ^ 64 + 7], [], some 1⟩ : MpCmd) } })
  (put [(Fld.PF_PROG_CTL_BUSY, 1)] (warm on))))
def s520 : State := ((edit (fun z => { z with otp := { z.otp with prog := some (⟨0x100, 9, false, true, none⟩ : OtpWord) } }) (edit (fun z
  => { z with mp := { z.mp with cmd := some (⟨⟨15, [0x80000050, 7, 0x100, 2, 0x1000, 0]⟩, 5, [0, 0x101 * 2 ^ 64 + 7], [], some 1⟩ : MpCmd) } })
  (put [(Fld.PF_PROG_CTL_BUSY, 1)] (warm on)))).verifyWord (⟨0x100, 9, false, true, none⟩ : OtpWord) (9 : BitVec 64).toNat (9 : BitVec
  64).toNat).2
def b150 : State := (edit (fun z => { z with mp := { z.mp with cmd := some (⟨⟨15, [0x80000051, 7, 0x101]⟩, 0, [0], [], some 1⟩ : MpCmd) } })
  (put [(Fld.PF_PROG_CTL_BUSY, 1)] (warm on)))
def s521 : State := (edit (fun z => { z with otp := { z.otp with prog := some (⟨0x3EF, 0x010101, false, true, none⟩ : OtpWord) } }) b150)
def s522 : State := ((edit (fun z => { z with otp := { z.otp with prog := some (⟨0x3EF, 0x010101, false, true, none⟩ : OtpWord) } })
  b150).verifyWord (⟨0x3EF, 0x010101, false, true, none⟩ : OtpWord) (0x10101 : BitVec 64).toNat (9 : BitVec 64).toNat).2
def b151 : State := (edit (fun z => { z with otp := { z.otp with strict := [], lenient := [] } }) (put [(Fld.PF_PROG_CTL_BUSY, 1)] (warm
  on)))
def b152 : State := (edit (fun z => { z with mp := { z.mp with cmd := some (⟨⟨15, [0x80000051, 7, 0x102]⟩, 0, [0], [], some 1⟩ : MpCmd) } })
  b151)
def s523 : State := (edit (fun z => { z with otp := { z.otp with prog := some (⟨0x3EF, 0x020202, false, true, none⟩ : OtpWord) } }) b152)
def s524 : State := ((edit (fun z => { z with otp := { z.otp with prog := some (⟨0x3EF, 0x020202, false, true, none⟩ : OtpWord) } })
  b152).verifyWord (⟨0x3EF, 0x020202, false, true, none⟩ : OtpWord) (0 : BitVec 64).toNat (9 : BitVec 64).toNat).2
def b153 : State := (edit (fun z => { z with mp := { z.mp with cmd := some (⟨⟨15, [0x80000060, 7, 0x00020123, 0, 0x1000, 0]⟩, 0, flashWorks, [1, 2], some 2⟩ : MpCmd) } })
  (warm on))
def b154 : State := (set [(Reg.OWN 2, 0x00020005)] b153)
def s525 : State := b154
def s526 : State := (wait 0 ⟨15, [0x80000060, 7, 0x00ED0123, 0, 0x1000, 0]⟩ (warm on))
def b155 : State := (wait 0 ⟨15, [0x80000060, 7, 0x00020123, 0, 0x1000, 0]⟩ (warm on))
def s527 : State := (b155.feed false 0x1000 2 [] ⟨[1], true⟩).2
def s528 : State := b155
def s529 : State := (b155.feed false 0x1000 2 [] ⟨[1], false⟩).2
def b156 : State := (wait 0 ⟨15, [0x80000060, 7, 0x00020123, 0, 0x1000, 0]⟩ (set [(Reg.OWN 2, 0x00010005)] (warm on)))
def s530 : State := (b156.feed false 0x1000 2 [] ⟨[1, 2], false⟩).2
def s531 : State := b156
def b157 : State := (wait 0 ⟨15, [0x80000060, 7, 0x00020123, 0, 0x1000, 0]⟩ on)
def s532 : State := (b157.feed false 0x1000 2 [] ⟨[1, 2], false⟩).2
def s533 : State := b157
def s534 : State := (b155.feed false 0x1000 2 [] ⟨[1, 2], false⟩).2
def s535 : State := (wait 0 ⟨15, [0x80000061, 7, 0, 0, 0x1000, 0]⟩ on)
def s536 : State := (wait 0 ⟨15, [0x80000061, 7, 0x123, 0, 0x1000, 0]⟩ on)
def s537 : State := (wait 0 ⟨15, [0x80000061, 7, 0x123, 0, 0x1000, 0]⟩ keys)
def s538 : State := (wait 0 ⟨15, [0x80000061, 7, 0x80000123, 0, 0x1000, 0]⟩ keys)
def s539 : State := (put [(domField .service, 0)] on)
def b158 : State := (slot 0 (slot 1 (put [(Fld.PF_REG_VALID 3, 1)] (warm on))))
def b159 : State := (edit (fun z => { z with svc := { z.svc with spoiled := some 1 } }) b158)
def s540 : State := b159
def b160 : State := (edit (fun z => { z with svc := { z.svc with session := some ({ src := 0x41, tunnel := 0, num := 5, last := 0, phase := 1, header := [], next := 0, lastIx := none, erased := [] } : Session) } })
  on)
def s541 : State := b160
def b161 : State := (record 0 1 0xFF (put [(Fld.PF_REG_VALID 3, 1)] (warm on)))
def b162 : State := (edit (fun z => { z with svc := { z.svc with session := some ({ src := 3, tunnel := 0, num := 5, last := 0, phase := 2, header := [], next := 1, lastIx := none, erased := [] } : Session) } })
  b161)
def s542 : State := b162
def b163 : State := (edit (fun z => { z with svc := { z.svc with session := some ({ src := 3, tunnel := 0, num := 5, last := 0, phase := 1, header := [], next := 0, lastIx := none, erased := [] } : Session) } })
  (put [(Fld.PF_REG_VALID 3, 1)] (warm on)))
def s543 : State := b163
def s544 : State := (edit (fun z => { z with svc := { z.svc with session := some ({ src := 3, tunnel := 0, num := 5, last := 0, phase := 1, header := [], next := 1, lastIx := none, erased := [] } : Session) } })
  b161)
def s545 : State := (edit (fun z => { z with svc := { z.svc with session := some ({ src := 3, tunnel := 0, num := 5, last := 0, phase := 2, header := [], next := 0, lastIx := none, erased := [] } : Session) } })
  (slot 1 (record 0 1 0xFF (warm on))))
def b164 : State := (put [(Fld.OWN_HOLDER 2, 2)] (slot 1 (record 0 1 0xFF (warm on))))
def b165 : State := (edit (fun z => { z with svc := { z.svc with session := some ({ src := 3, tunnel := 0, num := 5, last := 0, phase := 3, header := [], next := 0, lastIx := none, erased := [] } : Session) } })
  b164)
def s546 : State := b165
def s547 : State := (edit (fun z => { z with svc := { z.svc with session := some ({ src := 3, tunnel := 0, num := 5, last := 0, phase := 2, header := [], next := 0, lastIx := none, erased := [] } : Session) } })
  b164)
def b166 : State := (put [(Fld.PCR_SUP_STAT_WARN, 1)] (slot 1 (record 0 1 0xFF (warm on))))
def b167 : State := (put [(Fld.OWN_HOLDER 2, 2)] b166)
def b168 : State := (edit (fun z => { z with svc := { z.svc with session := some ({ src := 3, tunnel := 0, num := 5, last := 0, phase := 3, header := [], next := 0, lastIx := none, erased := [] } : Session) } })
  b167)
def s548 : State := b168
def b169 : State := (edit (fun z => { z with svc := { z.svc with session := some ({ src := 3, tunnel := 0, num := 5, last := 0, phase := 1, header := [], next := 0, lastIx := none, erased := [] } : Session) } })
  b164)
def s549 : State := b169
def b170 : State := (edit (fun z => { z with svc := { z.svc with session := some ({ src := 3, tunnel := 0, num := 5, last := 0, phase := 3, header := [], next := 0, lastIx := none, erased := [] } : Session) } })
  (slot 1 (record 0 1 0xFF (warm on))))
def s550 : State := (edit (fun z => { z with tb := 240000000000 }) b170)
def s551 : State := (edit (fun z => { z with tb := 239999999999 }) b170)
def s552 : State := (put [(Fld.OWN_HOLDER 31, 3), (Fld.SVC_STAT_USB_CFG, 1)] (edit (fun z =>
  { z with svc := { z.svc with session := some ({ src := 3, tunnel := 0, num := 5, last := 0, phase := 1, header := [], next := 0, lastIx := none, erased := [] } : Session) } })
  (slot 1 (record 0 1 0xFF (warm on)))))
def s553 : State := (edit (fun z => { z with svc := { z.svc with session := some ({ src := 0x7F, tunnel := 2, num := 5, last := 0, phase := 1, header := [], next := 0, lastIx := none, erased := [] } : Session) } })
  (edit (fun z => { z with ring := { z.ring with sessions := [(⟨63, 2, 5, 5, [], [], [1, 2]⟩ : TunnelSession)] } }) on))
def s554 : State := (edit (fun z => { z with ring := { z.ring with sessions := [(⟨63, 2, 5, 5, [], [], [0xB7]⟩ : TunnelSession)] } }) on)
def s555 : State := (edit (fun z => { z with svc := { z.svc with session := some ({ src := 3, tunnel := 0, num := 5, last := 0, phase := 1, header := [], next := 0, lastIx := none, erased := [] } : Session) } })
  on)
def s556 : State := (edit (fun z => { z with svc := { z.svc with session := some ({ src := 3, tunnel := 0, num := 5, last := 0, phase := 1, header := [], next := 0, lastIx := none, erased := [] } : Session) } })
  (warm on))
def b171 : State := (edit (fun z => { z with svc := { z.svc with session := some ({ src := 3, tunnel := 0, num := 5, last := 0, phase := 1, header := [], next := 0, lastIx := none, erased := [] } : Session) } })
  (slot 1 (put [(Fld.PF_REG_VALID 3, 1)] (warm on))))
def s557 : State := b171
def s558 : State := (edit (fun z => { z with svc := { z.svc with session := some ({ src := 3, tunnel := 0, num := 5, last := 0, phase := 2, header := image, next := 1, lastIx := some 0, erased := [] } : Session) } })
  (put [(Fld.PF_REG_VALID 3, 1)] (warm on)))
def b172 : State := (edit (fun z => { z with svc := { z.svc with session := some ({ src := 3, tunnel := 0, num := 5, last := 0, phase := 2, header := image, next := 1, lastIx := none, erased := [] } : Session) } })
  (put [(Fld.PF_REG_VALID 3, 1)] (warm on)))
def s559 : State := b172
def s560 : State := (edit (fun z => { z with svc := { z.svc with session := some ({ src := 3, tunnel := 0, num := 5, last := 0, phase := 2, header := image, next := 0, lastIx := none, erased := [] } : Session) } })
  on)
def s561 : State := (edit (fun z => { z with svc := { z.svc with session := some ({ src := 3, tunnel := 0, num := 5, last := 0, phase := 2, header := image, next := 0, lastIx := none, erased := [] } : Session) } })
  (slot 1 (put [(Fld.PF_REG_VALID 3, 1)] (warm on))))
def s562 : State := (edit (fun z => { z with svc := { z.svc with session := some ({ src := 3, tunnel := 0, num := 5, last := 0, phase := 2, header := image, next := 0, lastIx := none, erased := [] } : Session) } })
  (put [(Fld.PF_REG_VALID 3, 1)] (warm on)))
def s563 : State := (edit (fun z => { z with svc := { z.svc with session := some ({ src := 3, tunnel := 0, num := 5, last := 0, phase := 2, header := (image.set 144 0), next := 1, lastIx := none, erased := [] } : Session) } })
  (put [(Fld.PF_REG_VALID 3, 1)] (warm on)))
def s564 : State := (edit (fun z => { z with svc := { z.svc with session := some ({ src := 3, tunnel := 0, num := 5, last := 0, phase := 2, header := image, next := 1, lastIx := none, erased := [] } : Session) } })
  (put [(Fld.PCR_SUP_STAT_WARN, 1)] (put [(Fld.PF_REG_VALID 3, 1)] (warm on))))
def s565 : State := (edit (fun z => { z with svc := { z.svc with session := some ({ src := 3, tunnel := 0, num := 5, last := 0, phase := 1, header := [], next := 0, lastIx := none, erased := [] } : Session) } })
  (badSlot (put [(Fld.PF_REG_VALID 3, 1)] (warm on))))
def s566 : State := (edit (fun z => { z with svc := { z.svc with session := some ({ src := 3, tunnel := 0, num := 5, last := 0, phase := 3, header := image, next := 0, lastIx := none, erased := [] } : Session) } })
  (put [(Fld.PCR_SUP_STAT_WARN, 1)] b161))
def s567 : State := (edit (fun z => { z with svc := { z.svc with session := some ({ src := 3, tunnel := 0, num := 5, last := 0, phase := 3, header := image, next := 0, lastIx := none, erased := [] } : Session) } })
  (record 0 2 0 (put [(Fld.PF_REG_VALID 3, 1)] (warm on))))
def s568 : State := (edit (fun z => { z with svc := { z.svc with session := some ({ src := 3, tunnel := 0, num := 5, last := 0, phase := 3, header := image, next := 0, lastIx := none, erased := [] } : Session) } })
  b161)
def s569 : State := (edit (fun z => { z with svc := { z.svc with session := some ({ src := 3, tunnel := 0, num := 5, last := 0, phase := 3, header := image, next := 0, lastIx := none, erased := [] } : Session) } })
  (edit (fun z => { z with mp := { z.mp with running := false, rescue := true } }) (put [(Fld.PF_REG_VALID 3, 1)] (warm on))))
def s570 : State := (edit (fun z => { z with svc := { z.svc with session := some ({ src := 3, tunnel := 0, num := 5, last := 0, phase := 1, header := [], next := 0, lastIx := none, erased := [] } : Session) } })
  (put [(Fld.PCR_SUP_STAT_WARN, 1)] b161))
def s571 : State := (edit (fun z => { z with svc := { z.svc with session := some ({ src := 3, tunnel := 0, num := 5, last := 0, phase := 1, header := [], next := 0, lastIx := none, erased := [] } : Session) } })
  b161)
def s572 : State := (edit (fun z => { z with svc := { z.svc with session := some ({ src := 3, tunnel := 0, num := 5, last := 0, phase := 1, header := [], next := 0, lastIx := none, erased := [] } : Session) } })
  (record 0 2 0 (put [(Fld.PF_REG_VALID 3, 1)] (warm on))))
def s573 : State := (edit (fun z => { z with svc := { z.svc with session := some ({ src := 3, tunnel := 0, num := 5, last := 0, phase := 1, header := [], next := 0, lastIx := none, erased := [] } : Session) } })
  (record 0 2 1 (put [(Fld.PF_REG_VALID 3, 1)] (warm on))))
def s574 : State := ((put [(Fld.PF_REG_VALID 3, 1)] (warm on)).norProgram (slotBase 0 + 16) [4])
def s575 : State := (edit (fun z => { z with svc := { z.svc with arbDue := true } }) (edit (fun z =>
  { z with otp := { z.otp with strict := [(0x061, 0xF)], lenient := [(0x061, 0xF)] } }) ((put [(Fld.PF_REG_VALID 3, 1)] (warm
  on)).norProgram (slotBase 0 + 16) [4])))
def b173 : State := (edit (fun z => { z with svc := { z.svc with arbDue := true } }) ((put [(Fld.PF_REG_VALID 3, 1)] (warm on)).norProgram
  (slotBase 0 + 16) [4]))
def s576 : State := b173
def s577 : State := (edit (fun z => { z with mp := { z.mp with running := false } }) (slot 0 b161))
def s578 : State := (edit (fun z => { z with mp := { z.mp with running := false } }) (slot 0 (record 0 2 0 (put [(Fld.PF_REG_VALID 3, 1)]
  (warm on)))))
def s579 : State := (edit (fun z => { z with mp := { z.mp with running := false } }) (slot 0 (record 0 2 1 (put [(Fld.PF_REG_VALID 3, 1)]
  (warm on)))))
def s580 : State := (edit (fun z => { z with mp := { z.mp with running := false } }) (slot 0 (State.writeRecord (put [(Fld.PF_REG_VALID 3,
  1)] (warm on)) ⟨0, 1, 2, 0, 0, 0, 0, 0, 0⟩)))
def s581 : State := (edit (fun z => { z with mp := { z.mp with running := false } }) (id (State.writeRecord (put [(Fld.PF_REG_VALID 3, 1)]
  (warm on)) ⟨0, 1, 2, 0, 0, 0, 0, 0, 0⟩)))
def s582 : State := (edit (fun z => { z with mp := { z.mp with running := false } }) (slot 0 (put [(Fld.PF_REG_VALID 3, 1)] (warm on))))
def s583 : State := (edit (fun z => { z with mp := { z.mp with running := false } }) (put [(Fld.PF_REG_VALID 3, 1)] (warm on)))
def s584 : State := (edit (fun z => { z with mp := { z.mp with running := false } }) (record 0 1 0xFF (edit (fun z =>
  { z with mp := { z.mp with cmd := some ⟨⟨15, [0x80000060, 7, 0x00020123, 0, 0x1000, 0]⟩, 0, [], [], some 2⟩ } }) (put [(Fld.PF_REG_VALID
  3, 1)] (warm on)))))
def b174 : State := (edit (fun z => { z with mp := { z.mp with cmd := some ⟨⟨15, [0x80000060, 7, 0x00020123, 0, 0x1000, 0]⟩, 0, [], [], some 2⟩ } })
  b161)
def b175 : State := (put [(Fld.OWN_HOLDER 31, 2), (Fld.OWN_HOLDER 2, 2)] b174)
def b176 : State := (edit (fun z => { z with svc := { z.svc with session := some ({ src := 3, tunnel := 0, num := 5, last := 0, phase := 3, header := [], next := 0, lastIx := none, erased := [] } : Session) } })
  b175)
def b177 : State := (edit (fun z => { z with otp := { z.otp with prog := some (⟨0x100, 9, false, true, none⟩ : OtpWord) } }) b176)
def s585 : State := b177
def s586 : State := (edit (fun z => { z with tb := 240000000000 }) (put [(Fld.SVC_UPD_CFG_TRIAL_TMO, 1)] (record 0 2 0 (put
  [(Fld.PF_REG_VALID 3, 1)] (warm on)))))
def s587 : State := (edit (fun z => { z with tb := 239999999999 }) (put [(Fld.SVC_UPD_CFG_TRIAL_TMO, 1)] (record 0 2 0 (put
  [(Fld.PF_REG_VALID 3, 1)] (warm on)))))
def s588 : State := (put [(Fld.PF_REG_VALID 3, 1)] (warm on))
def s589 : State := (edit (fun z => { z with tb := 7999999 }) (put [(Fld.PCR_WDOG_EN, 1), (Fld.PCR_WDOG_TMO, 2)] (put [(Fld.PF_REG_VALID 3,
  1)] (warm on))))
def s590 : State := (edit (fun z => { z with tb := 8000000 }) (put [(Fld.PCR_WDOG_EN, 1), (Fld.PCR_WDOG_TMO, 2)] b176))
def s591 : State := (wait 0 ⟨15, [0x80000070, 7, 0x00E]⟩ on)
def s592 : State := (wait 0 ⟨15, [0x80000070, 7, 0x000]⟩ on)
def s593 : State := (wait 0 ⟨15, [0x80000070, 7, 0x106]⟩ (put [(domField (domainOf 6), 3)] on))
def s594 : State := (wait 0 ⟨15, [0x80000070, 7, 0x007]⟩ (put [(Fld.CTX_STATE_STATE 254, 1)] on))
def s595 : State := (wait 0 ⟨15, [0x80000070, 7, 0x105]⟩ (put [(Fld.OWN_HOLDER 7, 1)] on))
def s596 : State := (wait 0 ⟨15, [0x80000070, 7, 0x105]⟩ on)
def s597 : State := (wait 0 ⟨15, [0x80000070, 7, 0x105]⟩ (put [(domField (domainOf 5), 0)] on))
def s598 : State := (wait 0 ⟨15, [0x80000070, 7, 0x106]⟩ (edit (fun z => { z with pcr := { z.pcr with dieShut := true } }) (put [(domField
  (domainOf 6), 0)] on)))
def s599 : State := (wait 0 ⟨15, [0x80000070, 7, 0x005]⟩ (put [(domField (domainOf 5), 0)] on))
def s600 : State := (wait 0 ⟨15, [0x80000070, 7, 0x002]⟩ on)
def s601 : State := (put [(domField (domainOf 0), 1)] on)
def s602 : State := (put [(domField (domainOf 5), 1)] on)
def s603 : State := (put [(domField (domainOf 6), 1)] on)
def s604 : State := (put [(Fld.OWN_HOLDER 7, 2)] (edit (fun z =>
  { z with mp := { z.mp with cmd := some ⟨⟨15, [0x80000070, 7, 0x005]⟩, 0, [], [], some 7⟩ } }) (put [(domField (domainOf 5), 0)] on)))
def s605 : State := (put [(domField (domainOf 5), 0)] on)
def b178 : State := (put [(Fld.CRV_STAT_SEQ_OK, 0), (Fld.TIL_STAT_SEQ_OK, 0)] on)
def s606 : State := b178
def s607 : State := (put [(Fld.ESP_STAT_DS0_INIT, 1)] on)
def s608 : State := (put [(Fld.ESP_STAT_DS1_INIT, 1)] on)
def b179 : State := (edit (fun z => { z with mp := { z.mp with cmd := some (⟨⟨15, [0x80000071, 7, 0xF00]⟩, 0, flashWorks, [], some 7⟩ : MpCmd) } })
  (warm on))
def b180 : State := (put [(Fld.OWN_HOLDER 7, 2)] b179)
def s609 : State := b180
def s610 : State := (wait 0 ⟨15, [0x80000071, 7, 0x1000]⟩ (warm on))
def s611 : State := (wait 0 ⟨15, [0x80000071, 7, 0xF00]⟩ (set [(Reg.PCR_RET_PORT, 0x8000)] (warm on)))
def s612 : State := (wait 0 ⟨15, [0x80000071, 7, 0xF00]⟩ (put [(Fld.OWN_HOLDER 7, 1)] (warm on)))
def b181 : State := (wait 0 ⟨15, [0x80000071, 7, 0xF00]⟩ (put [(Fld.PORT_CFG_EN 15, 1)] (warm on)))
def s613 : State := b181
def s614 : State := (wait 0 ⟨15, [0x80000071, 7, 0xF00]⟩ (put [(Fld.PORT_CFG_EN 15, 1)] on))
def s615 : State := (wait 0 ⟨15, [0x80000071, 7, 0xFE01]⟩ (put [(Fld.CTX_STATE_STATE 254, 1)] (warm on)))
def s616 : State := (wait 0 ⟨15, [0x80000071, 7, 0x3F02]⟩ (warm on))
def s617 : State := (edit (fun z => { z with tb := 240000000000 }) (edit (fun z => { z with svc := { z.svc with recorded := false } }) on))
def b182 : State := (edit (fun z => { z with svc := { z.svc with recorded := false } }) (warm on))
def s618 : State := (edit (fun z => { z with tb := 240000000000 }) b182)
def b183 : State := (edit (fun z => { z with pcr := { z.pcr with warnAt := [(12, some 5)] } }) (set [(Reg.PCR_SUP_STAT, 4096)] on))
def s619 : State := b183
def b184 : State := (edit (fun z => { z with hf := { z.hf with active := true } }) on)
def s620 : State := b184
def s621 : State := (put [(Fld.PCR_SUP_STAT_LONG, 1)] b183)
def s622 : State := (edit (fun z => { z with hf := { z.hf with active := true } }) b183)
def b185 : State := (put [(Fld.CTX_STATE_STATE 254, 2)] b183)
def s623 : State := (edit (fun z => { z with tb := 8000005 }) b185)
def s624 : State := (edit (fun z => { z with hf := { z.hf with active := true } }) (edit (fun z => { z with tb := 8000005 }) b185))
def s625 : State := (put [(Fld.PF_STAT_LOADED, 1), (Fld.PCR_AVS_CODE, 20), (Fld.PCR_AVS_REQ, 25)] on)
def s626 : State := (edit (fun z => { z with tb := 40000 }) (put [(Fld.PF_STAT_LOADED, 1), (Fld.PCR_AVS_CODE, 3), (Fld.PCR_AVS_REQ, 25)]
  on))
def s627 : State := (put [(Fld.PCR_PLL_STAT_RING_REF_OK, 1)] b77)
def s628 : State := (put [(domField .ring, 0), (Fld.PCR_PLL_STAT_RING_REF_OK, 1)] on)
def s629 : State := (set [(Reg.PCR_PLL_STAT, 0x7FFFFFF)] on)
def b186 : State := (edit (fun z => { z with pcr := { z.pcr with dieShut := true } }) on)
def s630 : State := b186
def s631 : State := (put [(domField .ds1, 0)] on)
def b187 : State := (edit (fun z => { z with pcr := { z.pcr with start := some [30] } }) on)
def s632 : State := b187
def s633 : State := (edit (fun z => { z with pcr := { z.pcr with start := some [29, 31], dieShut := true } }) (State.reset))
def b188 : State := (edit (fun z => z.setPort 15 { z.getPort 15 with pulse := some ⟨1, 2, 254⟩ }) on)
def s634 : State := b188
def b189 : State := (edit (fun z => { z with hf := { z.hf with active := true, pinLow := true } }) on)
def s635 : State := b189
def s636 : State := (edit (fun z => { z with hf := { z.hf with active := true, pinLow := true } }) (put [(Fld.HF_STAT_CAUSE, 1),
  (Fld.HF_STAT_FROZEN, 1), (Fld.CTX_STATE_STATE 254, 2)] on))
def s637 : State := (edit (fun z => { z with tb := 4000000 }) (edit (fun z => { z with hf := { z.hf with active := true, frozen := 0 } })
  (put [(Fld.HF_STAT_CAUSE, 2), (Fld.HF_STAT_FROZEN, 1), (Fld.HF_CFG_REL_TMO, 1)] on)))
def s638 : State := (edit (fun z => { z with hf := { z.hf with active := true } }) (put [(Fld.HF_STAT_CAUSE, 1), (Fld.HF_STAT_FROZEN, 1),
  (Fld.CTX_STATE_STATE 254, 2)] on))
def b190 : State := (put [(Fld.HF_STAT_CAUSE, 1), (Fld.HF_STAT_FROZEN, 1), (Fld.CTX_STATE_STATE 254, 2), (Fld.AX_STAT_STATE 7, 3),
  (Fld.AX_STAT_POS_VALID 7, 1)] b77)
def b191 : State := (edit (fun z => { z with hf := { z.hf with active := true, perst := true } }) b190)
def s639 : State := b191
def s640 : State := b191.release
def b192 : State := (edit (fun z => { z with tap := { z.tap with sel := 0 } }) on)
def s641 : State := b192
def s642 : State := (edit (fun z => { z with tap := { z.tap with sel := 26 } }) on)
def s643 : State := (edit (fun z => { z with tap := { z.tap with sel := 27 } }) on)
def s644 : State := (edit (fun z => { z with tap := { z.tap with sel := 26 } }) (after (.islandStopped 26) b184))
def s645 : State := (after (.islandStopped 4) b184)
def s646 : State := (after (.islandStopped 1) b184)
def s647 : State := (after (.islandStopped 6) b184)
def s648 : State := (on.writeCode .host (Reg.HOST_RBASE_LO 50) 0x5000)
def s649 : State := (after (.registerRead .host ⟨.device, Reg.HOST_RBASE_LO 50⟩ 4) (put [(Fld.HOST_RBASE_HI_BASE 50, 9)] on))
def s650 : State := (edit (fun z => { z with bar := { z.bar with used := true, fresh := [] } }) on)
def s651 : State := { on with units := { on.units with ports := 0x7FFF } }
def b193 : State := (edit (fun z => { z with host := { z.host with perstLow := true } }) on)
def s652 : State := b193
def s653 : State := (put [(Fld.SVC_MPWIN_PAGE, 3)] on)
def s654 : State := (edit (fun z => { z with mp := { z.mp with running := false, rescue := false } }) on)
def s655 : State := (put [(domField .mgmt, 0)] on)
def s656 : State := on.idleCycle
def s657 : State := (edit (fun z => { z with pending := [.nop 0] }) on)
def s658 : State := (after (.nop 0) on)
def s659 : State := (set [(Reg.AX_XSET 7, 77)] b91)
def s660 : State := (set [(Reg.AX_XSET 7, 77)] b99)

/-! ## What the statements suppose is met -/

theorem witness_StepRunsFrontCommand :
    (∃ (s : State) (c : Instr) (rest : List Instr), s.pending = c :: rest) ∧
    (∃ (s : State), s.pending = []) :=
  ⟨⟨s1, .bypass, [.highz], by decide +kernel⟩,
   ⟨on, by decide +kernel⟩⟩

theorem witness_RingSetup :
    (∃ (m : Master) (k : Fin 51) (v : Word) (s : State), s.reaches (Reg.HOST_RCTL k) ∧ s.calm ∧ s.on (Fld.HOST_RCTL_ENABLE k) = false ∧
      s.rd (Fld.HOST_RSTAT_STATE k) = 0 ∧ s.startable k (bitsOf v 4 0) ∧ (k.val ≠ 50 ∨ s.late = [])) ∧
    (∃ (m : Master) (k : Fin 51) (v : Word) (s : State), s.reaches (Reg.HOST_RCTL k) ∧ s.calm ∧ s.on (Fld.HOST_RCTL_ENABLE k) = false ∧
      s.rd (Fld.HOST_RSTAT_STATE k) = 0 ∧ s.startable k (bitsOf v 4 0) ∧ 16 < k.val ∧ k.val < 49) ∧
    (∃ (m : Master) (k : Fin 51) (v : Word) (s : State), s.reaches (Reg.HOST_RCTL k) ∧ s.calm ∧ s.on (Fld.HOST_RCTL_ENABLE k) = false ∧
      s.rd (Fld.HOST_RSTAT_STATE k) = 0 ∧ ¬ s.startable k (bitsOf v 4 0)) ∧
    (∃ (m : Master) (k : Fin 51) (v : Word) (s : State), s.reaches (Reg.HOST_RCTL k) ∧ s.calm ∧ s.on (Fld.HOST_RCTL_ENABLE k) = false ∧
      s.rd (Fld.HOST_RSTAT_STATE k) ≠ 0) ∧
    (∃ (m : Master) (k : Fin 51) (v : Word) (s : State), s.reaches (Reg.HOST_RCTL k) ∧ s.calm ∧ s.on (Fld.HOST_RCTL_ENABLE k) = true ∧
      bitsOf v 4 0 = s.rd (Fld.HOST_RCTL_SIZE_LOG2 k)) ∧
    (∃ (m : Master) (k : Fin 51) (v : Word) (s : State), s.reaches (Reg.HOST_RCTL k) ∧ s.calm ∧ s.on (Fld.HOST_RCTL_ENABLE k) = true ∧
      bitsOf v 4 0 ≠ s.rd (Fld.HOST_RCTL_SIZE_LOG2 k)) ∧
    (∃ (m : Master) (k : Fin 51) (v : Word) (s : State), s.reaches (Reg.HOST_RCTL k) ∧ s.calm ∧ s.on (Fld.HOST_RCTL_ENABLE k) = true ∧
      bitsOf v 4 0 = s.rd (Fld.HOST_RCTL_SIZE_LOG2 k)) ∧
    (∃ (m : Master) (k : Fin 51) (v : Word) (s : State), s.reaches (Reg.HOST_RCTL k) ∧ s.calm ∧ s.on (Fld.HOST_RCTL_ENABLE k) = true ∧
      bitsOf v 4 0 ≠ s.rd (Fld.HOST_RCTL_SIZE_LOG2 k)) ∧
    (∃ (m : Master) (k : Fin 51) (v : Word) (s : State), s.reaches (Reg.HOST_RCTL k) ∧ s.calm ∧ s.on (Fld.HOST_RCTL_ENABLE k) = false) ∧
    (∃ (k : Fin 51) (s : State), s.calm ∧ s.rd (Fld.HOST_RSTAT_STATE k) = 2 ∧ (s.getRing k).outstanding = 0 ∧ (s.getRing k).enableHeld =
      false) ∧
    (∃ (k : Fin 51) (s : State), s.calm ∧ s.rd (Fld.HOST_RSTAT_STATE k) = 2 ∧ (s.getRing k).outstanding = 0 ∧ (s.getRing k).enableHeld =
      true ∧ s.startable k (s.rd (Fld.HOST_RCTL_SIZE_LOG2 k)) ∧ (k.val ≠ 50 ∨ s.late = [])) ∧
    (∃ (k : Fin 51) (s : State), s.calm ∧ (s.rd (Fld.HOST_RSTAT_STATE k) ≠ 2 ∨ (s.getRing k).outstanding ≠ 0)) :=
  ⟨⟨.service, 50, 0x00030010, s2, reaches_of (by decide +kernel), by unfold State.calm State.startable; decide +kernel⟩,
   ⟨.service, 48, 0x0003FF04, s3, reaches_of (by decide +kernel), by unfold State.calm State.startable; decide +kernel⟩,
   ⟨.service, 50, 0x00030011, s2, reaches_of (by decide +kernel), by unfold State.calm State.startable; decide +kernel⟩,
   ⟨.service, 50, 5, s4, reaches_of (by decide +kernel), by unfold State.calm; decide +kernel⟩,
   ⟨.service, 50, 0x003FFF04, on, reaches_of (by decide +kernel), by unfold State.calm; decide +kernel⟩,
   ⟨.service, 49, 0x003FFF05, on, reaches_of (by decide +kernel), by unfold State.calm; decide +kernel⟩,
   ⟨.service, 50, 0x04, on, reaches_of (by decide +kernel), by unfold State.calm; decide +kernel⟩,
   ⟨.service, 50, 0x05, on, reaches_of (by decide +kernel), by unfold State.calm; decide +kernel⟩,
   ⟨.service, 50, 0x3F0005, s5, reaches_of (by decide +kernel), by unfold State.calm; decide +kernel⟩,
   ⟨50, s6, by unfold State.calm; decide +kernel⟩,
   ⟨50, s7, by unfold State.calm State.startable; decide +kernel⟩,
   ⟨50, on, by unfold State.calm; decide +kernel⟩⟩

theorem witness_PositionsAndDoorbells :
    (∃ (m : Master) (r : Fin 49) (v : Word) (s : State), s.reaches (Reg.DOORBELL r) ∧ s.calm ∧ s.on (Fld.HOST_RCTL_ENABLE r) = true ∧
      bitsOf v 15 0 < s.ringSize r ∧ entriesFrom (s.ringSize r) (s.cons r) (linearOf (s.ringSize r) v) ≤ s.ringSize r ∧ 16 < r.val) ∧
    (∃ (m : Master) (r : Fin 49) (v : Word) (s : State), s.reaches (Reg.DOORBELL r) ∧ s.calm ∧ s.on (Fld.HOST_RCTL_ENABLE r) = true ∧
      bitsOf v 15 0 < s.ringSize r ∧ entriesFrom (s.ringSize r) (s.cons r) (linearOf (s.ringSize r) v) ≤ s.ringSize r ∧ r.val ≤ 16) ∧
    (∃ (m : Master) (q : EntryRing) (v : Word) (s : State), s.reaches (Reg.HOST_RCONS (entryGroup q)) ∧ s.calm ∧ bitsOf v 15 0 < s.ringSize
      (entryGroup q) ∧ entriesFrom (s.ringSize (entryGroup q)) (linearOf (s.ringSize (entryGroup q)) v) (s.prod (entryGroup q)) ≤
      s.ringSize (entryGroup q) ∧ entriesFrom (s.ringSize (entryGroup q)) (s.cons (entryGroup q)) (linearOf (s.ringSize (entryGroup q)) v)
      ≤ entriesFrom (s.ringSize (entryGroup q)) (s.cons (entryGroup q)) (s.prod (entryGroup q))) ∧
    (∃ (m : Master) (r : Fin 49) (v : Word) (s : State), s.reaches (Reg.DOORBELL r) ∧ s.calm ∧ (s.ringSize r ≤ bitsOf v 15 0 ∨ s.ringSize r
      < entriesFrom (s.ringSize r) (s.cons r) (linearOf (s.ringSize r) v))) ∧
    (∃ (m : Master) (r : Fin 49) (v : Word) (s : State), s.reaches (Reg.DOORBELL r) ∧ s.calm ∧ s.on (Fld.HOST_RCTL_ENABLE r) = false ∧
      bitsOf v 15 0 < s.ringSize r ∧ entriesFrom (s.ringSize r) (s.cons r) (linearOf (s.ringSize r) v) ≤ s.ringSize r) ∧
    (∃ (m : Master) (q : EntryRing) (v : Word) (s : State), s.reaches (Reg.HOST_RCONS (entryGroup q)) ∧ s.calm ∧ (s.ringSize (entryGroup q)
      ≤ bitsOf v 15 0 ∨ s.ringSize (entryGroup q) < entriesFrom (s.ringSize (entryGroup q)) (linearOf (s.ringSize (entryGroup q)) v)
      (s.prod (entryGroup q)) ∨ entriesFrom (s.ringSize (entryGroup q)) (s.cons (entryGroup q)) (s.prod (entryGroup q)) < entriesFrom
      (s.ringSize (entryGroup q)) (s.cons (entryGroup q)) (linearOf (s.ringSize (entryGroup q)) v))) :=
  ⟨⟨.service, 48, 0x00000, s8, reaches_of (by decide +kernel), by unfold State.calm; decide +kernel⟩,
   ⟨.service, 16, 0x10001, s9, reaches_of (by decide +kernel), by unfold State.calm; decide +kernel⟩,
   ⟨.service, .er, 0x00000, s10, reaches_of (by decide +kernel), by unfold State.calm; decide +kernel⟩,
   ⟨.service, 48, 0x10010, s11, reaches_of (by decide +kernel), by unfold State.calm; decide +kernel⟩,
   ⟨.service, 48, 0x0000F, s12, reaches_of (by decide +kernel), by unfold State.calm; decide +kernel⟩,
   ⟨.service, .er, 0x10001, on, reaches_of (by decide +kernel), by unfold State.calm; decide +kernel⟩⟩

theorem witness_DescriptorFetching :
    (∃ (k : Fin 49) (dw : List Word) (s : State), s.calm ∧ s.fetches k = true ∧ (s.getRing k).retries = 0 ∧ (k.val = 0 → s.mp.rescue =
      false) ∧ bitOf (dwAt dw 0) 31 = s.consPhase k) ∧
    (∃ (dw : List Word) (s : State), s.calm ∧ s.fetches 0 = true ∧ (s.getRing 0).retries = 0 ∧ s.mp.rescue = true ∧ s.cqRoom ∧ bitOf (dwAt
      dw 0) 31 = s.consPhase 0) ∧
    (∃ (k : Fin 49) (dw : List Word) (s : State), s.calm ∧ s.fetches k = true ∧ (s.getRing k).retries = 0 ∧ bitOf (dwAt dw 0) 31 ≠
      s.consPhase k) ∧
    (∃ (k : Fin 49) (s : State), s.calm ∧ s.fetches k = true ∧ (s.getRing k).retries = 0) ∧
    (∃ (k : Fin 49) (dw : List Word) (s : State), s.calm ∧ s.fetches k = true ∧ (s.getRing k).retries ≠ 0 ∧ (k.val = 0 → s.mp.rescue =
      false) ∧ bitOf (dwAt dw 0) 31 = s.consPhase k) ∧
    (∃ (k : Fin 49) (dw : List Word) (s : State), s.calm ∧ s.fetches k = true ∧ (s.getRing k).retries ≠ 0 ∧ (s.getRing k).retries < 4 ∧
      bitOf (dwAt dw 0) 31 ≠ s.consPhase k) ∧
    (∃ (k : Fin 49) (dw : List Word) (s : State), s.calm ∧ s.fetches k = true ∧ 4 ≤ (s.getRing k).retries ∧ bitOf (dwAt dw 0) 31 ≠
      s.consPhase k) ∧
    (∃ (k : Fin 49) (s : State), s.calm ∧ s.fetches k = true ∧ (s.getRing k).retries ≠ 0) ∧
    (∃ (m : Master) (k : Fin 51) (dw : List Word) (s : State), s.reaches (Reg.HOST_RSTAT k) ∧ s.calm ∧ s.rd (Fld.HOST_RSTAT_STATE k) = 3 ∧
      bitOf (dwAt dw 0) 31 = s.consPhase k) ∧
    (∃ (m : Master) (k : Fin 51) (dw : List Word) (s : State), s.reaches (Reg.HOST_RSTAT k) ∧ s.calm ∧ s.rd (Fld.HOST_RSTAT_STATE k) = 3 ∧
      bitOf (dwAt dw 0) 31 ≠ s.consPhase k) ∧
    (∃ (m : Master) (k : Fin 51) (s : State), s.reaches (Reg.HOST_RSTAT k) ∧ s.calm ∧ s.rd (Fld.HOST_RSTAT_STATE k) = 3) ∧
    (∃ (m : Master) (k : Fin 51) (d : Fetched) (s : State), s.reaches (Reg.HOST_RSTAT k) ∧ s.calm ∧ s.rd (Fld.HOST_RSTAT_STATE k) ≠ 3) :=
  ⟨⟨48, [0x80000000], s13, by unfold State.calm; decide +kernel⟩,
   ⟨[0x80000000, 5], s14, by unfold State.calm State.cqRoom; decide +kernel⟩,
   ⟨48, [0], s13, by unfold State.calm; decide +kernel⟩,
   ⟨48, s13, by unfold State.calm; decide +kernel⟩,
   ⟨48, [0x80000000], s15, by unfold State.calm; decide +kernel⟩,
   ⟨48, [0], s16, by unfold State.calm; decide +kernel⟩,
   ⟨48, [0], s15, by unfold State.calm; decide +kernel⟩,
   ⟨48, s15, by unfold State.calm; decide +kernel⟩,
   ⟨.service, 48, [0x80000000], s17, reaches_of (by decide +kernel), by unfold State.calm; decide +kernel⟩,
   ⟨.service, 48, [0], s17, reaches_of (by decide +kernel), by unfold State.calm; decide +kernel⟩,
   ⟨.service, 48, s17, reaches_of (by decide +kernel), by unfold State.calm; decide +kernel⟩,
   ⟨.service, 50, .error, on, reaches_of (by decide +kernel), by unfold State.calm; decide +kernel⟩⟩

theorem witness_EntriesAndInterrupts :
    (∃ (s : State) (c : Completion) (rest : List Completion), s.calm ∧ s.host.cqQueue = c :: rest ∧ s.entryRoom .cq = true ∧ (s.rakeQ.take
      c.after).all s.reportWaits = true) ∧
    (∃ (s : State) (c : Completion) (rest : List Completion), s.calm ∧ s.host.cqQueue = c :: rest ∧ (s.entryRoom .cq = false ∨
      (s.rakeQ.take c.after).all s.reportWaits = false)) ∧
    (∃ (s : State), s.calm ∧ s.host.erOwed = true ∧ s.entryRoom .er = true ∧ s.evMasked 0x03 = false) ∧
    (∃ (s : State), s.calm ∧ s.host.erOwed = true ∧ s.entryRoom .er = true ∧ s.evMasked 0x03 = true) ∧
    (∃ (s : State), s.calm ∧ (s.host.erOwed = false ∨ s.entryRoom .er = false)) ∧
    (∃ (k : Fin 51) (s : State), s.calm ∧ (s.getRing k).unsignalled ≠ 0 ∧ (s.getRing k).since + max 1 (s.rd (Fld.HOST_RIRQ_COAL_T k)) *
      4000 ≤ s.tb.toNat) ∧
    (∃ (k : Fin 51) (s : State), s.calm ∧ ((s.getRing k).unsignalled = 0 ∨ s.tb.toNat < (s.getRing k).since + max 1 (s.rd
      (Fld.HOST_RIRQ_COAL_T k)) * 4000)) :=
  ⟨⟨s18, ⟨16, 1, 3, 4, 5, 6, 1⟩, [], by unfold State.calm; decide +kernel⟩,
   ⟨s19, ⟨16, 1, 3, 4, 5, 6, 1⟩, [], by unfold State.calm; decide +kernel⟩,
   ⟨s20, by unfold State.calm; decide +kernel⟩,
   ⟨s21, by unfold State.calm; decide +kernel⟩,
   ⟨on, by unfold State.calm; decide +kernel⟩,
   ⟨50, s22, by unfold State.calm; decide +kernel⟩,
   ⟨50, s23, by unfold State.calm; decide +kernel⟩⟩

theorem witness_ConfigurationRetry :
    (∃ (m : Master) (v : Word) (s : State), s.reaches Reg.HOST_CTL ∧ s.calm) ∧
    (∃ (s : State), s.calm ∧ s.on Fld.HOST_STAT_CFG_RETRY = true ∧ s.domOn .host = true ∧ s.host.perstLow = false) ∧
    (∃ (s : State), s.calm ∧ (s.on Fld.HOST_STAT_CFG_RETRY = false ∨ s.domOn .host = false ∨ s.host.perstLow = true)) ∧
    (∃ (req : ConfigReq) (s : State), s.calm ∧ s.linkPossible = true ∧ s.linkUp = true ∧ s.on Fld.HOST_STAT_CFG_RETRY = true) ∧
    (∃ (req : ConfigReq) (s : State), s.calm ∧ s.linkPossible = true ∧ s.linkUp = true ∧ s.on Fld.HOST_STAT_CFG_RETRY = false) ∧
    (∃ (b : Bool) (s : State), s.calm ∧ s.linkPossible = true ∧ s.linkUp = true ∧ s.on Fld.HOST_STAT_CFG_RETRY = false) ∧
    (∃ (k : Fin 3) (s : State), s.calm ∧ s.linkPossible = true ∧ s.linkUp = true ∧ s.on Fld.HOST_STAT_CFG_RETRY = false) ∧
    (∃ (k : Fin 6) (s : State), s.calm ∧ s.linkPossible = true ∧ s.linkUp = true ∧ s.on Fld.HOST_STAT_CFG_RETRY = false) ∧
    (∃ (b : Bool) (s : State), s.calm ∧ s.linkPossible = true ∧ s.linkUp = true ∧ s.on Fld.HOST_STAT_CFG_RETRY = false) ∧
    (∃ (b : Bool) (c : Bool) (s : State), s.calm ∧ s.linkPossible = true ∧ s.linkUp = true ∧ s.on Fld.HOST_STAT_CFG_RETRY = false) ∧
    (∃ (s : State), s.calm ∧ s.linkPossible = true ∧ s.linkUp = true ∧ s.on Fld.HOST_STAT_CFG_RETRY = false) ∧
    (∃ (req : ConfigReq) (s : State), s.calm ∧ (s.linkPossible = false ∨ s.linkUp = false)) :=
  ⟨⟨.service, 2, s24, reaches_of (by decide +kernel), by unfold State.calm; decide +kernel⟩,
   ⟨s24, by unfold State.calm; decide +kernel⟩,
   ⟨on, by unfold State.calm; decide +kernel⟩,
   ⟨(.read 0), s24, by unfold State.calm; decide +kernel⟩,
   ⟨(.read 8), on, by unfold State.calm; decide +kernel⟩,
   ⟨true, on, by unfold State.calm; decide +kernel⟩,
   ⟨2, on, by unfold State.calm; decide +kernel⟩,
   ⟨5, on, by unfold State.calm; decide +kernel⟩,
   ⟨true, on, by unfold State.calm; decide +kernel⟩,
   ⟨true, false, s25, by unfold State.calm; decide +kernel⟩,
   ⟨s26, by unfold State.calm; decide +kernel⟩,
   ⟨(.read 0), s27, by unfold State.calm; decide +kernel⟩⟩

theorem witness_LinkAndHostReset :
    (∃ (sp : LinkSpeed) (w : LinkWidth) (s : State), s.calm ∧ s.linkPossible = true ∧ s.linkUp = false) ∧
    (∃ (sp : LinkSpeed) (w : LinkWidth) (s : State), s.calm ∧ (s.linkPossible = false ∨ s.linkUp = true)) ∧
    (∃ (sp : LinkSpeed) (w : LinkWidth) (s : State), s.calm ∧ s.linkPossible = true ∧ s.linkUp = true) ∧
    (∃ (sp : LinkSpeed) (w : LinkWidth) (s : State), s.calm ∧ (s.linkPossible = false ∨ s.linkUp = false)) ∧
    (∃ (s : State), s.calm ∧ s.domOn .host = true ∧ s.linkUp = true ∧ s.bar.reads = [] ∧ s.bar.writes = [] ∧ s.barWaits = false) ∧
    (∃ (s : State), s.calm ∧ (s.domOn .host = false ∨ s.linkUp = false)) ∧
    (∃ (s : State), s.hf.active = false ∧ s.domOn .host = true ∧ s.host.perstLow = false) ∧
    (∃ (s : State), (s.hf.active = true ∨ s.domOn .host = false ∨ s.host.perstLow = true)) ∧
    (∃ (s : State), s.hf.active = false ∧ s.domOn .host = true) ∧
    (∃ (s : State), (s.hf.active = true ∨ s.domOn .host = false)) :=
  ⟨⟨.gt8, .x4, s28, by unfold State.calm; decide +kernel⟩,
   ⟨.gt8, .x4, on, by unfold State.calm; decide +kernel⟩,
   ⟨.gt2_5, .x1, on, by unfold State.calm; decide +kernel⟩,
   ⟨.gt2_5, .x1, s28, by unfold State.calm; decide +kernel⟩,
   ⟨on, by unfold State.calm; decide +kernel⟩,
   ⟨s28, by unfold State.calm; decide +kernel⟩,
   ⟨s29, by decide +kernel⟩,
   ⟨s30, by decide +kernel⟩,
   ⟨s29, by decide +kernel⟩,
   ⟨s30, by decide +kernel⟩⟩

theorem witness_Tokens :
    (∃ (m : Master) (n : Fin 32) (tag : BitVec 16) (s : State), s.reaches (Reg.OWN n) ∧ s.calm ∧ s.holder n = 0) ∧
    (∃ (m : Master) (n : Fin 32) (s : State), s.reaches (Reg.OWN n) ∧ s.calm ∧ s.holder n = masterCode m) ∧
    (∃ (m : Master) (n : Fin 32) (tag : BitVec 16) (s : State), s.reaches (Reg.OWN n) ∧ s.calm ∧ s.holder n ≠ 0 ∧ s.holder n ≠ masterCode
      m) ∧
    (∃ (m : Master) (n : Fin 32) (tag : BitVec 16) (s : State), s.reaches (Reg.OWN n) ∧ s.calm ∧ s.holder n = masterCode m) :=
  ⟨⟨.service, 31, 0xFFFF, on, reaches_of (by decide +kernel), by unfold State.calm; decide +kernel⟩,
   ⟨.service, 31, s29, reaches_of (by decide +kernel), by unfold State.calm; decide +kernel⟩,
   ⟨.host, 31, 0xFFFF, s29, reaches_of (by decide +kernel), by unfold State.calm; decide +kernel⟩,
   ⟨.service, 31, 0xFFFF, s29, reaches_of (by decide +kernel), by unfold State.calm; decide +kernel⟩⟩

theorem witness_NopAndBadOpcode :
    (∃ (k : Fin 49) (d : Desc) (s : State), s.calm ∧ k.val ≤ 16 ∧ (k.val = 0 → s.mpFree = true) ∧ s.nextDesc k = some d ∧ d.opcode = 0 ∧
      s.cqRoom ∧ 1 ≤ k.val) ∧
    (∃ (k : Fin 49) (d : Desc) (s : State), s.calm ∧ k.val ≤ 16 ∧ (k.val = 0 → s.mpFree = true) ∧ s.nextDesc k = some d ∧ d.opcode = 0 ∧
      s.cqRoom ∧ k.val = 0) ∧
    (∃ (k : Fin 49) (d : Desc) (s : State), s.calm ∧ k.val ≤ 16 ∧ (k.val = 0 → s.mpFree = true) ∧ s.nextDesc k = some d ∧ opcodeDefined k
      d.opcode = false ∧ s.cqRoom) ∧
    (∃ (c : Fin 32) (d : Desc) (s : State), s.calm ∧ s.dmaReady c d ∧ s.chanStopped c = false ∧ d.opcode = 0 ∧ s.cqRoom) ∧
    (∃ (c : Fin 32) (d : Desc) (s : State), s.calm ∧ s.dmaReady c d ∧ 3 < d.opcode ∧ s.cqRoom) :=
  ⟨⟨16, ⟨15, [0x80000000, 7]⟩, s31, by unfold State.calm State.cqRoom; decide +kernel⟩,
   ⟨0, ⟨15, [0x80000000, 7, 1]⟩, s32, by unfold State.calm State.cqRoom; decide +kernel⟩,
   ⟨16, ⟨15, [0x80000002, 7]⟩, s33, by unfold State.calm State.cqRoom; decide +kernel⟩,
   ⟨31, ⟨15, [0x80000000, 7]⟩, s34, by unfold State.calm State.cqRoom State.dmaReady; decide +kernel⟩,
   ⟨31, ⟨15, [0x80000004, 7]⟩, s35, by unfold State.calm State.cqRoom State.dmaReady; decide +kernel⟩⟩

theorem witness_JobAcceptance :
    (∃ (r : Fin 16) (d : Desc) (s : State), (s.calm ∧ s.nextDesc (r.val + 1) = some d ∧ d.opcode = 1 ∧ (s.getRing (r.val + 1)).checked =
      false ∧ d.fld 0 15 8 ≠ 0 ∧ s.ctxPresent (d.fld 0 15 8) = true ∧ s.ctxState (d.fld 0 15 8) ≠ 0) ∧ s.jobBad (d.fld 0 15 8) d = false) ∧
    (∃ (r : Fin 16) (d : Desc) (s : State), s.calm ∧ s.nextDesc (r.val + 1) = some d ∧ d.opcode = 1 ∧ (s.getRing (r.val + 1)).checked =
      false ∧ s.cqRoom ∧ (d.fld 0 15 8 = 0 ∨ s.ctxPresent (d.fld 0 15 8) = false)) ∧
    (∃ (r : Fin 16) (d : Desc) (s : State), (s.calm ∧ s.nextDesc (r.val + 1) = some d ∧ d.opcode = 1 ∧ (s.getRing (r.val + 1)).checked =
      false ∧ s.cqRoom ∧ d.fld 0 15 8 ≠ 0 ∧ s.ctxPresent (d.fld 0 15 8) = true) ∧ (s.ctxState (d.fld 0 15 8) = 0 ∨ s.jobBad (d.fld 0 15 8)
      d = true)) ∧
    (∃ (r : Fin 16) (d : Desc) (s : State), (s.calm ∧ s.nextDesc (r.val + 1) = some d ∧ (s.getRing (r.val + 1)).checked = true ∧
      s.ctxPresent (d.fld 0 15 8) = true ∧ s.ctxState (d.fld 0 15 8) ≠ 0 ∧ (s.getCtx (d.fld 0 15 8)).queue.length < 8 ∧ s.waitMet d = true)
      ∧ s.earlierJob (r.val + 1) (d.fld 0 15 8) = false ∧ s.rd (Fld.CTX_SKIP_COUNT (d.fld 0 15 8)) = 0) ∧
    (∃ (r : Fin 16) (d : Desc) (s : State), (s.calm ∧ s.nextDesc (r.val + 1) = some d ∧ (s.getRing (r.val + 1)).checked = true ∧
      s.ctxPresent (d.fld 0 15 8) = true ∧ s.ctxState (d.fld 0 15 8) ≠ 0 ∧ (s.getCtx (d.fld 0 15 8)).queue.length < 8 ∧ s.waitMet d = true)
      ∧ s.earlierJob (r.val + 1) (d.fld 0 15 8) = false ∧ s.rd (Fld.CTX_SKIP_COUNT (d.fld 0 15 8)) ≠ 0 ∧ (s.getCtx (d.fld 0 15 8)).prods =
      [] ∧ s.cqRoom) ∧
    (∃ (r : Fin 16) (d : Desc) (s : State), s.calm ∧ s.nextDesc (r.val + 1) = some d ∧ (s.getRing (r.val + 1)).checked = true ∧
      s.ctxPresent (d.fld 0 15 8) = true ∧ s.ctxState (d.fld 0 15 8) ≠ 0 ∧ (8 ≤ (s.getCtx (d.fld 0 15 8)).queue.length ∨ s.waitMet d =
      false ∨ s.earlierJob (r.val + 1) (d.fld 0 15 8) = true)) :=
  ⟨⟨15, ⟨15, [0x8000FE01, 7, 9, 0]⟩, s36, by unfold State.calm; decide +kernel, by decide +kernel⟩,
   ⟨15, ⟨15, [0x80000001, 7, 9, 0]⟩, s37, by unfold State.calm State.cqRoom; decide +kernel⟩,
   ⟨15, ⟨15, [0x8000FE01, 7, 9, 0]⟩, s38, by unfold State.calm State.cqRoom; decide +kernel, by decide +kernel⟩,
   ⟨15, ⟨15, [0x8000FE01, 7, 9, 0]⟩, s39, by unfold State.calm; decide +kernel, by decide +kernel⟩,
   ⟨15, ⟨15, [0x8000FE01, 7, 9, 0]⟩, s40, by unfold State.calm; decide +kernel, by unfold State.cqRoom; decide +kernel⟩,
   ⟨15, ⟨15, [0x8000FE01, 7, 9, 0]⟩, s41, by unfold State.calm; decide +kernel⟩⟩

theorem witness_ContextBinding :
    (∃ (d : Desc) (s : State), s.commanded 0x10 d ∧ s.bindRefusal d = none ∧ s.mpMayCtx (d.fld 2 7 0) = true ∧ (∀ sc < 1024, s.scopeState
      sc = 0) ∧ s.longWarning = false ∧ (s.getCtx (d.fld 2 7 0)).prods = []) ∧
    (∃ (d : Desc) (s : State), s.commanded 0x10 d ∧ s.bindRefusal d = none ∧ s.mpMayCtx (d.fld 2 7 0) = true ∧ (s.scopeState 0 ≠ 0 ∨
      s.longWarning = true)) ∧
    (∃ (d : Desc) (r : Nat × Nat) (s : State), s.commanded 0x10 d ∧ s.bindRefusal d = some r) ∧
    (∃ (d : Desc) (s : State), s.commanded 0x10 d ∧ s.bindRefusal d = none ∧ s.mpMayCtx (d.fld 2 7 0) = false) ∧
    (∃ (d : Desc) (s : State), s.commanded 0x11 d ∧ d.reservedSet (commandLayout [0xFF]) = false ∧ s.ctxPresent (d.fld 2 7 0) = true ∧
      s.ctxState (d.fld 2 7 0) ∈ [1, 4, 5] ∧ (s.getCtx (d.fld 2 7 0)).inflight = [] ∧ s.mpMayCtx (d.fld 2 7 0) = true ∧ (s.getCtx (d.fld 2
      7 0)).queue = []) ∧
    (∃ (d : Desc) (s : State), s.commanded 0x11 d ∧ d.reservedSet (commandLayout [0xFF]) = false ∧ s.ctxPresent (d.fld 2 7 0) = true ∧
      (s.ctxState (d.fld 2 7 0) ∉ [1, 4, 5] ∨ (s.getCtx (d.fld 2 7 0)).inflight ≠ [])) ∧
    (∃ (d : Desc) (s : State), s.commanded 0x11 d ∧ (d.reservedSet (commandLayout [0xFF]) = true ∨ s.ctxPresent (d.fld 2 7 0) = false)) :=
  ⟨⟨⟨15, [0x80000010, 7, 254, 0x01002700, 0, 1]⟩, s42, by unfold State.commanded State.calm State.cqRoom; decide +kernel⟩,
   ⟨⟨15, [0x80000010, 7, 254, 0x01002700, 0, 1]⟩, s43, by unfold State.commanded State.calm State.cqRoom; decide +kernel⟩,
   ⟨⟨15, [0x80000010, 7, 254, 0x01002700, 0, 1]⟩, ((Status.descError, 0x03)), s44,
      by unfold State.commanded State.calm State.cqRoom; decide +kernel⟩,
   ⟨⟨15, [0x80000010, 7, 0, 0x01002700, 0, 1]⟩, s45, by unfold State.commanded State.calm State.cqRoom; decide +kernel⟩,
   ⟨⟨15, [0x80000011, 7, 254]⟩, s46, by unfold State.commanded State.calm State.cqRoom; decide +kernel⟩,
   ⟨⟨15, [0x80000011, 7, 254]⟩, s47, by unfold State.commanded State.calm State.cqRoom; decide +kernel⟩,
   ⟨⟨15, [0x80000011, 7, 254]⟩, s48, by unfold State.commanded State.calm State.cqRoom; decide +kernel⟩⟩

theorem witness_ContextControl :
    (∃ (d : Desc) (s : State), s.commanded 0x12 d ∧ d.reservedSet (commandLayout [0xFFFF]) = false ∧ s.ctxPresent (d.fld 2 7 0) = true ∧
      s.mpMayCtx (d.fld 2 7 0) = true ∧ d.fld 2 15 8 = 1) ∧
    (∃ (d : Desc) (s : State), s.commanded 0x12 d ∧ d.reservedSet (commandLayout [0xFFFF]) = false ∧ s.ctxPresent (d.fld 2 7 0) = true ∧
      s.mpMayCtx (d.fld 2 7 0) = true ∧ d.fld 2 15 8 = 2) ∧
    (∃ (d : Desc) (s : State), s.commanded 0x12 d ∧ d.reservedSet (commandLayout [0xFFFF]) = false ∧ s.ctxPresent (d.fld 2 7 0) = true ∧
      s.mpMayCtx (d.fld 2 7 0) = true ∧ d.fld 2 15 8 = 3 ∧ (s.ctxState (d.fld 2 7 0) = 4 ∨ s.ctxState (d.fld 2 7 0) = 5)) ∧
    (∃ (d : Desc) (s : State), s.commanded 0x12 d ∧ d.reservedSet (commandLayout [0xFFFF]) = false ∧ s.ctxPresent (d.fld 2 7 0) = true ∧
      s.mpMayCtx (d.fld 2 7 0) = true ∧ d.fld 2 15 8 = 3 ∧ s.ctxState (d.fld 2 7 0) ≠ 4 ∧ s.ctxState (d.fld 2 7 0) ≠ 5) ∧
    (∃ (d : Desc) (s : State), (s.commanded 0x12 d ∧ d.reservedSet (commandLayout [0xFFFF]) = false ∧ s.ctxPresent (d.fld 2 7 0) = true ∧
      s.mpMayCtx (d.fld 2 7 0) = true ∧ d.fld 2 15 8 = 4 ∧ s.ctxState (d.fld 2 7 0) = 5 ∧ (s.getCtx (d.fld 2 7 0)).causes ≠ []) ∧ (∀ k ∈
      (s.getCtx (d.fld 2 7 0)).causes, k = 0x0A ∨ k = 0x0B) ∧ s.longWarning = false) ∧
    (∃ (d : Desc) (s : State), s.commanded 0x12 d ∧ d.reservedSet (commandLayout [0xFFFF]) = false ∧ s.ctxPresent (d.fld 2 7 0) = true ∧
      s.mpMayCtx (d.fld 2 7 0) = true ∧ d.fld 2 15 8 = 4 ∧ s.ctxState (d.fld 2 7 0) ≠ 5) ∧
    (∃ (d : Desc) (i : Instr) (s : State), s.commanded 0x12 d ∧ (d.reservedSet (commandLayout [0xFFFF]) = true ∨ d.fld 2 15 8 = 0 ∨ 4 <
      d.fld 2 15 8) ∧ i ∈ [Instr.halt, .resume, .flush, .recover]) ∧
    (∃ (d : Desc) (s : State), s.commanded 0x12 d ∧ d.reservedSet (commandLayout [0xFFFF]) = false ∧ s.ctxPresent (d.fld 2 7 0) = false ∧
      d.fld 2 15 8 = 1) ∧
    (∃ (d : Desc) (s : State), s.commanded 0x12 d ∧ d.reservedSet (commandLayout [0xFFFF]) = false ∧ s.ctxPresent (d.fld 2 7 0) = false ∧
      d.fld 2 15 8 = 2) ∧
    (∃ (d : Desc) (s : State), s.commanded 0x12 d ∧ d.reservedSet (commandLayout [0xFFFF]) = false ∧ s.ctxPresent (d.fld 2 7 0) = false ∧
      d.fld 2 15 8 = 3) ∧
    (∃ (d : Desc) (s : State), s.commanded 0x12 d ∧ d.reservedSet (commandLayout [0xFFFF]) = false ∧ s.ctxPresent (d.fld 2 7 0) = false ∧
      d.fld 2 15 8 = 4) :=
  ⟨⟨⟨15, [0x80000012, 7, 0x1FE]⟩, s49, by unfold State.commanded State.calm State.cqRoom; decide +kernel⟩,
   ⟨⟨15, [0x80000012, 7, 0x2FE]⟩, s50, by unfold State.commanded State.calm State.cqRoom; decide +kernel⟩,
   ⟨⟨15, [0x80000012, 7, 0x3FE]⟩, s51, by unfold State.commanded State.calm State.cqRoom; decide +kernel⟩,
   ⟨⟨15, [0x80000012, 7, 0x3FE]⟩, s52, by unfold State.commanded State.calm State.cqRoom; decide +kernel⟩,
   ⟨⟨15, [0x80000012, 7, 0x4FE]⟩, s53, by unfold State.commanded State.calm State.cqRoom; decide +kernel, by decide +kernel⟩,
   ⟨⟨15, [0x80000012, 7, 0x4FE]⟩, s54, by unfold State.commanded State.calm State.cqRoom; decide +kernel⟩,
   ⟨⟨15, [0x80000012, 7, 0x5FE]⟩, .recover, s55, by unfold State.commanded State.calm State.cqRoom; decide +kernel⟩,
   ⟨⟨15, [0x80000012, 7, 0x1FE]⟩, s56, by unfold State.commanded State.calm State.cqRoom; decide +kernel⟩,
   ⟨⟨15, [0x80000012, 7, 0x2FE]⟩, s57, by unfold State.commanded State.calm State.cqRoom; decide +kernel⟩,
   ⟨⟨15, [0x80000012, 7, 0x3FE]⟩, s58, by unfold State.commanded State.calm State.cqRoom; decide +kernel⟩,
   ⟨⟨15, [0x80000012, 7, 0x4FE]⟩, s59, by unfold State.commanded State.calm State.cqRoom; decide +kernel⟩⟩

theorem witness_ContextCommit :
    (∃ (m : Master) (n : Fin 255) (s : State), s.reaches (Reg.CTX_COMMIT n) ∧ s.calm) ∧
    (∃ (m : Master) (n : Fin 255) (s : State), s.reaches (Reg.CTX_COMMIT n) ∧ s.calm) ∧
    (∃ (m : Master) (n : Fin 255) (s : State), s.reaches (Reg.CTX_COMMIT n) ∧ s.calm ∧ s.ctxState n = 4 ∧ s.shadowBad n = false) ∧
    (∃ (m : Master) (n : Fin 255) (s : State), s.reaches (Reg.CTX_COMMIT n) ∧ s.calm ∧ s.ctxState n = 4 ∧ s.shadowBad n = true) ∧
    (∃ (m : Master) (n : Fin 255) (s : State), s.reaches (Reg.CTX_COMMIT n) ∧ s.calm ∧ s.ctxState n ≠ 4) :=
  ⟨⟨.service, 254, s60, reaches_of (by decide +kernel), by unfold State.calm; decide +kernel⟩,
   ⟨.service, 254, s61, reaches_of (by decide +kernel), by unfold State.calm; decide +kernel⟩,
   ⟨.service, 254, s62, reaches_of (by decide +kernel), by unfold State.calm; decide +kernel⟩,
   ⟨.service, 254, s63, reaches_of (by decide +kernel), by unfold State.calm; decide +kernel⟩,
   ⟨.service, 254, s60, reaches_of (by decide +kernel), by unfold State.calm; decide +kernel⟩⟩

theorem witness_DmaDescriptors :
    (∃ (c : Fin 32) (d : Desc) (s : State), s.calm ∧ s.dmaReady c d ∧ d.opcode = 1 ∧ s.chanStopped c = false ∧ d.dmaReason (s.dmaBad c d
      false) = 0) ∧
    (∃ (c : Fin 32) (d : Desc) (s : State), s.calm ∧ s.dmaReady c d ∧ d.opcode = 2 ∧ s.chanStopped c = false ∧ d.dmaReason (s.dmaBad c d
      false) = 0) ∧
    (∃ (c : Fin 32) (d : Desc) (s : State), s.calm ∧ s.dmaReady c d ∧ d.opcode = 1 ∧ s.chanStopped c = false ∧ d.dmaReason (s.dmaBad c d
      false) ≠ 0 ∧ s.cqRoom) ∧
    (∃ (c : Fin 32) (d : Desc) (s : State), s.calm ∧ s.dmaReady c d ∧ d.opcode = 2 ∧ s.chanStopped c = false ∧ d.dmaReason (s.dmaBad c d
      false) ≠ 0 ∧ s.cqRoom) ∧
    (∃ (c : Fin 32) (d : Desc) (s : State), (s.calm ∧ s.dmaReady c d ∧ d.opcode = 3 ∧ s.chanStopped c = false ∧ linkReason d false = 0 ∧
      ((s.getChan32 c).marks.contains d.index = true ∨ s.rd (Fld.BAR_CH_STAT_CHAIN_CNT c) < 1024) ∧ s.hostBus = true) ∧ s.fetchTag = true ∧
      (∀ e < 32, e ≠ c.val → (s.getChan32 e).runs = [] ∧ (s.getChan32 e).chain = none)) ∧
    (∃ (c : Fin 32) (d : Desc) (s : State), (s.calm ∧ s.dmaReady c d ∧ d.opcode = 3 ∧ s.chanStopped c = false ∧ linkReason d false = 0 ∧
      (s.getChan32 c).marks.contains d.index = false ∧ 1024 ≤ s.rd (Fld.BAR_CH_STAT_CHAIN_CNT c)) ∧ s.cqRoom) ∧
    (∃ (c : Fin 32) (d : Desc) (s : State), s.calm ∧ s.dmaReady c d ∧ d.opcode = 3 ∧ s.chanStopped c = false ∧ linkReason d false ≠ 0 ∧
      s.cqRoom) ∧
    (∃ (c : Fin 32) (d : Desc) (s : State), s.calm ∧ s.dmaReady c d ∧ s.chanStopped c = true ∧ s.cqRoom ∧ d.opcode = 1) ∧
    (∃ (c : Fin 32) (d : Desc) (s : State), s.calm ∧ s.dmaReady c d ∧ s.chanStopped c = true ∧ s.cqRoom ∧ d.opcode = 2) ∧
    (∃ (c : Fin 32) (d : Desc) (s : State), s.calm ∧ s.dmaReady c d ∧ s.chanStopped c = true ∧ s.cqRoom ∧ d.opcode = 3) ∧
    (∃ (c : Fin 32) (d : Desc) (s : State), s.calm ∧ s.nextDma c = some (d, true) ∧ s.canTake c d = true ∧ (s.getChan32 c).runs = [] ∧
      s.chanStopped c = false ∧ d.opcode = 1 ∧ d.dmaReason (s.dmaBad c d true) = 0) ∧
    (∃ (c : Fin 32) (d : Desc) (s : State), s.calm ∧ s.nextDma c = some (d, true) ∧ s.canTake c d = true ∧ (s.getChan32 c).runs = [] ∧
      s.chanStopped c = false ∧ d.opcode = 2 ∧ d.dmaReason (s.dmaBad c d true) = 0) :=
  ⟨⟨31, ⟨15, [0x84400001, 7, 0x1000, 0, 0x2000, 0, 0x00010001, 0x00010001, 0x00010001]⟩, s64,
      by unfold State.calm State.dmaReady; decide +kernel⟩,
   ⟨31, ⟨15, [0x80400002, 7, 5, 0, 0x2000, 0, 0, 0x00010000, 0x00010001]⟩, s65, by unfold State.calm State.dmaReady; decide +kernel⟩,
   ⟨31, ⟨15, [0x84400001, 7, 0]⟩, s66, by unfold State.calm State.cqRoom State.dmaReady; decide +kernel⟩,
   ⟨31, ⟨15, [0x80400002, 7, 0]⟩, s67, by unfold State.calm State.cqRoom State.dmaReady; decide +kernel⟩,
   ⟨31, ⟨15, [0x80000003, 7, 0x1000, 0]⟩, s68, by unfold State.calm State.dmaReady; decide +kernel, by decide +kernel⟩,
   ⟨31, ⟨15, [0x80000003, 7, 0x1000, 0]⟩, s69, by unfold State.calm State.dmaReady; decide +kernel, by unfold State.cqRoom; decide +kernel⟩,
   ⟨31, ⟨15, [0x80000003, 7, 0x1001, 0]⟩, s70, by unfold State.calm State.cqRoom State.dmaReady; decide +kernel⟩,
   ⟨31, ⟨15, [0x84400001, 7, 0x1000, 0, 0x2000, 0, 0x00010001, 0x00010001, 0x00010001]⟩, s71,
      by unfold State.calm State.cqRoom State.dmaReady; decide +kernel⟩,
   ⟨31, ⟨15, [0x80400002, 7, 5, 0, 0x2000, 0, 0, 0x00010000, 0x00010001]⟩, s72,
      by unfold State.calm State.cqRoom State.dmaReady; decide +kernel⟩,
   ⟨31, ⟨15, [0x80000003, 7, 0x1000, 0]⟩, s73, by unfold State.calm State.cqRoom State.dmaReady; decide +kernel⟩,
   ⟨31, ⟨15, [0x94400001, 7, 0x1000, 0, 0x2000, 0, 0x00010001, 0x00010001, 0x00010001]⟩, s74, by unfold State.calm; decide +kernel⟩,
   ⟨31, ⟨15, [0x90400002, 7, 5, 0, 0x2000, 0, 0, 0x00010000, 0x00010001]⟩, s75, by unfold State.calm; decide +kernel⟩⟩

theorem witness_DmaBurstsAndHalt :
    (∃ (s : State) (u : State) (c : Nat) (r : DmaRun) (b : BarRead), (s.calm ∧ s.barRuns = true ∧ (s.patchRead = none ∨ s.pathPaused 2 =
      true) ∧ s.pathPaused 0 = false ∧ s.grant false ((List.range 32).filter (fun c => (s.readBurst c).isSome)) = some (c, u) ∧ u.readBurst
      c = some (r, b) ∧ (b.dev && s.bankLost b.addr b.len) = false) ∧ b.dev = false) ∧
    (∃ (s : State) (u : State) (c : Nat) (r : DmaRun) (b : BarWrite), (s.calm ∧ s.barRuns = true ∧ (s.patchWrite = none ∨ s.pathPaused 2 =
      true) ∧ s.pathPaused 1 = false ∧ s.grant true ((List.range 32).filter (fun c => (s.writeBurst c).isSome)) = some (c, u) ∧
      u.writeBurst c = some (r, b) ∧ (b.dev && s.bankLost b.addr b.data.length) = false) ∧ b.dev = false) ∧
    (∃ (s : State) (x : Nat × Job × Nat × Nat × Nat), s.calm ∧ s.barRuns = true ∧ s.pathPaused 2 = false ∧ s.patchRead = some x) ∧
    (∃ (s : State) (x : Nat × Job × Nat × List Byte), s.calm ∧ s.barRuns = true ∧ s.pathPaused 2 = false ∧ s.patchWrite = some x) ∧
    (∃ (w : Bool) (s : State), s.calm ∧ s.barRuns = false) ∧
    (∃ (k : Nat) (bytes : List Byte) (b : BarRead) (x : DmaRun) (s : State), (s.calm ∧ s.bar.reads[k]? = some b ∧ b.kind = .data ∧ b.dev =
      false ∧ s.barState = 0 ∧ s.findRun b.chan b.id = some x ∧ x.stop = none) ∧ x.done = none ∧ x.fail = none) ∧
    (∃ (k : Nat) (v : ReadResult) (b : BarRead) (x : DmaRun) (s : State), (s.calm ∧ s.bar.reads[k]? = some b ∧ b.kind = .data ∧ b.dev =
      true ∧ s.barState = 0 ∧ s.bankLost b.addr b.len = false ∧ s.esp.bad = []) ∧ (∀ k < 64, s.bankReady k = true) ∧ s.findRun b.chan b.id
      = some x ∧ x.stop = none ∧ x.done = none ∧ x.fail = none) ∧
    (∃ (k : Nat) (bytes : List Byte) (b : BarRead) (h : Chain) (s : State), s.calm ∧ s.bar.reads[k]? = some b ∧ b.kind = .chain ∧ b.dev =
      false ∧ s.barState = 0 ∧ (s.getChan32 b.chan).chain = some h ∧ h.asked = some b.id) ∧
    (∃ (k : Nat) (w : BarWrite) (x : DmaRun) (s : State), (s.calm ∧ s.bar.writes[k]? = some w ∧ w.dev = true ∧ w.chan < 32 ∧ s.findRun
      w.chan w.id = some x ∧ s.bankLost w.addr w.data.length = false ∧ s.esp.bad = []) ∧ (∀ k < 64, s.bankReady k = true)) ∧
    (∃ (k : Nat) (bytes : List Byte) (b : BarRead) (x : DmaRun) (s : State), (s.calm ∧ s.bar.reads = [b] ∧ k = 0 ∧ b.kind = .flush ∧
      s.barState = 0 ∧ (s.getChan32 b.chan).runs = [x] ∧ x.id = b.id) ∧ (x.stop = none ∧ x.done = none ∧ x.fail = none ∧ x.wr = x.total ∧
      b.off = x.wr ∧ x.chained = false ∧ x.last = false) ∧ s.bar.writes.any (fun w => w.dev && w.id == x.id) = false ∧ s.cqRoom) ∧
    (∃ (k : Nat) (b : BarRead) (s : State), s.calm ∧ s.bar.reads[k]? = some b ∧ s.barState = 0 ∧ b.at_ + s.barTmo ≤ s.tb.toNat) ∧
    (∃ (k : Nat) (b : BarRead) (s : State), s.calm ∧ s.bar.reads[k]? = some b ∧ s.tb.toNat < b.at_ + s.barTmo) ∧
    (∃ (k : Nat) (b : BarRead) (p : Bool) (s : State), s.calm ∧ s.bar.reads[k]? = some b ∧ b.kind ≠ .flush ∧ b.dev = false ∧ s.barState =
      0) ∧
    (∃ (k : Nat) (b : BarRead) (p : Bool) (s : State), s.calm ∧ s.bar.reads[k]? = some b ∧ b.kind = .flush ∧ s.barState = 0) ∧
    (∃ (k : Nat) (b : BarRead) (v : ReadResult) (s : State), s.calm ∧ s.bar.reads[k]? = some b ∧ b.kind ≠ .flush ∧ b.dev = true ∧
      s.barState = 0 ∧ s.bankLost b.addr b.len = false ∧ (s.readStore b.addr b.len).2.1 = true) ∧
    (∃ (s : State), s.calm ∧ s.barState = 1 ∧ s.bar.reads = []) ∧
    (∃ (s : State), s.calm ∧ (s.barState ≠ 1 ∨ s.bar.reads ≠ [])) ∧
    (∃ (m : Master) (v : Word) (s : State), s.reaches Reg.BAR_CTL ∧ s.calm ∧ bitOf v 0 = true ∧ s.barState = 1) ∧
    (∃ (m : Master) (v : Word) (s : State), s.reaches Reg.BAR_CTL ∧ s.calm ∧ bitOf v 0 = true ∧ s.barState = 2) ∧
    (∃ (m : Master) (v : Word) (s : State), s.reaches Reg.BAR_CTL ∧ s.calm ∧ (bitOf v 0 = false ∨ s.barState = 0)) ∧
    (∃ (m : Master) (c : Fin 32) (v : Word) (s : State), s.reaches (Reg.BAR_CH_CTL c) ∧ s.calm ∧ (s.getChan32 c).runs = [] ∧ (s.getChan32
      c).chain = none) :=
  ⟨⟨s76, s77, 31, ((run ⟨15, [0x84400001, 7, 0x1000, 0, 0x2000, 0, 0x00010001, 0x00010001, 0x00010001]⟩)), ⟨31, 1, .data, false, 0x1000, 0,
      16, 0⟩, by unfold State.calm; decide +kernel, by decide +kernel⟩,
   ⟨s78, s79, 31, ({ run ⟨15, [0x84400001, 7, 0x1000, 0, 0x2000, 0, 0x00010001, 0x00010001, 0x00010001]⟩ with rd := 16, buf := [(0, List.replicate 16 7)] }),
      ⟨31, 1, false, 0x2000, 0, List.replicate 16 7⟩, by unfold State.calm; decide +kernel, by decide +kernel⟩,
   ⟨s80, ((254, { (job [0x8000FE01, 7, 9, 0, 0x40000000, 0, 0x1000, 0, 0x00400001, 0x00000040, 0, 0, 0, 0, 0, 0]) with block := some ⟨0, 1, Fetch.reset, Fetch.reset, false⟩ },
      0, 0x1000, 64)), by unfold State.calm; decide +kernel⟩,
   ⟨s81, ((254, { (job [0x8000FE01, 7, 9, 0, 0x40000000, 0, 0x1000, 0, 0x00400001, 0x00000040, 0, 0, 0, 0, 0, 0]) with block := some ⟨0, 1, { Fetch.reset with id := 7, rd := 64, buf := [(0, List.replicate 64 7)] }, Fetch.reset, false⟩ },
      0, List.replicate 64 7)), by unfold State.calm; decide +kernel⟩,
   ⟨true, s82, by unfold State.calm; decide +kernel⟩,
   ⟨0, (List.replicate 16 7), ((⟨31, 1, .data, false, 0x1000, 0, 16, 0⟩ : BarRead)),
      ({ run ⟨15, [0x84400001, 7, 0x1000, 0, 0x2000, 0, 0x00010001, 0x00010001, 0x00010001]⟩ with rd := 16 }), s83,
      by unfold State.calm; decide +kernel, by decide +kernel⟩,
   ⟨0, .error, ((⟨31, 1, .data, true, 0x3FFFFF0, 0, 16, 0⟩ : BarRead)),
      ({ run ⟨15, [0x84400001, 7, 0x1000, 0, 0x2000, 0, 0x00010001, 0x00010001, 0x00010001]⟩ with rd := 16 }), s84,
      by unfold State.calm; decide +kernel, by decide +kernel⟩,
   ⟨0, (List.replicate 64 3), ((⟨31, 5, .chain, false, 0x1000, 0, 64, 0⟩ : BarRead)), ((⟨⟨15, [0x80000003, 7, 0x1000, 0]⟩, 0x1000, some 5,
      [], false, false⟩ : Chain)), s85, by unfold State.calm; decide +kernel⟩,
   ⟨0, ((⟨31, 1, true, 0x3FFFFFE, 0, [7, 8]⟩ : BarWrite)),
      ({ run ⟨15, [0x84400001, 7, 0x1000, 0, 0x2000, 0, 0x00010001, 0x00010001, 0x00010001]⟩ with rd := 16 }), s86,
      by unfold State.calm; decide +kernel, by decide +kernel⟩,
   ⟨0, [], ((⟨31, 1, .flush, false, 0x2000, 16, 0, 0⟩ : BarRead)),
      ({ run ⟨15, [0x84400001, 7, 0x1000, 0, 0x2000, 0, 0x00010001, 0x00010001, 0x00010001]⟩ with rd := 16, wr := 16, hostTo := some 0x200F, asked := true }),
      s87, by unfold State.calm; decide +kernel, by decide +kernel, by unfold State.cqRoom; decide +kernel⟩,
   ⟨0, ((⟨31, 1, .data, false, 0x1000, 0, 16, 0⟩ : BarRead)), s88, by unfold State.calm; decide +kernel⟩,
   ⟨0, ((⟨31, 1, .data, false, 0x1000, 0, 16, 0⟩ : BarRead)), s89, by unfold State.calm; decide +kernel⟩,
   ⟨0, ((⟨31, 1, .data, false, 0x1000, 0, 16, 0⟩ : BarRead)), true, s83, by unfold State.calm; decide +kernel⟩,
   ⟨0, ((⟨31, 1, .flush, false, 0x2000, 16, 0, 0⟩ : BarRead)), true, s87, by unfold State.calm; decide +kernel⟩,
   ⟨0, ((⟨31, 1, .data, true, 0x3FFFFF0, 0, 16, 0⟩ : BarRead)), .error, s90, by unfold State.calm; decide +kernel⟩,
   ⟨s91, by unfold State.calm; decide +kernel⟩,
   ⟨on, by unfold State.calm; decide +kernel⟩,
   ⟨.service, 1, s91, reaches_of (by decide +kernel), by unfold State.calm; decide +kernel⟩,
   ⟨.service, 1, s92, reaches_of (by decide +kernel), by unfold State.calm; decide +kernel⟩,
   ⟨.service, 0, on, reaches_of (by decide +kernel), by unfold State.calm; decide +kernel⟩,
   ⟨.service, 31, 1, on, reaches_of (by decide +kernel), by unfold State.calm; decide +kernel⟩⟩

theorem witness_PrintGoAndRejects :
    (∃ (n : Fin 32) (level : Bool) (tb : BitVec 64) (s : State), s.calm ∧ s.domOn .place = true ∧ s.on (Fld.PGO_STAT_LEVEL n) = !level ∧
      s.filtered tb (s.pgoFilter n) = true) ∧
    (∃ (n : Fin 32) (level : Bool) (tb : BitVec 64) (s : State), s.calm ∧ (s.domOn .place = false ∨ s.on (Fld.PGO_STAT_LEVEL n) = level ∨
      s.filtered tb (s.pgoFilter n) = false)) ∧
    (∃ (n : Fin 255) (e : Nat) (l : List Nat) (u : Int) (s : State), s.calm ∧ (s.getCtx n).edges = e :: l ∧ (s.getCtx n).lastEdge = some u
      ∧ s.rd (Fld.CTX_LOCKOUT_LOCKOUT n) ≠ 0 ∧ travel u (s.fwdAt n e) < s.rd (Fld.CTX_LOCKOUT_LOCKOUT n)) ∧
    (∃ (n : Fin 255) (e : Nat) (l : List Nat) (s : State), s.calm ∧ (s.getCtx n).edges = e :: l ∧ (s.rd (Fld.CTX_LOCKOUT_LOCKOUT n) = 0 ∨ ∀
      u, (s.getCtx n).lastEdge = some u → s.rd (Fld.CTX_LOCKOUT_LOCKOUT n) ≤ travel u (s.fwdAt n e)) ∧ s.ctxState n ∉ [1, 2, 5]) ∧
    (∃ (n : Fin 255) (e : Nat) (l : List Nat) (s : State), s.calm ∧ (s.getCtx n).edges = e :: l ∧ (s.getCtx n).lastEdge = none ∧ s.ctxState
      n ∈ [1, 2, 5] ∧ s.on (Fld.CTX_HO_STAT_COMMIT_PEND n) = false ∧ (s.getCtx n).queue = []) ∧
    (∃ (n : Fin 255) (e : Nat) (l : List Nat) (j : Job) (q : List Job) (s : State), (s.calm ∧ (s.getCtx n).edges = e :: l ∧ (s.getCtx
      n).lastEdge = none ∧ s.ctxState n = 1 ∧ s.on (Fld.CTX_HO_STAT_COMMIT_PEND n) = false ∧ (s.getCtx n).queue = j :: q ∧ (s.getCtx
      n).prods = []) ∧ s.patchPast n j.dw = false ∧ s.startAbort n j = none ∧ (∀ p ∈ s.ctxPorts n, s.rd (Fld.HK_CH_VAL_STATE (40 + p)) ≠
      2)) ∧
    (∃ (n : Fin 255) (e : Nat) (l : List Nat) (j : Job) (q : List Job) (s : State), (s.calm ∧ (s.getCtx n).edges = e :: l ∧ (s.getCtx
      n).lastEdge = none ∧ s.ctxState n = 5 ∧ s.on (Fld.CTX_HO_STAT_COMMIT_PEND n) = false ∧ (s.getCtx n).queue = j :: q ∧ (s.getCtx
      n).prods = []) ∧ j.orphan = false ∧ s.cqRoom) ∧
    (∃ (n : Fin 255) (e : Nat) (l : List Nat) (j : Job) (q : List Job) (s : State), (s.calm ∧ (s.getCtx n).edges = e :: l ∧ (s.getCtx
      n).lastEdge = none ∧ s.ctxState n = 2 ∧ s.on (Fld.CTX_HO_STAT_COMMIT_PEND n) = false ∧ (s.getCtx n).queue = j :: q ∧ (∀ p ∈
      s.ctxPorts n, s.rd (Fld.HK_CH_VAL_STATE (40 + p)) ≠ 2)) ∧ 2 ≤ (s.getCtx n).inflight.length) ∧
    (∃ (n : Fin 255) (r : Int) (j : Job) (q : List Job) (s : State), (s.calm ∧ (s.getCtx n).toRef = some r ∧ s.rd (Fld.CTX_TIMEOUT_TIMEOUT
      n) ≠ 0 ∧ s.ctxState n ∈ [1, 2, 5] ∧ (s.rd (Fld.CTX_TIMEOUT_TIMEOUT n) : Int) ≤ travel r (s.fwdNow n) ∧ (s.getCtx n).queue = j :: q ∧
      (s.getCtx n).prods = []) ∧ j.orphan = false ∧ s.cqRoom) ∧
    (∃ (n : Fin 255) (s : State), s.calm) ∧
    (∃ (i : Fin 16) (s : State), s.calm) ∧
    (∃ (k : Nat) (s : State), s.calm) :=
  ⟨⟨31, true, 77, s93, by unfold State.calm; decide +kernel⟩,
   ⟨31, true, 3921, s94, by unfold State.calm; decide +kernel⟩,
   ⟨254, 9, [11], 5, s95, by unfold State.calm; decide +kernel⟩,
   ⟨254, 9, [11], s96, by unfold State.calm; decide +kernel⟩,
   ⟨254, 9, [11], s97, by unfold State.calm; decide +kernel⟩,
   ⟨254, 9, [11], ((⟨16, 3, false, [0x8000FE01, 7, 9, 0], none⟩ : Job)), [(⟨16, 3, false, [0x8000FE01, 7, 9, 0], none⟩ : Job)], s98,
      by unfold State.calm; decide +kernel, by decide +kernel⟩,
   ⟨254, 9, [11], ((⟨16, 3, false, [0x8000FE01, 7, 9, 0], none⟩ : Job)), [(⟨16, 3, false, [0x8000FE01, 7, 9, 0], none⟩ : Job)], s99,
      by unfold State.calm; decide +kernel, by unfold State.cqRoom; decide +kernel⟩,
   ⟨254, 9, [11], ((⟨16, 3, false, [0x8000FE01, 7, 9, 0], none⟩ : Job)), [(⟨16, 3, false, [0x8000FE01, 7, 9, 0], none⟩ : Job)], s100,
      by unfold State.calm; decide +kernel, by decide +kernel⟩,
   ⟨254, 0, ((⟨16, 3, false, [0x8000FE01, 7, 9, 0], none⟩ : Job)), [], s101, by unfold State.calm; decide +kernel,
      by unfold State.cqRoom; decide +kernel⟩,
   ⟨254, s102, by unfold State.calm; decide +kernel⟩,
   ⟨15, s103, by unfold State.calm; decide +kernel⟩,
   ⟨1, s104, by unfold State.calm; decide +kernel⟩⟩

theorem witness_EncodersAndTrackers :
    (∃ (n : Fin 16) (a : Bool) (b : Bool) (tb : BitVec 64) (s : State), s.calm ∧ s.domOn .place = true ∧ s.on (Fld.ENC_CFG_EN n) = true ∧
      s.filtered tb (s.encFilter n) = true ∧ (quadStep (s.getEncoder n).a (s.getEncoder n).b a b = 1 ∨ quadStep (s.getEncoder n).a
      (s.getEncoder n).b a b = -1)) ∧
    (∃ (n : Fin 16) (a : Bool) (b : Bool) (tb : BitVec 64) (s : State), s.calm ∧ s.domOn .place = true ∧ s.on (Fld.ENC_CFG_EN n) = true ∧
      s.filtered tb (s.encFilter n) = true ∧ quadStep (s.getEncoder n).a (s.getEncoder n).b a b = 2) ∧
    (∃ (n : Fin 16) (a : Bool) (b : Bool) (tb : BitVec 64) (s : State), s.domOn .place = true ∧ s.filtered tb (s.encFilter n) = true ∧
      (s.on (Fld.ENC_CFG_EN n) = false ∨ s.hf.active = true ∨ quadStep (s.getEncoder n).a (s.getEncoder n).b a b = 0)) ∧
    (∃ (n : Fin 16) (a : Bool) (b : Bool) (tb : BitVec 64) (s : State), (s.domOn .place = false ∨ s.filtered tb (s.encFilter n) = false)) ∧
    (∃ (n : Fin 16) (tb : BitVec 64) (z : Nat) (s : State), s.calm ∧ s.domOn .place = true ∧ s.filtered tb (s.encFilter n) = true ∧
      (s.getEncoder n).zLast = some z ∧ s.rd (Fld.ENC_CFG_Z_MODE n) = 1 ∧ s.getReg (Reg.ENC_ZCPR n) ≠ 0 ∧ (signedOf 32 (patternOf 32
      (((s.getReg (Reg.ENC_CNT n)).toNat : Int) - z))).natAbs ≠ (s.getReg (Reg.ENC_ZCPR n)).toNat) ∧
    (∃ (n : Fin 16) (tb : BitVec 64) (s : State), s.calm ∧ s.domOn .place = true ∧ s.filtered tb (s.encFilter n) = true ∧ ((s.getEncoder
      n).zLast = none ∨ s.rd (Fld.ENC_CFG_Z_MODE n) ≠ 1 ∨ s.getReg (Reg.ENC_ZCPR n) = 0 ∨ (∃ z, (s.getEncoder n).zLast = some z ∧ (signedOf
      32 (patternOf 32 (((s.getReg (Reg.ENC_CNT n)).toNat : Int) - z))).natAbs = (s.getReg (Reg.ENC_ZCPR n)).toNat))) ∧
    (∃ (n : Fin 24) (p : Int) (tm : Nat) (s : State), s.calm ∧ s.domOn .place = true ∧ (s.getTracker n).meas = some (p, tm) ∧ (∀ u,
      (s.getTracker n).used = some u → u + s.minDt n ≤ tm) ∧ (s.getTracker n).mode = .still) ∧
    (∃ (n : Fin 24) (p : Int) (tm : Nat) (s : State), s.calm ∧ s.domOn .place = true ∧ (s.getTracker n).meas = some (p, tm) ∧ (∀ u,
      (s.getTracker n).used = some u → u + s.minDt n ≤ tm) ∧ (s.getTracker n).mode = .start ∧ (roundDiv (pos48 (p - s.trkPos n) * 2 ^ 48)
      (max (usQ32 tm (s.trkRef n)) 1)).natAbs < 2 ^ 31) ∧
    (∃ (n : Fin 24) (p : Int) (tm : Nat) (s : State), s.calm ∧ s.domOn .place = true ∧ (s.getTracker n).meas = some (p, tm) ∧ (∀ u,
      (s.getTracker n).used = some u → u + s.minDt n ≤ tm) ∧ (s.getTracker n).mode = .track) ∧
    (∃ (n : Fin 24) (s : State), s.calm ∧ (s.domOn .place = false ∨ (∀ p ∈ (s.getTracker n).meas, (s.getTracker n).used.isSome ∧ ∀ u ∈
      (s.getTracker n).used, p.2 < u + s.minDt n))) ∧
    (∃ (n : Fin 24) (s : State), s.calm ∧ s.domOn .place = true ∧ (s.getTracker n).te + s.stillTime n ≤ s.dibNow) ∧
    (∃ (n : Fin 24) (s : State), s.calm ∧ (s.domOn .place = false ∨ s.dibNow < (s.getTracker n).te + s.stillTime n)) :=
  ⟨⟨15, true, false, 3920, s105, by unfold State.calm; decide +kernel⟩,
   ⟨15, true, true, 99, s105, by unfold State.calm; decide +kernel⟩,
   ⟨15, true, true, 99, s94, by decide +kernel⟩,
   ⟨15, true, true, 3921, s105, by decide +kernel⟩,
   ⟨15, 3920, 5, s106, by unfold State.calm; decide +kernel⟩,
   ⟨15, 3920, s107, by unfold State.calm; decide +kernel⟩,
   ⟨23, 70000, 40200, s108, by unfold State.calm; decide +kernel⟩,
   ⟨23, 70000, 40200, s109, by unfold State.calm; decide +kernel⟩,
   ⟨23, 70000, 40200, s110, by unfold State.calm; decide +kernel⟩,
   ⟨23, s111, by unfold State.calm; decide +kernel⟩,
   ⟨23, s112, by unfold State.calm; decide +kernel⟩,
   ⟨23, s113, by unfold State.calm; decide +kernel⟩⟩

theorem witness_TimeBase :
    (∃ (s : State), s.pending = [] ∧ s.calm ∧ s.pcr.refLost = false) ∧
    (∃ (m : Master) (v : Word) (s : State), s.reaches Reg.PCR_TB_INC ∧ s.calm) ∧
    (∃ (k : Fin 17) (cross : Nat) (s : State), s.calm ∧ s.clockRuns k = true ∧ (s.getMirror k).cal = true ∧ (s.syncFound k cross).natAbs ≤
      4 * 2 ^ 24) ∧
    (∃ (k : Fin 17) (cross : Nat) (s : State), s.calm ∧ s.clockRuns k = true ∧ (s.getMirror k).cal = true ∧ 4 * 2 ^ 24 < (s.syncFound k
      cross).natAbs ∧ s.ctxs = []) ∧
    (∃ (k : Fin 17) (cross : Nat) (s : State), s.calm ∧ (s.clockRuns k = false ∨ (s.getMirror k).cal = false)) ∧
    (∃ (k : Fin 17) (trips : List Nat) (s : State), s.calm ∧ s.clockRuns k = true) ∧
    (∃ (k : Fin 17) (trips : List Nat) (s : State), s.calm ∧ s.clockRuns k = false) :=
  ⟨⟨on, by unfold State.calm; decide +kernel⟩,
   ⟨.service, 0xA0000000, on, reaches_of (by decide +kernel), by unfold State.calm; decide +kernel⟩,
   ⟨16, 10, s114, by unfold State.calm; decide +kernel⟩,
   ⟨16, 11, s114, by unfold State.calm; decide +kernel⟩,
   ⟨16, 4, on, by unfold State.calm; decide +kernel⟩,
   ⟨16, (List.replicate 256 10), s115, by unfold State.calm; decide +kernel⟩,
   ⟨16, (List.replicate 256 10), s116, by unfold State.calm; decide +kernel⟩⟩

theorem witness_ContextStageAndFireTimes :
    (∃ (slot : Fin 256) (s : State), s.calm ∧ s.domOn .place = true ∧ s.slotFree slot = false) ∧
    (∃ (slot : Fin 256) (x : Product) (s : State), (s.calm ∧ s.domOn .place = true ∧ s.slotFree slot = false ∧ (s.getCtx slot).prods = [x]
      ∧ x.upg = none ∧ x.ended = false ∧ x.status = none) ∧ x.armed = true ∧ x.reverse = false ∧ (⟨s.dibNow, s.fwdBase slot, s.predictFwd
      slot s.dibNow, quotInt 0⟩ : Visit).forward = false) ∧
    (∃ (slot : Fin 256) (c : Nat) (s : State), s.calm ∧ s.domOn .place = true ∧ s.slotFree slot = true ∧ s.urgent = some c) ∧
    (∃ (slot : Fin 256) (s : State), s.calm ∧ s.slotFree slot = true ∧ s.urgent = none) ∧
    (∃ (s : State) (c : Nat) (x : Product) (g : Group) (tv : Nat) (tc : Int) (r : _) (f : _), r ∈ g.ranges ∧ Store.get (fun _ => none)
      s.rangeFire (c * 16 + r) = some f) ∧
    (∃ (s : State) (c : Nat) (x : Product) (g : Group) (tv : Nat) (tc : Int) (r : _) (f : _), r ∈ g.ranges ∧ Store.get (fun _ => none)
      s.portFire (s.rangePort c r) = some f) :=
  ⟨⟨254, s117, by unfold State.calm; decide +kernel⟩,
   ⟨254, ((prod (job [0x8000FE01, 7, 9, 0]))), s117, by unfold State.calm; decide +kernel, by decide +kernel⟩,
   ⟨255, 254, s118, by unfold State.calm; decide +kernel⟩,
   ⟨255, on, by unfold State.calm; decide +kernel⟩,
   ⟨s119, 254, ((prod (job [0x8000FE01, 7, 9, 0]))), ⟨0, [0], 0, 0, none, false⟩, 100, 5, 0, 700, by decide +kernel⟩,
   ⟨s119, 254, ((prod (job [0x8000FE01, 7, 9, 0]))), ⟨0, [0], 0, 0, none, false⟩, 100, 5, 0, 900, by decide +kernel⟩⟩

theorem witness_DotStore :
    (∃ (m : Master) (a : BusAddr) (data : List (Option Byte)) (s : State), s.calm ∧ deviceAddr a < 0x4000000) ∧
    (∃ (m : Master) (a : BusAddr) (data : List (Option Byte)) (s : State), s.calm ∧ deviceAddr a + data.length ≤ 0x4000000 ∧ 0 <
      data.length ∧ data.length ≤ 512 ∧ s.esp.bad = [] ∧ (∀ k < 64, s.bankReady k = true)) ∧
    (∃ (m : Master) (a : BusAddr) (data : List (Option Byte)) (s : State), s.calm ∧ deviceAddr a < 0x4000000 ∧ 0 < data.length ∧ (∀ k < 64,
      s.bankPresent k = true) ∧ (∀ k < 64, s.bankReady k = false)) ∧
    (∃ (m : Master) (a : BusAddr) (data : List (Option Byte)) (s : State), s.calm ∧ 0x4000000 ≤ deviceAddr a) ∧
    (∃ (s : State), s.calm ∧ s.scrubDue = true) ∧
    (∃ (s : State), s.calm ∧ s.scrubDue = false) ∧
    (∃ (b : Fin 64) (w : Fin 0x800000) (f : BitVec 72) (s : State), s.calm ∧ (∀ w ∈ s.esp.writeBack, bankOf w ≠ b.val) ∧ s.bankReady
      (bankOf (w * 8)) = true ∧ s.badWord (w * 8) = none ∧ (onesOf f = 1 ∨ onesOf f = 2) ∧ onesOf f = 1) ∧
    (∃ (b : Fin 64) (w : Fin 0x800000) (f : BitVec 72) (s : State), s.calm ∧ (∀ w ∈ s.esp.writeBack, bankOf w ≠ b.val) ∧ s.bankReady
      (bankOf (w * 8)) = true ∧ s.badWord (w * 8) = none ∧ (onesOf f = 1 ∨ onesOf f = 2) ∧ onesOf f = 2) ∧
    (∃ (b : Fin 64) (w : Nat) (s : State), s.calm ∧ s.esp.writeBack.find? (fun w => decide (bankOf w = b)) = some w) ∧
    (∃ (b : Fin 64) (s : State), s.calm ∧ (∀ w ∈ s.esp.writeBack, bankOf w ≠ b.val)) :=
  ⟨⟨.service, ⟨.bar4, 0x3FFFFFE⟩, [some 1, none, some 3], s120, by unfold State.calm; decide +kernel⟩,
   ⟨.service, ⟨.device, 0x3FFFFF9⟩, [some 1, none, some 3], on, by unfold State.calm; decide +kernel⟩,
   ⟨.service, ⟨.device, 0x3FFFFF9⟩, [some 1, none, some 3], s121, by unfold State.calm; decide +kernel⟩,
   ⟨.service, ⟨.device, 0x4000000⟩, [some 1, none, some 3], on, by unfold State.calm; decide +kernel⟩,
   ⟨s122, by unfold State.calm; decide +kernel⟩,
   ⟨s123, by unfold State.calm; decide +kernel⟩,
   ⟨63, 0x7FFFFF, (1 <<< 63), on, by unfold State.calm; decide +kernel⟩,
   ⟨63, 0x7FFFFF, (3 <<< 63), on, by unfold State.calm; decide +kernel⟩,
   ⟨63, (63 * 0x100000), s124, by unfold State.calm; decide +kernel⟩,
   ⟨63, s125, by unfold State.calm; decide +kernel⟩⟩

theorem witness_PatchBlocks :
    (∃ (n : Fin 255) (base : Nat) (s : State), s.calm ∧ s.domOn .ds0 = true ∧ s.dsInit 0 = false ∧ (s.getCtx n).anyWaits = true ∧
      placeBlock (s.getCtx n) (s.patchSize n) (s.getCtx n).nextUnits = some base ∧ s.areaReady n base (s.getCtx n).nextUnits = true ∧
      (s.getCtx n).prodWaits = false) ∧
    (∃ (n : Fin 255) (base : Nat) (s : State), s.calm ∧ s.domOn .ds0 = true ∧ s.dsInit 0 = false ∧ (s.getCtx n).anyWaits = true ∧
      placeBlock (s.getCtx n) (s.patchSize n) (s.getCtx n).nextUnits = some base ∧ s.areaReady n base (s.getCtx n).nextUnits = true ∧
      (s.getCtx n).prodWaits = true) ∧
    (∃ (n : Fin 255) (s : State), s.calm ∧ (s.domOn .ds0 = false ∨ s.dsInit 0 = true ∨ (s.getCtx n).anyWaits = false ∨ placeBlock (s.getCtx
      n) (s.patchSize n) (s.getCtx n).nextUnits = none)) ∧
    (∃ (n : Fin 255) (k : Fin 2) (o : Nat) (j : Job) (w : BarWrite) (s : State), (s.calm ∧ ((s.getCtx n).jobs.filter (fun j => j.fetching
      k))[o]? = some j ∧ (j.fetch k).id ≠ 0 ∧ (j.fetch k).wr = patchBytes j.dw k ∧ s.bar.writes = [w] ∧ w.chan = 32 ∧ w.id = (j.fetch
      k).id) ∧ s.esp.bad = [] ∧ (∀ k < 64, s.bankReady k = true)) ∧
    (∃ (n : Fin 255) (k : Fin 2) (o : Nat) (s : State), s.calm ∧ (∀ j, ((s.getCtx n).jobs.filter (fun j => j.fetching k))[o]? = some j →
      (j.fetch k).id = 0 ∨ (j.fetch k).wr ≠ patchBytes j.dw k)) :=
  ⟨⟨254, 0, s126, by unfold State.calm; decide +kernel⟩,
   ⟨254, 0, s127, by unfold State.calm; decide +kernel⟩,
   ⟨254, s128, by unfold State.calm; decide +kernel⟩,
   ⟨254, 0, 0, ({ (job [0x8000FE01, 7, 9, 0, 0x40000000, 0, 0x1000, 0, 0x00400001, 0x00000040, 0, 0, 0, 0, 0, 0]) with block := some ⟨0, 1, { Fetch.reset with id := 7, rd := 64, wr := 64 }, Fetch.reset, false⟩ }),
      ((⟨32, 7, true, 0x400, 0, List.replicate 64 7⟩ : BarWrite)), s129, by unfold State.calm; decide +kernel, by decide +kernel⟩,
   ⟨254, 0, 0, s128, by unfold State.calm; decide +kernel⟩⟩

theorem witness_CompositionSettings :
    (∃ (m : Master) (d : Fin 4096) (v : Word) (s : State) (u : State), s.reaches (Reg.PLD_W3 d) ∧ u = s.writeCode m (Reg.PLD_W3 d) v ∧
      s.calm ∧ plValid (u.plateWords d) = true ∧ u.plateReason (u.plateWords d) ≠ 0) ∧
    (∃ (m : Master) (d : Fin 4096) (v : Word) (s : State) (u : State), s.reaches (Reg.PLD_W3 d) ∧ u = s.writeCode m (Reg.PLD_W3 d) v ∧
      s.calm ∧ (plValid (u.plateWords d) = false ∨ u.plateReason (u.plateWords d) = 0)) ∧
    (∃ (m : Master) (e : Fin 8192) (v : Word) (s : State) (u : State), s.reaches (Reg.GRF_SUB_W3 e) ∧ u = s.writeCode m (Reg.GRF_SUB_W3 e)
      v ∧ s.calm ∧ bitOf (u.getReg (Reg.GRF_SUB_W0 e)) 31 = true ∧ u.subReason e (u.subWords e) ≠ 0) ∧
    (∃ (m : Master) (n : Fin 255) (v : Word) (s : State), s.reaches (Reg.SHR_CTX_ALIGN_R n) ∧ s.calm) ∧
    (∃ (m : Master) (n : Fin 255) (v : Word) (s : State), s.reaches (Reg.SHR_CTX_ALIGN_R n) ∧ s.calm ∧ Store.get (fun _ => none) s.staged
      (masterKey m (Reg.SHR_CTX_ALIGN_F n)) = none ∧ Store.get (fun _ => none) s.staged (masterKey m (Reg.SHR_CTX_SCAN n)) = none) ∧
    (∃ (m : Master) (z : Fin 64) (v : Word) (s : State) (u : State), s.reaches (Reg.SHR_ZONE_B z) ∧ u = s.writeCode m (Reg.SHR_ZONE_B z) v
      ∧ s.calm ∧ u.on (Fld.SHR_ZONE_A_EN z) = true ∧ (u.rd (Fld.SHR_ZONE_A_CTX z) = 0 ∨ u.rd (Fld.SHR_ZONE_A_CTX z) = 255)) ∧
    (∃ (m : Master) (z : Fin 64) (v : Word) (s : State) (u : State), s.reaches (Reg.SHR_ZONE_B z) ∧ u = s.writeCode m (Reg.SHR_ZONE_B z) v
      ∧ s.calm ∧ (u.on (Fld.SHR_ZONE_A_EN z) = false ∨ (u.rd (Fld.SHR_ZONE_A_CTX z) ≠ 0 ∧ u.rd (Fld.SHR_ZONE_A_CTX z) ≠ 255))) ∧
    (∃ (m : Master) (v : Word) (s : State), s.reaches Reg.SHR_CHECK ∧ s.calm ∧ s.on Fld.SHR_CHECK_BUSY = false) ∧
    (∃ (m : Master) (v : Word) (s : State), s.reaches Reg.SHR_CHECK ∧ s.calm ∧ s.on Fld.SHR_CHECK_BUSY = true) ∧
    (∃ (a : Nat) (b : Nat) (c : Nat) (r : Option (Nat × Nat)) (s : State), s.calm ∧ s.maskCheck = some (a, b, c, r)) ∧
    (∃ (s : State), s.calm ∧ s.maskCheck = none) ∧
    (∃ (m : Master) (v : Word) (s : State), s.reaches Reg.GRF_NSET ∧ s.calm ∧ s.portPresent (bitsOf v 19 16) = true) ∧
    (∃ (m : Master) (v : Word) (s : State), s.reaches Reg.GRF_NSET ∧ s.calm ∧ s.portPresent (bitsOf v 19 16) = false) :=
  ⟨⟨.service, 4095, 4, s130, ((s130).writeCode (.service) (Reg.PLD_W3 4095) (4)), reaches_of (by decide +kernel), rfl,
      by unfold State.calm; decide +kernel⟩,
   ⟨.service, 4095, 4, s131, ((s131).writeCode (.service) (Reg.PLD_W3 4095) (4)), reaches_of (by decide +kernel), rfl,
      by unfold State.calm; decide +kernel⟩,
   ⟨.service, 8191, 0, s132, ((s132).writeCode (.service) (Reg.GRF_SUB_W3 8191) (0)), reaches_of (by decide +kernel), rfl,
      by unfold State.calm; decide +kernel⟩,
   ⟨.service, 254, 7, s133, reaches_of (by decide +kernel), by unfold State.calm; decide +kernel⟩,
   ⟨.service, 254, 7, s134, reaches_of (by decide +kernel), by unfold State.calm; decide +kernel⟩,
   ⟨.service, 63, 7, s135, ((s135).writeCode (.service) (Reg.SHR_ZONE_B 63) (7)), reaches_of (by decide +kernel), rfl,
      by unfold State.calm; decide +kernel⟩,
   ⟨.service, 63, 7, on, ((on).writeCode (.service) (Reg.SHR_ZONE_B 63) (7)), reaches_of (by decide +kernel), rfl,
      by unfold State.calm; decide +kernel⟩,
   ⟨.service, 0x01014567, on, reaches_of (by decide +kernel), by unfold State.calm; decide +kernel⟩,
   ⟨.service, 0x0101456F, s136, reaches_of (by decide +kernel), by unfold State.calm; decide +kernel⟩,
   ⟨1, 2, 3, (some (4095, 7)), s137, by unfold State.calm; decide +kernel⟩,
   ⟨on, by unfold State.calm; decide +kernel⟩,
   ⟨.service, 0x800F0FFF, on, reaches_of (by decide +kernel), by unfold State.calm; decide +kernel⟩,
   ⟨.service, 0x800F0FFF, s138, reaches_of (by decide +kernel), by unfold State.calm; decide +kernel⟩⟩

theorem witness_Composition :
    (∃ (k : LineKey) (rest : List LineKey) (x : Product) (y : Product) (g : Group) (p : Nat) (out : List (Nat × Nat × Nat)) (l : PLine) (s
      : State) (u : State), (s.calm ∧ s.esp.queue = k :: rest ∧ s.enginesHeld < 8 ∧ s.diePaused s.esp.taken = false ∧ s.findProd k.ctx
      k.prod = some x ∧ x.groups.find? (fun h => h.num == k.group) = some g ∧ s.groupPorts k.ctx g = [p]) ∧ State.composeRequest
      { s with esp := { s.esp with queue := rest, taken := some s.tb.toNat } } k x g = (.levels out, y, u) ∧ (s.getPort p).lines = [l] ∧
      l.key = k ∧ l.entry = none ∧ s.esp.waiting = []) ∧
    (∃ (s : State), s.calm ∧ (s.esp.queue = [] ∨ 8 ≤ s.enginesHeld ∨ s.diePaused s.esp.taken = true)) ∧
    (∃ (p : Fin 16) (w : WaitEntry) (l : PLine) (s : State), s.calm ∧ s.esp.waiting = [w] ∧ w.port = p.val ∧ (s.getPort p).lines = [l] ∧
      l.key = w.key ∧ l.entry = none ∧ w.entry.void = false) ∧
    (∃ (p : Fin 16) (s : State), s.calm ∧ ((∀ w ∈ s.esp.waiting, w.port ≠ p.val) ∨ 64 ≤ s.fifoLevel p)) :=
  ⟨⟨((⟨254, 0, 0, 0, 0⟩ : LineKey)), [], ({ (prod (job [0x8000FE01, 7, 9, 0])) with groups := [(⟨0, [0], 0, 0, some 0, false⟩ : Group)] }),
      ((State.composeRequest { b12 with esp := { b12.esp with queue := [], taken := some 0 } } (⟨254, 0, 0, 0, 0⟩ : LineKey)
      ({ (prod (job [0x8000FE01, 7, 9, 0])) with groups := [(⟨0, [0], 0, 0, some 0, false⟩ : Group)] }) (⟨0, [0], 0, 0, some 0, false⟩ :
      Group)).2.1), ((⟨0, [0], 0, 0, some 0, false⟩ : Group)), 15,
      (match (State.composeRequest { b12 with esp := { b12.esp with queue := [], taken := some 0 } } (⟨254, 0, 0, 0, 0⟩ : LineKey) ({ (prod (job [0x8000FE01, 7, 9, 0])) with groups := [(⟨0, [0], 0, 0, some 0, false⟩ : Group)] }) (⟨0, [0], 0, 0, some 0, false⟩ : Group)).1 with | .levels o => o | _ => []),
      ({ line with entry := none }), s139, s140, by unfold State.calm; decide +kernel, by decide +kernel⟩,
   ⟨s141, by unfold State.calm; decide +kernel⟩,
   ⟨15, ((⟨15, (⟨254, 0, 0, 0, 0⟩ : LineKey), ⟨false, [(3, 2)]⟩⟩ : WaitEntry)), ({ line with entry := none }), s142,
      by unfold State.calm; decide +kernel⟩,
   ⟨14, s142, by unfold State.calm; decide +kernel⟩⟩

theorem witness_PortReadiness :
    (∃ (m : Master) (p : Fin 16) (v : Word) (s : State), s.reaches (Reg.PORT_CFG p) ∧ s.calm ∧ s.on (Fld.PORT_CFG_EN p) = false) ∧
    (∃ (m : Master) (p : Fin 16) (v : Word) (s : State), s.reaches (Reg.PORT_CFG p) ∧ s.calm ∧ s.on (Fld.PORT_CFG_EN p) = true) ∧
    (∃ (m : Master) (p : Fin 16) (v : Word) (s : State), s.reaches (Reg.PORT_CFG p) ∧ s.calm ∧ s.on (Fld.PORT_CFG_EN p) = true ∧ s.portMode
      p = 2) ∧
    (∃ (m : Master) (p : Fin 16) (v : Word) (s : State), s.reaches (Reg.PORT_CFG p) ∧ s.calm ∧ s.on (Fld.PORT_CFG_EN p) = true ∧ s.portMode
      p ≠ 2) ∧
    (∃ (m : Master) (p : Fin 16) (v : Word) (s : State), s.reaches (Reg.PORT_CFG p) ∧ s.calm ∧ s.on (Fld.PORT_CFG_EN p) = false) ∧
    (∃ (p : Fin 16) (s : State), s.calm ∧ s.portEligible p = true ∧ (s.getPort p).ramped = false ∧ s.rampEnded p = true) ∧
    (∃ (p : Fin 16) (s : State), s.calm ∧ s.portEligible p = true ∧ (s.getPort p).ramped = false ∧ s.rampEnded p = false ∧ ((s.getWave
      p).entry = none ∨ s.rampPast p = true)) ∧
    (∃ (p : Fin 16) (s : State), s.calm ∧ (s.portEligible p = false ∨ (s.getPort p).ramped = true ∨ ((s.getWave p).entry.isSome ∧
      s.rampPast p = false))) ∧
    (∃ (p : Fin 16) (keep : Bool) (s : State) (u : State) (t : State), t = State.watchPort s keep u p ∧ s.portReady p = true ∧ u.portReady
      p = false) ∧
    (∃ (p : Fin 16) (keep : Bool) (s : State) (u : State) (t : State), t = State.watchPort s keep u p ∧ s.portReady p = true ∧ u.portReady
      p = false) ∧
    (∃ (p : Fin 16) (keep : Bool) (s : State) (u : State) (t : State), t = State.watchPort s keep u p ∧ s.portReady p = true ∧ u.portReady
      p = false) ∧
    (∃ (p : Fin 16) (keep : Bool) (s : State) (u : State) (t : State), t = State.watchPort s keep u p ∧ s.portReady p = true ∧ u.portReady
      p = false) ∧
    (∃ (p : Fin 16) (keep : Bool) (s : State) (u : State) (t : State), t = State.watchPort s keep u p ∧ s.portReady p = true ∧ u.portReady
      p = false ∧ keep = false) :=
  ⟨⟨.service, 15, 0x84000040, on, reaches_of (by decide +kernel), by unfold State.calm; decide +kernel⟩,
   ⟨.service, 15, 0, s143, reaches_of (by decide +kernel), by unfold State.calm; decide +kernel⟩,
   ⟨.service, 15, 0, s143, reaches_of (by decide +kernel), by unfold State.calm; decide +kernel⟩,
   ⟨.service, 15, 0, s144, reaches_of (by decide +kernel), by unfold State.calm; decide +kernel⟩,
   ⟨.service, 15, 0xFFFFFFFF, on, reaches_of (by decide +kernel), by unfold State.calm; decide +kernel⟩,
   ⟨15, s145, by unfold State.calm; decide +kernel⟩,
   ⟨15, s146, by unfold State.calm; decide +kernel⟩,
   ⟨15, s147, by unfold State.calm; decide +kernel⟩,
   ⟨15, false, s148, s149, s150, rfl, by decide +kernel⟩,
   ⟨15, false, s148, s149, s150, rfl, by decide +kernel⟩,
   ⟨15, false, s148, s149, s150, rfl, by decide +kernel⟩,
   ⟨15, false, s148, s149, s150, rfl, by decide +kernel⟩,
   ⟨15, false, s148, s149, s150, rfl, by decide +kernel⟩⟩

theorem witness_QuietPointsAndShift :
    (∃ (p : Fin 16) (b : Nat) (s : State) (u : State), u = s.onPort p (fun x => { x with bin := s.chooseBin p }) ∧ (s.calm ∧ s.portReady p
      = true ∧ (s.getPort p).lines = [] ∧ (s.getPort p).pulse = none ∧ s.loading p = false ∧ (s.getPort p).tableEnd ≤ s.mirrorNow p ∧ b =
      bitPs (s.portMode p) (s.rd (Fld.PORT_CFG_RATE p))) ∧ u.roseErr p ≠ 0) ∧
    (∃ (p : Fin 16) (b : Nat) (s : State) (u : State), u = s.onPort p (fun x => { x with bin := s.chooseBin p }) ∧ (s.calm ∧ s.portReady p
      = true ∧ (s.getPort p).lines = [] ∧ (s.getPort p).pulse = none ∧ s.loading p = false ∧ (s.getPort p).tableEnd ≤ s.mirrorNow p ∧ b =
      bitPs (s.portMode p) (s.rd (Fld.PORT_CFG_RATE p))) ∧ u.roseErr p = 0 ∧ s.portMode p ≠ 2) ∧
    (∃ (p : Fin 16) (s : State), s.calm ∧ (s.portReady p = false ∨ (s.getPort p).lines ≠ [] ∨ (s.getPort p).pulse ≠ none ∨ s.loading p =
      true ∨ s.mirrorNow p < (s.getPort p).tableEnd)) ∧
    (∃ (p : Fin 16) (l : PLine) (e : Entry) (s : State) (u : State), u = s.purgeVoids p ∧ s.calm ∧ s.portReady p = true ∧ (s.getPort
      p).tableEnd ≤ s.mirrorNow p ∧ nextToShift (s.shiftGap p) (s.mirrorNow p) (u.getPort p).lines = some l ∧ l.entry = some e ∧ e.void =
      false ∧ s.portMode p ≠ 2) ∧
    (∃ (p : Fin 16) (l : PLine) (e : Entry) (s : State) (u : State), u = s.purgeVoids p ∧ s.calm ∧ s.portReady p = true ∧ (s.getPort
      p).tableEnd ≤ s.mirrorNow p ∧ nextToShift (s.shiftGap p) (s.mirrorNow p) (u.getPort p).lines = some l ∧ l.entry = some e ∧ e.void =
      false ∧ s.portMode p = 2) ∧
    (∃ (p : Fin 16) (s : State), s.calm ∧ (s.portReady p = false ∨ s.mirrorNow p < (s.getPort p).tableEnd)) ∧
    (∃ (p : Fin 16) (s : State) (u : State), u = s.purgeVoids p ∧ s.calm ∧ s.portReady p = true ∧ (s.getPort p).tableEnd ≤ s.mirrorNow p ∧
      (nextToShift (s.shiftGap p) (s.mirrorNow p) (u.getPort p).lines).bind PLine.entry = none) ∧
    (∃ (p : Fin 16) (s : State) (u : State) (k : Nat), u = s.purgeVoids p ∧ k = (((s.getPort p).lines.dropWhile PLine.latched).takeWhile
      PLine.void).length) ∧
    (∃ (p : Fin 16) (s : State) (u : State) (k : Nat), u = s.purgeVoids p ∧ k = (((s.getPort p).lines.dropWhile PLine.latched).takeWhile
      PLine.void).length) ∧
    (∃ (p : Fin 16) (s : State) (u : State) (k : Nat), u = s.purgeVoids p ∧ k = (((s.getPort p).lines.dropWhile PLine.latched).takeWhile
      PLine.void).length) ∧
    (∃ (p : Fin 16) (l : PLine) (rest : List PLine) (e : Entry) (start : Nat) (s : State), s.calm ∧ (s.getPort p).lines = l :: rest ∧
      l.shift = .shifting start ∧ l.entry = some e ∧ (s.getPort p).pulse = none ∧ s.latchAt p start ≤ s.mirrorNow p) ∧
    (∃ (p : Fin 16) (l : PLine) (rest : List PLine) (start : Nat) (s : State), s.calm ∧ (s.getPort p).lines = l :: rest ∧ l.shift =
      .shifting start ∧ ((s.getPort p).pulse ≠ none ∨ s.mirrorNow p < s.latchAt p start)) ∧
    (∃ (p : Fin 16) (s : State), s.calm ∧ (s.getPort p).lines.head?.all (fun l => match l.shift, l.entry with | .shifting _, some _ => false | _, _ => true) = true) :=
  ⟨⟨15, (bitPs ((ready 15 0 on).portMode 15) ((ready 15 0 on).rd (Fld.PORT_CFG_RATE 15))), s151, s152, rfl,
      by unfold State.calm; decide +kernel, by decide +kernel⟩,
   ⟨15, (bitPs (b16.portMode 15) (b16.rd (Fld.PORT_CFG_RATE 15))), s153, s154, rfl, by unfold State.calm; decide +kernel,
      by decide +kernel⟩,
   ⟨15, on, by unfold State.calm; decide +kernel⟩,
   ⟨15, line, ((⟨false, [(3, 2)]⟩ : Entry)), s155, s156, rfl, by unfold State.calm; decide +kernel⟩,
   ⟨15, line, ((⟨false, [(3, 2)]⟩ : Entry)), s157, s158, rfl, by unfold State.calm; decide +kernel⟩,
   ⟨15, s159, by unfold State.calm; decide +kernel⟩,
   ⟨15, s151, s160, rfl, by unfold State.calm; decide +kernel⟩,
   ⟨15, s155, s156, 0, rfl, by decide +kernel⟩,
   ⟨15, s155, s156, 0, rfl, by decide +kernel⟩,
   ⟨15, s155, s156, 0, rfl, by decide +kernel⟩,
   ⟨15, (({ line with shift := .shifting 50 } : PLine)), [], ((⟨false, [(3, 2)]⟩ : Entry)), 50, s161, by unfold State.calm; decide +kernel⟩,
   ⟨15, (({ line with shift := .shifting 50 } : PLine)), [], 50, s162, by unfold State.calm; decide +kernel⟩,
   ⟨15, s155, by unfold State.calm; decide +kernel⟩⟩

theorem witness_JudgeAndStrobe :
    (∃ (p : Fin 16) (l : PLine) (s : State), s.calm ∧ (s.getPort p).lines.find? (fun l => l.fire.isSome && !l.arrived) = some l ∧
      (s.getPort p).sense.slot = .none) ∧
    (∃ (p : Fin 16) (s : State), s.calm ∧ (s.getPort p).lines.find? (fun l => l.fire.isSome && !l.arrived) = none) ∧
    (∃ (p : Fin 16) (l : PLine) (s : State), s.calm ∧ (s.getPort p).lines.find? (fun l => l.arrived && !l.judged) = some l ∧ s.shiftDue p l
      ≤ s.mirrorNow p ∧ s.shiftedInTime p l = false) ∧
    (∃ (p : Fin 16) (l : PLine) (s : State), s.calm ∧ (s.getPort p).lines.find? (fun l => l.arrived && !l.judged) = some l ∧ s.shiftDue p l
      ≤ s.mirrorNow p ∧ s.shiftedInTime p l = false ∧ l.entry = none) ∧
    (∃ (p : Fin 16) (l : PLine) (s : State), s.calm ∧ (s.getPort p).lines.find? (fun l => l.arrived && !l.judged) = some l ∧ s.shiftDue p l
      ≤ s.mirrorNow p ∧ s.shiftedInTime p l = true) ∧
    (∃ (p : Fin 16) (l : PLine) (s : State), s.calm ∧ (s.getPort p).lines.find? (fun l => l.arrived && !l.judged) = some l ∧ (s.mirrorNow p
      : Int) < s.shiftDue p l) ∧
    (∃ (p : Fin 16) (s : State), s.calm ∧ (s.getPort p).lines.find? (fun l => l.arrived && !l.judged) = none) ∧
    (∃ (p : Fin 16) (l : PLine) (rest : List PLine) (e : Entry) (f : Nat) (s : State), (s.calm ∧ (s.getPort p).lines = l :: rest ∧ l.fire =
      some f ∧ l.entry = some e ∧ l.judged = true ∧ s.rd (Fld.HK_CH_VAL_STATE (40 + p)) ≠ 3 ∧ s.strobeDue p f = true) ∧ s.latchedInTime p l
      f = true ∧ l.key.ctx < 256 ∧ s.gated p = false ∧ s.portMode p ≠ 2) ∧
    (∃ (p : Fin 16) (l : PLine) (rest : List PLine) (e : Entry) (f : Nat) (s : State), (s.calm ∧ (s.getPort p).lines = l :: rest ∧ l.fire =
      some f ∧ l.entry = some e ∧ l.judged = true ∧ s.rd (Fld.HK_CH_VAL_STATE (40 + p)) ≠ 3 ∧ s.strobeDue p f = true) ∧ s.latchedInTime p l
      f = true ∧ l.key.ctx < 256 ∧ s.gated p = false ∧ s.portMode p = 2) ∧
    (∃ (p : Fin 16) (l : PLine) (rest : List PLine) (e : Entry) (f : Nat) (s : State), (s.calm ∧ (s.getPort p).lines = l :: rest ∧ l.fire =
      some f ∧ l.entry = some e ∧ l.judged = true ∧ s.rd (Fld.HK_CH_VAL_STATE (40 + p)) ≠ 3 ∧ s.strobeDue p f = true) ∧ s.latchedInTime p l
      f = true ∧ l.key.ctx < 256 ∧ s.gated p = true) ∧
    (∃ (p : Fin 16) (l : PLine) (rest : List PLine) (e : Entry) (f : Nat) (s : State), (s.calm ∧ (s.getPort p).lines = l :: rest ∧ l.fire =
      some f ∧ l.entry = some e ∧ l.judged = true ∧ s.rd (Fld.HK_CH_VAL_STATE (40 + p)) ≠ 3 ∧ s.strobeDue p f = true) ∧ s.latchedInTime p l
      f = false ∧ l.key.ctx < 256) ∧
    (∃ (p : Fin 16) (l : PLine) (rest : List PLine) (s : State), s.calm ∧ (s.getPort p).lines = l :: rest ∧ (l.fire = none ∨ l.entry = none
      ∨ l.judged = false ∨ s.rd (Fld.HK_CH_VAL_STATE (40 + p)) = 3 ∨ s.strobeDue p (l.fire.getD 0) = false)) ∧
    (∃ (p : Fin 16) (s : State), s.calm ∧ (s.getPort p).lines = []) ∧
    (∃ (p : Fin 16) (x : PulseNow) (s : State), s.calm ∧ (s.getPort p).pulse = some x ∧ (s.getPort p).pulseEnd ≤ s.mirrorNow p ∧
      (s.crvState p ≠ 0 ∨ x.ctx = 0)) ∧
    (∃ (p : Fin 16) (s : State), s.calm ∧ ((s.getPort p).pulse = none ∨ s.mirrorNow p < (s.getPort p).pulseEnd)) :=
  ⟨⟨15, (({ line with fire := some 90000 } : PLine)), s163, by unfold State.calm; decide +kernel⟩,
   ⟨15, s164, by unfold State.calm; decide +kernel⟩,
   ⟨15, (({ line with fire := some 90000, arrived := true } : PLine)), s165, by unfold State.calm; decide +kernel⟩,
   ⟨15, (({ line with fire := some 90000, arrived := true, entry := none } : PLine)), s166, by unfold State.calm; decide +kernel⟩,
   ⟨15, (({ line with fire := some 90000, arrived := true, shift := .latched 50 60 } : PLine)), s167, by unfold State.calm; decide +kernel⟩,
   ⟨15, (({ line with fire := some 90000, arrived := true } : PLine)), s164, by unfold State.calm; decide +kernel⟩,
   ⟨15, s163, by unfold State.calm; decide +kernel⟩,
   ⟨15, (({ line with fire := some 90000, arrived := true, judged := true, shift := .latched 50 60 } : PLine)), [], ⟨false, [(3, 2)]⟩,
      90000, s168, by unfold State.calm; decide +kernel, by decide +kernel⟩,
   ⟨15, (({ line with fire := some 90000, arrived := true, judged := true, shift := .latched 50 60 } : PLine)), [], ⟨false, [(3, 2)]⟩,
      90000, s169, by unfold State.calm; decide +kernel, by decide +kernel⟩,
   ⟨15, (({ line with fire := some 90000, arrived := true, judged := true, shift := .latched 50 60 } : PLine)), [], ⟨false, [(3, 2)]⟩,
      90000, s170, by unfold State.calm; decide +kernel, by decide +kernel⟩,
   ⟨15, (({ line with fire := some 90000, arrived := true, judged := true, shift := .latched 50 90099 } : PLine)), [], ⟨false, [(3, 2)]⟩,
      90000, s171, by unfold State.calm; decide +kernel, by decide +kernel⟩,
   ⟨15, (({ line with fire := some 90000, arrived := true, judged := true, shift := .latched 50 60 } : PLine)), [], s172,
      by unfold State.calm; decide +kernel⟩,
   ⟨15, on, by unfold State.calm; decide +kernel⟩,
   ⟨15, ⟨90000, 8, 254⟩, s173, by unfold State.calm; decide +kernel⟩,
   ⟨15, s174, by unfold State.calm; decide +kernel⟩⟩

theorem witness_WatchdogAndGates :
    (∃ (p : Fin 16) (b : BitVec 64) (x : Expect) (s : State), s.calm ∧ s.wdOn p = true ∧ s.portPresent p = true ∧ s.domOn (.hpg (portGroup
      p)) = true ∧ s.echoBlocks p = false ∧ (s.getPort p).expects.find? (fun x => decide ((s.rd (Fld.PORT_WD_CFG_WD_MIN p) * 160 : Int) ≤
      (b.toNat * 10 : Int) - x.at_) && decide ((b.toNat * 10 : Int) - x.at_ ≤ (s.rd (Fld.PORT_WD_CFG_WD_MAX p) * 160 : Int))) = some x) ∧
    (∃ (p : Fin 16) (b : BitVec 64) (s : State), s.calm ∧ s.wdOn p = true ∧ s.portPresent p = true ∧ s.domOn (.hpg (portGroup p)) = true ∧
      s.echoBlocks p = false ∧ (s.getPort p).expects.all (fun x => decide ((b.toNat * 10 : Int) - x.at_ < (s.rd (Fld.PORT_WD_CFG_WD_MIN p)
      * 160 : Int)) || decide ((s.rd (Fld.PORT_WD_CFG_WD_MAX p) * 160 : Int) < (b.toNat * 10 : Int) - x.at_)) = true) ∧
    (∃ (p : Fin 16) (b : BitVec 64) (s : State), s.calm ∧ s.wdOn p = true ∧ s.portPresent p = true ∧ s.domOn (.hpg (portGroup p)) = true ∧
      s.echoBlocks p = false ∧ (s.getPort p).expects.all (fun x => decide ((b.toNat * 10 : Int) - x.at_ < (s.rd (Fld.PORT_WD_CFG_WD_MIN p)
      * 160 : Int)) || decide ((s.rd (Fld.PORT_WD_CFG_WD_MAX p) * 160 : Int) < (b.toNat * 10 : Int) - x.at_)) = true ∧ s.scopeState (0x100
      + p) ≠ 0) ∧
    (∃ (p : Fin 16) (tag : Byte) (off : BitVec 8) (x : Expect) (s : State), s.calm ∧ s.wdOn p = true ∧ s.portPresent p = true ∧ s.domOn
      (.hpg (portGroup p)) = true ∧ s.echoBlocks p = true ∧ (s.getPort p).expects.find? (fun x => x.tag == tag.toNat) = some x ∧
      off.toInt.natAbs ≤ s.rd (Fld.PORT_WD_CFG_WD_TOL p)) ∧
    (∃ (p : Fin 16) (tag : Byte) (off : BitVec 8) (x : Expect) (s : State), s.calm ∧ s.wdOn p = true ∧ s.portPresent p = true ∧ s.domOn
      (.hpg (portGroup p)) = true ∧ s.echoBlocks p = true ∧ (s.getPort p).expects.find? (fun x => x.tag == tag.toNat) = some x ∧ s.rd
      (Fld.PORT_WD_CFG_WD_TOL p) < off.toInt.natAbs) ∧
    (∃ (p : Fin 16) (tag : Byte) (off : BitVec 8) (s : State), s.calm ∧ s.wdOn p = true ∧ s.portPresent p = true ∧ s.domOn (.hpg (portGroup
      p)) = true ∧ s.echoBlocks p = true ∧ (s.getPort p).expects.find? (fun x => x.tag == tag.toNat) = none) ∧
    (∃ (p : Fin 16) (tag : Byte) (off : BitVec 8) (s : State), s.calm ∧ s.wdOn p = true ∧ s.portPresent p = true ∧ s.domOn (.hpg (portGroup
      p)) = true ∧ s.echoBlocks p = true ∧ (s.getPort p).expects.find? (fun x => x.tag == tag.toNat) = none ∧ s.scopeState (0x100 + p) ≠ 0)
      ∧
    (∃ (p : Fin 16) (e : Echo) (s : State), s.calm ∧ (s.wdOn p = false ∨ s.portPresent p = false ∨ s.domOn (.hpg (portGroup p)) = false ∨
      s.echoFits p e = false)) ∧
    (∃ (p : Fin 16) (x : Expect) (rest : List Expect) (s : State), s.calm ∧ s.wdOn p = true ∧ (s.getPort p).expects = x :: rest) ∧
    (∃ (p : Fin 16) (x : Expect) (rest : List Expect) (s : State), s.calm ∧ s.wdOn p = false ∧ (s.getPort p).expects = x :: rest) ∧
    (∃ (p : Fin 16) (s : State), s.calm ∧ (s.getPort p).expects = []) ∧
    (∃ (p : Fin 16) (s : State), s.calm ∧ s.wdOn p = true ∧ s.portPresent p = true ∧ s.domOn (.hpg (portGroup p)) = true ∧ s.echoBlocks p =
      false) ∧
    (∃ (p : Fin 16) (s : State), s.calm ∧ s.wdOn p = true ∧ s.portPresent p = true ∧ s.domOn (.hpg (portGroup p)) = true ∧ s.echoBlocks p =
      false ∧ s.scopeState (0x100 + p) ≠ 0) ∧
    (∃ (p : Fin 16) (s : State), s.calm ∧ (s.wdOn p = false ∨ s.portPresent p = false ∨ s.domOn (.hpg (portGroup p)) = false ∨ s.echoBlocks
      p = true)) ∧
    (∃ (p : Fin 16) (g : Fin 48) (level : Bool) (s : State), s.calm ∧ s.numbered ∧ s.portPresent p = true ∧ s.domOn (.hpg (portGroup p)) =
      true ∧ (s.getGate p g).active = false ∧ s.rd (Fld.PORT_GATE_ACT p g) ≠ 0 ∧ level ≠ s.on (Fld.PORT_GATE_POL p g)) ∧
    (∃ (p : Fin 16) (g : Fin 48) (level : Bool) (s : State), s.calm ∧ s.numbered ∧ s.portPresent p = true ∧ s.domOn (.hpg (portGroup p)) =
      true ∧ (s.getGate p g).active = false ∧ (s.rd (Fld.PORT_GATE_ACT p g) = 0 ∨ level = s.on (Fld.PORT_GATE_POL p g))) ∧
    (∃ (p : Fin 16) (g : Fin 48) (level : Bool) (s : State), s.calm ∧ s.numbered ∧ s.portPresent p = true ∧ s.domOn (.hpg (portGroup p)) =
      true ∧ (s.getGate p g).active = true ∧ s.rd (Fld.PORT_GATE_ACT p g) ≠ 0) ∧
    (∃ (p : Fin 16) (g : Fin 48) (level : Bool) (s : State), s.calm ∧ (s.portPresent p = false ∨ s.domOn (.hpg (portGroup p)) = false)) ∧
    (∃ (m : Master) (p : Fin 16) (hi : Bool) (g : Fin 48) (v : Word) (s : State), s.reaches (if hi then Reg.PORT_GSTAT_HI p else
      Reg.PORT_GSTAT_LO p) ∧ s.calm ∧ s.numbered ∧ hi = decide (32 ≤ g.val) ∧ bitOf v (g % 32) = true ∧ (s.getGate p g).active = true ∧
      (s.getGate p g).level = s.on (Fld.PORT_GATE_POL p g)) ∧
    (∃ (m : Master) (p : Fin 16) (hi : Bool) (g : Fin 48) (v : Word) (s : State), s.reaches (if hi then Reg.PORT_GSTAT_HI p else
      Reg.PORT_GSTAT_LO p) ∧ s.calm ∧ s.numbered ∧ hi = decide (32 ≤ g.val) ∧ (bitOf v (g % 32) = false ∨ (s.getGate p g).active = false ∨
      (s.getGate p g).level ≠ s.on (Fld.PORT_GATE_POL p g))) ∧
    (∃ (m : Master) (p : Fin 16) (g : Fin 48) (v : Word) (held : Option Nat) (s : State) (u : State), s.reaches (Reg.PORT_GATE p g) ∧ u =
      s.setReg (Reg.PORT_GATE p g) ((s.getReg (Reg.PORT_GATE p g) &&& 0x0FFF0000) ||| (v &&& 0xF000FFFF)) ∧ s.calm ∧ s.numbered) :=
  ⟨⟨15, 1016, ⟨10000, 3⟩, s175, by unfold State.calm; decide +kernel⟩,
   ⟨15, 1015, s175, by unfold State.calm; decide +kernel⟩,
   ⟨15, 1065, s176, by unfold State.calm; decide +kernel⟩,
   ⟨15, 3, 0xF8, ⟨10000, 3⟩, s177, by unfold State.calm; decide +kernel⟩,
   ⟨15, 3, 0x80, ⟨10000, 3⟩, s177, by unfold State.calm; decide +kernel⟩,
   ⟨15, 9, 0x80, s178, by unfold State.calm; decide +kernel⟩,
   ⟨15, 9, 0x80, s179, by unfold State.calm; decide +kernel⟩,
   ⟨15, (.edge 3), on, by unfold State.calm; decide +kernel⟩,
   ⟨15, ⟨10000, 3⟩, [], s175, by unfold State.calm; decide +kernel⟩,
   ⟨15, ⟨10000, 3⟩, [], s180, by unfold State.calm; decide +kernel⟩,
   ⟨15, on, by unfold State.calm; decide +kernel⟩,
   ⟨15, s181, by unfold State.calm; decide +kernel⟩,
   ⟨15, s182, by unfold State.calm; decide +kernel⟩,
   ⟨15, on, by unfold State.calm; decide +kernel⟩,
   ⟨15, 47, true, s183, by unfold State.numbered State.calm; decide +kernel⟩,
   ⟨15, 47, false, s183, by unfold State.numbered State.calm; decide +kernel⟩,
   ⟨15, 31, true, s184, by unfold State.numbered State.calm; decide +kernel⟩,
   ⟨15, 31, true, s138, by unfold State.calm; decide +kernel⟩,
   ⟨.service, 15, false, 31, 0x80000000, s185, reaches_of (by decide +kernel), by unfold State.numbered State.calm; decide +kernel⟩,
   ⟨.service, 15, false, 31, 0x80000000, s186, reaches_of (by decide +kernel), by unfold State.numbered State.calm; decide +kernel⟩,
   ⟨.service, 15, 47, 0xF0001234, none, on, s187, reaches_of (by decide +kernel), rfl, by unfold State.numbered State.calm; decide +kernel⟩⟩

theorem witness_NeveTraining :
    (∃ (p : Fin 16) (b : List Byte) (rtt : Nat) (b7 : List Nat) (v : Nat) (m : Nat) (s : State), (s.calm ∧ s.nvStage p = 1 ∧ b7 =
      (List.range 7).map (fun i => (b.getD i 0).toNat) ∧ b7.getD 0 0 = 0 ∧ (s.getPort p).neve.last = b7 ∧ (s.getPort p).neve.same = 7 ∧ v =
      min (s.nvVmax p) (b7.getD 1 0)) ∧ m = b7.getD 3 0 &&& s.rd (Fld.NV_CFG_RATES p) &&& (if v = 1 then 3 else 7) &&& (7 - (s.getPort
      p).neve.excl % 8) ∧ max 1 (b7.getD 2 0) ≤ v ∧ m ≠ 0) ∧
    (∃ (p : Fin 16) (b : List Byte) (rtt : Nat) (b7 : List Nat) (v : Nat) (m : Nat) (s : State), (s.calm ∧ s.nvStage p = 1 ∧ b7 =
      (List.range 7).map (fun i => (b.getD i 0).toNat) ∧ b7.getD 0 0 = 0 ∧ (s.getPort p).neve.last = b7 ∧ (s.getPort p).neve.same = 7 ∧ v =
      min (s.nvVmax p) (b7.getD 1 0)) ∧ m = b7.getD 3 0 &&& s.rd (Fld.NV_CFG_RATES p) &&& (if v = 1 then 3 else 7) &&& (7 - (s.getPort
      p).neve.excl % 8) ∧ (v < max 1 (b7.getD 2 0) ∨ m = 0)) ∧
    (∃ (p : Fin 16) (b : List Byte) (rtt : Nat) (v : Nat) (r : Nat) (s : State), (s.calm ∧ s.nvStage p = 2 ∧ b.getD 0 0 = 1 ∧ v = s.rd
      (Fld.NV_STAT_VER p) ∧ r = 2 ^ (s.rd (Fld.NV_STAT_RATE p) - 1) ∧ (b.getD 1 0).toNat = v ∧ (b.getD 3 0).toNat = r) ∧ (s.getPort
      p).neve.last = [1] ∧ (s.getPort p).neve.same = 7) ∧
    (∃ (p : Fin 16) (b : List Byte) (rtt : Nat) (turn : Nat) (lat : Nat) (trips : Store (Option (Nat × Nat))) (s : State), (s.calm ∧
      s.nvStage p = 3 ∧ b.getD 0 0 = 2 ∧ (b.getD 6 0).toNat < 16 ∧ turn = (b.getD 4 0).toNat + 256 * (b.getD 5 0).toNat ∧ trips = Store.put
      (fun _ => none) (s.getPort p).neve.trips (b.getD 6 0).toNat (some (rtt, turn)) ∧ trips.length = 16) ∧ lat = (roundDiv ((twiceMedian
      (trips.filterMap (fun e => e.2.map (fun x => x.1))) : Nat) - 2 * (turn : Int)) 4).toNat ∧ (lat + s.rd (Fld.NV_LAT_HEAD_LAT p)) * 250
      + 2 * blockPs (s.rd (Fld.NV_STAT_RATE p)) ≤ s.clat p * 250 + 100000) ∧
    (∃ (p : Fin 16) (b : List Byte) (rtt : Nat) (turn : Nat) (lat : Nat) (trips : Store (Option (Nat × Nat))) (s : State), (s.calm ∧
      s.nvStage p = 3 ∧ b.getD 0 0 = 2 ∧ (b.getD 6 0).toNat < 16 ∧ turn = (b.getD 4 0).toNat + 256 * (b.getD 5 0).toNat ∧ trips = Store.put
      (fun _ => none) (s.getPort p).neve.trips (b.getD 6 0).toNat (some (rtt, turn)) ∧ trips.length = 16) ∧ lat = (roundDiv ((twiceMedian
      (trips.filterMap (fun e => e.2.map (fun x => x.1))) : Nat) - 2 * (turn : Int)) 4).toNat ∧ s.clat p * 250 + 100000 < (lat + s.rd
      (Fld.NV_LAT_HEAD_LAT p)) * 250 + 2 * blockPs (s.rd (Fld.NV_STAT_RATE p))) ∧
    (∃ (p : Fin 16) (b : List Byte) (rtt : Nat) (s : State), s.calm ∧ s.nvStage p = 4 ∧ b.getD 0 0 = 3 ∧ (s.getPort p).neve.last = [3] ∧
      (s.getPort p).neve.same = 7) ∧
    (∃ (p : Fin 16) (b : List Byte) (rtt : Nat) (s : State), s.calm ∧ (s.nvStage p = 0 ∨ 5 ≤ s.nvStage p)) ∧
    (∃ (p : Fin 16) (b : List Byte) (rtt : Nat) (s : State), s.calm ∧ 1 ≤ s.nvStage p ∧ s.nvStage p ≤ 4 ∧ (b.getD 0 0).toNat + 1 ≠
      s.nvStage p) ∧
    (∃ (p : Fin 16) (s : State), s.calm ∧ s.nvStage p = 1) ∧
    (∃ (p : Fin 16) (s : State), s.calm ∧ s.nvStage p = 2 ∧ (s.getPort p).neve.selFails < 2) ∧
    (∃ (p : Fin 16) (s : State), s.calm ∧ s.nvStage p = 2 ∧ 2 ≤ (s.getPort p).neve.selFails) ∧
    (∃ (p : Fin 16) (s : State), s.calm ∧ (s.nvStage p = 3 ∨ s.nvStage p = 4)) ∧
    (∃ (p : Fin 16) (s : State), s.calm ∧ (s.nvStage p = 0 ∨ 5 ≤ s.nvStage p)) ∧
    (∃ (p : Fin 16) (s : State), s.calm ∧ s.portMode p = 2 ∧ s.on (Fld.PORT_CFG_EN p) = true ∧ (s.getPort p).neve.seqOk = true ∧
      ((s.getPort p).neve.retry = .again ∨ ((s.getPort p).neve.retry = .series ∧ s.on (Fld.NV_CFG_AUTO_RETRAIN p) = true))) ∧
    (∃ (p : Fin 16) (s : State), s.calm ∧ ((s.getPort p).neve.retry = .none ∨ ((s.getPort p).neve.retry = .series ∧ s.on
      (Fld.NV_CFG_AUTO_RETRAIN p) = false))) ∧
    (∃ (m : Master) (p : Fin 16) (v : Word) (s : State), s.reaches (Reg.NV_CFG p) ∧ s.calm ∧ s.portMode p = 2 ∧ s.on (Fld.PORT_CFG_EN p) =
      true ∧ (s.getPort p).neve.seqOk = true) ∧
    (∃ (p : Fin 16) (hdrs : List (BitVec 2)) (s : State), s.calm ∧ s.portMode p = 2 ∧ (s.getPort p).neve.seqOk = true ∧ s.on
      (Fld.PORT_CFG_EN p) = true ∧ 16 ≤ badHeaders hdrs ∧ s.nvStage p = 5) ∧
    (∃ (p : Fin 16) (hdrs : List (BitVec 2)) (s : State), s.calm ∧ s.portMode p = 2 ∧ (s.getPort p).neve.seqOk = true ∧ s.on
      (Fld.PORT_CFG_EN p) = true ∧ (badHeaders hdrs < 16 ∨ s.nvStage p ≠ 5)) ∧
    (∃ (p : Fin 16) (hdrs : List (BitVec 2)) (s : State), s.calm ∧ (s.portMode p ≠ 2 ∨ (s.getPort p).neve.seqOk = false ∨ s.on
      (Fld.PORT_CFG_EN p) = false)) :=
  ⟨⟨15, [0, 2, 1, 7, 9, 1, 0, 9], 5, [0, 2, 1, 7, 9, 1, 0], 2, 7, s188, by unfold State.calm; decide +kernel, by decide +kernel⟩,
   ⟨15, [0, 2, 9, 7, 0, 0, 0, 9], 5, [0, 2, 9, 7, 0, 0, 0], 2, 7, s189, by unfold State.calm; decide +kernel, by decide +kernel⟩,
   ⟨15, [1, 2, 1, 4], 0, 2, 4, s190, by unfold State.calm; decide +kernel, by decide +kernel⟩,
   ⟨15, [2, 0, 0, 0, 40, 0, 15], 1000, 40, 480, ((List.range 15).map (fun i => (i, some (1000, 40))) ++ [(15, some (1000, 40))]), s191,
      by unfold State.calm; decide +kernel, by decide +kernel⟩,
   ⟨15, [2, 0, 0, 0, 40, 0, 15], 60000, 40, 29980, ((List.range 15).map (fun i => (i, some (60000, 40))) ++ [(15, some (60000, 40))]),
      s192, by unfold State.calm; decide +kernel, by decide +kernel⟩,
   ⟨15, [3], 5, s193, by unfold State.calm; decide +kernel⟩,
   ⟨15, [3], 5, s194, by unfold State.calm; decide +kernel⟩,
   ⟨15, [3], 5, s195, by unfold State.calm; decide +kernel⟩,
   ⟨15, s196, by unfold State.calm; decide +kernel⟩,
   ⟨15, s197, by unfold State.calm; decide +kernel⟩,
   ⟨15, s198, by unfold State.calm; decide +kernel⟩,
   ⟨15, s199, by unfold State.calm; decide +kernel⟩,
   ⟨15, s194, by unfold State.calm; decide +kernel⟩,
   ⟨15, s200, by unfold State.calm; decide +kernel⟩,
   ⟨15, s201, by unfold State.calm; decide +kernel⟩,
   ⟨.service, 15, 0x83000005, s194, reaches_of (by decide +kernel), by unfold State.calm; decide +kernel⟩,
   ⟨15, (List.replicate 16 0), s194, by unfold State.calm; decide +kernel⟩,
   ⟨15, (1 :: List.replicate 15 3), s194, by unfold State.calm; decide +kernel⟩,
   ⟨15, (List.replicate 16 3), on, by unfold State.calm; decide +kernel⟩⟩

theorem witness_NeveTraffic :
    (∃ (p : Fin 16) (tag : Byte) (reason : Byte) (s : State), s.calm ∧ s.portMode p = 2 ∧ s.linked p = true ∧ s.tagOwner p tag.toNat =
      none) ∧
    (∃ (p : Fin 16) (tag : Byte) (reason : Byte) (c : Nat) (id : Nat) (x : Product) (y : Product) (t : State) (s : State), exec (.lineErr p
      tag reason) s = .next t ∧ (s.calm ∧ s.portMode p = 2 ∧ s.linked p = true ∧ c < 256 ∧ s.tagOwner p tag.toNat = some (c, id) ∧
      s.findProd c id = some x ∧ x.status = none) ∧ x.ended = false ∧ t.findProd c id = some y) ∧
    (∃ (p : Fin 16) (item : Fin 8) (v : BitVec 16) (s : State), s.calm ∧ s.portMode p = 2 ∧ s.linked p = true ∧ (item.val < 4 ∨ s.rd
      (Fld.NV_STAT_VER p) = 2)) ∧
    (∃ (p : Fin 16) (s : State), s.calm ∧ s.portMode p = 2 ∧ s.domOn (.hpg (portGroup p)) = true) ∧
    (∃ (p : Fin 16) (tag : Byte) (reason : Byte) (item : Fin 8) (v : BitVec 16) (s : State), s.calm ∧ (s.portMode p ≠ 2 ∨ s.linked p =
      false)) ∧
    (∃ (p : Fin 16) (tag : Byte) (reason : Byte) (item : Fin 8) (v : BitVec 16) (s : State), s.calm ∧ (s.portMode p ≠ 2 ∨ s.linked p =
      false)) ∧
    (∃ (p : Fin 16) (tag : Byte) (reason : Byte) (item : Fin 8) (v : BitVec 16) (s : State), s.calm ∧ (s.portMode p ≠ 2 ∨ s.linked p =
      false)) ∧
    (∃ (p : Fin 16) (tag : Byte) (reason : Byte) (item : Fin 8) (v : BitVec 16) (s : State), s.calm ∧ (s.portMode p ≠ 2 ∨ s.linked p =
      false) ∧ s.portMode p ≠ 2) ∧
    (∃ (p : Fin 16) (item : Fin 8) (v : BitVec 16) (s : State), s.calm ∧ 4 ≤ item.val ∧ s.rd (Fld.NV_STAT_VER p) ≠ 2) ∧
    (∃ (m : Master) (p : Fin 16) (v : Word) (s : State), s.reaches (Reg.NV_HREG_CMD p) ∧ s.calm ∧ s.portMode p = 2 ∧ s.linked p = true ∧
      s.on (Fld.NV_HREG_CMD_BUSY p) = false ∧ (s.getPort p).neve.hreg = []) ∧
    (∃ (m : Master) (p : Fin 16) (v : Word) (s : State), s.reaches (Reg.NV_HREG_CMD p) ∧ s.calm ∧ (s.portMode p ≠ 2 ∨ s.linked p = false ∨
      s.on (Fld.NV_HREG_CMD_BUSY p) = true)) ∧
    (∃ (p : Fin 16) (o : HregOp) (data : Word) (s : State), s.calm ∧ s.portMode p = 2 ∧ s.linked p = true ∧ (s.getPort p).neve.hreg = [o] ∧
      o.owner = .master) ∧
    (∃ (p : Fin 16) (o : HregOp) (data : Word) (s : State), s.calm ∧ s.portMode p = 2 ∧ s.linked p = true ∧ (s.getPort p).neve.hreg = [o] ∧
      o.owner = .master) ∧
    (∃ (p : Fin 16) (o : HregOp) (rest : List HregOp) (s : State), s.calm ∧ s.portMode p = 2 ∧ s.linked p = true ∧ (s.getPort p).neve.hreg
      = o :: rest ∧ o.owner = .rose) ∧
    (∃ (p : Fin 16) (code : Byte) (data : Word) (s : State), s.calm ∧ ((s.getPort p).neve.hreg = [] ∨ s.portMode p ≠ 2 ∨ s.linked p = false
      ∨ (code ≠ 0x81 ∧ code ≠ 0x82 ∧ code ≠ 0xFF))) ∧
    (∃ (p : Fin 16) (o : HregOp) (s : State), s.calm ∧ (s.getPort p).neve.hreg = [o] ∧ o.owner = .master) ∧
    (∃ (p : Fin 16) (s : State), s.calm ∧ (s.getPort p).neve.hreg = []) ∧
    (∃ (p : Fin 16) (s : State), s.calm ∧ (s.getPort p).neve.reload = true ∧ s.portMode p = 2 ∧ s.linked p = true) ∧
    (∃ (p : Fin 16) (s : State), s.calm ∧ (s.getPort p).neve.reload = false) :=
  ⟨⟨15, 7, 1, s194, by unfold State.calm; decide +kernel⟩,
   ⟨15, 7, 1, 254, 0, ((W.prod (W.job []))), (((after (.lineErr 15 7 1) b42).findProd 254 0).getD (W.prod (W.job []))), s203, s202, rfl,
      by unfold State.calm; decide +kernel, by decide +kernel⟩,
   ⟨15, 7, 0x8001, s194, by unfold State.calm; decide +kernel⟩,
   ⟨15, s194, by unfold State.calm; decide +kernel⟩,
   ⟨15, 7, 1, 7, 0x8001, s204, by unfold State.calm; decide +kernel⟩,
   ⟨15, 7, 1, 7, 0x8001, s204, by unfold State.calm; decide +kernel⟩,
   ⟨15, 7, 1, 7, 0x8001, s204, by unfold State.calm; decide +kernel⟩,
   ⟨15, 7, 1, 7, 0x8001, on, by unfold State.calm; decide +kernel⟩,
   ⟨15, 7, 0x8001, on, by unfold State.calm; decide +kernel⟩,
   ⟨.service, 15, 0x80010123, s194, reaches_of (by decide +kernel), by unfold State.calm; decide +kernel⟩,
   ⟨.service, 15, 0x80010123, s204, reaches_of (by decide +kernel), by unfold State.calm; decide +kernel⟩,
   ⟨15, ((⟨.master, true, 5, 6⟩ : HregOp)), 9, s205, by unfold State.calm; decide +kernel⟩,
   ⟨15, ((⟨.master, true, 5, 6⟩ : HregOp)), 9, s205, by unfold State.calm; decide +kernel⟩,
   ⟨15, ((⟨.rose, true, 0x100, 6⟩ : HregOp)), [(⟨.master, false, 5, 0⟩ : HregOp)], s206, by unfold State.calm; decide +kernel⟩,
   ⟨15, 0x81, 9, s194, by unfold State.calm; decide +kernel⟩,
   ⟨15, ((⟨.master, true, 5, 6⟩ : HregOp)), s205, by unfold State.calm; decide +kernel⟩,
   ⟨15, s194, by unfold State.calm; decide +kernel⟩,
   ⟨15, s207, by unfold State.calm; decide +kernel⟩,
   ⟨15, s194, by unfold State.calm; decide +kernel⟩⟩

theorem witness_RoseLoads :
    (∃ (src : HostRead) (c : MpCmd) (s : State), s.carries 0x20 c ∧ (c.desc.reservedSet (commandLayout [0x70F, 0x10FFF, 0xFFFFFFFF,
      0xFFFFFFFF, 0xFFF0FFF, 0xFFF0FFF, 0xFFF0FFF, 0xFFF, 0xFFFFFF0F, 0xFFFF, 0x1FFF1FFF]) = true ∨ s.portPresent (c.desc.fld 2 3 0) =
      false)) ∧
    (∃ (src : HostRead) (c : MpCmd) (s : State), s.carries 0x21 c ∧ (c.desc.reservedSet (commandLayout [0xF, 0x10000, 0xFFFFFFFF,
      0xFFFFFFFF, 0xFFFF, 0x1FFF1FFF]) = true ∨ s.portPresent (c.desc.fld 2 3 0) = false)) ∧
    (∃ (src : HostRead) (c : MpCmd) (s : State), s.carries 0x22 c ∧ (c.desc.reservedSet (commandLayout [0xF, 0x10000, 0xFFFFFFFF,
      0xFFFFFFFF]) = true ∨ s.portPresent (c.desc.fld 2 3 0) = false)) ∧
    (∃ (src : HostRead) (c : MpCmd) (s : State), s.calm ∧ s.loadCommand 0x20 = none) ∧
    (∃ (src : HostRead) (c : MpCmd) (s : State), s.calm ∧ s.loadCommand 0x21 = none) ∧
    (∃ (src : HostRead) (c : MpCmd) (s : State), s.calm ∧ s.loadCommand 0x22 = none) ∧
    (∃ (a : Nat) (n : Nat) (pre : List Nat) (src : HostRead) (s : State), s.hostBus = false) ∧
    (∃ (a : Nat) (n : Nat) (pre : List Nat) (src : HostRead) (s : State), s.hostBus = true) ∧
    (∃ (src : HostRead) (c : MpCmd) (len : Nat) (s : State), s.carries 0x20 c ∧ c.desc.reservedSet (commandLayout [0x70F, 0x10FFF,
      0xFFFFFFFF, 0xFFFFFFFF, 0xFFF0FFF, 0xFFF0FFF, 0xFFF0FFF, 0xFFF, 0xFFFFFF0F, 0xFFFF, 0x1FFF1FFF]) = false ∧ s.portPresent (c.desc.fld
      2 3 0) = true ∧ len = c.desc.fld 3 11 0 ∧ (len = 0 ∨ 2048 < len ∨ windowsOk (c.desc.fld 10 3 0) len (waveEnds c.desc) = false ∨
      recordOk (c.desc.fld 12 12 0) (c.desc.fld 12 28 16) = false)) ∧
    (∃ (src : HostRead) (c : MpCmd) (x : Fed) (p : Nat) (w : Nat) (len : Nat) (s : State) (v : State), (s.carries 0x20 c ∧
      c.desc.reservedSet (commandLayout [0x70F, 0x10FFF, 0xFFFFFFFF, 0xFFFFFFFF, 0xFFF0FFF, 0xFFF0FFF, 0xFFF0FFF, 0xFFF, 0xFFFFFF0F,
      0xFFFF, 0x1FFF1FFF]) = false ∧ s.portPresent p = true ∧ p = c.desc.fld 2 3 0 ∧ w = c.desc.fld 2 10 8 ∧ len = c.desc.fld 3 11 0 ∧ 1 ≤
      len) ∧ (len ≤ 2048 ∧ windowsOk (c.desc.fld 10 3 0) len (waveEnds c.desc) = true ∧ recordOk (c.desc.fld 12 12 0) (c.desc.fld 12 28 16)
      = true ∧ s.feed (bitOf (dwAt c.desc.dw 3) 16) (c.desc.wide 4) (2 * len) c.fed src = (x, v) ∧ v.cqRoom ∧ v.host.cqQueue =
      s.host.cqQueue ∧ x.state ≠ .failed) ∧ s.mp.cmd = none ∧ v.slotInUse p w = true) ∧
    (∃ (src : HostRead) (c : MpCmd) (x : Fed) (p : Nat) (w : Nat) (len : Nat) (s : State) (v : State), (s.carries 0x20 c ∧
      c.desc.reservedSet (commandLayout [0x70F, 0x10FFF, 0xFFFFFFFF, 0xFFFFFFFF, 0xFFF0FFF, 0xFFF0FFF, 0xFFF0FFF, 0xFFF, 0xFFFFFF0F,
      0xFFFF, 0x1FFF1FFF]) = false ∧ s.portPresent p = true ∧ p = c.desc.fld 2 3 0 ∧ w = c.desc.fld 2 10 8 ∧ len = c.desc.fld 3 11 0 ∧ 1 ≤
      len) ∧ (len ≤ 2048 ∧ windowsOk (c.desc.fld 10 3 0) len (waveEnds c.desc) = true ∧ recordOk (c.desc.fld 12 12 0) (c.desc.fld 12 28 16)
      = true ∧ s.feed (bitOf (dwAt c.desc.dw 3) 16) (c.desc.wide 4) (2 * len) c.fed src = (x, v) ∧ v.cqRoom ∧ v.host.cqQueue =
      s.host.cqQueue ∧ x.state ≠ .failed) ∧ s.mp.cmd = none ∧ v.slotInUse p w = false ∧ v.mpMay 4 = false ∧ v.mp.cmd = none) ∧
    (∃ (src : HostRead) (c : MpCmd) (x : Fed) (p : Nat) (w : Nat) (len : Nat) (s : State) (v : State), (s.carries 0x20 c ∧
      c.desc.reservedSet (commandLayout [0x70F, 0x10FFF, 0xFFFFFFFF, 0xFFFFFFFF, 0xFFF0FFF, 0xFFF0FFF, 0xFFF0FFF, 0xFFF, 0xFFFFFF0F,
      0xFFFF, 0x1FFF1FFF]) = false ∧ s.portPresent p = true ∧ p = c.desc.fld 2 3 0 ∧ w = c.desc.fld 2 10 8 ∧ len = c.desc.fld 3 11 0 ∧ 1 ≤
      len) ∧ (len ≤ 2048 ∧ windowsOk (c.desc.fld 10 3 0) len (waveEnds c.desc) = true ∧ recordOk (c.desc.fld 12 12 0) (c.desc.fld 12 28 16)
      = true ∧ s.feed (bitOf (dwAt c.desc.dw 3) 16) (c.desc.wide 4) (2 * len) c.fed src = (x, v) ∧ v.cqRoom ∧ v.host.cqQueue =
      s.host.cqQueue ∧ x.state = .whole) ∧ (s.mp.cmd = none → v.slotInUse p w = false) ∧ v.mayLoad 4 = true ∧ v.domOn (.hpg (portGroup p))
      = true) ∧
    (∃ (src : HostRead) (c : MpCmd) (x : Fed) (p : Nat) (w : Nat) (len : Nat) (s : State) (v : State), (s.carries 0x20 c ∧
      c.desc.reservedSet (commandLayout [0x70F, 0x10FFF, 0xFFFFFFFF, 0xFFFFFFFF, 0xFFF0FFF, 0xFFF0FFF, 0xFFF0FFF, 0xFFF, 0xFFFFFF0F,
      0xFFFF, 0x1FFF1FFF]) = false ∧ s.portPresent p = true ∧ p = c.desc.fld 2 3 0 ∧ w = c.desc.fld 2 10 8 ∧ len = c.desc.fld 3 11 0 ∧ 1 ≤
      len) ∧ (len ≤ 2048 ∧ windowsOk (c.desc.fld 10 3 0) len (waveEnds c.desc) = true ∧ recordOk (c.desc.fld 12 12 0) (c.desc.fld 12 28 16)
      = true ∧ s.feed (bitOf (dwAt c.desc.dw 3) 16) (c.desc.wide 4) (2 * len) c.fed src = (x, v) ∧ v.cqRoom ∧ v.host.cqQueue =
      s.host.cqQueue ∧ x.state = .more) ∧ (s.mp.cmd = none → v.slotInUse p w = false) ∧ v.mayLoad 4 = true ∧ v.domOn (.hpg (portGroup p)) =
      true ∧ s.mp.cmd = none ∧ v.holder 4 = 0) ∧
    (∃ (src : HostRead) (c : MpCmd) (x : Fed) (p : Nat) (w : Nat) (len : Nat) (s : State) (v : State), (s.carries 0x20 c ∧
      c.desc.reservedSet (commandLayout [0x70F, 0x10FFF, 0xFFFFFFFF, 0xFFFFFFFF, 0xFFF0FFF, 0xFFF0FFF, 0xFFF0FFF, 0xFFF, 0xFFFFFF0F,
      0xFFFF, 0x1FFF1FFF]) = false ∧ s.portPresent p = true ∧ p = c.desc.fld 2 3 0 ∧ w = c.desc.fld 2 10 8 ∧ len = c.desc.fld 3 11 0 ∧ 1 ≤
      len) ∧ (len ≤ 2048 ∧ windowsOk (c.desc.fld 10 3 0) len (waveEnds c.desc) = true ∧ recordOk (c.desc.fld 12 12 0) (c.desc.fld 12 28 16)
      = true ∧ s.feed (bitOf (dwAt c.desc.dw 3) 16) (c.desc.wide 4) (2 * len) c.fed src = (x, v) ∧ v.cqRoom ∧ v.host.cqQueue =
      s.host.cqQueue ∧ x.state = .failed) ∧ (s.mp.cmd.isSome ∨ (v.slotInUse p w = false ∧ v.mpMay 4 = true)) ∧ v.domOn (.hpg (portGroup p))
      = true) ∧
    (∃ (src : HostRead) (c : MpCmd) (x : Fed) (p : Nat) (w : Nat) (len : Nat) (s : State) (v : State), (s.carries 0x20 c ∧
      c.desc.reservedSet (commandLayout [0x70F, 0x10FFF, 0xFFFFFFFF, 0xFFFFFFFF, 0xFFF0FFF, 0xFFF0FFF, 0xFFF0FFF, 0xFFF, 0xFFFFFF0F,
      0xFFFF, 0x1FFF1FFF]) = false ∧ s.portPresent p = true ∧ p = c.desc.fld 2 3 0 ∧ w = c.desc.fld 2 10 8 ∧ len = c.desc.fld 3 11 0 ∧ 1 ≤
      len) ∧ (len ≤ 2048 ∧ windowsOk (c.desc.fld 10 3 0) len (waveEnds c.desc) = true ∧ recordOk (c.desc.fld 12 12 0) (c.desc.fld 12 28 16)
      = true ∧ s.feed (bitOf (dwAt c.desc.dw 3) 16) (c.desc.wide 4) (2 * len) c.fed src = (x, v) ∧ v.cqRoom ∧ v.host.cqQueue =
      s.host.cqQueue ∧ x.state = .whole) ∧ (s.mp.cmd = none → v.slotInUse p w = false) ∧ v.mayLoad 4 = true ∧ v.domOn (.hpg (portGroup p))
      = false) ∧
    (∃ (src : HostRead) (c : MpCmd) (s : State), s.carries 0x21 c ∧ c.desc.reservedSet (commandLayout [0xF, 0x10000, 0xFFFFFFFF,
      0xFFFFFFFF, 0xFFFF, 0x1FFF1FFF]) = false ∧ s.portPresent (c.desc.fld 2 3 0) = true ∧ recordOk (c.desc.fld 7 12 0) (c.desc.fld 7 28
      16) = false) ∧
    (∃ (src : HostRead) (c : MpCmd) (x : Fed) (p : Nat) (s : State) (v : State), (s.carries 0x21 c ∧ c.desc.reservedSet (commandLayout
      [0xF, 0x10000, 0xFFFFFFFF, 0xFFFFFFFF, 0xFFFF, 0x1FFF1FFF]) = false ∧ s.portPresent p = true ∧ p = c.desc.fld 2 3 0 ∧ recordOk
      (c.desc.fld 7 12 0) (c.desc.fld 7 28 16) = true ∧ s.feed (bitOf (dwAt c.desc.dw 3) 16) (c.desc.wide 4) 192 c.fed src = (x, v) ∧
      v.cqRoom) ∧ v.host.cqQueue = s.host.cqQueue ∧ v.mp = s.mp ∧ x.state = .failed) ∧
    (∃ (src : HostRead) (c : MpCmd) (x : Fed) (p : Nat) (s : State) (v : State), (s.carries 0x21 c ∧ c.desc.reservedSet (commandLayout
      [0xF, 0x10000, 0xFFFFFFFF, 0xFFFFFFFF, 0xFFFF, 0x1FFF1FFF]) = false ∧ s.portPresent p = true ∧ p = c.desc.fld 2 3 0 ∧ recordOk
      (c.desc.fld 7 12 0) (c.desc.fld 7 28 16) = true ∧ s.feed (bitOf (dwAt c.desc.dw 3) 16) (c.desc.wide 4) 192 c.fed src = (x, v) ∧
      v.cqRoom) ∧ v.host.cqQueue = s.host.cqQueue ∧ v.mp = s.mp ∧ x.state = .more) ∧
    (∃ (src : HostRead) (c : MpCmd) (x : Fed) (p : Nat) (s : State) (v : State) (b : _) (k : _), (s.carries 0x21 c ∧ c.desc.reservedSet
      (commandLayout [0xF, 0x10000, 0xFFFFFFFF, 0xFFFFFFFF, 0xFFFF, 0x1FFF1FFF]) = false ∧ s.portPresent p = true ∧ p = c.desc.fld 2 3 0 ∧
      recordOk (c.desc.fld 7 12 0) (c.desc.fld 7 28 16) = true ∧ s.feed (bitOf (dwAt c.desc.dw 3) 16) (c.desc.wide 4) 192 c.fed src = (x,
      v) ∧ v.cqRoom) ∧ v.host.cqQueue = s.host.cqQueue ∧ v.mp = s.mp ∧ x.state = .whole ∧ firstBadBin (v.portMode p) (v.maxlenNow p)
      x.bytes = some (b, k)) ∧
    (∃ (src : HostRead) (c : MpCmd) (x : Fed) (p : Nat) (s : State) (v : State), (s.carries 0x21 c ∧ c.desc.reservedSet (commandLayout
      [0xF, 0x10000, 0xFFFFFFFF, 0xFFFFFFFF, 0xFFFF, 0x1FFF1FFF]) = false ∧ s.portPresent p = true ∧ p = c.desc.fld 2 3 0 ∧ recordOk
      (c.desc.fld 7 12 0) (c.desc.fld 7 28 16) = true ∧ s.feed (bitOf (dwAt c.desc.dw 3) 16) (c.desc.wide 4) 192 c.fed src = (x, v) ∧
      v.cqRoom) ∧ v.host.cqQueue = s.host.cqQueue ∧ v.mp = s.mp ∧ x.state = .whole ∧ firstBadBin (v.portMode p) (v.maxlenNow p) x.bytes =
      none ∧ v.mpMay 4 = false) ∧
    (∃ (src : HostRead) (c : MpCmd) (x : Fed) (p : Nat) (s : State) (v : State), (s.carries 0x21 c ∧ c.desc.reservedSet (commandLayout
      [0xF, 0x10000, 0xFFFFFFFF, 0xFFFFFFFF, 0xFFFF, 0x1FFF1FFF]) = false ∧ s.portPresent p = true ∧ p = c.desc.fld 2 3 0 ∧ recordOk
      (c.desc.fld 7 12 0) (c.desc.fld 7 28 16) = true ∧ s.feed (bitOf (dwAt c.desc.dw 3) 16) (c.desc.wide 4) 192 c.fed src = (x, v) ∧
      v.cqRoom) ∧ v.host.cqQueue = s.host.cqQueue ∧ v.mp = s.mp ∧ x.state = .whole ∧ firstBadBin (v.portMode p) (v.maxlenNow p) x.bytes =
      none ∧ v.mpMay 4 = true ∧ v.domOn (.hpg (portGroup p)) = true) ∧
    (∃ (src : HostRead) (c : MpCmd) (x : Fed) (p : Nat) (s : State) (v : State), (s.carries 0x22 c ∧ c.desc.reservedSet (commandLayout
      [0xF, 0x10000, 0xFFFFFFFF, 0xFFFFFFFF]) = false ∧ s.portPresent p = true ∧ p = c.desc.fld 2 3 0 ∧ s.feed (bitOf (dwAt c.desc.dw 3)
      16) (c.desc.wide 4) 66 c.fed src = (x, v) ∧ v.cqRoom ∧ v.host.cqQueue = s.host.cqQueue) ∧ v.mp = s.mp ∧ x.state = .failed) ∧
    (∃ (src : HostRead) (c : MpCmd) (x : Fed) (p : Nat) (s : State) (v : State), (s.carries 0x22 c ∧ c.desc.reservedSet (commandLayout
      [0xF, 0x10000, 0xFFFFFFFF, 0xFFFFFFFF]) = false ∧ s.portPresent p = true ∧ p = c.desc.fld 2 3 0 ∧ s.feed (bitOf (dwAt c.desc.dw 3)
      16) (c.desc.wide 4) 66 c.fed src = (x, v) ∧ v.cqRoom ∧ v.host.cqQueue = s.host.cqQueue) ∧ v.mp = s.mp ∧ x.state = .more) ∧
    (∃ (src : HostRead) (c : MpCmd) (x : Fed) (p : Nat) (s : State) (v : State), (s.carries 0x22 c ∧ c.desc.reservedSet (commandLayout
      [0xF, 0x10000, 0xFFFFFFFF, 0xFFFFFFFF]) = false ∧ s.portPresent p = true ∧ p = c.desc.fld 2 3 0 ∧ s.feed (bitOf (dwAt c.desc.dw 3)
      16) (c.desc.wide 4) 66 c.fed src = (x, v) ∧ v.cqRoom ∧ v.host.cqQueue = s.host.cqQueue) ∧ v.mp = s.mp ∧ x.state = .whole ∧ v.mpMay 4
      = false) ∧
    (∃ (src : HostRead) (c : MpCmd) (x : Fed) (p : Nat) (s : State) (v : State), (s.carries 0x22 c ∧ c.desc.reservedSet (commandLayout
      [0xF, 0x10000, 0xFFFFFFFF, 0xFFFFFFFF]) = false ∧ s.portPresent p = true ∧ p = c.desc.fld 2 3 0 ∧ s.feed (bitOf (dwAt c.desc.dw 3)
      16) (c.desc.wide 4) 66 c.fed src = (x, v) ∧ v.cqRoom ∧ v.host.cqQueue = s.host.cqQueue) ∧ v.mp = s.mp ∧ x.state = .whole ∧ v.mpMay 4
      = true ∧ v.domOn (.hpg (portGroup p)) = true) :=
  ⟨⟨⟨[1,2,3,0x80], false⟩, ⟨⟨15, [0x80000020, 7, 0x0080020F, 2, 0x1000, 0, 0, 0, 0, 0, 1, 0x1234, 0x10000000]⟩, 0, [], [], none⟩, s208,
      by unfold State.carries State.calm State.cqRoom; decide +kernel⟩,
   ⟨⟨[1,2,3,0x80], false⟩, ⟨⟨15, [0x80000021, 7, 31, 0, 0x1000, 0, 0x1234, 0x10000000]⟩, 0, [], [], none⟩, s209,
      by unfold State.carries State.calm State.cqRoom; decide +kernel⟩,
   ⟨⟨[1,2,3,0x80], false⟩, ⟨⟨15, [0x80000022, 7, 0x4F, 0, 0x1000, 0]⟩, 0, [], [], none⟩, s210,
      by unfold State.carries State.calm State.cqRoom; decide +kernel⟩,
   ⟨⟨[1,2,3,0x80], false⟩, ⟨⟨15, [0x80000022, 7, 15, 0, 0x1000, 0]⟩, 0, [], [], none⟩, on, by unfold State.calm; decide +kernel⟩,
   ⟨⟨[1,2,3,0x80], false⟩, ⟨⟨15, [0x80000022, 7, 15, 0, 0x1000, 0]⟩, 0, [], [], none⟩, on, by unfold State.calm; decide +kernel⟩,
   ⟨⟨[1,2,3,0x80], false⟩, ⟨⟨15, [0x80000022, 7, 15, 0, 0x1000, 0]⟩, 0, [], [], none⟩, on, by unfold State.calm; decide +kernel⟩,
   ⟨0, 4, [1], ⟨[1,2,3,0x80], false⟩, s211, by decide +kernel⟩,
   ⟨0, 4, [1], ⟨[1,2,3,0x80], false⟩, on, by decide +kernel⟩,
   ⟨⟨[1,2,3,0x80], false⟩, ⟨⟨15, [0x80000020, 7, 0x20F, 0, 0x1000, 0, 0, 0, 0, 0, 1, 0x1234, 0x10000000]⟩, 0, [], [], none⟩, 0, s212,
      by unfold State.carries State.calm State.cqRoom; decide +kernel⟩,
   ⟨⟨[1,2,3,0x80], false⟩, ⟨⟨15, [0x80000020, 7, 0x20F, 2, 0x1000, 0, 0, 0, 0, 0, 1, 0x1234, 0x10000000]⟩, 0, [], [], none⟩, ((b45.feed
      false 0x1000 4 [] ⟨[1,2,3,0x80], false⟩).1), 15, 2, 2, s213, s214, by unfold State.carries State.calm State.cqRoom; decide +kernel,
      by unfold State.cqRoom; decide +kernel, by decide +kernel⟩,
   ⟨⟨[1,2,3,0x80], false⟩, ⟨⟨15, [0x80000020, 7, 0x20F, 2, 0x1000, 0, 0, 0, 0, 0, 1, 0x1234, 0x10000000]⟩, 0, [], [], none⟩, ((b46.feed
      false 0x1000 4 [] ⟨[1,2,3,0x80], false⟩).1), 15, 2, 2, s215, s216, by unfold State.carries State.calm State.cqRoom; decide +kernel,
      by unfold State.cqRoom; decide +kernel, by decide +kernel⟩,
   ⟨⟨[1,2,3,0x80], false⟩, ⟨⟨15, [0x80000020, 7, 0x20F, 2, 0x1000, 0, 0, 0, 0, 0, 1, 0x1234, 0x10000000]⟩, 0, [], [], none⟩, ((b47.feed
      false 0x1000 4 [] ⟨[1,2,3,0x80], false⟩).1), 15, 2, 2, s217, s218, by unfold State.carries State.calm State.cqRoom; decide +kernel,
      by unfold State.cqRoom; decide +kernel, by decide +kernel⟩,
   ⟨⟨[1,2,3], false⟩, ⟨⟨15, [0x80000020, 7, 0x20F, 2, 0x1000, 0, 0, 0, 0, 0, 1, 0x1234, 0x10000000]⟩, 0, [], [], none⟩, ((b47.feed false
      0x1000 4 [] ⟨[1,2,3], false⟩).1), 15, 2, 2, s217, s219, by unfold State.carries State.calm State.cqRoom; decide +kernel,
      by unfold State.cqRoom; decide +kernel, by decide +kernel⟩,
   ⟨⟨[1], true⟩, ⟨⟨15, [0x80000020, 7, 0x20F, 2, 0x1000, 0, 0, 0, 0, 0, 1, 0x1234, 0x10000000]⟩, 0, [], [], none⟩, ((b47.feed false 0x1000
      4 [] ⟨[1], true⟩).1), 15, 2, 2, s217, s220, by unfold State.carries State.calm State.cqRoom; decide +kernel,
      by unfold State.cqRoom; decide +kernel, by decide +kernel⟩,
   ⟨⟨[1,2,3,0x80], false⟩, ⟨⟨15, [0x80000020, 7, 0x20F, 2, 0x1000, 0, 0, 0, 0, 0, 1, 0x1234, 0x10000000]⟩, 0, [], [], none⟩, ((b48.feed
      false 0x1000 4 [] ⟨[1,2,3,0x80], false⟩).1), 15, 2, 2, s221, s222, by unfold State.carries State.calm State.cqRoom; decide +kernel,
      by unfold State.cqRoom; decide +kernel, by decide +kernel⟩,
   ⟨⟨[1,2,3,0x80], false⟩, ⟨⟨15, [0x80000021, 7, 15, 0, 0x1000, 0, 0x1234, 0x00001000]⟩, 0, [], [], none⟩, s223,
      by unfold State.carries State.calm State.cqRoom; decide +kernel⟩,
   ⟨⟨[1], true⟩, ⟨⟨15, [0x80000021, 7, 15, 0, 0x1000, 0, 0x1234, 0x10000000]⟩, 0, [], [], none⟩, ((b49.feed false 0x1000 192 [] ⟨[1],
      true⟩).1), 15, s224, s225, by unfold State.carries State.calm State.cqRoom; decide +kernel, by decide +kernel⟩,
   ⟨⟨[1], false⟩, ⟨⟨15, [0x80000021, 7, 15, 0, 0x1000, 0, 0x1234, 0x10000000]⟩, 0, [], [], none⟩, ((b49.feed false 0x1000 192 [] ⟨[1],
      false⟩).1), 15, s224, s226, by unfold State.carries State.calm State.cqRoom; decide +kernel, by decide +kernel⟩,
   ⟨⟨List.replicate 192 0, false⟩, ⟨⟨15, [0x80000021, 7, 15, 0, 0x1000, 0, 0x1234, 0x10000000]⟩, 0, [], [], none⟩, ((b50.feed false 0x1000
      192 [] ⟨List.replicate 192 0, false⟩).1), 15, s227, s228, 0, 6, by unfold State.carries State.calm State.cqRoom; decide +kernel,
      by decide +kernel⟩,
   ⟨⟨(List.replicate 48 [20,0,0,0]).flatten, false⟩, ⟨⟨15, [0x80000021, 7, 15, 0, 0x1000, 0, 0x1234, 0x10000000]⟩, 0, [], [], none⟩,
      ((b52.feed false 0x1000 192 [] ⟨(List.replicate 48 [20,0,0,0]).flatten, false⟩).1), 15, s229, s230,
      by unfold State.carries State.calm State.cqRoom; decide +kernel, by decide +kernel⟩,
   ⟨⟨(List.replicate 48 [20,0,0,0]).flatten, false⟩, ⟨⟨15, [0x80000021, 7, 15, 0, 0x1000, 0, 0x1234, 0x10000000]⟩, 0, [], [], none⟩,
      ((b50.feed false 0x1000 192 [] ⟨(List.replicate 48 [20,0,0,0]).flatten, false⟩).1), 15, s227, s231,
      by unfold State.carries State.calm State.cqRoom; decide +kernel, by decide +kernel⟩,
   ⟨⟨[1], true⟩, ⟨⟨15, [0x80000022, 7, 15, 0, 0x1000, 0]⟩, 0, [], [], none⟩, (((wait 0 ⟨15, [0x80000022, 7, 15, 0, 0x1000, 0]⟩ on).feed
      false 0x1000 66 [] ⟨[1], true⟩).1), 15, s232, s233, by unfold State.carries State.calm State.cqRoom; decide +kernel,
      by decide +kernel⟩,
   ⟨⟨[1], false⟩, ⟨⟨15, [0x80000022, 7, 15, 0, 0x1000, 0]⟩, 0, [], [], none⟩, (((wait 0 ⟨15, [0x80000022, 7, 15, 0, 0x1000, 0]⟩ on).feed
      false 0x1000 66 [] ⟨[1], false⟩).1), 15, s232, s234, by unfold State.carries State.calm State.cqRoom; decide +kernel,
      by decide +kernel⟩,
   ⟨⟨List.replicate 66 3, false⟩, ⟨⟨15, [0x80000022, 7, 15, 0, 0x1000, 0]⟩, 0, [], [], none⟩, ((b53.feed false 0x1000 66 [] ⟨List.replicate
      66 3, false⟩).1), 15, s235, s236, by unfold State.carries State.calm State.cqRoom; decide +kernel, by decide +kernel⟩,
   ⟨⟨List.replicate 66 3, false⟩, ⟨⟨15, [0x80000022, 7, 15, 0, 0x1000, 0]⟩, 0, [], [], none⟩, (((wait 0 ⟨15, [0x80000022, 7, 15, 0, 0x1000,
      0]⟩ on).feed false 0x1000 66 [] ⟨List.replicate 66 3, false⟩).1), 15, s232, s237,
      by unfold State.carries State.calm State.cqRoom; decide +kernel, by decide +kernel⟩⟩

theorem witness_Sensing :
    (∃ (p : Fin 16) (ttk : Nat) (s : State), s.calm ∧ (s.getSense p).slot = .planned ttk ∧ s.strobeDue p ttk = true ∧ (s.getSense
      p).captures = [] ∧ s.markWaits p (s.nextMark p) = false ∧ s.portMode p ≠ 2) ∧
    (∃ (p : Fin 16) (ttk : Nat) (s : State), s.calm ∧ (s.getSense p).slot = .planned ttk ∧ s.strobeDue p ttk = true ∧ (s.getSense
      p).captures = [] ∧ s.markWaits p (s.nextMark p) = false ∧ s.portMode p = 2) ∧
    (∃ (p : Fin 16) (ttk : Nat) (s : State), s.calm ∧ (s.getSense p).slot = .planned ttk ∧ s.strobeDue p ttk = true ∧ ((s.getSense
      p).captures ≠ [] ∨ s.markWaits p (s.nextMark p) = true)) ∧
    (∃ (p : Fin 16) (ttk : Nat) (s : State), s.calm ∧ (s.getSense p).slot = .planned ttk ∧ s.strobeDue p ttk = false) ∧
    (∃ (p : Fin 16) (ttk : Nat) (s : State), s.calm ∧ (s.getSense p).slot = .tickle ttk ∧ s.captureAt p ttk ≤ s.mirrorNow p) ∧
    (∃ (p : Fin 16) (ttk : Nat) (s : State), s.calm ∧ (s.getSense p).slot = .tickle ttk ∧ s.mirrorNow p < s.captureAt p ttk) ∧
    (∃ (p : Fin 16) (ttk : Nat) (tb : Nat) (x : List (BitVec 14)) (s : State), s.calm ∧ (s.getSense p).slot = .capture ttk tb ∧ tb + 12800
      ≤ s.mirrorNow p) ∧
    (∃ (p : Fin 16) (ttk : Nat) (tb : Nat) (x : List (BitVec 14)) (s : State), s.calm ∧ (s.getSense p).slot = .capture ttk tb ∧ s.mirrorNow
      p < tb + 12800) ∧
    (∃ (p : Fin 16) (x : List (BitVec 14)) (s : State), s.calm ∧ (s.getSense p).slot = .none) ∧
    (∃ (p : Fin 16) (x : List (BitVec 14)) (s : State), s.calm ∧ (s.getSense p).slot = .none) ∧
    (∃ (p : Fin 16) (x : List (BitVec 14)) (s : State), s.calm ∧ (s.getSense p).slot = .none) ∧
    (∃ (p : Fin 16) (s : State), (s.calm ∧ s.on (Fld.CRV_P_CFG_IDLE_EN p) = true ∧ s.crvState p = 0 ∧ (s.getPort p).lines = [] ∧ (s.getPort
      p).pulse = none ∧ (s.getSense p).slot = .none ∧ s.idleDue p = true) ∧ (s.getSense p).captures.length < 2 ∧ (s.portMode p = 2 →
      (s.getSense p).captures = []) ∧ s.portMode p ≠ 2) ∧
    (∃ (p : Fin 16) (s : State), (s.calm ∧ s.on (Fld.CRV_P_CFG_IDLE_EN p) = true ∧ s.crvState p = 0 ∧ (s.getPort p).lines = [] ∧ (s.getPort
      p).pulse = none ∧ (s.getSense p).slot = .none ∧ s.idleDue p = true) ∧ 2 ≤ (s.getSense p).captures.length) ∧
    (∃ (p : Fin 16) (s : State), s.calm ∧ (s.on (Fld.CRV_P_CFG_IDLE_EN p) = false ∨ s.crvState p ≠ 0 ∨ (s.getPort p).lines ≠ [] ∨
      (s.getPort p).pulse ≠ none ∨ (s.getSense p).slot ≠ .none ∨ s.idleDue p = false)) ∧
    (∃ (p : Fin 16) (k : Capture) (rest : List Capture) (c : Nat) (sc : Nat) (s : State), s.calm ∧ (s.getSense p).captures = k :: rest ∧
      k.nozzle < 4096 ∧ (∀ n, (s.getSense p).susp = some n → n < 4096) ∧ s.classify p k.samples = (c, sc) ∧ c = 0) ∧
    (∃ (p : Fin 16) (k : Capture) (rest : List Capture) (c : Nat) (sc : Nat) (s : State), (s.calm ∧ (s.getSense p).captures = k :: rest ∧
      k.nozzle < 4096 ∧ (∀ n, (s.getSense p).susp = some n → n < 4096) ∧ s.classify p k.samples = (c, sc) ∧ c ≠ 0 ∧ (s.getSense p).susp =
      some k.nozzle) ∧ (s.getSense p).pc = c ∧ (s.getSense p).cnt = 2) ∧
    (∃ (p : Fin 16) (k : Capture) (rest : List Capture) (c : Nat) (sc : Nat) (s : State), (s.calm ∧ (s.getSense p).captures = k :: rest ∧
      k.nozzle < 4096 ∧ (∀ n, (s.getSense p).susp = some n → n < 4096) ∧ s.classify p k.samples = (c, sc) ∧ c ≠ 0 ∧ (s.getSense p).susp =
      some k.nozzle) ∧ (s.getSense p).pc = c ∧ (s.getSense p).cnt < 2 ∧ (s.getSense p).tries + 1 ≤ max 2 (s.rd Fld.CRV_CFG_HOLD_MAX)) ∧
    (∃ (p : Fin 16) (k : Capture) (rest : List Capture) (c : Nat) (sc : Nat) (s : State), (s.calm ∧ (s.getSense p).captures = k :: rest ∧
      k.nozzle < 4096 ∧ (∀ n, (s.getSense p).susp = some n → n < 4096) ∧ s.classify p k.samples = (c, sc) ∧ c ≠ 0 ∧ ((s.getSense p).susp ≠
      some k.nozzle ∨ (s.getSense p).pc ≠ c)) ∧ c ≠ s.rd (classFld p k.nozzle)) ∧
    (∃ (p : Fin 16) (k : Capture) (rest : List Capture) (c : Nat) (sc : Nat) (s : State), (s.calm ∧ (s.getSense p).captures = k :: rest ∧
      k.nozzle < 4096 ∧ (∀ n, (s.getSense p).susp = some n → n < 4096) ∧ s.classify p k.samples = (c, sc) ∧ c ≠ 0 ∧ ((s.getSense p).susp ≠
      some k.nozzle ∨ (s.getSense p).pc ≠ c)) ∧ c = s.rd (classFld p k.nozzle)) ∧
    (∃ (p : Fin 16) (s : State), s.calm ∧ (s.getSense p).captures = []) :=
  ⟨⟨15, 9000, s238, by unfold State.calm; decide +kernel⟩,
   ⟨15, 9000, s239, by unfold State.calm; decide +kernel⟩,
   ⟨15, 9000, s240, by unfold State.calm; decide +kernel⟩,
   ⟨15, 9000, s241, by unfold State.calm; decide +kernel⟩,
   ⟨15, 9000, s242, by unfold State.calm; decide +kernel⟩,
   ⟨15, 9000, s243, by unfold State.calm; decide +kernel⟩,
   ⟨15, 9000, 9100, [4, -5], s244, by unfold State.calm; decide +kernel⟩,
   ⟨15, 9000, 9100, [4, 5], s245, by unfold State.calm; decide +kernel⟩,
   ⟨15, [], on, by unfold State.calm; decide +kernel⟩,
   ⟨15, [], on, by unfold State.calm; decide +kernel⟩,
   ⟨15, [], on, by unfold State.calm; decide +kernel⟩,
   ⟨15, s246, by unfold State.calm; decide +kernel, by decide +kernel⟩,
   ⟨15, s247, by unfold State.calm; decide +kernel, by decide +kernel⟩,
   ⟨15, s248, by unfold State.calm; decide +kernel⟩,
   ⟨15, ((⟨3, 5, List.replicate 256 1⟩ : Capture)), [], 0, 0, s249, by unfold State.calm; decide +kernel⟩,
   ⟨15, ((⟨3, 5, List.replicate 256 1⟩ : Capture)), [], 5, 0, s250, by unfold State.calm; decide +kernel, by decide +kernel⟩,
   ⟨15, ((⟨3, 5, List.replicate 256 1⟩ : Capture)), [], 5, 0, s251, by unfold State.calm; decide +kernel, by decide +kernel⟩,
   ⟨15, ((⟨3, 5, List.replicate 256 1⟩ : Capture)), [], 5, 0, s252, by unfold State.calm; decide +kernel, by decide +kernel⟩,
   ⟨15, ((⟨3, 5, List.replicate 256 1⟩ : Capture)), [], 5, 0, s253, by unfold State.calm; decide +kernel, by decide +kernel⟩,
   ⟨15, on, by unfold State.calm; decide +kernel⟩⟩

theorem witness_ReferenceWalk :
    (∃ (src : HostRead) (c : MpCmd) (p : Nat) (n : Nat) (s : State), s.carries 0x40 c ∧ s.walk = none ∧ p = c.desc.fld 2 3 0 ∧ n =
      c.desc.fld 3 12 0 ∧ s.portPresent p = false) ∧
    (∃ (src : HostRead) (c : MpCmd) (p : Nat) (n : Nat) (s : State), s.carries 0x40 c ∧ s.walk = none ∧ p = c.desc.fld 2 3 0 ∧ n =
      c.desc.fld 3 12 0 ∧ s.portPresent p = true ∧ (c.desc.reservedSet (commandLayout [0xF, 0x80FF1FFF, 0xFFFFFFFF, 0xFFFFFFFF]) = true ∨ n
      = 0 ∨ 4096 < n ∨ c.desc.fld 3 23 16 = 0)) ∧
    (∃ (src : HostRead) (c : MpCmd) (x : Fed) (p : Nat) (n : Nat) (s : State) (v : State), (s.carries 0x40 c ∧ s.walk = none ∧ p =
      c.desc.fld 2 3 0 ∧ n = c.desc.fld 3 12 0 ∧ s.portPresent p = true ∧ c.desc.reservedSet (commandLayout [0xF, 0x80FF1FFF, 0xFFFFFFFF,
      0xFFFFFFFF]) = false ∧ 1 ≤ n) ∧ n ≤ 4096 ∧ c.desc.fld 3 23 16 ≠ 0 ∧ s.feed (bitOf (dwAt c.desc.dw 3) 31) (c.desc.wide 4) (2 * n)
      c.fed src = (x, v) ∧ v.cqRoom ∧ v.host.cqQueue = s.host.cqQueue ∧ v.mp = s.mp ∧ x.state = .failed) ∧
    (∃ (src : HostRead) (c : MpCmd) (x : Fed) (p : Nat) (n : Nat) (s : State) (v : State), (s.carries 0x40 c ∧ s.walk = none ∧ p =
      c.desc.fld 2 3 0 ∧ n = c.desc.fld 3 12 0 ∧ s.portPresent p = true ∧ c.desc.reservedSet (commandLayout [0xF, 0x80FF1FFF, 0xFFFFFFFF,
      0xFFFFFFFF]) = false ∧ 1 ≤ n) ∧ n ≤ 4096 ∧ c.desc.fld 3 23 16 ≠ 0 ∧ s.feed (bitOf (dwAt c.desc.dw 3) 31) (c.desc.wide 4) (2 * n)
      c.fed src = (x, v) ∧ v.cqRoom ∧ v.host.cqQueue = s.host.cqQueue ∧ v.mp = s.mp ∧ x.state = .more) ∧
    (∃ (src : HostRead) (c : MpCmd) (x : Fed) (p : Nat) (n : Nat) (s : State) (v : State), (s.carries 0x40 c ∧ s.walk = none ∧ p =
      c.desc.fld 2 3 0 ∧ n = c.desc.fld 3 12 0 ∧ s.portPresent p = true ∧ c.desc.reservedSet (commandLayout [0xF, 0x80FF1FFF, 0xFFFFFFFF,
      0xFFFFFFFF]) = false ∧ 1 ≤ n) ∧ (n ≤ 4096 ∧ c.desc.fld 3 23 16 ≠ 0 ∧ s.feed (bitOf (dwAt c.desc.dw 3) 31) (c.desc.wide 4) (2 * n)
      c.fed src = (x, v) ∧ v.cqRoom ∧ v.host.cqQueue = s.host.cqQueue ∧ v.mp = s.mp ∧ x.state = .whole) ∧ refEntries (v.rd
      (Fld.PORT_CFG_NOZ p)) x.bytes n = none) ∧
    (∃ (src : HostRead) (c : MpCmd) (x : Fed) (p : Nat) (n : Nat) (s : State) (v : State) (l : _), (s.carries 0x40 c ∧ s.walk = none ∧ p =
      c.desc.fld 2 3 0 ∧ n = c.desc.fld 3 12 0 ∧ s.portPresent p = true ∧ c.desc.reservedSet (commandLayout [0xF, 0x80FF1FFF, 0xFFFFFFFF,
      0xFFFFFFFF]) = false ∧ 1 ≤ n) ∧ (n ≤ 4096 ∧ c.desc.fld 3 23 16 ≠ 0 ∧ s.feed (bitOf (dwAt c.desc.dw 3) 31) (c.desc.wide 4) (2 * n)
      c.fed src = (x, v) ∧ v.cqRoom ∧ v.host.cqQueue = s.host.cqQueue ∧ v.mp = s.mp ∧ x.state = .whole) ∧ refEntries (v.rd
      (Fld.PORT_CFG_NOZ p)) x.bytes n = some l ∧ (v.ctxState 0 ≠ 1 ∨ v.ctxOnPort 0 p = false)) ∧
    (∃ (src : HostRead) (c : MpCmd) (x : Fed) (p : Nat) (n : Nat) (s : State) (v : State) (l : _), (s.carries 0x40 c ∧ s.walk = none ∧ p =
      c.desc.fld 2 3 0 ∧ n = c.desc.fld 3 12 0 ∧ s.portPresent p = true ∧ c.desc.reservedSet (commandLayout [0xF, 0x80FF1FFF, 0xFFFFFFFF,
      0xFFFFFFFF]) = false ∧ 1 ≤ n) ∧ (n ≤ 4096 ∧ c.desc.fld 3 23 16 ≠ 0 ∧ s.feed (bitOf (dwAt c.desc.dw 3) 31) (c.desc.wide 4) (2 * n)
      c.fed src = (x, v) ∧ v.cqRoom ∧ v.host.cqQueue = s.host.cqQueue ∧ v.mp = s.mp ∧ x.state = .whole) ∧ refEntries (v.rd
      (Fld.PORT_CFG_NOZ p)) x.bytes n = some l ∧ v.ctxState 0 = 1 ∧ v.ctxOnPort 0 p = true ∧ (v.on Fld.CRV_STAT_SEQ_OK = false ∨
      v.portReady p = false ∨ v.forcedThermal p = true ∨ v.tickleOk p = false ∨ (v.portMode p = 2 ∧ (v.getSense p).noHead = true))) ∧
    (∃ (src : HostRead) (c : MpCmd) (x : Fed) (p : Nat) (n : Nat) (s : State) (v : State) (l : _), (s.carries 0x40 c ∧ s.walk = none ∧ p =
      c.desc.fld 2 3 0 ∧ n = c.desc.fld 3 12 0 ∧ s.portPresent p = true ∧ c.desc.reservedSet (commandLayout [0xF, 0x80FF1FFF, 0xFFFFFFFF,
      0xFFFFFFFF]) = false ∧ 1 ≤ n) ∧ (n ≤ 4096 ∧ c.desc.fld 3 23 16 ≠ 0 ∧ s.feed (bitOf (dwAt c.desc.dw 3) 31) (c.desc.wide 4) (2 * n)
      c.fed src = (x, v) ∧ v.cqRoom ∧ v.host.cqQueue = s.host.cqQueue ∧ v.mp = s.mp ∧ x.state = .whole) ∧ (refEntries (v.rd
      (Fld.PORT_CFG_NOZ p)) x.bytes n = some l ∧ v.ctxState 0 = 1 ∧ v.ctxOnPort 0 p = true ∧ v.on Fld.CRV_STAT_SEQ_OK = true ∧ v.portReady
      p = true ∧ v.forcedThermal p = false ∧ v.tickleOk p = true) ∧ (v.portMode p ≠ 2 ∨ (v.getSense p).noHead = false) ∧ (v.printsOn p =
      true ∨ v.mpMay 5 = false)) ∧
    (∃ (src : HostRead) (c : MpCmd) (x : Fed) (p : Nat) (n : Nat) (s : State) (v : State) (l : _), (s.carries 0x40 c ∧ s.walk = none ∧ p =
      c.desc.fld 2 3 0 ∧ n = c.desc.fld 3 12 0 ∧ s.portPresent p = true ∧ c.desc.reservedSet (commandLayout [0xF, 0x80FF1FFF, 0xFFFFFFFF,
      0xFFFFFFFF]) = false ∧ 1 ≤ n) ∧ (n ≤ 4096 ∧ c.desc.fld 3 23 16 ≠ 0 ∧ s.feed (bitOf (dwAt c.desc.dw 3) 31) (c.desc.wide 4) (2 * n)
      c.fed src = (x, v) ∧ v.cqRoom ∧ v.host.cqQueue = s.host.cqQueue ∧ v.mp = s.mp ∧ x.state = .whole) ∧ (refEntries (v.rd
      (Fld.PORT_CFG_NOZ p)) x.bytes n = some l ∧ v.ctxState 0 = 1 ∧ v.ctxOnPort 0 p = true ∧ v.on Fld.CRV_STAT_SEQ_OK = true ∧ v.portReady
      p = true ∧ v.forcedThermal p = false ∧ v.tickleOk p = true) ∧ (v.portMode p ≠ 2 ∨ (v.getSense p).noHead = false) ∧ v.printsOn p =
      false ∧ v.mpMay 5 = true) ∧
    (∃ (src : HostRead) (s : State), s.calm ∧ (s.walk.isSome ∨ s.loadCommand 0x40 = none)) ∧
    (∃ (x : List (BitVec 14)) (w : Walk) (n : Nat) (mark : Nat) (s : State), (s.calm ∧ s.walk = some w ∧ w.port < 16 ∧ s.walkStop w = none
      ∧ w.after ≤ s.mirrorNow w.port ∧ s.portReady w.port = true ∧ s.sensePending w.port = false) ∧ mark = (if (s.getSense w.port).first ||
      decide (w.next = 0) then 2 else 0) ∧ s.markWaits w.port mark = false ∧ n = (if mark = 2 then 0 else w.next) ∧ w.pass + 1 < w.avg ∧ n
      + 1 < s.headNoz w.port ∧ s.portMode w.port ≠ 2) ∧
    (∃ (x : List (BitVec 14)) (w : Walk) (n : Nat) (mark : Nat) (s : State), (s.calm ∧ s.walk = some w ∧ w.port < 16 ∧ s.walkStop w = none
      ∧ w.after ≤ s.mirrorNow w.port ∧ s.portReady w.port = true ∧ s.sensePending w.port = false) ∧ mark = (if (s.getSense w.port).first ||
      decide (w.next = 0) then 2 else 0) ∧ s.markWaits w.port mark = false ∧ n = (if mark = 2 then 0 else w.next) ∧ w.pass + 1 < w.avg ∧
      s.headNoz w.port ≤ n + 1) ∧
    (∃ (x : List (BitVec 14)) (w : Walk) (mark : Nat) (n : Nat) (s : State), (s.calm ∧ s.walk = some w ∧ w.port < 16 ∧ s.walkStop w = none
      ∧ w.after ≤ s.mirrorNow w.port ∧ s.portReady w.port = true ∧ s.sensePending w.port = false) ∧ mark = (if (s.getSense w.port).first ||
      decide (w.next = 0) then 2 else 0) ∧ s.markWaits w.port mark = false ∧ n = (if mark = 2 then 0 else w.next) ∧ w.avg ≤ w.pass + 1 ∧
      (s.mp.cmd.elim w.desc (fun k => k.desc)).index < orphanMark ∧ s.cqRoom ∧ n + 1 < s.headNoz w.port) ∧
    (∃ (x : List (BitVec 14)) (w : Walk) (mark : Nat) (n : Nat) (s : State), (s.calm ∧ s.walk = some w ∧ w.port < 16 ∧ s.walkStop w = none
      ∧ w.after ≤ s.mirrorNow w.port ∧ s.portReady w.port = true ∧ s.sensePending w.port = false) ∧ mark = (if (s.getSense w.port).first ||
      decide (w.next = 0) then 2 else 0) ∧ s.markWaits w.port mark = false ∧ n = (if mark = 2 then 0 else w.next) ∧ w.avg ≤ w.pass + 1 ∧
      (s.mp.cmd.elim w.desc (fun k => k.desc)).index < orphanMark ∧ s.cqRoom ∧ s.headNoz w.port ≤ n + 1) ∧
    (∃ (x : List (BitVec 14)) (w : Walk) (st : Nat) (s : State), s.calm ∧ s.walk = some w ∧ s.walkStop w = some st ∧ s.cqRoom ∧
      (s.mp.cmd.elim w.desc (fun k => k.desc)).index < orphanMark) ∧
    (∃ (x : List (BitVec 14)) (w : Walk) (s : State), s.calm ∧ s.walk = some w ∧ s.walkStop w = none ∧ (s.mirrorNow w.port < w.after ∨
      s.portReady w.port = false ∨ s.sensePending w.port = true)) ∧
    (∃ (x : List (BitVec 14)) (w : Walk) (mark : Nat) (s : State), (s.calm ∧ s.walk = some w ∧ s.walkStop w = none ∧ w.after ≤ s.mirrorNow
      w.port ∧ s.portReady w.port = true ∧ s.sensePending w.port = false ∧ mark = (if (s.getSense w.port).first || decide (w.next = 0) then
      2 else 0)) ∧ s.markWaits w.port mark = true) ∧
    (∃ (x : List (BitVec 14)) (s : State), s.calm ∧ s.walk = none) :=
  ⟨⟨⟨[1,2,3,0x80], false⟩, ⟨⟨15, [0x80000040, 7, 15, 0x00020001, 0x1000, 0]⟩, 0, [], [], none⟩, 15, 1, s254,
      by unfold State.carries State.calm State.cqRoom; decide +kernel⟩,
   ⟨⟨[1,2,3,0x80], false⟩, ⟨⟨15, [0x80000040, 7, 31, 0x00020001, 0x1000, 0]⟩, 0, [], [], none⟩, 15, 1, s255,
      by unfold State.carries State.calm State.cqRoom; decide +kernel⟩,
   ⟨⟨[3, 0x20], true⟩, ⟨⟨15, [0x80000040, 7, 15, 0x00020001, 0x1000, 0]⟩, 0, [], [], none⟩, ((b59.feed false 0x1000 2 [] ⟨[3, 0x20],
      true⟩).1), 15, 1, s256, s257, by unfold State.carries State.calm State.cqRoom; decide +kernel,
      by unfold State.cqRoom; decide +kernel⟩,
   ⟨⟨[3], false⟩, ⟨⟨15, [0x80000040, 7, 15, 0x00020001, 0x1000, 0]⟩, 0, [], [], none⟩, ((b59.feed false 0x1000 2 [] ⟨[3], false⟩).1), 15,
      1, s256, s258, by unfold State.carries State.calm State.cqRoom; decide +kernel, by unfold State.cqRoom; decide +kernel⟩,
   ⟨⟨[3, 0], false⟩, ⟨⟨15, [0x80000040, 7, 15, 0x00020001, 0x1000, 0]⟩, 0, [], [], none⟩, ((b59.feed false 0x1000 2 [] ⟨[3, 0], false⟩).1),
      15, 1, s256, s259, by unfold State.carries State.calm State.cqRoom; decide +kernel, by unfold State.cqRoom; decide +kernel,
      by decide +kernel⟩,
   ⟨⟨[3, 0x20], false⟩, ⟨⟨15, [0x80000040, 7, 15, 0x00020001, 0x1000, 0]⟩, 0, [], [], none⟩, ((b59.feed false 0x1000 2 [] ⟨[3, 0x20],
      false⟩).1), 15, 1, s256, s260, [(1, 3)], by unfold State.carries State.calm State.cqRoom; decide +kernel,
      by unfold State.cqRoom; decide +kernel, by decide +kernel⟩,
   ⟨⟨[3, 0x20], false⟩, ⟨⟨15, [0x80000040, 7, 15, 0x00020001, 0x1000, 0]⟩, 0, [], [], none⟩, ((b62.feed false 0x1000 2 [] ⟨[3, 0x20],
      false⟩).1), 15, 1, s261, s262, [(1, 3)], by unfold State.carries State.calm State.cqRoom; decide +kernel,
      by unfold State.cqRoom; decide +kernel, by decide +kernel⟩,
   ⟨⟨[3, 0x20], false⟩, ⟨⟨15, [0x80000040, 7, 15, 0x00020001, 0x1000, 0]⟩, 0, [], [], none⟩, ((b64.feed false 0x1000 2 [] ⟨[3, 0x20],
      false⟩).1), 15, 1, s263, s264, [(1, 3)], by unfold State.carries State.calm State.cqRoom; decide +kernel,
      by unfold State.cqRoom; decide +kernel, by decide +kernel, by decide +kernel⟩,
   ⟨⟨[3, 0x20], false⟩, ⟨⟨15, [0x80000040, 7, 15, 0x00020001, 0x1000, 0]⟩, 0, [], [], none⟩, ((b65.feed false 0x1000 2 [] ⟨[3, 0x20],
      false⟩).1), 15, 1, s265, s266, [(1, 3)], by unfold State.carries State.calm State.cqRoom; decide +kernel,
      by unfold State.cqRoom; decide +kernel, by decide +kernel, by decide +kernel⟩,
   ⟨⟨[1,2,3,0x80], false⟩, on, by unfold State.calm; decide +kernel⟩,
   ⟨[4, 5], ((⟨⟨15, [0x80000040, 7, 15, 0x00020001, 0x1000, 0]⟩, 15, 2, [(1, 3)], 0, 0, [], 0, false, 0⟩ : Walk)), 0, 2, s267,
      by unfold State.calm; decide +kernel, by decide +kernel⟩,
   ⟨[4, 5], ((⟨⟨15, [0x80000040, 7, 15, 0x00020001, 0x1000, 0]⟩, 15, 2, [(1, 3)], 0, 63, [], 0, false, 0⟩ : Walk)), 63, 0, s268,
      by unfold State.calm; decide +kernel, by decide +kernel⟩,
   ⟨[4, 5], ((⟨⟨15, [0x80000040, 7, 15, 0x00020001, 0x1000, 0]⟩, 15, 2, [(1, 3)], 1, 3, [], 0, false, 0⟩ : Walk)), 0, 3, s269,
      by unfold State.calm; decide +kernel, by unfold State.cqRoom; decide +kernel⟩,
   ⟨[4, 5], ((⟨⟨15, [0x80000040, 7, 15, 0x00020001, 0x1000, 0]⟩, 15, 2, [(1, 63), (4, 2)], 1, 63, [], 0, false, 0⟩ : Walk)), 0, 63, s270,
      by unfold State.calm; decide +kernel, by unfold State.cqRoom; decide +kernel⟩,
   ⟨[4, 5], ((⟨⟨15, [0x80000040, 7, 15, 0x00020001, 0x1000, 0]⟩, 15, 2, [(1, 3)], 0, 3, [], 0, false, 0⟩ : Walk)), 0x12, s271,
      by unfold State.calm State.cqRoom; decide +kernel⟩,
   ⟨[4, 5], ((⟨⟨15, [0x80000040, 7, 15, 0x00020001, 0x1000, 0]⟩, 15, 2, [(1, 3)], 0, 3, [], 0, false, 9⟩ : Walk)), s272,
      by unfold State.calm; decide +kernel⟩,
   ⟨[4, 5], ((⟨⟨15, [0x80000040, 7, 15, 0x00020001, 0x1000, 0]⟩, 15, 2, [(1, 3)], 0, 0, [], 0, false, 0⟩ : Walk)), 2, s273,
      by unfold State.calm; decide +kernel, by decide +kernel⟩,
   ⟨[4, 5], on, by unfold State.calm; decide +kernel⟩⟩

theorem witness_Consumables :
    (∃ (s : State), s.calm ∧ s.mp.running = true) ∧
    (∃ (s : State), s.calm ∧ s.mp.running = false) ∧
    (∃ (auto : Option (Fin 16)) (p : Fin 16) (uid : List Byte) (d : Option Desc) (s : State), s.authBegins auto p d ∧ s.regionValid 5 =
      true) ∧
    (∃ (auto : Option (Fin 16)) (p : Fin 16) (dev : BusAnswer) (d : Option Desc) (r : Nat) (s : State), s.authBegins auto p d ∧ s.cqRoom ∧ r = (if s.regionValid 5 = false then 1 else match dev with | .noAck => 2 | .busError => 3 | .device _ v => if v = 1 then 0 else 7) ∧ r ≠ 0) ∧
    (∃ (dev : BusAnswer) (d : Desc) (s : State), s.commanded 0x58 d ∧ (d.reservedSet (commandLayout [0xF]) = true ∨ s.portPresent (d.fld 2
      3 0) = false)) ∧
    (∃ (dev : BusAnswer) (d : Desc) (s : State), s.commanded 0x58 d ∧ d.reservedSet (commandLayout [0xF]) = false ∧ s.portPresent (d.fld 2
      3 0) = true ∧ (s.getCons (d.fld 2 3 0)).op.isSome) ∧
    (∃ (dev : BusAnswer) (p : Fin 16) (s : State), s.calm ∧ s.nextCommand 0x58 = none) ∧
    (∃ (dev : BusAnswer) (p : Fin 16) (s : State), s.calm ∧ s.nextCommand 0x59 = none) ∧
    (∃ (dev : BusAnswer) (p : Fin 16) (s : State), s.calm ∧ (s.mp.running = false ∨ (s.getCons p).due = false ∨ (s.getCons p).op.isSome)) ∧
    (∃ (dev : BusAnswer) (p : Fin 16) (s : State), s.calm ∧ s.mp.running = true ∧ (s.getCons p).due = true ∧ (s.getCons p).op = none ∧
      s.portPresent p = false) ∧
    (∃ (dev : BusAnswer) (d : Desc) (p : Nat) (s : State), s.commanded 0x59 d ∧ p = d.fld 2 3 0 ∧ (d.reservedSet (commandLayout [0xF]) =
      true ∨ s.portPresent p = false)) ∧
    (∃ (dev : BusAnswer) (d : Desc) (p : Nat) (s : State), s.commanded 0x59 d ∧ p = d.fld 2 3 0 ∧ d.reservedSet (commandLayout [0xF]) =
      false ∧ s.portPresent p = true ∧ ((s.getCons p).op.isSome ∨ (s.authOf p = 1 ∧ s.spaced p = false))) ∧
    (∃ (dev : BusAnswer) (d : Desc) (p : Nat) (s : State), s.commanded 0x59 d ∧ p = d.fld 2 3 0 ∧ d.reservedSet (commandLayout [0xF]) =
      false ∧ s.portPresent p = true ∧ (s.getCons p).op = none ∧ s.authOf p ≠ 1) ∧
    (∃ (dev : BusAnswer) (d : Desc) (p : Nat) (s : State), (s.commanded 0x59 d ∧ p = d.fld 2 3 0 ∧ d.reservedSet (commandLayout [0xF]) =
      false ∧ s.portPresent p = true ∧ (s.getCons p).op = none ∧ s.authOf p = 1 ∧ s.spaced p = true) ∧ (dev = .noAck ∨ dev = .busError)) ∧
    (∃ (dev : BusAnswer) (d : Desc) (p : Nat) (s : State), (s.commanded 0x59 d ∧ p = d.fld 2 3 0 ∧ d.reservedSet (commandLayout [0xF]) =
      false ∧ s.portPresent p = true ∧ (s.getCons p).op = none ∧ s.authOf p = 1 ∧ s.spaced p = true) ∧ dev ≠ .noAck ∧ dev ≠ .busError) ∧
    (∃ (p : Fin 16) (dev : BusAnswer) (s : State), (s.calm ∧ s.mp.running = true ∧ s.portPresent p = true ∧ s.authOf p = 1 ∧ (s.getCons
      p).op = none ∧ s.ink p ≠ (s.getCons p).lastInk ∧ s.recordTime p = true) ∧ (dev = .noAck ∨ dev = .busError)) ∧
    (∃ (p : Fin 16) (dev : BusAnswer) (s : State), (s.calm ∧ s.mp.running = true ∧ s.portPresent p = true ∧ s.authOf p = 1 ∧ (s.getCons
      p).op = none ∧ s.ink p ≠ (s.getCons p).lastInk ∧ s.recordTime p = true) ∧ dev ≠ .noAck ∧ dev ≠ .busError) ∧
    (∃ (p : Fin 16) (dev : BusAnswer) (s : State), s.calm ∧ (s.mp.running = false ∨ s.portPresent p = false ∨ s.authOf p ≠ 1 ∨ (s.getCons
      p).op.isSome ∨ s.ink p = (s.getCons p).lastInk ∨ s.recordTime p = false)) ∧
    (∃ (p : Fin 16) (x : BusOp) (data : List Byte) (s : State), (s.calm ∧ s.cqRoom ∧ s.mp.running = true ∧ s.portPresent p = true ∧
      (s.getCons p).op = some x ∧ (∀ k, s.mp.cmd = some k → k.desc.index < orphanMark) ∧ (∀ k, x.desc = some k → k.index < orphanMark)) ∧
      x.phase = 1 ∧ x.record = false ∧ (data.map (fun b => b.toNat)).take 32 = s.deviceTag x.uid 0x41 x.chal) ∧
    (∃ (p : Fin 16) (x : BusOp) (data : List Byte) (s : State), (s.calm ∧ s.cqRoom ∧ s.mp.running = true ∧ s.portPresent p = true ∧
      (s.getCons p).op = some x ∧ (∀ k, s.mp.cmd = some k → k.desc.index < orphanMark) ∧ (∀ k, x.desc = some k → k.index < orphanMark)) ∧
      x.phase = 1 ∧ x.record = false ∧ (data.map (fun b => b.toNat)).take 32 ≠ s.deviceTag x.uid 0x41 x.chal) ∧
    (∃ (p : Fin 16) (x : BusOp) (data : List Byte) (s : State), (s.calm ∧ s.cqRoom ∧ s.mp.running = true ∧ s.portPresent p = true ∧
      (s.getCons p).op = some x ∧ (∀ k, s.mp.cmd = some k → k.desc.index < orphanMark) ∧ (∀ k, x.desc = some k → k.index < orphanMark)) ∧
      x.phase = 2 ∧ x.record = false ∧ sliceOf (data.map (fun b => b.toNat)) 16 32 = s.deviceTag x.uid 0x52 (x.chal ++ (data.map (fun b =>
      b.toNat)).take 16)) ∧
    (∃ (p : Fin 16) (x : BusOp) (data : List Byte) (s : State), (s.calm ∧ s.cqRoom ∧ s.mp.running = true ∧ s.portPresent p = true ∧
      (s.getCons p).op = some x ∧ (∀ k, s.mp.cmd = some k → k.desc.index < orphanMark) ∧ (∀ k, x.desc = some k → k.index < orphanMark)) ∧
      x.phase = 2 ∧ x.record = false ∧ sliceOf (data.map (fun b => b.toNat)) 16 32 ≠ s.deviceTag x.uid 0x52 (x.chal ++ (data.map (fun b =>
      b.toNat)).take 16)) ∧
    (∃ (p : Fin 16) (x : BusOp) (data : List Byte) (s : State), (s.calm ∧ s.cqRoom ∧ s.mp.running = true ∧ s.portPresent p = true ∧
      (s.getCons p).op = some x ∧ (∀ k, s.mp.cmd = some k → k.desc.index < orphanMark) ∧ (∀ k, x.desc = some k → k.index < orphanMark)) ∧ 3
      ≤ x.phase ∧ x.record = true) ∧
    (∃ (p : Fin 16) (x : BusOp) (ans : PollAnswer) (r : Nat) (s : State), (s.calm ∧ s.cqRoom ∧ s.mp.running = true ∧ s.portPresent p = true ∧ (s.getCons p).op = some x ∧ (∀ k, s.mp.cmd = some k → k.desc.index < orphanMark) ∧ (∀ k, x.desc = some k → k.index < orphanMark)) ∧ r = (match ans with | .noAck => 2 | .busError => 3 | .status v _ => if v = 1 then 0 else if v = 2 then 6 else if 49 ≤ x.polls then 4 else 0) ∧ r ≠ 0) ∧
    (∃ (p : Fin 16) (x : BusOp) (ans : PollAnswer) (r : Nat) (s : State), (s.calm ∧ s.cqRoom ∧ s.mp.running = true ∧ s.portPresent p = true ∧ (s.getCons p).op = some x ∧ (∀ k, s.mp.cmd = some k → k.desc.index < orphanMark) ∧ (∀ k, x.desc = some k → k.index < orphanMark)) ∧ r = (match ans with | .noAck => 2 | .busError => 3 | .status v _ => if v = 1 then 0 else if v = 2 then 6 else if 49 ≤ x.polls then 4 else 0)) ∧
    (∃ (p : Fin 16) (x : BusOp) (ans : PollAnswer) (r : Nat) (s : State), (s.calm ∧ s.cqRoom ∧ s.mp.running = true ∧ s.portPresent p = true ∧ (s.getCons p).op = some x ∧ (∀ k, s.mp.cmd = some k → k.desc.index < orphanMark) ∧ (∀ k, x.desc = some k → k.index < orphanMark)) ∧ r = (match ans with | .noAck => 2 | .busError => 3 | .status v _ => if v = 1 then 0 else if v = 2 then 6 else if 49 ≤ x.polls then 4 else 0) ∧ x.polls < 49) ∧
    (∃ (p : Fin 16) (x : BusOp) (ans : PollAnswer) (s : State), s.calm ∧ s.cqRoom ∧ s.mp.running = true ∧ s.portPresent p = false ∧
      (s.getCons p).op = some x ∧ (∀ k, s.mp.cmd = some k → k.desc.index < orphanMark) ∧ (∀ k, x.desc = some k → k.index < orphanMark)) ∧
    (∃ (p : Fin 16) (x : BusOp) (ans : PollAnswer) (s : State), s.calm ∧ s.cqRoom ∧ s.mp.running = true ∧ s.portPresent p = false ∧
      (s.getCons p).op = some x ∧ (∀ k, s.mp.cmd = some k → k.desc.index < orphanMark) ∧ (∀ k, x.desc = some k → k.index < orphanMark)) ∧
    (∃ (p : Fin 16) (ans : PollAnswer) (s : State), s.calm ∧ ((s.getCons p).op = none ∨ s.mp.running = false)) ∧
    (∃ (p : Fin 16) (ans : PollAnswer) (s : State), s.calm ∧ ((s.getCons p).op = none ∨ s.mp.running = false)) :=
  ⟨⟨s274, by unfold State.calm; decide +kernel⟩,
   ⟨s275, by unfold State.calm; decide +kernel⟩,
   ⟨none, 15, [1,2,3,4,5,6,7,8], (some ⟨15, [0x80000058, 7, 15]⟩), s276,
      by unfold State.authBegins State.commanded State.calm State.cqRoom; (try dsimp only); decide +kernel⟩,
   ⟨none, 15, .noAck, (some ⟨15, [0x80000058, 7, 15]⟩), 2, s276,
      by unfold State.authBegins State.commanded State.calm State.cqRoom; (try dsimp only); decide +kernel⟩,
   ⟨.noAck, ⟨15, [0x80000058, 7, 31]⟩, s277, by unfold State.commanded State.calm State.cqRoom; decide +kernel⟩,
   ⟨.noAck, ⟨15, [0x80000058, 7, 15]⟩, s278, by unfold State.commanded State.calm State.cqRoom; decide +kernel⟩,
   ⟨.noAck, 15, on, by unfold State.calm; decide +kernel⟩,
   ⟨.noAck, 15, on, by unfold State.calm; decide +kernel⟩,
   ⟨.noAck, 15, on, by unfold State.calm; decide +kernel⟩,
   ⟨.noAck, 15, s279, by unfold State.calm; decide +kernel⟩,
   ⟨.noAck, ⟨15, [0x80000059, 7, 31]⟩, 15, s280, by unfold State.commanded State.calm State.cqRoom; decide +kernel⟩,
   ⟨.noAck, ⟨15, [0x80000059, 7, 15]⟩, 15, s281, by unfold State.commanded State.calm State.cqRoom; decide +kernel⟩,
   ⟨(.device [] 1), ⟨15, [0x80000059, 7, 15]⟩, 15, s282, by unfold State.commanded State.calm State.cqRoom; decide +kernel⟩,
   ⟨.noAck, ⟨15, [0x80000059, 7, 15]⟩, 15, s283, by unfold State.commanded State.calm State.cqRoom; decide +kernel, by decide +kernel⟩,
   ⟨(.device [1,2,3,4,5,6,7,8] 1), ⟨15, [0x80000059, 7, 15]⟩, 15, s283, by unfold State.commanded State.calm State.cqRoom; decide +kernel,
      by decide +kernel⟩,
   ⟨15, .noAck, s284, by unfold State.calm; decide +kernel, by decide +kernel⟩,
   ⟨15, (.device [1,2,3,4,5,6,7,8] 1), s284, by unfold State.calm; decide +kernel, by decide +kernel⟩,
   ⟨15, .noAck, on, by unfold State.calm; decide +kernel⟩,
   ⟨15, (({ record := false, phase := 1, uid := [1,2,3,4,5,6,7,8], chal := [], image := List.replicate 32 5, polls := 3, desc := some ⟨15, [0x80000058, 7, 15]⟩ }
      : BusOp)), (((on.deviceTag [1,2,3,4,5,6,7,8] 0x41 []).map (fun b => BitVec.ofNat 8 b))), s285,
      by unfold State.calm State.cqRoom; decide +kernel, by decide +kernel⟩,
   ⟨15, (({ record := false, phase := 1, uid := [1,2,3,4,5,6,7,8], chal := [], image := List.replicate 32 5, polls := 3, desc := some ⟨15, [0x80000058, 7, 15]⟩ }
      : BusOp)), [], s285, by unfold State.calm State.cqRoom; decide +kernel, by decide +kernel⟩,
   ⟨15, (({ record := false, phase := 2, uid := [1,2,3,4,5,6,7,8], chal := [], image := List.replicate 32 5, polls := 0, desc := none } :
      BusOp)), (((List.replicate 16 3 ++ on.deviceTag [1,2,3,4,5,6,7,8] 0x52 (List.replicate 16 3)).map (fun b => BitVec.ofNat 8 b))),
      s286, by unfold State.calm State.cqRoom; decide +kernel, by decide +kernel⟩,
   ⟨15, (({ record := false, phase := 2, uid := [1,2,3,4,5,6,7,8], chal := [], image := List.replicate 32 5, polls := 0, desc := none } :
      BusOp)), [], s286, by unfold State.calm State.cqRoom; decide +kernel, by decide +kernel⟩,
   ⟨15, (({ record := true, phase := 3, uid := [1,2,3,4,5,6,7,8], chal := [], image := List.replicate 32 5, polls := 0, desc := some ⟨15, [0x80000059, 7, 15]⟩ }
      : BusOp)), [], s287, by unfold State.calm State.cqRoom; decide +kernel, by decide +kernel⟩,
   ⟨15, (({ record := false, phase := 1, uid := [1,2,3,4,5,6,7,8], chal := [], image := List.replicate 32 5, polls := 49, desc := none } :
      BusOp)), .noAck, 2, s288, by unfold State.calm State.cqRoom; decide +kernel, by decide +kernel⟩,
   ⟨15, (({ record := false, phase := 1, uid := [1,2,3,4,5,6,7,8], chal := [], image := List.replicate 32 5, polls := 49, desc := none } :
      BusOp)), .noAck, 2, s288, by unfold State.calm State.cqRoom; decide +kernel, by decide +kernel⟩,
   ⟨15, (({ record := false, phase := 1, uid := [1,2,3,4,5,6,7,8], chal := [], image := List.replicate 32 5, polls := 48, desc := none } :
      BusOp)), (.status 1 []), 0, s289, by unfold State.calm State.cqRoom; decide +kernel, by decide +kernel⟩,
   ⟨15, (({ record := true, phase := 3, uid := [1,2,3,4,5,6,7,8], chal := [], image := List.replicate 32 5, polls := 0, desc := some ⟨15, [0x80000059, 7, 15]⟩ }
      : BusOp)), .noAck, s290, by unfold State.calm State.cqRoom; decide +kernel⟩,
   ⟨15, (({ record := true, phase := 3, uid := [1,2,3,4,5,6,7,8], chal := [], image := List.replicate 32 5, polls := 0, desc := some ⟨15, [0x80000059, 7, 15]⟩ }
      : BusOp)), .noAck, s290, by unfold State.calm State.cqRoom; decide +kernel⟩,
   ⟨15, .noAck, on, by unfold State.calm; decide +kernel⟩,
   ⟨15, .noAck, on, by unfold State.calm; decide +kernel⟩⟩

theorem witness_RingLinks :
    (∃ (m : Master) (v : Word) (s : State), s.reaches Reg.RING_CFG ∧ s.calm ∧ s.numbered ∧ s.ringJoined = false ∧ bitOf v 31 = true) ∧
    (∃ (m : Master) (v : Word) (s : State), s.reaches Reg.RING_CFG ∧ s.calm ∧ s.numbered ∧ s.ringJoined = true ∧ bitOf v 31 = false) ∧
    (∃ (p : Fin 2) (s : State), s.calm ∧ s.rportRuns p = true ∧ s.rportUp p = false ∧ (s.getRport p).began + 1000000000 ≤ s.tb.toNat) ∧
    (∃ (p : Fin 2) (s : State), s.calm ∧ (s.rportRuns p = false ∨ s.rportUp p = true ∨ s.tb.toNat < (s.getRport p).began + 1000000000)) ∧
    (∃ (p : Fin 2) (s : State), s.calm ∧ s.domOn .ring = true ∧ s.rportUp p = true) ∧
    (∃ (p : Fin 2) (s : State), s.calm ∧ s.domOn .ring = true ∧ s.rportUp p = false) ∧
    (∃ (p : Fin 2) (s : State), s.calm ∧ s.domOn .ring = false) ∧
    (∃ (s : State), s.calm ∧ s.domOn .ring = true ∧ s.on Fld.RING_STAT_CLOSED = true ∧ (s.fresh35 (s.getRport 0).own = false ∨ s.fresh35
      (s.getRport 1).own = false)) ∧
    (∃ (s : State), s.calm ∧ (s.domOn .ring = false ∨ s.on Fld.RING_STAT_CLOSED = false ∨ (s.fresh35 (s.getRport 0).own = true ∧ s.fresh35
      (s.getRport 1).own = true))) ∧
    (∃ (s : State), s.calm) ∧
    (∃ (st : Fin 64) (s : State), s.calm ∧ s.domOn .ring = true ∧ (s.getRsrc st).member = true ∧ (s.getRsrc st).heard + 140000000 ≤
      s.tb.toNat) ∧
    (∃ (st : Fin 64) (s : State), s.calm ∧ (s.domOn .ring = false ∨ (s.getRsrc st).member = false ∨ s.tb.toNat < (s.getRsrc st).heard +
      140000000)) ∧
    (∃ (a : Admitted) (rest : List Admitted) (vmax : Nat) (vmin : Nat) (vcap : Nat) (rver : Nat) (epoch : Nat) (serial : Nat) (ms : Bool)
      (lk : Bool) (dp : Bool) (s : State), s.calm ∧ s.ring.inbox = a :: rest ∧ a.frame.msg = .hello 0 vmax vmin vcap rver ms lk dp epoch
      serial ∧ a.port < 2 ∧ s.rportUp a.port = false) ∧
    (∃ (a : Admitted) (rest : List Admitted) (scope : Nat) (vmax : Nat) (vmin : Nat) (vcap : Nat) (rver : Nat) (epoch : Nat) (serial : Nat)
      (ms : Bool) (lk : Bool) (dp : Bool) (s : State), s.calm ∧ s.ring.inbox = a :: rest ∧ a.frame.msg = .hello scope vmax vmin vcap rver
      ms lk dp epoch serial ∧ scope ≠ 0 ∧ a.frame.src < 64 ∧ a.frame.src ≠ s.ringAddr) ∧
    (∃ (a : Admitted) (rest : List Admitted) (scope : Nat) (vmax : Nat) (vmin : Nat) (vcap : Nat) (rver : Nat) (epoch : Nat) (serial : Nat)
      (ms : Bool) (lk : Bool) (dp : Bool) (s : State), s.calm ∧ s.ring.inbox = a :: rest ∧ a.frame.msg = .hello scope vmax vmin vcap rver
      ms lk dp epoch serial ∧ scope ≠ 0 ∧ 64 ≤ a.frame.src) ∧
    (∃ (a : Admitted) (rest : List Admitted) (scope : Nat) (vmax : Nat) (vmin : Nat) (vcap : Nat) (rver : Nat) (epoch : Nat) (serial : Nat)
      (ms : Bool) (lk : Bool) (dp : Bool) (s : State), (s.calm ∧ s.ring.inbox = a :: rest ∧ a.frame.msg = .hello scope vmax vmin vcap rver
      ms lk dp epoch serial ∧ scope ≠ 0 ∧ a.frame.src = s.ringAddr ∧ serial ≠ s.units.serial ∧ s.ringJoined = true) ∧ s.on
      Fld.RING_STAT_DUP = false) ∧
    (∃ (a : Admitted) (rest : List Admitted) (scope : Nat) (vmax : Nat) (vmin : Nat) (vcap : Nat) (rver : Nat) (epoch : Nat) (serial : Nat)
      (ms : Bool) (lk : Bool) (dp : Bool) (s : State), s.calm ∧ s.ring.inbox = a :: rest ∧ a.frame.msg = .hello scope vmax vmin vcap rver
      ms lk dp epoch serial ∧ scope ≠ 0 ∧ a.frame.src = s.ringAddr ∧ serial ≠ s.units.serial ∧ (s.ringJoined = false ∨ s.on
      Fld.RING_STAT_DUP = true)) ∧
    (∃ (a : Admitted) (rest : List Admitted) (scope : Nat) (vmax : Nat) (vmin : Nat) (vcap : Nat) (rver : Nat) (epoch : Nat) (serial : Nat)
      (ms : Bool) (lk : Bool) (dp : Bool) (s : State), s.calm ∧ s.ring.inbox = a :: rest ∧ a.frame.msg = .hello scope vmax vmin vcap rver
      ms lk dp epoch serial ∧ scope ≠ 0 ∧ a.frame.src = s.ringAddr ∧ serial = s.units.serial ∧ a.port < 2) ∧
    (∃ (ring : Bool) (q : Nat) (r : Nat) (s : State), s.calm ∧ s.domOn .ring = true ∧ (s.getRport 0).crit.length < 31 ∧ (s.getRport
      1).crit.length < 31 ∧ q = (if s.rportRuns 0 then (s.ring.seq + 1) % 65536 else s.ring.seq) ∧ r = (if s.rportRuns 1 then (q + 1) %
      65536 else q)) ∧
    (∃ (ring : Bool) (s : State), s.calm ∧ s.domOn .ring = false) :=
  ⟨⟨.service, 0x80003F00, on, reaches_of (by decide +kernel), by unfold State.numbered State.calm; decide +kernel⟩,
   ⟨.service, 0x3F00, s291, reaches_of (by decide +kernel), by unfold State.numbered State.calm; decide +kernel⟩,
   ⟨1, s292, by unfold State.calm; decide +kernel⟩,
   ⟨1, s291, by unfold State.calm; decide +kernel⟩,
   ⟨1, s291, by unfold State.calm; decide +kernel⟩,
   ⟨1, s293, by unfold State.calm; decide +kernel⟩,
   ⟨1, s294, by unfold State.calm; decide +kernel⟩,
   ⟨s295, by unfold State.calm; decide +kernel⟩,
   ⟨s291, by unfold State.calm; decide +kernel⟩,
   ⟨on, by unfold State.calm; decide +kernel⟩,
   ⟨63, s296, by unfold State.calm; decide +kernel⟩,
   ⟨63, s297, by unfold State.calm; decide +kernel⟩,
   ⟨((⟨1, 9000, ({ ver := 1, west := false, uncorr := false, unsync := false, rest := 0, hops := 9, src := 7, dst := 0xFF, seq := 3, joinId := 44, msg := .hello 0 2 1 2 1 true false true 0 77 }
      : RingFrame)⟩ : Admitted)), [], 2, 1, 2, 1, 0, 77, true, false, true, s298, by unfold State.calm; decide +kernel⟩,
   ⟨((⟨1, 9000, ({ ver := 1, west := false, uncorr := false, unsync := false, rest := 0, hops := 9, src := 7, dst := 0xFF, seq := 3, joinId := 44, msg := .hello 1 2 1 2 1 true false true 0 77 }
      : RingFrame)⟩ : Admitted)), [], 1, 2, 1, 2, 1, 0, 77, true, false, true, s299, by unfold State.calm; decide +kernel⟩,
   ⟨((⟨1, 9000, ({ ver := 1, west := false, uncorr := false, unsync := false, rest := 0, hops := 9, src := 99, dst := 0xFF, seq := 3, joinId := 44, msg := .hello 1 2 1 2 1 true false true 0 77 }
      : RingFrame)⟩ : Admitted)), [], 1, 2, 1, 2, 1, 0, 77, true, false, true, s300, by unfold State.calm; decide +kernel⟩,
   ⟨((⟨1, 9000, ({ ver := 1, west := false, uncorr := false, unsync := false, rest := 0, hops := 9, src := 5, dst := 0xFF, seq := 3, joinId := 44, msg := .hello 1 2 1 2 1 true false true 0 77 }
      : RingFrame)⟩ : Admitted)), [], 1, 2, 1, 2, 1, 0, 77, true, false, true, s301, by unfold State.calm; decide +kernel,
      by decide +kernel⟩,
   ⟨((⟨1, 9000, ({ ver := 1, west := false, uncorr := false, unsync := false, rest := 0, hops := 9, src := 5, dst := 0xFF, seq := 3, joinId := 44, msg := .hello 1 2 1 2 1 true false true 0 77 }
      : RingFrame)⟩ : Admitted)), [], 1, 2, 1, 2, 1, 0, 77, true, false, true, s302, by unfold State.calm; decide +kernel⟩,
   ⟨((⟨1, 9000, ({ ver := 1, west := false, uncorr := false, unsync := false, rest := 0, hops := 9, src := 5, dst := 0xFF, seq := 3, joinId := 44, msg := .hello 1 2 1 2 1 true false true 0 7 }
      : RingFrame)⟩ : Admitted)), [], 1, 2, 1, 2, 1, 0, 7, true, false, true, s303, by unfold State.calm; decide +kernel⟩,
   ⟨true, 1, 2, s291, by unfold State.calm; decide +kernel⟩,
   ⟨true, s294, by unfold State.calm; decide +kernel⟩⟩

theorem witness_RingFrames :
    (∃ (p : Fin 2) (e : FrameFault) (f : RingFrame) (s : State), s.calm ∧ s.rportRuns p = false) ∧
    (∃ (p : Fin 2) (e : FrameFault) (f : RingFrame) (s : State), s.calm ∧ s.rportRuns p = true ∧ e ≠ .none) ∧
    (∃ (p : Fin 2) (f : RingFrame) (g : RingFrame) (s : State), (∀ a b c d e, f.msg ≠ .versionAgree 1 a b c d e) ∧ s.calm ∧ s.rportRuns p = true ∧ (isRequest f.msg = false ∨ f.dst ≠ 0xFF) ∧ g = { f with hops := f.hops - 1, uncorr := f.uncorr || (match f.msg with | .ptp m => (decide (m.kind = .sync) || decide (m.kind = .followUp)) && !s.on (Fld.RING_P_STAT_DELAY_OK p) | _ => false) } ∧ s.mayForward p f = true ∧ msgCritical f.msg = true ∧ (s.getRport (1 - p.val)).crit.length < 32) ∧
    (∃ (p : Fin 2) (f : RingFrame) (g : RingFrame) (s : State), (∀ a b c d e, f.msg ≠ .versionAgree 1 a b c d e) ∧ s.calm ∧ s.rportRuns p = true ∧ (isRequest f.msg = false ∨ f.dst ≠ 0xFF) ∧ g = { f with hops := f.hops - 1, uncorr := f.uncorr || (match f.msg with | .ptp m => (decide (m.kind = .sync) || decide (m.kind = .followUp)) && !s.on (Fld.RING_P_STAT_DELAY_OK p) | _ => false) } ∧ s.mayForward p f = true ∧ msgCritical f.msg = false ∧ (s.getRport (1 - p.val)).bulk.length < 64) ∧
    (∃ (p : Fin 2) (f : RingFrame) (g : RingFrame) (s : State), (∀ a b c d e, f.msg ≠ .versionAgree 1 a b c d e) ∧ s.calm ∧ s.rportRuns p = true ∧ (isRequest f.msg = false ∨ f.dst ≠ 0xFF) ∧ g = { f with hops := f.hops - 1, uncorr := f.uncorr || (match f.msg with | .ptp m => (decide (m.kind = .sync) || decide (m.kind = .followUp)) && !s.on (Fld.RING_P_STAT_DELAY_OK p) | _ => false) } ∧ s.mayForward p f = true ∧ (if msgCritical f.msg then 32 ≤ (s.getRport (1 - p.val)).crit.length else 64 ≤ (s.getRport (1 - p.val)).bulk.length)) ∧
    (∃ (p : Fin 2) (f : RingFrame) (g : RingFrame) (s : State), (∀ a b c d e, f.msg ≠ .versionAgree 1 a b c d e) ∧ s.calm ∧ s.rportRuns p = true ∧ (isRequest f.msg = false ∨ f.dst ≠ 0xFF) ∧ g = { f with hops := f.hops - 1, uncorr := f.uncorr || (match f.msg with | .ptp m => (decide (m.kind = .sync) || decide (m.kind = .followUp)) && !s.on (Fld.RING_P_STAT_DELAY_OK p) | _ => false) } ∧ s.mayForward p f = false) ∧
    (∃ (p : Fin 2) (f : RingFrame) (here : Bool) (held : Bool) (s : State), s.calm ∧ s.rportRuns p = true ∧ (here = (decide (f.dst = 0xFF ∨
      f.dst = s.ringAddr) && decide (msgVersion f.msg ≠ 0) && decide (msgVersion f.msg ≤ s.ringVersion))) ∧ held = (isRequest f.msg &&
      decide (16 ≤ (s.ring.inbox.filter (fun a => isRequest a.frame.msg)).length)) ∧ here = false) ∧
    (∃ (p : Fin 2) (f : RingFrame) (here : Bool) (held : Bool) (s : State), s.calm ∧ s.rportRuns p = true ∧ (here = (decide (f.dst = 0xFF ∨
      f.dst = s.ringAddr) && decide (msgVersion f.msg ≠ 0) && decide (msgVersion f.msg ≤ s.ringVersion))) ∧ held = (isRequest f.msg &&
      decide (16 ≤ (s.ring.inbox.filter (fun a => isRequest a.frame.msg)).length)) ∧ here = true ∧ f.src = s.ringAddr) ∧
    (∃ (p : Fin 2) (f : RingFrame) (here : Bool) (held : Bool) (s : State), s.calm ∧ s.rportRuns p = true ∧ (here = (decide (f.dst = 0xFF ∨
      f.dst = s.ringAddr) && decide (msgVersion f.msg ≠ 0) && decide (msgVersion f.msg ≤ s.ringVersion))) ∧ held = (isRequest f.msg &&
      decide (16 ≤ (s.ring.inbox.filter (fun a => isRequest a.frame.msg)).length)) ∧ here = true ∧ f.src ≠ s.ringAddr ∧ msgExempt f.msg =
      true) ∧
    (∃ (p : Fin 2) (f : RingFrame) (here : Bool) (held : Bool) (s : State), (s.calm ∧ s.rportRuns p = true ∧ (here = (decide (f.dst = 0xFF
      ∨ f.dst = s.ringAddr) && decide (msgVersion f.msg ≠ 0) && decide (msgVersion f.msg ≤ s.ringVersion))) ∧ held = (isRequest f.msg &&
      decide (16 ≤ (s.ring.inbox.filter (fun a => isRequest a.frame.msg)).length)) ∧ here = true ∧ f.src ≠ s.ringAddr ∧ msgExempt f.msg =
      false) ∧ (s.getRsrc f.src).takes f = none) ∧
    (∃ (p : Fin 2) (f : RingFrame) (here : Bool) (held : Bool) (s : State) (x : _), (s.calm ∧ s.rportRuns p = true ∧ (here = (decide (f.dst
      = 0xFF ∨ f.dst = s.ringAddr) && decide (msgVersion f.msg ≠ 0) && decide (msgVersion f.msg ≤ s.ringVersion))) ∧ held = (isRequest
      f.msg && decide (16 ≤ (s.ring.inbox.filter (fun a => isRequest a.frame.msg)).length)) ∧ here = true ∧ f.src ≠ s.ringAddr ∧ msgExempt
      f.msg = false) ∧ (s.getRsrc f.src).takes f = some x ∧ held = false) ∧
    (∃ (p : Fin 2) (f : RingFrame) (here : Bool) (held : Bool) (s : State) (x : _) (op : _) (tag : _) (count : _) (status : _) (addr : _)
      (data : _), (s.calm ∧ s.rportRuns p = true ∧ (here = (decide (f.dst = 0xFF ∨ f.dst = s.ringAddr) && decide (msgVersion f.msg ≠ 0) &&
      decide (msgVersion f.msg ≤ s.ringVersion))) ∧ held = (isRequest f.msg && decide (16 ≤ (s.ring.inbox.filter (fun a => isRequest
      a.frame.msg)).length)) ∧ here = true ∧ f.src ≠ s.ringAddr ∧ f.msg = .mgmt op tag count status addr data) ∧ (s.getRsrc f.src).takes f
      = some x ∧ held = true ∧ s.ringJoined = true ∧ s.on Fld.RING_STAT_DUP = false ∧ s.domOn .ring = true ∧ s.rportUp 0 = true ∧
      (s.getRport 0).bulk.length < 63) ∧
    (∃ (s : State) (e : _), s.calm ∧ e ∈ [(Instr.hello, 1), (.versionAgree, 2), (.track, 3), (.pgo, 4), (.venc, 5), (.reject, 6), (.mgmt,
      7), (.service, 8), (.ptp, 9)] ∧ s.nextType ≠ some e.2) :=
  ⟨⟨1, .none, (({ ver := 1, west := false, uncorr := false, unsync := false, rest := 0, hops := 9, src := 7, dst := 0xFF, seq := 3, joinId := 44, msg := (.track 9 1 0 false 4 5 6) }
      : RingFrame)), s294, by unfold State.calm; decide +kernel⟩,
   ⟨1, .fcs, (({ ver := 1, west := false, uncorr := false, unsync := false, rest := 0, hops := 9, src := 7, dst := 0xFF, seq := 3, joinId := 44, msg := (.track 9 1 0 false 4 5 6) }
      : RingFrame)), s291, by unfold State.calm; decide +kernel⟩,
   ⟨1, (({ ver := 1, west := false, uncorr := false, unsync := false, rest := 0, hops := 9, src := 7, dst := 0xFF, seq := 3, joinId := 44, msg := (.track 9 1 0 false 4 5 6) }
      : RingFrame)), (({ ver := 1, west := false, uncorr := false, unsync := false, rest := 0, hops := 8, src := 7, dst := 0xFF, seq := 3, joinId := 44, msg := (.track 9 1 0 false 4 5 6) }
      : RingFrame)), s291, by intros; nofun, by unfold State.calm; decide +kernel⟩,
   ⟨1, (({ ver := 1, west := false, uncorr := false, unsync := false, rest := 0, hops := 9, src := 7, dst := 0xFF, seq := 3, joinId := 44, msg := (.other 77 [1]) }
      : RingFrame)), (({ ver := 1, west := false, uncorr := false, unsync := false, rest := 0, hops := 8, src := 7, dst := 0xFF, seq := 3, joinId := 44, msg := (.other 77 [1]) }
      : RingFrame)), s291, by intros; nofun, by unfold State.calm; decide +kernel⟩,
   ⟨1, (({ ver := 1, west := false, uncorr := false, unsync := false, rest := 0, hops := 9, src := 7, dst := 0xFF, seq := 3, joinId := 44, msg := (.track 9 1 0 false 4 5 6) }
      : RingFrame)), (({ ver := 1, west := false, uncorr := false, unsync := false, rest := 0, hops := 8, src := 7, dst := 0xFF, seq := 3, joinId := 44, msg := (.track 9 1 0 false 4 5 6) }
      : RingFrame)), s304, by intros; nofun, by unfold State.calm; decide +kernel⟩,
   ⟨1, (({ ver := 1, west := false, uncorr := false, unsync := false, rest := 0, hops := 1, src := 7, dst := 0xFF, seq := 3, joinId := 44, msg := (.track 9 1 0 false 4 5 6) }
      : RingFrame)), (({ ver := 1, west := false, uncorr := false, unsync := false, rest := 0, hops := 0, src := 7, dst := 0xFF, seq := 3, joinId := 44, msg := (.track 9 1 0 false 4 5 6) }
      : RingFrame)), s291, by intros; nofun, by unfold State.calm; decide +kernel⟩,
   ⟨1, (({ ver := 1, west := false, uncorr := false, unsync := false, rest := 0, hops := 9, src := 7, dst := 9, seq := 3, joinId := 44, msg := (.track 9 1 0 false 4 5 6) }
      : RingFrame)), false, false, s291, by unfold State.calm; decide +kernel⟩,
   ⟨1, (({ ver := 1, west := false, uncorr := false, unsync := false, rest := 0, hops := 9, src := 5, dst := 0xFF, seq := 3, joinId := 44, msg := (.hello 1 2 1 2 1 false false false 0 77) }
      : RingFrame)), true, false, s291, by unfold State.calm; decide +kernel⟩,
   ⟨1, (({ ver := 1, west := false, uncorr := false, unsync := false, rest := 0, hops := 9, src := 7, dst := 0xFF, seq := 3, joinId := 44, msg := (.ptp ⟨.sync, 0, 6, 0, 500⟩) }
      : RingFrame)), true, false, s291, by unfold State.calm; decide +kernel⟩,
   ⟨1, (({ ver := 1, west := false, uncorr := false, unsync := false, rest := 0, hops := 9, src := 7, dst := 0xFF, seq := 3, joinId := 44, msg := (.track 9 1 0 false 4 5 6) }
      : RingFrame)), true, false, s305, by unfold State.calm; decide +kernel, by decide +kernel⟩,
   ⟨1, (({ ver := 1, west := false, uncorr := false, unsync := false, rest := 0, hops := 9, src := 7, dst := 0xFF, seq := 3, joinId := 44, msg := (.track 9 1 0 false 4 5 6) }
      : RingFrame)), true, false, s291, (({ RingSrc.reset with joinId := some 44, high := 3, seen := [3] })),
      by unfold State.calm; decide +kernel, by decide +kernel⟩,
   ⟨1, (({ ver := 1, west := false, uncorr := false, unsync := false, rest := 0, hops := 9, src := 7, dst := 5, seq := 3, joinId := 44, msg := (.mgmt 1 6 2 0 0x4D00000 []) }
      : RingFrame)), true, true, s306, (({ RingSrc.reset with joinId := some 44, high := 3, seen := [3] })), 1, 6, 2, 0, 0x4D00000, [],
      by unfold State.calm; decide +kernel, by decide +kernel⟩,
   ⟨s291, ((.ptp, 9)), by unfold State.calm; decide +kernel⟩⟩

theorem witness_RingVersionsAndTime :
    (∃ (s : State), (s.calm ∧ s.domOn .ring = true ∧ s.ringJoined = true ∧ s.ringLeader = some s.ringAddr ∧ s.ring.due ≤ s.tb.toNat ∧ s.on
      Fld.RING_STAT_DUP = false ∧ s.rportUp 0 = true) ∧ (s.getRport 0).crit.length < 32) ∧
    (∃ (s : State), s.calm ∧ (s.domOn .ring = false ∨ s.ringJoined = false ∨ s.ringLeader ≠ some s.ringAddr ∨ s.tb.toNat < s.ring.due)) ∧
    (∃ (a : Admitted) (rest : List Admitted) (phase : Nat) (v : Nat) (epoch : Nat) (leader : Nat) (mask : Nat) (act : Nat) (s : State),
      s.calm ∧ s.numbered ∧ s.ring.inbox = a :: rest ∧ a.frame.msg = .versionAgree phase v epoch leader mask act ∧ a.port < 2 ∧ phase = 3 ∧
      a.frame.src = s.ringAddr) ∧
    (∃ (a : Admitted) (rest : List Admitted) (phase : Nat) (v : Nat) (epoch : Nat) (leader : Nat) (mask : Nat) (act : Nat) (s : State),
      (s.calm ∧ s.numbered ∧ s.ring.inbox = a :: rest ∧ a.frame.msg = .versionAgree phase v epoch leader mask act ∧ a.port < 2 ∧ phase = 3
      ∧ a.frame.src ≠ s.ringAddr) ∧ s.ringLocked = false) ∧
    (∃ (a : Admitted) (rest : List Admitted) (phase : Nat) (v : Nat) (epoch : Nat) (leader : Nat) (mask : Nat) (act : Nat) (s : State),
      (s.calm ∧ s.numbered ∧ s.ring.inbox = a :: rest ∧ a.frame.msg = .versionAgree phase v epoch leader mask act ∧ a.port < 2 ∧ phase = 3
      ∧ a.frame.src ≠ s.ringAddr) ∧ s.ringLocked = true) ∧
    (∃ (a : Admitted) (rest : List Admitted) (phase : Nat) (v : Nat) (epoch : Nat) (leader : Nat) (mask : Nat) (act : Nat) (s : State),
      (s.calm ∧ s.numbered ∧ s.ring.inbox = a :: rest ∧ a.frame.msg = .versionAgree phase v epoch leader mask act ∧ a.port < 2 ∧ phase ≠ 3
      ∧ a.frame.src = s.ringAddr) ∧ s.ring.proposal.all (fun q => decide (q.epoch ≠ epoch)) = true) ∧
    (∃ (a : Admitted) (rest : List Admitted) (phase : Nat) (v : Nat) (epoch : Nat) (leader : Nat) (mask : Nat) (act : Nat) (s : State) (q :
      _), (s.calm ∧ s.numbered ∧ s.ring.inbox = a :: rest ∧ a.frame.msg = .versionAgree phase v epoch leader mask act ∧ a.port < 2 ∧ phase
      ≠ 3 ∧ a.frame.src = s.ringAddr) ∧ s.ring.proposal = some q ∧ q.epoch = epoch) ∧
    (∃ (a : Admitted) (rest : List Admitted) (phase : Nat) (v : Nat) (epoch : Nat) (leader : Nat) (mask : Nat) (act : Nat) (s : State),
      (s.calm ∧ s.numbered ∧ s.ring.inbox = a :: rest ∧ a.frame.msg = .versionAgree phase v epoch leader mask act ∧ a.port < 2 ∧ phase = 1
      ∧ a.frame.src ≠ s.ringAddr) ∧ s.ringJoined = true ∧ s.rportUp (1 - a.port) = true ∧ 1 < a.frame.hops ∧ (s.getRport (1 -
      a.port)).crit.length < 32) ∧
    (∃ (a : Admitted) (rest : List Admitted) (phase : Nat) (v : Nat) (epoch : Nat) (leader : Nat) (mask : Nat) (act : Nat) (s : State),
      (s.calm ∧ s.numbered ∧ s.ring.inbox = a :: rest ∧ a.frame.msg = .versionAgree phase v epoch leader mask act ∧ a.port < 2 ∧ phase = 1
      ∧ a.frame.src ≠ s.ringAddr) ∧ s.ringJoined = true ∧ s.rportUp (1 - a.port) = false ∧ (s.getRport a.port).crit.length < 32) ∧
    (∃ (a : Admitted) (rest : List Admitted) (phase : Nat) (v : Nat) (epoch : Nat) (leader : Nat) (mask : Nat) (act : Nat) (s : State),
      (s.calm ∧ s.numbered ∧ s.ring.inbox = a :: rest ∧ a.frame.msg = .versionAgree phase v epoch leader mask act ∧ a.port < 2 ∧ phase = 1
      ∧ a.frame.src ≠ s.ringAddr) ∧ (s.ringJoined = false ∨ (s.rportUp (1 - a.port) = true ∧ a.frame.hops ≤ 1))) ∧
    (∃ (a : Admitted) (rest : List Admitted) (phase : Nat) (v : Nat) (epoch : Nat) (leader : Nat) (mask : Nat) (act : Nat) (s : State),
      (s.calm ∧ s.numbered ∧ s.ring.inbox = a :: rest ∧ a.frame.msg = .versionAgree phase v epoch leader mask act ∧ a.port < 2 ∧ phase ≠ 1
      ∧ phase ≠ 3) ∧ a.frame.src ≠ s.ringAddr) ∧
    (∃ (s : State) (q : Proposal), s.calm ∧ s.numbered ∧ s.domOn .ring = true ∧ s.ring.proposal = some q ∧ q.sent + 400000000 ≤ s.tb.toNat
      ∧ s.roster.all (fun a => q.copies.any (fun c => c.2.testBit a)) = true ∧ s.ringLocked = false) ∧
    (∃ (s : State) (q : Proposal), s.calm ∧ s.numbered ∧ s.domOn .ring = true ∧ s.ring.proposal = some q ∧ q.sent + 400000000 ≤ s.tb.toNat
      ∧ s.roster.all (fun a => q.copies.any (fun c => c.2.testBit a)) = true ∧ s.ringLocked = true) ∧
    (∃ (s : State) (q : Proposal), s.calm ∧ s.numbered ∧ s.domOn .ring = true ∧ s.ring.proposal = some q ∧ q.sent + 400000000 ≤ s.tb.toNat
      ∧ s.roster.all (fun a => q.copies.any (fun c => c.2.testBit a)) = false) ∧
    (∃ (s : State), s.calm ∧ (s.domOn .ring = false ∨ s.ring.proposal.all (fun q => decide (s.tb.toNat < q.sent + 400000000)) = true)) ∧
    (∃ (s : State) (v : Nat) (epoch : Nat) (act : Nat), s.calm ∧ s.numbered ∧ s.domOn .ring = true ∧ s.ring.commit = some (v, epoch, act) ∧
      act ≤ s.toRing s.tb.toNat) ∧
    (∃ (s : State), s.calm ∧ (s.domOn .ring = false ∨ s.ring.commit.all (fun x => decide (s.toRing s.tb.toNat < x.2.2)) = true)) ∧
    (∃ (s : State), s.calm ∧ s.domOn .ring = true ∧ s.on Fld.RING_PTP_STAT_MASTER_ACT = true ∧ s.ringJoined = true ∧ s.on Fld.RING_STAT_DUP
      = false ∧ s.rportUp 0 = true ∧ (s.getRport 0).crit.length < 32) ∧
    (∃ (s : State), s.calm ∧ (s.domOn .ring = false ∨ s.on Fld.RING_PTP_STAT_MASTER_ACT = false)) ∧
    (∃ (p : Fin 2) (s : State), s.calm ∧ s.domOn .ring = true ∧ s.rportUp p = true ∧ s.ringJoined = true ∧ s.on Fld.RING_STAT_DUP = false ∧
      (s.getRport p).crit.length < 32) ∧
    (∃ (p : Fin 2) (s : State), s.calm ∧ (s.domOn .ring = false ∨ s.rportUp p = false ∨ s.ringJoined = false ∨ s.on Fld.RING_STAT_DUP =
      true)) ∧
    (∃ (a : Admitted) (rest : List Admitted) (m : PtpMsg) (s : State) (n : Nat) (t1 : Nat) (t4 : Nat) (t2 : Int) (l : List Nat), (s.calm ∧
      s.ring.inbox = a :: rest ∧ a.frame.msg = .ptp m ∧ a.port < 2 ∧ m.kind = .pdelayRespFollowUp ∧ (s.getRport a.port).req = some (n, t1)
      ∧ (s.getRport a.port).resp = some (t2, t4)) ∧ m.seqId = n ∧ l = (patternOf 32 (roundDiv (roundDiv (((t4 : Int) - t1) * 2 ^ 14 -
      (ptpTime m - t2)) 2) 64) :: (s.getRport a.port).delays).take 4) ∧
    (∃ (a : Admitted) (rest : List Admitted) (m : PtpMsg) (s : State), s.calm ∧ s.ring.inbox = a :: rest ∧ a.frame.msg = .ptp m ∧ a.port <
      2 ∧ m.kind = .pdelayRespFollowUp ∧ ((s.getRport a.port).req.all (fun q => decide (q.1 ≠ m.seqId)) = true ∨ (s.getRport a.port).resp =
      none)) ∧
    (∃ (a : Admitted) (rest : List Admitted) (m : PtpMsg) (s : State), (s.calm ∧ s.ring.inbox = a :: rest ∧ a.frame.msg = .ptp m ∧ a.port <
      2 ∧ m.kind = .pdelayReq ∧ s.ringJoined = true ∧ s.on Fld.RING_STAT_DUP = false) ∧ s.domOn .ring = true ∧ (s.getRport
      a.port).crit.length < 32) ∧
    (∃ (a : Admitted) (rest : List Admitted) (m : PtpMsg) (s : State), s.calm ∧ s.ring.inbox = a :: rest ∧ a.frame.msg = .ptp m ∧ a.port <
      2 ∧ m.kind = .pdelayReq ∧ (s.ringJoined = false ∨ s.on Fld.RING_STAT_DUP = true)) ∧
    (∃ (a : Admitted) (rest : List Admitted) (m : PtpMsg) (s : State), s.calm ∧ s.ring.inbox = a :: rest ∧ a.frame.msg = .ptp m ∧ a.port <
      2 ∧ m.kind = .pdelayResp ∧ (s.getRport a.port).req.any (fun q => decide (q.1 = m.seqId)) = true) ∧
    (∃ (a : Admitted) (rest : List Admitted) (m : PtpMsg) (s : State), s.calm ∧ s.ring.inbox = a :: rest ∧ a.frame.msg = .ptp m ∧ a.port <
      2 ∧ m.kind = .pdelayResp ∧ (s.getRport a.port).req.any (fun q => decide (q.1 = m.seqId)) = false) ∧
    (∃ (a : Admitted) (rest : List Admitted) (m : PtpMsg) (s : State) (k : _), s.calm ∧ s.ring.inbox = a :: rest ∧ a.frame.msg = .ptp m ∧
      a.port < 2 ∧ m.kind = .other k) ∧
    (∃ (a : Admitted) (rest : List Admitted) (m : PtpMsg) (s : State), s.calm ∧ s.ring.inbox = a :: rest ∧ a.frame.msg = .ptp m ∧ a.port <
      2 ∧ (m.kind = .sync ∨ m.kind = .followUp) ∧ (s.on Fld.RING_PTP_STAT_MASTER_ACT = true ∨ s.shownMaster ≠ some a.frame.src ∨
      a.frame.uncorr = true ∨ m.domain ≠ s.rd Fld.RING_PTP_CFG_DOMAIN ∨ s.on (Fld.RING_P_STAT_DELAY_OK a.port) = false)) ∧
    (∃ (a : Admitted) (rest : List Admitted) (m : PtpMsg) (s : State), (s.calm ∧ s.ring.inbox = a :: rest ∧ a.frame.msg = .ptp m ∧ a.port <
      2 ∧ (m.kind = .sync ∨ m.kind = .followUp) ∧ s.on Fld.RING_PTP_STAT_MASTER_ACT = false ∧ s.shownMaster = some a.frame.src) ∧
      a.frame.uncorr = false ∧ m.domain = s.rd Fld.RING_PTP_CFG_DOMAIN ∧ s.on (Fld.RING_P_STAT_DELAY_OK a.port) = true ∧ m.kind = .sync) ∧
    (∃ (a : Admitted) (rest : List Admitted) (m : PtpMsg) (s : State) (x : _), (s.calm ∧ s.ring.inbox = a :: rest ∧ a.frame.msg = .ptp m ∧
      a.port < 2 ∧ (m.kind = .sync ∨ m.kind = .followUp) ∧ s.on Fld.RING_PTP_STAT_MASTER_ACT = false ∧ s.shownMaster = some a.frame.src) ∧
      a.frame.uncorr = false ∧ m.domain = s.rd Fld.RING_PTP_CFG_DOMAIN ∧ s.on (Fld.RING_P_STAT_DELAY_OK a.port) = true ∧ m.kind = .followUp
      ∧ s.ring.syncs.find? (fun y => y.port == a.port && y.seqId == m.seqId) = some x ∧ SyncSeen.best s.ring.syncs x = true ∧
      s.ring.syncUsed ≠ some m.seqId) ∧
    (∃ (a : Admitted) (rest : List Admitted) (m : PtpMsg) (s : State), (s.calm ∧ s.ring.inbox = a :: rest ∧ a.frame.msg = .ptp m ∧ a.port <
      2 ∧ (m.kind = .sync ∨ m.kind = .followUp) ∧ s.on Fld.RING_PTP_STAT_MASTER_ACT = false ∧ s.shownMaster = some a.frame.src) ∧
      a.frame.uncorr = false ∧ m.domain = s.rd Fld.RING_PTP_CFG_DOMAIN ∧ s.on (Fld.RING_P_STAT_DELAY_OK a.port) = true ∧ m.kind = .followUp
      ∧ (s.ring.syncs.find? (fun y => y.port == a.port && y.seqId == m.seqId)).all (fun x => !SyncSeen.best s.ring.syncs x || decide
      (s.ring.syncUsed = some m.seqId)) = true) ∧
    (∃ (r : Int) (d : Int) (at_ : Nat) (s : State), d = (if s.ring.ofsTaken then r - at_ - s.ringOfs else 0)) ∧
    (∃ (r : Int) (d : Int) (at_ : Nat) (s : State), d = (if s.ring.ofsTaken then r - at_ - s.ringOfs else 0)) ∧
    (∃ (r : Int) (d : Int) (at_ : Nat) (s : State), d = (if s.ring.ofsTaken then r - at_ - s.ringOfs else 0)) ∧
    (∃ (r : Int) (d : Int) (at_ : Nat) (s : State), d = (if s.ring.ofsTaken then r - at_ - s.ringOfs else 0)) ∧
    (∃ (r : Int) (d : Int) (at_ : Nat) (s : State), d = (if s.ring.ofsTaken then r - at_ - s.ringOfs else 0)) ∧
    (∃ (r : Int) (d : Int) (at_ : Nat) (s : State), d = (if s.ring.ofsTaken then r - at_ - s.ringOfs else 0)) ∧
    (∃ (s : State), s.calm ∧ s.domOn .ring = true ∧ s.on Fld.RING_PTP_STAT_MASTER_ACT = false ∧ s.ring.lastSync + 1000000000 ≤ s.tb.toNat) ∧
    (∃ (s : State), s.calm ∧ (s.domOn .ring = false ∨ s.on Fld.RING_PTP_STAT_MASTER_ACT = true ∨ s.tb.toNat < s.ring.lastSync +
      1000000000)) :=
  ⟨⟨s291, by unfold State.calm; decide +kernel, by decide +kernel⟩,
   ⟨s307, by unfold State.calm; decide +kernel⟩,
   ⟨((⟨1, 9000, ({ ver := 1, west := false, uncorr := false, unsync := false, rest := 0, hops := 9, src := 5, dst := 0xFF, seq := 3, joinId := 44, msg := .versionAgree 3 2 8 7 1 99999 }
      : RingFrame)⟩ : Admitted)), [], 3, 2, 8, 7, 1, 99999, s308, by unfold State.numbered State.calm; decide +kernel⟩,
   ⟨((⟨1, 9000, ({ ver := 1, west := false, uncorr := false, unsync := false, rest := 0, hops := 9, src := 7, dst := 0xFF, seq := 3, joinId := 44, msg := .versionAgree 3 2 8 7 1 99999 }
      : RingFrame)⟩ : Admitted)), [], 3, 2, 8, 7, 1, 99999, s309, by unfold State.numbered State.calm; decide +kernel, by decide +kernel⟩,
   ⟨((⟨1, 9000, ({ ver := 1, west := false, uncorr := false, unsync := false, rest := 0, hops := 9, src := 7, dst := 0xFF, seq := 3, joinId := 44, msg := .versionAgree 3 2 8 7 1 99999 }
      : RingFrame)⟩ : Admitted)), [], 3, 2, 8, 7, 1, 99999, s310, by unfold State.numbered State.calm; decide +kernel, by decide +kernel⟩,
   ⟨((⟨1, 9000, ({ ver := 1, west := false, uncorr := false, unsync := false, rest := 0, hops := 9, src := 5, dst := 0xFF, seq := 3, joinId := 44, msg := .versionAgree 1 2 8 7 1 99999 }
      : RingFrame)⟩ : Admitted)), [], 1, 2, 8, 7, 1, 99999, s311, by unfold State.numbered State.calm; decide +kernel, by decide +kernel⟩,
   ⟨((⟨1, 9000, ({ ver := 1, west := false, uncorr := false, unsync := false, rest := 0, hops := 9, src := 5, dst := 0xFF, seq := 3, joinId := 44, msg := .versionAgree 2 2 8 7 1 99999 }
      : RingFrame)⟩ : Admitted)), [], 2, 2, 8, 7, 1, 99999, s312, ((⟨8, 7, []⟩ : Proposal)),
      by unfold State.numbered State.calm; decide +kernel, by decide +kernel⟩,
   ⟨((⟨1, 9000, ({ ver := 1, west := false, uncorr := false, unsync := false, rest := 0, hops := 9, src := 7, dst := 0xFF, seq := 3, joinId := 44, msg := .versionAgree 1 2 8 7 1 99999 }
      : RingFrame)⟩ : Admitted)), [], 1, 2, 8, 7, 1, 99999, s313, by unfold State.numbered State.calm; decide +kernel, by decide +kernel⟩,
   ⟨((⟨1, 9000, ({ ver := 1, west := false, uncorr := false, unsync := false, rest := 0, hops := 9, src := 7, dst := 0xFF, seq := 3, joinId := 44, msg := .versionAgree 1 2 8 7 1 99999 }
      : RingFrame)⟩ : Admitted)), [], 1, 2, 8, 7, 1, 99999, s314, by unfold State.numbered State.calm; decide +kernel, by decide +kernel⟩,
   ⟨((⟨1, 9000, ({ ver := 1, west := false, uncorr := false, unsync := false, rest := 0, hops := 1, src := 7, dst := 0xFF, seq := 3, joinId := 44, msg := .versionAgree 1 2 8 7 1 99999 }
      : RingFrame)⟩ : Admitted)), [], 1, 2, 8, 7, 1, 99999, s315, by unfold State.numbered State.calm; decide +kernel, by decide +kernel⟩,
   ⟨((⟨1, 9000, ({ ver := 1, west := false, uncorr := false, unsync := false, rest := 0, hops := 9, src := 7, dst := 0xFF, seq := 3, joinId := 44, msg := .versionAgree 2 2 8 7 1 99999 }
      : RingFrame)⟩ : Admitted)), [], 2, 2, 8, 7, 1, 99999, s316, by unfold State.numbered State.calm; decide +kernel, by decide +kernel⟩,
   ⟨s317, ((⟨8, 7, [(2, 0x20)]⟩ : Proposal)), by unfold State.numbered State.calm; decide +kernel⟩,
   ⟨s318, ((⟨8, 7, [(2, 0x20)]⟩ : Proposal)), by unfold State.numbered State.calm; decide +kernel⟩,
   ⟨s319, ((⟨8, 7, []⟩ : Proposal)), by unfold State.numbered State.calm; decide +kernel⟩,
   ⟨s320, by unfold State.calm; decide +kernel⟩,
   ⟨s321, 2, 8, 5, by unfold State.numbered State.calm; decide +kernel⟩,
   ⟨s322, by unfold State.calm; decide +kernel⟩,
   ⟨s323, by unfold State.calm; decide +kernel⟩,
   ⟨s291, by unfold State.calm; decide +kernel⟩,
   ⟨1, s291, by unfold State.calm; decide +kernel⟩,
   ⟨1, s324, by unfold State.calm; decide +kernel⟩,
   ⟨((⟨1, 9000, ({ ver := 1, west := false, uncorr := false, unsync := false, rest := 0, hops := 9, src := 7, dst := 0xFF, seq := 3, joinId := 44, msg := .ptp (⟨.pdelayRespFollowUp, 0, 6, 0, 500⟩ : PtpMsg) }
      : RingFrame)⟩ : Admitted)), [], ((⟨.pdelayRespFollowUp, 0, 6, 0, 500⟩ : PtpMsg)), s325, 6, 1000, 9000, 77, [768001, 700, 800, 900],
      by unfold State.calm; decide +kernel, by decide +kernel⟩,
   ⟨((⟨1, 9000, ({ ver := 1, west := false, uncorr := false, unsync := false, rest := 0, hops := 9, src := 7, dst := 0xFF, seq := 3, joinId := 44, msg := .ptp (⟨.pdelayRespFollowUp, 0, 6, 0, 500⟩ : PtpMsg) }
      : RingFrame)⟩ : Admitted)), [], ((⟨.pdelayRespFollowUp, 0, 6, 0, 500⟩ : PtpMsg)), s326, by unfold State.calm; decide +kernel⟩,
   ⟨((⟨1, 9000, ({ ver := 1, west := false, uncorr := false, unsync := false, rest := 0, hops := 9, src := 7, dst := 0xFF, seq := 3, joinId := 44, msg := .ptp (⟨.pdelayReq, 0, 6, 0, 500⟩ : PtpMsg) }
      : RingFrame)⟩ : Admitted)), [], ((⟨.pdelayReq, 0, 6, 0, 500⟩ : PtpMsg)), s327, by unfold State.calm; decide +kernel,
      by decide +kernel⟩,
   ⟨((⟨1, 9000, ({ ver := 1, west := false, uncorr := false, unsync := false, rest := 0, hops := 9, src := 7, dst := 0xFF, seq := 3, joinId := 44, msg := .ptp (⟨.pdelayReq, 0, 6, 0, 500⟩ : PtpMsg) }
      : RingFrame)⟩ : Admitted)), [], ((⟨.pdelayReq, 0, 6, 0, 500⟩ : PtpMsg)), s328, by unfold State.calm; decide +kernel⟩,
   ⟨((⟨1, 9000, ({ ver := 1, west := false, uncorr := false, unsync := false, rest := 0, hops := 9, src := 7, dst := 0xFF, seq := 3, joinId := 44, msg := .ptp (⟨.pdelayResp, 0, 6, 0, 500⟩ : PtpMsg) }
      : RingFrame)⟩ : Admitted)), [], ((⟨.pdelayResp, 0, 6, 0, 500⟩ : PtpMsg)), s329, by unfold State.calm; decide +kernel⟩,
   ⟨((⟨1, 9000, ({ ver := 1, west := false, uncorr := false, unsync := false, rest := 0, hops := 9, src := 7, dst := 0xFF, seq := 3, joinId := 44, msg := .ptp (⟨.pdelayResp, 0, 6, 0, 500⟩ : PtpMsg) }
      : RingFrame)⟩ : Admitted)), [], ((⟨.pdelayResp, 0, 6, 0, 500⟩ : PtpMsg)), s330, by unfold State.calm; decide +kernel⟩,
   ⟨((⟨1, 9000, ({ ver := 1, west := false, uncorr := false, unsync := false, rest := 0, hops := 9, src := 7, dst := 0xFF, seq := 3, joinId := 44, msg := .ptp (⟨(.other 4), 0, 6, 0, 500⟩ : PtpMsg) }
      : RingFrame)⟩ : Admitted)), [], ((⟨(.other 4), 0, 6, 0, 500⟩ : PtpMsg)), s331, 4, by unfold State.calm; decide +kernel⟩,
   ⟨((⟨1, 9000, ({ ver := 1, west := false, uncorr := false, unsync := false, rest := 0, hops := 9, src := 7, dst := 0xFF, seq := 3, joinId := 44, msg := .ptp (⟨.sync, 0, 6, 0, 500⟩ : PtpMsg) }
      : RingFrame)⟩ : Admitted)), [], ((⟨.sync, 0, 6, 0, 500⟩ : PtpMsg)), s332, by unfold State.calm; decide +kernel⟩,
   ⟨((⟨1, 9000, ({ ver := 1, west := false, uncorr := false, unsync := false, rest := 0, hops := 9, src := 7, dst := 0xFF, seq := 3, joinId := 44, msg := .ptp (⟨.sync, 0, 6, 0, 500⟩ : PtpMsg) }
      : RingFrame)⟩ : Admitted)), [], ((⟨.sync, 0, 6, 0, 500⟩ : PtpMsg)), s333, by unfold State.calm; decide +kernel, by decide +kernel⟩,
   ⟨((⟨1, 9000, ({ ver := 1, west := false, uncorr := false, unsync := false, rest := 0, hops := 9, src := 7, dst := 0xFF, seq := 3, joinId := 44, msg := .ptp (⟨.followUp, 0, 6, 0, 500⟩ : PtpMsg) }
      : RingFrame)⟩ : Admitted)), [], ((⟨.followUp, 0, 6, 0, 500⟩ : PtpMsg)), s334, ((⟨1, 55, 6, 9000, 3⟩ : SyncSeen)),
      by unfold State.calm; decide +kernel, by decide +kernel⟩,
   ⟨((⟨1, 9000, ({ ver := 1, west := false, uncorr := false, unsync := false, rest := 0, hops := 9, src := 7, dst := 0xFF, seq := 3, joinId := 44, msg := .ptp (⟨.followUp, 0, 6, 0, 500⟩ : PtpMsg) }
      : RingFrame)⟩ : Admitted)), [], ((⟨.followUp, 0, 6, 0, 500⟩ : PtpMsg)), s335, by unfold State.calm; decide +kernel,
      by decide +kernel⟩,
   ⟨500, 0, 9, s291, by decide +kernel⟩,
   ⟨500, 0, 9, s291, by decide +kernel⟩,
   ⟨500, 0, 9, s291, by decide +kernel⟩,
   ⟨500, 0, 9, s291, by decide +kernel⟩,
   ⟨500, 0, 9, s291, by decide +kernel⟩,
   ⟨500, 0, 9, s291, by decide +kernel⟩,
   ⟨s336, by unfold State.calm; decide +kernel⟩,
   ⟨s291, by unfold State.calm; decide +kernel⟩⟩

theorem witness_LineServices :
    (∃ (a : Admitted) (rest : List Admitted) (relay : Nat) (pol : Nat) (count : Nat) (time : Nat) (s : State), s.calm ∧ s.ring.inbox = a ::
      rest ∧ a.frame.msg = .pgo relay pol count time ∧ s.timeValid a.frame = false) ∧
    (∃ (a : Admitted) (rest : List Admitted) (relay : Nat) (pol : Nat) (count : Nat) (time : Nat) (s : State), s.calm ∧ s.ring.inbox = a ::
      rest ∧ a.frame.msg = .pgo relay pol count time ∧ s.timeValid a.frame = true ∧ (∀ j < 8, s.on (Fld.RING_PRX_EN j) = true → s.rd
      (Fld.RING_PRX_SRC j) = a.frame.src → s.rd (Fld.RING_PRX_ID j) ≠ relay)) ∧
    (∃ (a : Admitted) (rest : List Admitted) (relay : Nat) (pol : Nat) (count : Nat) (time : Nat) (s : State) (k : Fin 8), s.calm ∧
      s.ring.inbox = a :: rest ∧ a.frame.msg = .pgo relay pol count time ∧ s.timeValid a.frame = true ∧ (∀ j < 8, (s.on (Fld.RING_PRX_EN j)
      = true ∧ s.rd (Fld.RING_PRX_SRC j) = a.frame.src ∧ s.rd (Fld.RING_PRX_ID j) = relay) ↔ j = k) ∧ (Store.get (fun _ => none)
      s.ring.prxLast k).any (fun l => decide (s.fromRing time ≤ l)) = false) ∧
    (∃ (a : Admitted) (rest : List Admitted) (relay : Nat) (pol : Nat) (count : Nat) (time : Nat) (s : State) (k : Fin 8), s.calm ∧
      s.ring.inbox = a :: rest ∧ a.frame.msg = .pgo relay pol count time ∧ s.timeValid a.frame = true ∧ (∀ j < 8, (s.on (Fld.RING_PRX_EN j)
      = true ∧ s.rd (Fld.RING_PRX_SRC j) = a.frame.src ∧ s.rd (Fld.RING_PRX_ID j) = relay) ↔ j = k) ∧ (Store.get (fun _ => none)
      s.ring.prxLast k).any (fun l => decide (s.fromRing time ≤ l)) = true) ∧
    (∃ (due : BitVec 8) (l : List Nat) (s : State), (s.calm ∧ l = (List.range 8).filter (fun i => due.getLsbD i && s.vtxDue i) ∧ s.domOn
      .ring = true ∧ s.domOn .place = true ∧ 2 ≤ s.ringVersion ∧ l ≠ [] ∧ s.ringJoined = true) ∧ s.on Fld.RING_STAT_DUP = false ∧ s.rportUp
      0 = true ∧ (s.getRport 0).crit.length < 32) ∧
    (∃ (due : BitVec 8) (l : List Nat) (s : State), s.calm ∧ l = (List.range 8).filter (fun i => due.getLsbD i && s.vtxDue i) ∧ (s.domOn
      .ring = false ∨ s.domOn .place = false ∨ s.ringVersion < 2 ∨ l = [])) ∧
    (∃ (a : Admitted) (rest : List Admitted) (l : List (Nat × Nat × Nat)) (s : State), s.calm ∧ s.ring.inbox = a :: rest ∧ a.frame.msg =
      .venc l ∧ s.timeValid a.frame = false) ∧
    (∃ (a : Admitted) (rest : List Admitted) (l : List (Nat × Nat × Nat)) (s : State), s.calm ∧ s.ring.inbox = a :: rest ∧ a.frame.msg =
      .venc l ∧ s.timeValid a.frame = true ∧ (s.ringVersion < 2 ∨ l = [])) ∧
    (∃ (a : Admitted) (rest : List Admitted) (l : List (Nat × Nat × Nat)) (s : State) (x : Nat × Nat × Nat) (k : Fin 8), (s.calm ∧
      s.ring.inbox = a :: rest ∧ a.frame.msg = .venc l ∧ s.timeValid a.frame = true ∧ x ∈ l ∧ (∀ y ∈ l, y.1 = x.1 → y = x) ∧ s.vrxActive k
      = true) ∧ s.rd (Fld.RING_VRX_SRC k) = a.frame.src ∧ s.rd (Fld.RING_VRX_ID k) = x.1 ∧ s.domOn .place = true) ∧
    (∃ (a : Admitted) (rest : List Admitted) (l : List (Nat × Nat × Nat)) (s : State) (k : Fin 8), s.calm ∧ s.ring.inbox = a :: rest ∧
      a.frame.msg = .venc l ∧ s.timeValid a.frame = true ∧ (s.vrxActive k = false ∨ s.rd (Fld.RING_VRX_SRC k) ≠ a.frame.src ∨ s.rd
      (Fld.RING_VRX_ID k) ∉ l.map (fun x => x.1))) ∧
    (∃ (k : Fin 8) (s : State), s.calm ∧ s.domOn .ring = true ∧ s.vrxActive k = true ∧ s.vencLost k = false ∧ Store.get (fun _ => 0)
      s.ring.vrxAt k + s.vrxTmo k ≤ s.tb.toNat) ∧
    (∃ (k : Fin 8) (s : State), s.calm ∧ (s.domOn .ring = false ∨ s.vrxActive k = false ∨ s.vencLost k = true ∨ s.tb.toNat < Store.get (fun
      _ => 0) s.ring.vrxAt k + s.vrxTmo k)) ∧
    (∃ (a : Admitted) (rest : List Admitted) (ctx : Nat) (kind : Nat) (status : Nat) (seq : Nat) (pos : Nat) (time : Nat) (e : Nat) (rej :
      Bool) (s : State), s.calm ∧ s.ring.inbox = a :: rest ∧ a.frame.msg = .track ctx kind status rej seq pos time ∧ e = s.rd
      Fld.RING_TRK_WR_NEXT) :=
  ⟨⟨((⟨1, 9000, ({ ver := 1, west := false, uncorr := false, unsync := true, rest := 0, hops := 9, src := 7, dst := 0xFF, seq := 3, joinId := 44, msg := .pgo 3 1 4 9999 }
      : RingFrame)⟩ : Admitted)), [], 3, 1, 4, 9999, s337, by unfold State.calm; decide +kernel⟩,
   ⟨((⟨1, 9000, ({ ver := 1, west := false, uncorr := false, unsync := false, rest := 0, hops := 9, src := 7, dst := 0xFF, seq := 3, joinId := 44, msg := .pgo 3 1 4 9999 }
      : RingFrame)⟩ : Admitted)), [], 3, 1, 4, 9999, s338, by unfold State.calm; decide +kernel⟩,
   ⟨((⟨1, 9000, ({ ver := 1, west := false, uncorr := false, unsync := false, rest := 0, hops := 9, src := 7, dst := 0xFF, seq := 3, joinId := 44, msg := .pgo 3 1 4 9999 }
      : RingFrame)⟩ : Admitted)), [], 3, 1, 4, 9999, s339, 7, by unfold State.calm; decide +kernel⟩,
   ⟨((⟨1, 9000, ({ ver := 1, west := false, uncorr := false, unsync := false, rest := 0, hops := 9, src := 7, dst := 0xFF, seq := 3, joinId := 44, msg := .pgo 3 1 4 9999 }
      : RingFrame)⟩ : Admitted)), [], 3, 1, 4, 9999, s340, 7, by unfold State.calm; decide +kernel⟩,
   ⟨0x80, [7], s341, by unfold State.calm; decide +kernel, by decide +kernel⟩,
   ⟨0x80, [], s291, by unfold State.calm; decide +kernel⟩,
   ⟨((⟨1, 9000, ({ ver := 1, west := false, uncorr := false, unsync := true, rest := 0, hops := 9, src := 7, dst := 0xFF, seq := 3, joinId := 44, msg := .venc [(3, 4, 9999)] }
      : RingFrame)⟩ : Admitted)), [], [(3, 4, 9999)], s342, by unfold State.calm; decide +kernel⟩,
   ⟨((⟨1, 9000, ({ ver := 1, west := false, uncorr := false, unsync := false, rest := 0, hops := 9, src := 7, dst := 0xFF, seq := 3, joinId := 44, msg := .venc [] }
      : RingFrame)⟩ : Admitted)), [], [], s343, by unfold State.calm; decide +kernel⟩,
   ⟨((⟨1, 9000, ({ ver := 1, west := false, uncorr := false, unsync := false, rest := 0, hops := 9, src := 7, dst := 0xFF, seq := 3, joinId := 44, msg := .venc [(2, 9, 9999), (3, 4, 9999)] }
      : RingFrame)⟩ : Admitted)), [], [(2, 9, 9999), (3, 4, 9999)], s344, ((3, 4, 9999)), 7, by unfold State.calm; decide +kernel,
      by decide +kernel⟩,
   ⟨((⟨1, 9000, ({ ver := 1, west := false, uncorr := false, unsync := false, rest := 0, hops := 9, src := 7, dst := 0xFF, seq := 3, joinId := 44, msg := .venc [(2, 9, 9999), (3, 4, 9999)] }
      : RingFrame)⟩ : Admitted)), [], [(2, 9, 9999), (3, 4, 9999)], s344, 6, by unfold State.calm; decide +kernel⟩,
   ⟨7, s345, by unfold State.calm; decide +kernel⟩,
   ⟨7, s291, by unfold State.calm; decide +kernel⟩,
   ⟨((⟨1, 9000, ({ ver := 1, west := false, uncorr := false, unsync := true, rest := 0, hops := 9, src := 7, dst := 0xFF, seq := 3, joinId := 44, msg := .track 9 1 0 true 4 5 6 }
      : RingFrame)⟩ : Admitted)), [], 9, 1, 0, 4, 5, 6, 255, true, s346, by unfold State.calm; decide +kernel⟩⟩

theorem witness_RejectsAndVotes :
    (∃ (a : Admitted) (rest : List Admitted) (ctx : Nat) (vote : Nat) (status : Nat) (seq : Nat) (pos : Nat) (time : Nat) (l : List Vote)
      (kept : Bool) (s : State), s.calm ∧ s.numbered ∧ s.ring.inbox = a :: rest ∧ a.frame.msg = .reject ctx vote status seq pos time ∧ l =
      s.ring.votes.filter (fun x => !(x.station == a.frame.src && x.seq == seq)) ∧ kept = (decide (s.ringVersion = 3) && (List.range
      16).any (fun v => s.voteInUse v && (s.voters v).contains a.frame.src))) ∧
    (∃ (a : Admitted) (rest : List Admitted) (ctx : Nat) (vote : Nat) (status : Nat) (seq : Nat) (pos : Nat) (time : Nat) (l : List Vote)
      (kept : Bool) (s : State), (s.calm ∧ s.numbered ∧ s.ring.inbox = a :: rest ∧ a.frame.msg = .reject ctx vote status seq pos time ∧ l =
      s.ring.votes.filter (fun x => !(x.station == a.frame.src && x.seq == seq)) ∧ kept = (decide (s.ringVersion = 3) && (List.range
      16).any (fun v => s.voteInUse v && (s.voters v).contains a.frame.src)) ∧ (vote ≠ 1 ∨ (∀ j < 16, s.relayMatches j a.frame.src ctx =
      false))) ∧ kept = false) ∧
    (∃ (a : Admitted) (rest : List Admitted) (ctx : Nat) (status : Nat) (seq : Nat) (pos : Nat) (time : Nat) (i : Fin 16) (at_ : Int) (s :
      State), (s.calm ∧ s.numbered ∧ s.ring.inbox = a :: rest ∧ a.frame.msg = .reject ctx 1 status seq pos time ∧ (∀ j < 16, s.relayMatches
      j a.frame.src ctx = true ↔ j = i) ∧ at_ = pos48 (s.fwdOf (s.rd (Fld.RING_RRLY_A_POS_SRC i)) (s.on (Fld.RING_RRLY_A_DIR i))
      (s.fromRing time) + s.rd (Fld.RING_RRLY_DELAY_DELAY i)) ∧ s.timeValid a.frame = true) ∧ (s.getRelay i).length < 64 ∧ 0 < travel
      (s.fwdOf (s.rd (Fld.RING_RRLY_A_POS_SRC i)) (s.on (Fld.RING_RRLY_A_DIR i)) s.dibNow) at_) ∧
    (∃ (a : Admitted) (rest : List Admitted) (ctx : Nat) (status : Nat) (seq : Nat) (pos : Nat) (time : Nat) (i : Fin 16) (at_ : Int) (s :
      State), s.calm ∧ s.numbered ∧ s.ring.inbox = a :: rest ∧ a.frame.msg = .reject ctx 1 status seq pos time ∧ (∀ j < 16, s.relayMatches
      j a.frame.src ctx = true ↔ j = i) ∧ at_ = pos48 (s.fwdOf (s.rd (Fld.RING_RRLY_A_POS_SRC i)) (s.on (Fld.RING_RRLY_A_DIR i))
      (s.fromRing time) + s.rd (Fld.RING_RRLY_DELAY_DELAY i)) ∧ (s.timeValid a.frame = false ∨ 64 ≤ (s.getRelay i).length ∨ travel (s.fwdOf
      (s.rd (Fld.RING_RRLY_A_POS_SRC i)) (s.on (Fld.RING_RRLY_A_DIR i)) s.dibNow) at_ ≤ 0)) ∧
    (∃ (n : Fin 255) (x : Product) (v : Nat) (s : State), (s.calm ∧ (s.getCtx n).prods = [x] ∧ x.ended = true ∧ x.decided = false ∧
      x.status = some 1 ∧ bitOf (dwAt x.job.dw 3) 18 = false ∧ x.reject = false) ∧ x.rejOut = 0 ∧ x.job.orphan = false ∧ s.ringVersion = 3
      ∧ s.voteEntry n = some v ∧ x.tpg + s.rd (Fld.RING_VOTE_DEADLINE_DEADLINE v) * 4000 ≤ s.dibNow ∧ s.cqRoom) ∧
    (∃ (n : Fin 255) (s : State), s.calm ∧ (s.getCtx n).prods = []) ∧
    (∃ (s : State) (v : _) (l : _), s.calm ∧ s.ring.votes = v :: l ∧ v.at_ + 40000000000 ≤ s.tb.toNat) ∧
    (∃ (s : State), s.calm ∧ s.ring.votes.head?.all (fun v => decide (s.tb.toNat < v.at_ + 40000000000)) = true) :=
  ⟨⟨((⟨1, 9000, ({ ver := 1, west := false, uncorr := false, unsync := false, rest := 0, hops := 9, src := 7, dst := 0xFF, seq := 3, joinId := 44, msg := .reject 9 1 0 4 5 6 }
      : RingFrame)⟩ : Admitted)), [], 9, 1, 0, 4, 5, 6, [], true, s347, by unfold State.numbered State.calm; decide +kernel⟩,
   ⟨((⟨1, 9000, ({ ver := 1, west := false, uncorr := false, unsync := false, rest := 0, hops := 9, src := 7, dst := 0xFF, seq := 3, joinId := 44, msg := .reject 9 1 0 4 5 6 }
      : RingFrame)⟩ : Admitted)), [], 9, 1, 0, 4, 5, 6, [], false, s348, by unfold State.numbered State.calm; decide +kernel,
      by decide +kernel⟩,
   ⟨((⟨1, 9000, ({ ver := 1, west := false, uncorr := false, unsync := false, rest := 0, hops := 9, src := 7, dst := 0xFF, seq := 3, joinId := 44, msg := .reject 9 1 0 4 5 6 }
      : RingFrame)⟩ : Admitted)), [], 9, 0, 4, 5, 6, 15, 0x100000, s349, by unfold State.numbered State.calm; decide +kernel,
      by decide +kernel⟩,
   ⟨((⟨1, 9000, ({ ver := 1, west := false, uncorr := false, unsync := true, rest := 0, hops := 9, src := 7, dst := 0xFF, seq := 3, joinId := 44, msg := .reject 9 1 0 4 5 6 }
      : RingFrame)⟩ : Admitted)), [], 9, 0, 4, 5, 6, 15, 0x100000, s350, by unfold State.numbered State.calm; decide +kernel⟩,
   ⟨254, (({ prod (job [0x8000FE01, 7, 9, 0]) with ended := true, status := some 1 } : Product)), 15, s351,
      by unfold State.calm; decide +kernel, by unfold State.cqRoom; decide +kernel⟩,
   ⟨254, s352, by unfold State.calm; decide +kernel⟩,
   ⟨s353, ⟨1, 2, true, 0⟩, [⟨3, 4, false, 9⟩], by unfold State.calm; decide +kernel⟩,
   ⟨s354, by unfold State.calm; decide +kernel⟩⟩

theorem witness_RingTunnels :
    (∃ (m : Master) (b : Fin 4) (v : Word) (msg : RingMsg) (s : State), s.reaches (Reg.RING_MBX_CMD b) ∧ s.calm ∧ msg = .mgmt (if bitOf v
      26 then 2 else 1) s.ring.tag (bitsOf v 6 0) 0 (4 * s.rd (Fld.RING_MBX_ADDR_ADDR b)) (if bitOf v 26 then (List.range (bitsOf v 6
      0)).map (fun i => s.getReg (Reg.RING_MBX_DATA b i)) else []) ∧ s.on (Fld.RING_MBX_CMD_BUSY b) = true) ∧
    (∃ (m : Master) (b : Fin 4) (v : Word) (msg : RingMsg) (s : State) (r : _), s.reaches (Reg.RING_MBX_CMD b) ∧ s.calm ∧ msg = .mgmt (if
      bitOf v 26 then 2 else 1) s.ring.tag (bitsOf v 6 0) 0 (4 * s.rd (Fld.RING_MBX_ADDR_ADDR b)) (if bitOf v 26 then (List.range (bitsOf v
      6 0)).map (fun i => s.getReg (Reg.RING_MBX_DATA b i)) else []) ∧ s.on (Fld.RING_MBX_CMD_BUSY b) = false ∧ (r = (if bitsOf v 6 0 = 0 ∨
      64 < bitsOf v 6 0 then 5 else if s.ringJoined = false ∨ s.on Fld.RING_STAT_DUP = true ∨ (s.rportUp 0 = false ∧ s.rportUp 1 = false)
      then 3 else if bitsOf v 21 16 ≠ s.ringAddr ∧ bitsOf v 21 16 ∉ s.roster then 4 else 0)) ∧ r ≠ 0) ∧
    (∃ (m : Master) (b : Fin 4) (v : Word) (msg : RingMsg) (s : State) (r : _), s.reaches (Reg.RING_MBX_CMD b) ∧ (s.calm ∧ msg = .mgmt (if
      bitOf v 26 then 2 else 1) s.ring.tag (bitsOf v 6 0) 0 (4 * s.rd (Fld.RING_MBX_ADDR_ADDR b)) (if bitOf v 26 then (List.range (bitsOf v
      6 0)).map (fun i => s.getReg (Reg.RING_MBX_DATA b i)) else []) ∧ s.on (Fld.RING_MBX_CMD_BUSY b) = false ∧ (r = (if bitsOf v 6 0 = 0 ∨
      64 < bitsOf v 6 0 then 5 else if s.ringJoined = false ∨ s.on Fld.RING_STAT_DUP = true ∨ (s.rportUp 0 = false ∧ s.rportUp 1 = false)
      then 3 else if bitsOf v 21 16 ≠ s.ringAddr ∧ bitsOf v 21 16 ∉ s.roster then 4 else 0)) ∧ r = 0 ∧ bitsOf v 21 16 ≠ s.ringAddr ∧
      s.rportUp 0 = true) ∧ (s.getRport 0).bulk.length < 64 ∧ s.rportUp 1 = true ∧ (s.getRport 1).bulk.length < 64) ∧
    (∃ (m : Master) (b : Fin 4) (v : Word) (msg : RingMsg) (s : State) (r : _), s.reaches (Reg.RING_MBX_CMD b) ∧ s.calm ∧ msg = .mgmt (if
      bitOf v 26 then 2 else 1) s.ring.tag (bitsOf v 6 0) 0 (4 * s.rd (Fld.RING_MBX_ADDR_ADDR b)) (if bitOf v 26 then (List.range (bitsOf v
      6 0)).map (fun i => s.getReg (Reg.RING_MBX_DATA b i)) else []) ∧ s.on (Fld.RING_MBX_CMD_BUSY b) = false ∧ (r = (if bitsOf v 6 0 = 0 ∨
      64 < bitsOf v 6 0 then 5 else if s.ringJoined = false ∨ s.on Fld.RING_STAT_DUP = true ∨ (s.rportUp 0 = false ∧ s.rportUp 1 = false)
      then 3 else if bitsOf v 21 16 ≠ s.ringAddr ∧ bitsOf v 21 16 ∉ s.roster then 4 else 0)) ∧ r = 0 ∧ bitsOf v 21 16 = s.ringAddr ∧
      (s.ring.inbox.filter (fun a => isRequest a.frame.msg)).length < 16) ∧
    (∃ (m : Master) (b : Fin 4) (v : Word) (msg : RingMsg) (s : State) (r : _), s.reaches (Reg.RING_MBX_CMD b) ∧ s.calm ∧ msg = .mgmt (if
      bitOf v 26 then 2 else 1) s.ring.tag (bitsOf v 6 0) 0 (4 * s.rd (Fld.RING_MBX_ADDR_ADDR b)) (if bitOf v 26 then (List.range (bitsOf v
      6 0)).map (fun i => s.getReg (Reg.RING_MBX_DATA b i)) else []) ∧ s.on (Fld.RING_MBX_CMD_BUSY b) = false ∧ (r = (if bitsOf v 6 0 = 0 ∨
      64 < bitsOf v 6 0 then 5 else if s.ringJoined = false ∨ s.on Fld.RING_STAT_DUP = true ∨ (s.rportUp 0 = false ∧ s.rportUp 1 = false)
      then 3 else if bitsOf v 21 16 ≠ s.ringAddr ∧ bitsOf v 21 16 ∉ s.roster then 4 else 0)) ∧ r = 0 ∧ bitsOf v 21 16 = s.ringAddr ∧ 16 ≤
      (s.ring.inbox.filter (fun a => isRequest a.frame.msg)).length) ∧
    (∃ (a : Admitted) (rest : List Admitted) (op : Nat) (tag : Nat) (count : Nat) (status : Nat) (addr : Nat) (data : List Word) (u :
      State) (s : State) (b : _), u = s.took rest ∧ s.calm ∧ s.ring.inbox = a :: rest ∧ a.frame.msg = .mgmt op tag count status addr data ∧
      (op = 0x81 ∨ op = 0x82 ∨ op = 0xFF) ∧ s.mailboxOf a.frame.src tag = some b ∧ op = 0x81) ∧
    (∃ (a : Admitted) (rest : List Admitted) (op : Nat) (tag : Nat) (count : Nat) (status : Nat) (addr : Nat) (data : List Word) (u :
      State) (s : State) (b : _), u = s.took rest ∧ s.calm ∧ s.ring.inbox = a :: rest ∧ a.frame.msg = .mgmt op tag count status addr data ∧
      (op = 0x81 ∨ op = 0x82 ∨ op = 0xFF) ∧ s.mailboxOf a.frame.src tag = some b ∧ op = 0xFF) ∧
    (∃ (a : Admitted) (rest : List Admitted) (op : Nat) (tag : Nat) (count : Nat) (status : Nat) (addr : Nat) (data : List Word) (u :
      State) (s : State), u = s.took rest ∧ s.calm ∧ s.ring.inbox = a :: rest ∧ a.frame.msg = .mgmt op tag count status addr data ∧ (op =
      0x81 ∨ op = 0x82 ∨ op = 0xFF) ∧ s.mailboxOf a.frame.src tag = none) ∧
    (∃ (a : Admitted) (rest : List Admitted) (op : Nat) (tag : Nat) (count : Nat) (status : Nat) (addr : Nat) (data : List Word) (u :
      State) (s : State), u = s.took rest ∧ s.calm ∧ s.ring.inbox = a :: rest ∧ a.frame.msg = .mgmt op tag count status addr data ∧ (op =
      0x01 ∨ op = 0x02) ∧ (count = 0 ∨ 64 < count ∨ addr % 4 ≠ 0 ∨ 0x0FFFFFFF < addr)) ∧
    (∃ (a : Admitted) (rest : List Admitted) (op : Nat) (tag : Nat) (count : Nat) (status : Nat) (addr : Nat) (data : List Word) (u :
      State) (s : State), u = s.took rest ∧ s.calm ∧ s.ring.inbox = a :: rest ∧ a.frame.msg = .mgmt op tag count status addr data ∧ op =
      0x01 ∧ mgmtBad count addr = false) ∧
    (∃ (a : Admitted) (rest : List Admitted) (op : Nat) (tag : Nat) (count : Nat) (status : Nat) (addr : Nat) (data : List Word) (u :
      State) (s : State), u = s.took rest ∧ s.calm ∧ s.ring.inbox = a :: rest ∧ a.frame.msg = .mgmt op tag count status addr data ∧ op =
      0x02 ∧ mgmtBad count addr = false) ∧
    (∃ (a : Admitted) (rest : List Admitted) (op : Nat) (tag : Nat) (count : Nat) (status : Nat) (addr : Nat) (data : List Word) (u :
      State) (s : State), u = s.took rest ∧ s.calm ∧ s.ring.inbox = a :: rest ∧ a.frame.msg = .mgmt op tag count status addr data ∧ op ∉
      [0x01, 0x02, 0x81, 0x82, 0xFF]) ∧
    (∃ (b : Fin 4) (s : State) (w : _), s.calm ∧ s.domOn .ring = true ∧ Store.get (fun _ => none) s.ring.mbx b = some w ∧ w.2.2 + s.mbxTmo
      ≤ s.tb.toNat) ∧
    (∃ (b : Fin 4) (s : State), s.calm ∧ (s.domOn .ring = false ∨ (Store.get (fun _ => none) s.ring.mbx b).all (fun w => decide (s.tb.toNat
      < w.2.2 + s.mbxTmo)) = true)) ∧
    (∃ (a : Admitted) (rest : List Admitted) (num : Nat) (kind : Nat) (sseq : Nat) (ack : Nat) (data : List Byte) (u : State) (s : State),
      u = s.took rest ∧ s.calm ∧ s.ring.inbox = a :: rest ∧ a.frame.msg = .service num kind sseq ack data ∧ (s.ringVersion < 2 ∨ (kind ≠ 1
      ∧ s.loaderRuns = false) ∨ 3 < kind ∨ (s.findTunnel a.frame.src num = none ∧ (kind = 0 ∨ kind = 1)))) ∧
    (∃ (a : Admitted) (rest : List Admitted) (num : Nat) (kind : Nat) (sseq : Nat) (ack : Nat) (data : List Byte) (u : State) (s : State),
      u = s.took rest ∧ s.calm ∧ s.ring.inbox = a :: rest ∧ a.frame.msg = .service num kind sseq ack data ∧ 2 ≤ s.ringVersion ∧
      s.loaderRuns = true ∧ kind = 3) ∧
    (∃ (a : Admitted) (rest : List Admitted) (num : Nat) (kind : Nat) (sseq : Nat) (ack : Nat) (data : List Byte) (u : State) (s : State),
      u = s.took rest ∧ s.calm ∧ s.ring.inbox = a :: rest ∧ a.frame.msg = .service num kind sseq ack data ∧ 2 ≤ s.ringVersion ∧
      s.loaderRuns = true ∧ kind = 2 ∧ s.findTunnel a.frame.src num = none) ∧
    (∃ (a : Admitted) (rest : List Admitted) (num : Nat) (kind : Nat) (sseq : Nat) (ack : Nat) (data : List Byte) (u : State) (s : State)
      (x : _), u = s.took rest ∧ s.calm ∧ s.ring.inbox = a :: rest ∧ a.frame.msg = .service num kind sseq ack data ∧ 2 ≤ s.ringVersion ∧
      s.findTunnel a.frame.src num = some x ∧ s.loaderRuns = true ∧ kind = 2) ∧
    (∃ (a : Admitted) (rest : List Admitted) (num : Nat) (kind : Nat) (sseq : Nat) (ack : Nat) (data : List Byte) (u : State) (s : State)
      (x : _), u = s.took rest ∧ (s.calm ∧ s.ring.inbox = a :: rest ∧ a.frame.msg = .service num kind sseq ack data ∧ 2 ≤ s.ringVersion ∧
      s.findTunnel a.frame.src num = some x ∧ s.loaderRuns = true ∧ kind = 0) ∧ sseq = x.expect ∧ s.ringJoined = true ∧ s.on
      Fld.RING_STAT_DUP = false ∧ s.domOn .ring = true ∧ s.rportUp 0 = true ∧ (s.getRport 0).bulk.length < 64) ∧
    (∃ (a : Admitted) (rest : List Admitted) (num : Nat) (kind : Nat) (sseq : Nat) (ack : Nat) (data : List Byte) (u : State) (s : State)
      (x : _), u = s.took rest ∧ (s.calm ∧ s.ring.inbox = a :: rest ∧ a.frame.msg = .service num kind sseq ack data ∧ 2 ≤ s.ringVersion ∧
      s.findTunnel a.frame.src num = some x ∧ s.loaderRuns = true ∧ kind = 0) ∧ sseq ≠ x.expect ∧ (sseq + 1) % 65536 = x.expect) ∧
    (∃ (a : Admitted) (rest : List Admitted) (num : Nat) (kind : Nat) (sseq : Nat) (ack : Nat) (data : List Byte) (u : State) (s : State)
      (x : _), u = s.took rest ∧ (s.calm ∧ s.ring.inbox = a :: rest ∧ a.frame.msg = .service num kind sseq ack data ∧ 2 ≤ s.ringVersion ∧
      s.findTunnel a.frame.src num = some x ∧ s.loaderRuns = true ∧ kind = 0) ∧ sseq ≠ x.expect ∧ (sseq + 1) % 65536 ≠ x.expect) ∧
    (∃ (a : Admitted) (rest : List Admitted) (num : Nat) (kind : Nat) (sseq : Nat) (ack : Nat) (data : List Byte) (u : State) (s : State)
      (x : _), u = s.took rest ∧ s.calm ∧ s.ring.inbox = a :: rest ∧ a.frame.msg = .service num kind sseq ack data ∧ 2 ≤ s.ringVersion ∧
      s.findTunnel a.frame.src num = some x ∧ kind = 1 ∧ x.waiting = []) ∧
    (∃ (st : Fin 64) (num : Byte) (s : State) (x : _) (y : _) (l : _), s.calm ∧ s.findTunnel st num.toNat = some x ∧ x.unacked = y :: l ∧
      y.sent + 80000000 ≤ s.tb.toNat ∧ y.repeats < 8) ∧
    (∃ (st : Fin 64) (num : Byte) (s : State) (x : _) (y : _) (l : _), s.calm ∧ s.findTunnel st num.toNat = some x ∧ x.unacked = y :: l ∧
      y.sent + 80000000 ≤ s.tb.toNat ∧ 8 ≤ y.repeats) ∧
    (∃ (st : Fin 64) (num : Byte) (s : State), s.calm ∧ (s.findTunnel st num.toNat).all (fun x => x.unacked.head?.all (fun y => decide
      (s.tb.toNat < y.sent + 80000000))) = true) :=
  ⟨⟨.service, 3, 0x80070040, ((.mgmt 1 0 64 0 0 [])), s355, reaches_of (by decide +kernel), by unfold State.calm; decide +kernel⟩,
   ⟨.service, 3, 0x80070000, ((.mgmt 1 0 0 0 0 [])), s291, 5, reaches_of (by decide +kernel), by unfold State.calm; decide +kernel⟩,
   ⟨.service, 3, 0x80070040, ((.mgmt 1 0 64 0 0 [])), s356, 0, reaches_of (by decide +kernel), by unfold State.calm; decide +kernel,
      by decide +kernel⟩,
   ⟨.service, 3, 0x80050040, ((.mgmt 1 0 64 0 0 [])), s291, 0, reaches_of (by decide +kernel), by unfold State.calm; decide +kernel⟩,
   ⟨.service, 3, 0x80050040, ((.mgmt 1 0 64 0 0 [])), s306, 0, reaches_of (by decide +kernel), by unfold State.calm; decide +kernel⟩,
   ⟨((⟨1, 9000, ({ ver := 1, west := false, uncorr := false, unsync := false, rest := 0, hops := 9, src := 7, dst := 0xFF, seq := 3, joinId := 44, msg := .mgmt 0x81 6 2 1 0x4E00100 [1, 2] }
      : RingFrame)⟩ : Admitted)), [], 0x81, 6, 2, 1, 0x4E00100, [1, 2], s357, s358, 3, rfl, by unfold State.calm; decide +kernel⟩,
   ⟨((⟨1, 9000, ({ ver := 1, west := false, uncorr := false, unsync := false, rest := 0, hops := 9, src := 7, dst := 0xFF, seq := 3, joinId := 44, msg := .mgmt 0xFF 6 2 1 0x4E00100 [1, 2] }
      : RingFrame)⟩ : Admitted)), [], 0xFF, 6, 2, 1, 0x4E00100, [1, 2], s359, s360, 3, rfl, by unfold State.calm; decide +kernel⟩,
   ⟨((⟨1, 9000, ({ ver := 1, west := false, uncorr := false, unsync := false, rest := 0, hops := 9, src := 7, dst := 0xFF, seq := 3, joinId := 44, msg := .mgmt 0x81 6 2 1 0x4E00100 [1, 2] }
      : RingFrame)⟩ : Admitted)), [], 0x81, 6, 2, 1, 0x4E00100, [1, 2], s361, s362, rfl, by unfold State.calm; decide +kernel⟩,
   ⟨((⟨1, 9000, ({ ver := 1, west := false, uncorr := false, unsync := false, rest := 0, hops := 9, src := 7, dst := 0xFF, seq := 3, joinId := 44, msg := .mgmt 1 6 0 1 0x4E00100 [1, 2] }
      : RingFrame)⟩ : Admitted)), [], 1, 6, 0, 1, 0x4E00100, [1, 2], s363, s364, rfl, by unfold State.calm; decide +kernel⟩,
   ⟨((⟨1, 9000, ({ ver := 1, west := false, uncorr := false, unsync := false, rest := 0, hops := 9, src := 7, dst := 0xFF, seq := 3, joinId := 44, msg := .mgmt 1 6 2 1 0x4E00100 [1, 2] }
      : RingFrame)⟩ : Admitted)), [], 1, 6, 2, 1, 0x4E00100, [1, 2], s365, s366, rfl, by unfold State.calm; decide +kernel⟩,
   ⟨((⟨1, 9000, ({ ver := 1, west := false, uncorr := false, unsync := false, rest := 0, hops := 9, src := 7, dst := 0xFF, seq := 3, joinId := 44, msg := .mgmt 2 6 2 1 0x4E00100 [1, 2] }
      : RingFrame)⟩ : Admitted)), [], 2, 6, 2, 1, 0x4E00100, [1, 2], s367, s368, rfl, by unfold State.calm; decide +kernel⟩,
   ⟨((⟨1, 9000, ({ ver := 1, west := false, uncorr := false, unsync := false, rest := 0, hops := 9, src := 7, dst := 0xFF, seq := 3, joinId := 44, msg := .mgmt 3 6 2 1 0x4E00100 [1, 2] }
      : RingFrame)⟩ : Admitted)), [], 3, 6, 2, 1, 0x4E00100, [1, 2], s369, s370, rfl, by unfold State.calm; decide +kernel⟩,
   ⟨3, s371, ((7, 6, 0)), by unfold State.calm; decide +kernel⟩,
   ⟨3, s372, by unfold State.calm; decide +kernel⟩,
   ⟨((⟨1, 9000, ({ ver := 1, west := false, uncorr := false, unsync := false, rest := 0, hops := 9, src := 7, dst := 0xFF, seq := 3, joinId := 44, msg := .service 2 0 5 0 [9, 8] }
      : RingFrame)⟩ : Admitted)), [], 2, 0, 5, 0, [9, 8], s373, s374, rfl, by unfold State.calm; decide +kernel⟩,
   ⟨((⟨1, 9000, ({ ver := 1, west := false, uncorr := false, unsync := false, rest := 0, hops := 9, src := 7, dst := 0xFF, seq := 3, joinId := 44, msg := .service 2 3 5 0 [9, 8] }
      : RingFrame)⟩ : Admitted)), [], 2, 3, 5, 0, [9, 8], s375, s376, rfl, by unfold State.calm; decide +kernel⟩,
   ⟨((⟨1, 9000, ({ ver := 1, west := false, uncorr := false, unsync := false, rest := 0, hops := 9, src := 7, dst := 0xFF, seq := 3, joinId := 44, msg := .service 2 2 5 0 [9, 8] }
      : RingFrame)⟩ : Admitted)), [], 2, 2, 5, 0, [9, 8], s377, s378, rfl, by unfold State.calm; decide +kernel⟩,
   ⟨((⟨1, 9000, ({ ver := 1, west := false, uncorr := false, unsync := false, rest := 0, hops := 9, src := 7, dst := 0xFF, seq := 3, joinId := 44, msg := .service 2 2 5 0 [9, 8] }
      : RingFrame)⟩ : Admitted)), [], 2, 2, 5, 0, [9, 8], s379, s380, ((⟨7, 2, 0, 5, [], [], [1]⟩ : TunnelSession)), rfl,
      by unfold State.calm; decide +kernel⟩,
   ⟨((⟨1, 9000, ({ ver := 1, west := false, uncorr := false, unsync := false, rest := 0, hops := 9, src := 7, dst := 0xFF, seq := 3, joinId := 44, msg := .service 2 0 5 0 [9, 8] }
      : RingFrame)⟩ : Admitted)), [], 2, 0, 5, 0, [9, 8], s381, s382, ((⟨7, 2, 0, 5, [], [], [1]⟩ : TunnelSession)), rfl,
      by unfold State.calm; decide +kernel, by decide +kernel⟩,
   ⟨((⟨1, 9000, ({ ver := 1, west := false, uncorr := false, unsync := false, rest := 0, hops := 9, src := 7, dst := 0xFF, seq := 3, joinId := 44, msg := .service 2 0 4 0 [9, 8] }
      : RingFrame)⟩ : Admitted)), [], 2, 0, 4, 0, [9, 8], s383, s384, ((⟨7, 2, 0, 5, [], [], [1]⟩ : TunnelSession)), rfl,
      by unfold State.calm; decide +kernel, by decide +kernel⟩,
   ⟨((⟨1, 9000, ({ ver := 1, west := false, uncorr := false, unsync := false, rest := 0, hops := 9, src := 7, dst := 0xFF, seq := 3, joinId := 44, msg := .service 2 0 9 0 [9, 8] }
      : RingFrame)⟩ : Admitted)), [], 2, 0, 9, 0, [9, 8], s385, s386, ((⟨7, 2, 0, 5, [], [], [1]⟩ : TunnelSession)), rfl,
      by unfold State.calm; decide +kernel, by decide +kernel⟩,
   ⟨((⟨1, 9000, ({ ver := 1, west := false, uncorr := false, unsync := false, rest := 0, hops := 9, src := 7, dst := 0xFF, seq := 3, joinId := 44, msg := .service 2 1 5 3 [9, 8] }
      : RingFrame)⟩ : Admitted)), [], 2, 1, 5, 3, [9, 8], s387, s388, ((⟨7, 2, 0, 5, [⟨3, [1], 0, 0⟩, ⟨4, [1], 0, 0⟩], [], [1]⟩ :
      TunnelSession)), rfl, by unfold State.calm; decide +kernel⟩,
   ⟨63, 2, s389, ((⟨63, 2, 5, 5, [(⟨4, [1], 7, 0⟩ : Segment)], [], [1]⟩ : TunnelSession)), ((⟨4, [1], 7, 0⟩ : Segment)), [],
      by unfold State.calm; decide +kernel⟩,
   ⟨63, 2, s390, ((⟨63, 2, 5, 5, [(⟨4, [1], 8, 0⟩ : Segment)], [], [1]⟩ : TunnelSession)), ((⟨4, [1], 8, 0⟩ : Segment)), [],
      by unfold State.calm; decide +kernel⟩,
   ⟨63, 2, s291, by unfold State.calm; decide +kernel⟩⟩

theorem witness_Moves :
    (∃ (e : _) (s : State) (d : Desc), e ∈ [(Instr.movePosition, 0), (.moveGear, 1), (.moveSoftstop, 2)] ∧ s.calm ∧ s.commanded 0x31 d ∧
      (d.fld 2 9 8 = e.2 ∨ d.fld 2 9 8 = 3) ∧ (s.moveRefusal d ≠ none ∨ s.mpMay 3 = false)) ∧
    (∃ (e : _) (s : State), e ∈ [(Instr.movePosition, 0), (.moveGear, 1), (.moveSoftstop, 2)] ∧ s.calm ∧ (s.nextCommand 0x31).all (fun d =>
      decide (d.fld 2 9 8 ≠ e.2) && decide (d.fld 2 9 8 ≠ 3)) = true) ∧
    (∃ (d : Desc) (s : State), s.moves d 0 ∧ d.fld 2 13 13 = 0 ∧ s.anyFroze (moveAxes d) = true) ∧
    (∃ (d : Desc) (a : Nat) (g : Int) (s : State), s.moves d 0 ∧ moveAxes d = [a] ∧ d.fld 2 13 13 = 0 ∧ (s.getAxis a).froze = false ∧ g =
      s.targetOf a (decide (d.fld 2 14 14 = 1)) (signedOf 32 (dwAt d.dw (3 + a)).toNat) ∧ s.stands a = true ∧ g ≠ (s.getAxis a).xact) ∧
    (∃ (d : Desc) (a : Nat) (g : Int) (s : State), s.moves d 0 ∧ moveAxes d = [a] ∧ d.fld 2 13 13 = 0 ∧ (s.getAxis a).froze = false ∧ g =
      s.targetOf a (decide (d.fld 2 14 14 = 1)) (signedOf 32 (dwAt d.dw (3 + a)).toNat) ∧ s.stands a = true ∧ g = (s.getAxis a).xact) ∧
    (∃ (d : Desc) (a : Nat) (g : Int) (s : State), s.moves d 0 ∧ moveAxes d = [a] ∧ d.fld 2 13 13 = 0 ∧ (s.getAxis a).froze = false ∧ g =
      s.targetOf a (decide (d.fld 2 14 14 = 1)) (signedOf 32 (dwAt d.dw (3 + a)).toNat) ∧ s.axState a = 3 ∧ ((s.getAxis a).run = true ∨ g *
      65536 ≠ (s.getAxis a).x)) ∧
    (∃ (d : Desc) (a : Nat) (g : Int) (s : State), (s.moves d 0 ∧ moveAxes d = [a] ∧ d.fld 2 13 13 = 0 ∧ (s.getAxis a).froze = false ∧ g =
      s.targetOf a (decide (d.fld 2 14 14 = 1)) (signedOf 32 (dwAt d.dw (3 + a)).toNat) ∧ s.axState a = 3 ∧ (s.getAxis a).run = false) ∧ g
      * 65536 = (s.getAxis a).x) ∧
    (∃ (d : Desc) (a : Nat) (g : Int) (s : State), s.moves d 0 ∧ moveAxes d = [a] ∧ d.fld 2 13 13 = 0 ∧ (s.getAxis a).froze = false ∧ g =
      s.targetOf a (decide (d.fld 2 14 14 = 1)) (signedOf 32 (dwAt d.dw (3 + a)).toNat) ∧ s.axState a = 4) ∧
    (∃ (d : Desc) (l : List Nat) (s : State), s.moves d 0 ∧ l = moveAxes d ∧ 2 ≤ l.length ∧ d.fld 2 13 13 = 0 ∧ s.anyFroze l = false ∧ (∃ a
      ∈ l, s.targetOf a (decide (d.fld 2 14 14 = 1)) (signedOf 32 (dwAt d.dw (3 + a)).toNat) ≠ (s.getAxis a).xact)) ∧
    (∃ (d : Desc) (l : List Nat) (s : State), s.moves d 0 ∧ l = moveAxes d ∧ 2 ≤ l.length ∧ d.fld 2 13 13 = 0 ∧ s.anyFroze l = false ∧ (∀ a
      ∈ l, s.targetOf a (decide (d.fld 2 14 14 = 1)) (signedOf 32 (dwAt d.dw (3 + a)).toNat) = (s.getAxis a).xact)) ∧
    (∃ (d : Desc) (s : State), s.moves d 0 ∧ d.fld 2 13 13 = 1) ∧
    (∃ (d : Desc) (a : Nat) (s : State), s.moves d 1 ∧ moveAxes d = [a] ∧ (s.getAxis a).froze = true) ∧
    (∃ (d : Desc) (a : Nat) (s : State), s.moves d 1 ∧ moveAxes d = [a] ∧ (s.getAxis a).froze = false) ∧
    (∃ (d : Desc) (a : Nat) (s : State), s.moves d 1 ∧ moveAxes d = [a] ∧ (s.getAxis a).froze = false ∧ s.stands a = false) ∧
    (∃ (d : Desc) (a : Nat) (s : State), s.moves d 2 ∧ moveAxes d = [a] ∧ (s.getAxis a).took = false ∧ (s.axState a = 3 ∧ (s.getAxis
      a).group = none ∨ s.axState a = 5) ∧ (s.getAxis a).run = true) ∧
    (∃ (d : Desc) (a : Nat) (s : State), s.moves d 2 ∧ moveAxes d = [a] ∧ (s.getAxis a).took = false ∧ (s.axState a = 3 ∧ (s.getAxis
      a).group = none ∨ s.axState a = 5) ∧ (s.getAxis a).run = false) ∧
    (∃ (d : Desc) (a : Nat) (s : State) (g : _), s.moves d 2 ∧ moveAxes d = [a] ∧ (s.getAxis a).took = false ∧ s.axState a = 3 ∧ (s.getAxis
      a).group = some g ∧ (s.getAxis g.1).run = true) ∧
    (∃ (d : Desc) (a : Nat) (s : State), s.moves d 2 ∧ moveAxes d = [a] ∧ (s.getAxis a).took = false ∧ s.axState a = 4) ∧
    (∃ (d : Desc) (a : Nat) (s : State), s.moves d 2 ∧ moveAxes d = [a] ∧ s.axState a ∉ [3, 4, 5]) ∧
    (∃ (d : Desc) (a : Nat) (s : State), s.moves d 2 ∧ moveAxes d = [a] ∧ (s.getAxis a).took = true ∧ d.fld 2 12 12 = 0) ∧
    (∃ (d : Desc) (s : State), s.commanded 0x32 d ∧ (s.homeRefusal d ≠ none ∨ s.mpMay 3 = false)) ∧
    (∃ (d : Desc) (s : State), s.commanded 0x32 d ∧ s.homeRefusal d = none ∧ s.mpMay 3 = true ∧ (s.getAxis (d.fld 2 2 0)).froze = true) ∧
    (∃ (d : Desc) (s : State), s.commanded 0x32 d ∧ s.homeRefusal d = none ∧ s.mpMay 3 = true ∧ (s.getAxis (d.fld 2 2 0)).froze = false) ∧
    (∃ (s : State), s.calm ∧ s.nextCommand 0x32 = none) ∧
    (∃ (src : HostRead) (c : MpCmd) (s : State), s.carries 0x30 c ∧ c.desc.reservedSet (commandLayout [7, 0x10000, 0xFFFFFFFC, 0xFFFFFFFF])
      = true) ∧
    (∃ (src : HostRead) (c : MpCmd) (x : Fed) (a : Nat) (s : State) (v : State), s.carries 0x30 c ∧ c.desc.reservedSet (commandLayout [7,
      0x10000, 0xFFFFFFFC, 0xFFFFFFFF]) = false ∧ a = c.desc.fld 2 2 0 ∧ s.feed (bitOf (dwAt c.desc.dw 3) 16) (c.desc.wide 4) 64 c.fed src
      = (x, v) ∧ v.cqRoom ∧ v.host.cqQueue = s.host.cqQueue ∧ x.state = .failed) ∧
    (∃ (src : HostRead) (c : MpCmd) (x : Fed) (a : Nat) (s : State) (v : State), s.carries 0x30 c ∧ c.desc.reservedSet (commandLayout [7,
      0x10000, 0xFFFFFFFC, 0xFFFFFFFF]) = false ∧ a = c.desc.fld 2 2 0 ∧ s.feed (bitOf (dwAt c.desc.dw 3) 16) (c.desc.wide 4) 64 c.fed src
      = (x, v) ∧ v.cqRoom ∧ v.host.cqQueue = s.host.cqQueue ∧ x.state = .more) ∧
    (∃ (src : HostRead) (c : MpCmd) (x : Fed) (a : Nat) (s : State) (v : State) (r : _), (s.carries 0x30 c ∧ c.desc.reservedSet
      (commandLayout [7, 0x10000, 0xFFFFFFFC, 0xFFFFFFFF]) = false ∧ a = c.desc.fld 2 2 0 ∧ s.feed (bitOf (dwAt c.desc.dw 3) 16)
      (c.desc.wide 4) 64 c.fed src = (x, v) ∧ v.cqRoom ∧ v.host.cqQueue = s.host.cqQueue ∧ x.state = .whole) ∧ (r = (if (imageProfile
      x.bytes).valid = false then (0x10, 2) else if v.domOn .motion = false ∨ v.on Fld.TIL_STAT_SEQ_OK = false then (0x12, 0x10) else if
      v.mpMay 3 = false then (0x12, 0) else (0, 0))) ∧ r.1 ≠ 0) ∧
    (∃ (src : HostRead) (c : MpCmd) (x : Fed) (a : Nat) (s : State) (v : State), (s.carries 0x30 c ∧ c.desc.reservedSet (commandLayout [7,
      0x10000, 0xFFFFFFFC, 0xFFFFFFFF]) = false ∧ a = c.desc.fld 2 2 0 ∧ s.feed (bitOf (dwAt c.desc.dw 3) 16) (c.desc.wide 4) 64 c.fed src
      = (x, v) ∧ v.cqRoom ∧ v.host.cqQueue = s.host.cqQueue ∧ x.state = .whole) ∧ (imageProfile x.bytes).valid = true ∧ v.domOn .motion =
      true ∧ v.on Fld.TIL_STAT_SEQ_OK = true ∧ v.mpMay 3 = true) ∧
    (∃ (src : HostRead) (s : State), s.calm ∧ s.loadCommand 0x30 = none) :=
  ⟨⟨((.movePosition, 0)), s391, ⟨15, [0x80000031, 7, 0x80, 0, 0, 0, 0, 0, 0, 0, 500, 0, 0, 0, 0, 0]⟩,
      by unfold State.commanded State.calm State.cqRoom; decide +kernel⟩,
   ⟨((.moveGear, 1)), s392, by unfold State.calm; decide +kernel⟩,
   ⟨⟨15, [0x80000031, 7, 0x80, 0, 0, 0, 0, 0, 0, 0, 500, 0, 0, 0, 0, 0]⟩, s393,
      by unfold State.moves State.commanded State.calm State.cqRoom; decide +kernel⟩,
   ⟨⟨15, [0x80000031, 7, 0x80, 0, 0, 0, 0, 0, 0, 0, 500, 0, 0, 0, 0, 0]⟩, 7, 500, s392,
      by unfold State.moves State.commanded State.calm State.cqRoom; decide +kernel⟩,
   ⟨⟨15, [0x80000031, 7, 0x80, 0, 0, 0, 0, 0, 0, 0, 0, 0, 0, 0, 0, 0]⟩, 7, 0, s394,
      by unfold State.moves State.commanded State.calm State.cqRoom; decide +kernel⟩,
   ⟨⟨15, [0x80000031, 7, 0x80, 0, 0, 0, 0, 0, 0, 0, 2, 0, 0, 0, 0, 0]⟩, 7, 2, s395,
      by unfold State.moves State.commanded State.calm State.cqRoom; decide +kernel⟩,
   ⟨⟨15, [0x80000031, 7, 0x80, 0, 0, 0, 0, 0, 0, 0, 0, 0, 0, 0, 0, 0]⟩, 7, 0, s396,
      by unfold State.moves State.commanded State.calm State.cqRoom; decide +kernel, by decide +kernel⟩,
   ⟨⟨15, [0x80000031, 7, 0x80, 0, 0, 0, 0, 0, 0, 0, 500, 0, 0, 0, 0, 0]⟩, 7, 500, s397,
      by unfold State.moves State.commanded State.calm State.cqRoom; decide +kernel⟩,
   ⟨⟨15, [0x80000031, 7, 0x40C0, 0, 0, 0, 0, 0, 0, 0xFFFFFF00, 500, 0, 0, 0, 0, 0]⟩, [6, 7], s398,
      by unfold State.moves State.commanded State.calm State.cqRoom; decide +kernel⟩,
   ⟨⟨15, [0x80000031, 7, 0x40C0, 0, 0, 0, 0, 0, 0, 0, 0, 0, 0, 0, 0, 0]⟩, [6, 7], s399,
      by unfold State.moves State.commanded State.calm State.cqRoom; decide +kernel⟩,
   ⟨⟨15, [0x80000031, 7, 0x2080, 0, 0, 0, 0, 0, 0, 0, 500, 0, 0, 0, 0, 0x8000]⟩, s400,
      by unfold State.moves State.commanded State.calm State.cqRoom; decide +kernel⟩,
   ⟨⟨15, [0x80000031, 7, 0x180, 0, 0, 0, 0, 0, 0, 0, 0, 15, 0x10000, 0x20000, 5, 0]⟩, 7, s401,
      by unfold State.moves State.commanded State.calm State.cqRoom; decide +kernel⟩,
   ⟨⟨15, [0x80000031, 7, 0x180, 0, 0, 0, 0, 0, 0, 0, 0, 15, 0x10000, 0x20000, 5, 0]⟩, 7, s402,
      by unfold State.moves State.commanded State.calm State.cqRoom; decide +kernel⟩,
   ⟨⟨15, [0x80000031, 7, 0x180, 0, 0, 0, 0, 0, 0, 0, 0, 15, 0x10000, 0x20000, 5, 0]⟩, 7, s403,
      by unfold State.moves State.commanded State.calm State.cqRoom; decide +kernel⟩,
   ⟨⟨15, [0x80000031, 7, 0x280, 0, 0, 0, 0, 0, 0, 0, 0, 0, 0, 0, 0, 0]⟩, 7, s404,
      by unfold State.moves State.commanded State.calm State.cqRoom; decide +kernel⟩,
   ⟨⟨15, [0x80000031, 7, 0x280, 0, 0, 0, 0, 0, 0, 0, 0, 0, 0, 0, 0, 0]⟩, 7, s405,
      by unfold State.moves State.commanded State.calm State.cqRoom; decide +kernel⟩,
   ⟨⟨15, [0x80000031, 7, 0x280, 0, 0, 0, 0, 0, 0, 0, 0, 0, 0, 0, 0, 0]⟩, 7, s406, ((6, 0, 65536 * 100)),
      by unfold State.moves State.commanded State.calm State.cqRoom; decide +kernel⟩,
   ⟨⟨15, [0x80000031, 7, 0x280, 0, 0, 0, 0, 0, 0, 0, 0, 0, 0, 0, 0, 0]⟩, 7, s407,
      by unfold State.moves State.commanded State.calm State.cqRoom; decide +kernel⟩,
   ⟨⟨15, [0x80000031, 7, 0x280, 0, 0, 0, 0, 0, 0, 0, 0, 0, 0, 0, 0, 0]⟩, 7, s408,
      by unfold State.moves State.commanded State.calm State.cqRoom; decide +kernel⟩,
   ⟨⟨15, [0x80000031, 7, 0x280, 0, 0, 0, 0, 0, 0, 0, 0, 0, 0, 0, 0, 0]⟩, 7, s409,
      by unfold State.moves State.commanded State.calm State.cqRoom; decide +kernel⟩,
   ⟨⟨15, [0x80000032, 7, 0x107, 0, 0xFFFFFF00, 9, 1000, 0, 0, 0, 0, 0, 0, 0, 0, 0]⟩, s410,
      by unfold State.commanded State.calm State.cqRoom; decide +kernel⟩,
   ⟨⟨15, [0x80000032, 7, 0x107, 500, 0xFFFFFF00, 9, 1000, 0, 0, 0, 0, 0, 0, 0, 0, 0]⟩, s411,
      by unfold State.commanded State.calm State.cqRoom; decide +kernel⟩,
   ⟨⟨15, [0x80000032, 7, 0x107, 500, 0xFFFFFF00, 9, 1000, 0, 0, 0, 0, 0, 0, 0, 0, 0]⟩, s412,
      by unfold State.commanded State.calm State.cqRoom; decide +kernel⟩,
   ⟨on, by unfold State.calm; decide +kernel⟩,
   ⟨⟨[1], true⟩, ⟨⟨15, [0x80000030, 7, 0xF, 0, 0x1000, 0]⟩, 0, [], [], none⟩, s413,
      by unfold State.carries State.calm State.cqRoom; decide +kernel⟩,
   ⟨⟨[1], true⟩, ⟨⟨15, [0x80000030, 7, 7, 0, 0x1000, 0]⟩, 0, [], [], none⟩, ((b103.feed false 0x1000 64 [] ⟨[1], true⟩).1), 7, s414, s415,
      by unfold State.carries State.calm State.cqRoom; decide +kernel⟩,
   ⟨⟨[1, 2], false⟩, ⟨⟨15, [0x80000030, 7, 7, 0, 0x1000, 0]⟩, 0, [], [], none⟩, ((b103.feed false 0x1000 64 [] ⟨[1, 2], false⟩).1), 7,
      s414, s416, by unfold State.carries State.calm State.cqRoom; decide +kernel⟩,
   ⟨⟨List.replicate 64 0, false⟩, ⟨⟨15, [0x80000030, 7, 7, 0, 0x1000, 0]⟩, 0, [], [], none⟩, ((b103.feed false 0x1000 64 [] ⟨List.replicate
      64 0, false⟩).1), 7, s414, s417, ((0x10, 2)), by unfold State.carries State.calm State.cqRoom; decide +kernel, by decide +kernel⟩,
   ⟨⟨(([0, 0, 0, 0, 0, 0, 100, 5, 0, 9, 9, 0, 0, 0, 0, 0].flatMap (fun b => [b, 0, 0, 0])).set 3 0), false⟩, ⟨⟨15, [0x80000030, 7, 7, 0,
      0x1000, 0]⟩, 0, [], [], none⟩, ((b103.feed false 0x1000 64 [] ⟨(([0, 0, 0, 0, 0, 0, 100, 5, 0, 9, 9, 0, 0, 0, 0, 0].flatMap (fun b =>
      [b, 0, 0, 0])).set 3 0), false⟩).1), 7, s414, s418, by unfold State.carries State.calm State.cqRoom; decide +kernel,
      by decide +kernel⟩,
   ⟨⟨[1], true⟩, on, by unfold State.calm; decide +kernel⟩⟩

theorem witness_AxisUpdates :
    (∃ (a : Fin 8) (y : Axis) (b : Bool) (w : Option Bool) (s : State), s.alone a ∧ (s.getAxis a).advance = (y, b, w) ∧ y.v < 2 ^ 31 ∧
      (s.axState a = 5 ∨ (s.axState a = 3 ∧ (s.getAxis a).group.all (fun g => decide (g.1 = a.val)) = true)) ∧ w = none ∧ y.group = none) ∧
    (∃ (a : Fin 8) (y : Axis) (b : Bool) (w : Option Bool) (s : State) (e : _), (s.alone a ∧ (s.getAxis a).advance = (y, b, w) ∧ y.v < 2 ^
      31 ∧ (s.axState a = 5 ∨ (s.axState a = 3 ∧ (s.getAxis a).group.all (fun g => decide (g.1 = a.val)) = true)) ∧ w = some e ∧ s.axState
      a = 3 ∧ y.home = none) ∧ y.group = none) ∧
    (∃ (a : Fin 8) (y : Axis) (b : Bool) (w : Option Bool) (s : State) (e : _) (h : _), (s.alone a ∧ (s.getAxis a).advance = (y, b, w) ∧
      y.v < 2 ^ 31 ∧ (s.axState a = 5 ∨ (s.axState a = 3 ∧ (s.getAxis a).group.all (fun g => decide (g.1 = a.val)) = true)) ∧ w = some e ∧
      s.axState a = 5 ∧ y.home = some h) ∧ y.group = none) ∧
    (∃ (a : Fin 8) (b : Fin 8) (y : Axis) (c : Bool) (sl : Int) (dl : Int) (st : Int) (d : Int) (s : State), (s.calm ∧ s.domOn .motion =
      true ∧ s.on Fld.TIL_STAT_SEQ_OK = true ∧ (∀ k < 8, s.rd (Fld.AX_CFG_STALL_MODE k) ≠ 2) ∧ (∀ k < 8, k ≠ a.val → k ≠ b.val → s.axState
      k ∉ [3, 4, 5]) ∧ a ≠ b ∧ s.axState a = 3) ∧ s.axState b = 3 ∧ (s.getAxis a).group = some (a.val, sl, dl) ∧ (s.getAxis b).group = some
      (a.val, st, d) ∧ (s.getAxis a).advance = (y, c, none)) ∧
    (∃ (a : Fin 8) (g : Gearing) (xn : Int) (e : Int) (s : State), (s.alone a ∧ s.axState a = 4 ∧ (s.getAxis a).gear = some g ∧ (g.second =
      true ∨ g.side = 0 ∨ signInt (diff32 (s.encCount g.master) g.mpos) = g.side) ∧ xn = g.x0 + (if g.second then g.r2 else g.r1) * diff32
      (s.encCount g.master) g.m0 ∧ e = signedOf 48 (patternOf 48 (xn - (s.getAxis a).x)) ∧ e.natAbs * 256 ≤ (s.getAxis a).prof.cruise) ∧
      e.natAbs < 2 ^ 22) ∧
    (∃ (a : Fin 8) (g : Gearing) (xn : Int) (e : Int) (s : State), (s.alone a ∧ s.axState a = 4 ∧ (s.getAxis a).gear = some g ∧ (g.second =
      true ∨ g.side = 0 ∨ signInt (diff32 (s.encCount g.master) g.mpos) = g.side) ∧ xn = g.x0 + (if g.second then g.r2 else g.r1) * diff32
      (s.encCount g.master) g.m0 ∧ e = signedOf 48 (patternOf 48 (xn - (s.getAxis a).x)) ∧ (s.getAxis a).prof.cruise < e.natAbs * 256) ∧
      (s.getAxis a).froze = false) ∧
    (∃ (a : Fin 8) (g : Gearing) (s : State), (s.alone a ∧ s.axState a = 4 ∧ (s.getAxis a).gear = some g ∧ g.second = false ∧ g.side ≠ 0 ∧
      signInt (diff32 (s.encCount g.master) g.mpos) ≠ g.side ∧ (s.getAxis a).froze = false) ∧ (s.getAxis a).prof.cruise < 2 ^ 31) ∧
    (∃ (a : Fin 8) (s : State), (s.calm ∧ s.domOn .motion = true ∧ s.on Fld.TIL_STAT_SEQ_OK = true ∧ (∀ c < 8, s.axState c ∉ [3, 4, 5]) ∧
      (∀ c < 8, c ≠ a.val → s.rd (Fld.AX_CFG_STALL_MODE c) ≠ 2) ∧ s.rd (Fld.AX_CFG_STALL_MODE a) = 2 ∧ s.axState a ≠ 0) ∧ (s.getAxis
      a).home = none ∧ (s.getAxis a).group = none ∧ ((s.devOf a).natAbs ≤ max 1 (s.rd (Fld.AX_STALL_WINDOW a)) ∨ (s.getAxis a).strayed =
      true)) ∧
    (∃ (a : Fin 8) (s : State), (s.calm ∧ s.domOn .motion = true ∧ s.on Fld.TIL_STAT_SEQ_OK = true ∧ (∀ c < 8, s.axState c ∉ [3, 4, 5]) ∧
      (∀ c < 8, c ≠ a.val → s.rd (Fld.AX_CFG_STALL_MODE c) ≠ 2) ∧ s.rd (Fld.AX_CFG_STALL_MODE a) = 2 ∧ s.axState a ≠ 0) ∧ (s.getAxis
      a).home = none ∧ (s.getAxis a).group = none ∧ max 1 (s.rd (Fld.AX_STALL_WINDOW a)) < (s.devOf a).natAbs ∧ (s.getAxis a).strayed =
      false ∧ s.on (Fld.AX_CFG_STALL_STOP a) = true) ∧
    (∃ (s : State), s.calm ∧ (s.domOn .motion = false ∨ s.on Fld.TIL_STAT_SEQ_OK = false)) ∧
    (∃ (m : Master) (a : Fin 8) (v : Word) (s : State), s.reaches (Reg.AX_CTL a) ∧ s.calm ∧ (s.axState a = 0 ∨ (s.getAxis a).froze = true)
      ∧ (s.getAxis a).group = none) ∧
    (∃ (m : Master) (a : Fin 8) (v : Word) (s : State) (b : Fin 8), s.reaches (Reg.AX_CTL a) ∧ s.calm ∧ b.val ∈ s.together a ∧ s.axState b
      ≠ 0 ∧ (s.getAxis b).froze = false) ∧
    (∃ (m : Master) (a : Fin 8) (v : Word) (s : State) (b : Fin 8), s.reaches (Reg.AX_CTL a) ∧ s.calm ∧ b.val ∉ s.together a) ∧
    (∃ (m : Master) (v : Word) (a : Fin 8) (s : State), s.reaches Reg.TIL_CTL ∧ s.calm ∧ s.axState a ≠ 0 ∧ (s.getAxis a).froze = false) ∧
    (∃ (m : Master) (v : Word) (a : Fin 8) (s : State), s.reaches Reg.TIL_CTL ∧ s.calm ∧ (s.axState a = 0 ∨ (s.getAxis a).froze = true)) ∧
    (∃ (m : Master) (a : Fin 8) (v : Word) (s : State), s.reaches (Reg.AX_CTL a) ∧ s.calm ∧ bitOf v 31 = true) ∧
    (∃ (m : Master) (a : Fin 8) (v : Word) (s : State), s.reaches (Reg.AX_CTL a) ∧ s.calm ∧ bitOf v 31 = false ∧ bitOf v 29 = true) ∧
    (∃ (m : Master) (a : Fin 8) (v : Word) (s : State), s.reaches (Reg.AX_CTL a) ∧ s.calm ∧ bitOf v 31 = false ∧ bitOf v 29 = false ∧
      ((s.getAxis a).took = true ∨ s.axState a ∉ [3, 4, 5])) ∧
    (∃ (m : Master) (a : Fin 8) (v : Word) (s : State), s.reaches (Reg.AX_CTL a) ∧ s.calm ∧ bitOf v 31 = false ∧ bitOf v 29 = false ∧
      (s.getAxis a).took = false ∧ (s.axState a = 3 ∧ (s.getAxis a).group = none ∨ s.axState a = 5) ∧ (s.getAxis a).run = true) ∧
    (∃ (m : Master) (a : Fin 8) (v : Word) (s : State), s.reaches (Reg.AX_CTL a) ∧ s.calm ∧ bitOf v 31 = false ∧ bitOf v 29 = false ∧
      (s.getAxis a).took = false ∧ (s.axState a = 3 ∧ (s.getAxis a).group = none ∨ s.axState a = 5) ∧ (s.getAxis a).run = false) ∧
    (∃ (m : Master) (a : Fin 8) (v : Word) (s : State) (g : _), s.reaches (Reg.AX_CTL a) ∧ s.calm ∧ bitOf v 31 = false ∧ bitOf v 29 = false
      ∧ (s.getAxis a).took = false ∧ s.axState a = 3 ∧ (s.getAxis a).group = some g ∧ (s.getAxis g.1).run = true) ∧
    (∃ (m : Master) (a : Fin 8) (v : Word) (s : State), s.reaches (Reg.AX_CTL a) ∧ s.calm ∧ bitOf v 31 = false ∧ bitOf v 29 = false ∧
      (s.getAxis a).took = false ∧ s.axState a = 4) ∧
    (∃ (a : Fin 8) (coilB : Bool) (how : PhaseEnd) (c : Coil) (b : Bool) (s : State), s.calm ∧ c = (s.getAxis a).coil coilB ∧ (c.bridge ≠
      .drive true ∧ c.bridge ≠ .drive false ∨ s.tb.toNat < c.at_ + s.onTime a how)) ∧
    (∃ (a : Fin 8) (coilB : Bool) (how : PhaseEnd) (c : Coil) (b : Bool) (s : State), s.calm ∧ c = (s.getAxis a).coil coilB ∧ c.bridge =
      .drive b ∧ c.at_ + s.onTime a how ≤ s.tb.toNat ∧ s.coilCounts a coilB = false ∧ c.opens < 64 ∧ c.shorts < 64) ∧
    (∃ (a : Fin 8) (coilB : Bool) (how : PhaseEnd) (c : Coil) (b : Bool) (s : State), s.calm ∧ c = (s.getAxis a).coil coilB ∧ c.bridge =
      .drive b ∧ c.at_ + s.onTime a how ≤ s.tb.toNat ∧ s.coilCounts a coilB = true ∧ (how = .limit → c.opens < 63) ∧ (how = .atMask →
      c.shorts < 63)) ∧
    (∃ (a : Fin 8) (coilB : Bool) (how : PhaseEnd) (c : Coil) (b : Bool) (s : State), (s.calm ∧ c = (s.getAxis a).coil coilB ∧ c.bridge =
      .drive b ∧ c.at_ + s.onTime a how ≤ s.tb.toNat ∧ s.coilCounts a coilB = true ∧ ((how = .limit ∧ c.opens = 63) ∨ (how = .atMask ∧
      c.shorts = 63)) ∧ (s.getAxis a).group = none) ∧ s.axState a ≠ 0) ∧
    (∃ (a : Fin 8) (coilB : Bool) (c : Coil) (s : State), s.calm ∧ c = (s.getAxis a).coil coilB ∧ c.bridge = .coast ∧ c.at_ + s.coast a ≤
      s.tb.toNat) ∧
    (∃ (a : Fin 8) (coilB : Bool) (c : Coil) (s : State), s.calm ∧ c = (s.getAxis a).coil coilB ∧ (c.bridge ≠ .coast ∨ s.tb.toNat < c.at_ +
      s.coast a)) ∧
    (∃ (a : Fin 8) (s : State), s.calm ∧ s.axState a = 1 ∧ (s.getAxis a).stood + s.rd (Fld.AX_CFG_REST_DLY a) * 4000000 ≤ s.tb.toNat) ∧
    (∃ (a : Fin 8) (s : State), s.calm ∧ (s.axState a ≠ 1 ∨ s.tb.toNat < (s.getAxis a).stood + s.rd (Fld.AX_CFG_REST_DLY a) * 4000000)) ∧
    (∃ (a : Fin 8) (coilB : Bool) (e : BitVec 12) (c : Coil) (l : Nat) (s : State), s.calm ∧ c = (s.getAxis a).coil coilB ∧ l = (if s.vact
      a = 0 then (Config.freeWord s.free).toNat % 65536 else min 65535 (roundDiv (e.toInt.natAbs * 2 ^ 56) (s.rd (Fld.AX_BEMFK_BEMF_K a) *
      (s.vact a).natAbs : Nat)).toNat) ∧ (c.sense = false ∨ s.tb.toNat < c.at_ + s.senseTime a)) ∧
    (∃ (a : Fin 8) (coilB : Bool) (e : BitVec 12) (c : Coil) (l : Nat) (s : State), l = (if s.vact a = 0 then (Config.freeWord
      s.free).toNat % 65536 else min 65535 (roundDiv (e.toInt.natAbs * 2 ^ 56) (s.rd (Fld.AX_BEMFK_BEMF_K a) * (s.vact a).natAbs :
      Nat)).toNat) ∧ s.calm ∧ c = (s.getAxis a).coil coilB ∧ c.sense = true ∧ c.at_ + s.senseTime a ≤ s.tb.toNat ∧ s.rd
      (Fld.AX_BEMFK_BEMF_K a) = 0) ∧
    (∃ (a : Fin 8) (coilB : Bool) (e : BitVec 12) (c : Coil) (l : Nat) (s : State), s.calm ∧ c = (s.getAxis a).coil coilB ∧ l = (if s.vact
      a = 0 then (Config.freeWord s.free).toNat % 65536 else min 65535 (roundDiv (e.toInt.natAbs * 2 ^ 56) (s.rd (Fld.AX_BEMFK_BEMF_K a) *
      (s.vact a).natAbs : Nat)).toNat) ∧ c.sense = true ∧ c.at_ + s.senseTime a ≤ s.tb.toNat ∧ s.rd (Fld.AX_BEMFK_BEMF_K a) ≠ 0 ∧ s.bandOf
      a (s.vact a).natAbs = none) ∧
    (∃ (a : Fin 8) (coilB : Bool) (e : BitVec 12) (c : Coil) (l : Nat) (s : State) (k : _), (s.calm ∧ c = (s.getAxis a).coil coilB ∧ l =
      (if s.vact a = 0 then (Config.freeWord s.free).toNat % 65536 else min 65535 (roundDiv (e.toInt.natAbs * 2 ^ 56) (s.rd
      (Fld.AX_BEMFK_BEMF_K a) * (s.vact a).natAbs : Nat)).toNat) ∧ c.sense = true ∧ c.at_ + s.senseTime a ≤ s.tb.toNat ∧ s.rd
      (Fld.AX_BEMFK_BEMF_K a) ≠ 0 ∧ s.bandOf a (s.vact a).natAbs = some k) ∧ s.rd (Fld.AX_BAND_MIN_LOAD_MIN a k) ≤ l) ∧
    (∃ (a : Fin 8) (coilB : Bool) (e : BitVec 12) (c : Coil) (l : Nat) (s : State) (k : _), (s.calm ∧ c = (s.getAxis a).coil coilB ∧ l =
      (if s.vact a = 0 then (Config.freeWord s.free).toNat % 65536 else min 65535 (roundDiv (e.toInt.natAbs * 2 ^ 56) (s.rd
      (Fld.AX_BEMFK_BEMF_K a) * (s.vact a).natAbs : Nat)).toNat) ∧ c.sense = true ∧ c.at_ + s.senseTime a ≤ s.tb.toNat ∧ s.rd
      (Fld.AX_BEMFK_BEMF_K a) ≠ 0 ∧ s.bandOf a (s.vact a).natAbs = some k) ∧ l < s.rd (Fld.AX_BAND_MIN_LOAD_MIN a k) ∧ (s.getAxis a).home =
      none ∧ (s.getAxis a).low + 1 < max 1 (s.rd (Fld.AX_STALL_LOAD_RUN a))) ∧
    (∃ (a : Fin 8) (coilB : Bool) (e : BitVec 12) (c : Coil) (l : Nat) (s : State) (k : _), (s.calm ∧ c = (s.getAxis a).coil coilB ∧ l =
      (if s.vact a = 0 then (Config.freeWord s.free).toNat % 65536 else min 65535 (roundDiv (e.toInt.natAbs * 2 ^ 56) (s.rd
      (Fld.AX_BEMFK_BEMF_K a) * (s.vact a).natAbs : Nat)).toNat) ∧ c.sense = true ∧ c.at_ + s.senseTime a ≤ s.tb.toNat ∧ s.rd
      (Fld.AX_BEMFK_BEMF_K a) ≠ 0 ∧ s.bandOf a (s.vact a).natAbs = some k) ∧ l < s.rd (Fld.AX_BAND_MIN_LOAD_MIN a k) ∧ (s.getAxis a).home =
      none ∧ (s.getAxis a).group = none ∧ max 1 (s.rd (Fld.AX_STALL_LOAD_RUN a)) ≤ (s.getAxis a).low + 1 ∧ s.axState a ≠ 0 ∧ s.on
      (Fld.AX_CFG_STALL_STOP a) = true) :=
  ⟨⟨7, ((b104.getAxis 7).advance.1), ((b104.getAxis 7).advance.2.1), ((b104.getAxis 7).advance.2.2), s419,
      by unfold State.alone State.calm; decide +kernel⟩,
   ⟨7, ((b106.getAxis 7).advance.1), ((b106.getAxis 7).advance.2.1), ((b106.getAxis 7).advance.2.2), s420, true,
      by unfold State.alone State.calm; decide +kernel, by decide +kernel⟩,
   ⟨7, ((b108.getAxis 7).advance.1), ((b108.getAxis 7).advance.2.1), ((b108.getAxis 7).advance.2.2), s421, true, ⟨true, true, 0, 5, 5, 0,
      9⟩, by unfold State.alone State.calm; decide +kernel, by decide +kernel⟩,
   ⟨6, 7, ((b109.getAxis 6).advance.1), ((b109.getAxis 6).advance.2.1), 0, (65536 * 500), 0, (65536 * 100), s422,
      by unfold State.calm; decide +kernel, by decide +kernel⟩,
   ⟨7, ((⟨15, 0, 0, 65536, 131072, 0, 0, true⟩ : Gearing)), 131072, 131072, s423, by unfold State.alone State.calm; decide +kernel,
      by decide +kernel⟩,
   ⟨7, ((⟨15, 0, 0, 65536, 131072, 0, 0, true⟩ : Gearing)), 131072, 131072, s424, by unfold State.alone State.calm; decide +kernel,
      by decide +kernel⟩,
   ⟨7, ((⟨15, 0, 0, 65536, 131072, 0, 1, false⟩ : Gearing)), s425, by unfold State.alone State.calm; decide +kernel, by decide +kernel⟩,
   ⟨7, s426, by unfold State.calm; decide +kernel, by decide +kernel⟩,
   ⟨7, s427, by unfold State.calm; decide +kernel, by decide +kernel⟩,
   ⟨s428, by unfold State.calm; decide +kernel⟩,
   ⟨.service, 7, 0, s429, reaches_of (by decide +kernel), by unfold State.calm; decide +kernel⟩,
   ⟨.service, 7, 0, s430, 7, reaches_of (by decide +kernel), by unfold State.calm; decide +kernel⟩,
   ⟨.service, 7, 0, s430, 6, reaches_of (by decide +kernel), by unfold State.calm; decide +kernel⟩,
   ⟨.service, 0, 7, s430, reaches_of (by decide +kernel), by unfold State.calm; decide +kernel⟩,
   ⟨.service, 0, 7, s431, reaches_of (by decide +kernel), by unfold State.calm; decide +kernel⟩,
   ⟨.service, 7, 0x80000000, s430, reaches_of (by decide +kernel), by unfold State.calm; decide +kernel⟩,
   ⟨.service, 7, 0x20000000, s430, reaches_of (by decide +kernel), by unfold State.calm; decide +kernel⟩,
   ⟨.service, 7, 0, s432, reaches_of (by decide +kernel), by unfold State.calm; decide +kernel⟩,
   ⟨.service, 7, 0, s430, reaches_of (by decide +kernel), by unfold State.calm; decide +kernel⟩,
   ⟨.service, 7, 0, s433, reaches_of (by decide +kernel), by unfold State.calm; decide +kernel⟩,
   ⟨.service, 7, 0, s434, ((6, 0, 65536 * 100)), reaches_of (by decide +kernel), by unfold State.calm; decide +kernel⟩,
   ⟨.service, 7, 0, s435, reaches_of (by decide +kernel), by unfold State.calm; decide +kernel⟩,
   ⟨7, true, .limit, (({ Coil.reset with bridge := .drive true } : Coil)), true, s436, by unfold State.calm; decide +kernel⟩,
   ⟨7, true, .limit, (({ Coil.reset with bridge := .drive true, opens := 63, shorts := 62 } : Coil)), true, s437,
      by unfold State.calm; decide +kernel⟩,
   ⟨7, true, .limit, (({ Coil.reset with bridge := .drive true, opens := 62, shorts := 62 } : Coil)), true, s438,
      by unfold State.calm; decide +kernel⟩,
   ⟨7, true, .limit, (({ Coil.reset with bridge := .drive true, opens := 63 } : Coil)), true, s439, by unfold State.calm; decide +kernel,
      by decide +kernel⟩,
   ⟨7, true, (({ Coil.reset with bridge := .coast } : Coil)), s440, by unfold State.calm; decide +kernel⟩,
   ⟨7, true, (({ Coil.reset with bridge := .coast } : Coil)), s441, by unfold State.calm; decide +kernel⟩,
   ⟨7, s442, by unfold State.calm; decide +kernel⟩,
   ⟨7, s432, by unfold State.calm; decide +kernel⟩,
   ⟨7, false, (-1000), (({ Coil.reset with sense := true } : Coil)), 65535, s443, by unfold State.calm; decide +kernel⟩,
   ⟨7, false, (-1000), (({ Coil.reset with sense := true } : Coil)), (((Config.freeWord 0).toNat % 65536)), s444, (if_pos
      (by decide +kernel)).symm, by unfold State.calm; decide +kernel⟩,
   ⟨7, false, (-1000), (({ Coil.reset with sense := true } : Coil)), 65535, s445, by unfold State.calm; decide +kernel⟩,
   ⟨7, false, 100, (({ Coil.reset with sense := true } : Coil)), ((min 65535 (roundDiv (100 * 2 ^ 56) (60000 * 0x7FFFFFFF)).toNat)), s446,
      5, by unfold State.calm; decide +kernel, by decide +kernel⟩,
   ⟨7, false, 1, (({ Coil.reset with sense := true } : Coil)), ((min 65535 (roundDiv (1 * 2 ^ 56) (60000 * 0x7FFFFFFF)).toNat)), s447, 5,
      by unfold State.calm; decide +kernel, by decide +kernel⟩,
   ⟨7, false, 1, (({ Coil.reset with sense := true } : Coil)), ((min 65535 (roundDiv (1 * 2 ^ 56) (60000 * 0x7FFFFFFF)).toNat)), s448, 5,
      by unfold State.calm; decide +kernel, by decide +kernel⟩⟩

theorem witness_Housekeeping :
    (∃ (c : Fin 96) (code : BitVec 12) (conv : Int) (ok : Bool) (s : State), s.calm ∧ (s.domOn .hk = false ∨ s.sampleDue c = false)) ∧
    (∃ (c : Fin 96) (code : BitVec 12) (conv : Int) (ok : Bool) (s : State), s.calm ∧ s.domOn .hk = true ∧ s.sampleDue c = true ∧ c.val ≠
      95) ∧
    (∃ (c : Fin 96) (code : BitVec 12) (conv : Int) (v : Int) (x : HkChan) (s : State), s.calm ∧ s.domOn .hk = true ∧ s.sampleDue c = true
      ∧ c.val ≠ 95 ∧ x = s.getChan c ∧ v = s.convert c code.toNat conv ∧ 56 ≤ c.val) ∧
    (∃ (c : Fin 96) (code : BitVec 12) (conv : Int) (v : Int) (x : HkChan) (s : State), (s.calm ∧ s.domOn .hk = true ∧ s.sampleDue c = true
      ∧ c.val ≠ 95 ∧ x = s.getChan c ∧ v = s.convert c code.toNat conv ∧ c.val < 56) ∧ s.fitted c = false) ∧
    (∃ (c : Fin 96) (code : BitVec 12) (conv : Int) (v : Int) (x : HkChan) (s : State), (s.calm ∧ s.domOn .hk = true ∧ s.sampleDue c = true
      ∧ c.val ≠ 95 ∧ x = s.getChan c ∧ v = s.convert c code.toNat conv ∧ c.val < 56) ∧ (s.fitted c = true ∧ s.sampleFault c code.toNat v x
      = false ∧ x.broken = false ∧ x.subst = false ∧ s.chanRef c = none ∧ x.up.length = 3 ∧ x.dn.length = 3) ∧ x.act.length = 3) ∧
    (∃ (c : Fin 96) (code : BitVec 12) (conv : Int) (v : Int) (x : HkChan) (s : State), (s.calm ∧ s.domOn .hk = true ∧ s.sampleDue c = true
      ∧ c.val ≠ 95 ∧ x = s.getChan c ∧ v = s.convert c code.toNat conv ∧ c.val < 56) ∧ s.fitted c = true ∧ s.sampleFault c code.toNat v x =
      true ∧ x.bad = 2 ∧ x.broken = false) ∧
    (∃ (c : Fin 96) (code : BitVec 12) (conv : Int) (v : Int) (x : HkChan) (s : State), (s.calm ∧ s.domOn .hk = true ∧ s.sampleDue c = true
      ∧ c.val ≠ 95 ∧ x = s.getChan c ∧ v = s.convert c code.toNat conv ∧ c.val < 56) ∧ s.fitted c = true ∧ s.sampleFault c code.toNat v x =
      true ∧ x.bad < 2 ∧ x.broken = false ∧ x.subst = false ∧ s.chanRef c = none) ∧
    (∃ (c : Fin 96) (code : BitVec 12) (conv : Int) (v : Int) (x : HkChan) (s : State), (s.calm ∧ s.domOn .hk = true ∧ s.sampleDue c = true
      ∧ c.val ≠ 95 ∧ x = s.getChan c ∧ v = s.convert c code.toNat conv ∧ c.val < 56) ∧ s.fitted c = true ∧ s.sampleFault c code.toNat v x =
      false ∧ x.good = 2 ∧ x.broken = true) ∧
    (∃ (c : Fin 96) (code : BitVec 12) (conv : Int) (v : Int) (x : HkChan) (s : State) (r : _), (s.calm ∧ s.domOn .hk = true ∧ s.sampleDue
      c = true ∧ c.val ≠ 95 ∧ x = s.getChan c ∧ v = s.convert c code.toNat conv ∧ c.val < 56) ∧ s.fitted c = true ∧ s.sampleFault c
      code.toNat v x = false ∧ x.broken = false ∧ s.chanRef c = some r ∧ x.subst = false ∧ x.far = 2 ∧ (192 < v - r ∨ 192 < r - v)) ∧
    (∃ (c : Fin 96) (code : BitVec 12) (conv : Int) (v : Int) (x : HkChan) (s : State) (r : _), (s.calm ∧ s.domOn .hk = true ∧ s.sampleDue
      c = true ∧ c.val ≠ 95 ∧ x = s.getChan c ∧ v = s.convert c code.toNat conv ∧ c.val < 56) ∧ (s.fitted c = true ∧ s.sampleFault c
      code.toNat v x = false ∧ x.broken = false ∧ s.chanRef c = some r ∧ x.subst = true ∧ x.near = 2 ∧ v - r ≤ 192) ∧ r - v ≤ 192) ∧
    (∃ (c : Fin 96) (code : BitVec 12) (conv : Int) (v : Int) (x : HkChan) (s : State), (s.calm ∧ s.domOn .hk = true ∧ s.sampleDue c = true
      ∧ c.val ≠ 95 ∧ x = s.getChan c ∧ v = s.convert c code.toNat conv ∧ c.val < 24) ∧ (s.fitted c = true ∧ s.sampleFault c code.toNat v x
      = false ∧ x.broken = false ∧ x.subst = false ∧ s.chanRef c = none ∧ 2000 < v ∧ x.up.length = 3) ∧ x.up.getD 2 0 = 2 ∧ x.act.length =
      3 ∧ s.rd Fld.HK_STAT_DIE_STATE ≠ 3) ∧
    (∃ (c : Fin 96) (code : BitVec 12) (conv : Int) (v : Int) (x : HkChan) (s : State), (s.calm ∧ s.domOn .hk = true ∧ s.sampleDue c = true
      ∧ c.val ≠ 95 ∧ x = s.getChan c ∧ v = s.convert c code.toNat conv ∧ 40 ≤ c.val) ∧ (c.val < 56 ∧ s.fitted c = true ∧ s.sampleFault c
      code.toNat v x = false ∧ x.broken = false ∧ x.subst = false ∧ s.chanLimit c 2 < v ∧ x.up.length = 3) ∧ x.up.getD 2 0 = 2 ∧
      x.act.length = 3 ∧ s.chanLevel c ≠ 3) ∧
    (∃ (code : BitVec 12) (conv : Int) (ok : Bool) (s : State), s.calm ∧ s.domOn .hk = true ∧ s.sampleDue 95 = true) ∧
    (∃ (code : BitVec 12) (conv : Int) (ok : Bool) (s : State), s.calm ∧ s.domOn .hk = true ∧ s.sampleDue 95 = true ∧ (s.round.bad = true ∨
      ok = false) ∧ s.round.runs = 9) ∧
    (∃ (s : State), s.calm ∧ s.pcr.dieShut = true ∧ s.pcr.start = none) ∧
    (∃ (s : State), s.calm ∧ (s.pcr.dieShut = false ∨ s.pcr.start.isSome = true)) :=
  ⟨⟨94, 77, 9, true, on, by unfold State.calm; decide +kernel⟩,
   ⟨94, 77, 9, false, s449, by unfold State.calm; decide +kernel⟩,
   ⟨94, 77, 9, 77, (((edit (fun z => { z with round := ⟨false, 0, 94, some 0⟩, tb := 0x1000000000 }) (put [(Fld.HK_CH_CFG_FITTED 94, 1)]
      on)).getChan 94)), s450, by unfold State.calm; decide +kernel⟩,
   ⟨55, 77, 9, ((on.convert 55 77 9)), (((edit (fun z => { z with round := ⟨false, 0, 55, some 0⟩, tb := 0x1000000000 }) (put
      [(Fld.HK_CH_CFG_FITTED 55, 0)] on)).getChan 55)), s451, by unfold State.calm; decide +kernel, by decide +kernel⟩,
   ⟨23, 77, 9, 9, (((edit (fun z => { z with round := ⟨false, 0, 23, some 0⟩, tb := 0x1000000000 }) (put [(Fld.HK_CH_CFG_FITTED 23, 1)]
      on)).getChan 23)), s452, by unfold State.calm; decide +kernel, by decide +kernel, by decide +kernel⟩,
   ⟨23, 0, 9, 9, (((edit (fun z => { z with round := ⟨false, 0, 23, some 0⟩, tb := 0x1000000000 }) (edit (fun z => z.setChan 23
      { z.getChan 23 with bad := 2 }) (put [(Fld.HK_CH_CFG_FITTED 23, 1)] on))).getChan 23)), s453, by unfold State.calm; decide +kernel,
      by decide +kernel⟩,
   ⟨23, 0, 9, 9, (((edit (fun z => { z with round := ⟨false, 0, 23, some 0⟩, tb := 0x1000000000 }) (edit (fun z => z.setChan 23
      { z.getChan 23 with bad := 1 }) (put [(Fld.HK_CH_CFG_FITTED 23, 1)] on))).getChan 23)), s454, by unfold State.calm; decide +kernel,
      by decide +kernel⟩,
   ⟨23, 77, 9, 9, (((edit (fun z => { z with round := ⟨false, 0, 23, some 0⟩, tb := 0x1000000000 }) (edit (fun z => z.setChan 23
      { z.getChan 23 with good := 2, broken := true, bad := 3 }) (put [(Fld.HK_CH_CFG_FITTED 23, 1)] on))).getChan 23)), s455,
      by unfold State.calm; decide +kernel, by decide +kernel⟩,
   ⟨23, 77, 900, 900, (((edit (fun z => { z with round := ⟨false, 0, 23, some 0⟩, tb := 0x1000000000 }) (edit (fun z => (z.setChan 21
      { HkChan.reset with own := some 400 }).setChan 22 { HkChan.reset with own := some 500 }) (edit (fun z => z.setChan 23
      { z.getChan 23 with far := 2 }) b118))).getChan 23)), s456, 450, by unfold State.calm; decide +kernel, by decide +kernel⟩,
   ⟨23, 77, 460, 460, (((edit (fun z => { z with round := ⟨false, 0, 23, some 0⟩, tb := 0x1000000000 }) (edit (fun z => (z.setChan 21
      { HkChan.reset with own := some 400 }).setChan 22 { HkChan.reset with own := some 500 }) (edit (fun z => z.setChan 23
      { z.getChan 23 with near := 2, subst := true }) b118))).getChan 23)), s457, 450, by unfold State.calm; decide +kernel,
      by decide +kernel, by decide +kernel⟩,
   ⟨23, 77, 2001, 2001, (((edit (fun z => { z with round := ⟨false, 0, 23, some 0⟩, tb := 0x1000000000 }) (edit (fun z => z.setChan 23
      { z.getChan 23 with up := [2, 2, 2] }) (put [(Fld.HK_CH_CFG_FITTED 23, 1)] on))).getChan 23)), s458,
      by unfold State.calm; decide +kernel, by decide +kernel, by decide +kernel⟩,
   ⟨55, 2048, 0, ((b122.convert 55 2048 0)), ((b122.getChan 55)), s459, by unfold State.calm; decide +kernel, by decide +kernel,
      by decide +kernel⟩,
   ⟨77, 9, true, s460, by unfold State.calm; decide +kernel⟩,
   ⟨77, 9, false, s461, by unfold State.calm; decide +kernel⟩,
   ⟨s462, by unfold State.calm; decide +kernel⟩,
   ⟨on, by unfold State.calm; decide +kernel⟩⟩

theorem witness_Reports :
    (∃ (r : Report) (rest : List Report) (cls : Nat) (sc : Nat) (s : State), s.calm ∧ firstReport s.reportWaits s.rakeQ = some (r, rest) ∧
      cls = s.reportClass r ∧ sc = r.scope (s.rd (Fld.RAKE_SRC_CFG_SCOPE r.src)) ∧ s.sourcePresent r.src = false) ∧
    (∃ (r : Report) (rest : List Report) (cls : Nat) (sc : Nat) (s : State), (s.calm ∧ firstReport s.reportWaits s.rakeQ = some (r, rest) ∧
      cls = s.reportClass r ∧ sc = r.scope (s.rd (Fld.RAKE_SRC_CFG_SCOPE r.src)) ∧ s.sourcePresent r.src = true ∧ (s.on Fld.HF_CFG_ON_FATAL
      = false ∨ s.on Fld.RAKE_FIRST_SRC_VALID = true ∨ cls ≠ 3) ∧ cls = 3) ∧ cls ≠ 0 ∧ s.on Fld.RAKE_FIRST_SRC_VALID = false ∧ (cls = 3 ∨
      (cls = 2 ∧ s.on Fld.RAKE_CFG_ERRN_CONT = true) ∨ (cls = 1 ∧ s.on Fld.RAKE_CFG_ERRN_CORR = true)) ∧ sc ∈ scopeNumbers ∧ s.scopeState
      sc = 0) ∧
    (∃ (r : Report) (rest : List Report) (cls : Nat) (sc : Nat) (s : State), (s.calm ∧ firstReport s.reportWaits s.rakeQ = some (r, rest) ∧
      cls = s.reportClass r ∧ sc = r.scope (s.rd (Fld.RAKE_SRC_CFG_SCOPE r.src)) ∧ s.sourcePresent r.src = true ∧ (s.on Fld.HF_CFG_ON_FATAL
      = false ∨ s.on Fld.RAKE_FIRST_SRC_VALID = true ∨ cls ≠ 3) ∧ cls ≠ 0) ∧ s.on Fld.RAKE_FIRST_SRC_VALID = true) ∧
    (∃ (r : Report) (rest : List Report) (cls : Nat) (sc : Nat) (s : State), s.calm ∧ firstReport s.reportWaits s.rakeQ = some (r, rest) ∧
      cls = s.reportClass r ∧ sc = r.scope (s.rd (Fld.RAKE_SRC_CFG_SCOPE r.src)) ∧ s.sourcePresent r.src = true ∧ (s.on Fld.HF_CFG_ON_FATAL
      = false ∨ s.on Fld.RAKE_FIRST_SRC_VALID = true ∨ cls ≠ 3) ∧ cls = 2) ∧
    (∃ (r : Report) (rest : List Report) (cls : Nat) (sc : Nat) (s : State), s.calm ∧ firstReport s.reportWaits s.rakeQ = some (r, rest) ∧
      cls = s.reportClass r ∧ sc = r.scope (s.rd (Fld.RAKE_SRC_CFG_SCOPE r.src)) ∧ s.sourcePresent r.src = true ∧ (s.on Fld.HF_CFG_ON_FATAL
      = false ∨ s.on Fld.RAKE_FIRST_SRC_VALID = true ∨ cls ≠ 3) ∧ cls = 1) ∧
    (∃ (r : Report) (rest : List Report) (cls : Nat) (sc : Nat) (s : State), s.calm ∧ firstReport s.reportWaits s.rakeQ = some (r, rest) ∧
      cls = s.reportClass r ∧ sc = r.scope (s.rd (Fld.RAKE_SRC_CFG_SCOPE r.src)) ∧ s.sourcePresent r.src = true ∧ (s.on Fld.HF_CFG_ON_FATAL
      = false ∨ s.on Fld.RAKE_FIRST_SRC_VALID = true ∨ cls ≠ 3) ∧ r.level = true) ∧
    (∃ (r : Report) (rest : List Report) (cls : Nat) (sc : Nat) (s : State), (s.calm ∧ firstReport s.reportWaits s.rakeQ = some (r, rest) ∧
      cls = s.reportClass r ∧ sc = r.scope (s.rd (Fld.RAKE_SRC_CFG_SCOPE r.src)) ∧ s.sourcePresent r.src = true ∧ s.on Fld.HF_CFG_ON_FATAL
      = true ∧ s.on Fld.RAKE_FIRST_SRC_VALID = false) ∧ cls = 3) ∧
    (∃ (s : State), s.calm ∧ firstReport s.reportWaits s.rakeQ = none) ∧
    (∃ (src : Fin 1024) (low : Word) (rail : Bool) (s : State) (l : _), s.calm ∧ s.rake.levels.find? (fun l => decide (l.src = src.val) &&
      decide (l.low = low.toNat) && decide (l.rail = rail) && s.levelOver l) = some l) ∧
    (∃ (src : Fin 1024) (low : Word) (rail : Bool) (s : State), s.calm ∧ s.rake.levels.find? (fun l => decide (l.src = src.val) && decide
      (l.low = low.toNat) && decide (l.rail = rail) && s.levelOver l) = none) ∧
    (∃ (i : Fin 27) (due : Bool) (s : State), s.calm ∧ (due = (decide (i.val ≠ 0) && s.domOn (islandDomain i) && !s.islandStopped i &&
      !s.tineLost i && !s.rakeQ.any (fun r => decide (r.src = 2) && decide (r.synd.toNat = i.val) && r.level) && (decide (i.val < 6 ∨ 21 <
      i.val) || s.portPresent (i.val - 6)))) ∧ due = true) ∧
    (∃ (i : Fin 27) (due : Bool) (s : State), s.calm ∧ (due = (decide (i.val ≠ 0) && s.domOn (islandDomain i) && !s.islandStopped i &&
      !s.tineLost i && !s.rakeQ.any (fun r => decide (r.src = 2) && decide (r.synd.toNat = i.val) && r.level) && (decide (i.val < 6 ∨ 21 <
      i.val) || s.portPresent (i.val - 6)))) ∧ due = false) ∧
    (∃ (s : State) (p : _), s.rake.pulse = some p ∧ p + s.errPulse ≤ s.tb.toNat) ∧
    (∃ (s : State), s.rake.pulse.all (fun p => decide (s.tb.toNat < p + s.errPulse)) = true) ∧
    (∃ (m : Master) (v : Word) (s : State), s.reaches Reg.RAKE_ERRN ∧ s.calm) ∧
    (∃ (m : Master) (v : Word) (s : State), s.reaches Reg.RAKE_CTL ∧ s.calm) ∧
    (∃ (m : Master) (v : Word) (s : State), s.reaches Reg.RAKE_INJ_CTL ∧ s.hf.active = false ∧ s.injDue [0x200] = false ∧ s.injDue [0x201]
      = false) :=
  ⟨⟨(({ src := 0x3FE, synd := 5, mast := 0, tb := 900, level := false, rail := false, inj := false, coinc := false } : Report)), [],
      ((b124.reportClass ({ src := 0x3FE, synd := 5, mast := 0, tb := 900, level := false, rail := false, inj := false, coinc := false } :
      Report))), ((Report.scope ({ src := 0x3FE, synd := 5, mast := 0, tb := 900, level := false, rail := false, inj := false, coinc := false }
      : Report) (b124.rd (Fld.RAKE_SRC_CFG_SCOPE (Report.src
      ({ src := 0x3FE, synd := 5, mast := 0, tb := 900, level := false, rail := false, inj := false, coinc := false } : Report)))))), s463,
      by unfold State.calm; decide +kernel⟩,
   ⟨(({ src := 0x1FE, synd := 9, mast := 0, tb := 900, level := false, rail := false, inj := false, coinc := false } : Report)), [],
      ((b126.reportClass ({ src := 0x1FE, synd := 9, mast := 0, tb := 900, level := false, rail := false, inj := false, coinc := false } :
      Report))), ((Report.scope ({ src := 0x1FE, synd := 9, mast := 0, tb := 900, level := false, rail := false, inj := false, coinc := false }
      : Report) (b126.rd (Fld.RAKE_SRC_CFG_SCOPE (Report.src
      ({ src := 0x1FE, synd := 9, mast := 0, tb := 900, level := false, rail := false, inj := false, coinc := false } : Report)))))), s464,
      by unfold State.calm; decide +kernel, by decide +kernel⟩,
   ⟨(({ src := 0x1FE, synd := 9, mast := 0, tb := 900, level := false, rail := false, inj := false, coinc := false } : Report)), [],
      ((b128.reportClass ({ src := 0x1FE, synd := 9, mast := 0, tb := 900, level := false, rail := false, inj := false, coinc := false } :
      Report))), ((Report.scope ({ src := 0x1FE, synd := 9, mast := 0, tb := 900, level := false, rail := false, inj := false, coinc := false }
      : Report) (b128.rd (Fld.RAKE_SRC_CFG_SCOPE (Report.src
      ({ src := 0x1FE, synd := 9, mast := 0, tb := 900, level := false, rail := false, inj := false, coinc := false } : Report)))))), s465,
      by unfold State.calm; decide +kernel, by decide +kernel⟩,
   ⟨(({ src := 0x1FE, synd := 9, mast := 0, tb := 900, level := false, rail := false, inj := false, coinc := false } : Report)), [],
      ((b130.reportClass ({ src := 0x1FE, synd := 9, mast := 0, tb := 900, level := false, rail := false, inj := false, coinc := false } :
      Report))), ((Report.scope ({ src := 0x1FE, synd := 9, mast := 0, tb := 900, level := false, rail := false, inj := false, coinc := false }
      : Report) (b130.rd (Fld.RAKE_SRC_CFG_SCOPE (Report.src
      ({ src := 0x1FE, synd := 9, mast := 0, tb := 900, level := false, rail := false, inj := false, coinc := false } : Report)))))), s466,
      by unfold State.calm; decide +kernel⟩,
   ⟨(({ src := 0x1FE, synd := 9, mast := 0, tb := 900, level := false, rail := false, inj := false, coinc := false } : Report)), [],
      ((b132.reportClass ({ src := 0x1FE, synd := 9, mast := 0, tb := 900, level := false, rail := false, inj := false, coinc := false } :
      Report))), ((Report.scope ({ src := 0x1FE, synd := 9, mast := 0, tb := 900, level := false, rail := false, inj := false, coinc := false }
      : Report) (b132.rd (Fld.RAKE_SRC_CFG_SCOPE (Report.src
      ({ src := 0x1FE, synd := 9, mast := 0, tb := 900, level := false, rail := false, inj := false, coinc := false } : Report)))))), s467,
      by unfold State.calm; decide +kernel⟩,
   ⟨(({ src := 0x002, synd := 11, mast := 0, tb := 900, level := true, rail := false, inj := false, coinc := false } : Report)), [],
      ((b133.reportClass ({ src := 0x002, synd := 11, mast := 0, tb := 900, level := true, rail := false, inj := false, coinc := false } :
      Report))), ((Report.scope ({ src := 0x002, synd := 11, mast := 0, tb := 900, level := true, rail := false, inj := false, coinc := false }
      : Report) (b133.rd (Fld.RAKE_SRC_CFG_SCOPE (Report.src
      ({ src := 0x002, synd := 11, mast := 0, tb := 900, level := true, rail := false, inj := false, coinc := false } : Report)))))), s468,
      by unfold State.calm; decide +kernel⟩,
   ⟨(({ src := 0x1FE, synd := 9, mast := 0, tb := 900, level := false, rail := false, inj := false, coinc := false } : Report)), [],
      ((b135.reportClass ({ src := 0x1FE, synd := 9, mast := 0, tb := 900, level := false, rail := false, inj := false, coinc := false } :
      Report))), ((Report.scope ({ src := 0x1FE, synd := 9, mast := 0, tb := 900, level := false, rail := false, inj := false, coinc := false }
      : Report) (b135.rd (Fld.RAKE_SRC_CFG_SCOPE (Report.src
      ({ src := 0x1FE, synd := 9, mast := 0, tb := 900, level := false, rail := false, inj := false, coinc := false } : Report)))))), s469,
      by unfold State.calm; decide +kernel, by decide +kernel⟩,
   ⟨on, by unfold State.calm; decide +kernel⟩,
   ⟨0x045, 3, false, s470, ((⟨0x045, 3, false, 0⟩ : Level)), by unfold State.calm; decide +kernel⟩,
   ⟨0x045, 3, false, on, by unfold State.calm; decide +kernel⟩,
   ⟨26, true, on, by unfold State.calm; decide +kernel⟩,
   ⟨0, false, on, by unfold State.calm; decide +kernel⟩,
   ⟨s471, 5, by decide +kernel⟩,
   ⟨on, by decide +kernel⟩,
   ⟨.service, 0x80000000, s472, reaches_of (by decide +kernel), by unfold State.calm; decide +kernel⟩,
   ⟨.service, 0x80000000, s473, reaches_of (by decide +kernel), by unfold State.calm; decide +kernel⟩,
   ⟨.service, 0x40000123, on, reaches_of (by decide +kernel), by decide +kernel⟩⟩

theorem witness_FaultScopes :
    (∃ (m : Master) (sc : Fin 1024) (s : State), s.reaches (Reg.RAKE_SCOPE sc) ∧ s.calm ∧ sc.val ∈ scopeNumbers ∧ s.scopeRetired sc = false
      ∧ s.scopeState sc ≠ 0 ∧ s.rake.levels.find? (fun l => decide (l.scope = sc.val)) = none) ∧
    (∃ (m : Master) (sc : Fin 1024) (s : State) (l : _), s.reaches (Reg.RAKE_SCOPE sc) ∧ s.calm ∧ sc.val ∈ scopeNumbers ∧ s.scopeRetired sc
      = false ∧ s.scopeState sc ≠ 0 ∧ s.rake.levels.find? (fun l => decide (l.scope = sc.val)) = some l) ∧
    (∃ (m : Master) (sc : Fin 1024) (s : State), s.reaches (Reg.RAKE_SCOPE sc) ∧ s.calm ∧ sc.val ∈ scopeNumbers ∧ s.scopeRetired sc = false
      ∧ s.scopeState sc = 0) ∧
    (∃ (m : Master) (sc : Fin 1024) (s : State), s.reaches (Reg.RAKE_SCOPE sc) ∧ s.calm ∧ (sc.val ∉ scopeNumbers ∨ s.scopeRetired sc = true
      ∨ s.scopeState sc = 0)) ∧
    (∃ (m : Master) (sc : Fin 1024) (s : State), s.reaches (Reg.RAKE_SCOPE sc) ∧ s.calm ∧ (sc.val ∉ scopeNumbers ∨ s.scopeRetired sc = true
      ∨ s.scopeState sc ≠ 0)) ∧
    (∃ (s : State), s.calm) :=
  ⟨⟨.service, 0x2FE, s474, reaches_of (by decide +kernel), by unfold State.calm; decide +kernel⟩,
   ⟨.service, 0, s475, ⟨0x045, 3, false, 0⟩, reaches_of (by decide +kernel), by unfold State.calm; decide +kernel⟩,
   ⟨.service, 0x2FE, s476, reaches_of (by decide +kernel), by unfold State.calm; decide +kernel⟩,
   ⟨.service, 0x2FE, on, reaches_of (by decide +kernel), by unfold State.calm; decide +kernel⟩,
   ⟨.service, 0x2FE, s477, reaches_of (by decide +kernel), by unfold State.calm; decide +kernel⟩,
   ⟨s478, by unfold State.calm; decide +kernel⟩⟩

theorem witness_OtpAndStore :
    (∃ (m : Master) (v : Word) (vqps : Bool) (core : Bool) (s : State) (u : State), s.reaches Reg.PF_PROG_CTL ∧ u = s.senseSupplies vqps
      core ∧ s.calm ∧ s.on Fld.PF_PROG_CTL_BUSY = false ∧ u.wordRefused (bitsOf v 9 0) (s.rd64 Reg.PF_PROG_DATA_LO) = none) ∧
    (∃ (m : Master) (v : Word) (vqps : Bool) (core : Bool) (s : State) (u : State), s.reaches Reg.PF_PROG_CTL ∧ u = s.senseSupplies vqps
      core ∧ s.calm ∧ s.on Fld.PF_PROG_CTL_BUSY = true) ∧
    (∃ (w : Nat) (data : Nat) (s : State), s.otpWindow = true ∧ otpRegion w = none) ∧
    (∃ (w : Nat) (data : Nat) (r : Nat) (s : State), otpRegion w = some r ∧ (s.rd Fld.PF_LOCK_SET_LOCK).testBit r = true ∧ ¬ (0x061 ≤ w ∧ w
      ≤ 0x064)) ∧
    (∃ (w : Nat) (data : Nat) (s : State), s.wordLocked w = false ∧ s.otpWindow = false) ∧
    (∃ (w : Nat) (data : Nat) (k : Nat) (s : State), (s.otpWindow = true ∧ (∀ i < 4, s.otpWord true (0x061 + i) < 2 ^ 64) ∧ 0x061 ≤ w ∧ w ≤
      0x064 ∧ data < 2 ^ 64 ∧ 0 < k ∧ k < 64) ∧ data.testBit k = true ∧ data.testBit (k - 1) = false ∧ (s.otpWord true w).testBit (k - 1) =
      false) ∧
    (∃ (x : OtpWord) (strict : Nat) (lenient : Nat) (s : State), x.data < 2 ^ 64 ∧ x.data &&& (s.otpWord false x.addr ||| (strict &&&
      x.data)) = x.data) ∧
    (∃ (x : OtpWord) (strict : Nat) (lenient : Nat) (s : State), x.data < 2 ^ 64 ∧ x.data &&& (s.otpWord false x.addr ||| (strict &&&
      x.data)) ≠ x.data ∧ x.cut = true) ∧
    (∃ (x : OtpWord) (strict : Nat) (lenient : Nat) (s : State), x.data < 2 ^ 64 ∧ x.data &&& (s.otpWord false x.addr ||| (strict &&&
      x.data)) ≠ x.data ∧ x.cut = false ∧ (∀ e < 16, s.spareUsed e = true) ∧ x.addr < 0x3EF) ∧
    (∃ (x : OtpWord) (strict : Nat) (lenient : Nat) (s : State) (e : _), (x.data < 2 ^ 64 ∧ x.data &&& (s.otpWord false x.addr ||| (strict
      &&& x.data)) ≠ x.data ∧ x.cut = false ∧ x.addr < 0x3EF ∧ (otpRegion x.addr).isSome = true ∧ e < 16 ∧ s.spareUsed e = false) ∧ (∀ k <
      e, s.spareUsed k = true)) ∧
    (∃ (x : OtpWord) (strict : Nat) (lenient : Nat) (s : State) (e : _), (x.data < 2 ^ 64 ∧ x.data &&& (s.otpWord false x.addr ||| (strict
      &&& x.data)) ≠ x.data ∧ x.cut = false ∧ x.addr < 0x3EF ∧ (otpRegion x.addr).isSome = true ∧ e < 16 ∧ s.spareUsed e = false) ∧ (∀ k <
      e, s.spareUsed k = true)) ∧
    (∃ (x : OtpWord) (strict : Nat) (lenient : Nat) (s : State) (e : _), (x.data < 2 ^ 64 ∧ x.data &&& (s.otpWord false x.addr ||| (strict
      &&& x.data)) ≠ x.data ∧ x.cut = false ∧ x.addr < 0x3EF ∧ (otpRegion x.addr).isSome = true ∧ e < 16 ∧ s.spareUsed e = false) ∧ (∀ k <
      e, s.spareUsed k = true) ∧ s.otpRaw false (0x3F0 + e) = 0) ∧
    (∃ (x : OtpWord) (strict : Nat) (lenient : Nat) (s : State), x.data < 2 ^ 64 ∧ (x.cut = true ∨ x.data &&& (s.otpWord false x.addr |||
      (strict &&& x.data)) = x.data) ∧ x.addr < 0x3EF) ∧
    (∃ (x : OtpWord) (strict : Nat) (lenient : Nat) (s : State), x.data < 2 ^ 64 ∧ (x.cut = true ∨ x.data &&& (s.otpWord false x.addr |||
      (strict &&& x.data)) = x.data) ∧ x.addr < 0x3EF) ∧
    (∃ (strict : BitVec 64) (lenient : BitVec 64) (x : OtpWord) (r : Nat) (s : State) (v : State), s.otp.prog = some x ∧ x.ended = none ∧
      s.on Fld.PF_SCAN_STAT_BUSY = false ∧ s.verifyWord x strict.toNat lenient.toNat = (r, v) ∧ r < 8 ∧ x.mp = false ∧ (s.hf.active = true
      ∨ s.mp.cmd = none)) ∧
    (∃ (strict : BitVec 64) (lenient : BitVec 64) (x : OtpWord) (r : Nat) (s : State) (v : State), s.otp.prog = some x ∧ x.ended = none ∧
      s.on Fld.PF_SCAN_STAT_BUSY = false ∧ s.verifyWord x strict.toNat lenient.toNat = (r, v) ∧ r < 8 ∧ x.mp = true ∧ s.hf.active = true) ∧
    (∃ (strict : BitVec 64) (lenient : BitVec 64) (s : State), s.otp.prog = none) ∧
    (∃ (strict : BitVec 64) (lenient : BitVec 64) (s : State) (x : _), s.otp.prog = some x ∧ (x.ended.isSome = true ∨ s.on
      Fld.PF_SCAN_STAT_BUSY = true)) ∧
    (∃ (vqps : Bool) (s : State), vqps = true) ∧
    (∃ (vqps : Bool) (s : State), vqps = false) ∧
    (∃ (m : Master) (v : Word) (s : State), s.reaches Reg.PF_CTL ∧ s.calm) ∧
    (∃ (s : State), s.on Fld.PF_SCAN_STAT_BUSY = false) ∧
    (∃ (s : State), s.on Fld.PF_SCAN_STAT_BUSY = true) ∧
    (∃ (m : Master) (v : Word) (s : State), s.reaches Reg.PF_LOCK_SET ∧ s.calm) ∧
    (∃ (src : HostRead) (flash : FlashAnswer) (vqps : Bool) (core : Bool) (ok : Bool) (s : State), s.calm ∧ (s.loadCommand 0x50 = none ∨
      s.mp.cmd.any (fun c => !c.left.isEmpty) = true)) ∧
    (∃ (src : HostRead) (flash : FlashAnswer) (vqps : Bool) (core : Bool) (ok : Bool) (s : State), s.calm ∧ s.nextCommand 0x51 = none) ∧
    (∃ (src : HostRead) (flash : FlashAnswer) (vqps : Bool) (core : Bool) (ok : Bool) (s : State), s.calm ∧ s.loadCommand 0x60 = none) ∧
    (∃ (src : HostRead) (flash : FlashAnswer) (vqps : Bool) (core : Bool) (ok : Bool) (s : State), s.calm ∧ s.nextCommand 0x61 = none) ∧
    (∃ (src : HostRead) (vqps : Bool) (core : Bool) (c : MpCmd) (s : State) (u : State), u = s.senseSupplies vqps core ∧ s.carries 0x50 c ∧
      c.left = [] ∧ (otpShapeBad c.desc = true ∨ (otpAddrs c.desc).any u.wordLocked = true)) ∧
    (∃ (src : HostRead) (vqps : Bool) (core : Bool) (c : MpCmd) (x : Fed) (l : List Nat) (s : State) (u : State) (v : State), u =
      s.senseSupplies vqps core ∧ (s.carries 0x50 c ∧ c.left = [] ∧ otpShapeBad c.desc = false ∧ (otpAddrs c.desc).any u.wordLocked = false
      ∧ u.feed (bitOf (dwAt c.desc.dw 2) 31) (c.desc.wide 4) (8 * c.desc.fld 3 10 0) c.fed src = (x, v) ∧ v.mp = s.mp ∧ v.otp = u.otp) ∧
      v.host.cqQueue = s.host.cqQueue ∧ v.cqRoom ∧ l = (otpAddrs c.desc).zipIdx.map (fun w => otpItem w.1 (leNat (sliceOf x.bytes (8 * w.2)
      8))) ∧ x.state = .failed) ∧
    (∃ (src : HostRead) (vqps : Bool) (core : Bool) (c : MpCmd) (x : Fed) (l : List Nat) (s : State) (u : State) (v : State), u =
      s.senseSupplies vqps core ∧ (s.carries 0x50 c ∧ c.left = [] ∧ otpShapeBad c.desc = false ∧ (otpAddrs c.desc).any u.wordLocked = false
      ∧ u.feed (bitOf (dwAt c.desc.dw 2) 31) (c.desc.wide 4) (8 * c.desc.fld 3 10 0) c.fed src = (x, v) ∧ v.mp = s.mp ∧ v.otp = u.otp) ∧
      v.host.cqQueue = s.host.cqQueue ∧ v.cqRoom ∧ l = (otpAddrs c.desc).zipIdx.map (fun w => otpItem w.1 (leNat (sliceOf x.bytes (8 * w.2)
      8))) ∧ x.state = .more) ∧
    (∃ (src : HostRead) (vqps : Bool) (core : Bool) (c : MpCmd) (x : Fed) (l : List Nat) (s : State) (u : State) (v : State), u =
      s.senseSupplies vqps core ∧ (s.carries 0x50 c ∧ c.left = [] ∧ otpShapeBad c.desc = false ∧ (otpAddrs c.desc).any u.wordLocked = false
      ∧ u.feed (bitOf (dwAt c.desc.dw 2) 31) (c.desc.wide 4) (8 * c.desc.fld 3 10 0) c.fed src = (x, v) ∧ v.mp = s.mp ∧ v.otp = u.otp) ∧
      v.host.cqQueue = s.host.cqQueue ∧ v.cqRoom ∧ l = (otpAddrs c.desc).zipIdx.map (fun w => otpItem w.1 (leNat (sliceOf x.bytes (8 * w.2)
      8))) ∧ x.state = .whole ∧ v.listOrder l = true) ∧
    (∃ (src : HostRead) (vqps : Bool) (core : Bool) (c : MpCmd) (x : Fed) (l : List Nat) (s : State) (u : State) (v : State), u =
      s.senseSupplies vqps core ∧ (s.carries 0x50 c ∧ c.left = [] ∧ otpShapeBad c.desc = false ∧ (otpAddrs c.desc).any u.wordLocked = false
      ∧ u.feed (bitOf (dwAt c.desc.dw 2) 31) (c.desc.wide 4) (8 * c.desc.fld 3 10 0) c.fed src = (x, v) ∧ v.mp = s.mp ∧ v.otp = u.otp) ∧
      v.host.cqQueue = s.host.cqQueue ∧ v.cqRoom ∧ l = (otpAddrs c.desc).zipIdx.map (fun w => otpItem w.1 (leNat (sliceOf x.bytes (8 * w.2)
      8))) ∧ x.state = .whole ∧ v.listOrder l = false ∧ bitOf (dwAt c.desc.dw 2) 30 = true ∧ v.crcAutoBad l = true) ∧
    (∃ (src : HostRead) (vqps : Bool) (core : Bool) (c : MpCmd) (x : Fed) (l : List Nat) (s : State) (u : State) (v : State), u =
      s.senseSupplies vqps core ∧ (s.carries 0x50 c ∧ c.left = [] ∧ otpShapeBad c.desc = false ∧ (otpAddrs c.desc).any u.wordLocked = false
      ∧ u.feed (bitOf (dwAt c.desc.dw 2) 31) (c.desc.wide 4) (8 * c.desc.fld 3 10 0) c.fed src = (x, v) ∧ v.mp = s.mp ∧ v.otp = u.otp) ∧
      v.host.cqQueue = s.host.cqQueue ∧ v.cqRoom ∧ l = (otpAddrs c.desc).zipIdx.map (fun w => otpItem w.1 (leNat (sliceOf x.bytes (8 * w.2)
      8))) ∧ x.state = .whole ∧ v.listOrder l = false ∧ (bitOf (dwAt c.desc.dw 2) 30 = false ∨ v.crcAutoBad l = false) ∧ v.otpWindow =
      false) ∧
    (∃ (src : HostRead) (vqps : Bool) (core : Bool) (c : MpCmd) (x : Fed) (l : List Nat) (s : State) (u : State) (v : State), u =
      s.senseSupplies vqps core ∧ (s.carries 0x50 c ∧ c.left = [] ∧ otpShapeBad c.desc = false ∧ (otpAddrs c.desc).any u.wordLocked = false
      ∧ u.feed (bitOf (dwAt c.desc.dw 2) 31) (c.desc.wide 4) (8 * c.desc.fld 3 10 0) c.fed src = (x, v) ∧ v.mp = s.mp ∧ v.otp = u.otp) ∧
      (v.host.cqQueue = s.host.cqQueue ∧ v.cqRoom ∧ l = (otpAddrs c.desc).zipIdx.map (fun w => otpItem w.1 (leNat (sliceOf x.bytes (8 *
      w.2) 8))) ∧ x.state = .whole ∧ v.listOrder l = false ∧ (bitOf (dwAt c.desc.dw 2) 30 = false ∨ v.crcAutoBad l = false) ∧ v.otpWindow =
      true) ∧ v.mpMay 1 = false) ∧
    (∃ (src : HostRead) (vqps : Bool) (core : Bool) (c : MpCmd) (x : Fed) (l : List Nat) (s : State) (u : State) (v : State), u =
      s.senseSupplies vqps core ∧ (s.carries 0x50 c ∧ c.left = [] ∧ otpShapeBad c.desc = false ∧ (otpAddrs c.desc).any u.wordLocked = false
      ∧ u.feed (bitOf (dwAt c.desc.dw 2) 31) (c.desc.wide 4) (8 * c.desc.fld 3 10 0) c.fed src = (x, v) ∧ v.mp = s.mp ∧ v.otp = u.otp) ∧
      (v.host.cqQueue = s.host.cqQueue ∧ v.cqRoom ∧ l = (otpAddrs c.desc).zipIdx.map (fun w => otpItem w.1 (leNat (sliceOf x.bytes (8 *
      w.2) 8))) ∧ x.state = .whole ∧ v.listOrder l = false ∧ (bitOf (dwAt c.desc.dw 2) 30 = false ∨ v.crcAutoBad l = false) ∧ v.otpWindow =
      true) ∧ v.mpMay 1 = true ∧ s.otp.prog = none) ∧
    (∃ (src : HostRead) (vqps : Bool) (core : Bool) (c : MpCmd) (x : Fed) (l : List Nat) (s : State) (u : State) (v : State), u =
      s.senseSupplies vqps core ∧ (s.carries 0x50 c ∧ c.left = [] ∧ otpShapeBad c.desc = false ∧ (otpAddrs c.desc).any u.wordLocked = false
      ∧ u.feed (bitOf (dwAt c.desc.dw 2) 31) (c.desc.wide 4) (8 * c.desc.fld 3 10 0) c.fed src = (x, v) ∧ v.mp = s.mp ∧ v.otp = u.otp) ∧
      (v.host.cqQueue = s.host.cqQueue ∧ v.cqRoom ∧ l = (otpAddrs c.desc).zipIdx.map (fun w => otpItem w.1 (leNat (sliceOf x.bytes (8 *
      w.2) 8))) ∧ x.state = .whole ∧ v.listOrder l = false ∧ (bitOf (dwAt c.desc.dw 2) 30 = false ∨ v.crcAutoBad l = false) ∧ v.otpWindow =
      true) ∧ v.mpMay 1 = true ∧ s.otp.prog ≠ none) ∧
    (∃ (vqps : Bool) (core : Bool) (d : Desc) (s : State) (u : State), u = s.senseSupplies vqps core ∧ s.commanded 0x51 d ∧ d.reservedSet
      (commandLayout [0x1FF]) = true) ∧
    (∃ (vqps : Bool) (core : Bool) (d : Desc) (s : State) (u : State), u = s.senseSupplies vqps core ∧ s.commanded 0x51 d ∧ d.reservedSet
      (commandLayout [0x1FF]) = false ∧ u.otpWindow = false) ∧
    (∃ (vqps : Bool) (core : Bool) (d : Desc) (s : State) (u : State), u = s.senseSupplies vqps core ∧ s.commanded 0x51 d ∧ d.reservedSet
      (commandLayout [0x1FF]) = false ∧ u.otpWindow = true ∧ s.mpMay 1 = false) ∧
    (∃ (vqps : Bool) (core : Bool) (d : Desc) (s : State) (u : State), u = s.senseSupplies vqps core ∧ s.commanded 0x51 d ∧ d.reservedSet
      (commandLayout [0x1FF]) = false ∧ u.otpWindow = true ∧ s.mpMay 1 = true ∧ bitOf (dwAt d.dw 2) 8 = false) ∧
    (∃ (vqps : Bool) (core : Bool) (d : Desc) (s : State) (u : State), u = s.senseSupplies vqps core ∧ s.commanded 0x51 d ∧ d.reservedSet
      (commandLayout [0x1FF]) = false ∧ u.otpWindow = true ∧ s.mpMay 1 = true ∧ bitOf (dwAt d.dw 2) 8 = true ∧ s.otp.prog = none) ∧
    (∃ (vqps : Bool) (core : Bool) (d : Desc) (s : State) (u : State), u = s.senseSupplies vqps core ∧ s.commanded 0x51 d ∧ d.reservedSet
      (commandLayout [0x1FF]) = false ∧ u.otpWindow = true ∧ s.mpMay 1 = true ∧ bitOf (dwAt d.dw 2) 8 = true ∧ s.otp.prog ≠ none) ∧
    (∃ (strict : BitVec 64) (lenient : BitVec 64) (x : OtpWord) (c : MpCmd) (a : Nat) (r : Nat) (done : Nat) (rest : List Nat) (s : State)
      (v : State), (s.hf.active = false ∧ s.otp.prog = some x ∧ x.ended = none ∧ x.mp = true ∧ s.on Fld.PF_SCAN_STAT_BUSY = false ∧
      s.mp.cmd = some c ∧ s.mp.running = true) ∧ c.desc.index < orphanMark ∧ s.cqRoom ∧ s.verifyWord x strict.toNat lenient.toNat = (r, v)
      ∧ v.host.cqQueue = s.host.cqQueue ∧ c.desc.opcode = 0x50 ∧ r = 2) ∧
    (∃ (strict : BitVec 64) (lenient : BitVec 64) (x : OtpWord) (c : MpCmd) (a : Nat) (r : Nat) (done : Nat) (rest : List Nat) (s : State)
      (v : State), (s.hf.active = false ∧ s.otp.prog = some x ∧ x.ended = none ∧ x.mp = true ∧ s.on Fld.PF_SCAN_STAT_BUSY = false ∧
      s.mp.cmd = some c ∧ s.mp.running = true) ∧ c.desc.index < orphanMark ∧ s.cqRoom ∧ s.verifyWord x strict.toNat lenient.toNat = (r, v)
      ∧ v.host.cqQueue = s.host.cqQueue ∧ c.desc.opcode = 0x50 ∧ r = 4) ∧
    (∃ (strict : BitVec 64) (lenient : BitVec 64) (x : OtpWord) (c : MpCmd) (a : Nat) (r : Nat) (done : Nat) (rest : List Nat) (s : State)
      (v : State), (s.hf.active = false ∧ s.otp.prog = some x ∧ x.ended = none ∧ x.mp = true ∧ s.on Fld.PF_SCAN_STAT_BUSY = false ∧
      s.mp.cmd = some c ∧ s.mp.running = true) ∧ (c.desc.index < orphanMark ∧ s.cqRoom ∧ s.verifyWord x strict.toNat lenient.toNat = (r, v)
      ∧ v.host.cqQueue = s.host.cqQueue ∧ c.desc.opcode = 0x50 ∧ r < 2 ∧ c.left.length ≤ 1) ∧ done = c.done + (if r = 1 then 65537 else 1))
      ∧
    (∃ (strict : BitVec 64) (lenient : BitVec 64) (x : OtpWord) (c : MpCmd) (a : Nat) (r : Nat) (done : Nat) (rest : List Nat) (s : State)
      (v : State) (b : _), (s.hf.active = false ∧ s.otp.prog = some x ∧ x.ended = none ∧ x.mp = true ∧ s.on Fld.PF_SCAN_STAT_BUSY = false ∧
      s.mp.cmd = some c ∧ s.mp.running = true) ∧ (c.desc.index < orphanMark ∧ s.cqRoom ∧ s.verifyWord x strict.toNat lenient.toNat = (r, v)
      ∧ v.host.cqQueue = s.host.cqQueue ∧ c.desc.opcode = 0x50 ∧ r < 2 ∧ c.left = a :: b :: rest) ∧ done = c.done + (if r = 1 then 65537
      else 1) ∧ otpItemWord b < 0x1000 ∧ v.wordRefused (otpItemWord b) (otpItemData b) = none ∧ otpItemWord b ≠ 0x3EF) ∧
    (∃ (strict : BitVec 64) (lenient : BitVec 64) (x : OtpWord) (c : MpCmd) (a : Nat) (r : Nat) (done : Nat) (rest : List Nat) (s : State)
      (v : State) (b : _), (s.hf.active = false ∧ s.otp.prog = some x ∧ x.ended = none ∧ x.mp = true ∧ s.on Fld.PF_SCAN_STAT_BUSY = false ∧
      s.mp.cmd = some c ∧ s.mp.running = true) ∧ (c.desc.index < orphanMark ∧ s.cqRoom ∧ s.verifyWord x strict.toNat lenient.toNat = (r, v)
      ∧ v.host.cqQueue = s.host.cqQueue ∧ c.desc.opcode = 0x50 ∧ r < 2 ∧ c.left = a :: b :: rest) ∧ done = c.done + (if r = 1 then 65537
      else 1) ∧ otpItemWord b < 0x1000 ∧ v.wordRefused (otpItemWord b) (otpItemData b) = some 4 ∧ otpItemWord b ≠ 0x3EF) ∧
    (∃ (strict : BitVec 64) (lenient : BitVec 64) (x : OtpWord) (c : MpCmd) (a : Nat) (r : Nat) (done : Nat) (rest : List Nat) (s : State)
      (v : State), (s.hf.active = false ∧ s.otp.prog = some x ∧ x.ended = none ∧ x.mp = true ∧ s.on Fld.PF_SCAN_STAT_BUSY = false ∧
      s.mp.cmd = some c ∧ s.mp.running = true) ∧ c.desc.index < orphanMark ∧ s.cqRoom ∧ s.verifyWord x strict.toNat lenient.toNat = (r, v)
      ∧ v.host.cqQueue = s.host.cqQueue ∧ c.desc.opcode = 0x51 ∧ v.permLocks &&& c.desc.fld 2 7 0 = c.desc.fld 2 7 0) ∧
    (∃ (strict : BitVec 64) (lenient : BitVec 64) (x : OtpWord) (c : MpCmd) (a : Nat) (r : Nat) (done : Nat) (rest : List Nat) (s : State)
      (v : State), (s.hf.active = false ∧ s.otp.prog = some x ∧ x.ended = none ∧ x.mp = true ∧ s.on Fld.PF_SCAN_STAT_BUSY = false ∧
      s.mp.cmd = some c ∧ s.mp.running = true) ∧ c.desc.index < orphanMark ∧ s.cqRoom ∧ s.verifyWord x strict.toNat lenient.toNat = (r, v)
      ∧ v.host.cqQueue = s.host.cqQueue ∧ c.desc.opcode = 0x51 ∧ v.permLocks &&& c.desc.fld 2 7 0 ≠ c.desc.fld 2 7 0) ∧
    (∃ (src : HostRead) (c : MpCmd) (s : State), s.carries 0x60 c ∧ c.left = flashWorks ∧ s.mp.cmd = some c) ∧
    (∃ (src : HostRead) (c : MpCmd) (s : State), s.carries 0x60 c ∧ c.left = flashWorks ∧ s.mp.cmd = some c) ∧
    (∃ (src : HostRead) (c : MpCmd) (s : State), s.carries 0x60 c ∧ c.left = flashWorks ∧ s.mp.cmd = some c) ∧
    (∃ (src : HostRead) (flash : FlashAnswer) (c : MpCmd) (s : State), s.carries 0x60 c ∧ c.left = [] ∧ (c.desc.reservedSet (commandLayout
      [0x80FFFFFF, 0, 0xFFFFFFFF, 0xFFFFFFFF]) = true ∨ c.desc.fld 2 15 0 = 0 ∨ c.desc.fld 2 15 0 = 0xFFFF ∨ 236 < c.desc.fld 2 23 16)) ∧
    (∃ (src : HostRead) (flash : FlashAnswer) (c : MpCmd) (x : Fed) (key : Nat) (s : State) (v : State), (s.carries 0x60 c ∧ c.left = [] ∧
      c.desc.reservedSet (commandLayout [0x80FFFFFF, 0, 0xFFFFFFFF, 0xFFFFFFFF]) = false ∧ key = c.desc.fld 2 15 0 ∧ key ≠ 0 ∧ key ≠ 0xFFFF
      ∧ c.desc.fld 2 23 16 ≤ 236) ∧ s.feed (bitOf (dwAt c.desc.dw 2) 31) (c.desc.wide 4) (c.desc.fld 2 23 16) c.fed src = (x, v) ∧ v.mp =
      s.mp ∧ v.host.cqQueue = s.host.cqQueue ∧ v.cqRoom ∧ v.nor = s.nor ∧ x.state = .failed) ∧
    (∃ (src : HostRead) (flash : FlashAnswer) (c : MpCmd) (x : Fed) (key : Nat) (s : State) (v : State), (s.carries 0x60 c ∧ c.left = [] ∧
      c.desc.reservedSet (commandLayout [0x80FFFFFF, 0, 0xFFFFFFFF, 0xFFFFFFFF]) = false ∧ key = c.desc.fld 2 15 0 ∧ key ≠ 0 ∧ key ≠ 0xFFFF
      ∧ c.desc.fld 2 23 16 ≤ 236) ∧ s.feed (bitOf (dwAt c.desc.dw 2) 31) (c.desc.wide 4) (c.desc.fld 2 23 16) c.fed src = (x, v) ∧ v.mp =
      s.mp ∧ v.host.cqQueue = s.host.cqQueue ∧ v.cqRoom ∧ v.nor = s.nor ∧ x.state = .more) ∧
    (∃ (src : HostRead) (flash : FlashAnswer) (c : MpCmd) (x : Fed) (key : Nat) (s : State) (v : State), (s.carries 0x60 c ∧ c.left = [] ∧
      c.desc.reservedSet (commandLayout [0x80FFFFFF, 0, 0xFFFFFFFF, 0xFFFFFFFF]) = false ∧ key = c.desc.fld 2 15 0 ∧ key ≠ 0 ∧ key ≠ 0xFFFF
      ∧ c.desc.fld 2 23 16 ≤ 236) ∧ s.feed (bitOf (dwAt c.desc.dw 2) 31) (c.desc.wide 4) (c.desc.fld 2 23 16) c.fed src = (x, v) ∧ v.mp =
      s.mp ∧ v.host.cqQueue = s.host.cqQueue ∧ v.cqRoom ∧ v.nor = s.nor ∧ x.state = .whole ∧ v.mpMay 2 = false) ∧
    (∃ (src : HostRead) (flash : FlashAnswer) (c : MpCmd) (x : Fed) (key : Nat) (s : State) (v : State), (s.carries 0x60 c ∧ c.left = [] ∧
      c.desc.reservedSet (commandLayout [0x80FFFFFF, 0, 0xFFFFFFFF, 0xFFFFFFFF]) = false ∧ key = c.desc.fld 2 15 0 ∧ key ≠ 0 ∧ key ≠ 0xFFFF
      ∧ c.desc.fld 2 23 16 ≤ 236) ∧ (s.feed (bitOf (dwAt c.desc.dw 2) 31) (c.desc.wide 4) (c.desc.fld 2 23 16) c.fed src = (x, v) ∧ v.mp =
      s.mp ∧ v.host.cqQueue = s.host.cqQueue ∧ v.cqRoom ∧ v.nor = s.nor ∧ x.state = .whole ∧ v.mpMay 2 = true) ∧ v.norWindow = false) ∧
    (∃ (src : HostRead) (flash : FlashAnswer) (c : MpCmd) (x : Fed) (key : Nat) (s : State) (v : State), (s.carries 0x60 c ∧ c.left = [] ∧
      c.desc.reservedSet (commandLayout [0x80FFFFFF, 0, 0xFFFFFFFF, 0xFFFFFFFF]) = false ∧ key = c.desc.fld 2 15 0 ∧ key ≠ 0 ∧ key ≠ 0xFFFF
      ∧ c.desc.fld 2 23 16 ≤ 236) ∧ (s.feed (bitOf (dwAt c.desc.dw 2) 31) (c.desc.wide 4) (c.desc.fld 2 23 16) c.fed src = (x, v) ∧ v.mp =
      s.mp ∧ v.host.cqQueue = s.host.cqQueue ∧ v.cqRoom ∧ v.nor = s.nor ∧ x.state = .whole ∧ v.mpMay 2 = true) ∧ v.norWindow = true ∧ flash
      = .done) ∧
    (∃ (src : HostRead) (flash : FlashAnswer) (c : MpCmd) (x : Fed) (key : Nat) (s : State) (v : State), (s.carries 0x60 c ∧ c.left = [] ∧
      c.desc.reservedSet (commandLayout [0x80FFFFFF, 0, 0xFFFFFFFF, 0xFFFFFFFF]) = false ∧ key = c.desc.fld 2 15 0 ∧ key ≠ 0 ∧ key ≠ 0xFFFF
      ∧ c.desc.fld 2 23 16 ≤ 236) ∧ (s.feed (bitOf (dwAt c.desc.dw 2) 31) (c.desc.wide 4) (c.desc.fld 2 23 16) c.fed src = (x, v) ∧ v.mp =
      s.mp ∧ v.host.cqQueue = s.host.cqQueue ∧ v.cqRoom ∧ v.nor = s.nor ∧ x.state = .whole ∧ v.mpMay 2 = true) ∧ v.norWindow = true ∧ flash
      = .failed) ∧
    (∃ (src : HostRead) (flash : FlashAnswer) (c : MpCmd) (x : Fed) (key : Nat) (s : State) (v : State), (s.carries 0x60 c ∧ c.left = [] ∧
      c.desc.reservedSet (commandLayout [0x80FFFFFF, 0, 0xFFFFFFFF, 0xFFFFFFFF]) = false ∧ key = c.desc.fld 2 15 0 ∧ key ≠ 0 ∧ key ≠ 0xFFFF
      ∧ c.desc.fld 2 23 16 ≤ 236) ∧ (s.feed (bitOf (dwAt c.desc.dw 2) 31) (c.desc.wide 4) (c.desc.fld 2 23 16) c.fed src = (x, v) ∧ v.mp =
      s.mp ∧ v.host.cqQueue = s.host.cqQueue ∧ v.cqRoom ∧ v.nor = s.nor ∧ x.state = .whole ∧ v.mpMay 2 = true) ∧ v.norWindow = true ∧ flash
      = .busy) ∧
    (∃ (ok : Bool) (d : Desc) (s : State), s.commanded 0x61 d ∧ (d.reservedSet (commandLayout [0x8000FFFF, 0, 0xFFFFFFFF, 0xFFFFFFFF]) =
      true ∨ d.fld 2 15 0 = 0 ∨ d.fld 2 15 0 = 0xFFFF)) ∧
    (∃ (ok : Bool) (d : Desc) (s : State), s.commanded 0x61 d ∧ d.reservedSet (commandLayout [0x8000FFFF, 0, 0xFFFFFFFF, 0xFFFFFFFF]) =
      false ∧ d.fld 2 15 0 ≠ 0 ∧ d.fld 2 15 0 ≠ 0xFFFF ∧ s.settingIn s.settingsCopy (d.fld 2 15 0) = none) ∧
    (∃ (ok : Bool) (d : Desc) (s : State) (v : _), s.settingIn s.settingsCopy (d.fld 2 15 0) = some v ∧ s.commanded 0x61 d ∧ d.reservedSet
      (commandLayout [0x8000FFFF, 0, 0xFFFFFFFF, 0xFFFFFFFF]) = false ∧ d.fld 2 15 0 ≠ 0 ∧ d.fld 2 15 0 ≠ 0xFFFF ∧ bitOf (dwAt d.dw 2) 31 =
      false ∧ ok = true ∧ s.hostBus = true) ∧
    (∃ (ok : Bool) (d : Desc) (s : State) (v : _), s.settingIn s.settingsCopy (d.fld 2 15 0) = some v ∧ s.commanded 0x61 d ∧ d.reservedSet
      (commandLayout [0x8000FFFF, 0, 0xFFFFFFFF, 0xFFFFFFFF]) = false ∧ d.fld 2 15 0 ≠ 0 ∧ d.fld 2 15 0 ≠ 0xFFFF ∧ bitOf (dwAt d.dw 2) 31 =
      false ∧ (ok = false ∨ s.hostBus = false)) ∧
    (∃ (ok : Bool) (d : Desc) (s : State) (v : _), s.settingIn s.settingsCopy (d.fld 2 15 0) = some v ∧ s.commanded 0x61 d ∧ d.reservedSet
      (commandLayout [0x8000FFFF, 0, 0xFFFFFFFF, 0xFFFFFFFF]) = false ∧ d.fld 2 15 0 ≠ 0 ∧ d.fld 2 15 0 ≠ 0xFFFF ∧ bitOf (dwAt d.dw 2) 31 =
      true) :=
  ⟨⟨.service, 0x80000100, true, true, s479, ((s479).senseSupplies (true) (true)), reaches_of (by decide +kernel), rfl,
      by unfold State.calm; decide +kernel⟩,
   ⟨.service, 0x80000100, true, true, s480, ((s480).senseSupplies (true) (true)), reaches_of (by decide +kernel), rfl,
      by unfold State.calm; decide +kernel⟩,
   ⟨0x3F0, 5, s481, by decide +kernel⟩,
   ⟨0x065, 5, 4, s482, by decide +kernel⟩,
   ⟨0x061, 5, s482, by decide +kernel⟩,
   ⟨0x061, 5, 2, s481, by decide +kernel, by decide +kernel⟩,
   ⟨((⟨0x100, 9, true, false, none⟩ : OtpWord)), 9, 9, s481, by decide +kernel⟩,
   ⟨((⟨0x100, 9, true, false, none⟩ : OtpWord)), 1, 9, s481, by decide +kernel⟩,
   ⟨((⟨0x100, 9, false, false, none⟩ : OtpWord)), 1, 9, s483, by decide +kernel⟩,
   ⟨((⟨0x100, 9, false, false, none⟩ : OtpWord)), 1, 9, s481, 0, by decide +kernel, by decide +kernel⟩,
   ⟨((⟨0x100, 9, false, false, none⟩ : OtpWord)), 1, 9, s481, 0, by decide +kernel, by decide +kernel⟩,
   ⟨((⟨0x100, 9, false, false, none⟩ : OtpWord)), 1, 9, s481, 0, by decide +kernel, by decide +kernel⟩,
   ⟨((⟨0x100, 9, true, false, none⟩ : OtpWord)), 1, 9, s481, by decide +kernel⟩,
   ⟨((⟨0x100, 9, false, false, none⟩ : OtpWord)), 9, 9, s481, by decide +kernel⟩,
   ⟨9, 9, ((⟨0x100, 9, false, false, none⟩ : OtpWord)), 0, s484, s485, by decide +kernel⟩,
   ⟨1, 9, ((⟨0x100, 9, false, true, none⟩ : OtpWord)), 1, s486, s487, by decide +kernel⟩,
   ⟨0, 0, on, by decide +kernel⟩,
   ⟨0, 0, s488, ((⟨0x100, 9, false, false, none⟩ : OtpWord)), by decide +kernel⟩,
   ⟨true, s489, by decide +kernel⟩,
   ⟨false, s489, by decide +kernel⟩,
   ⟨.service, 0x80000000, on, reaches_of (by decide +kernel), by unfold State.calm; decide +kernel⟩,
   ⟨on, by decide +kernel⟩,
   ⟨s490, by decide +kernel⟩,
   ⟨.service, 0x80, s491, reaches_of (by decide +kernel), by unfold State.calm; decide +kernel⟩,
   ⟨⟨List.replicate 16 3, false⟩, .done, true, true, true, on, by unfold State.calm; decide +kernel⟩,
   ⟨⟨List.replicate 16 3, false⟩, .done, true, true, true, on, by unfold State.calm; decide +kernel⟩,
   ⟨⟨List.replicate 16 3, false⟩, .done, true, true, true, on, by unfold State.calm; decide +kernel⟩,
   ⟨⟨List.replicate 16 3, false⟩, .done, true, true, true, on, by unfold State.calm; decide +kernel⟩,
   ⟨⟨List.replicate 16 3, false⟩, true, true, ⟨⟨15, [0x80000050, 7, 0x100, 0, 0x1000, 0]⟩, 0, [], [], none⟩, s492, ((s492).senseSupplies
      (true) (true)), rfl, by unfold State.carries State.calm State.cqRoom; decide +kernel⟩,
   ⟨⟨[1], true⟩, true, true, ⟨⟨15, [0x80000050, 7, 0x100, 2, 0x1000, 0]⟩, 0, [], [], none⟩, (((b139.senseSupplies true true).feed false
      0x1000 16 [] ⟨[1], true⟩).1), ((otpAddrs ⟨15, [0x80000050, 7, 0x100, 2, 0x1000, 0]⟩).zipIdx.map (fun w => otpItem w.1 (leNat (sliceOf
      ((b139.senseSupplies true true).feed false 0x1000 16 [] ⟨[1], true⟩).1.bytes (8 * w.2) 8)))), s494, ((s494).senseSupplies (true)
      (true)), s493, rfl, by unfold State.carries State.calm State.cqRoom; decide +kernel, by unfold State.cqRoom; decide +kernel⟩,
   ⟨⟨[1], false⟩, true, true, ⟨⟨15, [0x80000050, 7, 0x100, 2, 0x1000, 0]⟩, 0, [], [], none⟩, (((b139.senseSupplies true true).feed false
      0x1000 16 [] ⟨[1], false⟩).1), ((otpAddrs ⟨15, [0x80000050, 7, 0x100, 2, 0x1000, 0]⟩).zipIdx.map (fun w => otpItem w.1 (leNat
      (sliceOf ((b139.senseSupplies true true).feed false 0x1000 16 [] ⟨[1], false⟩).1.bytes (8 * w.2) 8)))), s494, ((s494).senseSupplies
      (true) (true)), s495, rfl, by unfold State.carries State.calm State.cqRoom; decide +kernel, by unfold State.cqRoom; decide +kernel⟩,
   ⟨⟨[4, 0, 0, 0, 0, 0, 0, 0, 1, 0, 0, 0, 0, 0, 0, 0], false⟩, true, true, ⟨⟨15, [0x80000050, 7, 0x061, 2, 0x1000, 0]⟩, 0, [], [], none⟩,
      (((b140.senseSupplies true true).feed false 0x1000 16 [] ⟨[4, 0, 0, 0, 0, 0, 0, 0, 1, 0, 0, 0, 0, 0, 0, 0], false⟩).1), ((otpAddrs
      ⟨15, [0x80000050, 7, 0x061, 2, 0x1000, 0]⟩).zipIdx.map (fun w => otpItem w.1 (leNat (sliceOf ((b140.senseSupplies true true).feed
      false 0x1000 16 [] ⟨[4, 0, 0, 0, 0, 0, 0, 0, 1, 0, 0, 0, 0, 0, 0, 0], false⟩).1.bytes (8 * w.2) 8)))), s497, ((s497).senseSupplies
      (true) (true)), s496, rfl, by unfold State.carries State.calm State.cqRoom; decide +kernel, by unfold State.cqRoom; decide +kernel⟩,
   ⟨⟨List.replicate 16 3, false⟩, true, true, ⟨⟨15, [0x80000050, 7, 0x400001FF, 2, 0x1000, 0]⟩, 0, [], [], none⟩, (((b141.senseSupplies
      true true).feed false 0x1000 16 [] ⟨List.replicate 16 3, false⟩).1), ((otpAddrs ⟨15, [0x80000050, 7, 0x400001FF, 2, 0x1000,
      0]⟩).zipIdx.map (fun w => otpItem w.1 (leNat (sliceOf ((b141.senseSupplies true true).feed false 0x1000 16 [] ⟨List.replicate 16 3,
      false⟩).1.bytes (8 * w.2) 8)))), s499, ((s499).senseSupplies (true) (true)), s498, rfl,
      by unfold State.carries State.calm State.cqRoom; decide +kernel, by unfold State.cqRoom; decide +kernel⟩,
   ⟨⟨List.replicate 16 3, false⟩, false, true, ⟨⟨15, [0x80000050, 7, 0x100, 2, 0x1000, 0]⟩, 0, [], [], none⟩, (((b139.senseSupplies false
      true).feed false 0x1000 16 [] ⟨List.replicate 16 3, false⟩).1), ((otpAddrs ⟨15, [0x80000050, 7, 0x100, 2, 0x1000, 0]⟩).zipIdx.map
      (fun w => otpItem w.1 (leNat (sliceOf ((b139.senseSupplies false true).feed false 0x1000 16 [] ⟨List.replicate 16 3, false⟩).1.bytes
      (8 * w.2) 8)))), s494, ((s494).senseSupplies (false) (true)), s500, rfl,
      by unfold State.carries State.calm State.cqRoom; decide +kernel, by unfold State.cqRoom; decide +kernel⟩,
   ⟨⟨List.replicate 16 3, false⟩, true, true, ⟨⟨15, [0x80000050, 7, 0x100, 2, 0x1000, 0]⟩, 0, [], [], none⟩, (((b142.senseSupplies true
      true).feed false 0x1000 16 [] ⟨List.replicate 16 3, false⟩).1), ((otpAddrs ⟨15, [0x80000050, 7, 0x100, 2, 0x1000, 0]⟩).zipIdx.map
      (fun w => otpItem w.1 (leNat (sliceOf ((b142.senseSupplies true true).feed false 0x1000 16 [] ⟨List.replicate 16 3, false⟩).1.bytes
      (8 * w.2) 8)))), s502, ((s502).senseSupplies (true) (true)), s501, rfl,
      by unfold State.carries State.calm State.cqRoom; decide +kernel, by unfold State.cqRoom; decide +kernel, by decide +kernel⟩,
   ⟨⟨List.replicate 16 3, false⟩, true, true, ⟨⟨15, [0x80000050, 7, 0x100, 2, 0x1000, 0]⟩, 0, [], [], none⟩, (((b139.senseSupplies true
      true).feed false 0x1000 16 [] ⟨List.replicate 16 3, false⟩).1), ((otpAddrs ⟨15, [0x80000050, 7, 0x100, 2, 0x1000, 0]⟩).zipIdx.map
      (fun w => otpItem w.1 (leNat (sliceOf ((b139.senseSupplies true true).feed false 0x1000 16 [] ⟨List.replicate 16 3, false⟩).1.bytes
      (8 * w.2) 8)))), s494, ((s494).senseSupplies (true) (true)), s503, rfl,
      by unfold State.carries State.calm State.cqRoom; decide +kernel, by unfold State.cqRoom; decide +kernel, by decide +kernel⟩,
   ⟨⟨List.replicate 16 3, false⟩, true, true, ⟨⟨15, [0x80000050, 7, 0x100, 2, 0x1000, 0]⟩, 0, [], [], none⟩, (((b143.senseSupplies true
      true).feed false 0x1000 16 [] ⟨List.replicate 16 3, false⟩).1), ((otpAddrs ⟨15, [0x80000050, 7, 0x100, 2, 0x1000, 0]⟩).zipIdx.map
      (fun w => otpItem w.1 (leNat (sliceOf ((b143.senseSupplies true true).feed false 0x1000 16 [] ⟨List.replicate 16 3, false⟩).1.bytes
      (8 * w.2) 8)))), s505, ((s505).senseSupplies (true) (true)), s504, rfl,
      by unfold State.carries State.calm State.cqRoom; decide +kernel, by unfold State.cqRoom; decide +kernel, by decide +kernel⟩,
   ⟨true, true, ⟨15, [0x80000051, 7, 0x2C0]⟩, s506, ((s506).senseSupplies (true) (true)), rfl,
      by unfold State.commanded State.calm State.cqRoom; decide +kernel⟩,
   ⟨false, true, ⟨15, [0x80000051, 7, 0x0C0]⟩, s507, ((s507).senseSupplies (false) (true)), rfl,
      by unfold State.commanded State.calm State.cqRoom; decide +kernel⟩,
   ⟨true, true, ⟨15, [0x80000051, 7, 0x0C0]⟩, s508, ((s508).senseSupplies (true) (true)), rfl,
      by unfold State.commanded State.calm State.cqRoom; decide +kernel⟩,
   ⟨true, true, ⟨15, [0x80000051, 7, 0x0C0]⟩, s507, ((s507).senseSupplies (true) (true)), rfl,
      by unfold State.commanded State.calm State.cqRoom; decide +kernel⟩,
   ⟨true, true, ⟨15, [0x80000051, 7, 0x1C0]⟩, s509, ((s509).senseSupplies (true) (true)), rfl,
      by unfold State.commanded State.calm State.cqRoom; decide +kernel⟩,
   ⟨true, true, ⟨15, [0x80000051, 7, 0x1C0]⟩, s510, ((s510).senseSupplies (true) (true)), rfl,
      by unfold State.commanded State.calm State.cqRoom; decide +kernel⟩,
   ⟨1, 9, ((⟨0x100, 9, false, true, none⟩ : OtpWord)), ((⟨⟨15, [0x80000050, 7, 0x100, 2, 0x1000, 0]⟩, 5, [0], [], some 1⟩ : MpCmd)), 0, 2,
      5, [], s511, s512, by decide +kernel, by unfold State.cqRoom; decide +kernel⟩,
   ⟨1, 9, ((⟨0x100, 9, true, true, none⟩ : OtpWord)), ((⟨⟨15, [0x80000050, 7, 0x100, 2, 0x1000, 0]⟩, 5, [0], [], some 1⟩ : MpCmd)), 0, 4,
      5, [], s513, s514, by decide +kernel, by unfold State.cqRoom; decide +kernel⟩,
   ⟨9, 9, ((⟨0x100, 9, false, true, none⟩ : OtpWord)), ((⟨⟨15, [0x80000050, 7, 0x100, 2, 0x1000, 0]⟩, 5, [0], [], some 1⟩ : MpCmd)), 0, 0,
      6, [], s515, s516, by decide +kernel, by unfold State.cqRoom; decide +kernel, by decide +kernel⟩,
   ⟨9, 9, ((⟨0x100, 9, false, true, none⟩ : OtpWord)), ((⟨⟨15, [0x80000050, 7, 0x100, 2, 0x1000, 0]⟩, 5, [0, 0x101 * 2 ^ 64 + 7], [], some
      1⟩ : MpCmd)), 0, 0, 6, [], s517, s518, (0x101 * 2 ^ 64 + 7), by decide +kernel, by unfold State.cqRoom; decide +kernel,
      by decide +kernel⟩,
   ⟨9, 9, ((⟨0x100, 9, false, true, none⟩ : OtpWord)), ((⟨⟨15, [0x80000050, 7, 0x100, 2, 0x1000, 0]⟩, 5, [0, 0x101 * 2 ^ 64 + 7], [], some
      1⟩ : MpCmd)), 0, 0, 6, [], s519, s520, (0x101 * 2 ^ 64 + 7), by decide +kernel, by unfold State.cqRoom; decide +kernel,
      by decide +kernel⟩,
   ⟨0x10101, 9, ((⟨0x3EF, 0x010101, false, true, none⟩ : OtpWord)), ((⟨⟨15, [0x80000051, 7, 0x101]⟩, 0, [0], [], some 1⟩ : MpCmd)), 0, 0,
      5, [], s521, s522, by decide +kernel, by unfold State.cqRoom; decide +kernel⟩,
   ⟨0, 9, ((⟨0x3EF, 0x020202, false, true, none⟩ : OtpWord)), ((⟨⟨15, [0x80000051, 7, 0x102]⟩, 0, [0], [], some 1⟩ : MpCmd)), 0, 2, 5, [],
      s523, s524, by decide +kernel, by unfold State.cqRoom; decide +kernel⟩,
   ⟨⟨[], false⟩, ((⟨⟨15, [0x80000060, 7, 0x00020123, 0, 0x1000, 0]⟩, 0, flashWorks, [1, 2], some 2⟩ : MpCmd)), s525,
      by unfold State.carries State.calm State.cqRoom; decide +kernel⟩,
   ⟨⟨[], false⟩, ((⟨⟨15, [0x80000060, 7, 0x00020123, 0, 0x1000, 0]⟩, 0, flashWorks, [1, 2], some 2⟩ : MpCmd)), s525,
      by unfold State.carries State.calm State.cqRoom; decide +kernel⟩,
   ⟨⟨[], false⟩, ((⟨⟨15, [0x80000060, 7, 0x00020123, 0, 0x1000, 0]⟩, 0, flashWorks, [1, 2], some 2⟩ : MpCmd)), s525,
      by unfold State.carries State.calm State.cqRoom; decide +kernel⟩,
   ⟨⟨[1, 2], false⟩, .done, ⟨⟨15, [0x80000060, 7, 0x00ED0123, 0, 0x1000, 0]⟩, 0, [], [], none⟩, s526,
      by unfold State.carries State.calm State.cqRoom; decide +kernel⟩,
   ⟨⟨[1], true⟩, .done, ⟨⟨15, [0x80000060, 7, 0x00020123, 0, 0x1000, 0]⟩, 0, [], [], none⟩, ((b155.feed false 0x1000 2 [] ⟨[1], true⟩).1),
      0x123, s528, s527, by unfold State.carries State.calm State.cqRoom; decide +kernel, by unfold State.cqRoom; decide +kernel⟩,
   ⟨⟨[1], false⟩, .done, ⟨⟨15, [0x80000060, 7, 0x00020123, 0, 0x1000, 0]⟩, 0, [], [], none⟩, ((b155.feed false 0x1000 2 [] ⟨[1],
      false⟩).1), 0x123, s528, s529, by unfold State.carries State.calm State.cqRoom; decide +kernel,
      by unfold State.cqRoom; decide +kernel⟩,
   ⟨⟨[1, 2], false⟩, .done, ⟨⟨15, [0x80000060, 7, 0x00020123, 0, 0x1000, 0]⟩, 0, [], [], none⟩, ((b156.feed false 0x1000 2 [] ⟨[1, 2],
      false⟩).1), 0x123, s531, s530, by unfold State.carries State.calm State.cqRoom; decide +kernel,
      by unfold State.cqRoom; decide +kernel⟩,
   ⟨⟨[1, 2], false⟩, .done, ⟨⟨15, [0x80000060, 7, 0x00020123, 0, 0x1000, 0]⟩, 0, [], [], none⟩, ((b157.feed false 0x1000 2 [] ⟨[1, 2],
      false⟩).1), 0x123, s533, s532, by unfold State.carries State.calm State.cqRoom; decide +kernel,
      by unfold State.cqRoom; decide +kernel, by decide +kernel⟩,
   ⟨⟨[1, 2], false⟩, .done, ⟨⟨15, [0x80000060, 7, 0x00020123, 0, 0x1000, 0]⟩, 0, [], [], none⟩, ((b155.feed false 0x1000 2 [] ⟨[1, 2],
      false⟩).1), 0x123, s528, s534, by unfold State.carries State.calm State.cqRoom; decide +kernel,
      by unfold State.cqRoom; decide +kernel, by decide +kernel⟩,
   ⟨⟨[1, 2], false⟩, .failed, ⟨⟨15, [0x80000060, 7, 0x00020123, 0, 0x1000, 0]⟩, 0, [], [], none⟩, ((b155.feed false 0x1000 2 [] ⟨[1, 2],
      false⟩).1), 0x123, s528, s534, by unfold State.carries State.calm State.cqRoom; decide +kernel,
      by unfold State.cqRoom; decide +kernel, by decide +kernel⟩,
   ⟨⟨[1, 2], false⟩, .busy, ⟨⟨15, [0x80000060, 7, 0x00020123, 0, 0x1000, 0]⟩, 0, [], [], none⟩, ((b155.feed false 0x1000 2 [] ⟨[1, 2],
      false⟩).1), 0x123, s528, s534, by unfold State.carries State.calm State.cqRoom; decide +kernel,
      by unfold State.cqRoom; decide +kernel, by decide +kernel⟩,
   ⟨true, ⟨15, [0x80000061, 7, 0, 0, 0x1000, 0]⟩, s535, by unfold State.commanded State.calm State.cqRoom; decide +kernel⟩,
   ⟨true, ⟨15, [0x80000061, 7, 0x123, 0, 0x1000, 0]⟩, s536, by unfold State.commanded State.calm State.cqRoom; decide +kernel⟩,
   ⟨true, ⟨15, [0x80000061, 7, 0x123, 0, 0x1000, 0]⟩, s537, [1, 2], setting_of_keys (by decide +kernel) (by decide +kernel),
      by unfold State.commanded State.calm State.cqRoom; decide +kernel⟩,
   ⟨false, ⟨15, [0x80000061, 7, 0x123, 0, 0x1000, 0]⟩, s537, [1, 2], setting_of_keys (by decide +kernel) (by decide +kernel),
      by unfold State.commanded State.calm State.cqRoom; decide +kernel⟩,
   ⟨false, ⟨15, [0x80000061, 7, 0x80000123, 0, 0x1000, 0]⟩, s538, [1, 2], setting_of_keys (by decide +kernel) (by decide +kernel),
      by unfold State.commanded State.calm State.cqRoom; decide +kernel⟩⟩

theorem witness_LoaderCommands :
    (∃ (op : Fin 9) (q : LoaderReq) (ok : Bool) (vqps : Bool) (core : Bool) (outs : List Pulsed) (s : State), s.calm ∧ 1 ≤ op.val ∧ op.val
      ≠ 5 ∧ (2 ≤ op.val ∧ op.val ≤ 6 → s.dueErase = s) ∧ s.takeReq op q = none) ∧
    (∃ (op : Fin 9) (q : LoaderReq) (ok : Bool) (vqps : Bool) (core : Bool) (outs : List Pulsed) (s : State), s.calm ∧ 1 ≤ op.val ∧
      s.dueErase = s ∧ s.takeReq 5 q = none) ∧
    (∃ (op : Fin 9) (q : LoaderReq) (ok : Bool) (vqps : Bool) (core : Bool) (outs : List Pulsed) (s : State), s.calm ∧ 1 ≤ op.val ∧ 2 ≤
      op.val ∧ op.val ≤ 6) ∧
    (∃ (op : Fin 9) (q : LoaderReq) (ok : Bool) (vqps : Bool) (core : Bool) (outs : List Pulsed) (r : Req) (s : State) (u : State), s.calm
      ∧ 1 ≤ op.val ∧ op.val ≠ 5 ∧ (2 ≤ op.val ∧ op.val ≤ 6 → s.dueErase = s) ∧ s.takeReq op q = some (r, u) ∧ bodyFits op r.body.length =
      false) ∧
    (∃ (op : Fin 9) (q : LoaderReq) (ok : Bool) (vqps : Bool) (core : Bool) (outs : List Pulsed) (r : Req) (s : State) (u : State), op.val
      ∈ [2, 3, 4, 6, 7, 8] ∧ s.requested op q r u ∧ (op.val = 8 → r.session ≠ 0) ∧ (u.svc.session.all (fun x => decide (x.src ≠ r.src ∨
      x.num ≠ r.session)) = true)) ∧
    (∃ (q : LoaderReq) (ok : Bool) (r : Req) (s : State) (u : State), s.calm ∧ s.dueErase = s ∧ s.takeReq 5 q = some (r, u) ∧ bodyFits 5
      r.body.length = false) ∧
    (∃ (q : LoaderReq) (ok : Bool) (r : Req) (s : State) (u : State), s.calm ∧ s.dueErase = s ∧ s.takeReq 5 q = some (r, u) ∧ bodyFits 5
      r.body.length = true ∧ (u.svc.session.all (fun x => decide (x.src ≠ r.src ∨ x.num ≠ r.session)) = true)) ∧
    (∃ (op : Fin 9) (q : LoaderReq) (ok : Bool) (vqps : Bool) (core : Bool) (outs : List Pulsed) (r : Req) (x : Session) (s : State) (u :
      State), s.requested op q r u ∧ u.session r x ∧ (op.val = 2 ∧ x.phase ≠ 1 ∨ op.val = 4 ∧ x.phase ≠ 1 ∧ (x.phase ≠ 2 ∨ x.next * 4096 ≠
      hdrPayload x.header))) ∧
    (∃ (op : Fin 9) (q : LoaderReq) (ok : Bool) (vqps : Bool) (core : Bool) (outs : List Pulsed) (r : Req) (x : Session) (s : State) (u :
      State), s.requested op q r u ∧ u.session r x ∧ op.val = 3 ∧ x.phase ≠ 2) ∧
    (∃ (op : Fin 9) (q : LoaderReq) (ok : Bool) (vqps : Bool) (core : Bool) (outs : List Pulsed) (r : Req) (x : Session) (s : State) (u :
      State), s.requested op q r u ∧ u.session r x ∧ op.val = 6 ∧ x.phase ≠ 1) ∧
    (∃ (op : Fin 9) (q : LoaderReq) (ok : Bool) (vqps : Bool) (core : Bool) (outs : List Pulsed) (r : Req) (x : Session) (s : State) (u :
      State), s.requested op q r u ∧ u.session r x ∧ op.val = 5 ∧ x.phase ≠ 3) ∧
    (∃ (q : LoaderReq) (r : Req) (s : State) (u : State), s.requested 1 q r u ∧ (u.svc.session.any (fun x => decide (x.src ≠ r.src)) = true
      ∨ u.mpMay 2 = false)) ∧
    (∃ (q : LoaderReq) (r : Req) (s : State) (u : State), s.requested 1 q r u ∧ u.svc.session.all (fun x => decide (x.src = r.src)) = true
      ∧ u.mpMay 2 = true ∧ r.session = 0) ∧
    (∃ (q : LoaderReq) (r : Req) (s : State) (u : State), s.requested 1 q r u ∧ u.svc.session.all (fun x => decide (x.src = r.src)) = true
      ∧ u.mpMay 2 = true ∧ r.session ≠ 0 ∧ u.domOn .host = true ∧ (∀ x, u.svc.session = some x → x.phase ≠ 3)) ∧
    (∃ (q : LoaderReq) (r : Req) (s : State) (u : State), s.requested 8 q r u ∧ (r.session = 0 ∨ u.svc.session.any (fun x => decide (x.src
      = r.src ∧ x.num = r.session)) = true) ∧ r.session = 0) ∧
    (∃ (q : LoaderReq) (r : Req) (s : State) (u : State), s.requested 8 q r u ∧ (r.session = 0 ∨ u.svc.session.any (fun x => decide (x.src
      = r.src ∧ x.num = r.session)) = true) ∧ r.session ≠ 0) ∧
    (∃ (x : Session) (a : Nat) (s : State), s.svc.session = some x ∧ a = s.otherSlot) ∧
    (∃ (x : Session) (a : Nat) (s : State), s.svc.session = some x ∧ a = s.otherSlot ∧ x.phase ≠ 3) ∧
    (∃ (x : Session) (a : Nat) (s : State), s.svc.session = some x ∧ a = s.otherSlot ∧ x.phase = 3 ∧ s.warned = false) ∧
    (∃ (x : Session) (a : Nat) (s : State), s.svc.session = some x ∧ a = s.otherSlot ∧ x.phase = 3 ∧ s.warned = true) ∧
    (∃ (x : Session) (a : Nat) (s : State), s.svc.session = some x ∧ a = s.otherSlot ∧ x.phase = 3 ∧ s.warned = true) ∧
    (∃ (x : Session) (a : Nat) (s : State), s.svc.session = some x ∧ a = s.otherSlot ∧ x.phase = 3 ∧ s.warned = true) ∧
    (∃ (x : Session) (a : Nat) (s : State), s.svc.session = some x ∧ a = s.otherSlot ∧ s.mp.cmd.all (fun c => decide (c.token ≠ some 2)) =
      true ∧ s.holder 2 = 2) ∧
    (∃ (x : Session) (a : Nat) (s : State) (n : Fin 32), s.svc.session = some x ∧ a = s.otherSlot ∧ n.val ≠ 2) ∧
    (∃ (q : LoaderReq) (r : Req) (x : Session) (v : State) (s : State) (u : State), s.requested 7 q r u ∧ u.session r x ∧ v = (u.onSvc (fun
      y => { y with session := some { x with last := u.tb.toNat } })).endSession) ∧
    (∃ (s : State) (x : _), s.calm ∧ s.loaderRuns = true ∧ s.svc.session = some x ∧ x.last + 240000000000 ≤ s.tb.toNat) ∧
    (∃ (s : State), s.calm ∧ (s.loaderRuns = false ∨ s.svc.session.all (fun x => decide (s.tb.toNat < x.last + 240000000000)) = true)) ∧
    (∃ (s : State), s.calm ∧ s.domOn .service = false) ∧
    (∃ (s : State), s.calm ∧ s.domOn .service = true) ∧
    (∃ (bytes : List Byte) (l : List Nat) (s : State), s.calm ∧ l = (s.usbSeen.fillBytes ((bytes.map (fun b => b.toNat)).take 16) 16).1 ∧ s.loaderRuns = true ∧ s.domOn .service = true ∧ (match parseFrame (bytes.map (fun b => b.toNat)) with | .frame _ _ _ _ rest => rest | _ => [0]) ≠ []) ∧
    (∃ (bytes : List Byte) (l : List Nat) (s : State), s.calm ∧ l = (s.usbSeen.fillBytes ((bytes.map (fun b => b.toNat)).take 16) 16).1 ∧ (s.loaderRuns = false ∨ s.domOn .service = false ∨ (match parseFrame (bytes.map (fun b => b.toNat)) with | .frame _ _ _ _ rest => rest | _ => [0]) = [])) ∧
    (∃ (st : Fin 64) (num : Byte) (s : State) (x : _), s.calm ∧ s.loaderRuns = true ∧ s.findTunnel st num.toNat = some x ∧ parseFrame
      x.stream = .bad) ∧
    (∃ (st : Fin 64) (num : Byte) (s : State) (x : _), s.calm ∧ s.findTunnel st num.toNat = some x ∧ (s.loaderRuns = false ∨ parseFrame
      x.stream ≠ .bad)) ∧
    (∃ (st : Fin 64) (num : Byte) (s : State), s.calm ∧ s.findTunnel st num.toNat = none) ∧
    (∃ (q : LoaderReq) (ok : Bool) (r : Req) (x : Session) (s : State) (u : State), s.requested 2 q r u ∧ u.session r x ∧ x.phase = 1 ∧
      u.norWindow = false) ∧
    (∃ (q : LoaderReq) (ok : Bool) (r : Req) (x : Session) (s : State) (u : State) (c : _), s.requested 2 q r u ∧ u.session r x ∧ x.phase =
      1 ∧ u.norWindow = true ∧ u.headerRefusal r.body = some c) ∧
    (∃ (q : LoaderReq) (ok : Bool) (r : Req) (x : Session) (s : State) (u : State), u.headerRefusal r.body = none ∧ s.requested 2 q r u ∧
      u.session r x ∧ x.phase = 1 ∧ u.norWindow = true ∧ ok = true) ∧
    (∃ (q : LoaderReq) (ok : Bool) (r : Req) (x : Session) (s : State) (u : State), u.headerRefusal r.body = none ∧ s.requested 2 q r u ∧
      u.session r x ∧ x.phase = 1 ∧ u.norWindow = true ∧ ok = false) ∧
    (∃ (q : LoaderReq) (ok : Bool) (r : Req) (x : Session) (i : Nat) (e : List Nat) (s : State) (u : State), s.requested 3 q r u ∧
      r.body.length = 4100 ∧ u.session r x ∧ x.phase = 2 ∧ i = leNat (r.body.take 4) ∧ e = (if x.erased.contains (i / 16) then x.erased
      else x.erased ++ [i / 16]) ∧ x.lastIx = some i) ∧
    (∃ (q : LoaderReq) (ok : Bool) (r : Req) (x : Session) (i : Nat) (e : List Nat) (s : State) (u : State), s.requested 3 q r u ∧
      u.session r x ∧ x.phase = 2 ∧ i = leNat (r.body.take 4) ∧ e = (if x.erased.contains (i / 16) then x.erased else x.erased ++ [i / 16])
      ∧ (r.body.length ≠ 4100 ∨ (x.lastIx ≠ some i ∧ (i ≠ x.next ∨ hdrPayload x.header / 4096 ≤ i)))) ∧
    (∃ (q : LoaderReq) (ok : Bool) (r : Req) (x : Session) (i : Nat) (e : List Nat) (s : State) (u : State), s.requested 3 q r u ∧
      r.body.length = 4100 ∧ (u.session r x ∧ x.phase = 2 ∧ i = leNat (r.body.take 4) ∧ e = (if x.erased.contains (i / 16) then x.erased
      else x.erased ++ [i / 16]) ∧ x.lastIx ≠ some i ∧ i = x.next ∧ i < hdrPayload x.header / 4096) ∧ u.norWindow = false) ∧
    (∃ (q : LoaderReq) (ok : Bool) (r : Req) (x : Session) (i : Nat) (e : List Nat) (s : State) (u : State), s.requested 3 q r u ∧
      r.body.length = 4100 ∧ (u.session r x ∧ x.phase = 2 ∧ i = leNat (r.body.take 4) ∧ e = (if x.erased.contains (i / 16) then x.erased
      else x.erased ++ [i / 16]) ∧ x.lastIx ≠ some i ∧ i = x.next ∧ i < hdrPayload x.header / 4096) ∧ u.norWindow = true ∧ ok = true) ∧
    (∃ (q : LoaderReq) (ok : Bool) (r : Req) (x : Session) (i : Nat) (e : List Nat) (s : State) (u : State), s.requested 3 q r u ∧
      r.body.length = 4100 ∧ (u.session r x ∧ x.phase = 2 ∧ i = leNat (r.body.take 4) ∧ e = (if x.erased.contains (i / 16) then x.erased
      else x.erased ++ [i / 16]) ∧ x.lastIx ≠ some i ∧ i = x.next ∧ i < hdrPayload x.header / 4096) ∧ u.norWindow = true ∧ ok = false) ∧
    (∃ (q : LoaderReq) (ok : Bool) (r : Req) (x : Session) (s : State) (u : State), u.tagsPass u.otherSlot x.header (fun _ => true) = false
      ∧ s.requested 4 q r u ∧ u.session r x ∧ x.phase = 2 ∧ x.next * 4096 = hdrPayload x.header) ∧
    (∃ (q : LoaderReq) (ok : Bool) (r : Req) (x : Session) (s : State) (u : State), u.tagsPass u.otherSlot x.header (fun _ => true) = true
      ∧ s.requested 4 q r u ∧ u.session r x ∧ x.phase = 2 ∧ x.next * 4096 = hdrPayload x.header ∧ u.norWindow = false) ∧
    (∃ (q : LoaderReq) (ok : Bool) (r : Req) (x : Session) (s : State) (u : State), u.tagsPass u.otherSlot x.header (fun _ => true) = true
      ∧ s.requested 4 q r u ∧ u.session r x ∧ x.phase = 2 ∧ x.next * 4096 = hdrPayload x.header ∧ u.norWindow = true ∧ ok = true) ∧
    (∃ (q : LoaderReq) (ok : Bool) (r : Req) (x : Session) (s : State) (u : State), u.tagsPass u.otherSlot x.header (fun _ => true) = true
      ∧ s.requested 4 q r u ∧ u.session r x ∧ x.phase = 2 ∧ x.next * 4096 = hdrPayload x.header ∧ u.norWindow = true ∧ ok = false) ∧
    (∃ (q : LoaderReq) (ok : Bool) (r : Req) (x : Session) (h : List Nat) (s : State) (u : State) (c : _), s.requested 4 q r u ∧ u.session
      r x ∧ x.phase = 1 ∧ h = u.slotHeader u.otherSlot ∧ u.headerRefusal h = some c) ∧
    (∃ (q : LoaderReq) (ok : Bool) (r : Req) (x : Session) (h : List Nat) (s : State) (u : State), h = u.slotHeader u.otherSlot ∧
      u.headerRefusal h = none ∧ u.tagsPass u.otherSlot h (fun _ => true) = false ∧ s.requested 4 q r u ∧ u.session r x ∧ x.phase = 1) ∧
    (∃ (q : LoaderReq) (ok : Bool) (r : Req) (x : Session) (h : List Nat) (s : State) (u : State), h = u.slotHeader u.otherSlot ∧
      u.headerRefusal h = none ∧ u.tagsPass u.otherSlot h (fun _ => true) = true ∧ s.requested 4 q r u ∧ u.session r x ∧ x.phase = 1) :=
  ⟨⟨1, (.usb 5 6 []), true, true, true, [], s539, by unfold State.calm; decide +kernel⟩,
   ⟨5, (.usb 5 6 []), true, true, true, [], s539, by unfold State.calm; decide +kernel⟩,
   ⟨2, (.usb 5 6 []), true, true, true, [], s540, by unfold State.calm; decide +kernel⟩,
   ⟨1, (.usb 5 6 (List.replicate 1 (0 : Byte))), true, true, true, [], ⟨3, 0, 1, 5, 6, List.replicate 1 0⟩, on, ((on).usbSeen),
      by unfold State.calm; decide +kernel⟩,
   ⟨4, (.usb 5 6 []), true, true, true, [], ⟨3, 0, 4, 5, 6, []⟩, s541, ((s541).usbSeen),
      by unfold State.requested State.calm; decide +kernel⟩,
   ⟨(.usb 5 6 (List.replicate 1 (0 : Byte))), true, ⟨3, 0, 5, 5, 6, List.replicate 1 0⟩, on, ((on).usbSeen),
      by unfold State.calm; decide +kernel⟩,
   ⟨(.usb 5 6 []), true, ⟨3, 0, 5, 5, 6, []⟩, on, ((on).usbSeen), by unfold State.calm; decide +kernel⟩,
   ⟨2, (.usb 5 6 (List.replicate 512 (0 : Byte))), true, true, true, [], ⟨3, 0, 2, 5, 6, List.replicate 512 0⟩,
      (({ src := 3, tunnel := 0, num := 5, last := 0, phase := 2, header := [], next := 1, lastIx := none, erased := [] } : Session)),
      s542, ((s542).usbSeen), by unfold State.requested State.calm State.session; decide +kernel⟩,
   ⟨3, (.usb 5 6 (List.replicate 4100 (0 : Byte))), true, true, true, [], ⟨3, 0, 3, 5, 6, (List.replicate 4100 (0 : Byte)).map (fun b :
      Byte => b.toNat)⟩, (({ src := 3, tunnel := 0, num := 5, last := 0, phase := 1, header := [], next := 0, lastIx := none, erased := [] }
      : Session)), s543, ((s543).usbSeen), requested_chunk (by unfold State.calm; decide +kernel) (by decide +kernel) rfl,
      by unfold State.session; decide +kernel⟩,
   ⟨6, (.usb 5 6 []), true, true, true, [], ⟨3, 0, 6, 5, 6, []⟩,
      (({ src := 3, tunnel := 0, num := 5, last := 0, phase := 2, header := [], next := 1, lastIx := none, erased := [] } : Session)),
      s542, ((s542).usbSeen), by unfold State.requested State.calm State.session; decide +kernel⟩,
   ⟨5, (.usb 5 6 []), true, true, true, [], ⟨3, 0, 5, 5, 6, []⟩,
      (({ src := 3, tunnel := 0, num := 5, last := 0, phase := 1, header := [], next := 1, lastIx := none, erased := [] } : Session)),
      s544, ((s544).usbSeen), by unfold State.requested State.calm State.session; decide +kernel⟩,
   ⟨(.usb 5 6 []), ⟨3, 0, 1, 5, 6, []⟩, s541, ((s541).usbSeen), by unfold State.requested State.calm; decide +kernel⟩,
   ⟨(.usb 0 6 []), ⟨3, 0, 1, 0, 6, []⟩, on, ((on).usbSeen), by unfold State.requested State.calm; decide +kernel⟩,
   ⟨(.usb 5 6 []), ⟨3, 0, 1, 5, 6, []⟩, on, ((on).usbSeen), by unfold State.requested State.calm; decide +kernel⟩,
   ⟨(.usb 0 6 []), ⟨3, 0, 8, 0, 6, []⟩, s541, ((s541).usbSeen), by unfold State.requested State.calm; decide +kernel⟩,
   ⟨(.usb 5 6 []), ⟨3, 0, 8, 5, 6, []⟩, s545, ((s545).usbSeen), by unfold State.requested State.calm; decide +kernel⟩,
   ⟨(({ src := 3, tunnel := 0, num := 5, last := 0, phase := 3, header := [], next := 0, lastIx := none, erased := [] } : Session)), 1,
      s546, by decide +kernel⟩,
   ⟨(({ src := 3, tunnel := 0, num := 5, last := 0, phase := 2, header := [], next := 0, lastIx := none, erased := [] } : Session)), 1,
      s547, by decide +kernel⟩,
   ⟨(({ src := 3, tunnel := 0, num := 5, last := 0, phase := 3, header := [], next := 0, lastIx := none, erased := [] } : Session)), 1,
      s546, by decide +kernel⟩,
   ⟨(({ src := 3, tunnel := 0, num := 5, last := 0, phase := 3, header := [], next := 0, lastIx := none, erased := [] } : Session)), 1,
      s548, by decide +kernel⟩,
   ⟨(({ src := 3, tunnel := 0, num := 5, last := 0, phase := 3, header := [], next := 0, lastIx := none, erased := [] } : Session)), 1,
      s548, by decide +kernel⟩,
   ⟨(({ src := 3, tunnel := 0, num := 5, last := 0, phase := 3, header := [], next := 0, lastIx := none, erased := [] } : Session)), 1,
      s548, by decide +kernel⟩,
   ⟨(({ src := 3, tunnel := 0, num := 5, last := 0, phase := 1, header := [], next := 0, lastIx := none, erased := [] } : Session)), 1,
      s549, by decide +kernel⟩,
   ⟨(({ src := 3, tunnel := 0, num := 5, last := 0, phase := 1, header := [], next := 0, lastIx := none, erased := [] } : Session)), 1,
      s549, 3, by decide +kernel⟩,
   ⟨(.usb 5 6 []), ⟨3, 0, 7, 5, 6, []⟩, (({ src := 3, tunnel := 0, num := 5, last := 0, phase := 1, header := [], next := 0, lastIx := none, erased := [] }
      : Session)), ((((s549).usbSeen).onSvc (fun y =>
      { y with session := some { ({ src := 3, tunnel := 0, num := 5, last := 0, phase := 1, header := [], next := 0, lastIx := none, erased := [] } : Session) with last := (s549).usbSeen.tb.toNat } })).endSession),
      s549, ((s549).usbSeen), by unfold State.requested State.calm State.session; decide +kernel⟩,
   ⟨s550, (({ src := 3, tunnel := 0, num := 5, last := 0, phase := 3, header := [], next := 0, lastIx := none, erased := [] } : Session)),
      by unfold State.calm; decide +kernel⟩,
   ⟨s551, by unfold State.calm; decide +kernel⟩,
   ⟨s539, by unfold State.calm; decide +kernel⟩,
   ⟨s552, by unfold State.calm; decide +kernel⟩,
   ⟨(List.replicate 16 1), ((on.usbSeen.fillBytes (((List.replicate 16 1 : List Byte).map (fun b => b.toNat)).take 16) 16).1), on,
      by unfold State.calm; decide +kernel⟩,
   ⟨((let h := [0xB7, 7] ++ leBytes 2 0 ++ leBytes 4 5 ++ leBytes 4 6; h ++ leBytes 4 (crc32 h)).map (BitVec.ofNat 8)),
      ((on.usbSeen.fillBytes ((((let h := [0xB7, 7] ++ leBytes 2 0 ++ leBytes 4 5 ++ leBytes 4 6; h ++ leBytes 4 (crc32 h)).map
      (BitVec.ofNat 8) : List Byte).map (fun b => b.toNat)).take 16) 16).1), on, by unfold State.calm; decide +kernel⟩,
   ⟨63, 2, s553, ((⟨63, 2, 5, 5, [], [], [1, 2]⟩ : TunnelSession)), by unfold State.calm; decide +kernel⟩,
   ⟨63, 2, s554, ((⟨63, 2, 5, 5, [], [], [0xB7]⟩ : TunnelSession)), by unfold State.calm; decide +kernel⟩,
   ⟨63, 2, on, by unfold State.calm; decide +kernel⟩,
   ⟨(.usb 5 6 (image.map (BitVec.ofNat 8))), true, ⟨3, 0, 2, 5, 6, image⟩,
      (({ src := 3, tunnel := 0, num := 5, last := 0, phase := 1, header := [], next := 0, lastIx := none, erased := [] } : Session)),
      s555, ((s555).usbSeen), by unfold State.requested State.calm State.session; decide +kernel⟩,
   ⟨(.usb 5 6 (image.map (BitVec.ofNat 8))), true, ⟨3, 0, 2, 5, 6, image⟩,
      (({ src := 3, tunnel := 0, num := 5, last := 0, phase := 1, header := [], next := 0, lastIx := none, erased := [] } : Session)),
      s556, ((s556).usbSeen), 0x10, by unfold State.requested State.calm State.session; decide +kernel⟩,
   ⟨(.usb 5 6 (image.map (BitVec.ofNat 8))), true, ⟨3, 0, 2, 5, 6, image⟩,
      (({ src := 3, tunnel := 0, num := 5, last := 0, phase := 1, header := [], next := 0, lastIx := none, erased := [] } : Session)),
      s557, ((s557).usbSeen), refusal_of_image (by decide +kernel) (by decide +kernel) (by decide +kernel) (by decide +kernel)
      (by decide +kernel), by unfold State.requested State.calm State.session; decide +kernel⟩,
   ⟨(.usb 5 6 (image.map (BitVec.ofNat 8))), false, ⟨3, 0, 2, 5, 6, image⟩,
      (({ src := 3, tunnel := 0, num := 5, last := 0, phase := 1, header := [], next := 0, lastIx := none, erased := [] } : Session)),
      s557, ((s557).usbSeen), refusal_of_image (by decide +kernel) (by decide +kernel) (by decide +kernel) (by decide +kernel)
      (by decide +kernel), by unfold State.requested State.calm State.session; decide +kernel⟩,
   ⟨(.usb 5 6 (List.replicate 4100 (0 : Byte))), true, ⟨3, 0, 3, 5, 6, (List.replicate 4100 0).map (fun b : Byte => b.toNat)⟩,
      (({ src := 3, tunnel := 0, num := 5, last := 0, phase := 2, header := image, next := 1, lastIx := some 0, erased := [] } : Session)),
      0, [0], s558, ((s558).usbSeen), requested_chunk (by unfold State.calm; decide +kernel) (by decide +kernel) rfl, (List.length_map
      ..).trans (List.length_replicate ..), by unfold State.session; decide +kernel⟩,
   ⟨(.usb 5 6 (List.replicate 4100 (0 : Byte))), true, ⟨3, 0, 3, 5, 6, (List.replicate 4100 0).map (fun b : Byte => b.toNat)⟩,
      (({ src := 3, tunnel := 0, num := 5, last := 0, phase := 2, header := image, next := 1, lastIx := none, erased := [] } : Session)),
      0, [0], s559, ((s559).usbSeen), requested_chunk (by unfold State.calm; decide +kernel) (by decide +kernel) rfl,
      by unfold State.session; decide +kernel⟩,
   ⟨(.usb 5 6 (List.replicate 4100 (0 : Byte))), true, ⟨3, 0, 3, 5, 6, (List.replicate 4100 0).map (fun b : Byte => b.toNat)⟩,
      (({ src := 3, tunnel := 0, num := 5, last := 0, phase := 2, header := image, next := 0, lastIx := none, erased := [] } : Session)),
      0, [0], s560, ((s560).usbSeen), requested_chunk (by unfold State.calm; decide +kernel) (by decide +kernel) rfl, (List.length_map
      ..).trans (List.length_replicate ..), by unfold State.session; decide +kernel, by decide +kernel⟩,
   ⟨(.usb 5 6 (List.replicate 4100 (0 : Byte))), true, ⟨3, 0, 3, 5, 6, (List.replicate 4100 0).map (fun b : Byte => b.toNat)⟩,
      (({ src := 3, tunnel := 0, num := 5, last := 0, phase := 2, header := image, next := 0, lastIx := none, erased := [] } : Session)),
      0, [0], s561, ((s561).usbSeen), requested_chunk (by unfold State.calm; decide +kernel) (by decide +kernel) rfl, (List.length_map
      ..).trans (List.length_replicate ..), by unfold State.session; decide +kernel, by decide +kernel⟩,
   ⟨(.usb 5 6 (List.replicate 4100 (0 : Byte))), false, ⟨3, 0, 3, 5, 6, (List.replicate 4100 0).map (fun b : Byte => b.toNat)⟩,
      (({ src := 3, tunnel := 0, num := 5, last := 0, phase := 2, header := image, next := 0, lastIx := none, erased := [] } : Session)),
      0, [0], s562, ((s562).usbSeen), requested_chunk (by unfold State.calm; decide +kernel) (by decide +kernel) rfl, (List.length_map
      ..).trans (List.length_replicate ..), by unfold State.session; decide +kernel, by decide +kernel⟩,
   ⟨(.usb 5 6 []), true, ⟨3, 0, 4, 5, 6, []⟩,
      (({ src := 3, tunnel := 0, num := 5, last := 0, phase := 2, header := (image.set 144 0), next := 1, lastIx := none, erased := [] } :
      Session)), s563, ((s563).usbSeen), tags_fail _ (by decide +kernel) (by decide +kernel) ⟨0, 1, 0, 0, 0x20000000⟩ (by decide +kernel)
      (by decide +kernel), by unfold State.requested State.calm State.session; decide +kernel⟩,
   ⟨(.usb 5 6 []), true, ⟨3, 0, 4, 5, 6, []⟩,
      (({ src := 3, tunnel := 0, num := 5, last := 0, phase := 2, header := image, next := 1, lastIx := none, erased := [] } : Session)),
      s564, ((s564).usbSeen), tags_of_image (by decide +kernel) _, by unfold State.requested State.calm State.session; decide +kernel⟩,
   ⟨(.usb 5 6 []), true, ⟨3, 0, 4, 5, 6, []⟩,
      (({ src := 3, tunnel := 0, num := 5, last := 0, phase := 2, header := image, next := 1, lastIx := none, erased := [] } : Session)),
      s559, ((s559).usbSeen), tags_of_image (by decide +kernel) _, by unfold State.requested State.calm State.session; decide +kernel⟩,
   ⟨(.usb 5 6 []), false, ⟨3, 0, 4, 5, 6, []⟩,
      (({ src := 3, tunnel := 0, num := 5, last := 0, phase := 2, header := image, next := 1, lastIx := none, erased := [] } : Session)),
      s559, ((s559).usbSeen), tags_of_image (by decide +kernel) _, by unfold State.requested State.calm State.session; decide +kernel⟩,
   ⟨(.usb 5 6 []), true, ⟨3, 0, 4, 5, 6, []⟩,
      (({ src := 3, tunnel := 0, num := 5, last := 0, phase := 1, header := [], next := 0, lastIx := none, erased := [] } : Session)),
      ((s543).slotHeader 1), s543, ((s543).usbSeen), 0x11, by unfold State.requested State.calm State.session; decide +kernel⟩,
   ⟨(.usb 5 6 []), true, ⟨3, 0, 4, 5, 6, []⟩,
      (({ src := 3, tunnel := 0, num := 5, last := 0, phase := 1, header := [], next := 0, lastIx := none, erased := [] } : Session)),
      badImage, s565, ((s565).usbSeen), (bad_header rfl (by decide +kernel)).symm, refusal_of_bad (by decide +kernel) (by decide +kernel)
      (by decide +kernel) (by decide +kernel) (by decide +kernel), tags_fail _ (by decide +kernel) key_of_bad ⟨0, 1, 0, 0, 0x20000000⟩
      (by decide +kernel) (by decide +kernel), by unfold State.requested State.calm State.session; decide +kernel⟩,
   ⟨(.usb 5 6 []), true, ⟨3, 0, 4, 5, 6, []⟩,
      (({ src := 3, tunnel := 0, num := 5, last := 0, phase := 1, header := [], next := 0, lastIx := none, erased := [] } : Session)),
      image, s557, ((s557).usbSeen), (slot_header (s := (put [(Fld.PF_REG_VALID 3, 1)] (warm on))) rfl (by decide +kernel)
      (by decide +kernel)).symm, refusal_of_image (by decide +kernel) (by decide +kernel) (by decide +kernel) (by decide +kernel)
      (by decide +kernel), tags_of_image (by decide +kernel) _, by unfold State.requested State.calm State.session; decide +kernel⟩⟩

theorem witness_BootAndTrial :
    (∃ (q : LoaderReq) (ok : Bool) (r : Req) (x : Session) (s : State) (u : State), s.requested 5 q r u ∧ u.session r x ∧ x.phase = 3 ∧
      u.norWindow = false) ∧
    (∃ (q : LoaderReq) (ok : Bool) (r : Req) (x : Session) (s : State) (u : State), s.requested 5 q r u ∧ u.session r x ∧ x.phase = 3 ∧
      u.norWindow = true ∧ (u.bootRecord.map (fun y => y.2.state)) = some 2) ∧
    (∃ (q : LoaderReq) (ok : Bool) (r : Req) (x : Session) (s : State) (u : State), s.requested 5 q r u ∧ u.session r x ∧ x.phase = 3 ∧
      u.norWindow = true ∧ (u.bootRecord.map (fun y => y.2.state)) ≠ some 2 ∧ ok = false) ∧
    (∃ (q : LoaderReq) (ok : Bool) (r : Req) (x : Session) (s : State) (u : State), (s.requested 5 q r u ∧ u.session r x ∧ x.phase = 3 ∧
      u.norWindow = true ∧ (u.bootRecord.map (fun y => y.2.state)) ≠ some 2 ∧ ok = true ∧ u.mp.rescue = false) ∧ u.mp.running = true ∧
      r.src = 3) ∧
    (∃ (q : LoaderReq) (ok : Bool) (r : Req) (x : Session) (s : State) (u : State), (s.requested 5 q r u ∧ u.session r x ∧ x.phase = 3 ∧
      u.norWindow = true ∧ (u.bootRecord.map (fun y => y.2.state)) ≠ some 2 ∧ ok = true ∧ u.mp.rescue = true) ∧ u.pcr.dieShut = false ∧
      r.src = 3) ∧
    (∃ (q : LoaderReq) (ok : Bool) (vqps : Bool) (core : Bool) (outs : List Pulsed) (r : Req) (x : Session) (s : State) (u : State),
      s.requested 6 q r u ∧ u.session r x ∧ x.phase = 1 ∧ u.bootRecord = none) ∧
    (∃ (q : LoaderReq) (ok : Bool) (vqps : Bool) (core : Bool) (outs : List Pulsed) (r : Req) (x : Session) (s : State) (u : State) (c : _)
      (b : _), s.requested 6 q r u ∧ u.session r x ∧ x.phase = 1 ∧ u.bootRecord = some (c, b) ∧ u.norWindow = false) ∧
    (∃ (q : LoaderReq) (ok : Bool) (vqps : Bool) (core : Bool) (outs : List Pulsed) (r : Req) (x : Session) (s : State) (u : State) (c : _)
      (b : _), s.requested 6 q r u ∧ u.session r x ∧ x.phase = 1 ∧ u.bootRecord = some (c, b) ∧ u.norWindow = true ∧ b.state ≠ 2) ∧
    (∃ (q : LoaderReq) (ok : Bool) (vqps : Bool) (core : Bool) (outs : List Pulsed) (r : Req) (x : Session) (s : State) (u : State) (c : _)
      (b : _), s.requested 6 q r u ∧ u.session r x ∧ x.phase = 1 ∧ u.bootRecord = some (c, b) ∧ u.norWindow = true ∧ b.state = 2 ∧ ok =
      false) ∧
    (∃ (q : LoaderReq) (ok : Bool) (vqps : Bool) (core : Bool) (outs : List Pulsed) (r : Req) (x : Session) (s : State) (u : State) (c : _)
      (b : _), (s.requested 6 q r u ∧ u.session r x ∧ x.phase = 1 ∧ u.bootRecord = some (c, b) ∧ u.norWindow = true ∧ b.state = 2 ∧ ok =
      true) ∧ (b.prevCopy = b.copy ∨ 2 ≤ b.prevCopy)) ∧
    (∃ (q : LoaderReq) (ok : Bool) (vqps : Bool) (core : Bool) (outs : List Pulsed) (r : Req) (x : Session) (s : State) (u : State) (c : _)
      (b : _), (s.requested 6 q r u ∧ u.session r x ∧ x.phase = 1 ∧ u.bootRecord = some (c, b) ∧ u.norWindow = true ∧ b.state = 2 ∧ ok =
      true) ∧ b.prevCopy ≠ b.copy ∧ b.prevCopy < 2) ∧
    (∃ (vqps : Bool) (core : Bool) (outs : List Pulsed) (c : Nat) (s : State) (u : State), u = s.senseSupplies vqps core ∧ s.calm ∧ c =
      hdrArb (s.slotHeader s.activeSlot) ∧ (s.mp.running = false ∨ s.svc.arbDue = false ∨ s.svc.arbAt.all (fun a => decide (a +
      240000000000 ≤ s.tb.toNat)) = false)) ∧
    (∃ (vqps : Bool) (core : Bool) (outs : List Pulsed) (c : Nat) (s : State) (u : State), u = s.senseSupplies vqps core ∧ s.calm ∧ c =
      hdrArb (s.slotHeader s.activeSlot) ∧ s.mp.running = true ∧ s.svc.arbDue = true ∧ s.svc.arbAt.all (fun a => decide (a + 240000000000 ≤
      s.tb.toNat)) = true ∧ c ≤ s.arbCounter) ∧
    (∃ (vqps : Bool) (core : Bool) (outs : List Pulsed) (c : Nat) (s : State) (u : State), u = s.senseSupplies vqps core ∧ (s.calm ∧ c =
      hdrArb (s.slotHeader s.activeSlot) ∧ s.mp.running = true ∧ s.svc.arbDue = true ∧ s.svc.arbAt.all (fun a => decide (a + 240000000000 ≤
      s.tb.toNat)) = true ∧ s.arbCounter < c ∧ c ≤ 128) ∧ u.otpWindow = true ∧ s.mpMay 1 = true ∧ s.otp.prog = none ∧ outs = []) ∧
    (∃ (vqps : Bool) (core : Bool) (outs : List Pulsed) (c : Nat) (s : State) (u : State), u = s.senseSupplies vqps core ∧ (s.calm ∧ c =
      hdrArb (s.slotHeader s.activeSlot) ∧ s.mp.running = true ∧ s.svc.arbDue = true ∧ s.svc.arbAt.all (fun a => decide (a + 240000000000 ≤
      s.tb.toNat)) = true ∧ s.arbCounter < c ∧ u.otpWindow = true) ∧ s.mpMay 1 = true ∧ s.otp.prog = none) ∧
    (∃ (vqps : Bool) (core : Bool) (outs : List Pulsed) (c : Nat) (s : State) (u : State), u = s.senseSupplies vqps core ∧ s.calm ∧ c =
      hdrArb (s.slotHeader s.activeSlot) ∧ s.mp.running = true ∧ s.svc.arbDue = true ∧ s.svc.arbAt.all (fun a => decide (a + 240000000000 ≤
      s.tb.toNat)) = true ∧ s.arbCounter < c ∧ (u.otpWindow = false ∨ s.mpMay 1 = false ∨ s.otp.prog ≠ none)) ∧
    (∃ (s : State), s.calm ∧ (s.domOn .mgmt = false ∨ s.windowOpen = true ∨ s.pcr.start ≠ none ∨ (s.warned = true ∧ s.bootWrites = true))) ∧
    (∃ (s : State) (c : _) (b : _), s.slotBoots b.active false = true ∧ s.calm ∧ s.domOn .mgmt = true ∧ s.windowOpen = false ∧ s.pcr.start
      = none ∧ s.bootRecord = some (c, b) ∧ b.state ≠ 2 ∧ s.domOn .host = true) ∧
    (∃ (s : State) (c : _) (b : _), s.slotBoots b.active false = true ∧ (s.calm ∧ s.domOn .mgmt = true ∧ s.windowOpen = false ∧ s.pcr.start
      = none ∧ s.warned = false ∧ s.bootRecord = some (c, b) ∧ b.state = 2) ∧ b.trials < 3 ∧ (b.copy = b.prevCopy ∨ 2 ≤ b.prevCopy ∨
      s.settingIn b.copy 0xF020 ≠ none)) ∧
    (∃ (s : State) (c : _) (b : _), s.slotBoots b.active false = true ∧ (s.calm ∧ s.domOn .mgmt = true ∧ s.windowOpen = false ∧ s.pcr.start
      = none ∧ s.warned = false ∧ s.bootRecord = some (c, b) ∧ b.state = 2) ∧ b.trials < 3 ∧ b.copy ≠ b.prevCopy ∧ b.prevCopy < 2 ∧
      s.settingIn b.copy 0xF020 = none) ∧
    (∃ (s : State) (c : _) (b : _) (r : _), s.slotBoots b.prev false = true ∧ (s.calm ∧ s.domOn .mgmt = true ∧ s.windowOpen = false ∧
      s.pcr.start = none ∧ s.warned = false ∧ s.bootRecord = some (c, b) ∧ b.state = 2) ∧ (3 ≤ b.trials ∨ s.slotBoots b.active false =
      false) ∧ r = { b with active := b.prev, state := 1, trials := 0, prev := 0xFF, fmt := b.prevFmt, copy := b.prevCopy, prevCopy := 0xFF })
      ∧
    (∃ (s : State) (c : _) (b : _) (r : _), (s.calm ∧ s.domOn .mgmt = true ∧ s.windowOpen = false ∧ s.pcr.start = none ∧ s.warned = false ∧
      s.bootRecord = some (c, b) ∧ b.state = 2) ∧ (3 ≤ b.trials ∨ s.slotBoots b.active false = false) ∧ r =
      { b with active := b.prev, state := 1, trials := 0, prev := 0xFF, fmt := b.prevFmt, copy := b.prevCopy, prevCopy := 0xFF } ∧
      s.slotBoots b.prev false = false) ∧
    (∃ (s : State), s.slotBoots 0 false = true ∧ s.calm ∧ s.domOn .mgmt = true ∧ s.windowOpen = false ∧ s.pcr.start = none ∧ s.warned =
      false ∧ s.bootRecord = none) ∧
    (∃ (s : State), s.calm ∧ s.domOn .mgmt = true ∧ s.windowOpen = false ∧ s.pcr.start = none ∧ s.warned = false ∧ s.bootRecord = none ∧
      s.slotBoots 0 false = false) ∧
    (∃ (s : State) (c : _) (b : _), s.calm ∧ s.domOn .mgmt = true ∧ s.windowOpen = false ∧ s.pcr.start = none ∧ s.bootRecord = some (c, b)
      ∧ b.state ≠ 2 ∧ s.slotBoots b.active false = false) ∧
    (∃ (cause : Nat) (s : State) (t : State), t = s.mpRestart cause ∧ s.windowOpen = true) ∧
    (∃ (cause : Nat) (s : State) (t : State), t = s.mpRestart cause ∧ s.windowOpen = true) ∧
    (∃ (cause : Nat) (s : State) (t : State), t = s.mpRestart cause ∧ s.windowOpen = true) ∧
    (∃ (cause : Nat) (s : State) (t : State), t = s.mpRestart cause ∧ s.windowOpen = true) ∧
    (∃ (cause : Nat) (s : State) (t : State) (n : Fin 32), t = s.mpRestart cause ∧ s.windowOpen = true) ∧
    (∃ (cause : Nat) (s : State) (t : State), t = s.mpRestart cause ∧ s.windowOpen = true) ∧
    (∃ (cause : Nat) (s : State) (t : State) (p : _), t = s.mpRestart cause ∧ s.windowOpen = true ∧ p < 16) ∧
    (∃ (cause : Nat) (s : State) (t : State) (x : _), t = s.mpRestart cause ∧ s.windowOpen = true ∧ t.otp.prog = some x) ∧
    (∃ (cause : Nat) (s : State) (t : State), t = s.mpRestart cause ∧ s.windowOpen = true) ∧
    (∃ (s : State) (c : _) (b : _), s.calm ∧ s.bootRecord = some (c, b) ∧ b.state = 2 ∧ s.mp.running = true ∧ s.rd
      Fld.SVC_UPD_CFG_TRIAL_TMO ≠ 0 ∧ s.svc.trialAt + s.rd Fld.SVC_UPD_CFG_TRIAL_TMO * 240000000000 ≤ s.tb.toNat) ∧
    (∃ (s : State) (c : _) (b : _), s.calm ∧ s.bootRecord = some (c, b) ∧ (b.state ≠ 2 ∨ s.mp.running = false ∨ s.rd
      Fld.SVC_UPD_CFG_TRIAL_TMO = 0 ∨ s.tb.toNat < s.svc.trialAt + s.rd Fld.SVC_UPD_CFG_TRIAL_TMO * 240000000000)) ∧
    (∃ (s : State), s.calm ∧ s.bootRecord = none) ∧
    (∃ (e : Nat) (s : State), s.calm ∧ e = s.pcr.fed + max 1 (min 1000 (s.rd Fld.PCR_WDOG_TMO)) * 4000000 ∧ (s.on Fld.PCR_WDOG_EN = false ∨
      s.windowOpen = false ∨ s.tb.toNat < e)) ∧
    (∃ (e : Nat) (s : State), s.calm ∧ e = s.pcr.fed + max 1 (min 1000 (s.rd Fld.PCR_WDOG_TMO)) * 4000000 ∧ s.on Fld.PCR_WDOG_EN = true ∧
      s.windowOpen = true ∧ e ≤ s.tb.toNat) ∧
    (∃ (m : Master) (v : Word) (s : State), s.reaches Reg.PCR_WDOG ∧ s.calm) :=
  ⟨⟨(.usb 5 6 []), true, ⟨3, 0, 5, 5, 6, []⟩,
      (({ src := 3, tunnel := 0, num := 5, last := 0, phase := 3, header := image, next := 0, lastIx := none, erased := [] } : Session)),
      s566, ((s566).usbSeen), by unfold State.requested State.calm State.session; decide +kernel⟩,
   ⟨(.usb 5 6 []), true, ⟨3, 0, 5, 5, 6, []⟩,
      (({ src := 3, tunnel := 0, num := 5, last := 0, phase := 3, header := image, next := 0, lastIx := none, erased := [] } : Session)),
      s567, ((s567).usbSeen), by unfold State.requested State.calm State.session; decide +kernel⟩,
   ⟨(.usb 5 6 []), false, ⟨3, 0, 5, 5, 6, []⟩,
      (({ src := 3, tunnel := 0, num := 5, last := 0, phase := 3, header := image, next := 0, lastIx := none, erased := [] } : Session)),
      s568, ((s568).usbSeen), by unfold State.requested State.calm State.session; decide +kernel⟩,
   ⟨(.usb 5 6 []), true, ⟨3, 0, 5, 5, 6, []⟩,
      (({ src := 3, tunnel := 0, num := 5, last := 0, phase := 3, header := image, next := 0, lastIx := none, erased := [] } : Session)),
      s568, ((s568).usbSeen), by unfold State.requested State.calm State.session; decide +kernel, by decide +kernel⟩,
   ⟨(.usb 5 6 []), true, ⟨3, 0, 5, 5, 6, []⟩,
      (({ src := 3, tunnel := 0, num := 5, last := 0, phase := 3, header := image, next := 0, lastIx := none, erased := [] } : Session)),
      s569, ((s569).usbSeen), by unfold State.requested State.calm State.session; decide +kernel, by decide +kernel⟩,
   ⟨(.usb 5 6 []), true, true, true, [], ⟨3, 0, 6, 5, 6, []⟩,
      (({ src := 3, tunnel := 0, num := 5, last := 0, phase := 1, header := [], next := 0, lastIx := none, erased := [] } : Session)),
      s543, ((s543).usbSeen), by unfold State.requested State.calm State.session; decide +kernel⟩,
   ⟨(.usb 5 6 []), true, true, true, [], ⟨3, 0, 6, 5, 6, []⟩,
      (({ src := 3, tunnel := 0, num := 5, last := 0, phase := 1, header := [], next := 0, lastIx := none, erased := [] } : Session)),
      s570, ((s570).usbSeen), 0, ((⟨1, 0, 1, 0, 0xFF, 0, 0, 0xFF, 0⟩ : BootRec)),
      by unfold State.requested State.calm State.session; decide +kernel⟩,
   ⟨(.usb 5 6 []), true, true, true, [], ⟨3, 0, 6, 5, 6, []⟩,
      (({ src := 3, tunnel := 0, num := 5, last := 0, phase := 1, header := [], next := 0, lastIx := none, erased := [] } : Session)),
      s571, ((s571).usbSeen), 0, ((⟨1, 0, 1, 0, 0xFF, 0, 0, 0xFF, 0⟩ : BootRec)),
      by unfold State.requested State.calm State.session; decide +kernel⟩,
   ⟨(.usb 5 6 []), false, true, true, [], ⟨3, 0, 6, 5, 6, []⟩,
      (({ src := 3, tunnel := 0, num := 5, last := 0, phase := 1, header := [], next := 0, lastIx := none, erased := [] } : Session)),
      s572, ((s572).usbSeen), 0, ((⟨1, 0, 2, 0, 0xFF, 0, 0, 0, 0⟩ : BootRec)),
      by unfold State.requested State.calm State.session; decide +kernel⟩,
   ⟨(.usb 5 6 []), true, true, true, [], ⟨3, 0, 6, 5, 6, []⟩,
      (({ src := 3, tunnel := 0, num := 5, last := 0, phase := 1, header := [], next := 0, lastIx := none, erased := [] } : Session)),
      s572, ((s572).usbSeen), 0, ((⟨1, 0, 2, 0, 0xFF, 0, 0, 0, 0⟩ : BootRec)),
      by unfold State.requested State.calm State.session; decide +kernel, by decide +kernel⟩,
   ⟨(.usb 5 6 []), true, true, true, [], ⟨3, 0, 6, 5, 6, []⟩,
      (({ src := 3, tunnel := 0, num := 5, last := 0, phase := 1, header := [], next := 0, lastIx := none, erased := [] } : Session)),
      s573, ((s573).usbSeen), 0, ((⟨1, 0, 2, 0, 0xFF, 0, 0, 1, 0⟩ : BootRec)),
      by unfold State.requested State.calm State.session; decide +kernel, by decide +kernel⟩,
   ⟨true, true, [], 4, s574, ((s574).senseSupplies (true) (true)), rfl, by unfold State.calm; decide +kernel⟩,
   ⟨true, true, [], 4, s575, ((s575).senseSupplies (true) (true)), rfl, by unfold State.calm; decide +kernel⟩,
   ⟨true, true, [], 4, s576, ((s576).senseSupplies (true) (true)), rfl, by unfold State.calm; decide +kernel, by decide +kernel⟩,
   ⟨true, true, [⟨1, 1⟩], 4, s576, ((s576).senseSupplies (true) (true)), rfl, by unfold State.calm; decide +kernel, by decide +kernel⟩,
   ⟨false, true, [], 4, s576, ((s576).senseSupplies (false) (true)), rfl, by unfold State.calm; decide +kernel⟩,
   ⟨on, by unfold State.calm; decide +kernel⟩,
   ⟨s577, 0, ((⟨1, 0, 1, 0, 0xFF, 0, 0, 0xFF, 0⟩ : BootRec)), boots_of_image (s := (record 0 1 0xFF (put [(Fld.PF_REG_VALID 3, 1)] (warm
      on)))) rfl (by decide +kernel), by unfold State.calm; decide +kernel⟩,
   ⟨s578, 0, ((⟨1, 0, 2, 0, 0xFF, 0, 0, 0, 0⟩ : BootRec)), boots_of_image (s := (record 0 2 0 (put [(Fld.PF_REG_VALID 3, 1)] (warm on))))
      rfl (by decide +kernel), by unfold State.calm; decide +kernel, by decide +kernel⟩,
   ⟨s579, 0, ((⟨1, 0, 2, 0, 0xFF, 0, 0, 1, 0⟩ : BootRec)), boots_of_image (s := (record 0 2 1 (put [(Fld.PF_REG_VALID 3, 1)] (warm on))))
      rfl (by decide +kernel), by unfold State.calm; decide +kernel, by decide +kernel⟩,
   ⟨s580, 0, ((⟨1, 1, 2, 0, 0, 0, 0, 0, 0⟩ : BootRec)),
      ({ (⟨1, 1, 2, 0, 0, 0, 0, 0, 0⟩ : BootRec) with active := 0, state := 1, trials := 0, prev := 0xFF, fmt := 0, copy := 0, prevCopy := 0xFF }),
      boots_of_image (s := (State.writeRecord (put [(Fld.PF_REG_VALID 3, 1)] (warm on)) ⟨0, 1, 2, 0, 0, 0, 0, 0, 0⟩)) rfl
      (by decide +kernel), by unfold State.calm; decide +kernel, by decide +kernel⟩,
   ⟨s581, 0, ((⟨1, 1, 2, 0, 0, 0, 0, 0, 0⟩ : BootRec)),
      ({ (⟨1, 1, 2, 0, 0, 0, 0, 0, 0⟩ : BootRec) with active := 0, state := 1, trials := 0, prev := 0xFF, fmt := 0, copy := 0, prevCopy := 0xFF }),
      by unfold State.calm; decide +kernel, by decide +kernel⟩,
   ⟨s582, boots_of_image (s := (put [(Fld.PF_REG_VALID 3, 1)] (warm on))) rfl (by decide +kernel), by unfold State.calm; decide +kernel⟩,
   ⟨s583, by unfold State.calm; decide +kernel⟩,
   ⟨s584, 0, ((⟨1, 0, 1, 0, 0xFF, 0, 0, 0xFF, 0⟩ : BootRec)), by unfold State.calm; decide +kernel⟩,
   ⟨3, s585, ((s585).mpRestart (3)), rfl, by decide +kernel⟩,
   ⟨3, s585, ((s585).mpRestart (3)), rfl, by decide +kernel⟩,
   ⟨3, s585, ((s585).mpRestart (3)), rfl, by decide +kernel⟩,
   ⟨3, s585, ((s585).mpRestart (3)), rfl, by decide +kernel⟩,
   ⟨3, s585, ((s585).mpRestart (3)), 31, rfl, by decide +kernel⟩,
   ⟨3, s585, ((s585).mpRestart (3)), rfl, by decide +kernel⟩,
   ⟨3, s585, ((s585).mpRestart (3)), 15, rfl, by decide +kernel⟩,
   ⟨3, s585, ((s585).mpRestart (3)), ((⟨0x100, 9, false, false, none⟩ : OtpWord)), rfl, by decide +kernel⟩,
   ⟨3, s585, ((s585).mpRestart (3)), rfl, by decide +kernel⟩,
   ⟨s586, 0, ((⟨1, 0, 2, 0, 0xFF, 0, 0, 0, 0⟩ : BootRec)), by unfold State.calm; decide +kernel⟩,
   ⟨s587, 0, ((⟨1, 0, 2, 0, 0xFF, 0, 0, 0, 0⟩ : BootRec)), by unfold State.calm; decide +kernel⟩,
   ⟨s588, by unfold State.calm; decide +kernel⟩,
   ⟨8000000, s589, by unfold State.calm; decide +kernel⟩,
   ⟨8000000, s590, by unfold State.calm; decide +kernel⟩,
   ⟨.service, 0x80000005, on, reaches_of (by decide +kernel), by unfold State.calm; decide +kernel⟩⟩

theorem witness_PowerDomains :
    (∃ (s : State), s.calm ∧ s.nextCommand 0x70 = none) ∧
    (∃ (c : Desc) (s : State), s.commanded 0x70 c ∧ (14 ≤ c.fld 2 3 0 ∨ c.reservedSet (commandLayout [0x10F]) = true)) ∧
    (∃ (d : Domain) (c : Desc) (s : State), s.commanded 0x70 c ∧ d ∈ domains ∧ c.fld 2 3 0 = domCode d ∧ c.reservedSet (commandLayout
      [0x10F]) = false ∧ bitOf (dwAt c.dw 2) 8 = false ∧ (d = .aon ∨ d = .hk ∨ d = .mgmt)) ∧
    (∃ (d : Domain) (c : Desc) (s : State), s.commanded 0x70 c ∧ d ∈ domains ∧ c.fld 2 3 0 = domCode d ∧ c.reservedSet (commandLayout
      [0x10F]) = false ∧ (bitOf (dwAt c.dw 2) 8 = true ∨ (d ≠ .aon ∧ d ≠ .hk ∧ d ≠ .mgmt)) ∧ (s.rd (domField d) = 3 ∨ s.domainUsed d =
      false)) ∧
    (∃ (d : Domain) (c : Desc) (s : State) (r : _), (s.commanded 0x70 c ∧ d ∈ domains ∧ c.fld 2 3 0 = domCode d ∧ c.reservedSet
      (commandLayout [0x10F]) = false ∧ bitOf (dwAt c.dw 2) 8 = false ∧ d ≠ .aon ∧ d ≠ .hk) ∧ d ≠ .mgmt ∧ s.rd (domField d) ≠ 3 ∧
      s.domainUsed d = true ∧ s.rd (domField d) ≠ 0 ∧ s.powerRefusal d = some r) ∧
    (∃ (d : Domain) (c : Desc) (s : State), (s.commanded 0x70 c ∧ d ∈ domains ∧ c.fld 2 3 0 = domCode d ∧ c.reservedSet (commandLayout
      [0x10F]) = false ∧ (bitOf (dwAt c.dw 2) 8 = true ∨ (d ≠ .aon ∧ d ≠ .hk ∧ d ≠ .mgmt ∧ (s.rd (domField d) = 0 ∨ s.powerRefusal d =
      none))) ∧ s.rd (domField d) ≠ 3 ∧ s.domainUsed d = true) ∧ s.mpMay 7 = false) ∧
    (∃ (d : Domain) (c : Desc) (s : State), (s.commanded 0x70 c ∧ d ∈ domains ∧ c.fld 2 3 0 = domCode d ∧ c.reservedSet (commandLayout
      [0x10F]) = false ∧ s.mpMay 7 = true ∧ s.rd (domField d) ≠ 3 ∧ s.domainUsed d = true) ∧ bitOf (dwAt c.dw 2) 8 = true ∧ (s.domainReady
      d = true ∨ d = .aon)) ∧
    (∃ (d : Domain) (c : Desc) (s : State), (s.commanded 0x70 c ∧ d ∈ domains ∧ c.fld 2 3 0 = domCode d ∧ c.reservedSet (commandLayout
      [0x10F]) = false ∧ s.mpMay 7 = true ∧ s.rd (domField d) ≠ 3 ∧ s.domainUsed d = true) ∧ bitOf (dwAt c.dw 2) 8 = true ∧ s.domainReady d
      = false ∧ d ≠ .aon ∧ s.pcr.dieShut = false) ∧
    (∃ (d : Domain) (c : Desc) (s : State), (s.commanded 0x70 c ∧ d ∈ domains ∧ c.fld 2 3 0 = domCode d ∧ c.reservedSet (commandLayout
      [0x10F]) = false ∧ s.mpMay 7 = true ∧ s.rd (domField d) ≠ 3 ∧ s.domainUsed d = true) ∧ bitOf (dwAt c.dw 2) 8 = true ∧ s.domainReady d
      = false ∧ d ≠ .aon ∧ s.pcr.dieShut = true) ∧
    (∃ (d : Domain) (c : Desc) (s : State), (s.commanded 0x70 c ∧ d ∈ domains ∧ c.fld 2 3 0 = domCode d ∧ c.reservedSet (commandLayout
      [0x10F]) = false ∧ s.mpMay 7 = true ∧ s.rd (domField d) ≠ 3 ∧ s.domainUsed d = true) ∧ bitOf (dwAt c.dw 2) 8 = false ∧ d ≠ .aon ∧ d ≠
      .hk ∧ d ≠ .mgmt ∧ s.rd (domField d) = 0) ∧
    (∃ (d : Domain) (c : Desc) (s : State), (s.commanded 0x70 c ∧ d ∈ domains ∧ c.fld 2 3 0 = domCode d ∧ c.reservedSet (commandLayout
      [0x10F]) = false ∧ s.mpMay 7 = true ∧ s.rd (domField d) ≠ 3 ∧ s.domainUsed d = true) ∧ (bitOf (dwAt c.dw 2) 8 = false ∧ d ≠ .aon ∧ d
      ≠ .hk ∧ d ≠ .mgmt ∧ s.rd (domField d) ≠ 0 ∧ s.powerRefusal d = none ∧ s.numbered) ∧ d ≠ .host ∧ s.walk = none ∧ (∀ a < 8, (s.getAxis
      a).wait = false ∧ (s.getAxis a).held.all (fun h => !h.wait) = true)) ∧
    (∃ (d : Fin 14) (e : Domain) (s : State), s.calm ∧ e = domainOf d ∧ (s.rd (domField e) ≠ 1 ∨ s.warned = true)) ∧
    (∃ (d : Fin 14) (e : Domain) (s : State), s.calm ∧ e = domainOf d ∧ s.rd (domField e) = 1 ∧ s.warned = false) ∧
    (∃ (d : Fin 14) (e : Domain) (s : State), s.calm ∧ e = domainOf d ∧ s.rd (domField e) = 1 ∧ s.warned = false ∧ e = .ds0) ∧
    (∃ (d : Fin 14) (e : Domain) (s : State), s.calm ∧ e = domainOf d ∧ s.rd (domField e) = 1 ∧ s.warned = false ∧ e = .ds1) ∧
    (∃ (d : Fin 14) (s : State), s.calm ∧ (s.mp.cmd.all (fun k => decide (s.mp.running = false ∨ k.desc.opcode ≠ 0x70 ∨ domainOf
      (k.desc.fld 2 3 0) ≠ domainOf d ∨ s.rd (domField (domainOf d)) ≠ 0)) = true)) ∧
    (∃ (d : Fin 14) (s : State) (k : _), (s.calm ∧ s.mp.cmd = some k ∧ s.mp.running = true ∧ k.desc.opcode = 0x70 ∧ domainOf (k.desc.fld 2
      3 0) = domainOf d ∧ s.rd (domField (domainOf d)) = 0 ∧ k.desc.index < orphanMark) ∧ s.cqRoom ∧ k.token = some 7 ∧ s.holder 7 = 2) ∧
    (∃ (m : Master) (v : Word) (s : State), s.reaches Reg.PCR_DOM_CTL ∧ s.calm ∧ s.numbered) ∧
    (∃ (m : Master) (v : Word) (s : State), s.reaches Reg.PCR_DOM_RST ∧ (s.calm ∧ s.numbered ∧ bitOf v 12 = true ∧ s.rd (domField .motion)
      = 2 ∧ bitOf v 7 = true ∧ s.rd (domField .place) = 2 ∧ bitOf v 1 = true) ∧ s.rd (domField .mgmt) = 2) ∧
    (∃ (m : Master) (v : Word) (s : State), s.reaches Reg.PCR_DOM_RST ∧ s.calm ∧ s.numbered ∧ (∀ d ∈ domains, d ≠ .aon → bitOf v (domCode
      d) = true → s.rd (domField d) ≠ 2)) ∧
    (∃ (m : Master) (d : Domain) (v : Word) (s : State), s.reaches Reg.PCR_DOM_RST ∧ s.calm ∧ s.numbered ∧ d ∈ [Domain.service, .place,
      .hpg 0, .hpg 1, .hpg 2, .hpg 3, .motion, .hk] ∧ v.toNat = 2 ^ domCode d ∧ s.rd (domField d) = 2) ∧
    (∃ (d : Fin 14) (e : Domain) (s : State), s.calm ∧ e = domainOf d ∧ (s.mp.running = false ∨ s.needsSequencer e = false ∨ s.domOn e =
      false)) ∧
    (∃ (d : Fin 14) (e : Domain) (s : State), s.calm ∧ e = domainOf d ∧ s.mp.running = true ∧ s.needsSequencer e = true ∧ s.domOn e = true
      ∧ e = .place) ∧
    (∃ (d : Fin 14) (e : Domain) (s : State), s.calm ∧ e = domainOf d ∧ s.mp.running = true ∧ s.needsSequencer e = true ∧ s.domOn e = true
      ∧ e = .motion) ∧
    (∃ (s : State), s.calm ∧ (s.on Fld.ESP_STAT_DS0_INIT = false ∨ s.domOn .ds0 = false)) ∧
    (∃ (s : State), s.calm ∧ (s.on Fld.ESP_STAT_DS1_INIT = false ∨ s.domOn .ds1 = false)) ∧
    (∃ (s : State), s.calm ∧ s.on Fld.ESP_STAT_DS0_INIT = true ∧ s.domOn .ds0 = true ∧ s.mp.cmd = none) ∧
    (∃ (s : State), s.calm ∧ s.on Fld.ESP_STAT_DS1_INIT = true ∧ s.domOn .ds1 = true) ∧
    (∃ (flash : FlashAnswer) (c : MpCmd) (kind : Nat) (n : Nat) (s : State), s.calm ∧ s.numbered ∧ s.loadCommand 0x71 = none) ∧
    (∃ (flash : FlashAnswer) (c : MpCmd) (kind : Nat) (n : Nat) (s : State), s.calm ∧ s.numbered ∧ s.carries 0x71 c ∧ c.left = flashWorks ∧
      s.mp.cmd = some c ∧ flash = .busy) ∧
    (∃ (flash : FlashAnswer) (c : MpCmd) (kind : Nat) (n : Nat) (s : State), s.calm ∧ s.numbered ∧ s.carries 0x71 c ∧ c.left = flashWorks ∧
      s.mp.cmd = some c ∧ flash = .done) ∧
    (∃ (flash : FlashAnswer) (c : MpCmd) (kind : Nat) (n : Nat) (s : State), s.calm ∧ s.numbered ∧ s.carries 0x71 c ∧ c.left = flashWorks ∧
      s.mp.cmd = some c ∧ flash = .failed) ∧
    (∃ (flash : FlashAnswer) (c : MpCmd) (kind : Nat) (n : Nat) (s : State), s.calm ∧ s.numbered ∧ s.carries 0x71 c ∧ c.left = [] ∧ kind =
      c.desc.fld 2 1 0 ∧ n = c.desc.fld 2 15 8 ∧ (retireBad kind n = true ∨ c.desc.reservedSet (commandLayout [0xFF03]) = true)) ∧
    (∃ (flash : FlashAnswer) (c : MpCmd) (kind : Nat) (n : Nat) (s : State), (s.calm ∧ s.numbered ∧ s.carries 0x71 c ∧ c.left = [] ∧ kind =
      c.desc.fld 2 1 0 ∧ n = c.desc.fld 2 15 8 ∧ retireBad kind n = false) ∧ c.desc.reservedSet (commandLayout [0xFF03]) = false ∧ (if kind
      = 0 then s.portPresent n else if kind = 1 then s.ctxPresent n else s.bankPresent n) = false) ∧
    (∃ (flash : FlashAnswer) (c : MpCmd) (kind : Nat) (n : Nat) (s : State), (s.calm ∧ s.numbered ∧ s.carries 0x71 c ∧ c.left = [] ∧ kind =
      c.desc.fld 2 1 0 ∧ n = c.desc.fld 2 15 8 ∧ retireBad kind n = false) ∧ c.desc.reservedSet (commandLayout [0xFF03]) = false ∧ (if kind
      = 0 then s.portPresent n else if kind = 1 then s.ctxPresent n else s.bankPresent n) = true ∧ s.mpMay 7 = false) ∧
    (∃ (flash : FlashAnswer) (c : MpCmd) (kind : Nat) (n : Nat) (s : State), (s.calm ∧ s.numbered ∧ s.carries 0x71 c ∧ c.left = [] ∧ kind =
      c.desc.fld 2 1 0 ∧ n = c.desc.fld 2 15 8 ∧ retireBad kind n = false) ∧ c.desc.reservedSet (commandLayout [0xFF03]) = false ∧ (if kind
      = 0 then s.portPresent n else if kind = 1 then s.ctxPresent n else s.bankPresent n) = true ∧ s.mpMay 7 = true ∧ kind = 0 ∧
      s.norWindow = true ∧ flash = .done) ∧
    (∃ (flash : FlashAnswer) (c : MpCmd) (kind : Nat) (n : Nat) (s : State), (s.calm ∧ s.numbered ∧ s.carries 0x71 c ∧ c.left = [] ∧ kind =
      c.desc.fld 2 1 0 ∧ n = c.desc.fld 2 15 8 ∧ retireBad kind n = false) ∧ c.desc.reservedSet (commandLayout [0xFF03]) = false ∧ (if kind
      = 0 then s.portPresent n else if kind = 1 then s.ctxPresent n else s.bankPresent n) = true ∧ s.mpMay 7 = true ∧ s.norWindow = true ∧
      flash = .failed) ∧
    (∃ (flash : FlashAnswer) (c : MpCmd) (kind : Nat) (n : Nat) (s : State), (s.calm ∧ s.numbered ∧ s.carries 0x71 c ∧ c.left = [] ∧ kind =
      c.desc.fld 2 1 0 ∧ n = c.desc.fld 2 15 8 ∧ retireBad kind n = false) ∧ c.desc.reservedSet (commandLayout [0xFF03]) = false ∧ (if kind
      = 0 then s.portPresent n else if kind = 1 then s.ctxPresent n else s.bankPresent n) = true ∧ s.mpMay 7 = true ∧ s.norWindow = true ∧
      flash = .busy) ∧
    (∃ (flash : FlashAnswer) (c : MpCmd) (kind : Nat) (n : Nat) (s : State), (s.calm ∧ s.numbered ∧ s.carries 0x71 c ∧ c.left = [] ∧ kind =
      c.desc.fld 2 1 0 ∧ n = c.desc.fld 2 15 8 ∧ retireBad kind n = false) ∧ c.desc.reservedSet (commandLayout [0xFF03]) = false ∧ (if kind
      = 0 then s.portPresent n else if kind = 1 then s.ctxPresent n else s.bankPresent n) = true ∧ s.mpMay 7 = true ∧ s.norWindow = false) ∧
    (∃ (flash : FlashAnswer) (c : MpCmd) (kind : Nat) (n : Nat) (s : State), (s.calm ∧ s.numbered ∧ s.carries 0x71 c ∧ c.left = [] ∧ kind =
      c.desc.fld 2 1 0 ∧ n = c.desc.fld 2 15 8 ∧ retireBad kind n = false) ∧ c.desc.reservedSet (commandLayout [0xFF03]) = false ∧ (if kind
      = 0 then s.portPresent n else if kind = 1 then s.ctxPresent n else s.bankPresent n) = true ∧ s.mpMay 7 = true ∧ kind = 1) ∧
    (∃ (flash : FlashAnswer) (c : MpCmd) (kind : Nat) (n : Nat) (s : State), (s.calm ∧ s.numbered ∧ s.carries 0x71 c ∧ c.left = [] ∧ kind =
      c.desc.fld 2 1 0 ∧ n = c.desc.fld 2 15 8 ∧ retireBad kind n = false) ∧ c.desc.reservedSet (commandLayout [0xFF03]) = false ∧ (if kind
      = 0 then s.portPresent n else if kind = 1 then s.ctxPresent n else s.bankPresent n) = true ∧ s.mpMay 7 = true ∧ kind = 2) ∧
    (∃ (ok : Bool) (s : State), s.calm) ∧
    (∃ (ok : Bool) (s : State), s.calm ∧ s.dueErase = s ∧ (s.mp.running = false ∨ s.svc.recorded = true ∨ s.tb.toNat < s.svc.recAt +
      240000000000)) ∧
    (∃ (ok : Bool) (s : State), s.calm ∧ s.dueErase = s ∧ s.mp.running = true ∧ s.svc.recorded = false ∧ s.svc.recAt + 240000000000 ≤
      s.tb.toNat ∧ s.norWindow = false) ∧
    (∃ (ok : Bool) (s : State), s.calm ∧ s.dueErase = s ∧ s.mp.running = true ∧ s.svc.recorded = false ∧ s.svc.recAt + 240000000000 ≤
      s.tb.toNat ∧ s.norWindow = true ∧ ok = true) ∧
    (∃ (ok : Bool) (s : State), s.calm ∧ s.dueErase = s ∧ s.mp.running = true ∧ s.svc.recorded = false ∧ s.svc.recAt + 240000000000 ≤
      s.tb.toNat ∧ s.norWindow = true ∧ ok = false) :=
  ⟨⟨on, by unfold State.calm; decide +kernel⟩,
   ⟨⟨15, [0x80000070, 7, 0x00E]⟩, s591, by unfold State.commanded State.calm State.cqRoom; decide +kernel⟩,
   ⟨(domainOf 0), ⟨15, [0x80000070, 7, 0x000]⟩, s592, by unfold State.commanded State.calm State.cqRoom; decide +kernel⟩,
   ⟨(domainOf 6), ⟨15, [0x80000070, 7, 0x106]⟩, s593, by unfold State.commanded State.calm State.cqRoom; decide +kernel⟩,
   ⟨(domainOf 7), ⟨15, [0x80000070, 7, 0x007]⟩, s594, ((Status.ctxState, 0x10)),
      by unfold State.commanded State.calm State.cqRoom; decide +kernel, by decide +kernel⟩,
   ⟨(domainOf 5), ⟨15, [0x80000070, 7, 0x105]⟩, s595, by unfold State.commanded State.calm State.cqRoom; decide +kernel, by decide +kernel⟩,
   ⟨(domainOf 5), ⟨15, [0x80000070, 7, 0x105]⟩, s596, by unfold State.commanded State.calm State.cqRoom; decide +kernel, by decide +kernel⟩,
   ⟨(domainOf 5), ⟨15, [0x80000070, 7, 0x105]⟩, s597, by unfold State.commanded State.calm State.cqRoom; decide +kernel, by decide +kernel⟩,
   ⟨(domainOf 6), ⟨15, [0x80000070, 7, 0x106]⟩, s598, by unfold State.commanded State.calm State.cqRoom; decide +kernel, by decide +kernel⟩,
   ⟨(domainOf 5), ⟨15, [0x80000070, 7, 0x005]⟩, s599, by unfold State.commanded State.calm State.cqRoom; decide +kernel, by decide +kernel⟩,
   ⟨(domainOf 2), ⟨15, [0x80000070, 7, 0x002]⟩, s600, by unfold State.commanded State.calm State.cqRoom; decide +kernel,
      by unfold State.numbered; decide +kernel, by decide +kernel⟩,
   ⟨1, (domainOf 1), on, by unfold State.calm; decide +kernel⟩,
   ⟨0, (domainOf 0), s601, by unfold State.calm; decide +kernel⟩,
   ⟨5, (domainOf 5), s602, by unfold State.calm; decide +kernel⟩,
   ⟨6, (domainOf 6), s603, by unfold State.calm; decide +kernel⟩,
   ⟨5, on, by unfold State.calm; decide +kernel⟩,
   ⟨5, s604, ((⟨⟨15, [0x80000070, 7, 0x005]⟩, 0, [], [], some 7⟩ : MpCmd)), by unfold State.calm; decide +kernel,
      by unfold State.cqRoom; decide +kernel⟩,
   ⟨.service, 0xFFFFFFFF, s605, reaches_of (by decide +kernel), by unfold State.numbered State.calm; decide +kernel⟩,
   ⟨.service, 0xFFFFFFFF, on, reaches_of (by decide +kernel), by unfold State.numbered State.calm; decide +kernel, by decide +kernel⟩,
   ⟨.service, 0x20, s605, reaches_of (by decide +kernel), by unfold State.numbered State.calm; decide +kernel⟩,
   ⟨.service, .service, 0x4, on, reaches_of (by decide +kernel), by unfold State.numbered State.calm; decide +kernel⟩,
   ⟨5, .ds0, on, by unfold State.calm; decide +kernel⟩,
   ⟨7, (domainOf 7), s606, by unfold State.calm; decide +kernel⟩,
   ⟨12, (domainOf 12), s606, by unfold State.calm; decide +kernel⟩,
   ⟨on, by unfold State.calm; decide +kernel⟩,
   ⟨on, by unfold State.calm; decide +kernel⟩,
   ⟨s607, by unfold State.calm; decide +kernel⟩,
   ⟨s608, by unfold State.calm; decide +kernel⟩,
   ⟨.done, ⟨⟨15, [0x80000071, 7, 0xF00]⟩, 0, [], [], none⟩, 0, 15, on, by unfold State.numbered State.calm; decide +kernel⟩,
   ⟨.busy, ((⟨⟨15, [0x80000071, 7, 0xF00]⟩, 0, flashWorks, [], some 7⟩ : MpCmd)), 0, 15, s609,
      by unfold State.numbered State.carries State.calm State.cqRoom; decide +kernel⟩,
   ⟨.done, ((⟨⟨15, [0x80000071, 7, 0xF00]⟩, 0, flashWorks, [], some 7⟩ : MpCmd)), 0, 15, s609,
      by unfold State.numbered State.carries State.calm State.cqRoom; decide +kernel⟩,
   ⟨.failed, ((⟨⟨15, [0x80000071, 7, 0xF00]⟩, 0, flashWorks, [], some 7⟩ : MpCmd)), 0, 15, s609,
      by unfold State.numbered State.carries State.calm State.cqRoom; decide +kernel⟩,
   ⟨.done, ⟨⟨15, [0x80000071, 7, 0x1000]⟩, 0, [], [], none⟩, 0, 16, s610,
      by unfold State.numbered State.carries State.calm State.cqRoom; decide +kernel⟩,
   ⟨.done, ⟨⟨15, [0x80000071, 7, 0xF00]⟩, 0, [], [], none⟩, 0, 15, s611,
      by unfold State.numbered State.carries State.calm State.cqRoom; decide +kernel, by decide +kernel⟩,
   ⟨.done, ⟨⟨15, [0x80000071, 7, 0xF00]⟩, 0, [], [], none⟩, 0, 15, s612,
      by unfold State.numbered State.carries State.calm State.cqRoom; decide +kernel, by decide +kernel⟩,
   ⟨.done, ⟨⟨15, [0x80000071, 7, 0xF00]⟩, 0, [], [], none⟩, 0, 15, s613,
      by unfold State.numbered State.carries State.calm State.cqRoom; decide +kernel, by decide +kernel⟩,
   ⟨.failed, ⟨⟨15, [0x80000071, 7, 0xF00]⟩, 0, [], [], none⟩, 0, 15, s613,
      by unfold State.numbered State.carries State.calm State.cqRoom; decide +kernel, by decide +kernel⟩,
   ⟨.busy, ⟨⟨15, [0x80000071, 7, 0xF00]⟩, 0, [], [], none⟩, 0, 15, s613,
      by unfold State.numbered State.carries State.calm State.cqRoom; decide +kernel, by decide +kernel⟩,
   ⟨.done, ⟨⟨15, [0x80000071, 7, 0xF00]⟩, 0, [], [], none⟩, 0, 15, s614,
      by unfold State.numbered State.carries State.calm State.cqRoom; decide +kernel, by decide +kernel⟩,
   ⟨.done, ⟨⟨15, [0x80000071, 7, 0xFE01]⟩, 0, [], [], none⟩, 1, 254, s615,
      by unfold State.numbered State.carries State.calm State.cqRoom; decide +kernel, by decide +kernel⟩,
   ⟨.done, ⟨⟨15, [0x80000071, 7, 0x3F02]⟩, 0, [], [], none⟩, 2, 63, s616,
      by unfold State.numbered State.carries State.calm State.cqRoom; decide +kernel, by decide +kernel⟩,
   ⟨true, s540, by unfold State.calm; decide +kernel⟩,
   ⟨true, on, by unfold State.calm; decide +kernel⟩,
   ⟨true, s617, by unfold State.calm; decide +kernel⟩,
   ⟨true, s618, by unfold State.calm; decide +kernel⟩,
   ⟨false, s618, by unfold State.calm; decide +kernel⟩⟩

theorem witness_SuppliesAndClocks :
    (∃ (k : Fin 13) (s : State), (s.supplySeen k = false ∨ Store.get (fun _ => none) s.pcr.warnAt k ≠ none)) ∧
    (∃ (k : Fin 13) (s : State), s.supplySeen k = true ∧ Store.get (fun _ => none) s.pcr.warnAt k = none) ∧
    (∃ (k : Fin 13) (s : State), s.supplySeen k = true ∧ Store.get (fun _ => none) s.pcr.warnAt k = none ∧ s.hf.active = true) ∧
    (∃ (k : Fin 13) (s : State), s.hf.active = false ∧ Store.get (fun _ => none) s.pcr.warnAt k = none) ∧
    (∃ (k : Fin 13) (s : State), s.hf.active = true ∧ Store.get (fun _ => none) s.pcr.warnAt k = none) ∧
    (∃ (k : Fin 13) (s : State), s.hf.active = false ∧ Store.get (fun _ => none) s.pcr.warnAt k ≠ none) ∧
    (∃ (k : Fin 13) (s : State), s.hf.active = true ∧ Store.get (fun _ => none) s.pcr.warnAt k ≠ none) ∧
    (∃ (k : Fin 13) (s : State), s.numbered ∧ (Store.get (fun _ => none) s.pcr.warnAt k = none ∨ s.pcr.long.contains k.val = true ∨
      s.tb.toNat < (Store.get (fun _ => none) s.pcr.warnAt k).getD 0 + 8000000)) ∧
    (∃ (k : Fin 13) (s : State) (b : _), s.numbered ∧ Store.get (fun _ => none) s.pcr.warnAt k = some b ∧ s.pcr.long.contains k.val = false
      ∧ b + 8000000 ≤ s.tb.toNat ∧ s.hf.active = false) ∧
    (∃ (k : Fin 13) (s : State) (b : _), s.numbered ∧ Store.get (fun _ => none) s.pcr.warnAt k = some b ∧ s.pcr.long.contains k.val = false
      ∧ b + 8000000 ≤ s.tb.toNat ∧ s.hf.active = true) ∧
    (∃ (want : Nat) (code : Nat) (s : State), want = min 20 (s.rd Fld.PCR_AVS_REQ) ∧ code = s.rd Fld.PCR_AVS_CODE ∧ (s.on
      Fld.PF_STAT_LOADED = false ∨ s.tb.toNat < s.pcr.avsAt + 40000 ∨ code = want)) ∧
    (∃ (want : Nat) (code : Nat) (s : State), want = min 20 (s.rd Fld.PCR_AVS_REQ) ∧ code = s.rd Fld.PCR_AVS_CODE ∧ s.on Fld.PF_STAT_LOADED
      = true ∧ s.pcr.avsAt + 40000 ≤ s.tb.toNat ∧ code ≠ want) ∧
    (∃ (m : Master) (v : Word) (s : State), s.reaches Reg.PCR_TB_INC ∧ s.calm) ∧
    (∃ (s : State), s.calm ∧ s.domOn .ring = true) ∧
    (∃ (s : State), s.calm ∧ s.domOn .ring = false) ∧
    (∃ (i : Fin 27) (s : State), s.calm ∧ (i.val = 0 ∨ s.domOn (islandDomain i) = false ∨ bitOf (s.getReg Reg.PCR_PLL_STAT) i = false)) ∧
    (∃ (i : Fin 27) (s : State), s.calm ∧ (i.val = 0 ∨ s.domOn (islandDomain i) = false)) ∧
    (∃ (i : Fin 27) (s : State), s.calm ∧ i.val ≠ 0 ∧ s.domOn (islandDomain i) = true ∧ bitOf (s.getReg Reg.PCR_PLL_STAT) i = true) ∧
    (∃ (i : Fin 27) (s : State), s.calm ∧ i.val ≠ 0 ∧ s.domOn (islandDomain i) = true) :=
  ⟨⟨12, s619, by decide +kernel⟩,
   ⟨12, on, by decide +kernel⟩,
   ⟨3, s620, by decide +kernel⟩,
   ⟨12, on, by decide +kernel⟩,
   ⟨12, s620, by decide +kernel⟩,
   ⟨12, s621, by decide +kernel⟩,
   ⟨12, s622, by decide +kernel⟩,
   ⟨12, on, by unfold State.numbered; decide +kernel⟩,
   ⟨12, s623, 5, by unfold State.numbered; decide +kernel⟩,
   ⟨12, s624, 5, by unfold State.numbered; decide +kernel⟩,
   ⟨20, 20, s625, by decide +kernel⟩,
   ⟨20, 3, s626, by decide +kernel⟩,
   ⟨.mp, 5, on, reaches_of (by decide +kernel), by unfold State.calm; decide +kernel⟩,
   ⟨s627, by unfold State.calm; decide +kernel⟩,
   ⟨s628, by unfold State.calm; decide +kernel⟩,
   ⟨0, on, by unfold State.calm; decide +kernel⟩,
   ⟨0, on, by unfold State.calm; decide +kernel⟩,
   ⟨26, s629, by unfold State.calm; decide +kernel⟩,
   ⟨26, on, by unfold State.calm; decide +kernel⟩⟩

theorem witness_Resets :
    (∃ (s : State), Store.wf resetWord s.regs = true) ∧
    (∃ (s : State), Store.wf resetWord s.regs = true ∧ s.pcr.dieShut = false) ∧
    (∃ (s : State) (k : Fin 13), Store.wf resetWord s.regs = true ∧ s.pcr.dieShut = false ∧ k.val ≠ 12 ∧ s.supplySeen k = true) ∧
    (∃ (s : State) (m : Master) (v : Word), s.reaches Reg.PCR_RST ∧ Store.wf resetWord s.regs = true ∧ s.pcr.dieShut = false ∧ s.calm ∧
      bitsOf v 15 0 = 0x7E57) ∧
    (∃ (k : Fin 13) (m : Master) (v : Word) (s : State), s.pcr.dieShut = true) ∧
    (∃ (k : Fin 13) (m : Master) (v : Word) (s : State), s.pcr.dieShut = true ∧ k.val ≠ 12) ∧
    (∃ (k : Fin 13) (m : Master) (v : Word) (s : State), s.reaches Reg.PCR_RST ∧ s.pcr.dieShut = true ∧ s.calm) ∧
    (∃ (k : Fin 13) (m : Master) (v : Word) (s : State), k.val ≠ 12 ∧ s.supplySeen k = false) ∧
    (∃ (k : Fin 13) (m : Master) (v : Word) (s : State), s.reaches Reg.PCR_RST ∧ s.calm ∧ bitsOf v 15 0 ≠ 0x7E57) ∧
    (∃ (s : State), (s.pcr.start = none ∨ s.warned = true ∨ s.hf.active = true)) ∧
    (∃ (srcs : List Nat) (s : State), s.pcr.start = some srcs ∧ s.warned = false ∧ s.hf.active = false) ∧
    (∃ (srcs : List Nat) (s : State), s.pcr.start = some srcs ∧ s.warned = false ∧ s.hf.active = false ∧ s.pcr.dieShut = true ∧
      srcs.contains 29 = true) :=
  ⟨⟨on, by decide +kernel⟩,
   ⟨on, by decide +kernel⟩,
   ⟨on, 3, by decide +kernel⟩,
   ⟨on, .mp, 0x7E57, reaches_of (by decide +kernel), by unfold State.calm; decide +kernel⟩,
   ⟨3, .mp, 0x7E57, s630, by decide +kernel⟩,
   ⟨3, .mp, 0x7E57, s630, by decide +kernel⟩,
   ⟨3, .mp, 0x7E57, s630, reaches_of (by decide +kernel), by unfold State.calm; decide +kernel⟩,
   ⟨5, .mp, 0, s631, by decide +kernel⟩,
   ⟨3, .mp, 0x7E58, on, reaches_of (by decide +kernel), by unfold State.calm; decide +kernel⟩,
   ⟨on, by decide +kernel⟩,
   ⟨[30], s632, by decide +kernel⟩,
   ⟨[29, 31], s633, by decide +kernel⟩⟩

theorem witness_Freezing :
    (∃ (s : State), s.hf.active = false) ∧
    (∃ (s : State), s.hf.active = true) ∧
    (∃ (s : State), s.hf.active = true) ∧
    (∃ (m : Master) (v : Word) (s : State), s.reaches Reg.HF_CTL ∧ s.calm ∧ bitOf v 31 = true ∧ bitsOf v 15 0 = 0xC01D) ∧
    (∃ (m : Master) (v : Word) (s : State), s.reaches Reg.HF_CTL ∧ s.calm ∧ (bitOf v 31 = false ∨ bitsOf v 15 0 ≠ 0xC01D)) ∧
    (∃ (i : Fin 27) (s : State), (s.hf.active = false ∨ s.islandTakesPart i = false)) ∧
    (∃ (i : Fin 27) (s : State), s.hf.active = true ∧ s.islandTakesPart i = true) ∧
    (∃ (i : Fin 27) (s : State), s.hf.active = true ∧ s.islandTakesPart i = true ∧ (∀ j < 27, j ≠ i.val → s.islandTakesPart j = true →
      s.islandStopped j = true) ∧ s.on Fld.HF_STAT_FROZEN = false) ∧
    (∃ (s : State), s.hf.active = false) ∧
    (∃ (s : State), (s.hf.active = false ∨ s.rd Fld.HF_STAT_CAUSE ≠ 1)) ∧
    (∃ (s : State), (s.hf.active = false ∨ s.hf.pinLow = true)) ∧
    (∃ (s : State), (s.hf.active = false ∨ s.hf.pinLow = true ∨ s.on Fld.HF_STAT_FROZEN = false ∨ s.rd Fld.HF_CFG_REL_TMO = 0 ∨ s.tb.toNat
      < s.hf.frozen + s.rd Fld.HF_CFG_REL_TMO * 4000000)) ∧
    (∃ (s : State), s.hf.active = true ∧ s.numbered ∧ s.rd Fld.HF_STAT_CAUSE = 1) ∧
    (∃ (s : State), s.hf.active = true ∧ s.numbered ∧ s.hf.pinLow = false ∧ s.on Fld.HF_STAT_FROZEN = true ∧ s.rd Fld.HF_CFG_REL_TMO ≠ 0 ∧
      s.hf.frozen + s.rd Fld.HF_CFG_REL_TMO * 4000000 ≤ s.tb.toNat) ∧
    (∃ (s : State), s.hf.active = true ∧ s.numbered ∧ s.hf.pinLow = false) ∧
    (∃ (s : State) (t : State), t = s.release ∧ s.hf.active = true ∧ s.hf.pinLow = false ∧ s.numbered) ∧
    (∃ (s : State) (t : State), t = s.release ∧ s.hf.active = true ∧ s.hf.pinLow = false ∧ s.numbered) ∧
    (∃ (s : State) (t : State), t = s.release ∧ s.hf.active = true ∧ s.hf.pinLow = false ∧ s.numbered) ∧
    (∃ (s : State) (t : State), t = s.release ∧ s.hf.active = true ∧ s.hf.pinLow = false ∧ s.numbered) ∧
    (∃ (s : State) (t : State), t = s.release ∧ s.hf.active = true ∧ s.hf.pinLow = false ∧ s.numbered) ∧
    (∃ (s : State) (t : State), t = s.release ∧ s.hf.active = true ∧ s.hf.pinLow = false ∧ s.numbered) ∧
    (∃ (s : State) (t : State), t = s.release ∧ s.hf.active = true ∧ s.hf.pinLow = false ∧ s.numbered) ∧
    (∃ (s : State) (t : State) (c : _), t = s.release ∧ s.hf.active = true ∧ s.hf.pinLow = false ∧ s.numbered ∧ c < 255 ∧ s.ctxState c ≠ 0)
      ∧
    (∃ (s : State) (t : State) (i : _), t = s.release ∧ s.hf.active = true ∧ s.hf.pinLow = false ∧ s.numbered ∧ i < 17) ∧
    (∃ (s : State) (t : State) (p : _), t = s.release ∧ s.hf.active = true ∧ s.hf.pinLow = false ∧ s.numbered ∧ p < 16) ∧
    (∃ (s : State) (t : State), t = s.release ∧ s.hf.active = true ∧ s.hf.pinLow = false ∧ s.numbered) ∧
    (∃ (s : State) (t : State), t = s.release ∧ s.hf.active = true ∧ s.hf.pinLow = false ∧ s.numbered) ∧
    (∃ (s : State) (t : State), t = s.release ∧ s.hf.active = true ∧ s.hf.pinLow = false ∧ s.numbered ∧ s.domOn .ring = true) ∧
    (∃ (s : State) (t : State), t = s.release ∧ s.hf.active = true ∧ s.hf.pinLow = false ∧ s.numbered ∧ s.domOn .ring = true) ∧
    (∃ (s : State) (t : State) (a : _), t = s.release ∧ s.hf.active = true ∧ s.hf.pinLow = false ∧ s.numbered ∧ a < 8 ∧ s.domOn .motion =
      true ∧ s.axState a ∈ [3, 4, 5]) ∧
    (∃ (s : State) (t : State) (a : _), t = s.release ∧ s.hf.active = true ∧ s.hf.pinLow = false ∧ s.numbered ∧ a < 8 ∧ s.domOn .motion =
      true ∧ s.axState a ∈ [3, 4, 5]) ∧
    (∃ (s : State) (t : State), t = s.release ∧ s.hf.active = true ∧ s.hf.pinLow = false ∧ s.numbered) ∧
    (∃ (s : State) (t : State) (k : Fin 51), t = s.release ∧ s.hf.active = true ∧ s.hf.pinLow = false ∧ s.numbered ∧ s.hf.perst = true ∧
      s.domOn .host = true) ∧
    (∃ (c : Instr) (s : State), s.hf.active = true ∧ runsFrozen c = false) :=
  ⟨⟨s634, by decide +kernel⟩,
   ⟨s620, by decide +kernel⟩,
   ⟨s620, by decide +kernel⟩,
   ⟨.mp, 0x8000C01D, s634, reaches_of (by decide +kernel), by unfold State.calm; decide +kernel⟩,
   ⟨.mp, 0x0000C01D, s634, reaches_of (by decide +kernel), by unfold State.calm; decide +kernel⟩,
   ⟨26, on, by decide +kernel⟩,
   ⟨26, s620, by decide +kernel⟩,
   ⟨26, ((edit (fun z => { z with hf := { z.hf with active := true } }) ((List.range 26).foldl (fun s i => after (.islandStopped (Fin.ofNat
      27 i)) s) b184))), by decide +kernel⟩,
   ⟨s634, by decide +kernel⟩,
   ⟨on, by decide +kernel⟩,
   ⟨on, by decide +kernel⟩,
   ⟨s635, by decide +kernel⟩,
   ⟨s636, by unfold State.numbered; decide +kernel⟩,
   ⟨s637, by unfold State.numbered; decide +kernel⟩,
   ⟨s638, by unfold State.numbered; decide +kernel⟩,
   ⟨s639, s640, rfl, by unfold State.numbered; decide +kernel⟩,
   ⟨s639, s640, rfl, by unfold State.numbered; decide +kernel⟩,
   ⟨s639, s640, rfl, by unfold State.numbered; decide +kernel⟩,
   ⟨s639, s640, rfl, by unfold State.numbered; decide +kernel⟩,
   ⟨s639, s640, rfl, by unfold State.numbered; decide +kernel⟩,
   ⟨s639, s640, rfl, by unfold State.numbered; decide +kernel⟩,
   ⟨s639, s640, rfl, by unfold State.numbered; decide +kernel⟩,
   ⟨s639, s640, 254, rfl, by unfold State.numbered; decide +kernel⟩,
   ⟨s639, s640, 16, rfl, by unfold State.numbered; decide +kernel⟩,
   ⟨s639, s640, 15, rfl, by unfold State.numbered; decide +kernel⟩,
   ⟨s639, s640, rfl, by unfold State.numbered; decide +kernel⟩,
   ⟨s639, s640, rfl, by unfold State.numbered; decide +kernel⟩,
   ⟨s639, s640, rfl, by unfold State.numbered; decide +kernel⟩,
   ⟨s639, s640, rfl, by unfold State.numbered; decide +kernel⟩,
   ⟨s639, s640, 7, rfl, by unfold State.numbered; decide +kernel⟩,
   ⟨s639, s640, 7, rfl, by unfold State.numbered; decide +kernel⟩,
   ⟨s639, s640, rfl, by unfold State.numbered; decide +kernel⟩,
   ⟨s639, s640, 50, rfl, by unfold State.numbered; decide +kernel⟩,
   ⟨(.nop 0), s620, by decide +kernel⟩⟩

theorem witness_TestPort :
    (∃ (s : State), s.tap.sel = 0) ∧
    (∃ (s : State), s.tap.sel = 0) ∧
    (∃ (s : State), s.tap.sel = 0) ∧
    (∃ (s : State), 0 < s.tap.sel ∧ s.tap.sel ≤ 26 ∧ s.islandStopped s.tap.sel = false) ∧
    (∃ (s : State), 26 < s.tap.sel) ∧
    (∃ (regs : List Bool) (s : State), regs = (islandRegs s.tap.sel).flatMap (fun a => bitsFrom 32 (s.chainWord a).toNat) ∧ 0 < s.tap.sel ∧
      s.tap.sel ≤ 26 ∧ s.islandStopped s.tap.sel = true) ∧
    (∃ (a : Nat) (s : State), a < 0x4000000 ∧ s.islandStopped 4 = true ∧ s.bankPresent (bankOf a) = true ∧ s.domOn (bankDomain (bankOf a))
      = true) ∧
    (∃ (a : Nat) (s : State), a < 0x4000000 ∧ s.islandStopped 4 = false) ∧
    (∃ (a : Nat) (s : State), 0x20000000 ≤ a ∧ a < 0x20200000 ∧ s.islandStopped 1 = true) ∧
    (∃ (a : Nat) (s : State), 0x20000000 ≤ a ∧ a < 0x20200000 ∧ s.islandStopped 1 = false) ∧
    (∃ (a : Nat) (s : State), 0x4300000 ≤ a ∧ a < 0x4400000 ∧ (∀ i, islandOf a = some i → s.islandStopped i = true) ∧ (islandOf a).isSome =
      true) ∧
    (∃ (a : Nat) (s : State), 0x4000000 ≤ a ∧ (a < 0x20000000 ∨ 0x20200000 ≤ a) ∧ inArray a = false) ∧
    (∃ (s : State), s.hf.active = true) ∧
    (∃ (s : State), (s.hf.active = false ∨ s.hf.pinLow = true)) ∧
    (∃ (pins : List Bool) (cells : List Bool) (s : State), (s.on Fld.HF_STAT_FROZEN = true ∨ (s.pcr.start.getD []).contains 30 = true)) ∧
    (∃ (pins : List Bool) (cells : List Bool) (s : State), (s.on Fld.HF_STAT_FROZEN = true ∨ (s.pcr.start.getD []).contains 30 = true)) ∧
    (∃ (pins : List Bool) (cells : List Bool) (s : State), (s.on Fld.HF_STAT_FROZEN = true ∨ (s.pcr.start.getD []).contains 30 = true)) ∧
    (∃ (pins : List Bool) (cells : List Bool) (s : State), s.on Fld.HF_STAT_FROZEN = false ∧ (s.pcr.start.getD []).contains 30 = false) ∧
    (∃ (pins : List Bool) (cells : List Bool) (s : State), s.on Fld.HF_STAT_FROZEN = false ∧ (s.pcr.start.getD []).contains 30 = false) ∧
    (∃ (pins : List Bool) (cells : List Bool) (s : State), s.on Fld.HF_STAT_FROZEN = false ∧ (s.pcr.start.getD []).contains 30 = false) :=
  ⟨⟨s641, by decide +kernel⟩,
   ⟨s641, by decide +kernel⟩,
   ⟨s641, by decide +kernel⟩,
   ⟨s642, by decide +kernel⟩,
   ⟨s643, by decide +kernel⟩,
   ⟨(((islandRegs (s644).tap.sel).flatMap (fun a => bitsFrom 32 ((s644).chainWord a).toNat))), s644, rfl, by decide +kernel⟩,
   ⟨0x100, s645, by decide +kernel⟩,
   ⟨0x100, on, by decide +kernel⟩,
   ⟨0x20000004, s646, by decide +kernel⟩,
   ⟨0x20000004, on, by decide +kernel⟩,
   ⟨0x4300000, s647, by decide +kernel⟩,
   ⟨0x4D00000, on, by decide +kernel⟩,
   ⟨s620, by decide +kernel⟩,
   ⟨on, by decide +kernel⟩,
   ⟨[true], [false], s632, by decide +kernel⟩,
   ⟨[true], [false], s632, by decide +kernel⟩,
   ⟨[true], [false], s632, by decide +kernel⟩,
   ⟨[true], [false], on, by decide +kernel⟩,
   ⟨[true], [false], on, by decide +kernel⟩,
   ⟨[true], [false], on, by decide +kernel⟩⟩

theorem witness_RegisterAccess :
    (∃ (m : Master) (a : BusAddr) (b : BlockName) (c : Nat) (off : Nat) (v : Word) (s : State), s.calm ∧ 0x4000000 ≤ deviceAddr a ∧
      deviceAddr a % 4 = 0 ∧ inWindow (deviceAddr a) = false ∧ s.reach (deviceAddr a) = .open b c off) ∧
    (∃ (m : Master) (a : BusAddr) (b : BlockName) (c : Nat) (off : Nat) (v : Word) (s : State), s.calm ∧ 0x4000000 ≤ deviceAddr a ∧
      deviceAddr a % 4 = 0 ∧ inWindow (deviceAddr a) = false ∧ s.reach (deviceAddr a) = .open b c off ∧ b ∈ [.cons, .svc]) ∧
    (∃ (m : Master) (a : BusAddr) (b : BlockName) (c : Nat) (off : Nat) (v : Word) (s : State), s.calm ∧ 0x4000000 ≤ deviceAddr a ∧
      deviceAddr a % 4 = 0 ∧ inWindow (deviceAddr a) = false ∧ s.reach (deviceAddr a) = .open b c off ∧ b = .wram) ∧
    (∃ (m : Master) (a : Nat) (v : Word) (s : State), rowOf a = none) ∧
    (∃ (m : Master) (a : Nat) (v : Word) (r : RegRow) (s : State), rowOf a = some r ∧ (r.wlen ≤ 1 ∨ r.rw = 0)) ∧
    (∃ (m : Master) (a : Nat) (v : Word) (r : RegRow) (s : State), rowOf a = some r ∧ (r.wlen ≤ 1 ∨ r.rw = 0)) ∧
    (∃ (m : Master) (a : Nat) (v : Word) (r : RegRow) (s : State), rowOf a = some r ∧ (r.wlen ≤ 1 ∨ r.rw = 0)) ∧
    (∃ (m : Master) (a : Nat) (v : Word) (r : RegRow) (s : State), rowOf a = some r ∧ 1 < r.wlen ∧ r.rw ≠ 0 ∧ r.wide + 1 < r.wlen) ∧
    (∃ (m : Master) (a : Nat) (v : Word) (r : RegRow) (s : State), rowOf a = some r ∧ 1 < r.wlen ∧ r.rw ≠ 0 ∧ r.wide + 1 < r.wlen) ∧
    (∃ (m : Master) (a : Nat) (v : Word) (r : RegRow) (s : State) (w : _) (q : _), rowOf a = some r ∧ r.rw ≠ 0 ∧ r.wide = 1 ∧ r.wlen = 2 ∧
      Store.get (fun _ => none) s.staged (masterKey m (a - 4)) = some w ∧ rowOf (a - 4) = some q ∧ 4 ≤ a) ∧
    (∃ (m : Master) (a : Nat) (v : Word) (r : RegRow) (s : State) (w : _) (q : _), rowOf a = some r ∧ r.rw ≠ 0 ∧ r.wide = 1 ∧ r.wlen = 2 ∧
      Store.get (fun _ => none) s.staged (masterKey m (a - 4)) = some w ∧ rowOf (a - 4) = some q ∧ 4 ≤ a) ∧
    (∃ (m : Master) (a : Nat) (v : Word) (r : RegRow) (s : State) (w : _) (q : _), rowOf a = some r ∧ r.rw ≠ 0 ∧ r.wide = 1 ∧ r.wlen = 2 ∧
      Store.get (fun _ => none) s.staged (masterKey m (a - 4)) = some w ∧ rowOf (a - 4) = some q ∧ 4 ≤ a) ∧
    (∃ (r : RegRow) (old : Word) (v : Word) (i : Nat), i < 32 ∧ r.w1s.testBit i = true ∧ v.getLsbD i = true) ∧
    (∃ (r : RegRow) (old : Word) (v : Word) (i : Nat), i < 32 ∧ (r.w1s.testBit i = false ∨ v.getLsbD i = false) ∧ r.w1c.testBit i = true ∧
      v.getLsbD i = true) ∧
    (∃ (r : RegRow) (old : Word) (v : Word) (i : Nat), i < 32 ∧ r.w1s.testBit i = false ∧ r.w1c.testBit i = false ∧ r.rw.testBit i = true) ∧
    (∃ (r : RegRow) (old : Word) (v : Word) (i : Nat), i < 32 ∧ r.rw.testBit i = false ∧ (v.getLsbD i = false ∨ (r.w1s.testBit i = false ∧
      r.w1c.testBit i = false))) ∧
    (∃ (m : Master) (a : BusAddr) (len : Nat) (b : BlockName) (c : Nat) (off : Nat) (v : Word) (s : State), s.calm ∧ 0x4000000 ≤ deviceAddr
      a ∧ inWindow (deviceAddr a) = false ∧ 0 < len ∧ len < 4 ∧ deviceAddr a % 4 + len ≤ 4 ∧ s.reach (deviceAddr a / 4 * 4) = .open b c
      off) ∧
    (∃ (m : Master) (a : BusAddr) (words : List Word) (s : State), s.hf.active = false ∧ 0x4000000 ≤ deviceAddr a ∧ deviceAddr a % 4 = 0 ∧
      words ≠ []) ∧
    (∃ (m : Master) (a : BusAddr) (len : Nat) (w : Nat) (b : BlockName) (c : Nat) (off : Nat) (s : State), (s.calm ∧ 0x4000000 ≤ deviceAddr
      a ∧ inWindow (deviceAddr a) = false ∧ 0 < len ∧ deviceAddr a % 4 + len ≤ 4 ∧ w = deviceAddr a / 4 * 4 ∧ s.reach w = .open b c off) ∧
      b ≠ .buf ∧ w ≠ Reg.PCR_MP_LOAD ∧ s.snap m w = none ∧ b = .port) ∧
    (∃ (m : Master) (a : BusAddr) (len : Nat) (w : Nat) (b : BlockName) (c : Nat) (off : Nat) (s : State) (x : _), (s.calm ∧ 0x4000000 ≤
      deviceAddr a ∧ inWindow (deviceAddr a) = false ∧ 0 < len ∧ deviceAddr a % 4 + len ≤ 4 ∧ w = deviceAddr a / 4 * 4 ∧ s.reach w = .open
      b c off) ∧ b ≠ .buf ∧ s.snap m w = some x) ∧
    (∃ (m : Master) (a : BusAddr) (len : Nat) (w : Nat) (b : BlockName) (c : Nat) (off : Nat) (s : State) (k : Fin 49), (s.calm ∧ 0x4000000
      ≤ deviceAddr a ∧ inWindow (deviceAddr a) = false ∧ 0 < len ∧ deviceAddr a % 4 + len ≤ 4 ∧ w = deviceAddr a / 4 * 4 ∧ s.reach w =
      .open b c off) ∧ b = .db ∧ s.snap m w = none ∧ w = Reg.DOORBELL k) ∧
    (∃ (m : Master) (a : BusAddr) (len : Nat) (w : Nat) (b : BlockName) (c : Nat) (off : Nat) (s : State), (s.calm ∧ 0x4000000 ≤ deviceAddr
      a ∧ inWindow (deviceAddr a) = false ∧ 0 < len ∧ deviceAddr a % 4 + len ≤ 4 ∧ w = deviceAddr a / 4 * 4 ∧ s.reach w = .open b c off) ∧
      b = .buf ∧ (s.bar.used = false ∨ s.bar.fresh.contains w = true) ∧ s.snap m w = none) ∧
    (∃ (m : Master) (a : BusAddr) (len : Nat) (w : Nat) (b : BlockName) (c : Nat) (off : Nat) (s : State), (s.calm ∧ 0x4000000 ≤ deviceAddr
      a ∧ inWindow (deviceAddr a) = false ∧ 0 < len ∧ deviceAddr a % 4 + len ≤ 4 ∧ w = deviceAddr a / 4 * 4 ∧ s.reach w = .open b c off) ∧
      b = .buf ∧ s.bar.used = true ∧ s.bar.fresh.contains w = false) ∧
    (∃ (m : Master) (a : BusAddr) (len : Nat) (w : Nat) (b : BlockName) (c : Nat) (off : Nat) (s : State), (s.calm ∧ 0x4000000 ≤ deviceAddr
      a ∧ inWindow (deviceAddr a) = false ∧ 0 < len ∧ deviceAddr a % 4 + len ≤ 4 ∧ w = deviceAddr a / 4 * 4 ∧ s.reach w = .open b c off) ∧
      b = .pcr ∧ w = Reg.PCR_MP_LOAD ∧ s.snap m w = none ∧ s.mp.running = true) ∧
    (∃ (m : Master) (a : BusAddr) (len : Nat) (w : Nat) (b : BlockName) (c : Nat) (off : Nat) (s : State), (s.calm ∧ 0x4000000 ≤ deviceAddr
      a ∧ inWindow (deviceAddr a) = false ∧ 0 < len ∧ deviceAddr a % 4 + len ≤ 4 ∧ w = deviceAddr a / 4 * 4 ∧ s.reach w = .open b c off) ∧
      b = .pcr ∧ w = Reg.PCR_MP_LOAD ∧ s.snap m w = none ∧ s.mp.running = false) ∧
    (∃ (m : Master) (a : BusAddr) (n : Nat) (s : State), s.hf.active = false ∧ 0x4000000 ≤ deviceAddr a ∧ deviceAddr a % 4 = 0 ∧ 0 < n) ∧
    (∃ (m : Master) (a : BusAddr) (len : Nat) (w : Nat) (v : Word) (s : State) (src : _), s.calm ∧ 0x4000000 ≤ deviceAddr a ∧ inWindow
      (deviceAddr a) = false ∧ 0 < len ∧ deviceAddr a % 4 + len ≤ 4 ∧ w = deviceAddr a / 4 * 4 ∧ ((s.reach w = .unmapped ∧ src = 0x200) ∨
      (s.reach w = .off ∧ src = 0x201))) ∧
    (∃ (m : Master) (a : BusAddr) (len : Nat) (w : Nat) (v : Word) (s : State) (src : _), s.calm ∧ 0x4000000 ≤ deviceAddr a ∧ inWindow
      (deviceAddr a) = false ∧ 0 < len ∧ deviceAddr a % 4 + len ≤ 4 ∧ w = deviceAddr a / 4 * 4 ∧ ((s.reach w = .unmapped ∧ src = 0x200) ∨
      (s.reach w = .off ∧ src = 0x201))) ∧
    (∃ (m : Master) (a : BusAddr) (len : Nat) (w : Nat) (v : Word) (s : State) (b : _) (c : _) (off : _), s.calm ∧ 0x4000000 ≤ deviceAddr a
      ∧ inWindow (deviceAddr a) = false ∧ 0 < len ∧ deviceAddr a % 4 + len ≤ 4 ∧ w = deviceAddr a / 4 * 4 ∧ s.reach w = .absent b c off) ∧
    (∃ (m : Master) (a : BusAddr) (len : Nat) (w : Nat) (v : Word) (s : State) (b : _) (c : _) (off : _), s.calm ∧ 0x4000000 ≤ deviceAddr a
      ∧ inWindow (deviceAddr a) = false ∧ 0 < len ∧ deviceAddr a % 4 + len ≤ 4 ∧ w = deviceAddr a / 4 * 4 ∧ s.reach w = .absent b c off) ∧
    (∃ (m : Master) (a : BusAddr) (len : Nat) (w : Nat) (v : Word) (s : State), s.calm ∧ 0x4000000 ≤ deviceAddr a ∧ inWindow (deviceAddr a)
      = false ∧ 0 < len ∧ deviceAddr a % 4 + len ≤ 4 ∧ w = deviceAddr a / 4 * 4 ∧ s.reach w = .held) ∧
    (∃ (m : Master) (a : BusAddr) (len : Nat) (w : Nat) (v : Word) (s : State), s.calm ∧ 0x4000000 ≤ deviceAddr a ∧ inWindow (deviceAddr a)
      = false ∧ 0 < len ∧ deviceAddr a % 4 + len ≤ 4 ∧ w = deviceAddr a / 4 * 4 ∧ s.reach w = .held) ∧
    (∃ (m : Master) (a : BusAddr) (v : Word) (s : State), s.calm ∧ inWindow (deviceAddr a) = true ∧ deviceAddr a % 4 = 0 ∧ s.domOn .mgmt =
      true ∧ s.windowOpen = true) ∧
    (∃ (m : Master) (a : BusAddr) (v : Word) (s : State), s.calm ∧ inWindow (deviceAddr a) = true ∧ deviceAddr a % 4 = 0 ∧ s.domOn .mgmt =
      true ∧ s.windowOpen = true) ∧
    (∃ (m : Master) (a : BusAddr) (v : Word) (s : State), s.calm ∧ inWindow (deviceAddr a) = true ∧ deviceAddr a % 4 = 0 ∧ s.domOn .mgmt =
      true ∧ s.windowOpen = false) ∧
    (∃ (m : Master) (a : BusAddr) (v : Word) (s : State), s.calm ∧ inWindow (deviceAddr a) = true ∧ deviceAddr a % 4 = 0 ∧ s.domOn .mgmt =
      true ∧ s.windowOpen = false) ∧
    (∃ (m : Master) (a : BusAddr) (v : Word) (s : State), s.calm ∧ inWindow (deviceAddr a) = true ∧ deviceAddr a % 4 = 0 ∧ s.domOn .mgmt =
      false) ∧
    (∃ (m : Master) (a : BusAddr) (v : Word) (s : State), s.calm ∧ inWindow (deviceAddr a) = true ∧ deviceAddr a % 4 = 0 ∧ s.domOn .mgmt =
      false) :=
  ⟨⟨.host, ⟨.device, Reg.CONS_P_STAT 15⟩, .cons, 0, 5060, 9, on, by unfold State.calm; decide +kernel⟩,
   ⟨.host, ⟨.device, Reg.CONS_P_STAT 15⟩, .cons, 0, 5060, 9, on, by unfold State.calm; decide +kernel⟩,
   ⟨.host, ⟨.device, 0x43F0004⟩, .wram, 15, 4, 9, on, by unfold State.calm; decide +kernel⟩,
   ⟨.host, 0x4D0F088, 9, on, by decide +kernel⟩,
   ⟨.host, Reg.HOST_CTL, 0xFFFFFFFF, (((rowOf Reg.HOST_CTL).getD ⟨0,0,0,0,0,0,0,0,0,0,0,0⟩)), on, by decide +kernel⟩,
   ⟨.host, Reg.DIB_TB_LO, 0xFFFFFFFF, (((rowOf Reg.DIB_TB_LO).getD ⟨0,0,0,0,0,0,0,0,0,0,0,0⟩)), on, by decide +kernel⟩,
   ⟨.host, Reg.DIB_TB_LO, 0xFFFFFFFF, (((rowOf Reg.DIB_TB_LO).getD ⟨0,0,0,0,0,0,0,0,0,0,0,0⟩)), on, by decide +kernel⟩,
   ⟨.host, (Reg.HOST_RBASE_LO 50), 0xFFFFFFFF, (((rowOf (Reg.HOST_RBASE_LO 50)).getD ⟨0,0,0,0,0,0,0,0,0,0,0,0⟩)), on, by decide +kernel⟩,
   ⟨.host, (Reg.HOST_RBASE_LO 50), 0xFFFFFFFF, (((rowOf (Reg.HOST_RBASE_LO 50)).getD ⟨0,0,0,0,0,0,0,0,0,0,0,0⟩)), on, by decide +kernel⟩,
   ⟨.host, (Reg.HOST_RBASE_HI 50), 7, (((rowOf (Reg.HOST_RBASE_HI 50)).getD ⟨0,0,0,0,0,0,0,0,0,0,0,0⟩)), s648, 0x5000, (((rowOf
      (Reg.HOST_RBASE_LO 50)).getD ⟨0,0,0,0,0,0,0,0,0,0,0,0⟩)), by decide +kernel⟩,
   ⟨.host, (Reg.HOST_RBASE_HI 50), 7, (((rowOf (Reg.HOST_RBASE_HI 50)).getD ⟨0,0,0,0,0,0,0,0,0,0,0,0⟩)), s648, 0x5000, (((rowOf
      (Reg.HOST_RBASE_LO 50)).getD ⟨0,0,0,0,0,0,0,0,0,0,0,0⟩)), by decide +kernel⟩,
   ⟨.host, (Reg.HOST_RBASE_HI 50), 7, (((rowOf (Reg.HOST_RBASE_HI 50)).getD ⟨0,0,0,0,0,0,0,0,0,0,0,0⟩)), s648, 0x5000, (((rowOf
      (Reg.HOST_RBASE_LO 50)).getD ⟨0,0,0,0,0,0,0,0,0,0,0,0⟩)), by decide +kernel⟩,
   ⟨((⟨0,1,4,1,4,0,0,0x80000000,0,0,0,0⟩ : RegRow)), 0, 0x80000000, 31, by decide +kernel⟩,
   ⟨((⟨0,1,4,1,4,0,1,0,0,0,0,0⟩ : RegRow)), 1, 1, 0, by decide +kernel⟩,
   ⟨((⟨0,1,4,1,4,1,0,0,0,0,0,0⟩ : RegRow)), 1, 0, 0, by decide +kernel⟩,
   ⟨((⟨0,1,4,1,4,1,0,0,0,0,0,0⟩ : RegRow)), 0x80000000, 0x7FFFFFFF, 31, by decide +kernel⟩,
   ⟨.host, ⟨.device, Reg.PCR_AVS + 0⟩, 3, .pcr, 0, 100, 9, on, by unfold State.calm; decide +kernel⟩,
   ⟨.host, ⟨.device, Reg.HOST_RBASE_LO 50⟩, [0x5000, 7], on, by decide +kernel⟩,
   ⟨.host, ⟨.device, Reg.PORT_STAT 15 + 3⟩, 1, (Reg.PORT_STAT 15), .port, 15, 8, on, by unfold State.calm; decide +kernel,
      by decide +kernel⟩,
   ⟨.host, ⟨.device, Reg.HOST_RBASE_HI 50 + 0⟩, 4, (Reg.HOST_RBASE_HI 50), .host, 0, 0x744, s649, 9, by unfold State.calm; decide +kernel,
      by decide +kernel⟩,
   ⟨.host, ⟨.device, Reg.DOORBELL 48 + 0⟩, 4, (Reg.DOORBELL 48), .db, 0, 384, on, 48, by unfold State.calm; decide +kernel,
      by decide +kernel⟩,
   ⟨.host, ⟨.device, 0x4440000 + 0⟩, 4, 0x4440000, .buf, 0, 0, on, by unfold State.calm; decide +kernel, by decide +kernel⟩,
   ⟨.host, ⟨.device, 0x4440000 + 0⟩, 4, 0x4440000, .buf, 0, 0, s650, by unfold State.calm; decide +kernel, by decide +kernel⟩,
   ⟨.host, ⟨.device, Reg.PCR_MP_LOAD + 0⟩, 4, Reg.PCR_MP_LOAD, .pcr, 0, 116, on, by unfold State.calm; decide +kernel, by decide +kernel⟩,
   ⟨.host, ⟨.device, Reg.PCR_MP_LOAD + 0⟩, 4, Reg.PCR_MP_LOAD, .pcr, 0, 116, s275, by unfold State.calm; decide +kernel, by decide +kernel⟩,
   ⟨.host, ⟨.device, Reg.HOST_RBASE_LO 50⟩, 2, on, by decide +kernel⟩,
   ⟨.mp, ⟨.device, 0x7FFFFFE⟩, 2, 0x7FFFFFC, 9, on, 0x200, by unfold State.calm; decide +kernel⟩,
   ⟨.mp, ⟨.device, 0x7FFFFFE⟩, 2, 0x7FFFFFC, 9, on, 0x200, by unfold State.calm; decide +kernel⟩,
   ⟨.mp, ⟨.device, Reg.PORT_CFG 15⟩, 4, (Reg.PORT_CFG 15), 9, s651, .port, 15, 4, by unfold State.calm; decide +kernel⟩,
   ⟨.mp, ⟨.device, Reg.PORT_CFG 15⟩, 4, (Reg.PORT_CFG 15), 9, s651, .port, 15, 4, by unfold State.calm; decide +kernel⟩,
   ⟨.mp, ⟨.device, Reg.HOST_CTL⟩, 4, Reg.HOST_CTL, 9, s652, by unfold State.calm; decide +kernel⟩,
   ⟨.mp, ⟨.device, Reg.HOST_CTL⟩, 4, Reg.HOST_CTL, 9, s652, by unfold State.calm; decide +kernel⟩,
   ⟨.mp, ⟨.device, 0x4AFFFFC⟩, 0x12345678, s653, by unfold State.calm; decide +kernel⟩,
   ⟨.mp, ⟨.device, 0x4AFFFFC⟩, 0x12345678, s653, by unfold State.calm; decide +kernel⟩,
   ⟨.mp, ⟨.device, 0x4A80000⟩, 9, s654, by unfold State.calm; decide +kernel⟩,
   ⟨.mp, ⟨.device, 0x4A80000⟩, 9, s654, by unfold State.calm; decide +kernel⟩,
   ⟨.mp, ⟨.device, 0x4A80000⟩, 9, s655, by unfold State.calm; decide +kernel⟩,
   ⟨.mp, ⟨.device, 0x4A80000⟩, 9, s655, by unfold State.calm; decide +kernel⟩⟩

theorem witness_RefusedWrites :
    (∃ (c : Instr) (m : Master) (a : Nat) (s : State) (u : State), s.turned m a u ∧ s.calm ∧ writeTarget c = some (m, a)) ∧
    (∃ (c : Instr) (m : Master) (a : Nat) (s : State) (u : State), s.turned m a u ∧ s.calm ∧ watchedTarget c = some (m, a)) ∧
    (∃ (c : Instr) (m : Master) (a : Nat) (s : State), s.hf.active = true ∧ (writeTarget c = some (m, a) ∨ watchedTarget c = some (m, a)))
      :=
  ⟨⟨(.ringEnable .mp 50 9), .mp, (Reg.HOST_RCTL 50), s652, s652, turned_held rfl, by unfold State.calm; decide +kernel⟩,
   ⟨(.portEnable .mp 15 9), .mp, (Reg.PORT_CFG 15), s651, s651, turned_absent rfl, by unfold State.calm; decide +kernel⟩,
   ⟨(.portEnable .mp 15 9), .mp, (Reg.PORT_CFG 15), s620, by decide +kernel⟩⟩

theorem witness_StepKeepsForm :
    (∃ (s : State) (t : State), step s = .next t ∧ s.canonical ∧ s.numbered) ∧
    (∃ (s : State) (t : State), step s = .next t ∧ s.canonical ∧ s.numbered) :=
  ⟨⟨on, s656, rfl, by unfold State.canonical State.numbered; decide +kernel⟩,
   ⟨on, s656, rfl, by unfold State.canonical State.numbered; decide +kernel⟩⟩

theorem witness_StepKeepsOrder :
    (∃ (s : State) (t : State) (c : Instr) (rest : List Instr), step s = .next t ∧ s.pending = c :: rest) ∧
    (∃ (s : State) (t : State) (c : Instr) (rest : List Instr), step s = .next t ∧ s.pending = c :: rest) ∧
    (∃ (s : State) (t : State), step s = .next t ∧ s.pending = []) ∧
    (∃ (s : State) (t : State), step s = .next t ∧ s.pending = []) :=
  ⟨⟨s657, s658, (.nop 0), [], rfl, by decide +kernel⟩,
   ⟨s657, s658, (.nop 0), [], rfl, by decide +kernel⟩,
   ⟨on, s656, rfl, by decide +kernel⟩,
   ⟨on, s656, rfl, by decide +kernel⟩⟩

theorem witness_IdentityRegisters :
    (∃ (m : Master) (s : State), (∀ a, s.snap m a = none) ∧ s.calm ∧ s.domOn .host = true) ∧
    (∃ (m : Master) (s : State), (∀ a, s.snap m a = none) ∧ s.calm ∧ s.domOn .host = true) ∧
    (∃ (m : Master) (n : Fin 255) (s : State), (∀ a, s.snap m a = none) ∧ s.calm ∧ s.domOn .place = true) :=
  ⟨⟨.service, on, fun _ => rfl, by unfold State.calm; decide +kernel⟩,
   ⟨.service, on, fun _ => rfl, by unfold State.calm; decide +kernel⟩,
   ⟨.service, 254, on, fun _ => rfl, by unfold State.calm; decide +kernel⟩⟩

theorem witness_SetPosition :
    (∃ (m : Master) (a : Fin 8) (v : Word) (s : State), s.reaches (Reg.AX_CTL a) ∧ s.calm ∧ bitOf v 31 = true) ∧
    (∃ (m : Master) (a : Fin 8) (v : Word) (s : State), s.reaches (Reg.AX_CTL a) ∧ s.calm ∧ bitOf v 31 = false ∧ s.stands a = true) ∧
    (∃ (m : Master) (a : Fin 8) (v : Word) (s : State), s.reaches (Reg.AX_CTL a) ∧ s.calm ∧ bitOf v 31 = false ∧ bitOf v 30 = false ∧
      s.stands a = false) ∧
    (∃ (m : Master) (a : Fin 8) (v : Word) (s : State), s.reaches (Reg.AX_CTL a) ∧ s.calm ∧ bitOf v 31 = false ∧ bitOf v 30 = true ∧
      s.axState a ∈ [3, 5] ∧ (s.getAxis a).group = none ∧ (s.getAxis a).run = true ∧ (s.getAxis a).took = false) ∧
    (∃ (m : Master) (a : Fin 8) (v : Word) (s : State), s.reaches (Reg.AX_CTL a) ∧ s.calm ∧ bitOf v 31 = false ∧ bitOf v 30 = true ∧
      s.axState a ∈ [3, 5] ∧ (s.getAxis a).group = none ∧ (s.getAxis a).run = false ∧ (s.getAxis a).took = false) ∧
    (∃ (m : Master) (a : Fin 8) (v : Word) (s : State), s.reaches (Reg.AX_CTL a) ∧ s.calm ∧ bitOf v 31 = false ∧ bitOf v 30 = true ∧
      s.axState a = 4 ∧ (s.getAxis a).took = false) :=
  ⟨⟨.service, 7, 0x80000000, s430, reaches_of (by decide +kernel), by unfold State.calm; decide +kernel⟩,
   ⟨.service, 7, 0x20000000, s659, reaches_of (by decide +kernel), by unfold State.calm; decide +kernel⟩,
   ⟨.service, 7, 0x20000000, s430, reaches_of (by decide +kernel), by unfold State.calm; decide +kernel⟩,
   ⟨.service, 7, 0x60000000, s430, reaches_of (by decide +kernel), by unfold State.calm; decide +kernel⟩,
   ⟨.service, 7, 0x60000000, s660, reaches_of (by decide +kernel), by unfold State.calm; decide +kernel⟩,
   ⟨.service, 7, 0x60000000, s435, reaches_of (by decide +kernel), by unfold State.calm; decide +kernel⟩⟩

end Sys2Proof.W
end

section
/-! SUPPORT. The OWN tokens (R47, R49): what a write of a token's word changes, what each action does, and the proof of O9. -/

namespace Sys2Proof.Machine

/-! ## A write access of a calm controller -/

/-- A command that is one write access takes effect as the write, where the controller is calm and the access reaches its block. -/
theorem State.unfrozen_accessBy_calm {s : State} (hc : s.calm) {a : Nat} (hr : s.reaches a) (m : Master) (f : State → State) :
    s.unfrozen (fun s => s.accessBy m a f) = f s := by
  rw [State.unfrozen_calm hc, State.accessBy_calm hc m hr]

/-! ## The word of a token -/

theorem masterCode_lt (m : Master) : masterCode m < 256 := by
  cases m with
  | tunnel st => have := st.isLt; simp only [masterCode]; omega
  | _ => decide

theorem own_not_notice (n : Fin 32) : Reg.OWN n ∉ noticeWords := by
  revert n; decide

theorem own_ne_ownStat (n : Fin 32) : Reg.OWN n ≠ Reg.OWN_STAT := by
  have := n.isLt
  unfold Reg.OWN Reg.OWN_STAT
  omega

theorem ownHolder_fits (n : Nat) : (Fld.OWN_HOLDER n).fits := ⟨(by decide : 16 ≤ 23), (by decide : 23 < 32)⟩
theorem ownTag_fits (n : Nat) : (Fld.OWN_TAG n).fits := ⟨(by decide : 0 ≤ 15), (by decide : 15 < 32)⟩

/-- The tokens are free after reset. -/
theorem resetWord_own (n : Fin 32) : resetWord (Reg.OWN n) = 0 := by
  revert n; decide

/-- The bits from 24 up are a field. -/
theorem ushiftRight_eq_of_topField {v w : Word} (h : bitsOf v 31 24 = bitsOf w 31 24) : v >>> 24 = w >>> 24 := by
  apply BitVec.eq_of_toNat_eq
  simp only [bitsOf, BitVec.toNat_ushiftRight, Nat.shiftRight_eq_div_pow] at h ⊢
  omega

/-- A one-bit field that reads 1 is a bit that is set. -/
theorem bitOf_of_bitsOf_one {w : Word} {k : Nat} (h : bitsOf w k k = 1) : bitOf w k = true := by
  have e : k + 1 - k = 1 := by omega
  rw [bitsOf, e, Nat.shiftRight_eq_div_pow, Nat.pow_one] at h
  simp [bitOf, BitVec.getLsbD, Nat.testBit_eq_decide_div_mod_eq, h]

/-- Nothing but HOLDER and TAG of token `n` differs. -/
def State.onlyToken (s t : State) (n : Nat) : Prop :=
  s.regsBut t [Reg.OWN n] ∧ t.getReg (Reg.OWN n) >>> 24 = s.getReg (Reg.OWN n) >>> 24 ∧ s.onlyRegs t

theorem State.onlyToken.refl (s : State) (n : Nat) : s.onlyToken s n := ⟨fun _ _ => rfl, rfl, rfl⟩

theorem State.onlyToken.trans {s t u : State} {n : Nat} (h : s.onlyToken t n) (k : t.onlyToken u n) : s.onlyToken u n := by
  obtain ⟨hbut, htop, hregs⟩ := h
  obtain ⟨kbut, ktop, kregs⟩ := k
  refine ⟨fun a ha => (kbut a ha).trans (hbut a ha), ktop.trans htop, ?_⟩
  unfold State.onlyRegs at hregs kregs ⊢
  rw [hregs] at kregs
  exact kregs

/-- A write of a field of the token's word below bit 24. -/
theorem State.wr_onlyToken (s : State) {f : Fld} {n : Nat} (v : Nat) (hf : f.fits) (ha : f.addr = Reg.OWN n) (hi : f.hi < 24) :
    s.onlyToken (s.wr f v) n := by
  have htop : (s.wr f v).rd ⟨Reg.OWN n, 31, 24⟩ = s.rd ⟨Reg.OWN n, 31, 24⟩ :=
    s.rd_wr_apart f _ v hf ⟨(by decide : 24 ≤ 31), (by decide : 31 < 32)⟩ (.inl hi)
  refine ⟨fun a hna => s.getReg_wr_ne f v ?_, ushiftRight_eq_of_topField htop, rfl⟩
  rw [ha]
  exact fun e => hna (e ▸ List.mem_singleton_self _)

theorem State.setToken_onlyToken (s : State) (n h : Nat) (tag : BitVec 16) : s.onlyToken (s.setToken n h tag) n :=
  (s.wr_onlyToken h (ownHolder_fits n) rfl (by decide : 23 < 24)).trans
    (State.wr_onlyToken _ tag.toNat (ownTag_fits n) rfl (by decide : 15 < 24))

/-- A write of TAG leaves the holder. -/
theorem State.holder_wr_tag (s : State) (n v : Nat) : (s.wr (Fld.OWN_TAG n) v).holder n = s.holder n :=
  s.rd_wr_apart _ _ v (ownTag_fits n) (ownHolder_fits n) (.inl (by decide : 15 < 16))

theorem State.tag_wr_tag (s : State) (n : Nat) (tag : BitVec 16) : (s.wr (Fld.OWN_TAG n) tag.toNat).rd (Fld.OWN_TAG n) = tag.toNat :=
  (s.rd_wr_same _ _ (ownTag_fits n)).trans (Nat.mod_eq_of_lt tag.isLt)

theorem State.holder_setToken (s : State) (n : Nat) {h : Nat} (hh : h < 256) (tag : BitVec 16) : (s.setToken n h tag).holder n = h :=
  (State.holder_wr_tag _ n _).trans ((s.rd_wr_same _ _ (ownHolder_fits n)).trans (Nat.mod_eq_of_lt hh))

theorem State.tag_setToken (s : State) (n h : Nat) (tag : BitVec 16) : (s.setToken n h tag).rd (Fld.OWN_TAG n) = tag.toNat :=
  State.tag_wr_tag _ n tag

/-! ## The four actions (R47) -/

theorem State.acquireToken_free {s : State} {n : Nat} (h : s.holder n = 0) (m : Master) (tag : BitVec 16) :
    s.acquireToken m n tag = s.setToken n (masterCode m) tag := if_pos h

theorem State.acquireToken_held {s : State} {n : Nat} (h : s.holder n ≠ 0) (m : Master) (tag : BitVec 16) :
    s.acquireToken m n tag = s := if_neg h

theorem State.acquireToken_onlyToken (s : State) (m : Master) (n : Nat) (tag : BitVec 16) : s.onlyToken (s.acquireToken m n tag) n := by
  by_cases h : s.holder n = 0
  · rw [State.acquireToken_free h]
    exact s.setToken_onlyToken n _ tag
  · rw [State.acquireToken_held h]
    exact .refl s n

theorem State.releaseToken_own {s : State} {m : Master} {n : Nat} (h : s.holder n = masterCode m) :
    s.releaseToken m n = s.setToken n 0 0 := if_pos h

theorem State.releaseToken_other {s : State} {m : Master} {n : Nat} (h : s.holder n ≠ masterCode m) : s.releaseToken m n = s := if_neg h

theorem State.releaseToken_onlyToken (s : State) (m : Master) (n : Nat) : s.onlyToken (s.releaseToken m n) n := by
  by_cases h : s.holder n = masterCode m
  · rw [State.releaseToken_own h]
    exact s.setToken_onlyToken n 0 0
  · rw [State.releaseToken_other h]
    exact .refl s n

theorem State.tagToken_own {s : State} {m : Master} {n : Nat} (h : s.holder n = masterCode m) (tag : BitVec 16) :
    s.tagToken m n tag = s.wr (Fld.OWN_TAG n) tag.toNat := if_pos h

theorem State.tagToken_other {s : State} {m : Master} {n : Nat} (h : s.holder n ≠ masterCode m) (tag : BitVec 16) :
    s.tagToken m n tag = s := if_neg h

theorem State.tagToken_onlyToken (s : State) (m : Master) (n : Nat) (tag : BitVec 16) : s.onlyToken (s.tagToken m n tag) n := by
  by_cases h : s.holder n = masterCode m
  · rw [State.tagToken_own h]
    exact s.wr_onlyToken _ (ownTag_fits n) rfl (by decide : 15 < 24)
  · rw [State.tagToken_other h]
    exact .refl s n

/-- Whoever holds the token, a write of TAG by its rule leaves the holder. -/
theorem State.holder_tagToken (s : State) (m : Master) (n : Nat) (tag : BitVec 16) : (s.tagToken m n tag).holder n = s.holder n := by
  by_cases h : s.holder n = masterCode m
  · rw [State.tagToken_own h]
    exact s.holder_wr_tag n _
  · rw [State.tagToken_other h]

/-! ## FORCE (R47, R49) -/

/-- A token that is free or its own is taken without a word. -/
theorem State.forceToken_quiet {s : State} {m : Master} {n : Nat} (h : s.holder n = 0 ∨ s.holder n = masterCode m) (tag : BitVec 16) :
    s.forceToken m n tag = s.setToken n (masterCode m) tag :=
  if_neg (fun ⟨h0, hm⟩ => h.elim h0 hm)

/-- A token taken from another master sets its bit of OWN_STAT and writes an event. -/
theorem State.forceToken_taken {s : State} {m : Master} {n : Nat} (h0 : s.holder n ≠ 0) (hm : s.holder n ≠ masterCode m) (tag : BitVec 16) :
    s.forceToken m n tag =
      ((s.setToken n (masterCode m) tag).wr ⟨Reg.OWN_STAT, n, n⟩ 1).tokenEvent n (s.holder n) (masterCode m) :=
  if_pos ⟨h0, hm⟩

/-- The event of a token changes no word but those of notices. -/
theorem State.getReg_tokenEvent (s : State) (n old new : Nat) {a : Nat} (h : a ∉ noticeWords) :
    (s.tokenEvent n old new).getReg a = s.getReg a :=
  (s.event_told _ _ _).words a h

/-- Beside OWN_STAT and the words of notices FORCE changes what the plain write of the token changes. -/
theorem State.getReg_forceToken (s : State) (m : Master) (n : Nat) (tag : BitVec 16) {a : Nat} (hs : a ≠ Reg.OWN_STAT) (hn : a ∉ noticeWords) :
    (s.forceToken m n tag).getReg a = (s.setToken n (masterCode m) tag).getReg a := by
  by_cases h : s.holder n = 0 ∨ s.holder n = masterCode m
  · rw [State.forceToken_quiet h]
  · obtain ⟨h0, hm⟩ := not_or.mp h
    rw [State.forceToken_taken h0 hm, State.getReg_tokenEvent _ _ _ _ hn, State.getReg_wr_ne _ _ _ hs]

theorem State.getReg_own_forceToken (s : State) (m : Master) (n : Fin 32) (tag : BitVec 16) :
    (s.forceToken m n tag).getReg (Reg.OWN n) = (s.setToken n (masterCode m) tag).getReg (Reg.OWN n) :=
  s.getReg_forceToken m n tag (own_ne_ownStat n) (own_not_notice n)

theorem State.rd_forceToken (s : State) (m : Master) (n : Fin 32) (tag : BitVec 16) {f : Fld} (hf : f.addr = Reg.OWN n) :
    (s.forceToken m n tag).rd f = (s.setToken n (masterCode m) tag).rd f := by
  unfold State.rd
  rw [hf, s.getReg_own_forceToken]

theorem State.forceToken_regsBut (s : State) (m : Master) (n : Nat) (tag : BitVec 16) :
    s.regsBut (s.forceToken m n tag) (Reg.OWN n :: Reg.OWN_STAT :: noticeWords) := by
  intro a ha
  simp only [List.mem_cons, not_or] at ha
  obtain ⟨hown, hstat, hnotice⟩ := ha
  obtain ⟨hbut, -, -⟩ := s.setToken_onlyToken n (masterCode m) tag
  exact (s.getReg_forceToken m n tag hstat hnotice).trans (hbut a (fun h => hown (List.mem_singleton.mp h)))

/-- The bit of a token taken from another master is set in OWN_STAT. -/
theorem State.ownStat_forceToken {s : State} {m : Master} {n : Fin 32} (h0 : s.holder n ≠ 0) (hm : s.holder n ≠ masterCode m)
    (tag : BitVec 16) : bitOf ((s.forceToken m n tag).getReg Reg.OWN_STAT) n = true := by
  rw [State.forceToken_taken h0 hm, State.getReg_tokenEvent _ _ _ _ (by decide)]
  apply bitOf_of_bitsOf_one
  exact (State.rd_wr_same _ ⟨Reg.OWN_STAT, n, n⟩ 1 ⟨Nat.le_refl _, n.isLt⟩).trans
    (congrArg (1 % 2 ^ ·) (Nat.add_sub_cancel_left n.val 1))

/-! ## The statement -/

/-- Settles O9: each action is a write of HOLDER and TAG, or nothing at all, by who holds the token. -/
theorem tokens : Obligations.Tokens := by
  unfold Obligations.Tokens
  refine ⟨fun n => ⟨rfl, resetWord_own n, rfl, rfl⟩, fun m n tag s hc hr => ?acquire, fun m n s hc hr => ?release,
    fun m n tag s hc hr => ?force, fun m n tag s hc hr => ?tag⟩
  case acquire =>
    refine ⟨s.acquireToken m n tag, congrArg _ (State.unfrozen_accessBy_calm hc hr m _), fun h => ?_,
      fun h => State.acquireToken_held h m tag, s.acquireToken_onlyToken m n tag⟩
    rw [State.acquireToken_free h]
    exact ⟨s.holder_setToken n (masterCode_lt m) tag, s.tag_setToken n _ tag⟩
  case release =>
    refine ⟨s.releaseToken m n, congrArg _ (State.unfrozen_accessBy_calm hc hr m _), fun h => ?_,
      State.releaseToken_other, s.releaseToken_onlyToken m n⟩
    rw [State.releaseToken_own h]
    exact ⟨s.holder_setToken n (by decide) 0, s.tag_setToken n 0 0⟩
  case force =>
    obtain ⟨-, htop, hregs⟩ := s.setToken_onlyToken n (masterCode m) tag
    rw [← s.getReg_own_forceToken] at htop
    refine ⟨s.forceToken m n tag, congrArg _ (State.unfrozen_accessBy_calm hc hr m _),
      (s.rd_forceToken m n tag rfl).trans (s.holder_setToken n (masterCode_lt m) tag),
      (s.rd_forceToken m n tag rfl).trans (s.tag_setToken n _ tag),
      fun h0 hm => State.ownStat_forceToken h0 hm tag, fun h => ?_,
      htop, s.forceToken_regsBut m n tag⟩
    rw [State.forceToken_quiet h]
    exact hregs
  case tag =>
    refine ⟨s.tagToken m n tag, congrArg _ (State.unfrozen_accessBy_calm hc hr m _), s.holder_tagToken m n tag, fun h => ?_,
      fun h => State.tagToken_other h tag, s.tagToken_onlyToken m n tag⟩
    rw [State.tagToken_own h]
    exact s.tag_wr_tag n tag

end Sys2Proof.Machine
end

section
/-! SUPPORT. A read of the HOST domain while PERST_N is low, and the refutation of O59 by it. -/

namespace Sys2Proof.Machine

/-! ## Reads of a calm controller -/

theorem State.readReg_calm {s : State} (hc : s.calm) (m : Master) (a : Nat) : s.readReg m a = s.readChecked m a := by
  simp [State.readReg, State.injDue_calm hc, State.busCheck_calm hc]

/-- A read of one aligned word of the register space. -/
theorem State.readMem_word (s : State) (m : Master) {a : Nat} (hspace : 0x4000000 ≤ a) (halign : 4 ∣ a) :
    s.readMem m a 4 = ([(a, (s.readReg m a).1)], (s.readReg m a).2) := by
  obtain ⟨k, rfl⟩ := halign
  have hone : (4 * k + max 4 1 - 1) / 4 - 4 * k / 4 + 1 = 1 := by omega
  have hbase : (4 * k / 4 + 0) * 4 = 4 * k := by omega
  rw [State.readMem, if_neg (Nat.not_lt.mpr hspace), hone]
  simp only [List.range_one, List.map_cons, List.map_nil, hbase, State.readRegs]

/-- A register of a unit held in reset reads its reset word, and nothing changes (R27). -/
theorem exec_registerRead_held {s : State} (hc : s.calm) (m : Master) {a : Nat} (hspace : 0x4000000 ≤ a) (halign : 4 ∣ a)
    (hwin : inWindow a = false) (hheld : s.reach a = .held) :
    exec (.registerRead m ⟨.device, a⟩ 4) s = .next (s.emit (.read m a (resetWord a))) := by
  have hread : s.readReg m a = (resetWord a, s) := by simp [State.readReg_calm hc, State.readChecked, hwin, hheld]
  change execRegisterRead m ⟨.device, a⟩ 4 s = _
  simp [execRegisterRead, State.unfrozen_calm hc, deviceAddr, State.readMem_word s m hspace halign, hread]

/-- While PERST_N is low, HOST_WHOAMI is held in reset. -/
theorem State.reach_whoami_of_perstLow {s : State} (hdom : s.domOn .host = true) (hlow : s.host.perstLow = true) :
    s.reach Reg.HOST_WHOAMI = .held := by
  have hblock : blockOf Reg.HOST_WHOAMI = some (⟨.host, 0x4D00000, 1, 0x10000, 0x10000, .host, rowsHOST⟩, 0, 0xF080) := rfl
  have hon : s.rd (domField .host) = 2 := by simpa [State.domOn] using hdom
  simp [State.reach, hblock, show dropPort Reg.HOST_WHOAMI = none from rfl, State.copyPresent, blockDomain, hon, hdom, hlow]

/-! ## The counterexample -/

/-- The controller after reset with the HOST domain ON and PERST_N low. -/
def hostHeldInReset : State :=
  { State.reset.wr (domField .host) 2 with host := { HostSt.reset with perstLow := true } }

theorem hostHeldInReset_calm : hostHeldInReset.calm := by
  unfold State.calm; decide

theorem hostHeldInReset_domOn : hostHeldInReset.domOn .host = true := by decide

/-- Refutes O59: its first clause asks for the HOST domain to be ON, but not for PERST_N to be high. While it is low the domain is held in
reset (log entry 31), and HOST_WHOAMI reads 0 to the host, whose identity is 1. -/
theorem not_identityRegisters : ¬ Obligations.IdentityRegisters := by
  unfold Obligations.IdentityRegisters
  rintro ⟨hhost, -⟩
  have hread := exec_registerRead_held hostHeldInReset_calm .host (a := Reg.HOST_WHOAMI) (by decide) (by decide) rfl
    (State.reach_whoami_of_perstLow hostHeldInReset_domOn rfl)
  obtain ⟨⟨t, ht, hout, -⟩, -⟩ := hhost .host hostHeldInReset hostHeldInReset_calm hostHeldInReset_domOn (fun _ => rfl)
  obtain rfl : hostHeldInReset.emit _ = t := Host.Outcome.next.inj (hread.symm.trans ht)
  exact absurd hout (by decide)

end Sys2Proof.Machine
end

section
/-! SUPPORT. The registers and the set-point of an axis under the operations of a motion's end, a soft stop and the position set (R427, R428,
R437, R445), and the proof of O60. -/

namespace Sys2Proof.Machine

/-! ## Signed values and single bits -/

theorem bitOf_or (v w : Word) (n : Nat) : bitOf (v ||| w) n = (bitOf v n || bitOf w n) := BitVec.getLsbD_or

/-- The pattern of the value of a pattern is the pattern. -/
theorem patternOf_signedOf (w n : Nat) : patternOf w (signedOf w n) = n % 2 ^ w := by
  have hlt : n % 2 ^ w < 2 ^ w := Nat.mod_lt _ (Nat.two_pow_pos w)
  unfold patternOf signedOf
  split
  · rw [Int.emod_eq_of_lt (by omega) (by omega), Int.toNat_natCast]
  · rw [Int.sub_emod_right, Int.emod_eq_of_lt (by omega) (by omega), Int.toNat_natCast]

/-- A register shows the value that another register holds as it stands there. -/
theorem ofNat_patternOf_signedOf (w : Word) : BitVec.ofNat 32 (patternOf 32 (signedOf 32 w.toNat)) = w := by
  rw [patternOf_signedOf, Nat.mod_eq_of_lt w.isLt, BitVec.ofNat_toNat, BitVec.setWidth_eq]

/-- The offset that makes a position show an address (R428). -/
theorem address_of_offset (p : Int) {addr : Nat} (h : addr < 1024) :
    (patternOf 32 p + patternOf 10 ((addr : Int) - p)) % 1024 = addr := by
  unfold patternOf
  omega

/-- The integer part of a set-point at the position `p`. -/
theorem Axis.patternOf_xact {x : Axis} {p : Int} (h : x.x = p * 65536) : patternOf 32 x.xact = patternOf 32 p := by
  rw [Axis.xact, h, Int.mul_ediv_cancel _ (by decide), patternOf_signedOf]
  unfold patternOf
  omega

/-! ## An axis replaced -/

/-- Driving the gates of a bridge only goes outward. -/
theorem State.driveGates_eq (s : State) (a : Nat) (coilB : Bool) (t : Nat) (g h : BitVec 4) :
    s.driveGates a coilB t g h = { s with out := (s.driveGates a coilB t g h).out } := by
  unfold State.driveGates
  dsimp only
  split
  · rfl
  · split <;> rfl

theorem State.showBridge_eq (s : State) (a : Nat) (coilB : Bool) (old new : Coil) :
    s.showBridge a coilB old new = { s with out := (s.showBridge a coilB old new).out } := by
  unfold State.showBridge
  dsimp only
  split
  · rfl
  · split
    · rw [State.driveGates_eq, State.driveGates_eq s]
    · rw [State.driveGates_eq]

@[simp] theorem State.showBridge_regs (s : State) (a : Nat) (coilB : Bool) (old new : Coil) :
    (s.showBridge a coilB old new).regs = s.regs := (congrArg State.regs (s.showBridge_eq a coilB old new)).trans rfl

@[simp] theorem State.showBridge_axes (s : State) (a : Nat) (coilB : Bool) (old new : Coil) :
    (s.showBridge a coilB old new).axes = s.axes := (congrArg State.axes (s.showBridge_eq a coilB old new)).trans rfl

/-- A bridge that keeps its state drives nothing. -/
theorem State.showBridge_same (s : State) (a : Nat) (coilB : Bool) {old new : Coil} (h : old.bridge = new.bridge) :
    s.showBridge a coilB old new = s := if_pos h

theorem Coil.stamped_self (c : Coil) (now : Nat) : c.stamped c now = c := by
  simp [Coil.stamped]

@[simp] theorem State.getReg_setAxis (s : State) (a : Nat) (x : Axis) (b : Nat) : (s.setAxis a x).getReg b = s.getReg b := by
  simp [State.getReg, State.setAxis]

@[simp] theorem State.getReg_onAxis (s : State) (a : Nat) (f : Axis → Axis) (b : Nat) : (s.onAxis a f).getReg b = s.getReg b :=
  s.getReg_setAxis a _ b

@[simp] theorem State.rd_onAxis (s : State) (a : Nat) (f : Axis → Axis) (g : Fld) : (s.onAxis a f).rd g = s.rd g := by
  simp [State.rd]

@[simp] theorem State.getAxis_setAxis_same (s : State) (a : Nat) (x : Axis) :
    (s.setAxis a x).getAxis a =
      { x with coilA := (s.getAxis a).coilA.stamped x.coilA s.tb.toNat, coilB := (s.getAxis a).coilB.stamped x.coilB s.tb.toNat } := by
  simp [State.getAxis, State.setAxis]

@[simp] theorem State.getAxis_onAxis_same (s : State) (a : Nat) (f : Axis → Axis) :
    (s.onAxis a f).getAxis a =
      { f (s.getAxis a) with
        coilA := (s.getAxis a).coilA.stamped (f (s.getAxis a)).coilA s.tb.toNat
        coilB := (s.getAxis a).coilB.stamped (f (s.getAxis a)).coilB s.tb.toNat } := s.getAxis_setAxis_same a _

@[simp] theorem State.getAxis_setReg (s : State) (b : Nat) (v : Word) (a : Nat) : (s.setReg b v).getAxis a = s.getAxis a := rfl
@[simp] theorem State.getAxis_wr (s : State) (f : Fld) (v : Nat) (a : Nat) : (s.wr f v).getAxis a = s.getAxis a := rfl

theorem State.rd_setReg_ne (s : State) {b : Nat} (v : Word) {f : Fld} (h : f.addr ≠ b) : (s.setReg b v).rd f = s.rd f := by
  rw [State.rd, s.getReg_setReg_ne v h, State.rd]

/-- Nothing but register words and axes differs. -/
def State.onlyMotion (s t : State) : Prop := t = { s with regs := t.regs, axes := t.axes }

theorem State.onlyMotion.trans {s t u : State} (h : s.onlyMotion t) (k : t.onlyMotion u) : s.onlyMotion u := by
  unfold State.onlyMotion at h k ⊢
  rw [h] at k
  exact k

/-- An axis replaced by one with the same coils drives no gate. -/
theorem State.onAxis_onlyMotion (s : State) (a : Nat) {f : Axis → Axis} (hA : ∀ x, (f x).coilA = x.coilA) (hB : ∀ x, (f x).coilB = x.coilB) :
    s.onlyMotion (s.onAxis a f) := by
  unfold State.onAxis State.setAxis
  dsimp only
  rw [hA, hB, Coil.stamped_self, Coil.stamped_self, State.showBridge_same _ _ _ rfl, State.showBridge_same _ _ _ rfl]
  rfl

/-! ## Reports to the host -/

/-- No axis and no word below the HOST unit differs. -/
structure SameMotion (s t : State) : Prop where
  words : ∀ b < 0x4D00000, t.getReg b = s.getReg b
  axes  : t.axes = s.axes

theorem SameMotion.refl (s : State) : SameMotion s s := ⟨fun _ _ => rfl, rfl⟩

theorem SameMotion.trans {s t u : State} (h : SameMotion s t) (k : SameMotion t u) : SameMotion s u :=
  ⟨fun b hb => (k.words b hb).trans (h.words b hb), k.axes.trans h.axes⟩

theorem noticeWords_ge : ∀ b ∈ noticeWords, 0x4D00000 ≤ b := by decide

theorem Told.sameMotion {s t : State} (h : Told s t) : SameMotion s t :=
  ⟨fun b hb => h.words b (fun hn => Nat.not_lt.mpr (noticeWords_ge b hn) hb), (congrArg State.axes h.rest).trans rfl⟩

theorem State.releaseToken_sameMotion (s : State) (m : Master) (n : Nat) : SameMotion s (s.releaseToken m n) := by
  obtain ⟨hwords, -, hregs⟩ := s.releaseToken_onlyToken m n
  refine ⟨fun b hb => hwords b (fun hn => ?_), (congrArg State.axes hregs).trans rfl⟩
  have := List.mem_singleton.mp hn
  unfold Reg.OWN at this
  omega

theorem State.dropToken_sameMotion (s : State) (c : Option MpCmd) : SameMotion s (s.dropToken c) := by
  unfold State.dropToken
  split
  · exact .refl s
  · split
    · exact .refl s
    · exact s.releaseToken_sameMotion .mp _

theorem State.endCommand_sameMotion (s : State) (d : Desc) (status result : Nat) : SameMotion s (s.endCommand d status result) := by
  have hfree : SameMotion s { s with mp := { s.mp with cmd := none } } := ⟨fun _ _ => rfl, rfl⟩
  have hdrop := hfree.trans (State.dropToken_sameMotion _ s.mp.cmd)
  unfold State.endCommand
  dsimp only
  split
  · exact hdrop
  · exact hdrop.trans (State.finish_told _ d status result).sameMotion

theorem State.tellMove_sameMotion (s : State) (a kind : Nat) : SameMotion s (s.tellMove a kind) := by
  unfold State.tellMove
  split
  · exact .refl s
  · split
    · dsimp only
      split
      · exact s.endCommand_sameMotion _ _ _
      · exact ⟨fun _ _ => rfl, rfl⟩
    · exact .refl s

theorem SameMotion.rd {s t : State} (h : SameMotion s t) {f : Fld} (hf : f.addr < 0x4D00000) : t.rd f = s.rd f := by
  unfold State.rd
  rw [h.words _ hf]

theorem SameMotion.getAxis {s t : State} (h : SameMotion s t) (a : Nat) : t.getAxis a = s.getAxis a := by
  unfold State.getAxis
  rw [h.axes]

/-! ## The words that show an axis -/

/-- The words in which Tiller shows the motion of axis `a`. -/
def shownWords (a : Nat) : List Nat := [Reg.AX_STAT a, Reg.AX_XACT a, Reg.AX_VACT a, Reg.AX_MS a]

/-- Below the HOST unit no word differs but those that show axis `a`. -/
def State.showsOnly (s t : State) (a : Nat) : Prop := ∀ b < 0x4D00000, b ∉ shownWords a → t.getReg b = s.getReg b

theorem State.showsOnly.trans {s t u : State} {a : Nat} (h : s.showsOnly t a) (k : t.showsOnly u a) : s.showsOnly u a :=
  fun b hb hn => (k b hb hn).trans (h b hb hn)

theorem SameMotion.showsOnly {s t : State} (h : SameMotion s t) (a : Nat) : s.showsOnly t a := fun b hb _ => h.words b hb

theorem State.setAxis_showsOnly (s : State) (a : Nat) (x : Axis) : s.showsOnly (s.setAxis a x) a := fun b _ _ => s.getReg_setAxis a x b

theorem State.onAxis_showsOnly (s : State) (a : Nat) (f : Axis → Axis) : s.showsOnly (s.onAxis a f) a := s.setAxis_showsOnly a _

theorem State.setReg_showsOnly (s : State) {a b : Nat} (v : Word) (h : b ∈ shownWords a) : s.showsOnly (s.setReg b v) a :=
  fun _ _ hn => s.getReg_setReg_ne v (fun e => hn (e ▸ h))

theorem State.wr_showsOnly (s : State) {a : Nat} {f : Fld} (v : Nat) (h : f.addr ∈ shownWords a) : s.showsOnly (s.wr f v) a :=
  s.setReg_showsOnly _ h

theorem stat_mem_shownWords (a : Nat) : Reg.AX_STAT a ∈ shownWords a := by simp [shownWords]
theorem xact_mem_shownWords (a : Nat) : Reg.AX_XACT a ∈ shownWords a := by simp [shownWords]
theorem vact_mem_shownWords (a : Nat) : Reg.AX_VACT a ∈ shownWords a := by simp [shownWords]
theorem ms_mem_shownWords (a : Nat) : Reg.AX_MS a ∈ shownWords a := by simp [shownWords]

theorem State.showsOnly.rd {s t : State} {a : Nat} (h : s.showsOnly t a) {f : Fld} (hf : f.addr < 0x4D00000) (hn : f.addr ∉ shownWords a) :
    t.rd f = s.rd f := by
  unfold State.rd
  rw [h _ hf hn]

theorem State.showAxis_showsOnly (s : State) (a : Nat) : s.showsOnly (s.showAxis a) a :=
  (s.setReg_showsOnly _ (xact_mem_shownWords a)).trans (State.wr_showsOnly _ _ (ms_mem_shownWords a))

/-- The set-point shows in XACT and MS alone. -/
theorem State.getReg_showAxis (s : State) {a b : Nat} (hx : b ≠ Reg.AX_XACT a) (hm : b ≠ Reg.AX_MS a) : (s.showAxis a).getReg b = s.getReg b :=
  (State.getReg_wr_ne _ (Fld.AX_MS_ADDR a) _ hm).trans (s.getReg_setReg_ne _ hx)

@[simp] theorem State.getAxis_showAxis (s : State) (a b : Nat) : (s.showAxis a).getAxis b = s.getAxis b := rfl

/-! ## The fields of AXa_STAT -/

theorem posValid_fits (a : Nat) : (Fld.AX_STAT_POS_VALID a).fits := ⟨(by decide : 31 ≤ 31), (by decide : 31 < 32)⟩
theorem group_fits (a : Nat) : (Fld.AX_STAT_GROUP a).fits := ⟨(by decide : 29 ≤ 29), (by decide : 29 < 32)⟩
theorem decel_fits (a : Nat) : (Fld.AX_STAT_DECEL a).fits := ⟨(by decide : 28 ≤ 28), (by decide : 28 < 32)⟩
theorem last_fits (a : Nat) : (Fld.AX_STAT_LAST a).fits := ⟨(by decide : 24 ≤ 27), (by decide : 27 < 32)⟩
theorem axState_fits (a : Nat) : (Fld.AX_STAT_STATE a).fits := ⟨(by decide : 0 ≤ 3), (by decide : 3 < 32)⟩

@[simp] theorem State.axState_wr_axState (s : State) (a v : Nat) : (s.wr (Fld.AX_STAT_STATE a) v).axState a = v % 16 :=
  s.rd_wr_same _ v (axState_fits a)

theorem State.last_wr_axState (s : State) (a v : Nat) : (s.wr (Fld.AX_STAT_STATE a) v).rd (Fld.AX_STAT_LAST a) = s.rd (Fld.AX_STAT_LAST a) :=
  s.rd_wr_apart _ _ v (axState_fits a) (last_fits a) (.inl (by decide : 3 < 24))

@[simp] theorem State.axState_onAxis (s : State) (a : Nat) (f : Axis → Axis) (b : Nat) : (s.onAxis a f).axState b = s.axState b :=
  s.rd_onAxis a f _

/-- STATE and LAST of axis `a` are the same. -/
def State.sameStat (s t : State) (a : Nat) : Prop := t.axState a = s.axState a ∧ t.rd (Fld.AX_STAT_LAST a) = s.rd (Fld.AX_STAT_LAST a)

theorem State.sameStat.trans {s t u : State} {a : Nat} (h : s.sameStat t a) (k : t.sameStat u a) : s.sameStat u a :=
  ⟨k.1.trans h.1, k.2.trans h.2⟩

/-- A write of a field of AXa_STAT above LAST leaves STATE and LAST. -/
theorem State.wr_sameStat (s : State) (a : Nat) {f : Fld} (v : Nat) (hf : f.fits) (h : 27 < f.lo) : s.sameStat (s.wr f v) a :=
  ⟨s.rd_wr_apart _ _ v hf (axState_fits a) (.inr (Nat.lt_trans (by decide : 3 < 27) h)),
   s.rd_wr_apart _ _ v hf (last_fits a) (.inr h)⟩

/-- What leaves the word AXa_STAT leaves STATE and LAST. -/
theorem State.sameStat_of_getReg {s t : State} {a : Nat} (h : t.getReg (Reg.AX_STAT a) = s.getReg (Reg.AX_STAT a)) : s.sameStat t a :=
  ⟨congrArg (bitsOf · 3 0) h, congrArg (bitsOf · 27 24) h⟩

theorem stat_ne_xact (a : Nat) : Reg.AX_STAT a ≠ Reg.AX_XACT a := by unfold Reg.AX_STAT Reg.AX_XACT; omega
theorem stat_ne_vact (a : Nat) : Reg.AX_STAT a ≠ Reg.AX_VACT a := by unfold Reg.AX_STAT Reg.AX_VACT; omega
theorem stat_ne_ms (a : Nat) : Reg.AX_STAT a ≠ Reg.AX_MS a := by unfold Reg.AX_STAT Reg.AX_MS; omega
theorem vact_ne_xact (a : Nat) : Reg.AX_VACT a ≠ Reg.AX_XACT a := by unfold Reg.AX_VACT Reg.AX_XACT; omega
theorem vact_ne_ms (a : Nat) : Reg.AX_VACT a ≠ Reg.AX_MS a := by unfold Reg.AX_VACT Reg.AX_MS; omega
theorem vact_ne_stat (a : Nat) : Reg.AX_VACT a ≠ Reg.AX_STAT a := (stat_ne_vact a).symm
theorem xact_ne_stat (a : Nat) : Reg.AX_XACT a ≠ Reg.AX_STAT a := (stat_ne_xact a).symm
theorem xact_ne_ms (a : Nat) : Reg.AX_XACT a ≠ Reg.AX_MS a := by unfold Reg.AX_XACT Reg.AX_MS; omega
theorem ms_ne_stat (a : Nat) : Reg.AX_MS a ≠ Reg.AX_STAT a := (stat_ne_ms a).symm
theorem ms_ne_xact (a : Nat) : Reg.AX_MS a ≠ Reg.AX_XACT a := (xact_ne_ms a).symm

/-! ## The end of a motion (R432, R437, R454) -/

theorem State.motionEvent_told (s : State) (a kind cause : Nat) (stopped : Bool) (vact : Int) (tag : Word) :
    Told (s.wr (Fld.AX_STAT_LAST a) kind) (s.motionEvent a kind cause stopped vact tag) := State.event_told _ _ _ _

theorem stat_lt {a : Nat} (ha : a < 8) : Reg.AX_STAT a < 0x4D00000 := by unfold Reg.AX_STAT; omega

theorem State.motionEvent_showsOnly (s : State) (a kind cause : Nat) (stopped : Bool) (vact : Int) (tag : Word) :
    s.showsOnly (s.motionEvent a kind cause stopped vact tag) a :=
  (s.wr_showsOnly kind (f := Fld.AX_STAT_LAST a) (stat_mem_shownWords a)).trans
    ((s.motionEvent_told a kind cause stopped vact tag).sameMotion.showsOnly a)

/-- An event of a motion shows its kind in LAST. -/
theorem State.last_motionEvent (s : State) {a : Nat} (ha : a < 8) (kind cause : Nat) (stopped : Bool) (vact : Int) (tag : Word) :
    (s.motionEvent a kind cause stopped vact tag).rd (Fld.AX_STAT_LAST a) = kind % 16 :=
  ((s.motionEvent_told a kind cause stopped vact tag).sameMotion.rd (f := Fld.AX_STAT_LAST a) (stat_lt ha)).trans
    (s.rd_wr_same _ kind (last_fits a))

/-- The state in which an axis comes to standstill (R432). -/
def State.restState (s : State) (a : Nat) : Nat :=
  if s.rd (Fld.AX_CFG_REST_DLY a) = 0 ∨ s.rd (Fld.HK_CH_VAL_STATE (24 + a)) = 2 then 2 else 1

theorem State.restState_cases (s : State) (a : Nat) : s.restState a = 2 ∨ s.restState a = 1 := by
  unfold State.restState
  split
  · exact .inl rfl
  · exact .inr rfl

/-- An axis comes to standstill by a write of STATE between two updates of what it holds. -/
theorem State.standstill_eq (s : State) (a : Nat) :
    ∃ f g, s.standstill a = ((s.onAxis a f).wr (Fld.AX_STAT_STATE a) (s.restState a)).onAxis a g := by
  unfold State.standstill State.restState
  simp only [State.rd_onAxis]
  split
  · exact ⟨_, _, rfl⟩
  · exact ⟨_, _, rfl⟩

theorem State.standstill_showsOnly (s : State) (a : Nat) : s.showsOnly (s.standstill a) a := by
  obtain ⟨f, g, h⟩ := s.standstill_eq a
  rw [h]
  exact ((s.onAxis_showsOnly a f).trans (State.wr_showsOnly _ _ (stat_mem_shownWords a))).trans (State.onAxis_showsOnly _ a g)

theorem State.axState_standstill (s : State) (a : Nat) : (s.standstill a).axState a = s.restState a := by
  obtain ⟨f, g, h⟩ := s.standstill_eq a
  rw [h, State.axState_onAxis, State.axState_wr_axState]
  rcases s.restState_cases a with e | e <;> rw [e]

theorem State.last_standstill (s : State) (a : Nat) : (s.standstill a).rd (Fld.AX_STAT_LAST a) = s.rd (Fld.AX_STAT_LAST a) := by
  obtain ⟨f, g, h⟩ := s.standstill_eq a
  rw [h, State.rd_onAxis, State.last_wr_axState, State.rd_onAxis]

/-- Axis `a` holds no motion. -/
def State.motionless (s : State) (a : Nat) : Prop :=
  s.vact a = 0 ∧ (s.getAxis a).run = false ∧ (s.getAxis a).gear = none ∧ (s.getAxis a).group = none ∧ (s.getAxis a).home = none

theorem SameMotion.motionless {s t : State} (h : SameMotion s t) {a : Nat} (ha : a < 8) (hs : s.motionless a) : t.motionless a := by
  have hv : Reg.AX_VACT a < 0x4D00000 := by unfold Reg.AX_VACT; omega
  unfold State.motionless State.vact
  rw [h.words _ hv, h.getAxis]
  exact hs

/-- What `clearMotion` does before a command that waits is told. -/
def State.clearedMotion (s : State) (a : Nat) : State :=
  let s := s.onAxis a (fun x => { x with
    x := x.x / 65536 * 65536, v := 0, run := false, rev := false, ending := 0, tag := 0, wait := false, ports := 0,
    gear := none, group := none, home := none, low := 0, xtrap := false })
  (((s.wr (Fld.AX_STAT_GROUP a) 0).wr (Fld.AX_STAT_DECEL a) 0).setVact a 0).showAxis a

theorem State.clearMotion_sameMotion (s : State) (a kind : Nat) : SameMotion (s.clearedMotion a) (s.clearMotion a kind) := by
  unfold State.clearMotion
  dsimp only
  split
  · exact State.tellMove_sameMotion _ a kind
  · exact .refl _

theorem State.clearedMotion_showsOnly (s : State) (a : Nat) : s.showsOnly (s.clearedMotion a) a :=
  ((((s.onAxis_showsOnly a _).trans (State.wr_showsOnly _ _ (stat_mem_shownWords a))).trans
    (State.wr_showsOnly _ _ (stat_mem_shownWords a))).trans (State.setReg_showsOnly _ _ (vact_mem_shownWords a))).trans
    (State.showAxis_showsOnly _ a)

theorem State.clearedMotion_motionless (s : State) (a : Nat) : (s.clearedMotion a).motionless a := by
  have hv : (s.clearedMotion a).vact a = 0 := by
    unfold State.vact State.clearedMotion State.setVact
    rw [State.getReg_showAxis _ (vact_ne_xact a) (vact_ne_ms a), State.getReg_setReg_same]
    rfl
  refine ⟨hv, ?_⟩
  simp [State.clearedMotion, State.setVact]

theorem State.clearedMotion_sameStat (s : State) (a : Nat) : s.sameStat (s.clearedMotion a) a := by
  unfold State.clearedMotion
  generalize hu : s.onAxis a _ = u
  have haxis : s.sameStat u a := State.sameStat_of_getReg (by rw [← hu, State.getReg_onAxis])
  have hgroup := u.wr_sameStat a 0 (group_fits a) (by decide : 27 < 29)
  have hdecel := (u.wr (Fld.AX_STAT_GROUP a) 0).wr_sameStat a 0 (decel_fits a) (by decide : 27 < 28)
  refine ((haxis.trans hgroup).trans hdecel).trans (State.sameStat_of_getReg ?_)
  exact (State.getReg_showAxis _ (stat_ne_xact a) (stat_ne_ms a)).trans (State.getReg_setReg_ne _ _ (stat_ne_vact a))

theorem State.clearMotion_showsOnly (s : State) (a kind : Nat) : s.showsOnly (s.clearMotion a kind) a :=
  (s.clearedMotion_showsOnly a).trans ((s.clearMotion_sameMotion a kind).showsOnly a)

theorem State.rechop_showsOnly (s : State) (a : Nat) (moving : Bool) : s.showsOnly (s.rechop a moving) a := s.onAxis_showsOnly a _

theorem State.rechop_motionless {s : State} {a : Nat} (h : s.motionless a) (moving : Bool) : (s.rechop a moving).motionless a := by
  simpa [State.motionless, State.vact, State.rechop] using h

/-- What a motion that ends is at its event, before the axis comes to standstill. -/
def State.motionShown (s : State) (a kind : Nat) : State :=
  let x := s.getAxis a
  let s := s.setAxis a { x with x := x.x / 65536 * 65536 }
  (s.showAxis a).motionEvent a kind 0 false (s.vact a) x.tag

theorem State.endMotion_eq (s : State) (a kind : Nat) :
    s.endMotion a kind = (((s.motionShown a kind).standstill a).clearMotion a kind).rechop a false := rfl

theorem State.motionShown_showsOnly (s : State) (a kind : Nat) : s.showsOnly (s.motionShown a kind) a :=
  ((s.setAxis_showsOnly a _).trans (State.showAxis_showsOnly _ a)).trans (State.motionEvent_showsOnly _ a kind 0 false _ _)

theorem State.endMotion_showsOnly (s : State) (a kind : Nat) : s.showsOnly (s.endMotion a kind) a :=
  (((s.motionShown_showsOnly a kind).trans (State.standstill_showsOnly _ a)).trans (State.clearMotion_showsOnly _ a kind)).trans
    (State.rechop_showsOnly _ a false)

theorem State.showsOnly.restState {s t : State} {a : Nat} (ha : a < 8) (h : s.showsOnly t a) : t.restState a = s.restState a := by
  have hcfg : t.rd (Fld.AX_CFG_REST_DLY a) = s.rd (Fld.AX_CFG_REST_DLY a) :=
    h.rd (by simp [Fld.AX_CFG_REST_DLY, Reg.AX_CFG]; omega)
      (by simp [shownWords, Fld.AX_CFG_REST_DLY, Reg.AX_CFG, Reg.AX_STAT, Reg.AX_XACT, Reg.AX_VACT, Reg.AX_MS])
  have hchan : t.rd (Fld.HK_CH_VAL_STATE (24 + a)) = s.rd (Fld.HK_CH_VAL_STATE (24 + a)) :=
    h.rd (by simp [Fld.HK_CH_VAL_STATE, Reg.HK_CH_VAL]; omega)
      (by simp [shownWords, Fld.HK_CH_VAL_STATE, Reg.HK_CH_VAL, Reg.AX_STAT, Reg.AX_XACT, Reg.AX_VACT, Reg.AX_MS]; omega)
  unfold State.restState
  rw [hcfg, hchan]

/-- A motion that ends leaves its axis at standstill, with its kind in LAST. -/
theorem State.endMotion_cameToRest (s : State) {a : Nat} (ha : a < 8) (kind : Nat) : CameToRest s (s.endMotion a kind) a (kind % 16) := by
  rw [State.endMotion_eq]
  have htold := State.clearMotion_sameMotion ((s.motionShown a kind).standstill a) a kind
  obtain ⟨hstate, hlast⟩ := State.clearedMotion_sameStat ((s.motionShown a kind).standstill a) a
  refine ⟨?state, ?last, State.rechop_motionless (htold.motionless ha (State.clearedMotion_motionless _ a)) false⟩
  case state =>
    rw [State.rechop, State.axState_onAxis, show State.axState _ a = _ from htold.rd (f := Fld.AX_STAT_STATE a) (stat_lt ha)]
    exact (hstate.trans (State.axState_standstill _ a)).trans (State.showsOnly.restState ha (s.motionShown_showsOnly a kind))
  case last =>
    rw [State.rechop, State.rd_onAxis, htold.rd (f := Fld.AX_STAT_LAST a) (stat_lt ha), hlast, State.last_standstill]
    exact State.last_motionEvent _ ha kind 0 false _ _

theorem State.stands_of_axState {s : State} {a n : Nat} (h : s.axState a = n) : s.stands a = decide (n ∈ [1, 2, 6]) := by
  rw [State.stands, h]

theorem State.stands_onAxis (s : State) (a : Nat) (f : Axis → Axis) (b : Nat) : (s.onAxis a f).stands b = s.stands b := by
  rw [State.stands, State.axState_onAxis, State.stands]

theorem State.stands_of_moving {s : State} {a : Nat} (h : s.axState a ∈ [3, 5]) : s.stands a = false := by
  have hmoving : s.axState a = 3 ∨ s.axState a = 5 := by simpa using h
  rcases hmoving with e | e
  · exact State.stands_of_axState e
  · exact State.stands_of_axState e

theorem CameToRest.stands {s t : State} {a kind : Nat} (h : CameToRest s t a kind) : t.stands a = true := by
  have hstate : t.axState a = s.restState a := h.state
  rcases s.restState_cases a with e | e
  · exact State.stands_of_axState (hstate.trans e)
  · exact State.stands_of_axState (hstate.trans e)

theorem State.xset_endMotion (s : State) {a : Nat} (ha : a < 8) (kind : Nat) :
    (s.endMotion a kind).getReg (Reg.AX_XSET a) = s.getReg (Reg.AX_XSET a) :=
  s.endMotion_showsOnly a kind _ (by unfold Reg.AX_XSET; omega)
    (by simp [shownWords, Reg.AX_XSET, Reg.AX_STAT, Reg.AX_XACT, Reg.AX_VACT, Reg.AX_MS])

/-! ## The soft stop (R437, R438) -/

/-- An axis that stands or is off does not stop again. -/
theorem State.softAxis_idle {s : State} {a : Nat} (h : s.axState a ∉ [3, 4, 5]) (kind : Nat) : s.softAxis a kind = s := by
  simp only [List.mem_cons, List.not_mem_nil, or_false, not_or] at h
  obtain ⟨h3, h4, h5⟩ := h
  unfold State.softAxis
  split
  · rfl
  · split
    · exact absurd ‹_› h3
    · exact absurd ‹_› h4
    · exact absurd ‹_› h5
    · rfl

theorem State.softAxis_standing {s : State} {a : Nat} (h : s.stands a = true) (kind : Nat) : s.softAxis a kind = s := by
  have hs : s.axState a ∈ [1, 2, 6] := of_decide_eq_true h
  refine State.softAxis_idle (fun hmoving => ?_) kind
  simp only [List.mem_cons, List.not_mem_nil, or_false] at hs hmoving
  omega

theorem State.together_alone {s : State} {a : Nat} (h : (s.getAxis a).group = none) : s.together a = [a] := by
  unfold State.together
  rw [h]

/-- An axis on its own that runs begins to brake. -/
theorem State.softAxis_running {s : State} {a : Nat} (ht : (s.getAxis a).took = false) (hs : s.axState a ∈ [3, 5])
    (hg : (s.getAxis a).group = none) (hr : (s.getAxis a).run = true) (kind : Nat) :
    s.softAxis a kind = s.onAxis a (fun x => { x with rev := true, ending := kind }) := by
  have hs : s.axState a = 3 ∨ s.axState a = 5 := by simpa using hs
  rcases hs with h | h <;> simp [State.softAxis, ht, h, hg, hr]

/-- An axis on its own that has not begun to run ends its motion. -/
theorem State.softAxis_atRest {s : State} {a : Nat} (ht : (s.getAxis a).took = false) (hs : s.axState a ∈ [3, 5])
    (hg : (s.getAxis a).group = none) (hr : (s.getAxis a).run = false) (kind : Nat) : s.softAxis a kind = s.endMotion a kind := by
  have hs : s.axState a = 3 ∨ s.axState a = 5 := by simpa using hs
  rcases hs with h | h <;> simp [State.softAxis, ht, h, hg, hr, State.together_alone hg]

/-- A geared axis leaves gearing to brake. -/
theorem State.softAxis_geared {s : State} {a : Nat} (ht : (s.getAxis a).took = false) (hs : s.axState a = 4) (kind : Nat) :
    s.softAxis a kind = (s.ungear a).onAxis a (fun x => { x with ending := kind }) := by
  simp [State.softAxis, ht, hs]

theorem State.axState_ungear (s : State) (a : Nat) : (s.ungear a).axState a = 3 := by
  simp [State.ungear]

theorem State.getAxis_ungear (s : State) (a : Nat) : ((s.ungear a).getAxis a).rev = true ∧ ((s.ungear a).getAxis a).x = (s.getAxis a).x := by
  simp [State.ungear]

/-! ## The position set (R428, R442, R445) -/

theorem State.captureEnc_onlyMotion (s : State) (a : Nat) : s.onlyMotion (s.captureEnc a) := by
  unfold State.captureEnc
  exact s.onAxis_onlyMotion a (fun _ => rfl) (fun _ => rfl)

/-- The set-point and MS_OFS at a new position, as the registers show them, before CNT0 and XE0 are captured. -/
def State.placed (s : State) (a : Nat) (p : Int) : State :=
  ((s.onAxis a (fun x => { x with x := p * 65536 })).wr (Fld.AX_MS_MS_OFS a) (patternOf 10 ((s.rd (Fld.AX_MS_ADDR a) : Int) - p))).showAxis a

theorem State.setPosition_eq (s : State) (a : Nat) (p : Int) : s.setPosition a p = (s.placed a p).captureEnc a := rfl

theorem State.placed_onlyMotion (s : State) (a : Nat) (p : Int) : s.onlyMotion (s.placed a p) :=
  (s.onAxis_onlyMotion a (f := fun x => { x with x := p * 65536 }) (fun _ => rfl) (fun _ => rfl)).trans rfl

theorem State.setPosition_onlyMotion (s : State) (a : Nat) (p : Int) : s.onlyMotion (s.setPosition a p) :=
  (s.placed_onlyMotion a p).trans (State.captureEnc_onlyMotion _ a)

@[simp] theorem State.getReg_captureEnc (s : State) (a b : Nat) : (s.captureEnc a).getReg b = s.getReg b := s.getReg_onAxis a _ b

/-- A new position writes XACT and MS alone. -/
theorem State.getReg_placed (s : State) {a b : Nat} (p : Int) (hx : b ≠ Reg.AX_XACT a) (hm : b ≠ Reg.AX_MS a) :
    (s.placed a p).getReg b = s.getReg b := by
  rw [State.placed, State.getReg_showAxis _ hx hm, State.getReg_wr_ne _ (Fld.AX_MS_MS_OFS a) _ hm, State.getReg_onAxis]

theorem State.getReg_setPosition (s : State) {a b : Nat} (p : Int) (hx : b ≠ Reg.AX_XACT a) (hm : b ≠ Reg.AX_MS a) :
    (s.setPosition a p).getReg b = s.getReg b := by
  rw [State.setPosition_eq, State.getReg_captureEnc, s.getReg_placed p hx hm]

/-- XACT shows the position. -/
theorem State.xact_setPosition (s : State) (a : Nat) (p : Int) :
    (s.setPosition a p).getReg (Reg.AX_XACT a) = BitVec.ofNat 32 (patternOf 32 p) := by
  rw [State.setPosition_eq, State.getReg_captureEnc, State.placed, State.showAxis,
    State.getReg_wr_ne _ (Fld.AX_MS_ADDR a) _ (xact_ne_ms a), State.getReg_setReg_same, Axis.patternOf_xact (p := p) (by simp)]

theorem addr_fits (a : Nat) : (Fld.AX_MS_ADDR a).fits := ⟨(by decide : 0 ≤ 9), (by decide : 9 < 32)⟩
theorem msOfs_fits (a : Nat) : (Fld.AX_MS_MS_OFS a).fits := ⟨(by decide : 16 ≤ 25), (by decide : 25 < 32)⟩

/-- ADDR stays, since MS_OFS makes up for the step of XACT (R428). -/
theorem State.addr_setPosition (s : State) (a : Nat) (p : Int) : (s.setPosition a p).rd (Fld.AX_MS_ADDR a) = s.rd (Fld.AX_MS_ADDR a) := by
  have haddr : s.rd (Fld.AX_MS_ADDR a) < 1024 := Nat.mod_lt _ (Nat.two_pow_pos 10)
  have hwa : 2 ^ ((Fld.AX_MS_ADDR a).hi + 1 - (Fld.AX_MS_ADDR a).lo) = 1024 := rfl
  have hwo : 2 ^ ((Fld.AX_MS_MS_OFS a).hi + 1 - (Fld.AX_MS_MS_OFS a).lo) = 1024 := rfl
  rw [State.setPosition_eq, State.captureEnc, State.placed, State.showAxis, State.rd_onAxis, State.rd_wr_same _ _ _ (addr_fits a),
    Axis.patternOf_xact (p := p) (by simp), State.rd_setReg_ne _ _ (ms_ne_xact a),
    State.rd_wr_same _ _ _ (msOfs_fits a), hwa, hwo, Nat.mod_mod, Nat.add_mod_mod]
  exact address_of_offset p haddr

/-- The set-point is the position, and XE0 is captured there. -/
theorem State.getAxis_setPosition (s : State) (a : Nat) (p : Int) :
    ((s.setPosition a p).getAxis a).x = p * 65536 ∧
    ((s.setPosition a p).getAxis a).xe0 = ((s.setPosition a p).getAxis a).xact := by
  simp [State.setPosition, State.captureEnc, Axis.xact]

/-- CNT0 is the count of the axis's encoder. -/
theorem State.cnt0_setPosition (s : State) (a : Nat) (p : Int) :
    ((s.setPosition a p).getAxis a).cnt0 = s.encCount (s.rd (Fld.AX_CFG_ENC a)) := by
  have henc : s.rd (Fld.AX_CFG_ENC a) < 16 := Nat.mod_lt _ (Nat.two_pow_pos 4)
  have hcfg : (s.placed a p).getReg (Reg.AX_CFG a) = s.getReg (Reg.AX_CFG a) :=
    s.getReg_placed p (by unfold Reg.AX_CFG Reg.AX_XACT; omega) (by unfold Reg.AX_CFG Reg.AX_MS; omega)
  have hcnt : (s.placed a p).getReg (Reg.ENC_CNT (s.rd (Fld.AX_CFG_ENC a))) = s.getReg (Reg.ENC_CNT (s.rd (Fld.AX_CFG_ENC a))) :=
    s.getReg_placed p (by unfold Reg.ENC_CNT Reg.AX_XACT; omega) (by unfold Reg.ENC_CNT Reg.AX_MS; omega)
  have hread : (s.placed a p).rd (Fld.AX_CFG_ENC a) = s.rd (Fld.AX_CFG_ENC a) := congrArg (bitsOf · 23 20) hcfg
  rw [State.setPosition_eq, State.captureEnc, State.getAxis_onAxis_same]
  dsimp only
  rw [hread, State.encCount, hcnt, State.encCount]

/-- The position set of R445: XACT from XSET, with POS_VALID. -/
def State.takeXset (s : State) (a : Nat) : State :=
  (s.setPosition a (signedOf 32 (s.getReg (Reg.AX_XSET a)).toNat)).wr (Fld.AX_STAT_POS_VALID a) 1

theorem State.xact_takeXset (s : State) (a : Nat) : (s.takeXset a).getReg (Reg.AX_XACT a) = s.getReg (Reg.AX_XSET a) := by
  rw [State.takeXset, State.getReg_wr_ne _ (Fld.AX_STAT_POS_VALID a) _ (xact_ne_stat a), State.xact_setPosition, ofNat_patternOf_signedOf]

theorem State.posValid_takeXset (s : State) (a : Nat) : (s.takeXset a).on (Fld.AX_STAT_POS_VALID a) = true := by
  have h : (s.takeXset a).rd (Fld.AX_STAT_POS_VALID a) = 1 := State.rd_wr_same _ _ 1 (posValid_fits a)
  rw [State.on, h]
  rfl

theorem State.addr_takeXset (s : State) (a : Nat) : (s.takeXset a).rd (Fld.AX_MS_ADDR a) = s.rd (Fld.AX_MS_ADDR a) :=
  (State.rd_wr_ne _ (Fld.AX_STAT_POS_VALID a) (Fld.AX_MS_ADDR a) 1 (ms_ne_stat a)).trans (s.addr_setPosition a _)

theorem State.takeXset_regsBut (s : State) (a : Nat) : s.regsBut (s.takeXset a) [Reg.AX_XACT a, Reg.AX_MS a, Reg.AX_STAT a] := by
  intro b hb
  simp only [List.mem_cons, List.not_mem_nil, or_false, not_or] at hb
  obtain ⟨hx, hm, hs⟩ := hb
  exact (State.getReg_wr_ne _ (Fld.AX_STAT_POS_VALID a) 1 hs).trans (s.getReg_setPosition _ hx hm)

theorem State.takeXset_onlyMotion (s : State) (a : Nat) : s.onlyMotion (s.takeXset a) :=
  (s.setPosition_onlyMotion a _).trans rfl

theorem State.takeXset_sameStat (s : State) (a : Nat) : s.sameStat (s.takeXset a) a :=
  (State.sameStat_of_getReg (s.getReg_setPosition _ (stat_ne_xact a) (stat_ne_ms a))).trans
    (State.wr_sameStat _ a 1 (posValid_fits a) (by decide : 27 < 31))

theorem State.takeXset_motionless {s : State} {a : Nat} (h : s.motionless a) : (s.takeXset a).motionless a := by
  obtain ⟨hvact, hstill⟩ := h
  refine ⟨?_, by simpa [State.takeXset, State.setPosition, State.captureEnc] using hstill⟩
  rw [State.vact, s.takeXset_regsBut a _ (by simp [vact_ne_xact, vact_ne_ms, vact_ne_stat])]
  exact hvact

/-- The position set leaves an axis at rest as it is. -/
theorem CameToRest.takeXset {s t : State} {a kind : Nat} (h : CameToRest s t a kind) : CameToRest s (t.takeXset a) a kind := by
  obtain ⟨hstate, hlast⟩ := t.takeXset_sameStat a
  exact ⟨hstate.trans h.state, hlast.trans h.last, State.takeXset_motionless h.still⟩

/-! ## The command -/

theorem State.writeAxCtl_stop (s : State) (a : Nat) {v : Word} (h : bitOf v 31 = true) : s.writeAxCtl a v = s.stopAxis a := if_pos h

/-- A write of AXa_CTL with SET_POS and without STOP: a soft stop where SOFTSTOP is set, then the position set where the axis stands (R438). -/
theorem State.writeAxCtl_setPos {s t : State} {a : Nat} {v : Word} (h31 : bitOf v 31 = false) (h29 : bitOf v 29 = true)
    (ht : (if bitOf v 30 then s.softAxis a 4 else s) = t) : s.writeAxCtl a v = if t.stands a then t.takeXset a else t := by
  unfold State.writeAxCtl
  rw [if_neg (by simp [h31]), ht]
  simp only [h29, true_and]
  rfl

/-- SET_POS without STOP is such a write, and its SOFTSTOP is that of its operand. -/
theorem exec_setPos {s t : State} (hc : s.calm) {a : Fin 8} (hr : s.reaches (Reg.AX_CTL a)) (m : Master) {v : Word}
    (h31 : bitOf v 31 = false) (ht : (if bitOf v 30 then s.softAxis a 4 else s) = t) :
    exec (.setPos m a v) s = .next (if t.stands a then t.takeXset a else t) := by
  have e31 : bitOf (v ||| 0x20000000) 31 = false := by rw [bitOf_or, h31]; rfl
  have e30 : bitOf (v ||| 0x20000000) 30 = bitOf v 30 := by rw [bitOf_or, show bitOf 0x20000000 30 = false from rfl, Bool.or_false]
  have e29 : bitOf (v ||| 0x20000000) 29 = true := by rw [bitOf_or, show bitOf 0x20000000 29 = true from rfl, Bool.or_true]
  rw [← e30] at ht
  exact congrArg _ ((State.unfrozen_accessBy_calm hc hr m _).trans (State.writeAxCtl_setPos e31 e29 ht))

theorem exec_setPos_standing {s t : State} (hc : s.calm) {a : Fin 8} (hr : s.reaches (Reg.AX_CTL a)) (m : Master) {v : Word}
    (h31 : bitOf v 31 = false) (ht : (if bitOf v 30 then s.softAxis a 4 else s) = t) (hs : t.stands a = true) :
    exec (.setPos m a v) s = .next (t.takeXset a) :=
  (exec_setPos hc hr m h31 ht).trans (congrArg _ (if_pos hs))

theorem exec_setPos_moving {s t : State} (hc : s.calm) {a : Fin 8} (hr : s.reaches (Reg.AX_CTL a)) (m : Master) {v : Word}
    (h31 : bitOf v 31 = false) (ht : (if bitOf v 30 then s.softAxis a 4 else s) = t) (hs : t.stands a = false) :
    exec (.setPos m a v) s = .next t :=
  (exec_setPos hc hr m h31 ht).trans (congrArg _ (if_neg (Bool.eq_false_iff.mp hs)))

/-- SET_POS with STOP is a stop request alone (R438). -/
theorem exec_setPos_stop {s : State} (hc : s.calm) {a : Fin 8} (hr : s.reaches (Reg.AX_CTL a)) (m : Master) {v : Word}
    (h31 : bitOf v 31 = true) : exec (.setPos m a v) s = exec (.axisStop m a v) s := by
  have hstop : ∀ w : Word, s.writeAxCtl a (v ||| w) = s.stopAxis a := fun w =>
    s.writeAxCtl_stop a (by rw [bitOf_or, h31, Bool.true_or])
  change Host.Outcome.next (s.unfrozen _) = Host.Outcome.next (s.unfrozen _)
  rw [State.unfrozen_accessBy_calm hc hr m, State.unfrozen_accessBy_calm hc hr m, hstop, hstop]

/-- Settles O60: the soft stop comes first, and the position is set where the axis stands after it. -/
theorem setPosition : Obligations.SetPosition := by
  unfold Obligations.SetPosition
  intro m a v s hc hr
  refine ⟨exec_setPos_stop hc hr m, ?standing, ?moving, ?braking, ?resting, ?geared⟩
  case standing =>
    intro h31 hs
    have hsoft : (if bitOf v 30 then s.softAxis a 4 else s) = s := by rw [State.softAxis_standing hs, ite_self]
    obtain ⟨hx, hxe0⟩ := s.getAxis_setPosition a (signedOf 32 (s.getReg (Reg.AX_XSET a)).toNat)
    exact ⟨_, exec_setPos_standing hc hr m h31 hsoft hs, s.xact_takeXset a, hx, s.addr_takeXset a, s.cnt0_setPosition a _, hxe0,
      s.posValid_takeXset a, s.takeXset_regsBut a, s.takeXset_onlyMotion a⟩
  case moving =>
    intro h31 h30 hs
    exact exec_setPos_moving hc hr m h31 (if_neg (Bool.eq_false_iff.mp h30)) hs
  case braking =>
    intro h31 h30 hst hg hrun htook
    have hpre : (if bitOf v 30 then s.softAxis a 4 else s) = s.softAxis a 4 := if_pos h30
    have hsoft := hpre.trans (State.softAxis_running htook hst hg hrun 4)
    have hstand : ∀ f, (s.onAxis a f).stands a = false := fun f => (s.stands_onAxis a f a).trans (State.stands_of_moving hst)
    exact ⟨_, exec_setPos_moving hc hr m h31 hsoft (hstand _), by simp, by simp, by simp, fun b _ => s.getReg_onAxis a _ b⟩
  case resting =>
    intro h31 h30 hst hg hrun htook
    have hpre : (if bitOf v 30 then s.softAxis a 4 else s) = s.softAxis a 4 := if_pos h30
    have hsoft := hpre.trans (State.softAxis_atRest htook hst hg hrun 4)
    have hrest := s.endMotion_cameToRest a.isLt 4
    exact ⟨_, exec_setPos_standing hc hr m h31 hsoft hrest.stands, hrest.takeXset,
      (State.xact_takeXset _ a).trans (s.xset_endMotion a.isLt 4), State.posValid_takeXset _ a⟩
  case geared =>
    intro h31 h30 hst htook
    have hpre : (if bitOf v 30 then s.softAxis a 4 else s) = s.softAxis a 4 := if_pos h30
    have hsoft := hpre.trans (State.softAxis_geared htook hst 4)
    have hstate := (State.axState_onAxis (s.ungear a) a (fun x => { x with ending := 4 }) a).trans (s.axState_ungear a)
    obtain ⟨hrev, hx⟩ := s.getAxis_ungear a
    exact ⟨_, exec_setPos_moving hc hr m h31 hsoft (State.stands_of_axState hstate), hstate, by simpa using hrev, by simpa using hx⟩

end Sys2Proof.Machine
end
